-- ==== Sys2Proof/Config.lean ====
section
/-! DEFINITION. What the manual leaves to the implementation: constants without a body, so that nothing can rest
on a value of theirs. Each is applied to what it depends on, or to the state's plain counter. -/

namespace Sys2Proof.Config

/-- A byte whose content the manual calls undefined (R4): serial number of the marking, address. -/
opaque freeByte : Nat → Nat → Byte

/-- A 32-bit value that the manual leaves open, from the state's counter. -/
opaque freeWord : Nat → Word

/-- The vector functions outside R61 (R88): the code of the function and the FP32 operand. One value for each
operand, fixed by the stepping and the firmware version (R75). -/
opaque vecFn : Nat → Word → Word

/-- The derivatives of ACT_GRAD that are computed (R90): the code of the function and the pre-activation. -/
opaque actGrad : Nat → Word → Word

/-- SHAKE256 with a 256-bit output (FIPS 202, R369). -/
opaque shake256 : Bytes → Bytes

/-- Falcon-1024 verification (R369): public key, message, signature. -/
opaque falconVerify : Bytes → Bytes → Bytes → Bool

/-- Falcon-1024 signature of the device identity key (R380): counter, message. -/
opaque falconSign : Nat → Bytes → Bytes

/-- SHAKE256 digests of the four fused firmware public keys (R369). -/
opaque keyDigest : Nat → Bytes

/-- Reduced-order choice among equals that the manual does not fix, from the state's counter. -/
opaque freePick : Nat → Nat

/-- The rank of the module at a position of a physical axis: the manual does not say how Eddy learns it (log 43). -/
opaque ringRank : Nat → Nat → Nat

/-- One sample of an audio resampler (R327 step 2): input samples as FP32, source rate, destination rate, index. -/
opaque resample : List Word → Nat → Nat → Nat → Word

/-- The cosine and sine of the Fourier transform and the Hann window of R327 step 4: window length, numerator, kind. -/
opaque fourier : Nat → Nat → Nat → Word

/-- The edge weight of a mel filter (R327 step 4): rate, window, bins, minimum, maximum, bin, frequency line. -/
opaque melWeight : Nat → Nat → Nat → Word → Word → Nat → Nat → Word

/-- The FP32 sum of terms whose order of addition the manual leaves open (R326, R327). -/
opaque sumAny : List Word → Word

/-- Which neighbour the nearest filter takes at a source coordinate half way between two pixels (R326): the upper. -/
opaque nearestTie : Word → Bool

/-- Whether a video output draws its first frame before its crop (R325, R326, R328 do not say). -/
opaque startDrawnFirst : Bool

/-- The mean cycles per unit that firmware loads for a codec class at LOAD_JOB (R338), in 1/256 cycle. -/
opaque classMean : Nat → Nat

/-- A two-channel mix of an input that has not two channels (R327 does not say): its channels, the output channel. -/
opaque stereoMix : List Word → Nat → Word

/-- The natural logarithm of the Spring die (R327), whose accuracy is not stated. -/
opaque lnSpring : Word → Word

/-- Samples of a resampled signal (R327 step 2): samples before, source rate, destination rate. -/
opaque resampleCount : Nat → Nat → Nat → Nat

/-- The DRAM row that holds a sector (R240), which the manual maps to no address: stack, frame, sector of the frame. -/
opaque rowOf : Nat → Nat → Nat → Nat

/-- The bank of that row: stack, frame, sector of the frame. -/
opaque bankOf : Nat → Nat → Nat → Nat

/-- The fused serial of a die (R249), by die index. -/
opaque dieSerial : Nat → Nat

/-- The device identity public key of the part (R379): fused, and not stated. -/
opaque identityKey : Bytes

/-- The signature of the manufacturing key in SIDCERT (R381): fused, and not stated. -/
opaque certSignature : Bytes

/-- The voltage in mV that a cluster needs at a frequency in MHz (R388), which the manual does not state. -/
opaque railNeed : Nat → Nat → Nat

/-- The serial number of the part (R22): fused, and not stated. -/
opaque moduleSerial : DWord

/-- The PCI vendor ID of Ryster Devices (R345), which the manual does not state. -/
opaque vendorId : Nat

/-- Space 3 of the data port (R361): the non-volatile retirement list and lane maps, whose layout the manual does not
give: state counter, address. -/
opaque nvWord : Nat → Nat → Word

/-- A configuration register of a place the manual does not describe (R345): state counter, offset. -/
opaque configWord : Nat → Nat → Word

/-- The LINEAR11 word of a quotient (R425): its exponent and rounding are open: numerator, denominator. -/
opaque linear11 : Nat → Nat → BitVec 16

/-- The answer to a network request (R359), whose bytes the named standards give: protocol, request. -/
opaque netAnswer : Nat → Bytes → Bytes

end Sys2Proof.Config
end

