-- ==== Sys2Proof/Syntax.lean ====
section
/-! DEFINITION. The commands of the module: one constructor for each row of spec/opcode_table.json, in its order.
An opcode row names the in-flight command it runs by its serial number; an event row carries what arrives from
outside: a value written, a measurement, a message, the outcome of a test, the bytes a host read returned. -/

namespace Sys2Proof

/-- Who makes a register access (R16, R344, R350), or the host's access to the MSI-X table through BAR4/5 (R348). -/
inductive Source where
  | host | cores | dataPort | hostMsix
  deriving DecidableEq, Repr

/-- How device memory is reached beside commands: the host through the aperture, whose offset APBASE completes (R349); the
application cores at a device address of the loaded job, or in their own 16 GiB window (R230, R344). -/
inductive Via where
  | aperture | coreJob | coreWindow
  deriving DecidableEq, Repr

/-- What a read of host memory over PCIe returns: the bytes, or a request that ended in Unsupported Request,
Completer Abort or a completion timeout (R352, R355). -/
inductive HostRead where
  | data (bytes : Bytes)
  | failed
  deriving DecidableEq, Repr

/-- An access to device memory beside commands: the way and the offset or address. -/
structure Access where
  via : Via
  off : Nat
  deriving DecidableEq, Repr

/-- How the HBM sectors of an access behave (R238, R239): clean, corrected by the on-die ECC, good on the one retry,
uncorrectable. -/
inductive Sector where
  | clean | corrected | retried | uncorrectable
  deriving DecidableEq, Repr

/-- The sectors of a packet fetch (R239): the slot's, in a ring in HBM, and those of the extended block. -/
structure FetchSectors where
  slot : Sector
  ext : Sector
  deriving DecidableEq, Repr

/-- A tile of an array's work: array B or A, and the tile's number (R102). -/
structure ArrayTile where
  array : Bool
  tile : Nat
  deriving DecidableEq, Repr

/-- A bundle flit (R245): the lane in use that carried it, the end that sent it, its sequence number. -/
structure BundleFlit where
  lane : Nat
  farEnd : Bool
  seq : Nat
  deriving DecidableEq, Repr

/-- The four guard configuration registers whose writes are held (R147). -/
inductive GuardReg where
  | tcfg | tlim | tinit | ttset
  deriving DecidableEq, Repr

/-- What a critical-path monitor finds against its band (R388, R390, R391). -/
inductive Margin where
  | ample | held | lacking | belowQuarter
  deriving DecidableEq, Repr

/-- The stream that a request to a stack belongs to, which gives its class and its deadline (R197, R199): the prefetch of
a started command on a physical Mere, with the chunks left in the slice in hand; the first slice of a waiting command; batch
writes and record reads of an ingest stream; any other read; write-back and the writes of engines; Basin, Eddy, pipeline
queues and mirrors. -/
inductive HbmStream where
  | prefetch (mere : Nat) (chunksLeft : Nat)
  | firstSlice (mere : Nat)
  | spring (stream : Nat)
  | read
  | write
  | remote
  deriving DecidableEq, Repr

/-- A request that reaches a stack controller (R199-R201): the die and the rank of its engine in the tie order (Mere stream
engines by physical index, then S, then the others), its stream, whether it writes, its first sector in the stack and the
number of sectors. -/
structure HbmRequest where
  die : Nat
  engine : Nat
  stream : HbmStream
  isWrite : Bool
  first : Nat
  count : Nat
  deriving DecidableEq, Repr

/-- Who reads the sector that came back uncorrectable (R239, R49, R340). -/
inductive SectorUser where
  | command (cid : Nat)
  | stateBlock (cid : Nat) (block : Nat)
  | gradient (cid : Nat)
  | record (stream : Nat)
  deriving DecidableEq, Repr

/-- What start-up finds (R363, R364): the first step that fails with its stage code, if any; the Meres that fail
step 7 by physical number; the ports that fail their loopback; the bundle positions excluded by the
start-up tests; the step of discovery that exceeds its bound (R251); the identity records that are not as fused, by die index
(R249); the stacks that fail a step of R252, the failing rows found (stack, row key); the measured PIDLE and PMIN; whether every sensor reads below 95 degrees (R393); the stored image
checks of the boot chain (R372): for each type whether the pending and the active bank pass R371. -/
structure StartReport where
  failStage : Option Nat
  badMeres : List Nat
  badPorts : List Nat
  badPositions : List (Nat × Nat)
  discoveryStep : Option Nat
  identities : List (Nat × Bytes)
  badStacks : List Nat
  pidle : Nat
  pmin : Nat
  cool : Bool
  pendingFails : List (Nat × Nat)
  activeFails : List (Nat × Nat)
  repairedRows : List (Nat × Nat)
  deriving DecidableEq, Repr

/-- What one rejoin attempt finds (R256): the step that failed, if any, the positions excluded, whether a partner was lost
meanwhile (R258), the identity records that are not as fused, the stacks that fail a step of R252, the failing rows found. -/
structure RejoinReport where
  failStep : Option Nat
  badPositions : List (Nat × Nat)
  partnerLost : Bool
  identities : List (Nat × Bytes)
  badStacks : List Nat
  repairedRows : List (Nat × Nat)
  deriving DecidableEq, Repr

/-- What one training attempt of a port finds (R263-R265): whether a peer answers, its highest generation and cap,
its lane maps, its identity, and for each generation the lanes with bit errors in step 5. -/
structure TrainReport where
  peer : Bool
  peerGen : Nat
  peerCap : Nat
  peerMap : List Nat
  peerSerial : DWord
  peerPart : Nat
  peerPort : Nat
  badLanes : List (Nat × List Nat)
  stepsInBound : Bool
  deriving DecidableEq, Repr

/-- The 16-byte class header of a message's first fragment (R285), with the class and the axis it came along. -/
structure Header where
  cls : Nat
  dst : Nat
  src : Nat
  id : Word
  spec : Word
  deriving DecidableEq, Repr

/-- What a decoder lane delivers for one field (R319, R336): the pictures or samples of the decoded medium as whole
numbers, or the reason code 3 or 4 it ends with. The bit-stream standards are outside the manual. -/
inductive Media where
  | image (width height channels fullScale : Nat) (pixels : List Nat)
  | video (width height channels : Nat) (frames : List (Nat × List Nat)) (total : Nat)
  | audio (rate channels : Nat) (samples : List Word)
  | bad (reason : Nat)
  deriving DecidableEq, Repr

/-- What the lanes delivered for one field of a reserve record (R337, R338): the output, the decoded medium, the cycles it
took, and how often its decode budget expired. -/
structure ReserveField where
  output : Nat
  media : Media
  cycles : Nat
  expiries : Nat
  deriving DecidableEq, Repr

/-- What a background scrub read or rewrite finds (R404, R403). -/
inductive ScrubOutcome where
  | clean | corrected | retried | uncorrectable
  deriving DecidableEq, Repr

/-- What an SRAM scrub covers (R403). -/
inductive ScrubTarget where
  | longLived (die : Nat)
  | mere (physical : Nat) (tarn : Bool)
  deriving DecidableEq, Repr

/-- Where a contained error is, at the level its location gives it (R406): its location, the source code of its kind
(R413) and the address it names. -/
inductive ErrorSite where
  | mere (physical : Nat) (source : Nat)
  | cluster (die cluster : Nat) (source : Nat)
  | die (die : Nat) (unit : Nat) (address : Nat)
  | module (source : Nat)
  deriving DecidableEq, Repr

/-- A network frame to the management controller (R359). -/
inductive NetFrame where
  | arp (request : Bytes)
  | echo (request : Bytes)
  | neighbour (request : Bytes)
  | dhcp (address : Word)
  | other
  deriving DecidableEq, Repr

/-- A configuration, verify or restore message of the mirror (R306, R309): the bytes of the four images; the bytes that
the host's region is short of, 0 where it serves; the CRCs of the blocks; the mirror's state, generations and images. -/
inductive MirrorMsg where
  | configSize (images : List Nat)
  | configAnswer (short : Nat)
  | remove
  | verifyRequest
  | crcs (values : List Word)
  | restoreRequest
  | restoreData (state : Nat) (genC genF : DWord) (done : Nat) (image : Bytes)
  deriving DecidableEq, Repr

/-- The commands, in the order of spec/opcode_table.json. -/
inductive Instr where
  /-- MATMUL (R100). Matrix product command: issue checks, tiling over Meres, accumulation, drain and conversion of the output. -/
  | matmul (cid : Nat)
  /-- MATMUL_BWD (R150). Backward product command that computes dX on array A and dW or the adapter outputs on array B from one read of each dY tile. -/
  | matmulBwd (cid : Nat)
  /-- CONV (R179). Sliding-window convolution in forward, input-gradient or weight-gradient role, mapped onto an array product. -/
  | conv (cid : Nat)
  /-- POOL (R186). Max, average or adaptive average pooling over windows of the input. -/
  | pool (cid : Nat)
  /-- VECTOR (R94). Runs a drain-format program over a tensor on the vector engines and converts the result into the output format. -/
  | vector (cid : Nat)
  /-- STATS (R124). Computes sums of squares, mean and variance, or combines drain taps, on the vector engines. -/
  | stats (cid : Nat)
  /-- ATTN_BLOCK (R303). Gang command that computes one forward or backward attention block with online softmax. -/
  | attnBlock (cid : Nat)
  /-- COPY (R202). Bulk engines copy strided rows of bytes between descriptors. -/
  | copy (cid : Nat)
  /-- HOST_COPY (R355). Copies bytes between host memory and a descriptor over PCIe in either direction. -/
  | hostCopy (cid : Nat) (host : HostRead)
  /-- FILL (R203). Bulk engines write a 32-bit pattern repeatedly over a byte range of a descriptor. -/
  | fill (cid : Nat)
  /-- COMPRESS (R218). Encodes a raw tensor into a compressed descriptor, with its block tables, spill area and header. -/
  | compress (cid : Nat)
  /-- DECOMPRESS (R226). Decodes a compressed descriptor into a raw destination. -/
  | decompress (cid : Nat)
  /-- PIPE_SEND (R305). Sends one pipeline queue entry to a peer when a credit is held, and commits on the peer's acknowledgement. -/
  | pipeSend (cid : Nat)
  /-- PIPE_RECV (R305). Takes the next waiting pipeline entry into the destination and returns a credit to the sender. -/
  | pipeRecv (cid : Nat)
  /-- ALLOC (R233). Maps spans of free frames behind a descriptor range and charges the issuing queue's quota. -/
  | alloc (cid : Nat)
  /-- FREE (R234). Unmaps the spans of a range, credits their owners and returns or retires the frames. -/
  | free (cid : Nat)
  /-- REDUCE_SCATTER (R288). Staged reduction of gradient contributions across modules into owned shards, ending in a close round and step verdict. -/
  | reduceScatter (cid : Nat)
  /-- ALL_GATHER (R298). Gathers shards from every participant into one tensor and checks shard generations. -/
  | allGather (cid : Nat)
  /-- KV_RING (R301). Passes key and value blocks around the sequence ring into receive slots. -/
  | kvRing (cid : Nat)
  /-- KV_RING_BWD (R302). Passes blocks around the ring again with an FP32 accumulator of partial dK and dV that returns to the owner. -/
  | kvRingBwd (cid : Nat)
  /-- INGEST_OPEN (R321). Opens or closes an ingest stream with its configuration block, source ring and dictionary. -/
  | ingestOpen (cid : Nat)
  /-- INGEST_BATCH (R331). Makes a number of batches of a stream, committing batch by batch. -/
  | ingestBatch (cid : Nat)
  /-- INGEST_RELEASE (R332). Frees a prepared-batch queue slot, marking its batch as taken. -/
  | ingestRelease (cid : Nat)
  /-- INGEST_SEEK (R334). Sets a stream's record position, epoch and optionally its reserve position for the next batch. -/
  | ingestSeek (cid : Nat)
  /-- DICT_LOAD (R316). Loads a tokeniser dictionary into a slot and builds its match index. -/
  | dictLoad (cid : Nat)
  /-- UPDATE_SGD (R166). Update engine applies an SGD step to a master shard and its momentum after the step verdict. -/
  | updateSgd (cid : Nat)
  /-- UPDATE_ADAM (R166). Update engine applies an Adam step to a master shard and its two moments after the step verdict. -/
  | updateAdam (cid : Nat)
  /-- UPDATE_LION (R166). Update engine applies a Lion step to a master shard and its moment after the step verdict. -/
  | updateLion (cid : Nat)
  /-- LOSS_SCALE (R171). Sets the loss scale, its growth and back-off parameters and resets the adjustment state. -/
  | lossScale (cid : Nat)
  /-- MIRROR_CONFIG (R306). Configures a mirror slot in source, host or remove role and fills the mirror with the current state. -/
  | mirrorConfig (cid : Nat)
  /-- SNAPSHOT (R309). Writes a master and its moments to host memory in the mirror layout. -/
  | snapshot (cid : Nat)
  /-- RESTORE (R309). Copies a master and its moments from the mirror or from host memory and sets the generation. -/
  | restore (cid : Nat) (host : HostRead)
  /-- MIRROR_VERIFY (R309). Compares block CRCs of local state and mirror and marks the mirror broken on mismatch. -/
  | mirrorVerify (cid : Nat)
  /-- LOAD_JOB (R53). Checks job state and admission, then loads a job, zeroing the scoreboard and resetting per-job state. -/
  | loadJob (cid : Nat)
  /-- END_JOB (R54). Kills or waits for the job's commands, disables job queues, zeroes the scoreboard and optionally all allocatable HBM. -/
  | endJob (cid : Nat)
  /-- PHASE (R283). Installs a route table for a new phase and commits once every port has switched to it. -/
  | phase (cid : Nat)
  /-- STEP_BEGIN (R284). Starts a new step: guard evaluation, norm slots cleared, loss scale copied, verdict cleared, phase reset. -/
  | stepBegin (cid : Nat)
  /-- SUSPEND (R50). Stops job queues, kills kill-class commands, lets run-class commands commit and saves queue positions. -/
  | suspend (cid : Nat)
  /-- RESUME (R51). Re-dispatches killed commands in ring order, skips committed slots and resumes fetching. -/
  | resume (cid : Nat)
  /-- TOKEN_SET (R55). Sets a token counter's count and optionally clears its poison at commit. -/
  | tokenSet (cid : Nat)
  /-- NOP (R55). Command that only waits on and signals tokens. -/
  | nop (cid : Nat)
  /-- FW_DOWNGRADE (R378). Under presence, stores a signed image checked against the fused floor as pending. -/
  | fwDowngrade (cid : Nat) (host : HostRead)
  /-- KEY_ROTATE (R378). Under presence, burns the revoked bit of every firmware key slot below the named slot. -/
  | keyRotate (cid : Nat)
  /-- DEBUG_UNLOCK (R378). Under presence, checks a bound debug token and opens the debug ports until module reset. -/
  | debugUnlock (cid : Nat) (host : HostRead)
  /-- SPARE_OVERRIDE (R378). Under presence, adds or removes an entry of the non-volatile lane map. -/
  | spareOverride (cid : Nat)
  /-- FUSE_WRITE (R378). Under presence, raises a fused floor or permanently disables the service jumper. -/
  | fuseWrite (cid : Nat)
  /-- TELEMETRY_READ (R357). Writes the selected telemetry sections to host memory. -/
  | telemetryRead (cid : Nat)
  /-- POWER_CAP (R399). Sets or removes the module power cap in Weir's allowance. -/
  | powerCap (cid : Nat)
  /-- QUOTA_SET (R236). Sets the HBM quota of a job queue. -/
  | quotaSet (cid : Nat)
  /-- ERRLOG_READ (R356). Copies error-log entries from a sequence number onward to host memory. -/
  | errlogRead (cid : Nat)
  /-- FW_UPDATE (R374). Validates a signed image against the stored floor and stores it as pending in the inactive bank. -/
  | fwUpdate (cid : Nat) (host : HostRead)
  /-- ATTEST (R380). Writes a signed attestation report with measurements, floors and the supplied nonce. -/
  | attest (cid : Nat)
  /-- PACKET_FETCH (R35). The command processor fetches the next packet of a queue, converts version 1 packets and makes the packet checks. -/
  | packetFetch (q : Nat) (host : HostRead) (hbm : FetchSectors)
  /-- COMMAND_DISPATCH (R46). The oldest undispatched command of a queue is tested for poison and readiness and dispatched with its token decrements. -/
  | commandDispatch (q : Nat)
  /-- TOKEN_WAIT_TIMEOUT (R46). A command's accumulated wait time reaches wait_ms and it completes with TIMEOUT, poisoning its signal counter. -/
  | tokenWaitTimeout (q : Nat)
  /-- COMMAND_COMMIT (R48). A command reaches its commit point, its results become committed and its signal counter is incremented. -/
  | commandCommit (cid : Nat)
  /-- REPLY_WRITE (R32). A status reply is written into a free reply slot, RTAIL advances and the MSI-X vector is raised if requested. -/
  | replyWrite (q : Nat) (hbm : Sector)
  /-- REPLY_RETRY (R430). A held reply whose HBM sector was uncorrectable is tried again every 1 ms. -/
  | replyRetry (q : Nat) (hbm : Sector)
  /-- QUEUE_DOORBELL (R31). A write to QTAIL rings the doorbell or is discarded with overrun. -/
  | queueDoorbell (q : Nat) (v : Word)
  /-- QUEUE_ENABLE (R30). Setting QCTRL enable samples the ring configuration and tests QTAIL, or is refused with cfg_error. -/
  | queueEnable (q : Nat)
  /-- QUEUE_DISABLE (R29). Clearing QCTRL enable disables the queue, refused while any of its commands is dispatched and uncommitted. -/
  | queueDisable (q : Nat)
  /-- QUEUE_PAUSE (R29). Setting or clearing QCTRL pause stops or restarts dispatch of new commands. -/
  | queuePause (q : Nat) (on : Bool)
  /-- QTIMEOUT_WRITE (R30). A write to QTIMEOUT takes effect at once and retests every waiting command against the new limit. -/
  | qtimeoutWrite (q : Nat) (v : Word)
  /-- RHEAD_UPDATE (R32). Software advances RHEAD, freeing reply slots. -/
  | rheadUpdate (q : Nat) (v : Word)
  /-- REGISTER_WRITE (R7). A write to a register with no behaviour of its own, applied by its access code, including W1C and RWP refusal. -/
  | registerWrite (src : Source) (off : Nat) (size : Nat) (v : DWord)
  /-- GUARD_CONFIG_WRITE (R147). A write to TCFG, TLIM, TINIT or TTSET is held until the next guard evaluation. -/
  | guardConfigWrite (src : Source) (tag : Nat) (reg : GuardReg) (v : Word)
  /-- SSHARE_WRITE (R198). A write to SSHARE sets the compute-class HBM shares from the next window, or is discarded. -/
  | sshareWrite (src : Source) (die : Nat) (v : Word)
  /-- SDSHARE_WRITE (R320). A write to a stream's decoder share takes effect at the next decoder window, or is discarded. -/
  | sdshareWrite (src : Source) (stream : Nat) (v : Word)
  /-- SOURCE_TAIL_WRITE (R310). Software advances a stream's source or reserve ring tail. -/
  | sourceTailWrite (src : Source) (stream : Nat) (reserve : Bool) (v : Word)
  /-- WCTRL_WRITE (R400). A write to Weir's controls takes effect at the next sample, or is discarded with wctrl_refused. -/
  | wctrlWrite (src : Source) (v : Word)
  /-- FREQ_TARGET_WRITE (R400). A write to PCTRL sets the cluster frequency target and thermal placement, discarding out-of-range targets. -/
  | freqTargetWrite (src : Source) (v : Word)
  /-- PORT_RETRAIN (R278). The PCTRL retrain bit retrains a port under R263, keeping nothing. -/
  | portRetrain (src : Source) (p : Nat)
  /-- PORT_ENABLE (R278). Setting PCTRL enable starts training of a port. -/
  | portEnable (src : Source) (p : Nat)
  /-- PORT_DISABLE (R271). Clearing PCTRL enable takes the port down. -/
  | portDisable (src : Source) (p : Nat)
  /-- GEN_CAP_WRITE (R264). A write to gen_cap below the running generation retrains the port at once, otherwise takes effect at next training. -/
  | genCapWrite (src : Source) (p : Nat) (v : Nat)
  /-- END_WINDOW (R381). The SECCTRL end_window bit closes the presence press window at once. -/
  | endWindow (src : Source)
  /-- JUMPER_IGNORE_WRITE (R381). An RWP write to jumper_ignore stops the jumper giving presence until power-on. -/
  | jumperIgnoreWrite (src : Source) (on : Bool)
  /-- HOST_MAILBOX_WRITE (R353). A write to KMB_H2C raises the application cores' mailbox interrupt. -/
  | hostMailboxWrite (src : Source) (v : DWord)
  /-- CORE_MAILBOX_WRITE (R353). The cores write KMB_C2H, raising the KIRQ vector to the host. -/
  | coreMailboxWrite (v : DWord)
  /-- RSCRUB_WRITE (R415). A write to RSCRUB sets the scrub period and enable, or is discarded when out of range. -/
  | rscrubWrite (src : Source) (v : Word)
  /-- DP_DATA_ACCESS (R361). A read or write of DP_DATA moves 4 bytes at DP_ADDR in the selected space and advances DP_ADDR. -/
  | dpDataAccess (write : Option Word) (hbm : Sector)
  /-- APERTURE_READ (R349). A BAR2 read is translated to a device address and returns the data, or all ones when unmapped or uncorrectable. -/
  | apertureRead (at_ : Access) (len : Nat) (hbm : Sector)
  /-- APERTURE_WRITE (R349). A BAR2 write is translated to a device address and written, or discarded when unmapped. -/
  | apertureWrite (at_ : Access) (data : Bytes) (hbm : Sector)
  /-- PCIE_CONFIG_REQUEST (R346). A configuration request is completed, or answered with Configuration Request Retry Status before the endpoint is ready. -/
  | pcieConfigRequest (off : Nat) (write : Option Word)
  /-- MGMT_BURST_READ (R360). Management op 1 loads DP_ADDR and returns a burst of data port reads. -/
  | mgmtBurstRead (port : Nat) (dgram : Bytes) (hbm : Sector)
  /-- MGMT_BURST_WRITE (R360). Management op 2 loads DP_ADDR and runs a burst of data port writes. -/
  | mgmtBurstWrite (port : Nat) (dgram : Bytes) (hbm : Sector)
  /-- MGMT_REGISTER_READ (R360). Management op 3 reads a data port register. -/
  | mgmtRegisterRead (port : Nat) (dgram : Bytes) (hbm : Sector)
  /-- MGMT_REGISTER_WRITE (R360). Management op 4 writes a data port register. -/
  | mgmtRegisterWrite (port : Nat) (dgram : Bytes) (hbm : Sector)
  /-- MGMT_COMMAND (R360). Management op 5 runs a group 0x0E or 0x0F command packet and returns its status reply. -/
  | mgmtCommand (port : Nat) (dgram : Bytes) (host : HostRead)
  /-- STATUS_WORD (R425). SMBus read of the fault status word. -/
  | statusWord (pec : Bool)
  /-- CLEAR_FAULTS (R425). SMBus command clears STATUS_WORD and releases SMB_ALERT#. -/
  | clearFaults (pec : Bool)
  /-- READ_VIN (R425). SMBus read of input voltage in LINEAR11. -/
  | readVin (pec : Bool)
  /-- READ_IIN (R425). SMBus read of input current in LINEAR11. -/
  | readIin (pec : Bool)
  /-- READ_PIN (R425). SMBus read of input power in LINEAR11. -/
  | readPin (pec : Bool)
  /-- SMBUS_DP_ADDR (R425). SMBus block transfer reading or writing the low or high half of DP_ADDR. -/
  | smbusDpAddr (pec : Bool) (high : Bool) (write : Option Word)
  /-- SMBUS_DP_DATA (R425). SMBus block transfer of DP_DATA, moving 4 bytes at DP_ADDR. -/
  | smbusDpData (pec : Bool) (write : Option Word) (hbm : Sector)
  /-- SMBUS_DP_CTRL (R425). SMBus block transfer of DP_CTRL. -/
  | smbusDpCtrl (pec : Bool) (write : Option Word)
  /-- SMBUS_DISCSTAT (R425). SMBus block read of DISCSTAT. -/
  | smbusDiscstat (pec : Bool) (write : Option Word)
  /-- SMBUS_DISCGLITCH (R425). SMBus block read of the low or high half of DISCGLITCH. -/
  | smbusDiscglitch (pec : Bool) (high : Bool)
  /-- PWRGD_ASSERT (R363). Filtered rising edge of PWRGD starts the start-up sequence. -/
  | pwrgdAssert (rep : StartReport)
  /-- PWRGD_DEASSERT (R422). Filtered deassertion of PWRGD acts as an input fault without automatic restart. -/
  | pwrgdDeassert
  /-- PERST_ASSERT (R347). PERST# asserted resets the endpoint, disables every queue and ends any loaded job. -/
  | perstAssert
  /-- PERST_DEASSERT (R346). PERST# released lets the PCIe link train. -/
  | perstDeassert
  /-- MRST_ASSERT (R365). Module reset asserted resets every die except the always-on domain. -/
  | mrstAssert
  /-- MRST_RELEASE (R365). Module reset released restarts start-up from step 2. -/
  | mrstRelease (rep : StartReport)
  /-- THERMTRIP_IN_ASSERT (R393). The thermal-trip input asserts after its filter and causes a thermal trip. -/
  | thermtripInAssert
  /-- PRESENCE_PRESS (R375). A filtered press of PRESENCE opens or restarts a 60 s presence window. -/
  | presencePress
  /-- PRESENCE_RELEASE (R375). Release of PRESENCE clears the stuck state. -/
  | presenceRelease
  /-- PRESENCE_WINDOW_EXPIRY (R375). 60 s after the latest accepted press the presence window closes. -/
  | presenceWindowExpiry
  /-- PRESENCE_STUCK (R375). A press held 10 s becomes stuck and its window closes. -/
  | presenceStuck
  /-- JUMPER_FITTED (R375). The service jumper is fitted after filtering and may give presence. -/
  | jumperFitted
  /-- JUMPER_REMOVED (R375). Removing the jumper ends the presence that it gave. -/
  | jumperRemoved
  /-- SEAL_BROKEN (R377). The seal loop opens or goes invalid past its filter; the seal fuse is burnt and logged. -/
  | sealBroken (invalid : Bool)
  /-- INPUT_GLITCH (R421). A departure from an input's filtered level shorter than its filter time is ignored and counted. -/
  | inputGlitch (idx : Nat)
  /-- INPUT_INVALID (R421). An input invalid longer than its filter time sets its invalid bit and asserts FAULT#. -/
  | inputInvalid (idx : Nat)
  /-- PERST_LONG (R421). PERST# asserted for 1 s sets perst_long. -/
  | perstLong
  /-- MRST_LONG (R421). MRST# asserted for 1 s sets mrst_long and asserts FAULT# and SMB_ALERT#. -/
  | mrstLong
  /-- JUMPER_LONG (R421). The jumper fitted for 1 h sets jumper_long. -/
  | jumperLong
  /-- INPUT_FAULT (R382). Input voltage out of range switches off all but the always-on domain and fails any job. -/
  | inputFault (volts : Nat)
  /-- INPUT_RESTORED (R382). Input back in range for 100 ms after a fault restarts start-up from step 2. -/
  | inputRestored (rep : StartReport)
  /-- INPUT_COLLAPSE (R382). Input below 30 V stops the always-on domain as well. -/
  | inputCollapse
  /-- REFERENCE_LOST (R387). A reference input gives no edge or leaves tolerance and its loss actions follow. -/
  | referenceLost (which : Nat)
  /-- K_CLOCK_LOSS (R255). K loses its main clock: no new commands, PCIe link down, replies held, reported by the management controller. -/
  | kClockLoss
  /-- THERMAL_TRIP (R393). A sensor at 110 °C twice in a row trips: output asserted, domains off, job failed, safe state. -/
  | thermalTrip (sensor : Nat) (reading : Int) (onK : Bool)
  /-- JUNCTION_SENSOR_READ (R392). Every 100 µs the always-on domain reads each junction sensor, driving throttling and trip detection. -/
  | junctionSensorRead (sensor : Nat) (reading : Int)
  /-- THERMAL_LIMIT_STEP (R392). A cluster's thermal limit is lowered each 100 µs while hot or raised each 1 ms while cool. -/
  | thermalLimitStep (cluster : Nat)
  /-- INLET_HOT (R394). Inlet above 40 °C for 10 s sets inlet_hot. -/
  | inletHot (inlet : Int)
  /-- FLOW_LOW (R394). Inlet-to-outlet rise above 30 °C for 10 s sets flow_low. -/
  | flowLow (inlet : Int) (outlet : Int)
  /-- CPM_CHECK (R388). Every 1 µs critical-path monitors compare path delay with cycle time and step the rail. -/
  | cpmCheck (cluster : Nat) (margin : Margin)
  /-- DROOP_HOLD_EXPIRY (R390). The 64-cycle doubled period ends unless the margin is still short. -/
  | droopHoldExpiry (cluster : Nat) (short : Bool)
  /-- FREQUENCY_STEP (R389). A cluster's frequency moves one 25 MHz step toward the lowest of its limits. -/
  | frequencyStep (cluster : Nat)
  /-- WEIR_SAMPLE (R396). Every 10 µs Weir computes the allowance and throttles clusters or assigns filler. -/
  | weirSample (demand : Nat) (power : Nat) (volts : Nat) (amps : Nat) (fillerJ : Nat) (short : Bool)
  /-- WEIR_MEAN_UPDATE (R396). Every 1 ms Weir updates the 256 ms mean and the floor. -/
  | weirMeanUpdate (mean : Nat)
  /-- DUTY_CYCLE_PERIOD (R399). Under a cap below PMIN, each staggered 100 µs period runs clusters for fraction δ. -/
  | dutyCyclePeriod
  /-- DOMAIN_RAMP_DONE (R385). A power domain finishes its switch-on ramp and the waiting command may dispatch. -/
  | domainRampDone (d : Nat)
  /-- PLACEMENT_REMAP (R395). Each 1 ms a scheduler may remap idle logical Meres from hot clusters to cool ones. -/
  | placementRemap (die : Nat) (temps : List Int)
  /-- SLICE_LOAD_DONE (R190). A stream engine finishes loading an operand slice into its scratchpad buffer. -/
  | sliceLoadDone (cid : Nat) (mere : Nat) (region : Nat) (load : Nat)
  /-- MERE_START (R194). When a Mere's running seat falls free, it starts the oldest waiting command whose first slice has landed, with skip counting and pinning. -/
  | mereStart (mere : Nat)
  /-- GANG_START (R195). A gang command starts on every Mere of its set in one act once all seats are free and first slices landed. -/
  | gangStart (cid : Nat)
  /-- ARRAY_SLICE_DONE (R190). An array finishes a K slice, freeing its buffer for the next prefetch. -/
  | arraySliceDone (cid : Nat) (mere : Nat) (at_ : ArrayTile) (slice : Nat) (fixed : Nat)
  /-- DRAIN_OUTPUT_BLOCK (R89). A drain runs its program and final conversion over a finished output block into a staging block. -/
  | drainOutputBlock (cid : Nat) (mere : Nat) (at_ : ArrayTile) (block : Nat) (fixed : Nat)
  /-- STAGED_BLOCK_WRITEBACK (R191). The stream engine finishes writing a staged output block to HBM, freeing it for the drain. -/
  | stagedBlockWriteback (mere : Nat) (array : Bool)
  /-- COMBINE_RECEIVE (R106). A group member receives a lower member's FP32 totals and adds them into its Tarn. -/
  | combineReceive (cid : Nat) (mere : Nat) (sender : Nat) (at_ : ArrayTile) (fixed : Nat)
  /-- HALO_RECEIVE (R183). A group receives halo rows of a stripe from the group holding the previous stripe. -/
  | haloReceive (cid : Nat) (mere : Nat) (sender : Nat) (fixed : Nat)
  /-- HBM_SLOT_GRANT (R199). A stack controller grants a sector slot by background, class share and deadline. -/
  | hbmSlotGrant (stack : Nat) (gap : Nat) (background : Bool) (arrivals : List HbmRequest) (estimates : List (Nat × Nat))
  /-- HBM_UNCORRECTABLE_READ (R239). A sector returns uncorrectable, is retried once and is delivered or fails the command. -/
  | hbmUncorrectableRead (user : SectorUser) (shared : List SectorUser) (addr : Nat) (outcome : Sector) (mirror : Option Bytes)
  /-- HBM_FLIT_CRC_FAIL (R238). A base-die flit fails its CRC and is re-sent. -/
  | hbmFlitCrcFail (stack : Nat) (resend : Nat) (read : Option (List SectorUser × Option Bytes × Nat × Sector))
  /-- STACK_TEMP_REPORT (R237). Every 1 ms a base die reports its temperature and the refresh level is set. -/
  | stackTempReport (stack : Nat) (temp : Int)
  /-- COMPRESSED_BLOCK_DECODE (R222). A decoder checks and decodes a compressed block, re-fetching once on failure. -/
  | compressedBlockDecode (cid : Nat) (desc : Nat) (block : Option Nat) (seen : List (Nat × Byte))
  /-- BUNDLE_FLIT_CRC_FAIL (R245). A bundle flit fails its CRC, is replayed and blamed on a lane, possibly retraining or remapping the bundle. -/
  | bundleFlitCrcFail (b : Nat) (flit : BundleFlit) (retrainOk : Bool)
  /-- BUNDLE_WINDOW_END (R246). A bundle's 2^24-flit blame window ends and restarts. -/
  | bundleWindowEnd (b : Nat)
  /-- BUNDLE_LIVENESS_SEND (R253). An idle bundle end sends a liveness flit within 1,024 bundle cycles. -/
  | bundleLivenessSend (b : Nat) (farEnd : Bool)
  /-- BUNDLE_LIVENESS_TIMEOUT (R253). A receiver counts 2^16 bundle cycles without a valid flit and declares the bundle down. -/
  | bundleLivenessTimeout (b : Nat)
  /-- REJOIN_ATTEMPT (R256). Firmware power-cycles, tests and retrains a lost die to rejoin it. -/
  | rejoinAttempt (die : Nat) (rep : Option RejoinReport)
  /-- REJOIN_RETRY_TIMER (R256). 1 s after a failed rejoin attempt another attempt starts, up to three. -/
  | rejoinRetryTimer (die : Nat)
  /-- S_RESUME (R257). After rejoining, S reloads stream state and resumes ingest. -/
  | sResume
  /-- PORT_TRAINING_ATTEMPT (R263). A Birtis port trains through PLL lock, capability exchange, equalisation, lane selection and link start. -/
  | portTrainingAttempt (p : Nat) (rep : TrainReport)
  /-- PORT_TRAINING_RETRY (R263). 1 s after the previous attempt began, an enabled port that is down tries again. -/
  | portTrainingRetry (p : Nat)
  /-- LINK_FLIT_SEND (R268). A port sends a DATA, CTRL or NULL flit in each flit slot under credits. -/
  | linkFlitSend (p : Nat)
  /-- LINK_FLIT_RECEIVE (R269). A port receives a flit, accepts or discards it, delivers acks and naks and rewinds on nak. -/
  | linkFlitReceive (p : Nat) (flit : Bytes)
  /-- REPLAY_TIMEOUT (R269). With no ack advance for 2 µs, the sender resends from the oldest unacknowledged flit. -/
  | replayTimeout (p : Nat) (retrainOk : Bool)
  /-- PORT_SILENCE_TIMEOUT (R271). 2^18 reference cycles without a valid flit or training set takes the port down. -/
  | portSilenceTimeout (p : Nat)
  /-- LANE_FAILURE (R273). A failed lane pauses the port, retrains alone and returns or is replaced by a spare. -/
  | laneFailure (p : Nat) (lane : Nat) (retrainOk : Bool)
  /-- FEC_WINDOW_END (R272). A port's lane-fault counting window ends and restarts. -/
  | fecWindowEnd (p : Nat)
  /-- EQ_ADAPT (R266). Every 2^20 symbols a receiver adjusts its equalisers. -/
  | eqAdapt (p : Nat) (margins : List Nat)
  /-- EQ_REQUEST (R266). A transmitter moves one FIR coefficient by one step on a request from the far receiver. -/
  | eqRequest (p : Nat) (lane : Nat) (coeff : Nat) (up : Bool)
  /-- PORT_PHASE_SWITCH (R283). A port with no earlier-phase flits unacknowledged switches to the new phase shares. -/
  | portPhaseSwitch (p : Nat)
  /-- BASIN_INPUT_RECEIVE (R291). An owner receives a reduction input and adds every input ready in ascending rank, settling stages and sending on. -/
  | basinInputReceive (hdr : Header) (payload : Bytes)
  /-- COLLECTIVE_W1_EXPIRY (R292). At W1 an owner pulls backup copies for missing stage-1 primaries, or pieces from mirror hosts. -/
  | collectiveW1Expiry (cid : Nat)
  /-- COLLECTIVE_W2_EXPIRY (R292). At W2 a missing input or close word fails the collective with PEER_TIMEOUT. -/
  | collectiveW2Expiry (cid : Nat)
  /-- CLOSE_WORD_RECEIVE (R293). A participant receives a close word and, with all N, combines them into the step verdict. -/
  | closeWordReceive (hdr : Header) (payload : Bytes)
  /-- PULL_REQUEST_RECEIVE (R297). A backup or standby rank answers a pull request with its backup copy. -/
  | pullRequestReceive (hdr : Header) (payload : Bytes)
  /-- RELEASE_WORD_RECEIVE (R297). A standby rank receives an owner's release word and commits once it has heard from every owner. -/
  | releaseWordReceive (hdr : Header) (payload : Bytes)
  /-- STANDBY_TIMEOUT (R297). A standby that has not heard from every owner within 2 × W2 fails with PEER_TIMEOUT. -/
  | standbyTimeout (cid : Nat)
  /-- UPDATE_VERDICT_READY (R295). A dispatched update command waiting for BVERDICT.final proceeds once it is set. -/
  | updateVerdictReady (cid : Nat)
  /-- EDDY_BLOCK_ARRIVE (R301). A K/V block arrives, is stored in a slot, signals arrival and is forwarded if needed. -/
  | eddyBlockArrive (hdr : Header) (payload : Bytes)
  /-- EDDY_SLOT_RELEASE (R301). A slot's release counter is signalled and the slot may be reused once forwarding has finished. -/
  | eddySlotRelease (cid : Nat) (slot : Nat)
  /-- EDDY_ACCUMULATOR_ARRIVE (R302). An FP32 dK/dV accumulator arrives, the local partial is added and it travels on or is written by the owner. -/
  | eddyAccumulatorArrive (hdr : Header) (payload : Bytes)
  /-- PIPE_ENTRY_ARRIVE (R305). A pipeline entry lands in the receiver's slot buffer and is acknowledged, or is rejected on a mismatch. -/
  | pipeEntryArrive (hdr : Header) (payload : Bytes)
  /-- PIPE_CREDIT_RECEIVE (R305). A sender receives a returned credit for a pipeline queue. -/
  | pipeCreditReceive (hdr : Header)
  /-- SHORT_MESSAGE_RECEIVE (R277). A class 4 data message is written into the target scratchpad and its arrival token signalled. -/
  | shortMessageReceive (hdr : Header) (payload : Bytes)
  /-- MIRROR_BLOCK_RECEIVE (R308). A mirror host writes a complete block message: image, tag and done count, then valid after the last block. -/
  | mirrorBlockReceive (hdr : Header) (payload : Bytes)
  /-- MIRROR_BREAK_TIMEOUT (R308). A partner unreachable for 100 ms during filling marks the mirror broken. -/
  | mirrorBreakTimeout (slot : Nat)
  /-- MIRROR_CONFIG_TIMEOUT (R306). A host not configuring the slot within 1 s fails the source configuration with PEER_TIMEOUT. -/
  | mirrorConfigTimeout (cid : Nat)
  /-- BATCH_ASSEMBLY_START (R330). S begins assembling the next batch once a batch command runs, its queue slot is free and the previous batch committed. -/
  | batchAssemblyStart (stream : Nat)
  /-- RECORD_READ (R315). S reads and checks the next record from the source ring, skipping malformed entries and framing losses. -/
  | recordRead (stream : Nat)
  /-- FIELD_DECODE_DONE (R320). A decoder lane completes a field and the sample is pre-processed into its slot. -/
  | fieldDecodeDone (stream : Nat) (slot : Nat) (output : Nat) (media : Media) (cycles : Nat)
  /-- DECODE_BUDGET_EXPIRY (R338). A field's decode budget expires; it restarts with a cheaper profile or the sample is replaced. -/
  | decodeBudgetExpiry (stream : Nat) (slot : Nat) (output : Nat)
  /-- BATCH_DEADLINE (R339). The batch deadline replaces slots still decoding, or fails the batch with INGEST_STARVED. -/
  | batchDeadline (stream : Nat)
  /-- BATCH_COMMIT (R330). A complete batch commits: manifest written, ready counter and command counter signalled. -/
  | batchCommit (stream : Nat)
  /-- RESERVE_REFILL (R337). S prepares a reserve record into the reserve pool with idle lanes. -/
  | reserveRefill (stream : Nat) (media : List ReserveField)
  /-- HBM_SCRUB_READ (R404). Background scrub reads a sector, writing back corrections and counting toward row failure. -/
  | hbmScrubRead (stack : Nat) (off : Nat) (last : Bool) (outcome : ScrubOutcome) (overtaken : Bool)
  /-- SRAM_SCRUB (R403). Background scrub reads and rewrites words of long-lived SRAMs and idle Mere SRAM. -/
  | sramScrub (where_ : ScrubTarget) (outcome : ScrubOutcome)
  /-- SENSOR_CALIBRATION (R403). Each 1 s junction sensors are checked against reference diodes. -/
  | sensorCalibration (sensor : Nat) (offset : Int)
  /-- MONITOR_RECALIBRATION (R403). Once each 60 s per cluster the critical-path monitors are recalibrated. -/
  | monitorRecalibration (cluster : Nat)
  /-- AGEING_MEASUREMENT (R403). Each 60 s ring oscillators are measured against baselines and the rail offset raised. -/
  | ageingMeasurement (cluster : Nat) (drift : Nat)
  /-- TELEMETRY_GATHER (R403). Each 100 ms every counter is gathered into the firmware area. -/
  | telemetryGather
  /-- CONTAINED_ERROR (R406). A contained error is handled at its level, escalated, or queued behind handling in progress. -/
  | containedError (err : ErrorSite)
  /-- CONTAINMENT_DONE (R410). Handling of a contained error ends and the next pending error is handled. -/
  | containmentDone
  /-- MGT_RATE_SEARCH (R358). A management port without link tries the next rate after 500 ms. -/
  | mgtRateSearch (port : Nat)
  /-- MGT_FAILOVER (R358). The active management port without link for 2 s fails over to the other. -/
  | mgtFailover
  /-- POWER_ON (R382). Input power arrives and the always-on domain starts, beginning input filtering with the error log, DISCSTAT and glitch counters cleared. -/
  | powerOn (straps : Nat)
  /-- THERMTRIP_IN_RELEASE (R421). The filtered THERMTRIP_IN# input deasserts, clearing trip_held and ending the tripped condition that held start-up. -/
  | thermtripInRelease
  /-- MGT_LINK_UP (R358). A management port gains link, ending its rate search and making it eligible to be the active port. -/
  | mgtLinkUp (port : Nat)
  /-- MGT_LINK_DOWN (R358). A management port loses link, starting its rate search and the 2 s failover count. -/
  | mgtLinkDown (port : Nat)
  /-- MGMT_NETWORK_FRAME (R359). The management controller receives an ARP, ICMP echo, IPv6 neighbour discovery or DHCPv4 frame and answers it. -/
  | mgmtNetworkFrame (port : Nat) (frame : NetFrame)
  /-- DECODER_WINDOW (R320). A decoder window of 16,384 S cycles ends, and the streams' decoder shares, including any new SDSHARE value, apply for the next window. -/
  | decoderWindow
  /-- GATHERED_PIECE_RECEIVE (R298). An ALL_GATHER participant receives a gathered piece, checks its generation and writes it, or fails with SHARD_VERSION. -/
  | gatheredPieceReceive (hdr : Header) (payload : Bytes)
  /-- PIPE_ENTRY_ACKNOWLEDGE (R305). A PIPE_SEND sender receives the receiver's acknowledgement that the entry landed, or its rejection for a slots or size mismatch. -/
  | pipeEntryAcknowledge (hdr : Header) (accepted : Bool)
  /-- MIRROR_MESSAGE_RECEIVE (R306). A mirror partner receives a configuration, verify or restore message for a mirror slot and answers it, such as the host returning its block CRCs. -/
  | mirrorMessageReceive (hdr : Header) (msg : MirrorMsg)
  deriving DecidableEq, Repr

end Sys2Proof
end

