-- ==== Sys2Proof/WellFormed.lean ====
section
/-! DEFINITION. The commands that name units the module has: queues 0 to 64 (R27), ports 0 to 23 (R260), stacks 0 to 7
(R228), bundles 0 to 6 (R244), physical Meres 0 to 271 (R56), clusters 0 to 67 (R383), junction sensors 0 to 151 (R392),
guard tags 1 to 255 (R147), streams 0 to 15 (R310), domains 0 to 95 (R384), the discrete inputs 0 to 6 (R421), the message
classes 0 to 5 (R282). -/

namespace Sys2Proof

/-- Whether a scrub target is a die with long-lived SRAM or a physical Mere. -/
def ScrubTarget.wf : ScrubTarget → Bool
  | .longLived d => decide (d < 6)
  | .mere p _ => decide (p < 272)

/-- Whether the site of a contained error is one that the module has. -/
def ErrorSite.wf : ErrorSite → Bool
  | .mere p _ => decide (p < 272)
  | .cluster d c _ => decide (d < 2 ∧ c < 34)
  | .die d _ _ => decide (d < 6)
  | .module _ => true

/-- Whether every unit number of a command names a unit of the module, and a register access has a legal size. -/
def Instr.wf (i : Instr) : Bool :=
  match i with
  | .matmul _ => true
  | .matmulBwd _ => true
  | .conv _ => true
  | .pool _ => true
  | .vector _ => true
  | .stats _ => true
  | .attnBlock _ => true
  | .copy _ => true
  | .hostCopy _ _ => true
  | .fill _ => true
  | .compress _ => true
  | .decompress _ => true
  | .pipeSend _ => true
  | .pipeRecv _ => true
  | .alloc _ => true
  | .free _ => true
  | .reduceScatter _ => true
  | .allGather _ => true
  | .kvRing _ => true
  | .kvRingBwd _ => true
  | .ingestOpen _ => true
  | .ingestBatch _ => true
  | .ingestRelease _ => true
  | .ingestSeek _ => true
  | .dictLoad _ => true
  | .updateSgd _ => true
  | .updateAdam _ => true
  | .updateLion _ => true
  | .lossScale _ => true
  | .mirrorConfig _ => true
  | .snapshot _ => true
  | .restore _ _ => true
  | .mirrorVerify _ => true
  | .loadJob _ => true
  | .endJob _ => true
  | .phase _ => true
  | .stepBegin _ => true
  | .suspend _ => true
  | .resume _ => true
  | .tokenSet _ => true
  | .nop _ => true
  | .fwDowngrade _ _ => true
  | .keyRotate _ => true
  | .debugUnlock _ _ => true
  | .spareOverride _ => true
  | .fuseWrite _ => true
  | .telemetryRead _ => true
  | .powerCap _ => true
  | .quotaSet _ => true
  | .errlogRead _ => true
  | .fwUpdate _ _ => true
  | .attest _ => true
  | .packetFetch q _ _ => decide (q ≤ 64)
  | .commandDispatch q => decide (q ≤ 64)
  | .tokenWaitTimeout q => decide (q ≤ 64)
  | .commandCommit _ => true
  | .replyWrite q _ => decide (q ≤ 64)
  | .replyRetry q _ => decide (q ≤ 64)
  | .queueDoorbell q _ => decide (q ≤ 64)
  | .queueEnable q => decide (q ≤ 64)
  | .queueDisable q => decide (q ≤ 64)
  | .queuePause q _ => decide (q ≤ 64)
  | .qtimeoutWrite q _ => decide (q ≤ 64)
  | .rheadUpdate q _ => decide (q ≤ 64)
  | .registerWrite _ off size _ => decide (off % size = 0 ∧ (size = 4 ∨ size = 8))
  | .guardConfigWrite _ tag _ _ => decide (1 ≤ tag ∧ tag ≤ 255)
  | .sshareWrite _ die _ => decide (die < 2)
  | .sdshareWrite _ stream _ => decide (stream < 16)
  | .sourceTailWrite _ stream _ _ => decide (stream < 16)
  | .wctrlWrite _ _ => true
  | .freqTargetWrite _ _ => true
  | .portRetrain _ p => decide (p < 24)
  | .portEnable _ p => decide (p < 24)
  | .portDisable _ p => decide (p < 24)
  | .genCapWrite _ p v => decide (p < 24 ∧ v < 4)
  | .endWindow _ => true
  | .jumperIgnoreWrite _ _ => true
  | .hostMailboxWrite _ _ => true
  | .coreMailboxWrite _ => true
  | .rscrubWrite _ _ => true
  | .dpDataAccess _ _ => true
  | .apertureRead _ _ _ => true
  | .apertureWrite _ _ _ => true
  | .pcieConfigRequest _ _ => true
  | .mgmtBurstRead port _ _ => decide (port < 2)
  | .mgmtBurstWrite port _ _ => decide (port < 2)
  | .mgmtRegisterRead port _ _ => decide (port < 2)
  | .mgmtRegisterWrite port _ _ => decide (port < 2)
  | .mgmtCommand port _ _ => decide (port < 2)
  | .statusWord _ => true
  | .clearFaults _ => true
  | .readVin _ => true
  | .readIin _ => true
  | .readPin _ => true
  | .smbusDpAddr _ _ _ => true
  | .smbusDpData _ _ _ => true
  | .smbusDpCtrl _ _ => true
  | .smbusDiscstat _ _ => true
  | .smbusDiscglitch _ _ => true
  | .pwrgdAssert _ => true
  | .pwrgdDeassert => true
  | .perstAssert => true
  | .perstDeassert => true
  | .mrstAssert => true
  | .mrstRelease _ => true
  | .thermtripInAssert => true
  | .presencePress => true
  | .presenceRelease => true
  | .presenceWindowExpiry => true
  | .presenceStuck => true
  | .jumperFitted => true
  | .jumperRemoved => true
  | .sealBroken _ => true
  | .inputGlitch idx => decide (idx < 7)
  | .inputInvalid idx => decide (idx < 7)
  | .perstLong => true
  | .mrstLong => true
  | .jumperLong => true
  | .inputFault _ => true
  | .inputRestored _ => true
  | .inputCollapse => true
  | .referenceLost which => decide (which < 3)
  | .kClockLoss => true
  | .thermalTrip sensor _ _ => decide (sensor < 152)
  | .junctionSensorRead sensor _ => decide (sensor < 152)
  | .thermalLimitStep cluster => decide (cluster < 68)
  | .inletHot _ => true
  | .flowLow _ _ => true
  | .cpmCheck cluster _ => decide (cluster < 68)
  | .droopHoldExpiry cluster _ => decide (cluster < 68)
  | .frequencyStep cluster => decide (cluster < 68)
  | .weirSample _ _ _ _ _ _ => true
  | .weirMeanUpdate _ => true
  | .dutyCyclePeriod => true
  | .domainRampDone d => decide (d < 96)
  | .placementRemap die temps => decide (die < 2 ∧ temps.length = 34)
  | .sliceLoadDone _ mere _ _ => decide (mere < 272)
  | .mereStart mere => decide (mere < 272)
  | .gangStart _ => true
  | .arraySliceDone _ mere _ _ _ => decide (mere < 272)
  | .drainOutputBlock _ mere _ _ _ => decide (mere < 272)
  | .stagedBlockWriteback mere _ => decide (mere < 272)
  | .combineReceive _ mere sender _ _ => decide (mere < 272 ∧ sender < 272)
  | .haloReceive _ mere sender _ => decide (mere < 272 ∧ sender < 272)
  | .hbmSlotGrant stack _ _ _ _ => decide (stack < 8)
  | .hbmUncorrectableRead _ _ _ _ _ => true
  | .hbmFlitCrcFail stack _ _ => decide (stack < 8)
  | .stackTempReport stack _ => decide (stack < 8)
  | .compressedBlockDecode _ _ _ _ => true
  | .bundleFlitCrcFail b flit _ => decide (b < 7 ∧ flit.lane < 68)
  | .bundleWindowEnd b => decide (b < 7)
  | .bundleLivenessSend b _ => decide (b < 7)
  | .bundleLivenessTimeout b => decide (b < 7)
  | .rejoinAttempt die _ => decide (die < 5)
  | .rejoinRetryTimer die => decide (die < 5)
  | .sResume => true
  | .portTrainingAttempt p _ => decide (p < 24)
  | .portTrainingRetry p => decide (p < 24)
  | .linkFlitSend p => decide (p < 24)
  | .linkFlitReceive p _ => decide (p < 24)
  | .replayTimeout p _ => decide (p < 24)
  | .portSilenceTimeout p => decide (p < 24)
  | .laneFailure p lane _ => decide (p < 24 ∧ lane < 10)
  | .fecWindowEnd p => decide (p < 24)
  | .eqAdapt p _ => decide (p < 24)
  | .eqRequest p lane coeff _ => decide (p < 24 ∧ lane < 10 ∧ coeff < 4)
  | .portPhaseSwitch p => decide (p < 24)
  | .basinInputReceive hdr _ => decide (hdr.cls < 6)
  | .collectiveW1Expiry _ => true
  | .collectiveW2Expiry _ => true
  | .closeWordReceive hdr _ => decide (hdr.cls < 6)
  | .pullRequestReceive hdr _ => decide (hdr.cls < 6)
  | .releaseWordReceive hdr _ => decide (hdr.cls < 6)
  | .standbyTimeout _ => true
  | .updateVerdictReady _ => true
  | .eddyBlockArrive hdr _ => decide (hdr.cls < 6)
  | .eddySlotRelease _ _ => true
  | .eddyAccumulatorArrive hdr _ => decide (hdr.cls < 6)
  | .pipeEntryArrive hdr _ => decide (hdr.cls < 6)
  | .pipeCreditReceive hdr => decide (hdr.cls < 6)
  | .shortMessageReceive hdr _ => decide (hdr.cls < 6)
  | .mirrorBlockReceive hdr _ => decide (hdr.cls < 6)
  | .mirrorBreakTimeout slot => decide (slot < 256)
  | .mirrorConfigTimeout _ => true
  | .batchAssemblyStart stream => decide (stream < 16)
  | .recordRead stream => decide (stream < 16)
  | .fieldDecodeDone stream _ output _ _ => decide (stream < 16 ∧ output < 16)
  | .decodeBudgetExpiry stream _ output => decide (stream < 16 ∧ output < 16)
  | .batchDeadline stream => decide (stream < 16)
  | .batchCommit stream => decide (stream < 16)
  | .reserveRefill stream _ => decide (stream < 16)
  | .hbmScrubRead stack off _ _ _ => decide (stack < 8 ∧ off < 0x200000)
  | .sramScrub target _ => target.wf
  | .sensorCalibration sensor _ => decide (sensor < 152)
  | .monitorRecalibration cluster => decide (cluster < 68)
  | .ageingMeasurement cluster _ => decide (cluster < 68)
  | .telemetryGather => true
  | .containedError err => err.wf
  | .containmentDone => true
  | .mgtRateSearch port => decide (port < 2)
  | .mgtFailover => true
  | .powerOn _ => true
  | .thermtripInRelease => true
  | .mgtLinkUp port => decide (port < 2)
  | .mgtLinkDown port => decide (port < 2)
  | .mgmtNetworkFrame port _ => decide (port < 2)
  | .decoderWindow => true
  | .gatheredPieceReceive hdr _ => decide (hdr.cls < 6)
  | .pipeEntryAcknowledge hdr _ => decide (hdr.cls < 6)
  | .mirrorMessageReceive hdr _ => decide (hdr.cls < 6)

end Sys2Proof
end

