-- ==== Sys2Proof/Machine/State.lean ====
section
/-! DEFINITION. The state of the module as plain data, its reset values, and the reasons a command can stop. -/

namespace Sys2Proof.Machine

/-- Why a command stops with a fault. -/
inductive Fault where
  /-- Raised by a command that names a port, bundle, die, cluster, stack, stream, queue or Mere the module does not
  have. A stop here is safe: no such unit exists, so no behaviour of the module is lost. -/
  | noSuchUnit (name : String) (number : Nat)
  deriving DecidableEq, Repr

/-- Why a command has no meaning. -/
inductive Refusal where
  /-- Raised by an arm whose meaning is not written. A stop here is safe. -/
  | notModelled (mnemonic : String)
  deriving DecidableEq, Repr

/-- A finite map from numbers: a list with strictly rising keys; an absent key stands for the reset record. -/
abbrev Map (α : Type) := List (Nat × α)

/-! ## Outputs -/

/-- What leaves the module, in order (R352 orders a reply before its interrupt). Word j of a flit leaves on the physical lane
at place j mod W of its W lanes (R262). -/
inductive Out where
  | hostWrite (addr : Nat) (data : Bytes)
  | msix (vector : Nat)
  | coreInterrupt
  | completion (data : Bytes)
  | configRetry
  | datagram (port : Nat) (data : Bytes)
  | frame (port : Nat) (data : Bytes)
  | smbus (data : Bytes)
  | flit (port : Nat) (data : Bytes) (lanes : List Nat)
  | eqRequest (port lane : Nat)
  | bundleFlit (bundle : Nat)
  | resend (bundle : Nat) (seq : Nat)
  | managementEvent (port die : Nat)
  | coreData (data : Bytes)
  | dpData (data : Word)
  deriving DecidableEq, Repr

/-! ## Queues and commands -/

/-- A status reply before it is laid out (R44). -/
structure Reply where
  tag : Word
  status : Nat
  detail : Nat
  opcode : Nat
  rerun : Bool
  seq : Word
  step : Nat
  work : Nat
  elapsed : Nat
  irq : Bool
  deriving DecidableEq, Repr

/-- The register block of one queue (R29), the values sampled at enable (R30), and the replies that wait for a free
slot (R32, R430). -/
structure Queue where
  qbase : DWord
  qcfg : Word
  qtimeout : Word
  qtail : Word
  qhead : Word
  rbase : DWord
  rtail : Word
  rhead : Word
  enable : Bool
  pause : Bool
  sbOverflow : Bool
  killedDep : Bool
  timeout : Bool
  overrun : Bool
  cfgError : Bool
  badPacket : Bool
  sQbase : DWord
  sQcfg : Word
  sRbase : DWord
  replies : List Reply
  heldReply : Bool
  deriving DecidableEq, Repr

/-- The reset record of a queue block: every register zero (R29). -/
def Queue.reset : Queue :=
  { qbase := 0, qcfg := 0, qtimeout := 0, qtail := 0, qhead := 0, rbase := 0, rtail := 0, rhead := 0,
    enable := false, pause := false, sbOverflow := false, killedDep := false, timeout := false, overrun := false,
    cfgError := false, badPacket := false, sQbase := 0, sQcfg := 0, sRbase := 0, replies := [], heldReply := false }

/-- A token counter (R46). -/
structure Counter where
  count : BitVec 16
  poison : Bool
  deriving DecidableEq, Repr

/-- Where an in-flight command stands (R46-R52). -/
inductive Stage where
  /-- fetched and not yet dispatched -/
  | fetched
  /-- dispatched, its work not done -/
  | dispatched
  /-- its work is done; the commit point is reached by COMMAND_COMMIT -/
  | executed
  /-- killed by SUSPEND, waiting for its re-run (R50, R51) -/
  | stopped
  deriving DecidableEq, Repr

/-- What a command adds to a tag's step accumulators and counts at its commit (R134, R148). -/
structure TagDelta where
  tag : Nat
  amax : Word
  nonfinite : Nat
  err0 : List Word
  ref0 : List Word
  err1 : List Word
  ref1 : List Word
  samples : Nat
  sat : Nat
  reservedT2 : Nat
  converted : Bool
  deriving DecidableEq, Repr

/-- What a command does at its commit (R48). -/
inductive Effect where
  | write (addr : Nat) (data : Bytes)
  | forget (addr : Nat) (len : Nat)
  | host (addr : Nat) (data : Bytes)
  | flip (desc : Nat)
  | generation (desc : Nat) (value : DWord)
  | guard (delta : TagDelta)
  | token (counter : Nat) (value : BitVec 16) (clear : Bool)
  | lossScale (init growth backoff minScale maxScale : Word) (interval : Nat)
  | mapSpans (window first : Nat) (owner : Nat) (frames : List (List Nat))
  | unmapSpans (window first count : Nat)
  | held (count : Nat)
  | clip (c : Word)
  | zcount (die : Nat) (escapes spills : Nat)
  | norm (slot : Nat) (q : Word)
  | verdict (nonfinite excluded backup final : Bool) (offender count : Nat) (mine : Bool)
  | seek (stream : Nat) (pos : DWord) (epoch : Word) (reserve : Option DWord)
  | release (stream : Nat) (slot : Nat)
  | openStream (stream : Nat) (cfg : Bytes) (src rsv dict : Nat) (pos : DWord) (epoch seed : Word)
  | closeStream (stream : Nat)
  | dict (slot desc index : Nat) (entries : List (Bytes × Word))
  | credit (pq : Nat) (peer : Nat) (laxis : Nat) (epoch : Nat)
  | mirrorHost (slot partner laxis desc : Nat)
  | mirrorRemove (slot partner : Nat)
  | mirrorSet (slot state : Nat) (genC genF : DWord) (done : Nat)
  | newStep (step : Nat)
  deriving DecidableEq, Repr

/-- The outcome of a command's work: the status and detail of its reply (R45), the work field (R44), and what its
commit does. -/
structure Result where
  status : Nat
  detail : Nat
  work : Nat
  effects : List Effect
  deriving DecidableEq, Repr

/-- A command in flight: the fields of its packet in version 2 form (R33, R37), and its course: `since` is its dispatch on the
clock of the die that completes it (R44), `begun` its dispatch on the always-on clock (R280, R292). -/
structure Cmd where
  cid : Nat
  q : Nat
  slot : Word
  version : Nat
  opcode : Nat
  flags : Nat
  tag : Word
  waits : List Nat
  signal : Nat
  sigInc : Nat
  params : Bytes
  ext : Bytes
  waitUs : Nat
  stage : Stage
  rerun : Bool
  started : Bool
  order : Nat
  since : Nat
  begun : Nat
  step : Nat
  phase : Nat
  evalNo : Nat
  scale : Word
  norm : Word
  notes : Nat
  batches : Nat
  holds : Bool
  refetched : List (Nat × Option Nat)
  result : Option Result
  deriving DecidableEq, Repr

/-- What SUSPEND saves for one queue (R50 step 4). -/
structure SaveSlot where
  oldest : Word
  mask : DWord
  deriving DecidableEq, Repr

/-- The loaded job (R26, R50-R53); `perstEnd` says that PERST# has begun to end it (R347). -/
structure Job where
  loaded : Bool
  jobId : Word
  meresPerDie : Nat
  descCount : Nat
  descTable : Nat
  hbmBytes : Nat
  queues : Nat
  policy : Nat
  counters : Nat
  saveArea : Nat
  suspended : Bool
  failed : Bool
  step : Nat
  saved : Map SaveSlot
  perstEnd : Bool
  deriving DecidableEq, Repr

/-! ## Guard and update engine -/

/-- A tag's entry of the guard table (R134-R148). -/
structure Tag where
  tcfg : Word
  tlim : Word
  tinit : Word
  heldCfg : Option Word
  heldLim : Option Word
  heldInit : Option Word
  heldSet : Option Word
  tthr : Word
  terr : Word
  tamax : Word
  eValid : Bool
  promoted : Bool
  prev : Bool
  prevCfg : Word
  prevAmax : Word
  clean : Nat
  promotions : Nat
  history : List Word
  stepAmax : Word
  nonfinite : Nat
  err0 : Word
  ref0 : Word
  err1 : Word
  ref1 : Word
  samples : Nat
  sat : Nat
  used : Bool
  deriving DecidableEq, Repr

/-- The reset record of a tag (R147, R149). -/
def Tag.reset : Tag :=
  { tcfg := 0x03261000#32, tlim := 0x3E803D80#32, tinit := 0x44C00000#32, heldCfg := none, heldLim := none,
    heldInit := none, heldSet := none, tthr := 0x3E400000#32, terr := 0, tamax := 0x44C00000#32, eValid := false,
    promoted := false, prev := false, prevCfg := 0x03261000#32, prevAmax := 0x44C00000#32, clean := 0,
    promotions := 0, history := [], stepAmax := 0, nonfinite := 0, err0 := 0, ref0 := 0, err1 := 0, ref1 := 0,
    samples := 0, sat := 0, used := false }

/-- The six counts of a tag, or of the total at key 0 (R148), each saturating at 32 bits. -/
structure TagCounts where
  sampled : Nat
  sat : Nat
  nonfinite : Nat
  reservedT2 : Nat
  promotions : Nat
  demotions : Nat
  deriving DecidableEq, Repr

/-- No counts (R148). -/
def TagCounts.reset : TagCounts :=
  { sampled := 0, sat := 0, nonfinite := 0, reservedT2 := 0, promotions := 0, demotions := 0 }

/-- The guard (R147, R148). -/
structure Guard where
  gctrl : Word
  gstep : DWord
  geval : Nat
  gup : List Nat
  gdown : List Nat
  tags : Map Tag
  counts : Map TagCounts
  deriving DecidableEq, Repr

/-- The update engine's registers (R170) and the parameters of the last LOSS_SCALE (R171). -/
structure Update where
  lscur : Word
  lsnext : Word
  adjusted : Bool
  good : Nat
  lsstep : Nat
  uheld : Nat
  uclip : Word
  normq : Map Word
  growth : Word
  backoff : Word
  interval : Nat
  minScale : Word
  maxScale : Word
  deriving DecidableEq, Repr

/-! ## Meres, streams, compression -/

/-- A value: NaN, a signed infinity, or a sign with magnitude m times 2 to the e. -/
inductive Num where
  | nan
  | inf (neg : Bool)
  | fin (neg : Bool) (m : Nat) (e : Int)
  deriving DecidableEq, Repr

/-- A waiting seat (R193, R194): its command, whether the first slice has landed, and the skip count. -/
structure Seat where
  cid : Nat
  landed : Bool
  skip : Nat
  deriving DecidableEq, Repr

/-- An output block in a staging block of reg_oa or reg_ob (R191): its command and the bytes for HBM. -/
structure Staged where
  cid : Nat
  tile : Nat
  block : Nat
  data : List (Nat × Bytes)
  deriving DecidableEq, Repr

/-- One physical Mere (R80-R87, R105, R106, R190-R196, R397, R408). `first` is the waiting command whose first slice
completed first while the Mere stood idle, `late` says that the oldest waiting command's first slice had not landed when the
running seat fell free. `landedSlices` lists the loads that landed, each with its command and its region; `halos` the loads
of reg_s whose halo rows came; `scales` the tensor-scale registers of the operand regions. Of the running command: the
number of steps that each array has done, the output blocks drained, the combines received (array, tile, member). -/
structure Mere where
  running : Option Nat
  first : Option Nat
  waiting : List Seat
  tarnA : Map Word
  tarnB : Map Word
  pad : Map Byte
  scales : Map Num
  landedSlices : List (Nat × Nat)
  halos : List (Nat × Nat)
  stepsA : Nat
  stepsB : Nat
  drainedA : List (Nat × Nat)
  drainedB : List (Nat × Nat)
  stagedA : List Staged
  stagedB : List Staged
  combined : List (Bool × Nat × Nat)
  filler : Bool
  late : Bool
  retired : Bool
  cycles : Nat
  nvRetired : Bool
  deriving DecidableEq, Repr

/-- An idle Mere with zeroed memories (R81). -/
def Mere.reset : Mere :=
  { running := none, first := none, waiting := [], tarnA := [], tarnB := [], pad := [], scales := [], landedSlices := [],
    halos := [], stepsA := 0, stepsB := 0, drainedA := [], drainedB := [], stagedA := [], stagedB := [], combined := [],
    filler := false, late := false, retired := false, cycles := 0, nvRetired := false }

/-- The stream register block of a compute die (R198). -/
structure Stream where
  sshare : Word
  shareRefused : Bool
  slate : Nat
  sskip : Nat
  sstall : Nat
  smerge : Nat
  deriving DecidableEq, Repr

/-- The reset record of a stream register block (R198). -/
def Stream.reset : Stream := { sshare := 0x001838B0#32, shareRefused := false, slate := 0, sskip := 0, sstall := 0, smerge := 0 }

/-- The compression register block of a compute die (R227). -/
structure Zip where
  zretry : Nat
  zdamage : Nat
  zescape : Nat
  zspill : Nat
  zraw : Nat
  zstored : Nat
  deriving DecidableEq, Repr

/-- The reset record of a compression register block (R227). -/
def Zip.reset : Zip := { zretry := 0, zdamage := 0, zescape := 0, zspill := 0, zraw := 0, zstored := 0 }

/-! ## Memory -/

/-- A mapped span (R229, R233): the owning queue and the frame of each slot. -/
structure Span where
  owner : Nat
  frames : List Nat
  deriving DecidableEq, Repr

/-- A range of undefined bytes (R4): start, length and the serial number of its marking. -/
structure Undef where
  start : Nat
  len : Nat
  serial : Nat
  deriving DecidableEq, Repr

/-- A burst that waits at a stack controller (R199-R201): the die and the engine that sent it, the stream it belongs to, its
class (0 read, 1 write, 2 remote), whether it writes, the first sector and the number still to be served, the number served,
when its first request was queued, and its deadline, on the clock of the stack's controller. -/
structure Burst where
  die : Nat
  engine : Nat
  stream : Nat
  cls : Nat
  isWrite : Bool
  first : Nat
  count : Nat
  served : Nat
  queued : Nat
  deadline : Nat
  deriving DecidableEq, Repr

/-- One HBM4 stack (R237-R243, R404, R402), with its controller's NoC cycle count, the shares of its window and the bursts
that wait (R197-R201). -/
structure Stack where
  present : Bool
  selfRefresh : Bool
  retired : List Nat
  marked : List Nat
  volatileRetired : List Nat
  takenOver : List (Nat × Nat)
  temp : Int
  level : Nat
  throttleSeen : Bool
  rowErrors : Map Nat
  failing : List (Nat × Nat)
  sparesUsed : Map Nat
  flagged : Bool
  passes : Nat
  scrubFrame : Nat
  slotNo : Nat
  usedBack : Nat
  usedRead : Nat
  usedWrite : Nat
  usedRemote : Nat
  clock : Nat
  shares : Word
  queue : List Burst
  tripOnce : Bool
  deriving DecidableEq, Repr

/-- A stack before start-up (R243). -/
def Stack.reset : Stack :=
  { present := false, selfRefresh := false, retired := [], marked := [], volatileRetired := [], takenOver := [],
    temp := 0, level := 0, throttleSeen := false, rowErrors := [], failing := [], sparesUsed := [],
    flagged := false, passes := 0, scrubFrame := 0, slotNo := 0, usedBack := 0, usedRead := 0, usedWrite := 0,
    usedRemote := 0, clock := 0, shares := 0x001838B0#32, queue := [], tripOnce := false }

/-- A range that a dispatched, uncommitted command writes (R48): its bytes are undefined for every reader but the command
itself until the commit, and stay undefined where the command ends without one. With `fresh` bytes, a master's high plane
under an update (R163), each element is either the old or the new one. -/
structure Claim where
  cid : Nat
  start : Nat
  len : Nat
  serial : Nat
  fresh : Bytes
  deriving DecidableEq, Repr

/-- The job's device memory: the written bytes by device address, the undefined ranges, the ranges that commands in
flight write, the frames that uncommitted ALLOCs have picked, by command (R233), the page table by window and span number,
the stacks and the module's memory registers (R228-R243). -/
structure Memory where
  cells : List Host.Cell
  undef : List Undef
  claims : List Claim
  picked : Map (List (Nat × Nat))
  spans0 : Map Span
  spans1 : Map Span
  spans2 : Map Span
  hstacks : Map Stack
  mcorr : Nat
  mcrc : Nat
  mretryok : Nat
  muncor : Nat
  mppr : Nat
  quota : Map Word
  deriving DecidableEq, Repr

/-! ## Dies, bundles, ports -/

/-- A bundle (R244-R247, R253): positions excluded by the assembly maps fused in the near and in the far die, by the
non-volatile map and in this power cycle, the data lanes in use; the flit that fails (whether the far end sent it, and its
sequence number) with its failures in a row; the counts of the blame window and of liveness; `halved` says that the bundle
has been at half width in this power cycle. -/
structure Bundle where
  state : Nat
  halved : Bool
  fused : List Nat
  fusedFar : List Nat
  nonVolatile : List Nat
  cycle : List Nat
  inUse : List Nat
  replays : Nat
  blame : Map Nat
  inRow : Nat
  failSeq : Option (Bool × Nat)
  idleNear : Nat
  idleFar : Nat
  history : Map Nat
  deriving DecidableEq, Repr

/-- A bundle before discovery (R259). -/
def Bundle.reset : Bundle :=
  { state := 0, halved := false, fused := [], fusedFar := [], nonVolatile := [], cycle := [], inUse := [], replays := 0,
    blame := [], inRow := 0, failSeq := none, idleNear := 0, idleFar := 0, history := [] }

/-- The die register block (R259), the course of rejoins (R256): attempts made per die, dies given up; and the identity
records found that are not as fused, by die index (R250, R361). -/
structure Dies where
  states : Map Nat
  dseen : Word
  rejoinFail : Nat
  rejoinOk : Nat
  attempts : Map Nat
  waitingRetry : List Nat
  givenUp : List Nat
  found : Map Bytes
  bundles : Map Bundle
  deriving DecidableEq, Repr

/-- A lane of a port (R272, R273, R278). -/
structure Lane where
  transients : Nat
  retired : Bool
  margin : Nat
  lastTransient : Option Nat
  blame : Nat
  fir : Map Int
  lastRequest : Option Nat
  deriving DecidableEq, Repr

/-- A lane at power-on (R278). -/
def Lane.reset : Lane :=
  { transients := 0, retired := false, margin := 0, lastTransient := none, blame := 0, fir := [],
    lastRequest := none }

/-- A fragment of a message being received (R267). -/
structure Partial where
  cls : Nat
  msg : Nat
  next : Nat
  data : Bytes
  deriving DecidableEq, Repr

/-- A message to be sent on a port, or sent and not yet acknowledged (R282, R283, R296): the phase of its command, its
logical axis, the command that waits for it, its level, the port groups of its direction and of the other one, its bytes
with the class header, how many have left, and its message number once the first has. -/
structure TxMsg where
  cls : Nat
  phase : Nat
  laxis : Nat
  cid : Option Nat
  level : Nat
  groups : List (List Nat)
  data : Bytes
  sent : Nat
  num : Option Nat
  deriving DecidableEq, Repr

/-- A Birtis port (R260-R278). `history` counts the power cycles in a row, this one not counted, in which a lane was lost,
and marks under 16 more the loss in this one (R275); `loopFail` tells a loopback that failed at start-up (R364). -/
structure Port where
  enable : Bool
  genCap : Nat
  state : Nat
  gen : Nat
  width : Nat
  wentDown : Bool
  narrowed : Bool
  planes : List Nat
  excluded : List Nat
  ppeer : DWord
  ppeerp : Word
  preplay : Nat
  pcrc : Nat
  pfecunc : Nat
  pbadtype : Nat
  pfeccor : Nat
  lanes : Map Lane
  fused : List Nat
  nonVolatile : List Nat
  history : Map Nat
  nextSeq : Nat
  replay : List (Nat × Bytes)
  resendFrom : Option Nat
  resends : Nat
  lastRewind : Option Nat
  credits : Map Nat
  expect : Nat
  accepted : Option Nat
  sendNak : Bool
  txQueue : List TxMsg
  txMsg : Map Nat
  rx : List Partial
  owed : Map Nat
  oldPhase : Bool
  slotUse : Map Nat
  sinceShort : Nat
  loopFail : Bool
  deriving DecidableEq, Repr

/-- A port at power-on (R278). -/
def Port.reset : Port :=
  { enable := true, genCap := 3, state := 0, gen := 0, width := 0, wentDown := false, narrowed := false,
    planes := [], excluded := [], ppeer := 0, ppeerp := 0, preplay := 0, pcrc := 0, pfecunc := 0, pbadtype := 0,
    pfeccor := 0, lanes := [], fused := [], nonVolatile := [], history := [], nextSeq := 0, replay := [],
    resendFrom := none, resends := 0, lastRewind := none, credits := [], expect := 0, accepted := none,
    sendNak := false, txQueue := [], txMsg := [], rx := [], owed := [], oldPhase := false, slotUse := [], sinceShort := 15,
    loopFail := false }

/-! ## Collectives -/

/-- One message of a stage's input (R290, R292, R298): the stage, the member it counts for, its segment, whether it is a
backup copy, its non-finite count, its values and, for a gather, the generation it carries. -/
structure CollInput where
  stage : Nat
  src : Nat
  segment : Nat
  backup : Bool
  nonfinite : Nat
  values : List Word
  generation : Nat
  deriving DecidableEq, Repr

/-- A close word (R293) with its sender. -/
structure CloseWord where
  src : Nat
  offCount : Nat
  offRank : Nat
  q : Word
  failed : Bool
  backup : Bool
  deriving DecidableEq, Repr

/-- An entry of a rank list (R287). -/
structure RankEntry where
  rank : Nat
  backup : Nat
  coords : List Nat
  lattice : Nat
  deriving DecidableEq, Repr

/-- A reduction or gather in flight (R286-R298): its rank list, the members of each stage, the axis stages, this
module's index, the elements, the shard length, the span factor; the stage in hand, the microsecond at which its window began (R292), and
what is held before it; the inputs, the primaries
whose copies were asked for, the close words, and what the exclusion of a rank needs. -/
structure Coll where
  cid : Nat
  collId : Word
  gather : Bool
  standby : Bool
  entries : List RankEntry
  dims : List Nat
  axes : Nat
  index : Nat
  elems : Nat
  shard : Nat
  spanMult : Nat
  stage : Nat
  since : Nat
  held : List Word
  inputs : List CollInput
  pulled : List Nat
  settled : Bool
  totals : List Word
  closes : List CloseWord
  offenders : List Nat
  ownBad : Bool
  excluded : Option Nat
  rescale : Bool
  backupTaken : Bool
  heard : List Nat
  generation : Nat
  deriving DecidableEq, Repr

/-- A used slot of an Eddy ring command (R301): the block's origin, its hops, and whether this module needs it, so
that its release is due. -/
structure EddySlot where
  origin : Nat
  hops : Nat
  needed : Bool
  deriving DecidableEq, Repr

/-- An Eddy command in flight (R300-R302): its axis, ring size and position, the slots in use, the origins handled,
blocks that wait for their slot, the partials taken and the accumulators that came. -/
structure Eddy where
  cid : Nat
  backward : Bool
  ring : Nat
  axis : Nat
  size : Nat
  position : Nat
  causal : Bool
  slots : Map EddySlot
  handled : List Nat
  waiting : List (Nat × Nat × Bytes)
  parts : List (Nat × Nat × List Word)
  accs : List (Nat × List Word)
  deriving DecidableEq, Repr

/-- An entry waiting in a pipeline slot buffer (R305). -/
structure PipeEntry where
  src : Nat
  number : Nat
  data : Bytes
  deriving DecidableEq, Repr

/-- A pipeline queue at this module (R304, R305): the sender's credits, next entry number and entries that wait for
their acknowledgement (number and command); the receiver's slots, entry size, slot buffer descriptor, next entry number,
waiting entries and the numbers of rejected ones. -/
structure Pipe where
  credits : Option Nat
  nextEntry : Nat
  sent : List (Nat × Nat)
  slots : Nat
  size : Nat
  buffer : Nat
  nextTake : Nat
  entries : List PipeEntry
  rejected : List Nat
  deriving DecidableEq, Repr

/-- A pipeline queue before use (R305). -/
def Pipe.reset : Pipe :=
  { credits := none, nextEntry := 0, sent := [], slots := 0, size := 0, buffer := 0, nextTake := 0, entries := [],
    rejected := [] }

/-- A mirror slot (R306-R309), a source under its number, a host under 256 more: the partner, the logical axis, the
descriptors (a host's region under desc), the state, generations, the step number of genC, landed blocks (at a source: sent
ones), blocks in all, the bytes of the four images, and whether the source has told its size. -/
structure Mirror where
  source : Bool
  partner : Nat
  laxis : Nat
  desc : Nat
  m1 : Nat
  m2 : Nat
  state : Nat
  genC : DWord
  genF : DWord
  step : Nat
  done : Nat
  nblocks : Nat
  images : List Nat
  asked : Bool
  deriving DecidableEq, Repr

/-- An empty mirror slot. -/
def Mirror.reset : Mirror :=
  { source := false, partner := 0, laxis := 0, desc := 0, m1 := 0, m2 := 0, state := 0, genC := 0, genF := 0, step := 0,
    done := 0, nblocks := 0, images := [], asked := false }

/-- Basin, the route table in force and the phase (R281-R299), Eddy, the pipelines and the mirror. -/
structure Peers where
  route : Option Bytes
  phase : Nat
  switching : Option Nat
  oldRoute : Option Bytes
  epoch : Nat
  final : Bool
  nonfinite : Bool
  excluded : Bool
  backup : Bool
  offCount : Nat
  offMine : Bool
  boffend : Nat
  bbackup : Nat
  btimeout : Nat
  bexcl : Nat
  bmisroute : Nat
  colls : List Coll
  eddies : List Eddy
  pipes : Map Pipe
  mirrors : Map Mirror
  ringDescs : Map (Nat × Nat)
  inbox : List (Header × Bytes)
  deriving DecidableEq, Repr

/-! ## The Spring die -/

/-- A loaded dictionary (R316, R317). -/
structure Dict where
  desc : Nat
  index : Nat
  entries : List (Bytes × Word)
  deriving DecidableEq, Repr

/-- A prepared sample: for each output its bytes and its mask bytes (R324, R337), its profile and truncated bits, and
the saturations of its conversions. -/
structure Sample where
  id : DWord
  outputs : List (Nat × Bytes × Bytes)
  profile : Nat
  truncated : Bool
  sat : Nat
  deriving DecidableEq, Repr

/-- A field that a decoder lane holds (R320, R338): the output that takes it, its expiries, its codec class, and its
bytes of data. -/
structure LaneField where
  output : Nat
  expiries : Nat
  codec : Nat
  bytes : Nat
  deriving DecidableEq, Repr

/-- A slot of the batch in assembly (R330-R336). -/
structure BatchSlot where
  sampleId : DWord
  replId : DWord
  reason : Nat
  sflags : Nat
  profile : Nat
  docs : Nat
  position : DWord
  fields : List LaneField
  outputs : List (Nat × Bytes × Bytes)
  sat : Nat
  done : Bool
  deriving DecidableEq, Repr

/-- The batch in assembly (R330): its command, its number, its first record position and its slots so far. -/
structure Assembly where
  cid : Nat
  batch : Nat
  firstPos : DWord
  rsvTaken : List Sample
  slots : List BatchSlot
  deriving DecidableEq, Repr

/-- One ingest stream (R310-R342). -/
structure Ingest where
  opened : Bool
  cfg : Bytes
  src : Nat
  rsv : Nat
  dict : Nat
  pos : DWord
  rsvPos : DWord
  epoch : Word
  seed : Word
  frameLoss : Bool
  reserveEmpty : Bool
  sourceEmpty : Bool
  lowWater : Bool
  srcTail : Word
  srcHead : Word
  rsvTail : Word
  rsvHead : Word
  share : Word
  pendShare : Option Word
  batch : Nat
  held : Map Nat
  asm : Option Assembly
  pool : List Sample
  taken : List Nat
  srepl : Nat
  spad : Nat
  scheap : Nat
  scorrupt : Nat
  sexpire : Nat
  skipBytes : Nat
  deriving DecidableEq, Repr

/-- A closed stream (R342). -/
def Ingest.reset : Ingest :=
  { opened := false, cfg := [], src := 0, rsv := 0, dict := 255, pos := 0, rsvPos := 0, epoch := 0, seed := 0,
    frameLoss := false, reserveEmpty := false, sourceEmpty := false, lowWater := false, srcTail := 0, srcHead := 0,
    rsvTail := 0, rsvHead := 0, share := 0x10#32, pendShare := none, batch := 0, held := [], asm := none,
    pool := [], taken := [], srepl := 0, spad := 0, scheap := 0, scorrupt := 0, sexpire := 0, skipBytes := 0 }

/-- The Spring die (R342). -/
structure Spring where
  shareRefused : Bool
  dicts : Map Dict
  means : Map Nat
  streams : Map Ingest
  deriving DecidableEq, Repr

/-! ## Control die, host, management -/

/-- The K control block (R353), the PCIe endpoint (R345-R348), the capability record's count (R22) and the course of
start-up (R363, R393, R422). -/
structure Control where
  kstate : Nat
  stage : Nat
  selftest : Nat
  noFirmware : Bool
  apbase : DWord
  h2c : DWord
  c2h : DWord
  kirq : Word
  presRefuse : Nat
  aperr : Nat
  coreIrq : Bool
  halves : Map Word
  linkUp : Bool
  endpointOn : Bool
  perst : Bool
  busMaster : Bool
  config : Map Word
  msixTable : Map Word
  updateCount : Nat
  powerGood : Bool
  mrst : Bool
  waitCool : Bool
  noMainClock : Bool
  serial : DWord
  fwVersion : DWord
  idDigest : Bytes
  deriving DecidableEq, Repr

/-- The management ports and the data port (R358-R362). -/
structure Mgmt where
  active : Nat
  link0 : Bool
  link1 : Bool
  rate0 : Nat
  rate1 : Nat
  malformed : Nat
  address : Word
  dpAddr : DWord
  errValid : Bool
  err : Nat
  inc : Bool
  count : Nat
  deriving DecidableEq, Repr

/-- A stored firmware image (R370-R374): what its header says, and its measurement. -/
structure Image where
  typ : Nat
  keySlot : Nat
  version : DWord
  svn : Nat
  measure : Bytes
  downgrade : Bool
  deriving DecidableEq, Repr

/-- The two banks of an image type (R372): the active one, the pending or spare one. -/
structure Banks where
  active : Option Image
  other : Option Image
  pending : Bool
  deriving DecidableEq, Repr

/-- No image stored. -/
def Banks.reset : Banks := { active := none, other := none, pending := false }

/-- The security engine (R369-R381). The window counts the microseconds of presence left. -/
structure Security where
  revoked : List Nat
  sealFuse : Bool
  jumper : Bool
  jumperFused : Bool
  jumperIgnore : Bool
  windowUs : Nat
  pressed : Bool
  stuck : Bool
  debug : Bool
  floors : Map Nat
  storedFloors : Map Nat
  sigFail : Nat
  banks : Map Banks
  running : Map Image
  spareBoot : Bool
  bootCount : Nat
  sidkey : Bytes
  /-- The signature that ends SIDCERT. -/
  sidcert : Bytes
  deriving DecidableEq, Repr

/-! ## Power, reliability, pins -/

/-- A cluster (R388-R392, R399, R400). -/
structure Cluster where
  freq : Nat
  fcap : Nat
  limit : Nat
  temp0 : Int
  temp1 : Int
  thermal : Nat
  railMv : Nat
  railOffset : Nat
  doubled : Bool
  droops : Nat
  throttling : Bool
  capped : Bool
  weir : Nat
  duty : Nat
  deriving DecidableEq, Repr

/-- A cluster before start-up: switched off (R384). -/
def Cluster.reset : Cluster :=
  { freq := 0, fcap := 1200, limit := 7, temp0 := 0, temp1 := 0, thermal := 1200, railMv := 650, railOffset := 0,
    doubled := false, droops := 0, throttling := false, capped := false, weir := 1200, duty := 32 }

/-- The power and clock window (R400), Weir (R396) and the domains that are on (R384). -/
structure Power where
  capUnreachable : Bool
  tripped : Bool
  floorShort : Bool
  wctrlRefused : Bool
  inputFault : Bool
  ref25Lost : Bool
  ref156Lost : Bool
  ref100Lost : Bool
  flowLow : Bool
  inletHot : Bool
  throttleSeen : Bool
  wctrl : Word
  pendWctrl : Option Word
  capW : Option Nat
  pctrl : Word
  pin : Nat
  pvin : Word
  pmean : Nat
  pfloor : Nat
  pidle : Nat
  pmin : Nat
  pcool : Word
  pfiller : Nat
  pdroop : Nat
  pthrot : Nat
  allowance : Nat
  means : List Nat
  clusters : Map Cluster
  domains : List Nat
  ramping : List Nat
  sensorTrips : List Nat
  alarms : List Nat
  thermOut : Bool
  deriving DecidableEq, Repr

/-- An error-log entry (R412). -/
structure LogEntry where
  seq : Nat
  step : Nat
  level : Nat
  kind : Nat
  jobId : Word
  die : Nat
  eflags : Nat
  unit : Nat
  status : Nat
  detail : Nat
  cause : Nat
  count : Nat
  info : Bytes
  deriving DecidableEq, Repr

/-- A contained error waiting or under handling (R410). -/
structure Contained where
  site : ErrorSite
  level : Nat
  seq : Nat
  deriving DecidableEq, Repr

/-- The reliability window (R415), the error log (R411) and containment (R410). -/
structure Reliab where
  rscrub : Word
  nextSeq : Nat
  log : List LogEntry
  overwrote : Bool
  overflow : Bool
  rsramcor : Nat
  rsramunc : Nat
  retired0 : Nat
  retired1 : Nat
  resc : Nat
  levels : Map Nat
  rage : Word
  handling : Option Contained
  pend : List Contained
  toRerun : List Nat
  deriving DecidableEq, Repr

/-- The discrete inputs and the sideband (R421-R425). -/
structure Pins where
  level : List Nat
  invalid : List Nat
  jumperLong : Bool
  mrstLong : Bool
  perstLong : Bool
  glitches : Map Nat
  swFault : Bool
  swTrip : Bool
  alertReleased : Bool
  straps : Nat
  deriving DecidableEq, Repr

/-- The time counters of R6, in their own cycles. -/
structure Time where
  aon : Nat
  die : Map Nat
  deriving DecidableEq, Repr

/-- The compute dies' schedulers: the job queue that comes first in the rotation among equals (R46), the
logical-to-physical maps (R56) and the physical Meres by number, C1's from 136. -/
structure Compute where
  turn : Nat
  place : Map Nat
  meres : Map Mere
  streams : Map Stream
  zips : Map Zip
  deriving DecidableEq, Repr

/-- The state of the module. -/
structure State where
  pending : List Instr
  freeCtr : Nat
  out : List Out
  nextCid : Nat
  time : Time
  queues : Map Queue
  cmds : List Cmd
  job : Job
  counters : Map Counter
  guard : Guard
  update : Update
  compute : Compute
  mem : Memory
  dies : Dies
  ports : Map Port
  peers : Peers
  spring : Spring
  ctl : Control
  mgmt : Mgmt
  sec : Security
  power : Power
  rel : Reliab
  pins : Pins
  deriving DecidableEq, Repr

/-- No job (R53). -/
def Job.reset : Job :=
  { loaded := false, jobId := 0, meresPerDie := 0, descCount := 0, descTable := 0, hbmBytes := 0, queues := 0,
    policy := 0, counters := 0, saveArea := 0, suspended := false, failed := false, step := 0, saved := [], perstEnd := false }

/-- The guard at reset (R147). -/
def Guard.reset : Guard :=
  { gctrl := 0x1A52#32, gstep := 0, geval := 0, gup := [], gdown := [], tags := [], counts := [] }

/-- The update engine at reset (R170). -/
def Update.reset : Update :=
  { lscur := 0x3F800000#32, lsnext := 0x3F800000#32, adjusted := false, good := 0, lsstep := 0, uheld := 0,
    uclip := 0x3F800000#32, normq := [], growth := 0, backoff := 0, interval := 0, minScale := 0, maxScale := 0 }

/-- The schedulers at reset (R56, R198, R227). -/
def Compute.reset : Compute := { turn := 0, place := [], meres := [], streams := [], zips := [] }

/-- The memory at reset (R243): nothing listed, nothing mapped. -/
def Memory.reset : Memory :=
  { cells := [], undef := [], claims := [], picked := [], spans0 := [], spans1 := [], spans2 := [], hstacks := [], mcorr := 0, mcrc := 0,
    mretryok := 0, muncor := 0, mppr := 0, quota := [] }

/-- The dies before discovery (R259). -/
def Dies.reset : Dies :=
  { states := [], dseen := 0, rejoinFail := 0, rejoinOk := 0, attempts := [], waitingRetry := [], givenUp := [],
    found := [], bundles := [] }

/-- Basin, Eddy, pipelines and mirrors at reset (R299). -/
def Peers.reset : Peers :=
  { route := none, phase := 0xFF, switching := none, oldRoute := none, epoch := 0, final := false, nonfinite := false,
    excluded := false, backup := false, offCount := 0, offMine := false, boffend := 0xFFFFFFFF, bbackup := 0, btimeout := 0, bexcl := 0,
    bmisroute := 0, colls := [], eddies := [], pipes := [], mirrors := [], ringDescs := [], inbox := [] }

/-- The Spring die at reset (R342). -/
def Spring.reset : Spring := { shareRefused := false, dicts := [], means := [], streams := [] }

/-- The control die at reset (R353). The capability record's update count starts at 0 (DESIGN CHOICE: R22 gives no value
after power-on; log 62); the serial number and the identity digest are the part's own, which the manual does not state. -/
def Control.reset : Control :=
  { kstate := 0, stage := 0, selftest := 0, noFirmware := false, apbase := 0, h2c := 0, c2h := 0, kirq := 0,
    presRefuse := 0, aperr := 0, coreIrq := false, halves := [], linkUp := false, endpointOn := false,
    perst := false, busMaster := false, config := [], msixTable := [], updateCount := 0, powerGood := false, mrst := false, waitCool := false,
    noMainClock := false, serial := Config.moduleSerial, fwVersion := 0,
    idDigest := Config.shake256 Config.identityKey }

/-- The management controller at reset (R361). -/
def Mgmt.reset : Mgmt :=
  { active := 0, link0 := false, link1 := false, rate0 := 0, rate1 := 0, malformed := 0, address := 0, dpAddr := 0,
    errValid := false, err := 0, inc := true, count := 4 }

/-- The security engine at reset (R381). -/
def Security.reset : Security :=
  { revoked := [], sealFuse := false, jumper := false, jumperFused := false, jumperIgnore := false, windowUs := 0,
    pressed := false, stuck := false, debug := false, floors := [], storedFloors := [], sigFail := 0, banks := [],
    running := [], spareBoot := false, bootCount := 0, sidkey := Config.identityKey, sidcert := Config.certSignature }

/-- The power window at reset (R400): only the always-on domain is on (R384). -/
def Power.reset : Power :=
  { capUnreachable := false, tripped := false, floorShort := false, wctrlRefused := false, inputFault := false,
    ref25Lost := false, ref156Lost := false, ref100Lost := false, flowLow := false, inletHot := false,
    throttleSeen := false, wctrl := 0x0C8191E0#32, pendWctrl := none, capW := none, pctrl := 0x13E8#32, pin := 0,
    pvin := 0, pmean := 0, pfloor := 0, pidle := 780, pmin := 1560, pcool := 0, pfiller := 0, pdroop := 0,
    pthrot := 0, allowance := 0, means := [], clusters := [], domains := [95], ramping := [], sensorTrips := [],
    alarms := [], thermOut := false }

/-- The reliability window at power-on (R415). -/
def Reliab.reset : Reliab :=
  { rscrub := 0x104#32, nextSeq := 0, log := [], overwrote := false, overflow := false, rsramcor := 0,
    rsramunc := 0, retired0 := 0, retired1 := 0, resc := 0, levels := [], rage := 0, handling := none, pend := [],
    toRerun := [] }

/-- The discrete inputs at the start of the always-on domain (R424). -/
def Pins.reset : Pins :=
  { level := [], invalid := [], jumperLong := false, mrstLong := false, perstLong := false, glitches := [],
    swFault := false, swTrip := false, alertReleased := false, straps := 0 }

/-- The module right after power-on: the always-on domain runs and start-up has not begun (R10, R363). -/
def State.reset : State :=
  { pending := [], freeCtr := 0, out := [], nextCid := 0, time := { aon := 0, die := [] }, queues := [], cmds := [],
    job := Job.reset, counters := [], guard := Guard.reset, update := Update.reset, compute := Compute.reset,
    mem := Memory.reset, dies := Dies.reset, ports := [], peers := Peers.reset, spring := Spring.reset,
    ctl := Control.reset, mgmt := Mgmt.reset, sec := Security.reset, power := Power.reset, rel := Reliab.reset,
    pins := Pins.reset }

end Sys2Proof.Machine
end

