-- ==== Sys2Proof/Machine/Ops.lean ====
section
/-! DEFINITION. The named operations over the state: finite maps, bits and bytes, device memory, the records of the
numbered units, outputs, the error log, the capability record. -/

namespace Sys2Proof.Machine

/-! ## Finite maps -/

/-- The record at key `k`, or the reset record `d`. -/
def mget {α : Type} (d : α) : Map α → Nat → α
  | [], _ => d
  | (k', v) :: t, k => if k' = k then v else mget d t k

/-- The map with `v` at key `k`, keys rising. -/
def mput {α : Type} : Map α → Nat → α → Map α
  | [], k, v => [(k, v)]
  | (k', v') :: t, k, v =>
    if k < k' then (k, v) :: (k', v') :: t
    else if k = k' then (k, v) :: t
    else (k', v') :: mput t k v

/-- The map without key `k`. -/
def mdel {α : Type} : Map α → Nat → Map α
  | [], _ => []
  | (k', v) :: t, k => if k' = k then t else (k', v) :: mdel t k

/-- Whether key `k` is present. -/
def mhas {α : Type} (m : Map α) (k : Nat) : Bool := m.any (fun e => e.1 == k)

/-- The map with the record at `k` changed by `f`. -/
def mmod {α : Type} (d : α) (m : Map α) (k : Nat) (f : α → α) : Map α := mput m k (f (mget d m k))

/-- A set held as a rising list, with `n` added. -/
def addTo (l : List Nat) (n : Nat) : List Nat := if l.contains n then l else (l.filter (· < n)) ++ n :: l.filter (n < ·)

/-- A set held as a list, without `n`. -/
def dropFrom (l : List Nat) (n : Nat) : List Nat := l.filter (fun x => x != n)

/-! ## Bits and bytes -/

/-- Bits hi to lo of a number (R5). -/
def bits (v hi lo : Nat) : Nat := (v / 2 ^ lo) % 2 ^ (hi + 1 - lo)

/-- Bit `i` of a number. -/
def bit (v i : Nat) : Bool := (v / 2 ^ i) % 2 == 1

/-- A flag as a number. -/
def b2n (b : Bool) : Nat := if b then 1 else 0

/-- The number a little-endian string of bytes spells (R5). -/
def leNat : Bytes → Nat
  | [] => 0
  | b :: t => b.toNat + 256 * leNat t

/-- A number as `n` little-endian bytes (R5), modulo the width. -/
def toLe : Nat → Nat → Bytes
  | 0, _ => []
  | n + 1, v => BitVec.ofNat 8 v :: toLe n (v / 256)

/-- `len` bytes of `b` from offset `off`; bytes beyond the end read as zero. -/
def slice (b : Bytes) (off len : Nat) : Bytes :=
  let t := (b.drop off).take len
  t ++ List.replicate (len - t.length) 0

/-- The little-endian field at `off` of `size` bytes. -/
def field (b : Bytes) (off size : Nat) : Nat := leNat (slice b off size)

/-- Whether every byte is zero. -/
def allZero (b : Bytes) : Bool := b.all (fun x => x == 0)

/-- `b` with the bytes `v` laid over it from offset `off`. -/
def patch (b : Bytes) (off : Nat) (v : Bytes) : Bytes := b.take off ++ v ++ b.drop (off + v.length)

/-- The smallest number of steps of `d` that cover `n`. -/
def ceilDiv (n d : Nat) : Nat := if d = 0 then 0 else (n + d - 1) / d

/-- Saturating addition below `2 ^ w`. -/
def satAdd (w a b : Nat) : Nat := min (a + b) (2 ^ w - 1)

/-- A 16-bit two's complement field. -/
def s16 (v : Int) : Nat := (v % 65536).toNat

/-- The members of a list of bit positions as a number. -/
def maskOf (l : List Nat) : Nat := l.foldl (fun a n => a ||| 2 ^ n) 0

/-- One step of the reflected CRC with polynomial `poly` (R209, R267). -/
def crcBit (poly : Nat) (c : Nat) : Nat := if c % 2 = 1 then (c / 2) ^^^ poly else c / 2

/-- The CRC over one more byte. -/
def crcByte (poly : Nat) (c : Nat) (b : Byte) : Nat :=
  let c0 := c ^^^ b.toNat
  crcBit poly (crcBit poly (crcBit poly (crcBit poly (crcBit poly (crcBit poly (crcBit poly (crcBit poly c0)))))))

/-- CRC-32C of RFC 3720 (R209): polynomial 0x1EDC_6F41 reflected, initial value and final XOR all ones. -/
def crc32c (b : Bytes) : Nat := (b.foldl (crcByte 0x82F63B78) 0xFFFFFFFF) ^^^ 0xFFFFFFFF

/-- The CRC-32 of IEEE 802.3 (R267). PRESUMED: the standard's polynomial and conventions. -/
def crc32 (b : Bytes) : Nat := (b.foldl (crcByte 0xEDB88320) 0xFFFFFFFF) ^^^ 0xFFFFFFFF

/-! ## Device memory -/

/-- The cells with byte `b` at address `a`: rising addresses, no cell holding what an unlisted address reads as. -/
def cellPut : List Host.Cell → Nat → Byte → List Host.Cell
  | [], a, b => if b = 0 then [] else [(a, b)]
  | (a', b') :: t, a, b =>
    if a < a' then (if b = 0 then (a', b') :: t else (a, b) :: (a', b') :: t)
    else if a = a' then (if b = 0 then t else (a, b) :: t)
    else (a', b') :: cellPut t a b

/-- Whether the addresses rise strictly from `lo` and no cell holds zero. -/
def cellsFrom : Nat → List Host.Cell → Bool
  | _, [] => true
  | lo, (a, b) :: t => decide (lo ≤ a) && b != 0 && cellsFrom (a + 1) t

/-- The canonical form of the device memory. -/
def Memory.wf (m : Memory) : Bool := cellsFrom 0 m.cells

/-- The serial number of the undefined range that holds `a`, if any (R4). -/
def undefAt : List Undef → Nat → Option Nat
  | [], _ => none
  | u :: t, a => if u.start ≤ a ∧ a < u.start + u.len then some u.serial else undefAt t a

/-- The undefined ranges without the bytes from `a` to `a + n - 1`. -/
def undefClear : List Undef → Nat → Nat → List Undef
  | [], _, _ => []
  | u :: t, a, n =>
    if u.start + u.len ≤ a ∨ a + n ≤ u.start then u :: undefClear t a n
    else
      (if u.start < a then [{ u with len := a - u.start }] else []) ++
      (if a + n < u.start + u.len then
        [{ start := a + n, len := u.start + u.len - (a + n), serial := u.serial }] else []) ++
      undefClear t a n

/-- The claim that holds `a`, if any (R48). -/
def claimAt : List Claim → Nat → Option Claim
  | [], _ => none
  | u :: t, a => if u.start ≤ a ∧ a < u.start + u.len then some u else claimAt t a

/-- What a claimed byte reads as: a free byte (R48); under an update the old byte or the new one, the same choice for both
bytes of an element (R163). -/
def Claim.byte (u : Claim) (a : Nat) (old : Byte) : Byte :=
  if u.fresh.isEmpty then Config.freeByte u.serial a
  else if (Config.freeByte u.serial (a / 2)).toNat % 2 = 0 then old
  else u.fresh.getD (a - u.start) 0

/-- One byte of device memory: a written byte, a free byte where the content is undefined (R4) or belongs to a command
in flight (R48), else zero. -/
def Memory.read (m : Memory) (a : Nat) : Byte :=
  match undefAt m.undef a with
  | some n => Config.freeByte n a
  | none =>
    match claimAt m.claims a with
    | some u => u.byte a (mget 0 m.cells a)
    | none => mget 0 m.cells a

/-- The memory as command `cid` reads it: its own claims hide nothing from it. -/
def Memory.own (m : Memory) (cid : Nat) : Memory := { m with claims := m.claims.filter (fun u => u.cid != cid) }

/-- `n` bytes of device memory from `a`. -/
def Memory.readN (m : Memory) (a n : Nat) : Bytes := (List.range n).map (fun i => m.read (a + i))

/-- The cells with a run of bytes written. -/
def cellRun : List Host.Cell → Nat → Bytes → List Host.Cell
  | c, _, [] => c
  | c, a, b :: t => cellRun (cellPut c a b) (a + 1) t

/-- A run of bytes written at `a`. -/
def Memory.write (m : Memory) (a : Nat) (b : Bytes) : Memory :=
  { m with cells := cellRun m.cells a b, undef := undefClear m.undef a b.length }

/-- The bytes from `a` to `a + n - 1` become undefined (R4). -/
def Memory.forget (m : Memory) (a n serial : Nat) : Memory :=
  if n = 0 then m else { m with undef := { start := a, len := n, serial := serial } :: undefClear m.undef a n }

/-- Where the model keeps the 16 GiB window of the application cores (R230): beside the device addresses, which end far
below. -/
def coreBase : Nat := 2 ^ 60

/-- The size of that window. -/
def coreSize : Nat := 2 ^ 34

/-- The job's memory zeroed (R235): what is left is the cores' window. -/
def Memory.wipeJob (m : Memory) : Memory :=
  { m with cells := m.cells.filter (fun c => decide (coreBase ≤ c.1)), undef := m.undef.filter (fun u => decide (coreBase ≤ u.start)) }

/-- The claims of command `cid` end without a commit: their bytes stay undefined (R48). -/
def Memory.abandon (m : Memory) (cid : Nat) : Memory :=
  (m.claims.filter (fun u => u.cid == cid)).foldl (fun m u => m.forget u.start u.len u.serial) (m.own cid)

/-- The ranges claimed by command `cid` under one serial number. -/
def Memory.claim (m : Memory) (cid serial : Nat) (rs : List (Nat × Nat)) : Memory :=
  { m with claims := rs.map (fun r => { cid := cid, start := r.1, len := r.2, serial := serial, fresh := [] }) ++ m.claims }

/-- The new bytes of a master's high plane at `a`, each element old or new for every other reader (R163). -/
def Memory.offer (m : Memory) (cid serial a : Nat) (b : Bytes) : Memory :=
  { m with claims := { cid := cid, start := a, len := b.length, serial := serial, fresh := b } :: m.claims }

/-- The window of a device address (R228): 0 die-interleaved, 1 C0-local, 2 C1-local. -/
def windowOf (a : Nat) : Option Nat :=
  if a < 0x8000000000 then some 0
  else if a < 0x10000000000 then some 1
  else if a < 0x18000000000 then some 2
  else none

/-- The first address of a window (R228). -/
def windowBase (w : Nat) : Nat := if w = 0 then 0 else if w = 1 then 0x8000000000 else 0x10000000000

/-- The span size of a window (R228). -/
def spanSize (w : Nat) : Nat := if w = 0 then 0x1000000 else 0x800000

/-- The stacks of a window in slot order (R228). -/
def windowStacks (w : Nat) : List Nat :=
  if w = 0 then [0, 1, 2, 3, 4, 5, 6, 7] else if w = 1 then [0, 1, 2, 3] else [4, 5, 6, 7]

/-- The page table of a window. -/
def Memory.spans (m : Memory) (w : Nat) : Map Span := if w = 0 then m.spans0 else if w = 1 then m.spans1 else m.spans2

/-- The memory with another page table for a window. -/
def Memory.setSpans (m : Memory) (w : Nat) (t : Map Span) : Memory :=
  if w = 0 then { m with spans0 := t } else if w = 1 then { m with spans1 := t } else { m with spans2 := t }

/-- The span number of a device address in its window (R229). -/
def spanOf (w a : Nat) : Nat := (a - windowBase w) / spanSize w

/-- Whether a device address lies in a mapped span. -/
def Memory.mapped (m : Memory) (a : Nat) : Bool :=
  match windowOf a with
  | none => false
  | some w => mhas (m.spans w) (spanOf w a)

/-- Whether the whole range lies in mapped spans of one window (R231). An empty range does. -/
def Memory.mappedRange (m : Memory) (a n : Nat) : Bool :=
  if n = 0 then true
  else
    match windowOf a, windowOf (a + n - 1) with
    | some w, some w' =>
      w == w' && (List.range (spanOf w (a + n - 1) + 1 - spanOf w a)).all (fun i => mhas (m.spans w) (spanOf w a + i))
    | _, _ => false

/-- Translation of a device address (R229): stack, frame and byte within the frame. -/
def Memory.translate (m : Memory) (a : Nat) : Option (Nat × Nat × Nat) :=
  match windowOf a with
  | none => none
  | some w =>
    let o := (a - windowBase w) % spanSize w
    let u := o / 4096
    let n := (windowStacks w).length
    if mhas (m.spans w) (spanOf w a) then
      let sp := mget { owner := 0, frames := [] } (m.spans w) (spanOf w a)
      some ((windowStacks w).getD (u % n) 0, sp.frames.getD (u % n) 0, (u / n) * 4096 + o % 4096)
    else none

/-- The record of stack `n`. -/
def Memory.stack (m : Memory) (n : Nat) : Stack := mget Stack.reset m.hstacks n

/-- The memory with stack `n` changed. -/
def Memory.setStack (m : Memory) (n : Nat) (v : Stack) : Memory := { m with hstacks := mput m.hstacks n v }

/-- The frames of stack `n` that mapped spans of one page table hold. -/
def framesIn (w : Nat) (t : Map Span) (n : Nat) : List Nat :=
  t.flatMap (fun e => ((windowStacks w).zip e.2.frames).filterMap (fun p => if p.1 = n then some p.2 else none))

/-- The frames of stack `n` held by any span, or picked by an ALLOC that has not committed (R233). -/
def Memory.framesUsed (m : Memory) (n : Nat) : List Nat :=
  framesIn 0 m.spans0 n ++ framesIn 1 m.spans1 n ++ framesIn 2 m.spans2 n ++
  (m.picked.flatMap (fun e => e.2)).filterMap (fun p => if p.1 = n then some p.2 else none)

/-- Frames of a stack that are not reserved (R230): 0 to 31,711. -/
def jobFrames : Nat := 31712

/-- Frames of stack `n` lost to jobs: retired or marked (R241), or taken over by a reserved window (R230). -/
def Stack.lost (k : Stack) : List Nat :=
  (k.retired ++ k.marked ++ k.volatileRetired ++ k.takenOver.map (fun e => e.2)).eraseDups

/-- Frames counted as retired (R241): retired, marked or retired for this power cycle. -/
def Stack.retiredCount (k : Stack) : Nat := (k.retired ++ k.marked ++ k.volatileRetired).eraseDups.length

/-- The frame that has the role of reserved frame `f` (R230): take-overs in the order they happened. -/
def Stack.roleOf (k : Stack) (f : Nat) : Nat := k.takenOver.reverse.foldl (fun f e => if e.1 = f then e.2 else f) f

/-- Where an address lies: of the job by the page table, of the cores' window interleaved over all stacks (R230). -/
def Memory.place (m : Memory) (a : Nat) : Option (Nat × Nat × Nat) :=
  if coreBase ≤ a then
    let o := a - coreBase
    let n := o / 4096 % 8
    let w := o / 32768 * 4096 + o % 4096
    some (n, (m.stack n).roleOf (jobFrames + w / 0x200000), w % 0x200000)
  else m.translate a

/-- Whether frame `f` of stack `n` is free (R233). -/
def Memory.frameFree (m : Memory) (n f : Nat) : Bool :=
  decide (f < jobFrames) && !((m.stack n).lost.contains f) && !((m.framesUsed n).contains f)

/-- Free frames of stack `n`. -/
def Memory.freeCount (m : Memory) (n : Nat) : Nat :=
  jobFrames - (((m.stack n).lost ++ m.framesUsed n).eraseDups.filter (· < jobFrames)).length

/-- The `k` lowest-numbered numbers from `f` on that are not in `used` (R233), searched for `fuel` steps. -/
def lowestFree (used : List Nat) : Nat → Nat → Nat → List Nat
  | 0, _, _ => []
  | fuel + 1, f, k =>
    if k = 0 then []
    else if used.contains f then lowestFree used fuel (f + 1) k
    else f :: lowestFree used fuel (f + 1) (k - 1)

/-- MiB charged to queue `q` (R236, R243): each frame is 2 MiB. -/
def Memory.used (m : Memory) (q : Nat) : Nat :=
  2 * (((m.spans0 ++ m.spans1 ++ m.spans2).filter (fun e => e.2.owner = q)).map (fun e => e.2.frames.length)).sum

/-! ## Records of the numbered units -/

/-- The register block of queue `q`. -/
def getQueue (s : State) (q : Nat) : Queue := mget Queue.reset s.queues q

/-- The state with queue `q`'s block replaced. -/
def setQueue (s : State) (q : Nat) (v : Queue) : State := { s with queues := mput s.queues q v }

/-- Counter `n` (R46). -/
def getCounter (s : State) (n : Nat) : Counter := mget { count := 0, poison := false } s.counters n

/-- The state with counter `n` replaced. -/
def setCounter (s : State) (n : Nat) (v : Counter) : State := { s with counters := mput s.counters n v }

/-- Guard table entry of tag `n`. -/
def getTag (s : State) (n : Nat) : Tag := mget Tag.reset s.guard.tags n

/-- The state with the guard table entry of tag `n` replaced. -/
def setTag (s : State) (n : Nat) (v : Tag) : State := { s with guard := { s.guard with tags := mput s.guard.tags n v } }

/-- The counts of tag `n` (R148); key 0 is the total. -/
def getCounts (s : State) (n : Nat) : TagCounts := mget TagCounts.reset s.guard.counts n

/-- The state with the counts of tag `n` replaced. -/
def setCounts (s : State) (n : Nat) (v : TagCounts) : State :=
  { s with guard := { s.guard with counts := mput s.guard.counts n v } }

/-- Physical Mere `n`: 0 to 135 on C0, 136 to 271 on C1. -/
def getMere (s : State) (n : Nat) : Mere := mget Mere.reset s.compute.meres n

/-- The state with physical Mere `n` replaced. -/
def setMere (s : State) (n : Nat) (v : Mere) : State :=
  { s with compute := { s.compute with meres := mput s.compute.meres n v } }

/-- The physical Mere behind logical Mere `n` (R56). -/
def physOf (s : State) (n : Nat) : Nat := mget (if n < 128 then n else n + 8) s.compute.place n

/-- The stream register block of compute die `d`. -/
def getStream (s : State) (d : Nat) : Stream := mget Stream.reset s.compute.streams d

/-- The state with the stream register block of die `d` replaced. -/
def setStream (s : State) (d : Nat) (v : Stream) : State :=
  { s with compute := { s.compute with streams := mput s.compute.streams d v } }

/-- The compression register block of compute die `d`. -/
def getZip (s : State) (d : Nat) : Zip := mget Zip.reset s.compute.zips d

/-- The state with the compression register block of die `d` replaced. -/
def setZip (s : State) (d : Nat) (v : Zip) : State :=
  { s with compute := { s.compute with zips := mput s.compute.zips d v } }

/-- The state with stack `n` replaced. -/
def setStackS (s : State) (n : Nat) (v : Stack) : State := { s with mem := s.mem.setStack n v }

/-- Bundle `b`. -/
def getBundle (s : State) (b : Nat) : Bundle := mget Bundle.reset s.dies.bundles b

/-- The state with bundle `b` replaced. -/
def setBundle (s : State) (b : Nat) (v : Bundle) : State :=
  { s with dies := { s.dies with bundles := mput s.dies.bundles b v } }

/-- The state of die `d` (R259): 0 not discovered, 1 up, 2 lost, 3 rejoining; dies C0, C1, X0, X1, S, K. -/
def dieState (s : State) (d : Nat) : Nat := mget 0 s.dies.states d

/-- The state with die `d` in state `v`. -/
def setDie (s : State) (d v : Nat) : State := { s with dies := { s.dies with states := mput s.dies.states d v } }

/-- Port `p`. -/
def getPort (s : State) (p : Nat) : Port := mget Port.reset s.ports p

/-- The state with port `p` replaced. -/
def setPort (s : State) (p : Nat) (v : Port) : State := { s with ports := mput s.ports p v }

/-- Pipeline queue `n`. -/
def getPipe (s : State) (n : Nat) : Pipe := mget Pipe.reset s.peers.pipes n

/-- The state with pipeline queue `n` replaced. -/
def setPipe (s : State) (n : Nat) (v : Pipe) : State := { s with peers := { s.peers with pipes := mput s.peers.pipes n v } }

/-- Ingest stream `n`. -/
def getIngest (s : State) (n : Nat) : Ingest := mget Ingest.reset s.spring.streams n

/-- The state with ingest stream `n` replaced. -/
def setIngest (s : State) (n : Nat) (v : Ingest) : State :=
  { s with spring := { s.spring with streams := mput s.spring.streams n v } }

/-- Cluster `n`: 0 to 33 on C0, 34 to 67 on C1. -/
def getCluster (s : State) (n : Nat) : Cluster := mget Cluster.reset s.power.clusters n

/-- The state with cluster `n` replaced. -/
def setCluster (s : State) (n : Nat) (v : Cluster) : State :=
  { s with power := { s.power with clusters := mput s.power.clusters n v } }

/-- The cluster of a physical Mere: four Meres each, 34 clusters per die. -/
def clusterOf (phys : Nat) : Nat := if phys < 136 then phys / 4 else 34 + (phys - 136) / 4

/-- The power domain of a cluster (R384). -/
def domainOf (cluster : Nat) : Nat := if cluster < 34 then cluster else 38 + (cluster - 34)

/-! ## Outputs and free values -/

/-- One more output. -/
def emit (s : State) (o : Out) : State := { s with out := s.out ++ [o] }

/-- A fresh free value is taken: the counter advances. -/
def tickFree (s : State) : State := { s with freeCtr := s.freeCtr + 1 }

/-- Device memory written. -/
def hbmWrite (s : State) (a : Nat) (b : Bytes) : State := { s with mem := s.mem.write a b }

/-- Device memory made undefined (R4), under a fresh serial number. -/
def hbmForget (s : State) (a n : Nat) : State :=
  { s with mem := s.mem.forget a n s.freeCtr, freeCtr := s.freeCtr + 1 }

/-! ## Module conditions -/

/-- Presence holds (R375): an open press window, or the jumper fitted and not disabled. -/
def presence (s : State) : Bool :=
  decide (0 < s.sec.windowUs) || (s.sec.jumper && !s.sec.jumperIgnore && !s.sec.jumperFused)

/-- The module is ready (R353). -/
def isReady (s : State) : Bool := s.ctl.kstate == 1

/-- The module is in its safe state (R366). -/
def isSafe (s : State) : Bool := s.ctl.kstate == 2

/-- Whether BAR0 and BAR2 answer: the link is up and the BARs are not of size 0 (R346, R367). -/
def barsUp (s : State) : Bool := s.ctl.linkUp && !s.ctl.noFirmware

/-- Whether the access source reaches the registers: the host needs the link, the cores need K's main clock, the data
port needs K (R344, R367); BAR4/5 leads to no register of the map (R348). -/
def sourceUp (s : State) : Source → Bool
  | .host => barsUp s
  | .cores => isReady s && !s.ctl.noMainClock
  | .dataPort => !s.ctl.noFirmware && s.power.domains.contains 94
  | .hostMsix => false

/-- Physical Meres of die `d` that are retired. -/
def retiredOn (s : State) (d : Nat) : Nat :=
  ((s.compute.meres.filter (fun e => e.2.retired && (if d = 0 then decide (e.1 < 136) else decide (136 ≤ e.1))))).length

/-- Exposed Meres of die `d` (R22, R255, R408): min(128, 136 - r), or 0 from the loss of the die until it rejoins. -/
def meresExposed (s : State) (d : Nat) : Nat :=
  if dieState s d = 2 ∨ dieState s d = 3 then 0 else min 128 (136 - retiredOn s d)

/-- Unused spare Meres of die `d` (R408). -/
def sparesLeft (s : State) (d : Nat) : Nat := 8 - retiredOn s d

/-- Microseconds on the time counter that measures for a die (R6): K's always-on clock, or the die's 25 MHz counter. -/
def microsOn (s : State) (d : Nat) : Nat := if d = 5 then s.time.aon / 100 else mget 0 s.time.die d / 25

/-- hbm_allocatable (R22, R230): the frames jobs may have, in bytes. -/
def hbmAllocatable (s : State) : Nat :=
  ((List.range 8).map (fun n => (jobFrames - ((s.mem.stack n).lost.filter (· < jobFrames)).length) * 0x200000)).sum

/-- The effective power cap (R399). -/
def capEff (s : State) : Nat :=
  match s.power.capW with
  | none => 3000
  | some w => max w s.power.pidle

/-- The capability record from offset 0x0C (R22) up to the serial number: what can change while the module runs. -/
def capLive (s : State) : Bytes :=
  toLe 4 8120 ++ toLe 1 0x42 ++ toLe 1 0x01 ++ toLe 1 0x03 ++ toLe 1 s.ctl.selftest ++
  toLe 2 (if s.ctl.noFirmware then 0 else meresExposed s 0) ++ toLe 2 (if s.ctl.noFirmware then 0 else meresExposed s 1) ++
  toLe 1 (sparesLeft s 0) ++ toLe 1 (sparesLeft s 1) ++ toLe 1 0xFF ++ toLe 1 3 ++ toLe 2 1000 ++ toLe 2 3000 ++
  toLe 8 0x8000000000 ++ toLe 8 (hbmAllocatable s) ++
  toLe 1 (maskOf ((List.range 8).filter (fun n => (s.mem.stack n).present))) ++
  toLe 1 (maskOf ((List.range 8).filter (fun n => (s.mem.stack n).flagged))) ++
  toLe 1 (maskOf ((List.range 7).filter (fun b => (getBundle s b).state == 2))) ++
  toLe 1 (b2n s.sec.sealFuse + 2 * b2n s.sec.jumper + 4 * b2n (isSafe s)) ++
  toLe 4 (maskOf ((List.range 24).filter (fun p => decide ((getPort s p).state ≥ 2)))) ++
  toLe 4 (maskOf ((List.range 24).filter (fun p => decide ((getPort s p).state ≥ 2) && (getPort s p).width == 4))) ++
  toLe 2 ((s.power.clusters.filter (fun e => e.2.capped)).length) ++ toLe 2 (capEff s) ++
  toLe 8 s.ctl.fwVersion.toNat

/-- retire_volatile (R22). -/
def capVolatile (s : State) : Bytes := toLe 1 (maskOf ((List.range 8).filter (fun n => !(s.mem.stack n).volatileRetired.isEmpty)))

/-- The capability record (R22), its update count aside. -/
def capBody (s : State) : Bytes :=
  capLive s ++ toLe 8 s.ctl.serial.toNat ++ slice s.ctl.idDigest 0 32 ++ capVolatile s ++ toLe 15 0

/-- The 128 bytes of the capability record (R22). -/
def capRecord (s : State) : Bytes :=
  [0x46#8, 0x4C#8, 0x44#8, 0x43#8] ++ toLe 2 1 ++ toLe 2 128 ++ toLe 4 s.ctl.updateCount ++ capBody s

/-- R23: where a described state has changed from `old`, the update count passes through an odd value to the next even
one. The serial number and the identity digest never change. -/
def capSync (old new : State) : State :=
  if capLive old = capLive new ∧ capVolatile old = capVolatile new then new
  else { new with ctl := { new.ctl with updateCount := (old.ctl.updateCount + 2) % 2 ^ 32 } }

/-! ## The error log -/

/-- One more entry of the error log (R411, R412): an entry at level 4 merges into the newest one where kind, die, unit
and step agree. -/
def logAdd (s : State) (kind level die unit eflags status detail cause : Nat) (info : Bytes) : State :=
  let fl := eflags + (if isSafe s then 8 else 0)
  let merge : Bool :=
    match s.rel.log.getLast? with
    | some e => level == 4 && e.level == 4 && e.kind == kind && e.die == die && e.unit == unit && e.step == s.job.step
    | none => false
  if merge then
    match s.rel.log.getLast? with
    | some e => { s with rel := { s.rel with log := s.rel.log.dropLast ++ [{ e with count := satAdd 32 e.count 1 }] } }
    | none => s
  else
    let e : LogEntry :=
      { seq := s.rel.nextSeq, step := s.job.step, level := level, kind := kind,
        jobId := if s.job.loaded then s.job.jobId else 0, die := die, eflags := fl, unit := unit, status := status,
        detail := detail, cause := cause, count := 1, info := slice info 0 24 }
    let full := decide (256 ≤ s.rel.log.length)
    { s with rel := { s.rel with
        nextSeq := (s.rel.nextSeq + 1) % 2 ^ 32
        log := (if full then s.rel.log.drop 1 else s.rel.log) ++ [e]
        overwrote := s.rel.overwrote || full } }

/-- An entry at level 4 with no status and no cause (R412). -/
def logNote (s : State) (kind die unit : Nat) (info : Bytes) : State := logAdd s kind 4 die unit 0 0 0 0xFFFFFFFF info

/-- The 64 bytes of a log entry (R412). -/
def logBytes (e : LogEntry) : Bytes :=
  let b := toLe 4 e.seq ++ toLe 6 e.step ++ toLe 1 e.level ++ toLe 1 e.kind ++ toLe 4 e.jobId.toNat ++ toLe 1 e.die ++
    toLe 1 e.eflags ++ toLe 2 e.unit ++ toLe 1 e.status ++ toLe 3 e.detail ++ toLe 4 e.cause ++ toLe 4 e.count ++
    slice e.info 0 24 ++ toLe 4 0
  b ++ toLe 4 (crc32c b)

/-! ## Outcomes of a command -/

/-- The outcome type of every meaning. -/
abbrev Ans := Host.Outcome State Fault Refusal

/-- A next state for a unit the module has; a fault for one it does not have. -/
def onUnit (ok : Bool) (name : String) (n : Nat) (s : State) : Ans :=
  if ok then .next s else .fault (.noSuchUnit name n)

end Sys2Proof.Machine
end

