-- ==== Sys2Proof/Machine/Fp.lean ====
section
/-! DEFINITION. Numbers and rounding (R57-R71, R117): exact values, FP32 arithmetic, the encodings, the scale choices and
the conversions. Format codes are those of R38. -/

namespace Sys2Proof.Machine

/-! ## Exact values -/

/-- `m` over `2 ^ sh` rounded to nearest, ties to even (R66). -/
def rneShift (m sh : Nat) : Nat :=
  let q := m / 2 ^ sh
  let r := m % 2 ^ sh
  if 2 * r > 2 ^ sh then q + 1
  else if 2 * r = 2 ^ sh then q + q % 2
  else q

/-- The exponent of the last place of a `p`-bit significand for a magnitude, not below `qmin`. -/
def lastPlace (p : Nat) (qmin : Int) (m : Nat) (e : Int) : Int :=
  max (e + (Nat.log2 m : Int) + 1 - (p : Int)) qmin

/-- A magnitude rounded to `p` bits with least last place `qmin` (R66). -/
def rndMag (p : Nat) (qmin : Int) (m : Nat) (e : Int) : Nat × Int :=
  if m = 0 then (0, qmin)
  else
    let q := lastPlace p qmin m e
    if q ≤ e then (m * 2 ^ (e - q).toNat, q) else (rneShift m (q - e).toNat, q)

/-- A value rounded to `p` bits with least last place `qmin`. -/
def Num.rnd (p : Nat) (qmin : Int) : Num → Num
  | .nan => .nan
  | .inf n => .inf n
  | .fin n m e => let r := rndMag p qmin m e; .fin n r.1 r.2

/-- The exact negation. -/
def Num.neg : Num → Num
  | .nan => .nan
  | .inf n => .inf (!n)
  | .fin n m e => .fin (!n) m e

/-- The exact magnitude. -/
def Num.abs : Num → Num
  | .nan => .nan
  | .inf _ => .inf false
  | .fin _ m e => .fin false m e

/-- A signed magnitude as an integer multiple of `2 ^ q`, for `q` at or below its exponent. -/
def scaled (neg : Bool) (m : Nat) (e q : Int) : Int :=
  let v : Int := (m * 2 ^ (e - q).toNat : Nat)
  if neg then -v else v

/-- The exact sum under IEEE 754 addition (R61): an exact zero is +0 unless both terms are -0. -/
def Num.add : Num → Num → Num
  | .nan, _ => .nan
  | _, .nan => .nan
  | .inf a, .inf b => if a = b then .inf a else .nan
  | .inf a, .fin _ _ _ => .inf a
  | .fin _ _ _, .inf b => .inf b
  | .fin a m e, .fin b n f =>
    if m = 0 ∧ n = 0 then .fin (a && b) 0 0
    else
      let q := min e f
      let v := scaled a m e q + scaled b n f q
      if v = 0 then .fin false 0 0 else .fin (decide (v < 0)) v.natAbs q

/-- The exact difference. -/
def Num.sub (x y : Num) : Num := Num.add x y.neg

/-- The exact product; zero times infinity is NaN (R61). -/
def Num.mul : Num → Num → Num
  | .nan, _ => .nan
  | _, .nan => .nan
  | .inf a, .inf b => .inf (a != b)
  | .inf a, .fin b n _ => if n = 0 then .nan else .inf (a != b)
  | .fin a m _, .inf b => if m = 0 then .nan else .inf (a != b)
  | .fin a m e, .fin b n f => .fin (a != b) (m * n) (e + f)

/-- Whether `x` is below `y`; false where either is NaN. Both zeros are equal. -/
def Num.lt (x y : Num) : Bool :=
  match x, y with
  | .nan, _ => false
  | _, .nan => false
  | .inf a, .inf b => a && !b
  | .inf a, .fin _ _ _ => a
  | .fin _ _ _, .inf b => !b
  | .fin a m e, .fin b n f => decide (scaled a m e (min e f) < scaled b n f (min e f))

/-- Whether a value is finite. -/
def Num.isFin : Num → Bool
  | .fin _ _ _ => true
  | _ => false

/-- Whether a value is a zero of either sign. -/
def Num.isZero : Num → Bool
  | .fin _ m _ => m == 0
  | _ => false

/-- Whether the sign of a value is minus. -/
def Num.isNeg : Num → Bool
  | .fin n _ _ => n
  | .inf n => n
  | .nan => false

/-- A quotient of magnitudes to 64 significant bits and a sticky bit: magnitude and exponent. -/
def divMag (m : Nat) (e : Int) (n : Nat) (f : Int) : Nat × Int :=
  let k := 64 + Nat.log2 n
  let q := (m * 2 ^ k) / n
  let r := (m * 2 ^ k) % n
  (2 * q + (if r = 0 then 0 else 1), e - f - k - 1)

/-- The quotient under IEEE 754, exact up to a sticky bit far below any last place (R88). -/
def Num.div : Num → Num → Num
  | .nan, _ => .nan
  | _, .nan => .nan
  | .inf _, .inf _ => .nan
  | .inf a, .fin b _ _ => .inf (a != b)
  | .fin a _ _, .inf b => .fin (a != b) 0 0
  | .fin a m e, .fin b n f =>
    if n = 0 then (if m = 0 then .nan else .inf (a != b))
    else if m = 0 then .fin (a != b) 0 0
    else let r := divMag m e n f; .fin (a != b) r.1 r.2

/-- The integer square root, by bits from `2 ^ k` down. -/
def isqrtBits : Nat → Nat → Nat → Nat
  | 0, n, acc => if (acc + 1) * (acc + 1) ≤ n then acc + 1 else acc
  | k + 1, n, acc =>
    let t := acc + 2 ^ (k + 1)
    if t * t ≤ n then isqrtBits k n t else isqrtBits k n acc

/-- The integer square root. -/
def isqrt (n : Nat) : Nat := isqrtBits (Nat.log2 n / 2 + 1) n 0

/-- The square root, exact up to a sticky bit (R88). -/
def Num.sqrt : Num → Num
  | .nan => .nan
  | .inf n => if n then .nan else .inf false
  | .fin n m e =>
    if m = 0 then .fin n 0 0
    else if n then .nan
    else
      let m0 := if e % 2 = 0 then m else 2 * m
      let e0 := if e % 2 = 0 then e else e - 1
      let w := m0 * 2 ^ 128
      let r := isqrt w
      .fin false (2 * r + (if r * r = w then 0 else 1)) (e0 / 2 - 64 - 1)

/-- A whole number as a value. -/
def Num.ofNat (n : Nat) : Num := .fin false n 0

/-! ## Encodings -/

/-- Mantissa bits of an unblocked encoding (R57). -/
def mbits (fmt : Nat) : Nat :=
  if fmt = 0 then 23 else if fmt = 1 then 7 else if fmt = 2 then 10 else if fmt = 3 then 3 else if fmt = 4 then 2
  else if fmt = 5 then 2 else 1

/-- Exponent bits (R57). -/
def ebits (fmt : Nat) : Nat :=
  if fmt = 0 then 8 else if fmt = 1 then 8 else if fmt = 2 then 5 else if fmt = 3 then 4 else if fmt = 4 then 5
  else if fmt = 5 then 3 else 2

/-- Exponent bias (R57). -/
def ebias (fmt : Nat) : Nat :=
  if fmt = 0 then 127 else if fmt = 1 then 127 else if fmt = 2 then 15 else if fmt = 3 then 7 else if fmt = 4 then 15
  else if fmt = 5 then 3 else 1

/-- Element width in bits (R57). -/
def fwidth (fmt : Nat) : Nat := if fmt = 7 then 2 else 1 + ebits fmt + mbits fmt

/-- The least last place of a format. -/
def fqmin (fmt : Nat) : Int := 1 - (ebias fmt : Int) - (mbits fmt : Int)

/-- The magnitude code of the greatest finite value (R58). -/
def maxCode (fmt : Nat) : Nat :=
  if fmt = 0 then 0x7F7FFFFF else if fmt = 1 then 0x7F7F else if fmt = 2 then 0x7BFF else if fmt = 3 then 0x7E
  else if fmt = 4 then 0x7B else if fmt = 5 then 0x1F else 0x7

/-- The canonical NaN the module writes (R58). -/
def nanCode (fmt : Nat) : Nat :=
  if fmt = 0 then 0x7FC00000 else if fmt = 1 then 0x7FC0 else if fmt = 2 then 0x7E00 else if fmt = 3 then 0x7F
  else 0x7E

/-- The magnitude code of infinity, for the formats that have it (R58). -/
def infCode (fmt : Nat) : Nat :=
  if fmt = 0 then 0x7F800000 else if fmt = 1 then 0x7F80 else if fmt = 2 then 0x7C00 else 0x7C

/-- The value of a code of a format other than T2, its block scale aside (R57, R58). -/
def decodeElem (fmt code : Nat) : Num :=
  let mb := mbits fmt
  let eb := ebits fmt
  let m := code % 2 ^ mb
  let e := (code / 2 ^ mb) % 2 ^ eb
  let neg := bit code (mb + eb)
  if fmt ≤ 2 ∨ fmt = 4 then
    if e = 2 ^ eb - 1 then (if m = 0 then .inf neg else .nan)
    else if e = 0 then .fin neg m (fqmin fmt)
    else .fin neg (m + 2 ^ mb) (fqmin fmt + e - 1)
  else if fmt = 3 ∧ code % 128 = 127 then .nan
  else if e = 0 then .fin neg m (fqmin fmt)
  else .fin neg (m + 2 ^ mb) (fqmin fmt + e - 1)

/-- The value of a T2 code (R57); the reserved code reads as zero (R59). -/
def decodeT2 (code : Nat) : Num :=
  if code = 1 then .fin false 1 0 else if code = 3 then .fin true 1 0 else .fin false 0 0

/-- The value of a code, its block scale aside. -/
def decodeCode (fmt code : Nat) : Num := if fmt = 7 then decodeT2 code else decodeElem fmt code

/-- The magnitude code of a magnitude that is a multiple of its last place: `m` times 2 to the `q`. -/
def magCode (fmt m : Nat) (q : Int) : Nat :=
  let mb := mbits fmt
  if m < 2 ^ mb then m
  else if m < 2 ^ (mb + 1) then ((q - fqmin fmt + 1).toNat) * 2 ^ mb + (m - 2 ^ mb)
  else ((q - fqmin fmt + 2).toNat) * 2 ^ mb

/-- The sign bit of a code. -/
def signBit (fmt : Nat) (neg : Bool) : Nat := if neg then 2 ^ (ebits fmt + mbits fmt) else 0

/-- The greatest finite value of a format. -/
def maxFinite (fmt : Nat) : Num := decodeElem fmt (maxCode fmt)

/-- A result of a conversion of one element: its code and whether it saturated (R68). -/
structure Conv where
  code : Nat
  sat : Bool
  deriving DecidableEq, Repr

/-- rne() into an element format other than T2 with the overflow of R68 (R66, R68). -/
def rneCode (fmt : Nat) : Num → Conv
  | .nan => { code := nanCode fmt, sat := false }
  | .inf n =>
    if fmt ≤ 2 ∨ fmt = 4 then { code := signBit fmt n + infCode fmt, sat := false }
    else { code := nanCode fmt, sat := false }
  | .fin n m e =>
    let r := rndMag (mbits fmt + 1) (fqmin fmt) m e
    let c := magCode fmt r.1 r.2
    if c ≤ maxCode fmt then { code := signBit fmt n + c, sat := false }
    else if fmt ≤ 2 then { code := signBit fmt n + infCode fmt, sat := false }
    else { code := signBit fmt n + maxCode fmt, sat := true }

/-- sr() into an element format other than T2 (R67): `u` is the 16-bit draw. -/
def srCode (fmt : Nat) (u : Nat) (x : Num) : Conv :=
  match x with
  | .fin n m e =>
    if !(Num.lt (.fin false m e) (maxFinite fmt)) then rneCode fmt x
    else if m = 0 then { code := signBit fmt n, sat := false }
    else
      let q := lastPlace (mbits fmt + 1) (fqmin fmt) m e
      if q ≤ e then rneCode fmt x
      else
        let sh := (q - e).toNat
        let lo := m / 2 ^ sh
        let t := (m % 2 ^ sh) * 65536 / 2 ^ sh
        let r := if t + u ≥ 65536 then lo + 1 else lo
        { code := signBit fmt n + magCode fmt r q, sat := false }
  | _ => rneCode fmt x

/-- Rounding of a quotient into T2 (R66, R67, R68): the halfway case goes to 0, the clamp is not counted. -/
def t2Code (sr : Option Nat) : Num → Conv
  | .nan => { code := 0, sat := false }
  | .inf n => { code := if n then 3 else 1, sat := false }
  | .fin n m e =>
    let one := if n then 3 else 1
    if !(Num.lt (.fin false m e) (.fin false 1 0)) then { code := one, sat := false }
    else
      match sr with
      | none => { code := if Num.lt (.fin false 1 (-1)) (.fin false m e) then one else 0, sat := false }
      | some u =>
        let t := if 0 ≤ e then 0 else m * 65536 / 2 ^ (-e).toNat
        { code := if t + u ≥ 65536 then one else 0, sat := false }

/-- The rounding of one element into a format: sr() with its draw, or rne(). -/
def roundInto (fmt : Nat) (sr : Option Nat) (x : Num) : Conv :=
  if fmt = 7 then t2Code sr x
  else
    match sr with
    | none => rneCode fmt x
    | some u => srCode fmt u x

/-! ## FP32 arithmetic (R61) -/

/-- The value of an FP32 word. -/
def f32 (w : Word) : Num := decodeElem 0 w.toNat

/-- rne() into FP32 (R61, R68); every NaN is the canonical one. -/
def toF32 (x : Num) : Word := BitVec.ofNat 32 (rneCode 0 x).code

/-- FP32 addition. -/
def fadd (a b : Word) : Word := toF32 (Num.add (f32 a) (f32 b))

/-- FP32 subtraction. -/
def fsub (a b : Word) : Word := toF32 (Num.sub (f32 a) (f32 b))

/-- FP32 multiplication. -/
def fmul (a b : Word) : Word := toF32 (Num.mul (f32 a) (f32 b))

/-- Fused multiply-add a times b plus c, one rounding. -/
def ffma (a b c : Word) : Word := toF32 (Num.add (Num.mul (f32 a) (f32 b)) (f32 c))

/-- FP32 division, correctly rounded (R88). -/
def fdiv (a b : Word) : Word := toF32 (Num.div (f32 a) (f32 b))

/-- FP32 square root, correctly rounded (R88). -/
def fsqrt (a : Word) : Word := toF32 (Num.sqrt (f32 a))

/-- The sign-inverted word; a NaN becomes the canonical NaN. -/
def fneg (a : Word) : Word := toF32 (f32 a).neg

/-- The magnitude; a NaN becomes the canonical NaN. -/
def fabs (a : Word) : Word := toF32 (f32 a).abs

/-- FP32 comparison a below b. -/
def flt (a b : Word) : Bool := Num.lt (f32 a) (f32 b)

/-- FP32 comparison a at or below b. -/
def fle (a b : Word) : Bool :=
  match f32 a, f32 b with
  | .nan, _ => false
  | _, .nan => false
  | x, y => !(Num.lt y x)

/-- Whether a word is finite. -/
def isFinite (a : Word) : Bool := (f32 a).isFin

/-- max(): NaN where either operand is NaN, and -0 below +0 (R61). -/
def fmax (a b : Word) : Word :=
  match f32 a, f32 b with
  | .nan, _ => 0x7FC00000#32
  | _, .nan => 0x7FC00000#32
  | x, y => if Num.lt x y then b else if Num.lt y x then a else if x.isNeg then b else a

/-- min(): NaN where either operand is NaN, and -0 below +0 (R61). -/
def fmin (a b : Word) : Word :=
  match f32 a, f32 b with
  | .nan, _ => 0x7FC00000#32
  | _, .nan => 0x7FC00000#32
  | x, y => if Num.lt x y then a else if Num.lt y x then b else if x.isNeg then a else b

/-- A whole number rounded into FP32. -/
def fOfNat (n : Nat) : Word := toF32 (Num.ofNat n)

/-- A value rounded to the nearest whole number, ties to even; negative values and non-finite ones give 0. -/
def toNatRne : Num → Nat
  | .fin false m e => if 0 ≤ e then m * 2 ^ e.toNat else rneShift m (-e).toNat
  | _ => 0

/-- The floor of a non-negative value. -/
def toNatFloor : Num → Nat
  | .fin false m e => if 0 ≤ e then m * 2 ^ e.toNat else m / 2 ^ (-e).toNat
  | _ => 0

/-- The BF16 code nearest to a value (R66). -/
def toBf16 (x : Num) : Nat := (rneCode 1 x).code

/-- A BF16 code as an FP32 word, exactly. -/
def bf16Word (c : Nat) : Word := toF32 (decodeElem 1 c)

/-- The rounding into the 20-bit chunk register (R117). -/
def rndW (x : Num) : Num := x.rnd 20 (-419)

/-! ## Scales (R62, R65) -/

/-- The value of an E8M0 byte (R62). -/
def e8m0 (b : Nat) : Num := if b = 255 then .nan else .fin false 1 ((b : Int) - 127)

/-- The value of a UE5M3 byte (R62). -/
def ue5m3 (b : Nat) : Num :=
  if b = 255 then .nan
  else if b / 8 = 0 then .fin false (b % 8) (-17)
  else .fin false (8 + b % 8) ((b / 8 : Nat) - 18)

/-- The least positive UE5M3 byte at or above a value (R65), searched upwards. -/
def upUe5m3From : Nat → Nat → Num → Nat
  | 0, b, _ => b
  | k + 1, b, v => if Num.lt (ue5m3 b) v then upUe5m3From k (b + 1) v else b

/-- up_ue5m3(v) (R65). -/
def upUe5m3 (v : Num) : Nat := upUe5m3From 253 1 v

/-- floor(log2()) of a positive value. -/
def floorLog2 : Num → Int
  | .fin _ m e => e + (Nat.log2 m : Int)
  | _ => 0

/-- ceil(log2(a / d)) of a positive value over a positive whole number, exactly. -/
def ceilLog2Over (a : Num) (d : Nat) : Int :=
  match a with
  | .fin _ m e =>
    let f := e + (Nat.log2 m : Int) - (Nat.log2 d : Int) - 1
    let fits (k : Int) : Bool := !(Num.lt (.fin false d k) (.fin false m e))
    if fits f then f else if fits (f + 1) then f + 1 else if fits (f + 2) then f + 2 else f + 3
  | _ => 0

/-- The largest magnitude of a list of values. -/
def maxMag : List Num → Num
  | [] => .fin false 0 0
  | x :: t => let r := maxMag t; if Num.lt r x.abs then x.abs else r

/-- f4_tensor() (R65): the tensor exponent byte t from an FP32 absolute maximum. -/
def f4Tensor (amax : Num) : Nat :=
  if amax.isZero then 127
  else (min (max (ceilLog2Over amax 1536) (-127)) 127 + 127).toNat

/-- A coded block: its scale as stored and its codes, with the count of saturations (R65). -/
structure Block where
  scale : Nat
  codes : List Nat
  sats : Nat
  deriving DecidableEq, Repr

/-- Codes of quotients, one draw per element where sr() is used. -/
def codesOf (fmt : Nat) (den : Num) : List Num → List (Option Nat) → List Nat × Nat
  | [], _ => ([], 0)
  | x :: t, us =>
    let c := roundInto fmt (us.headD none) (Num.div x den)
    let r := codesOf fmt den t us.tail
    (c.code :: r.1, b2n c.sat + r.2)

/-- f6_block() (R65). -/
def f6Block (xs : List Num) (us : List (Option Nat)) : Block :=
  if xs.any (fun x => !x.isFin) then { scale := 0xFF, codes := xs.map (fun _ => 0), sats := 0 }
  else
    let a := maxMag xs
    if a.isZero then { scale := 0, codes := xs.map (fun x => if x.isNeg then 0x20 else 0), sats := 0 }
    else
      let e := max (floorLog2 a - 4) (-127)
      let r := codesOf 5 (.fin false 1 e) xs us
      { scale := (e + 127).toNat, codes := r.1, sats := r.2 }

/-- f4_block() (R65) under the tensor scale `st`. -/
def f4Block (st : Num) (xs : List Num) (us : List (Option Nat)) : Block :=
  if xs.any (fun x => !x.isFin) then { scale := 0xFF, codes := xs.map (fun _ => 0), sats := 0 }
  else
    let a := maxMag xs
    if a.isZero then { scale := 0, codes := xs.map (fun x => if x.isNeg then 0x8 else 0), sats := 0 }
    else
      let v := Num.div a (Num.mul (Num.ofNat 6) st)
      let fine := if Num.lt (Num.ofNat 114688) v then 0xFE else upUe5m3 v
      let r := codesOf 6 (Num.mul (ue5m3 fine) st) xs us
      { scale := fine, codes := r.1, sats := r.2 }

/-- The exact sum of magnitudes. -/
def sumMag : List Num → Num
  | [] => .fin false 0 0
  | x :: t => Num.add x.abs (sumMag t)

/-- t2_block() (R65): the scale is BF16. -/
def t2Block (xs : List Num) (us : List (Option Nat)) : Block :=
  if xs.any (fun x => !x.isFin) then { scale := 0x7FC0, codes := xs.map (fun _ => 0), sats := 0 }
  else
    let a := Num.div (sumMag xs) (Num.ofNat xs.length)
    if a.isZero then { scale := 0, codes := xs.map (fun _ => 0), sats := 0 }
    else
      let c := toBf16 a
      let s := if c = 0 then 1 else if c = 0x7F80 then 0x7F7F else c
      let r := codesOf 7 (decodeElem 1 s) xs us
      { scale := s, codes := r.1, sats := 0 }

/-- Elements of a block of a scaled format (R62). -/
def blockLen (fmt : Nat) : Nat := if fmt = 5 then 32 else if fmt = 6 then 16 else 64

/-- Whether a format is block-scaled (R62). -/
def isScaled (fmt : Nat) : Bool := decide (5 ≤ fmt)

/-- Bytes of codes of one block (R85). -/
def blockBytes (fmt : Nat) : Nat := if fmt = 5 then 24 else if fmt = 6 then 8 else 16

/-- Bytes of scale of one block (R85). -/
def scaleBytes (fmt : Nat) : Nat := if fmt = 7 then 2 else 1

/-- Blocks per storage unit (R63). -/
def blocksPerUnit (fmt : Nat) : Nat := if fmt = 7 then 32 else 64

/-- Size of a storage unit (R63). -/
def unitSize (fmt : Nat) : Nat := if fmt = 5 then 1600 else 576

/-- A block's code under its scale, before any tensor scale (R62): a non-finite scale makes NaN, a zero scale a zero
with the code's sign. -/
def scaledElem (fmt scale code : Nat) : Num :=
  let c := decodeCode fmt code
  if fmt = 5 then Num.mul c (e8m0 scale)
  else if fmt = 6 then Num.mul c (ue5m3 scale)
  else
    match decodeElem 1 scale with
    | .inf _ => .nan
    | .fin _ 0 _ => (match c with
      | .fin n _ _ => .fin n 0 0
      | x => x)
    | s => Num.mul c s

/-! ## Generators (R70, R137, R138, R325) -/

/-- step() of R70 on a 32-bit value. -/
def xstep (g : Word) : Word :=
  let a := g ^^^ (g <<< 13)
  let b := a ^^^ (a >>> 17)
  b ^^^ (b <<< 5)

/-- `n` steps. -/
def xsteps : Nat → Word → Word
  | 0, g => g
  | n + 1, g => xsteps n (xstep g)

/-- A generator word kept from zero. -/
def nonZero (w : Word) : Word := if w = 0 then 0x6A09E667#32 else w

/-- The draw u of element `e` of a tile (R70): lane e mod 256, its (e div 256 + 1)-th draw. -/
def srDraw (seed : Word) (tile e : Nat) : Nat :=
  let g := nonZero (seed ^^^ (BitVec.ofNat 32 tile * 0x9E3779B9#32) ^^^ (BitVec.ofNat 32 (e % 256) * 0x85EBCA6B#32))
  ((xsteps (4 + e / 256 + 1) g).toNat) / 65536

end Sys2Proof.Machine
end

