-- ==== Sys2Proof/Machine/Functions.lean ====
section
/-! DEFINITION. The vector functions outside R61 (R88) and the derivatives of ACT_GRAD (R90). Each is a free value
held within the bound that R88 or R90 gives around the exact result; the exact result is computed in fixed point far
below any FP32 last place (log 10). -/

namespace Sys2Proof.Machine

/-! ## Fixed point -/

/-- One in the fixed-point scale. -/
def fxOne : Int := 2 ^ 320

/-- Product in fixed point. -/
def fxMul (a b : Int) : Int := a * b / fxOne

/-- Quotient in fixed point. -/
def fxDiv (a b : Int) : Int := a * fxOne / b

/-- A finite value in fixed point. -/
def toFx : Num → Int
  | .fin n m e =>
    let v : Int := if 0 ≤ e + 320 then (m : Int) * 2 ^ (e + 320).toNat else (m : Int) / 2 ^ (-(e + 320)).toNat
    if n then -v else v
  | _ => 0

/-- A fixed-point number times a power of two, as a value. -/
def ofFx (v : Int) (k : Int) : Num := .fin (decide (v < 0)) v.natAbs (k - 320)

/-- Sum of a series: `n` terms, each the one before times `x` over the next index, in fixed point. -/
def expTerms (x : Int) : Nat → Nat → Int → Int
  | 0, _, t => t
  | n + 1, k, t => t + expTerms x n (k + 1) (fxMul t x / (k : Int))

/-- Sum of `t`, `t y / 3`, `t y^2 / 5` and so on. -/
def oddTerms (y : Int) : Nat → Nat → Int → Int
  | 0, _, _ => 0
  | n + 1, k, t => t / (k : Int) + oddTerms y n (k + 2) (fxMul t y)

/-- ln 2. -/
def fxLn2 : Int := 2 * oddTerms (fxOne / 9) 110 1 (fxOne / 3)

/-- arctan(1/n). -/
def fxAtanInv (n : Nat) : Int := oddTerms (-(fxOne / (n * n : Nat))) 150 1 (fxOne / (n : Int))

/-- The circle constant, by Machin's formula. -/
def fxPi : Int := 16 * fxAtanInv 5 - 4 * fxAtanInv 239

/-- e to a fixed-point number below 1000 in magnitude: mantissa and binary exponent. -/
def fxExp (x : Int) : Int × Int :=
  let k := x / fxLn2
  (expTerms (x - k * fxLn2) 90 1 fxOne, k)

/-- e to a fixed-point number, in fixed point; 0 where it is far below any last place. -/
def fxExpVal (x : Int) : Int :=
  let r := fxExp x
  if 0 ≤ r.2 then r.1 * 2 ^ r.2.toNat else r.1 / 2 ^ (-r.2).toNat

/-- Alternating series of the sine or cosine. -/
def trigTerms (y : Int) : Nat → Nat → Int → Int
  | 0, _, _ => 0
  | n + 1, k, t => t + trigTerms y n (k + 2) (-(fxMul t y) / ((k * (k + 1) : Nat) : Int))

/-- The sine of a fixed-point number. -/
def fxSin (x : Int) : Int :=
  let r := x - (2 * fxPi) * ((x + fxPi) / (2 * fxPi))
  trigTerms (fxMul r r) 60 2 r

/-- The natural logarithm of a positive value. -/
def fxLog (m : Nat) (e : Int) : Int :=
  let l := Nat.log2 m
  let x : Int := if l ≤ 320 then (m : Int) * 2 ^ (320 - l) else (m : Int) / 2 ^ (l - 320)
  let t := fxDiv (x - fxOne) (x + fxOne)
  (e + l) * fxLn2 + 2 * oddTerms (fxMul t t) 110 1 t

/-- 1 / (1 + e^-x). -/
def fxSigmoid (x : Int) : Int :=
  if 100 * fxOne < x then fxOne
  else if x < -100 * fxOne then 0
  else fxDiv fxOne (fxOne + fxExpVal (-x))

/-- tanh x. -/
def fxTanh (x : Int) : Int := 2 * fxSigmoid (2 * x) - fxOne

/-- erf(x / sqrt 2): the alternating series, cut off where it is 1 far below any last place. -/
def erfTerms (h : Int) : Nat → Nat → Int → Int
  | 0, _, _ => 0
  | n + 1, k, t => t / ((2 * k + 1 : Nat) : Int) + erfTerms h n (k + 1) (-(fxMul t h) / ((k + 1 : Nat) : Int))

/-- The square root in fixed point. -/
def fxSqrt (x : Int) : Int := (isqrt (x * fxOne).toNat : Nat)

/-- erf(x / sqrt 2). -/
def fxErf (x : Int) : Int :=
  if 12 * fxOne < x then fxOne
  else if x < -12 * fxOne then -fxOne
  else fxMul (fxSqrt (fxDiv (2 * fxOne) fxPi)) (erfTerms (fxMul x x / 2) 400 0 x)

/-- The inner argument of gelu_tanh (R88): 0.797 884 56 (x + 0.044 715 x^3). -/
def fxGeluArg (x : Int) : Int := (x + fxMul (fxMul x x) x * 44715 / 1000000) * 79788456 / 100000000

/-- A bounded operand of the saturating functions: beyond it they have reached their limits. -/
def fxClamp (x : Int) : Int := max (min x (200 * fxOne)) (-200 * fxOne)

/-! ## Exact results -/

/-- The exact result of vector function `op` at a finite operand (R88), in the codes of R90. -/
def exactFn (op : Nat) (x : Num) : Num :=
  let f := toFx x
  let g := fxClamp f
  if op = 0x16 then
    (if 200 * fxOne < f then .inf false
     else if f < -200 * fxOne then .fin false 0 0
     else let r := fxExp f; ofFx r.1 r.2)
  else if op = 0x17 then
    (match x with
     | .fin _ m e => ofFx (fxLog m e) 0
     | y => y)
  else if op = 0x18 then Num.sqrt (Num.div (Num.ofNat 1) x)
  else if op = 0x19 then Num.div (Num.ofNat 1) x
  else if op = 0x1C then ofFx (fxSin f) 0
  else if op = 0x1D then ofFx (fxSin (f + fxPi / 2)) 0
  else if op = 0x0F then ofFx (fxTanh g) 0
  else if op = 0x0E then ofFx (fxSigmoid g) 0
  else if op = 0x0D then Num.mul x (ofFx (fxSigmoid g) 0)
  else if op = 0x0B then Num.mul x (ofFx ((fxOne + fxTanh (fxClamp (fxGeluArg g))) / 2) 0)
  else Num.mul x (ofFx ((fxOne + fxErf g) / 2) 0)

/-- The exact derivative of the function `op` at a finite operand (R90). -/
def exactGrad (op : Nat) (x : Num) : Num :=
  let g := fxClamp (toFx x)
  let sg := fxSigmoid g
  if op = 0x0F then let t := fxTanh g; ofFx (fxOne - fxMul t t) 0
  else if op = 0x0E then ofFx (fxMul sg (fxOne - sg)) 0
  else if op = 0x0D then ofFx (fxMul sg (fxOne + fxMul g (fxOne - sg))) 0
  else if op = 0x0B then
    let t := fxTanh (fxClamp (fxGeluArg g))
    let da := (fxOne + fxMul g g * 134145 / 1000000) * 79788456 / 100000000
    ofFx ((fxOne + t) / 2 + fxMul (fxMul g (fxOne - fxMul t t)) da / 2) 0
  else
    let phi := fxDiv (fxExpVal (-(fxMul g g / 2))) (fxSqrt (fxMul (2 * fxOne) fxPi))
    ofFx ((fxOne + fxErf g) / 2 + fxMul g phi) 0

/-- Units in the last place that R88 allows function `op`, and the absolute bound's exponent beside it, if any. -/
def fnBound (op : Nat) (x : Num) : Nat × Option Int :=
  if op = 0x18 ∨ op = 0x19 then (1, none)
  else if op = 0x16 ∨ op = 0x17 then (2, none)
  else if op = 0x1C ∨ op = 0x1D then
    (if Num.lt (.fin false 1 16) x.abs then (0, some (-20)) else (2, none))
  else (4, some (-24))

/-- Whether FP32 word `w` lies within the bound of the exact result (R88). -/
def withinBound (w : Word) (exact : Num) (b : Nat × Option Int) : Bool :=
  match f32 w, exact with
  | .fin n m e, .fin n' m' e' =>
    let d := (Num.sub (.fin n m e) (.fin n' m' e')).abs
    let ulps : Num := .fin false b.1 (if m' = 0 then -149 else lastPlace 24 (-149) m' e')
    !(Num.lt ulps d) || (match b.2 with
      | some k => !(Num.lt (.fin false 1 k) d)
      | none => false)
  | _, _ => false

/-- A free value held within the bound; the correctly rounded value where the free value leaves it. -/
def boundedFree (w : Word) (exact : Num) (b : Nat × Option Int) : Word :=
  if withinBound w exact b then w else toF32 exact

/-- The limits and special values of R88 at the infinities and where the function is not finite; none elsewhere. -/
def fnSpecial (op : Nat) (x : Num) : Option Word :=
  match x with
  | .nan => some 0x7FC00000#32
  | .inf neg =>
    if op = 0x16 then some (if neg then 0 else 0x7F800000#32)
    else if op = 0x17 then some (if neg then 0x7FC00000#32 else 0x7F800000#32)
    else if op = 0x18 then some (if neg then 0x7FC00000#32 else 0)
    else if op = 0x19 then some (if neg then 0x80000000#32 else 0)
    else if op = 0x1C ∨ op = 0x1D then some 0x7FC00000#32
    else if op = 0x0F then some (if neg then 0xBF800000#32 else 0x3F800000#32)
    else if op = 0x0E then some (if neg then 0 else 0x3F800000#32)
    else some (if neg then 0x80000000#32 else 0x7F800000#32)
  | .fin neg m _ =>
    if m = 0 then
      (if op = 0x17 then some 0xFF800000#32
       else if op = 0x18 ∨ op = 0x19 then some (if neg then 0xFF800000#32 else 0x7F800000#32)
       else none)
    else if neg ∧ (op = 0x17 ∨ op = 0x18) then some 0x7FC00000#32
    else none

/-- A vector function outside R61 (R88). -/
def vecFun (op : Nat) (w : Word) : Word :=
  let x := f32 w
  match fnSpecial op x with
  | some r => r
  | none => boundedFree (Config.vecFn op w) (exactFn op x) (fnBound op x)

/-- A computed derivative of ACT_GRAD (R90): 4 ulp or 2^-24; NaN at NaN, the limit at an infinity. -/
def gradFun (op : Nat) (w : Word) : Word :=
  match f32 w with
  | .nan => 0x7FC00000#32
  | .inf neg => if !neg ∧ (op = 0x0B ∨ op = 0x0C ∨ op = 0x0D) then 0x3F800000#32 else 0
  | x => boundedFree (Config.actGrad op w) (exactGrad op x) (4, some (-24))

end Sys2Proof.Machine
end

