-- ==== Sys2Proof/Machine/Codec.lean ====
section
/-! DEFINITION. The codes of compressed descriptors (R207-R215, R222): bit streams, zero-run and entropy blocks, length
tables, metadata. Bytes in, bytes out; no state. -/

namespace Sys2Proof.Machine

/-! ## Bit streams (R213) -/

/-- put(): the `n` low bits of `v`, least significant first. -/
def putBits (v n : Nat) : List Bool := (List.range n).map (fun i => bit v i)

/-- The number that a list of bits spells, least significant first. -/
def bitsNat : List Bool → Nat
  | [] => 0
  | b :: t => b2n b + 2 * bitsNat t

/-- Bits as bytes, each filled from bit 0 upward; `n` bytes. -/
def packBits : Nat → List Bool → Bytes
  | 0, _ => []
  | n + 1, l => BitVec.ofNat 8 (bitsNat (l.take 8)) :: packBits n (l.drop 8)

/-- Bytes as bits. -/
def unpackBits (b : Bytes) : List Bool := b.flatMap (fun x => putBits x.toNat 8)

/-- `n` bits taken off the front, or none where the stream runs out. -/
def takeBits (n : Nat) (l : List Bool) : Option (Nat × List Bool) :=
  if l.length < n then none else some (bitsNat (l.take n), l.drop n)

/-- Units of 64 bytes that hold a list of bits. -/
def unitsOf (l : List Bool) : Nat := ceilDiv l.length 512

/-! ## Zero-run coding (R213) -/

/-- Bit length of a number. -/
def bitLen (n : Nat) : Nat := if n = 0 then 0 else Nat.log2 n + 1

/-- The elements of a 64-byte segment, `w` bytes each. -/
def segElems (w : Nat) (seg : Bytes) : List Nat := (List.range (64 / w)).map (fun k => field seg (k * w) w)

/-- Byte `b` of a number. -/
def byteOf (v b : Nat) : Nat := (v / 2 ^ (8 * b)) % 256

/-- The code of one non-zero segment. -/
def zrSegment (w : Nat) (seg : Bytes) : List Bool :=
  match segElems w seg with
  | [] => []
  | e0 :: rest =>
    let r := rest.map (fun e => e ^^^ e0)
    let h := (List.range w).map (fun b => bitLen (r.foldl (fun a x => a ||| byteOf x b) 0))
    putBits e0 (8 * w) ++ h.flatMap (fun x => putBits x 4) ++
    (h.zip (List.range w)).flatMap (fun hb =>
      (List.range hb.1).flatMap (fun p => r.map (fun x => bit (byteOf x hb.2) p)))

/-- Segment `j` of a block. -/
def segment (raw : Bytes) (j : Nat) : Bytes := slice raw (64 * j) 64

/-- The code of a block. -/
def zrBlock (w : Nat) (raw : Bytes) : List Bool :=
  let segs := (List.range (raw.length / 64)).map (segment raw)
  putBits (maskOf ((List.range segs.length).filter (fun j => !allZero (segs.getD j [])))) 64 ++
  segs.flatMap (fun sg => if allZero sg then [] else zrSegment w sg)

/-- The outcome of decoding a block: its bytes and the bits left over, or the cause (R222). -/
inductive Decoded where
  | ok (bytes : Bytes) (rest : List Bool)
  | invalid
  | short
  deriving DecidableEq, Repr

/-- The bit planes of one byte lane: `h` planes of `n` bits, added to the lane's values. -/
def zrLane (n : Nat) : Nat → Nat → List Nat → List Bool → Option (List Nat × List Bool)
  | 0, _, acc, l => some (acc, l)
  | h + 1, p, acc, l =>
    if l.length < n then none
    else zrLane n h (p + 1) ((acc.zip (l.take n)).map (fun a => a.1 + b2n a.2 * 2 ^ p)) (l.drop n)

/-- The byte lanes of a segment. -/
def zrLanes (n : Nat) : List Nat → Nat → List Nat → List Bool → Option (List Nat × List Bool)
  | [], _, acc, l => some (acc, l)
  | h :: hs, b, acc, l =>
    match zrLane n h 0 (List.replicate n 0) l with
    | none => none
    | some (v, l') => zrLanes n hs (b + 1) ((acc.zip v).map (fun a => a.1 + a.2 * 2 ^ (8 * b))) l'

/-- What the fields h[b] of a segment read as. -/
inductive Heads where
  | ok (hs : List Nat) (rest : List Bool)
  | invalid
  | short
  deriving DecidableEq, Repr

/-- The fields h[b] of a segment; a value above 8 is invalid as it is read (R213, R222). -/
def zrHeads : Nat → List Bool → Heads
  | 0, l => .ok [] l
  | w + 1, l =>
    match takeBits 4 l with
    | none => .short
    | some (h, l1) =>
      if 8 < h then .invalid
      else match zrHeads w l1 with
        | .ok hs l2 => .ok (h :: hs) l2
        | e => e

/-- One segment decoded. -/
def zrDecodeSeg (w : Nat) (l : List Bool) : Decoded :=
  match takeBits (8 * w) l with
  | none => .short
  | some (e0, l1) =>
    match zrHeads w l1 with
    | .short => .short
    | .invalid => .invalid
    | .ok hs l2 =>
      match zrLanes (64 / w - 1) hs 0 (List.replicate (64 / w - 1) 0) l2 with
      | none => .short
      | some (r, l3) => .ok (toLe w e0 ++ r.flatMap (fun x => toLe w (x ^^^ e0))) l3

/-- The segments of a block under its mask. -/
def zrDecodeSegs (w mask : Nat) : Nat → Nat → List Bool → Decoded
  | 0, _, l => .ok [] l
  | k + 1, j, l =>
    if bit mask j then
      match zrDecodeSeg w l with
      | .ok b l1 =>
        match zrDecodeSegs w mask k (j + 1) l1 with
        | .ok bs l2 => .ok (b ++ bs) l2
        | e => e
      | e => e
    else
      match zrDecodeSegs w mask k (j + 1) l with
      | .ok bs l2 => .ok (List.replicate 64 0 ++ bs) l2
      | e => e

/-! ## Entropy coding (R214, R215) -/

/-- Smallest `k` from `k0` on with `g * 2 ^ k` at or above `t`. -/
def logCover (g t : Nat) : Nat → Nat → Nat
  | 0, k => k
  | fuel + 1, k => if t ≤ g * 2 ^ k then k else logCover g t fuel (k + 1)

/-- The code lengths of a table from its byte counts (R214). -/
def tableLens (f : List Nat) : List Nat :=
  let fl := ceilDiv f.sum 16384
  let g := f.map (fun x => if x = 0 then 0 else max x fl)
  let t := g.sum
  g.map (fun x => if x = 0 then 0 else max 1 (logCover x t 16 0))

/-- How often each byte value occurs among the bytes of table `t` of `nt`. -/
def byteCounts (raw : Bytes) (nt t : Nat) : List Nat :=
  let mine := ((raw.zip (List.range raw.length)).filter (fun p => p.2 % nt == t)).map (fun p => p.1.toNat)
  (List.range 256).map (fun v => (mine.filter (· = v)).length)

/-- The first canonical code of each length (R215). -/
def firstCode (lens : List Nat) : Nat → Nat
  | 0 => 0
  | l + 1 => if l = 0 then 0 else (firstCode lens l + (lens.filter (· = l)).length) * 2

/-- The code of symbol `v`. -/
def codeOf (lens : List Nat) (v : Nat) : Nat :=
  let l := lens.getD v 0
  firstCode lens l + ((lens.take v).filter (· = l)).length

/-- Kraft sum times 2^15. -/
def kraft (lens : List Nat) : Nat := (lens.map (fun l => if l = 0 then 0 else 2 ^ (15 - l))).sum

/-- A length table as 128 bytes of nibbles. -/
def tableBytes (lens : List Nat) : Bytes :=
  (List.range 128).map (fun i => BitVec.ofNat 8 (lens.getD (2 * i) 0 + 16 * lens.getD (2 * i + 1) 0))

/-- The lengths of a stored table. -/
def tableOf (b : Bytes) : List Nat :=
  (List.range 256).map (fun v => if v % 2 = 0 then (b.getD (v / 2) 0).toNat % 16 else (b.getD (v / 2) 0).toNat / 16)

/-- The code of a block; none where a byte has no code. -/
def enBlock (tabs : List (List Nat)) (raw : Bytes) : Option (List Bool) :=
  let nt := tabs.length
  let ps := raw.zip (List.range raw.length)
  if ps.any (fun p => (tabs.getD (p.2 % nt) []).getD p.1.toNat 0 == 0) then none
  else some (ps.flatMap (fun p =>
    let lens := tabs.getD (p.2 % nt) []
    (putBits (codeOf lens p.1.toNat) (lens.getD p.1.toNat 0)).reverse))

/-- One symbol: bits are taken until a code matches, at most 15. -/
def enSymbol (lens : List Nat) : Nat → Nat → Nat → List Bool → Option (Option (Nat × List Bool))
  | 0, _, _, _ => some none
  | _ + 1, _, _, [] => none
  | fuel + 1, len, code, b :: t =>
    let c := 2 * code + b2n b
    match (List.range 256).find? (fun v => lens.getD v 0 == len + 1 && codeOf lens v == c) with
    | some v => some (some (v, t))
    | none => enSymbol lens fuel (len + 1) c t

/-- `n` symbols from raw position `i` on. -/
def enDecode (tabs : List (List Nat)) : Nat → Nat → List Bool → Decoded
  | 0, _, l => .ok [] l
  | n + 1, i, l =>
    match enSymbol (tabs.getD (i % tabs.length) []) 15 0 0 l with
    | none => .short
    | some none => .invalid
    | some (some (v, l1)) =>
      match enDecode tabs n (i + 1) l1 with
      | .ok bs l2 => .ok (BitVec.ofNat 8 v :: bs) l2
      | e => e

/-! ## Metadata (R207-R212) -/

/-- What a header says (R208). -/
structure ZipHeader where
  coding : Nat
  mode : Nat
  width : Nat
  rawBytes : Nat
  blocks : Nat
  budget : Nat
  nt : Nat
  spillOff : Nat
  spillSlots : Nat
  spillUsed : Nat
  deriving DecidableEq, Repr

/-- Element width of R207. -/
def zipWidth (fmt : Nat) : Nat := if fmt = 0 then 4 else if fmt ≤ 2 then 2 else 1

/-- Number of blocks. -/
def zipBlocks (rawBytes : Nat) : Nat := ceilDiv rawBytes 4096

/-- Declared size of block `i` (R207). -/
def zipDecl (rawBytes i : Nat) : Nat := min 4096 (rawBytes - 4096 * i)

/-- Offset of the group table (R209). -/
def zipGroupTab (nt : Nat) : Nat := 0x40 + 128 * nt

/-- Offset of the block table (R209). -/
def zipBlockTab (nt blocks : Nat) : Nat := zipGroupTab nt + 8 * ceilDiv blocks 16

/-- Size of the metadata (R209). -/
def zipMetaBytes (nt blocks : Nat) : Nat := zipBlockTab nt blocks + 8 * blocks

/-- spill_off of capacity mode (R212). -/
def zipSpillOff (budget blocks : Nat) : Nat := 4096 * ceilDiv (64 * budget * blocks) 4096

/-- Data area a mode needs (R211, R212). -/
def zipDataBytes (mode budget blocks slots : Nat) : Nat :=
  if mode = 0 then 4096 * blocks else zipSpillOff budget blocks + 4096 * slots

/-- The header's bytes 0x00 to 0x27 (R208). -/
def zipHead (h : ZipHeader) : Bytes :=
  [0x46#8, 0x4C#8, 0x44#8, 0x5A#8] ++ toLe 1 1 ++ toLe 1 h.coding ++ toLe 1 h.mode ++ toLe 1 h.width ++
  toLe 8 h.rawBytes ++ toLe 4 h.blocks ++ toLe 1 h.budget ++ toLe 1 h.nt ++ toLe 2 0 ++ toLe 8 h.spillOff ++
  toLe 4 h.spillSlots ++ toLe 4 h.spillUsed

/-- The 64-byte header over its length tables (R208). -/
def zipHeaderBytes (h : ZipHeader) (tabs : Bytes) : Bytes :=
  zipHead h ++ toLe 4 (crc32c (zipHead h ++ tabs)) ++ toLe 20 0

/-- A header read back from the metadata. -/
def zipParse (b : Bytes) : ZipHeader :=
  { coding := field b 5 1, mode := field b 6 1, width := field b 7 1, rawBytes := field b 8 8,
    blocks := field b 0x10 4, budget := field b 0x14 1, nt := field b 0x15 1, spillOff := field b 0x18 8,
    spillSlots := field b 0x20 4, spillUsed := field b 0x24 4 }

/-- The header check of R222 against the descriptor's format, raw size and half_bytes. -/
def zipHeaderOk (b tabs : Bytes) (fmt rawBytes half : Nat) : Bool :=
  let h := zipParse b
  field b 0 4 == 0x5A444C46 && field b 4 1 == 1 && (h.coding == 1 || h.coding == 2) && decide (h.mode ≤ 1) &&
  h.width == zipWidth fmt && (if h.coding = 1 then h.nt == 0 else h.nt == 1 || h.nt == h.width) &&
  h.rawBytes == rawBytes && h.blocks == zipBlocks rawBytes && decide (1 ≤ h.budget ∧ h.budget ≤ 64) &&
  (if h.mode = 0 then h.spillOff == 0 && decide (4096 * h.blocks ≤ half)
   else h.spillOff == zipSpillOff h.budget h.blocks && decide (h.spillOff + 4096 * h.spillSlots ≤ half)) &&
  (List.range h.nt).all (fun t => decide (kraft (tableOf (slice tabs (128 * t) 128)) ≤ 32768)) &&
  field b 0x28 4 == crc32c (slice b 0 0x28 ++ tabs)

/-- A stored block: raw by escape or coded, with its stored bytes in whole units. -/
structure Stored where
  raw : Bool
  data : Bytes
  deriving DecidableEq, Repr

/-- Units of a stored block. -/
def Stored.units (b : Stored) : Nat := b.data.length / 64

/-- One block encoded under its budget (R218). -/
def zipEncode (coding w budget : Nat) (tabs : List (List Nat)) (raw : Bytes) : Stored :=
  let u := raw.length / 64
  let coded := if coding = 1 then some (zrBlock w raw) else enBlock tabs raw
  match coded with
  | some l =>
    if unitsOf l ≤ min budget u then { raw := false, data := packBits (64 * unitsOf l) l }
    else { raw := true, data := raw }
  | none => { raw := true, data := raw }

/-- Units of coded blocks and number of raw blocks among the first `k`. -/
def zipPrefix (bs : List Stored) (k : Nat) : Nat × Nat :=
  (bs.take k).foldl (fun a b => if b.raw then (a.1, a.2 + 1) else (a.1 + b.units, a.2)) (0, 0)

/-- The entry of block `i` (R210). -/
def zipBlockEntry (mode : Nat) (bs : List Stored) (i : Nat) : Nat :=
  let b := bs.getD i { raw := false, data := [] }
  let off := if mode = 0 ∨ b.raw then 0 else (zipPrefix bs i).1 - (zipPrefix bs (16 * (i / 16))).1
  crc32c b.data * 2 ^ 32 + b2n b.raw * 2 ^ 31 + b.units * 2 ^ 24 + off

/-- The entry of group `g` (R210). -/
def zipGroupEntry (mode : Nat) (bs : List Stored) (g : Nat) : Nat :=
  if mode = 0 then 0 else (zipPrefix bs (16 * g)).2 * 2 ^ 40 + (zipPrefix bs (16 * g)).1

/-- Where block `i` starts in the data area (R211, R212). -/
def zipPlace (mode spillOff : Nat) (bs : List Stored) (i : Nat) : Nat :=
  let b := bs.getD i { raw := false, data := [] }
  if mode = 0 then 4096 * i
  else if b.raw then spillOff + 4096 * (zipPrefix bs i).2
  else 64 * (zipPrefix bs i).1

/-- What COMPRESS makes of a raw tensor (R218): the blocks, the metadata, and the runs of the data area. -/
structure ZipResult where
  escapes : Nat
  metadata : Bytes
  runs : List (Nat × Bytes)
  deriving DecidableEq, Repr

/-- The whole encoding of a raw tensor (R207-R218). -/
def zipTensor (fmt coding mode budget tsel slots : Nat) (raw : Bytes) : ZipResult :=
  let w := zipWidth fmt
  let n := zipBlocks raw.length
  let nt := if coding = 1 then 0 else if tsel = 1 then 1 else w
  let tabs := (List.range nt).map (fun t => tableLens (byteCounts raw nt t))
  let bs := (List.range n).map (fun i =>
    zipEncode coding w budget tabs (slice raw (4096 * i) (zipDecl raw.length i)))
  let esc := (bs.filter (·.raw)).length
  let so := if mode = 0 then 0 else zipSpillOff budget n
  let tb := tabs.flatMap tableBytes
  let h : ZipHeader :=
    { coding := coding, mode := mode, width := w, rawBytes := raw.length, blocks := n, budget := budget, nt := nt,
      spillOff := so, spillSlots := slots, spillUsed := if mode = 0 then 0 else esc }
  { escapes := esc
    metadata := zipHeaderBytes h tb ++ tb ++
      (List.range (ceilDiv n 16)).flatMap (fun k => toLe 8 (zipGroupEntry mode bs k)) ++
      (List.range n).flatMap (fun i => toLe 8 (zipBlockEntry mode bs i))
    runs := (List.range n).map (fun i => (zipPlace mode so bs i, (bs.getD i { raw := false, data := [] }).data)) }

/-- The outcome of one block's checks (R222): its raw bytes and stored size, or the cause. -/
inductive BlockRead where
  | good (bytes : Bytes) (stored : Nat)
  | bad (cause : Nat)
  deriving DecidableEq, Repr

/-- Units of the coded blocks before block `i` in its group, by the block entries. -/
def zipGroupOff (entry : Nat → Nat) (i : Nat) : Nat :=
  ((List.range (i % 16)).map (fun k =>
    let e := entry (16 * (i / 16) + k)
    if bit e 31 then 0 else bits e 30 24)).sum

/-- Raw blocks before block `i` in its group. -/
def zipGroupRaw (entry : Nat → Nat) (i : Nat) : Nat :=
  ((List.range (i % 16)).filter (fun k => bit (entry (16 * (i / 16) + k)) 31)).length

/-- Where block `i` is stored by its entry and its group's entry: offset in the data area and bytes (R208-R212). -/
def zipStoredAt (h : ZipHeader) (group : Nat) (entry : Nat → Nat) (i : Nat) : Nat × Nat :=
  let e := entry i
  (if h.mode = 0 then 4096 * i
   else if bit e 31 then h.spillOff + 4096 * (group / 2 ^ 40 + zipGroupRaw entry i)
   else 64 * (group % 2 ^ 40 + bits e 9 0), 64 * bits e 30 24)

/-- Check 1 of R222: the entry of block `i`. -/
def zipEntryOk (h : ZipHeader) (group : Nat) (entry : Nat → Nat) (i : Nat) : Bool :=
  let e := entry i
  let raw := bit e 31
  let units := bits e 30 24
  let at_ := zipStoredAt h group entry i
  decide (1 ≤ units ∧ units ≤ 64) && (if raw then units == zipDecl h.rawBytes i / 64 else decide (units ≤ h.budget)) &&
  bits e 23 10 == 0 &&
  (if h.mode = 0 then bits e 9 0 == 0 && group == 0
   else if raw then decide (group / 2 ^ 40 + zipGroupRaw entry i < h.spillUsed) && bits e 9 0 == 0
   else bits e 9 0 == zipGroupOff entry i && decide (at_.1 + at_.2 ≤ h.spillOff))

/-- Check 2 of R222: the CRC of the stored units of block `i`. -/
def zipCrcOk (h : ZipHeader) (group : Nat) (entry : Nat → Nat) (data : Nat → Nat → Bytes) (i : Nat) : Bool :=
  let at_ := zipStoredAt h group entry i
  crc32c (data at_.1 at_.2) == entry i / 2 ^ 32

/-- The checks 1 to 5 of R222 on block `i`: its entry, its group's entry, the data area as a byte reader. -/
def zipReadBlock (h : ZipHeader) (tabs : List (List Nat)) (group : Nat) (entry : Nat → Nat) (data : Nat → Nat → Bytes)
    (i : Nat) : BlockRead :=
  let at_ := zipStoredAt h group entry i
  let d := zipDecl h.rawBytes i
  let u := d / 64
  if !zipEntryOk h group entry i then .bad 2
  else if !zipCrcOk h group entry data i then .bad 1
  else
    let st := data at_.1 at_.2
    if bit (entry i) 31 then .good st at_.2
    else
      let l := unpackBits st
      let dec : Decoded :=
        if h.coding = 1 then
          match takeBits 64 l with
          | none => .short
          | some (mask, l1) => zrDecodeSegs h.width (mask % 2 ^ u) u 0 l1
        else enDecode tabs d (4096 * i) l
      let high : Bool := h.coding == 1 && decide (2 ^ u ≤ bitsNat (l.take 64))
      match dec with
      | .invalid => .bad 2
      | .short => .bad 4
      | .ok b rest => if high || rest.any id || decide (512 ≤ rest.length) then .bad 3 else .good b at_.2

end Sys2Proof.Machine
end

