-- ==== Sys2Proof/Machine/Repair.lean ====
section
/-! DEFINITION. Repair and retirement of memory (R239-R242) and the entries they write (R412, R413). -/

namespace Sys2Proof.Machine

/-- A row of a stack under one number: its frame, its bank and its row address. -/
def rowKey (frame bank row : Nat) : Nat := (frame * 2 ^ 16 + bank % 2 ^ 16) * 2 ^ 32 + row % 2 ^ 32

/-- The frame that holds a row. -/
def rowFrame (key : Nat) : Nat := key / 2 ^ 48

/-- Entries of the non-volatile retirement list, all stacks (R241). -/
def retireListLen (s : State) : Nat := ((List.range 8).map (fun n => (s.mem.stack n).retired.length)).sum

/-- R242: a stack with 328 or more frames retired is flagged and logged, once; a frame that is only marked is not retired
yet. -/
def flagStack (s : State) (n : Nat) : State :=
  let k := s.mem.stack n
  let gone := (k.retired ++ k.volatileRetired).length
  if !k.flagged && decide (328 ≤ gone) then logNote (setStackS s n { k with flagged := true }) 0x13 (8 + n) n (toLe 4 gone)
  else s

/-- A frame is retired (R241): on the list, or for this power cycle where the list of 4,096 is full. -/
def retireFrame (s : State) (n f : Nat) : State :=
  let k := s.mem.stack n
  let full := decide (4096 ≤ retireListLen s)
  let k1 := { k with marked := dropFrom k.marked f }
  let k2 := if full then { k1 with volatileRetired := addTo k1.volatileRetired f } else { k1 with retired := addTo k1.retired f }
  flagStack (logNote (setStackS s n k2) 0x12 (8 + n) f (toLe 1 1 ++ toLe 1 (b2n full))) n

/-- Whether a mapped span holds frame `f` of stack `n`, or an ALLOC has picked it. -/
def frameMapped (s : State) (n f : Nat) : Bool := (s.mem.framesUsed n).contains f

/-- Whether a frame holds reserved contents (R230, R241). -/
def frameReserved (s : State) (n f : Nat) : Bool := decide (jobFrames ≤ f) || (s.mem.stack n).takenOver.any (fun e => e.2 == f)

/-- The highest-numbered free frame of a stack. -/
def highestFree (s : State) (n : Nat) : Option Nat := (List.range jobFrames).reverse.find? (fun f => s.mem.frameFree n f)

/-- A frame is marked for retirement (R241): one in the pool is retired at once; a reserved one after its contents
moved to the highest-numbered free frame. -/
def markFrame (s : State) (n f : Nat) : State :=
  let k := s.mem.stack n
  if (k.marked ++ k.retired ++ k.volatileRetired).contains f then s
  else if frameReserved s n f then
    match highestFree s n with
    | some g => retireFrame (setStackS s n { k with takenOver := (f, g) :: k.takenOver }) n f
    | none => retireFrame s n f
  else
    let s1 := logNote (setStackS s n { k with marked := addTo k.marked f }) 0x12 (8 + n) f (toLe 2 0)
    if frameMapped s n f then s1 else retireFrame s1 n f

/-- Every frame of a list marked. -/
def markFrames (n : Nat) : List Nat → State → State
  | [], s => s
  | f :: t, s => markFrames n t (markFrame s n f)

/-- The frames of a bank's failing rows, marked once the bank has no spare row left (R241). -/
def spentBank (s : State) (n bank : Nat) : State :=
  let k := s.mem.stack n
  if mget 0 k.sparesUsed bank < 2 then s
  else markFrames n ((k.failing.filter (fun r => r.2 == bank)).map (fun r => rowFrame r.1)).eraseDups s

/-- One failing row of an unmapped frame: repaired from its bank's two spare rows (R240), or its frame marked. -/
def repairRow (s : State) (n : Nat) (r : Nat × Nat) : State :=
  let k := s.mem.stack n
  if mget 0 k.sparesUsed r.2 < 2 then
    let k1 := { k with
      sparesUsed := mmod 0 k.sparesUsed r.2 (· + 1)
      failing := k.failing.filter (fun x => x != r)
      rowErrors := mdel k.rowErrors r.1 }
    let s1 := setStackS s n k1
    spentBank (logNote { s1 with mem := { s1.mem with mppr := satAdd 32 s1.mem.mppr 1 } } 0x11 (8 + n) (rowFrame r.1)
      (toLe 8 (r.1 % 2 ^ 32) ++ toLe 1 1)) n r.2
  else markFrame s n (rowFrame r.1)

/-- The rows of a list repaired in turn. -/
def repairRows (n : Nat) : List (Nat × Nat) → State → State
  | [], s => s
  | r :: t, s => repairRows n t (repairRow s n r)

/-- A frame leaves its span (R234, R240, R241): its failing rows are repaired, and a marked frame is retired. -/
def leaveFrame (s : State) (n f : Nat) : State :=
  let s1 := repairRows n ((s.mem.stack n).failing.filter (fun r => rowFrame r.1 == f)) s
  if (s1.mem.stack n).marked.contains f then retireFrame s1 n f else s1

/-- A row becomes failing (R240): repaired at once in a free or reserved frame; with no spare row left its frame is
marked. -/
def rowFails (s : State) (n frame row bank : Nat) : State :=
  let k := s.mem.stack n
  let r := (rowKey frame bank row, bank)
  if k.failing.contains r then s
  else
    let s1 := logNote (setStackS s n { k with failing := k.failing ++ [r] }) 0x11 (8 + n) frame (toLe 8 row ++ toLe 1 0)
    if mget 0 k.sparesUsed bank < 2 then (if frameMapped s n frame then s1 else repairRow s1 n r)
    else markFrame s1 n frame

/-- One corrected or retried read counts against its row; the eighth between two passes makes it failing (R240). -/
def rowError (s : State) (n frame row bank : Nat) : State :=
  let k := s.mem.stack n
  let c := mget 0 k.rowErrors (rowKey frame bank row) + 1
  let s1 := setStackS s n { k with rowErrors := mput k.rowErrors (rowKey frame bank row) c }
  if 8 ≤ c then rowFails s1 n frame row bank else s1

/-- The entry of an uncorrectable sector (R413, kind 0x10), with the status and detail that its reader gives. -/
def logUncorrectable (s : State) (n frame addr : Nat) (scrub : Bool) (status detail : Nat) : State :=
  logAdd s 0x10 4 (8 + n) frame 0 status detail 0xFFFFFFFF (toLe 8 addr ++ toLe 1 (b2n scrub))

/-- A sector read gave `k` (R238-R240): the count, the error against its row, the row's failure and its entry. Where a
sector lies in its bank is the part's own (R240 names no mapping): Config.rowOf and Config.bankOf. -/
def sectorRead (s : State) (n frame off : Nat) (k : Sector) (scrub : Bool) (status detail : Nat) : State :=
  let row := Config.rowOf n frame (off / 64)
  let bank := Config.bankOf n frame (off / 64)
  match k with
  | .clean => s
  | .corrected => rowError { s with mem := { s.mem with mcorr := satAdd 64 s.mem.mcorr 1 } } n frame row bank
  | .retried => rowError { s with mem := { s.mem with mretryok := satAdd 32 s.mem.mretryok 1 } } n frame row bank
  | .uncorrectable =>
    rowFails (logUncorrectable { s with mem := { s.mem with muncor := satAdd 32 s.mem.muncor 1 } } n frame (frame * 0x200000 + off) scrub
      status detail) n frame row bank

/-- The retirement and repair of a list of frames that leave their spans: stack and frame. -/
def leaveFrames : List (Nat × Nat) → State → State
  | [], s => s
  | p :: t, s => leaveFrames t (leaveFrame s p.1 p.2)

/-- The frames of a span of window `w`: stack and frame. -/
def spanFrames (w : Nat) (p : Span) : List (Nat × Nat) := (windowStacks w).zip p.frames

/-- Spans `first` to `first + count - 1` of a window leave the page table (R234): their owners are credited, since use
is counted from the spans, and their frames return or retire. -/
def unmapSpans (s : State) (w first count : Nat) : State :=
  let t := s.mem.spans w
  let gone := t.filter (fun e => decide (first ≤ e.1 ∧ e.1 < first + count))
  let s1 := { s with mem := s.mem.setSpans w (t.filter (fun e => !(decide (first ≤ e.1 ∧ e.1 < first + count)))) }
  leaveFrames (gone.flatMap (fun e => spanFrames w e.2)) s1

/-- Spans entered into the page table from `first` on; the new frames hold undefined data (R233). -/
def mapSpans (s : State) (w first owner : Nat) (frames : List (List Nat)) : State :=
  let t := ((List.range frames.length).zip frames).foldl (fun m p =>
    mput m (first + p.1) { owner := owner, frames := p.2 }) (s.mem.spans w)
  hbmForget { s with mem := s.mem.setSpans w t } (windowBase w + first * spanSize w) (frames.length * spanSize w)

/-- Every span of every window leaves the page table (R235). -/
def unmapAll (s : State) : State :=
  let go (w : Nat) (s : State) : State :=
    let t := s.mem.spans w
    leaveFrames (t.flatMap (fun e => spanFrames w e.2)) { s with mem := s.mem.setSpans w [] }
  go 2 (go 1 (go 0 s))

end Sys2Proof.Machine
end

