-- ==== Sys2Proof/Machine/Flags.lean ====
section
/-! DEFINITION. Status codes and details (R45), queue states, tokens and poison (R46), completion with its signal and
reply, the sticky queue bits, the failure of the job (R52). -/

namespace Sys2Proof.Machine

/-! ## Status codes (R45) -/

/-- A status code with its detail field. -/
abbrev Err := Nat × Nat

/-- OK. -/
def okStatus : Err := (0, 0)

/-- BAD_OPCODE: opcode as received and reason. -/
def badOpcode (op reason : Nat) : Err := (0x10, op + reason * 0x10000)

/-- BAD_PARAM: packet offset and reason. -/
def badParam (off reason : Nat) : Err := (0x11, off + reason * 0x100)

/-- BAD_PARAM within the extended block: its offset and reason. -/
def badExt (off reason : Nat) : Err := (0x11, 0xFF + reason * 0x100 + off * 0x1000)

/-- SHAPE_EXCEEDS_PLAN: dimension and descriptor id. -/
def shapeExceeds (dim desc : Nat) : Err := (0x12, dim + desc * 4)

/-- TILE_CAPACITY: 0 Tarn or 1 scratchpad, tiles required, tiles that fit. The fields hold 8 bits: a count above 255 reads as
255, as R108 and R156 say of theirs (DESIGN CHOICE for the Tarn's counts of R107, log 86). -/
def tileCapacity (which req fit : Nat) : Err := (0x13, which + (min req 255) * 2 + (min fit 255) * 0x200)

/-- FORMAT_UNSUPPORTED: operand and format code. -/
def formatUnsupported (operand code : Nat) : Err := (0x14, operand + code * 4)

/-- CAPACITY_SHORT: which resource and the shortfall, saturating. -/
def capacityShort (which short : Nat) : Err := (0x15, which + (min short 0x3FFFFF) * 4)

/-- QUOTA_EXCEEDED: queue and request in MiB rounded up, saturating. -/
def quotaExceeded (q bytes : Nat) : Err := (0x16, q + (min (ceilDiv bytes 0x100000) 0x3FFFF) * 64)

/-- MEM_UNCORRECTABLE: stack, page within the stack, torn. -/
def memUncorrectable (stack page : Nat) (torn : Bool) : Err := (0x20, stack + page * 8 + b2n torn * 2 ^ 18)

/-- STREAM_DAMAGED: cause and block index. -/
def streamDamaged (cause block : Nat) : Err := (0x21, cause + (block % 0x10000) * 16)

/-- SHARD_VERSION: descriptor id and the generation found. -/
def shardVersion (desc gen : Nat) : Err := (0x22, desc + (gen % 256) * 0x10000)

/-- LINK_LOST: port and level. -/
def linkLost (port level : Nat) : Err := (0x30, port + level * 32)

/-- PEER_TIMEOUT: port, level and rank. -/
def peerTimeout (port level rank : Nat) : Err := (0x31, port + level * 32 + (rank % 0x10000) * 256)

/-- STEP_NONFINITE: ranks reporting, policy, this rank. -/
def stepNonfinite (ranks policy : Nat) (mine : Bool) : Err := (0x32, min ranks 0xFFFF + policy * 0x10000 + b2n mine * 0x20000)

/-- DIE_LOST. -/
def dieLost (die : Nat) : Err := (0x40, die)

/-- KILLED: cause and counter. -/
def killed (cause counter : Nat) : Err := (0x41, cause * 2 ^ 22 + counter)

/-- TIMEOUT: the counter waited on. -/
def timedOut (counter : Nat) : Err := (0x42, counter)

/-- PRESENCE_REQUIRED. -/
def presenceRequired (op : Nat) : Err := (0x50, op)

/-- SIGNATURE_INVALID. -/
def signatureInvalid (typ : Nat) : Err := (0x51, typ)

/-- INGEST_STARVED: stream and slots filled. -/
def ingestStarved (stream slots : Nat) : Err := (0x60, stream + (slots % 0x10000) * 256)

/-- Whether a status signals the counter and does not poison it (R46). -/
def signals (st : Nat) : Bool := st == 0 || st == 1 || st == 0x32

/-- A check: nothing where it holds, else the error. -/
def need (ok : Bool) (e : Err) : Option Err := if ok then none else some e

/-- The first error of a list of checks (R110). -/
def firstErr : List (Option Err) → Option Err
  | [] => none
  | none :: t => firstErr t
  | some e :: _ => some e

/-! ## Opcodes (R43) -/

/-- The job opcodes of R43. -/
def jobOpcodes : List Nat :=
  [0x0101, 0x0102, 0x0103, 0x0104, 0x0105, 0x0106, 0x0107, 0x0201, 0x0202, 0x0203, 0x0204, 0x0205, 0x0206, 0x0207,
   0x0208, 0x0209, 0x0301, 0x0302, 0x0303, 0x0304, 0x0401, 0x0402, 0x0403, 0x0404, 0x0405, 0x0501, 0x0502, 0x0503,
   0x0504, 0x0601, 0x0602, 0x0603, 0x0604, 0x0703, 0x0704, 0x0707, 0x0708]

/-- The admin opcodes of R43. -/
def adminOpcodes : List Nat :=
  [0x0701, 0x0702, 0x0705, 0x0706, 0x0E01, 0x0E02, 0x0E03, 0x0E04, 0x0E05, 0x0F01, 0x0F02, 0x0F03, 0x0F04, 0x0F05,
   0x0F06]

/-- Whether an opcode is of class run on SUSPEND (R43). -/
def isRun (op : Nat) : Bool :=
  [0x0206, 0x0207, 0x0301, 0x0302, 0x0303, 0x0304, 0x0501, 0x0502, 0x0503, 0x0504, 0x0601, 0x0602, 0x0603, 0x0604,
   0x0703, 0x0704].contains op

/-- Whether an opcode is of class kill on SUSPEND (R43). -/
def isKill (op : Nat) : Bool := jobOpcodes.contains op && !isRun op

/-- The three update opcodes. -/
def isUpdate (op : Nat) : Bool := op == 0x0501 || op == 0x0502 || op == 0x0503

/-! ## Packet flags and parameters -/

/-- EXT (R33). -/
def Cmd.isExt (c : Cmd) : Bool := bit c.flags 0

/-- FENCE (R33). -/
def Cmd.isFence (c : Cmd) : Bool := bit c.flags 1

/-- IRQ (R33). -/
def Cmd.isIrq (c : Cmd) : Bool := bit c.flags 2

/-- QUIET (R33). -/
def Cmd.isQuiet (c : Cmd) : Bool := bit c.flags 3

/-- The field of `n` bytes at packet offset `off`, in version 2 form (R33). -/
def Cmd.arg (c : Cmd) (off n : Nat) : Nat := field c.params (off - 0x10) n

/-- The 32-bit field at packet offset `off`. -/
def Cmd.word (c : Cmd) (off : Nat) : Word := BitVec.ofNat 32 (c.arg off 4)

/-- The field of `n` bytes at offset `off` of the extended block. -/
def Cmd.xarg (c : Cmd) (off n : Nat) : Nat := field c.ext off n

/-- A command found by its serial number. -/
def findCmd (s : State) (cid : Nat) : Option Cmd := s.cmds.find? (fun c => c.cid == cid)

/-- A command replaced where it stands. -/
def putCmd (s : State) (c : Cmd) : State := { s with cmds := s.cmds.map (fun x => if x.cid = c.cid then c else x) }

/-- A command taken out of the list. -/
def dropCmd (s : State) (cid : Nat) : State := { s with cmds := s.cmds.filter (fun x => x.cid != cid) }

/-- Whether a command is dispatched and uncommitted. -/
def Cmd.inFlight (c : Cmd) : Bool := c.stage == .dispatched || c.stage == .executed

/-! ## Queues -/

/-- Slots per ring, by the size sampled at enable (R30). -/
def Queue.slots (v : Queue) : Nat := 2 ^ (bits v.sQcfg.toNat 4 0)

/-- Replies written and not yet consumed (R32). -/
def Queue.unread (v : Queue) : Nat := (v.rtail - v.rhead).toNat

/-- QSTAT.state (R29, R50, R52). -/
def queueState (s : State) (q : Nat) : Nat :=
  let v := getQueue s q
  if q < 64 ∧ s.job.loaded ∧ s.job.failed then 3
  else if !v.enable then 0
  else if v.pause || (decide (q < 64) && s.job.loaded && s.job.suspended) then 2
  else 1

/-- The oldest undispatched command of a queue (R46). -/
def oldest (s : State) (q : Nat) : Option Cmd := s.cmds.find? (fun c => c.q == q && c.stage == .fetched)

/-- Commands of a queue that are dispatched and uncommitted (R47). -/
def dispatchedOf (s : State) (q : Nat) : Nat := (s.cmds.filter (fun c => c.q == q && c.inFlight)).length

/-! ## Tokens (R46) -/

/-- Increments of a counter that stays at 0xFFFF, with the overflow bit of the queue that caused them. -/
def addTokens (s : State) (q n k : Nat) : State :=
  if n = 0 then s
  else
    let c := getCounter s n
    let t := c.count.toNat + k
    let s1 := setCounter s n { c with count := BitVec.ofNat 16 (min t 0xFFFF) }
    if t ≤ 0xFFFF then s1 else setQueue s1 q { getQueue s1 q with sbOverflow := true }

/-- A counter poisoned; its count is unchanged. -/
def poison (s : State) (n : Nat) : State :=
  if n = 0 then s else setCounter s n { getCounter s n with poison := true }

/-- The count that a wait field needs: how often the command names the counter. -/
def needed (waits : List Nat) (n : Nat) : Nat := (waits.filter (· = n)).length

/-- The first wait counter that is short, in the order wait0 to wait3. -/
def firstShort (s : State) (waits : List Nat) : Option Nat :=
  waits.find? (fun n => n != 0 && decide ((getCounter s n).count.toNat < needed waits n))

/-- The first poisoned wait counter, in the order wait0 to wait3. -/
def firstPoisoned (s : State) (waits : List Nat) : Option Nat :=
  waits.find? (fun n => n != 0 && (getCounter s n).poison)

/-- The decrements of a dispatch. -/
def takeTokens (s : State) : List Nat → State
  | [] => s
  | n :: t =>
    if n = 0 then takeTokens s t
    else takeTokens (setCounter s n { getCounter s n with count := (getCounter s n).count - 1 }) t

/-- The decrements returned when SUSPEND kills the command (R50). -/
def returnTokens (s : State) (q : Nat) : List Nat → State
  | [] => s
  | n :: t => returnTokens (addTokens s q n 1) q t

/-! ## Completion -/

/-- The status and detail as the reply carries them: OK with notes becomes OK_WITH_NOTES, a re-run adds bit 7, and a
version 1 packet's offset is the one software wrote (R36, R45). -/
def finalStatus (c : Cmd) (e : Err) : Err :=
  let notes := c.notes ||| (if c.rerun then 0x80 else 0)
  if e.1 = 0 then (if notes = 0 then (0, 0) else (1, notes))
  else if e.1 = 1 then (1, e.2 ||| notes)
  else if e.1 = 0x11 ∧ c.version = 1 ∧ 0x10 ≤ e.2 % 256 ∧ e.2 % 256 ≤ 0x40 then (e.1, e.2 - 4)
  else e

/-- The die that completes a command (R44): K for the admin queue, S for ingest, the die of its first Mere for a compute
command, C0 for the others (DESIGN CHOICE, log 63: for a command that both compute dies run the manual does not say which
of them completes it). -/
def Cmd.timeDie (c : Cmd) : Nat :=
  if c.q = 64 then 5
  else if c.opcode / 256 = 4 then 4
  else if c.opcode / 256 = 1 then (if c.arg 0x30 1 < 128 then 0 else 1)
  else 0

/-- Microseconds from dispatch to completion, on the time counter of the die that completes the command (R6, R44); 0 for a
command that was not dispatched. A re-run's time counts from its own dispatch (DESIGN CHOICE, log 63). -/
def elapsedUs (s : State) (c : Cmd) : Nat := if c.started then microsOn s c.timeDie - c.since else 0

/-- The reply of a command (R44). -/
def replyOf (s : State) (c : Cmd) (e : Err) (work : Nat) : Reply :=
  { tag := c.tag, status := e.1, detail := e.2, opcode := c.opcode, rerun := c.rerun, seq := c.slot,
    step := s.job.step, work := work, elapsed := elapsedUs s c, irq := c.isIrq }

/-- A reply waits for a free slot of its queue's ring (R32). -/
def pushReply (s : State) (q : Nat) (r : Reply) : State :=
  setQueue s q { getQueue s q with replies := (getQueue s q).replies ++ [r] }

/-- The sticky bits that a completion sets (R29). The TIMEOUT of an update that waited for the verdict (R295) sets
QSTAT.timeout too (DESIGN CHOICE, log 64: R29 speaks of tokens alone). -/
def stickyOf (e : Err) (v : Queue) : Queue :=
  { v with killedDep := v.killedDep || (e.1 == 0x41 && e.2 / 2 ^ 22 == 1), timeout := v.timeout || e.1 == 0x42 }

/-- The token act of a completion (R46): a signal, or poison. -/
def tokenAct (s : State) (c : Cmd) (e : Err) : State :=
  if signals e.1 then addTokens s c.q c.signal (c.sigInc + 1) else poison s c.signal

/-- The seats a command holds are given back. -/
def releaseSeats (s : State) (cid : Nat) : State :=
  { s with compute := { s.compute with meres := s.compute.meres.map (fun e =>
      (e.1, { e.2 with
        running := if e.2.running = some cid then none else e.2.running
        late := if e.2.running = some cid then (e.2.waiting.head?.map (fun w => !w.landed)).getD false else e.2.late
        first := if e.2.running = some cid ∨ e.2.first = some cid then none else e.2.first
        landedSlices := e.2.landedSlices.filter (fun w => w.1 != cid)
        halos := e.2.halos.filter (fun w => w.1 != cid)
        waiting := e.2.waiting.filter (fun w => w.cid != cid)
        stagedA := e.2.stagedA.filter (fun w => w.cid != cid)
        stagedB := e.2.stagedB.filter (fun w => w.cid != cid) })) } }

/-- The claims of a command end: dropped at its commit and where a kill leaves the outputs of MATMUL_BWD as they were
(R161); else their bytes stay undefined (R48). The frames that an ALLOC picked and did not map go back (R233). -/
def endClaims (s : State) (c : Cmd) (kept : Bool) : State :=
  let m := if kept then s.mem.own c.cid else s.mem.abandon c.cid
  let s1 : State := { s with mem := { m with picked := mdel m.picked c.cid } }
  if kept then s1 else leaveFrames (mget [] s.mem.picked c.cid) s1

/-- The end of a command without its token act: what it had not committed, seats, sticky bits, reply. -/
def replyAct (s : State) (c : Cmd) (e : Err) (work : Nat) : State :=
  let s1 := dropCmd (releaseSeats (endClaims s c (c.opcode == 0x0102 && e.1 == 0x41)) c.cid) c.cid
  let s2 := setQueue s1 c.q (stickyOf e (getQueue s1 c.q))
  if e.1 = 0 ∧ c.isQuiet then s2 else pushReply s2 c.q (replyOf s c e work)

/-- The end of one command: the token act first, then the reply (R46). -/
def finishOne (s : State) (c : Cmd) (e : Err) (work : Nat) : State :=
  let f := finalStatus c e
  replyAct (tokenAct s c f) c f work

/-- A command that waits on poison at the head of a running queue, with the counter that KILLED names (R46). -/
def poisonedHead (s : State) : Option (Cmd × Nat) :=
  (List.range 64).findSome? (fun q =>
    if queueState s q = 1 then
      match oldest s q with
      | some c => (firstPoisoned s c.waits).map (fun n => (c, n))
      | none => none
    else none)

/-- Every command that poison reaches completes with KILLED, cause 1, and poisons its own counter in turn (R46). -/
def sweep : Nat → State → State
  | 0, s => s
  | n + 1, s =>
    match poisonedHead s with
    | some (c, k) => sweep n (finishOne s c (killed 1 k) 0)
    | none => s

/-- The sweep over everything in flight. -/
def settle (s : State) : State := sweep s.cmds.length s

/-- A command completes (R46): token act, reply, and the kills that its poison causes. -/
def complete (s : State) (c : Cmd) (e : Err) (work : Nat) : State := settle (finishOne s c e work)

/-! ## The failure of the job (R52) -/

/-- Every command of a list completes with its status. -/
def finishAll : List (Cmd × Err) → State → State
  | [], s => s
  | (c, e) :: t, s => finishAll t (finishOne s c e 0)

/-- The statuses of the commands that a failure ends: KILLED, cause 2, but DIE_LOST for the one that observed the loss
of a die. Which one observes it is open: a free choice. -/
def failStatuses (s : State) (observed : Option Nat) (dead : List Cmd) : List (Cmd × Err) :=
  let k := Config.freePick s.freeCtr % (max dead.length 1)
  (dead.zip (List.range dead.length)).map (fun p =>
    (p.1, match observed with
      | some d => if p.2 = k then dieLost d else killed 2 0
      | none => killed 2 0))

/-- The generation of an update command's master torn (R49, R168): all ones. -/
def tearMaster (s : State) (c : Cmd) : State :=
  if isUpdate c.opcode then hbmWrite s (s.job.descTable + 64 * (c.arg 0x10 2 - 1) + 0x28) (List.replicate 8 0xFF#8) else s

/-- The masters of a list of commands torn. -/
def tearAll : List Cmd → State → State
  | [], s => s
  | c :: t, s => tearAll t (tearMaster s c)

/-- The job fails (R52): dispatched kill-class commands complete, `stuck` run-class commands cannot finish and complete
too; the others run on. The queues read state 3. -/
def failJob (s : State) (stuck : Cmd → Bool) (observed : Option Nat) : State :=
  if s.job.loaded && !s.job.failed then
    let dead := s.cmds.filter (fun c => decide (c.q < 64) && c.inFlight && (isKill c.opcode || stuck c))
    let s1 := tearAll dead (finishAll (failStatuses s observed dead) (tickFree s))
    { s1 with job := { s1.job with failed := true, suspended := false } }
  else s

end Sys2Proof.Machine
end

