-- ==== Sys2Proof/Machine/Operands.lean ====
section
/-! DEFINITION. Operands of commands: buffer descriptors (R40, R429, R162), their ranges (R42, R231), the tensor layouts
(R63, R64), the forms of F4 tensors (R144, R145), compressed tensors (R206, R221), Mere sets (R56). -/

namespace Sys2Proof.Machine

/-! ## Descriptors (R40) -/

/-- A buffer descriptor as the job's table holds it. -/
structure Desc where
  id : Nat
  base : Nat
  half : Nat
  plan : List Nat
  fmt : Nat
  dflags : Nat
  dims : Nat
  generation : Nat
  cmeta : Nat
  deriving DecidableEq, Repr

/-- The device address of descriptor `id` (R40). -/
def descAddr (s : State) (id : Nat) : Nat := s.job.descTable + 64 * (id - 1)

/-- Descriptor `id`. -/
def readDesc (s : State) (id : Nat) : Desc :=
  let b := s.mem.readN (descAddr s id) 64
  { id := id, base := field b 0 8, half := field b 8 8,
    plan := [field b 0x10 4, field b 0x14 4, field b 0x18 4, field b 0x1C 4], fmt := (field b 0x20 1) % 16,
    dflags := field b 0x21 1, dims := field b 0x22 1, generation := field b 0x28 8, cmeta := field b 0x30 8 }

/-- PINGPONG. -/
def Desc.pingpong (d : Desc) : Bool := bit d.dflags 0

/-- cur: the half that holds committed data. -/
def Desc.cur (d : Desc) : Bool := bit d.dflags 1

/-- compressed. -/
def Desc.compressed (d : Desc) : Bool := bit d.dflags 2

/-- shard: the generation is valid. -/
def Desc.shard (d : Desc) : Bool := bit d.dflags 3

/-- die-local. -/
def Desc.dieLocal (d : Desc) : Bool := bit d.dflags 4

/-- A master descriptor: BF16, shard, no PINGPONG (R162). -/
def Desc.isMaster (d : Desc) : Bool := d.fmt == 1 && d.shard && !d.pingpong

/-- Address of the committed half (R49, R113). -/
def Desc.home (d : Desc) : Nat := if d.pingpong && d.cur then d.base + d.half else d.base

/-- Address of the other half (R49). -/
def Desc.partner (d : Desc) : Nat := if d.cur then d.base else d.base + d.half

/-- Planned extent of dimension 0. -/
def Desc.p0 (d : Desc) : Nat := d.plan.getD 0 0

/-- Rows: the product of the planned dimensions above 0 (R64). -/
def Desc.rows (d : Desc) : Nat := ((d.plan.drop 1).take (d.dims - 1)).prod

/-- Elements of the plan. -/
def Desc.elems (d : Desc) : Nat := d.rows * d.p0

/-- Bytes of the whole range: both halves of a ping-pong descriptor, both planes of a master (R42, R162). -/
def Desc.extent (d : Desc) : Nat := if d.pingpong || d.isMaster then 2 * d.half else d.half

/-- Bytes of metadata that the check of R231 covers: the size of R209 with the table count that the header holds. -/
def Desc.metaBytes (s : State) (d : Desc) (rawBytes : Nat) : Nat :=
  zipMetaBytes (min (s.mem.read (d.cmeta + 0x15)).toNat 4) (zipBlocks rawBytes)

/-- Bytes of a tensor of format `fmt` with `rows` rows of `p0` elements (R64). -/
def tensorBytes (fmt rows p0 : Nat) : Nat :=
  if isScaled fmt then
    (if fmt = 6 then 64 else 0) + ceilDiv (rows * ceilDiv p0 (blockLen fmt)) (blocksPerUnit fmt) * unitSize fmt
  else rows * p0 * fwidth fmt / 8

/-- Bytes of a descriptor's tensor in its own format, a master's high plane only (R64, R207). -/
def Desc.bytes (d : Desc) : Nat := tensorBytes d.fmt d.rows d.p0

/-- raw_bytes of R207. -/
def Desc.rawBytes (d : Desc) : Nat := 64 * ceilDiv d.bytes 64

/-- The address ranges of a descriptor: start and length, the metadata of a compressed one included (R231). -/
def Desc.ranges (s : State) (d : Desc) : List (Nat × Nat) :=
  (d.base, d.extent) :: (if d.compressed then [(d.cmeta, Desc.metaBytes s d d.rawBytes)] else [])

/-- Whether two ranges share a byte. -/
def overlap (a b : Nat × Nat) : Bool :=
  decide (0 < a.2 ∧ 0 < b.2 ∧ a.1 < b.1 + b.2 ∧ b.1 < a.1 + a.2)

/-- Whether any range of one list shares a byte with any of the other (R42). -/
def overlaps (a b : List (Nat × Nat)) : Bool := a.any (fun x => b.any (overlap x))

/-- Whether a descriptor lies wholly in the window that its die-local bit requires, in mapped spans (R228, R231,
R429). -/
def Desc.placed (s : State) (d : Desc) : Bool :=
  (d.ranges s).all (fun r => s.mem.mappedRange r.1 r.2) &&
  (match windowOf d.base with
    | some w => if d.dieLocal then w != 0 else w == 0
    | none => false)

/-- The id check of R35 and R429; `optional` allows id 0. -/
def idCheck (s : State) (id off : Nat) (optional : Bool) : Option Err :=
  need (if id = 0 then optional else decide (id ≤ s.job.descCount)) (badParam off 3)

/-- The checks of R429 on a named descriptor's own fields; a drain program's dims are ignored. -/
def descFields (s : State) (id : Nat) (useDims : Bool) : Bool :=
  let d := readDesc s id
  id == 0 || ((!useDims || decide (1 ≤ d.dims ∧ d.dims ≤ 4)) && d.base % 64 == 0)

/-- Id and fields of a named descriptor (R429, check 1 of R110). -/
def descCheck (s : State) (id off : Nat) (optional : Bool) : Option Err :=
  firstErr [idCheck s id off optional, need (descFields s id true) (badParam off 3)]

/-- Rejection of compressed descriptors where R206 allows none. -/
def plainCheck (s : State) (id off : Nat) : Option Err :=
  need (id == 0 || !(readDesc s id).compressed) (badParam off 3)

/-- The rules of R205 on a compressed descriptor that may be named. -/
def zipDescCheck (s : State) (id off : Nat) : Option Err :=
  let d := readDesc s id
  need (id == 0 || !d.compressed || (!d.pingpong && d.cmeta != 0 && d.cmeta % 64 == 0)) (badParam off 3)

/-- Size and mapping of a descriptor that must hold `n` bytes (R64, R231). -/
def sizeCheck (s : State) (d : Desc) (n off : Nat) : Option Err :=
  firstErr [need (d.compressed || decide (n ≤ d.half)) (badParam off 3), need (d.placed s) (badParam off 3)]

/-- R64 of a descriptor that a command names in its own format: half_bytes holds the tensor. Index and token tensors have no
size there, and a compressed one has its own (R207). -/
def fullSize (d : Desc) (off : Nat) : Option Err :=
  need (d.compressed || decide (8 ≤ d.fmt) || decide (d.bytes ≤ d.half)) (badParam off 3)

/-- A reserved field of the packet: zero or BAD_PARAM, reason 1 (R9). -/
def zeroField (c : Cmd) (off n : Nat) : Option Err := need (allZero (slice c.params (off - 0x10) n)) (badParam off 1)

/-- Reserved bits of a packet byte (R9). -/
def zeroBits (c : Cmd) (off mask : Nat) : Option Err := need ((c.arg off 1 &&& mask) == 0) (badParam off 1)

/-- The first non-zero byte of the extended block from `off` on (R9). -/
def firstNonZero : Bytes → Nat → Option Nat
  | [], _ => none
  | b :: t, i => if b = 0 then firstNonZero t (i + 1) else some i

/-- Packet bytes the spec reserves singly in its prose (`Bytes x-y are reserved`): the offset is that of the first byte
set (R9; DEDUCED, log 61). -/
def zeroBytes (c : Cmd) (off n : Nat) : Option Err :=
  (firstNonZero (slice c.params (off - 0x10) n) off).map (fun i => badParam i 1)

/-- Reserved bytes of the extended block from `off`, `n` of them (R9). -/
def zeroExt (c : Cmd) (off n : Nat) : Option Err :=
  (firstNonZero (slice c.ext off n) off).map (fun _ => badExt off 1)

/-- Reserved bytes of the extended block from `off` to its end (R9); the offset is that of the first byte set. -/
def zeroExtTail (c : Cmd) (off : Nat) : Option Err :=
  (firstNonZero (c.ext.drop off) off).map (fun i => badExt i 1)

/-- The Mere range of R56. -/
def mereCheck (s : State) (first countM1 off : Nat) : Option Err :=
  need ((List.range (countM1 + 1)).all (fun i =>
    decide (first + i < 256) && decide ((first + i) % 128 < meresExposed s ((first + i) / 128)))) (badParam off 2)

/-- The packet offsets at which an opcode names descriptors. -/
def descFieldsOf (op : Nat) : List Nat :=
  if op ≤ 0x0104 then [0x10, 0x12, 0x14, 0x16, 0x2E]
  else if op = 0x0105 then [0x10, 0x12, 0x14]
  else if op = 0x0106 then [0x10, 0x12]
  else if op = 0x0107 then [0x10, 0x12, 0x14, 0x16, 0x18, 0x2A, 0x2C, 0x2E, 0x32]
  else if op = 0x0202 then [0x18]
  else if op = 0x0203 ∨ op = 0x0208 ∨ op = 0x0209 then [0x10]
  else if op = 0x0206 ∨ op = 0x0207 then [0x10, 0x1A]
  else if op / 256 = 2 then [0x10, 0x12]
  else if op / 256 = 3 then [0x10, 0x12, 0x14, 0x16]
  else if op = 0x0401 then [0x10, 0x12, 0x14]
  else if op = 0x0405 then [0x10, 0x12]
  else if isUpdate op then [0x10, 0x12, 0x14, 0x16]
  else if op / 256 = 6 then [0x10, 0x12, 0x14]
  else if op = 0x0703 then [0x12]
  else []

/-! ## Where a tensor's bytes are -/

/-- A source of bytes: device memory from an address, or a decoded tensor (R221). -/
inductive Place where
  | mem (addr : Nat)
  | raw (bytes : Bytes)
  deriving DecidableEq, Repr

/-- Byte `i` of a place. -/
def Place.byte (m : Memory) (p : Place) (i : Nat) : Nat :=
  match p with
  | .mem a => (m.read (a + i)).toNat
  | .raw b => (b.getD i 0).toNat

/-- Little-endian number of `n` bytes at offset `i` of a place. -/
def Place.num (m : Memory) (p : Place) (i : Nat) : Nat → Nat
  | 0 => 0
  | n + 1 => p.byte m i + 256 * Place.num m p (i + 1) n

/-- A tensor as it is read: element format, its bytes, the offset of its first unit, the planned extent of dimension
0, and its tensor scale (R62, R144). -/
structure Tensor where
  fmt : Nat
  place : Place
  off : Nat
  p0 : Nat
  scale : Num
  deriving DecidableEq, Repr

/-- Index of the block that holds element `i` of row `r` (R63). -/
def blockIndex (fmt p0 r i : Nat) : Nat := r * ceilDiv p0 (blockLen fmt) + i / blockLen fmt

/-- Offset of the unit of a block, and the block's place in its unit (R63). -/
def unitOff (fmt blk : Nat) : Nat × Nat := (blk / blocksPerUnit fmt * unitSize fmt, blk % blocksPerUnit fmt)

/-- Offset of a block's scale from the first unit (R63). -/
def scaleOff (fmt blk : Nat) : Nat := (unitOff fmt blk).1 + (unitOff fmt blk).2 * scaleBytes fmt

/-- Offset of a block's codes from the first unit (R63). -/
def codesOff (fmt blk : Nat) : Nat := (unitOff fmt blk).1 + 0x40 + (unitOff fmt blk).2 * blockBytes fmt

/-- The code of element `i` of row `r` as stored (R63, R64). -/
def Tensor.code (m : Memory) (t : Tensor) (r i : Nat) : Nat :=
  if isScaled t.fmt then
    let o := t.off + codesOff t.fmt (blockIndex t.fmt t.p0 r i)
    let b := fwidth t.fmt * (i % blockLen t.fmt)
    (t.place.num m (o + b / 8) 2 / 2 ^ (b % 8)) % 2 ^ fwidth t.fmt
  else t.place.num m (t.off + (r * t.p0 + i) * fwidth t.fmt / 8) (fwidth t.fmt / 8)

/-- The block scale of element `i` of row `r`. -/
def Tensor.blockScale (m : Memory) (t : Tensor) (r i : Nat) : Nat :=
  t.place.num m (t.off + scaleOff t.fmt (blockIndex t.fmt t.p0 r i)) (scaleBytes t.fmt)

/-- The element under its block scale, the tensor scale left out (R62, R116). -/
def Tensor.elem (m : Memory) (t : Tensor) (r i : Nat) : Num :=
  if isScaled t.fmt then scaledElem t.fmt (t.blockScale m r i) (t.code m r i) else decodeElem t.fmt (t.code m r i)

/-- The element widened to FP32 (R71). -/
def Tensor.wide (m : Memory) (t : Tensor) (r i : Nat) : Word := toF32 (Num.mul (t.elem m r i) t.scale)

/-- Whether the element is the reserved T2 code (R59). -/
def Tensor.isReserved (m : Memory) (t : Tensor) (r i : Nat) : Bool := t.fmt == 7 && t.code m r i == 2

/-! ## Guard state of a command (R142) -/

/-- The state a tag has for a command: whether it is promoted, its configuration, its delayed amax: the set in force
at the command's first dispatch, which is the current one or the one before. -/
structure TagView where
  promoted : Bool
  cfg : Word
  amax : Word
  deriving DecidableEq, Repr

/-- The tag state that command `c` uses (R142). -/
def tagView (s : State) (c : Cmd) (t : Nat) : TagView :=
  let g := getTag s t
  if s.guard.geval = c.evalNo then { promoted := g.promoted, cfg := g.tcfg, amax := g.tamax }
  else { promoted := g.prev, cfg := g.prevCfg, amax := g.prevAmax }

/-- Whether tag `t` is promoted for the command; tag 0 never is. -/
def isPromoted (s : State) (c : Cmd) (t : Nat) : Bool := t != 0 && (tagView s c t).promoted

/-! ## Loading operands -/

/-- Counts that a load adds to a die's compression registers (R227). -/
structure ZipStats where
  raw : Nat
  stored : Nat
  deriving DecidableEq, Repr

/-- No counts. -/
def ZipStats.zero : ZipStats := { raw := 0, stored := 0 }

/-- Sum of counts. -/
def ZipStats.add (a b : ZipStats) : ZipStats := { raw := a.raw + b.raw, stored := a.stored + b.stored }

/-- A damaged block or header: cause and block index (R223). -/
structure Damage where
  cause : Nat
  block : Nat
  deriving DecidableEq, Repr

/-- The metadata of a compressed descriptor: header, tables, group and block entries as readers. -/
def zipTables (s : State) (d : Desc) (nt : Nat) : List (List Nat) :=
  (List.range nt).map (fun t => tableOf (s.mem.readN (d.cmeta + 0x40 + 128 * t) 128))

/-- The header check of a compressed descriptor (R222). -/
def zipHeaderGood (s : State) (d : Desc) : Bool :=
  let b := s.mem.readN d.cmeta 64
  zipHeaderOk b (s.mem.readN (d.cmeta + 0x40) (128 * min (zipParse b).nt 4)) d.fmt d.rawBytes d.half

/-- The entry of the group that holds block `i`. -/
def zipGroupOf (s : State) (d : Desc) (nt i : Nat) : Nat := leNat (s.mem.readN (d.cmeta + zipGroupTab nt + 8 * (i / 16)) 8)

/-- The entry of block `k`. -/
def zipEntryOf (s : State) (d : Desc) (h : ZipHeader) (k : Nat) : Nat :=
  leNat (s.mem.readN (d.cmeta + zipBlockTab h.nt h.blocks + 8 * k) 8)

/-- Whether the stored units of block `i` have their CRC: the check of PIPE_SEND and PIPE_RECV (R223). -/
def zipBlockCrc (s : State) (d : Desc) (i : Nat) : Bool :=
  let h := zipParse (s.mem.readN d.cmeta 64)
  zipCrcOk h (zipGroupOf s d h.nt i) (zipEntryOf s d h) (fun o n => s.mem.readN (d.base + o) n) i

/-- Block `i` of a compressed descriptor (R222). -/
def zipBlockOf (s : State) (d : Desc) (i : Nat) : BlockRead :=
  let h := zipParse (s.mem.readN d.cmeta 64)
  zipReadBlock h (zipTables s d h.nt) (zipGroupOf s d h.nt i) (zipEntryOf s d h) (fun o n => s.mem.readN (d.base + o) n) i

/-- The raw bytes of the blocks from `i` on, those outside `want` skipped (R221), or the damage. -/
def zipDecodeFrom (s : State) (d : Desc) (want : Nat → Bool) : Nat → Nat → Except Damage Bytes
  | 0, _ => .ok []
  | n + 1, i =>
    if want i then
      match zipBlockOf s d i with
      | .bad cause => .error { cause := cause, block := i }
      | .good b _ =>
        match zipDecodeFrom s d want n (i + 1) with
        | .error e => .error e
        | .ok r => .ok (b ++ r)
    else
      match zipDecodeFrom s d want n (i + 1) with
      | .error e => .error e
      | .ok r => .ok (List.replicate (zipDecl d.rawBytes i) 0 ++ r)

/-- The tensor of a compressed descriptor, the blocks of `want` decoded; a damaged header counts as block 0xFFFF
(R223). -/
def zipDecode (s : State) (d : Desc) (want : Nat → Bool) : Except Damage Bytes :=
  if zipHeaderGood s d then zipDecodeFrom s d want (zipBlocks d.rawBytes) 0
  else .error { cause := 2, block := 0xFFFF }

/-- A run of elements of one row of a tensor: the row, none for padding, the first column and the number. -/
structure Seg where
  row : Option Nat
  col : Nat
  len : Nat
  deriving DecidableEq, Repr

/-- The columns that a scaled format moves for a run: those of the blocks that hold it (R63, R85). -/
def Seg.blocks (fmt : Nat) (g : Seg) : List Nat :=
  (List.range (ceilDiv (g.col + g.len) (blockLen fmt))).drop (g.col / blockLen fmt)

/-- Byte ranges of a run in a tensor's raw form: offset and length. -/
def Seg.ranges (fmt p0 : Nat) (g : Seg) : List (Nat × Nat) :=
  match g.row with
  | none => []
  | some r =>
    if g.len = 0 then []
    else if isScaled fmt then
      let h := if fmt = 6 then 64 else 0
      (g.blocks fmt).flatMap (fun j =>
        let b := r * ceilDiv p0 (blockLen fmt) + j
        [(h + scaleOff fmt b, scaleBytes fmt), (h + codesOff fmt b, blockBytes fmt)])
    else [((r * p0 + g.col) * fwidth fmt / 8, g.len * fwidth fmt / 8)]

/-- Byte ranges of runs in a tensor's raw form, an F4 tensor's header with them. -/
def segRanges (fmt p0 : Nat) (l : List Seg) : List (Nat × Nat) :=
  (if fmt = 6 ∧ !l.isEmpty then [(0, 64)] else []) ++ l.flatMap (Seg.ranges fmt p0)

/-- The rows below `nr`, the columns below `nc`. -/
def boxSegs (nr nc : Nat) : List Seg := (List.range nr).map (fun r => { row := some r, col := 0, len := nc })

/-- Blocks of 4,096 raw bytes that hold a byte of the ranges. -/
def wants (rs : List (Nat × Nat)) (i : Nat) : Bool := rs.any (fun r => overlap r (4096 * i, 4096))

/-- A read of a tensor by a stream engine (R221): the die of the requester, the descriptor, the byte ranges in raw form. -/
structure Read where
  die : Nat
  desc : Desc
  ranges : List (Nat × Nat)
  deriving DecidableEq, Repr

/-- Bytes of the ranges that lie in block `i`. -/
def deliveredIn (rs : List (Nat × Nat)) (i : Nat) : Nat :=
  (rs.map (fun r => min (r.1 + r.2) (4096 * i + 4096) - max r.1 (4096 * i))).sum

/-- The counts of one read: what its good blocks deliver and hold, and whether its header or a block is damaged (R221,
R223). -/
def Read.counts (s : State) (r : Read) : ZipStats × Bool :=
  if !r.desc.compressed then (ZipStats.zero, false)
  else if zipHeaderGood s r.desc then
    (List.range (zipBlocks r.desc.rawBytes)).foldl (fun a i =>
      if wants r.ranges i then
        (match zipBlockOf s r.desc i with
         | .bad _ => (a.1, true)
         | .good _ st => (ZipStats.add a.1 { raw := deliveredIn r.ranges i, stored := st }, a.2))
      else a) (ZipStats.zero, false)
  else (ZipStats.zero, true)

/-- The counts of a list of reads by die, up to the first that finds damage, and the die of that one (R223, R227). -/
def countReads (s : State) : List Read → List (Nat × ZipStats) × Option Nat
  | [] => ([], none)
  | r :: t =>
    let c := r.counts s
    if c.2 then ([(r.die, c.1)], some r.die)
    else
      let u := countReads s t
      ((r.die, c.1) :: u.1, u.2)

/-- The result of loading an operand: the tensor, or the status that ends the command. -/
abbrev Loaded := Except Err Tensor

/-- The bytes of an operand: memory, or the decoded blocks that the runs need. -/
def loadPlace (s : State) (d : Desc) (fmt : Nat) (segs : List Seg) : Except Err Place :=
  if d.compressed then
    match zipDecode s d (wants (segRanges fmt d.p0 segs)) with
    | .error e => .error (streamDamaged e.cause e.block)
    | .ok b => .ok (.raw b)
  else .ok (.mem d.home)

/-- An operand of format `fmt` as the stream engine loads it (R145): the F4 form found against the one expected.
`operand` is its number in FORMAT_UNSUPPORTED. -/
def loadTensor (s : State) (d : Desc) (fmt operand : Nat) (expect : Bool) (segs : List Seg) : Loaded :=
  match loadPlace s d fmt segs with
  | .error e => .error e
  | .ok p =>
    if fmt = 6 then
      let mark := p.byte s.mem 4
      if mark = 0 then
        if expect then .error (formatUnsupported operand 6)
        else .ok { fmt := 6, place := p, off := 64, p0 := d.p0, scale := e8m0 (p.byte s.mem 0) }
      else if mark = 3 then
        if !expect ∨ d.half < 64 + d.elems then .error (formatUnsupported operand 3)
        else .ok { fmt := 3, place := p, off := 64, p0 := d.p0, scale := decodeElem 0 (p.num s.mem 0 4) }
      else .error (formatUnsupported operand 15)
    else .ok { fmt := fmt, place := p, off := 0, p0 := d.p0, scale := .fin false 1 0 }

/-- The counts of a load entered in a die's registers, saturating (R227). -/
def countZip (s : State) (die : Nat) (z : ZipStats) : State :=
  let r := getZip s die
  if z.raw = 0 ∧ z.stored = 0 then s
  else setZip s die { r with zraw := satAdd 64 r.zraw z.raw, zstored := satAdd 64 r.zstored z.stored }

/-- What COMPRESS counts on a die: blocks stored raw, blocks in the spill area (R218, R227). -/
def countEscapes (s : State) (die esc spill : Nat) : State :=
  let z := getZip s die
  setZip s die { z with zescape := satAdd 32 z.zescape esc, zspill := satAdd 32 z.zspill spill }

/-- A damaged block entered in a die's registers (R223). -/
def countDamage (s : State) (die : Nat) : State :=
  let r := getZip s die
  setZip s die { r with zdamage := satAdd 32 r.zdamage 1 }

/-! ## Integers (R74) -/

/-- Bytes of an integer type. -/
def intBytes (ty : Nat) : Nat := if ty = 0 then 1 else if ty = 1 then 2 else if ty = 4 then 8 else 4

/-- An I32 pattern as a signed number; other types as they are. -/
def intVal (ty v : Nat) : Int := if ty = 3 ∧ 2 ^ 31 ≤ v then (v : Int) - 2 ^ 32 else v

/-- A number wrapped into the width of a type (R74). -/
def intWrap (ty : Nat) (v : Int) : Nat := (v % (2 ^ (8 * intBytes ty) : Nat)).toNat

/-! ## Results -/

/-- The result of a command that ends with an error. -/
def failed (e : Err) : Result := { status := e.1, detail := e.2, work := 0, effects := [] }

/-- The result of a command that ends OK with its effects. -/
def succeeded (work : Nat) (effects : List Effect) : Result := { status := 0, detail := 0, work := work, effects := effects }

/-- The result of a command that writes nothing because an extent is zero (R45 bit 8). -/
def zeroExtent : Result := { status := 1, detail := 0x100, work := 0, effects := [] }

/-- The write ranges of effects: address and length. -/
def writeRanges : List Effect → List (Nat × Nat)
  | [] => []
  | .write a b :: t => (a, b.length) :: writeRanges t
  | .forget a n :: t => (a, n) :: writeRanges t
  | _ :: t => writeRanges t

/-- A command's claim on the ranges that it writes (R48), under a fresh serial number. -/
def claimAll (s : State) (cid : Nat) (rs : List (Nat × Nat)) : State :=
  if rs.isEmpty then s else { s with mem := s.mem.claim cid s.freeCtr rs, freeCtr := s.freeCtr + 1 }

/-- Every range of a list becomes undefined (R4). -/
def forgetAll : List (Nat × Nat) → State → State
  | [], s => s
  | r :: t, s => forgetAll t (hbmForget s r.1 r.2)

/-- The state as command `cid` reads it. -/
def ownView (s : State) (cid : Nat) : State := { s with mem := s.mem.own cid }

/-- The work of a command is done: its result waits for the commit point; failures complete at once (R46, R48). -/
def finishWork (s : State) (c : Cmd) (r : Result) : State :=
  if signals r.status then
    putCmd s { c with stage := .executed, result := some r }
  else complete s c (r.status, r.detail) r.work

end Sys2Proof.Machine
end

