-- ==== Sys2Proof/Machine/Program.lean ====
section
/-! DEFINITION. Drain programs (R89-R91): entries, checks, tensor operands and their effect on the running value, in FP32
and in integer mode (R74). -/

namespace Sys2Proof.Machine

/-- An entry of a drain program (R89). -/
structure Entry where
  op : Nat
  arg : Nat
  desc : Nat
  imm : Word
  deriving DecidableEq, Repr

/-- The entries of 64 program bytes. -/
def entriesOf (b : Bytes) : List Entry :=
  (List.range 8).map (fun i =>
    { op := field b (8 * i) 1, arg := field b (8 * i + 1) 1, desc := field b (8 * i + 2) 2,
      imm := BitVec.ofNat 32 (field b (8 * i + 4) 4) })

/-- The entries before the first END (R89). -/
def untilEnd : List Entry → List Entry
  | [] => []
  | e :: t => if e.op = 0 then [] else e :: untilEnd t

/-- The bytes of the program that descriptor `id` names. -/
def programBytes (s : State) (id : Nat) : Bytes := s.mem.readN (readDesc s id).base 64

/-- The program that descriptor `id` names; none for id 0. -/
def program (s : State) (id : Nat) : List Entry := if id = 0 then [] else untilEnd (entriesOf (programBytes s id))

/-- Operations that take a tensor operand (R90). -/
def usesTensor (op : Nat) : Bool :=
  [0x03, 0x04, 0x05, 0x06, 0x07, 0x10, 0x12, 0x13, 0x14, 0x15, 0x1B].contains op

/-- Operations whose operand is a vector (R90). -/
def usesVector (op : Nat) : Bool := op == 0x03 || op == 0x04 || op == 0x05

/-- Operations allowed in integer mode (R90). -/
def intAllowed (op : Nat) : Bool :=
  [0x00, 0x01, 0x06, 0x12, 0x13, 0x14, 0x15, 0x1E, 0x1F, 0x20, 0x21, 0x22].contains op

/-- Operations on U64, which is only moved and compared (R74). DEDUCED: log 25. -/
def u64Allowed (op : Nat) : Bool := [0x00, 0x13, 0x14, 0x15].contains op

/-- The field checks of R91 on one entry. `ity` is the integer type in integer mode. -/
def entryReason (ity : Option Nat) (e : Entry) : Option Nat :=
  if 0x22 < e.op then some 2
  else if ity.isSome ∧ !intAllowed e.op then some 2
  else if ity = some 4 ∧ !u64Allowed e.op then some 2
  else if (e.op = 0x20 ∨ e.op = 0x21 ∨ e.op = 0x22) ∧ ity = none then some 2
  else if e.op = 0x22 ∧ ity ≠ some 3 then some 2
  else if e.op = 0x10 ∧ ¬ (0x08 ≤ e.arg ∧ e.arg ≤ 0x0F) then some 2
  else if e.op ≠ 0x10 ∧ e.arg ≠ 0 then some 1
  else if !usesTensor e.op ∧ e.op ≠ 0x11 ∧ e.desc ≠ 0 then some 1
  else none

/-- Descriptor of an entry's operand: desc 0 names desc_aux (R90). -/
def Entry.operand (e : Entry) (aux : Nat) : Nat := if e.desc = 0 then aux else e.desc

/-- The distinct tensor operands in the order in which the program first names them (R98). A STATS_TAP buffer is written, not
read, and is not counted among them (DESIGN CHOICE, log 74: R91 speaks of tensor descriptors). -/
def firstNamed (aux : Nat) (p : List Entry) : List Nat :=
  (p.filter (fun e => usesTensor e.op)).foldl (fun l e => if l.contains (e.operand aux) then l else l ++ [e.operand aux]) []

/-- Whether an operand is named only as a vector. -/
def vectorOnly (aux : Nat) (p : List Entry) (id : Nat) : Bool :=
  p.all (fun e => !usesTensor e.op || e.operand aux != id || usesVector e.op)

/-- The tap buffers that a program names (R90, R128). -/
def tapIds (aux : Nat) (p : List Entry) : List Nat := (p.filter (fun e => e.op == 0x11)).map (fun e => e.operand aux)

/-- Whether an operand's plan covers an output of `m` rows of `n` (R91). -/
def covers (d : Desc) (op m n : Nat) : Bool :=
  if op = 0x04 then decide (m ≤ d.elems)
  else if usesVector op then decide (n ≤ d.elems)
  else decide (n ≤ d.p0) && decide (m ≤ d.rows)

/-- The descriptor checks of R91, R64 and R231 on one operand. `off` builds the error of a reason. -/
def operandCheck (s : State) (ity : Option Nat) (err : Nat → Err) (id op m n : Nat) : Option Err :=
  let d := readDesc s id
  let bytes := match ity with
    | some ty => d.elems * intBytes ty
    | none => d.bytes
  firstErr [
    need (decide (1 ≤ id ∧ id ≤ s.job.descCount)) (err 3),
    need (descFields s id true) (err 3),
    need (!d.compressed || (!d.pingpong && d.cmeta != 0 && d.cmeta % 64 == 0)) (err 3),
    need (ity.isSome || decide (d.fmt ≤ 7)) (formatUnsupported 3 d.fmt),
    need (covers d op m n) (err 2),
    need (d.compressed || decide (bytes ≤ d.half)) (err 3),
    need (d.placed s) (err 3)]

/-- The checks of R91 on the program of descriptor `id` over an output of `m` rows of `n`; desc_aux is `aux`, 0 for one
that cannot be used; a tap buffer holds `tapBytes`. A program descriptor with half_bytes below 64 (R89) has reason 3, as one
that does not exist (DESIGN CHOICE, log 75). -/
def programCheck (s : State) (id aux : Nat) (ity : Option Nat) (err : Nat → Err) (m n tapBytes : Nat) : Option Err :=
  if id = 0 then none
  else
    let d := readDesc s id
    let b := programBytes s id
    let es := entriesOf b
    let p := untilEnd es
    let ids := firstNamed aux p
    firstErr ([
      need (decide (id ≤ s.job.descCount) && descFields s id false && decide (64 ≤ d.half) && d.placed s && !d.compressed)
        (err 3)] ++
      p.map (fun e => (entryReason ity e).map err) ++ [
      need (allZero (b.drop (8 * (p.length + 1)))) (err 1),
      need (p.length == 8 || (match es[p.length]? with
        | some e => e.arg == 0 && e.desc == 0
        | none => true)) (err 1),
      need (decide (ids.length ≤ 3)) (err 2)] ++
      (p.filter (fun e => usesTensor e.op)).map (fun e => operandCheck s ity err (e.operand aux) e.op m n) ++
      (tapIds aux p).map (fun t => need (decide (1 ≤ t ∧ t ≤ s.job.descCount) && descFields s t true &&
        !(readDesc s t).compressed && decide (tapBytes ≤ (readDesc s t).half) && (readDesc s t).placed s) (err 3)))

/-- The buffers that a program's taps write (R42). -/
def tapRanges (s : State) (id aux : Nat) : List (Nat × Nat) := (tapIds aux (program s id)).flatMap (fun t => (readDesc s t).ranges s)

/-- No T2 operand of a program under a non-zero in-tag (R146). -/
def programT2 (s : State) (aux inTag : Nat) (p : List Entry) : Option Err :=
  need (inTag == 0 || (firstNamed aux p).all (fun id => (readDesc s id).fmt != 7)) (badParam 0x32 2)

/-- The address ranges that a program reads: its own bytes and its operands (R42). -/
def programReads (s : State) (id aux : Nat) : List (Nat × Nat) :=
  if id = 0 then []
  else (readDesc s id).ranges s ++ (firstNamed aux (program s id)).flatMap (fun t => (readDesc s t).ranges s)

/-! ## Evaluation (R90) -/

/-- The loaded operands of a program by descriptor. -/
abbrev Env := List (Nat × Tensor)

/-- Whether the program names an operand by one of the operations `ops`. -/
def namedBy (aux : Nat) (p : List Entry) (id : Nat) (ops : List Nat) : Bool :=
  p.any (fun e => ops.contains e.op && e.operand aux == id)

/-- The runs of operand `id` that a program reads for an output of `m` rows of `n` (R90). -/
def operandSegs (aux m n : Nat) (p : List Entry) (id p0 : Nat) : List Seg :=
  if vectorOnly aux p id then
    let len := max (if namedBy aux p id [0x04] then m else 0) (if namedBy aux p id [0x03, 0x05] then n else 0)
    (List.range (ceilDiv len (max p0 1))).map (fun r => { row := some r, col := 0, len := min p0 (len - r * p0) })
  else boxSegs m n

/-- The operands of a program loaded for an output of `m` rows of `n` (R145). -/
def loadEnv (s : State) (expect : Bool) (aux m n : Nat) (p : List Entry) : List Nat → Except Err Env
  | [] => .ok []
  | id :: t =>
    let d := readDesc s id
    match loadTensor s d d.fmt 3 expect (operandSegs aux m n p id d.p0) with
    | .error e => .error e
    | .ok x =>
      match loadEnv s expect aux m n p t with
      | .error e => .error e
      | .ok r => .ok ((id, x) :: r)

/-- The reads of a program's compressed operands, each once in a command (DESIGN CHOICE, log 77), by the die of its Meres. -/
def envReads (s : State) (die aux m n : Nat) (p : List Entry) : List Read :=
  (firstNamed aux p).map (fun id =>
    let d := readDesc s id
    { die := die, desc := d, ranges := if d.compressed then segRanges d.fmt d.p0 (operandSegs aux m n p id d.p0) else [] })

/-- Reserved T2 codes among the elements that a program's operands deliver to an output of `m` rows of `n` (R59). -/
def envReserved (mem : Memory) (env : Env) (aux m n : Nat) (p : List Entry) : Nat :=
  (env.map (fun e =>
    if e.2.fmt ≠ 7 then 0
    else
      let len := max (if namedBy aux p e.1 [0x04] then m else 0) (if namedBy aux p e.1 [0x03, 0x05] then n else 0)
      if vectorOnly aux p e.1 then
        ((List.range len).filter (fun i => e.2.isReserved mem (i / max e.2.p0 1) (i % max e.2.p0 1))).length
      else ((List.range m).map (fun r => ((List.range n).filter (fun i => e.2.isReserved mem r i)).length)).sum)).sum

/-- The tensor of descriptor `id` in the environment. -/
def envGet (env : Env) (id : Nat) : Tensor :=
  match env.find? (fun p => p.1 == id) with
  | some p => p.2
  | none => { fmt := 0, place := .raw [], off := 0, p0 := 1, scale := .fin false 1 0 }

/-- Row and column of an operand's element for output element (m, n) (R90). -/
def operandAt (op p0 m n : Nat) : Nat × Nat :=
  if op = 0x04 then (m / max p0 1, m % max p0 1)
  else if usesVector op then (n / max p0 1, n % max p0 1)
  else (m, n)

/-- The derivative of ACT_GRAD at the saved pre-activation `p` (R90). -/
def actGradAt (f : Nat) (imm p : Word) : Word :=
  if (f32 p) = .nan then 0x7FC00000#32
  else if f = 0x08 then (if flt 0 p then 0x3F800000#32 else 0)
  else if f = 0x09 then (if fle 0 p then 0x3F800000#32 else imm)
  else if f = 0x0A then (if flt (fneg (fabs imm)) p ∧ flt p (fabs imm) then 0x3F800000#32 else 0)
  else gradFun f p

/-- The effect of one operation on v with operand element `t` (R90). -/
def floatOp (e : Entry) (t v : Word) : Word :=
  if e.op = 0x01 then fadd v e.imm
  else if e.op = 0x02 then fmul v e.imm
  else if e.op = 0x03 ∨ e.op = 0x04 ∨ e.op = 0x06 then fadd v t
  else if e.op = 0x05 ∨ e.op = 0x07 then fmul v t
  else if e.op = 0x08 then fmax v 0
  else if e.op = 0x09 then (if fle 0 v then v else fmul e.imm v)
  else if e.op = 0x0A then fmin (fmax v (fneg (fabs e.imm))) (fabs e.imm)
  else if e.op = 0x10 then fmul v (actGradAt e.arg e.imm t)
  else if e.op = 0x11 then v
  else if e.op = 0x12 then fsub v t
  else if e.op = 0x13 then fmax v t
  else if e.op = 0x14 then fmin v t
  else if e.op = 0x15 then (if (f32 t).isZero then e.imm else v)
  else if e.op = 0x1A then fsqrt v
  else if e.op = 0x1B then fdiv v t
  else if e.op = 0x1E then fabs v
  else if e.op = 0x1F then fneg v
  else vecFun e.op v

/-- The running value after the entries, at output element (m, n). -/
def runProgram (mem : Memory) (env : Env) (aux m n : Nat) : List Entry → Word → Word
  | [], v => v
  | e :: es, v =>
    let t := if usesTensor e.op then
        let x := envGet env (e.operand aux)
        let a := operandAt e.op x.p0 m n
        x.wide mem a.1 a.2
      else 0
    runProgram mem env aux m n es (floatOp e t v)

/-- The running value before entry `k` (the value a STATS_TAP sees). -/
def runBefore (mem : Memory) (env : Env) (aux m n k : Nat) (p : List Entry) (v : Word) : Word :=
  runProgram mem env aux m n (p.take k) v

/-- The effect of one operation in integer mode, of type `ty`, on the pattern `v` with operand pattern `t` (R74, R90). -/
def intOp (ty : Nat) (e : Entry) (t v : Nat) : Nat :=
  let w := 8 * intBytes ty
  let x := intVal ty v
  let y := intVal ty t
  let imm := intWrap ty (intVal ty (e.imm.toNat % 2 ^ w))
  let sh := e.imm.toNat % w
  if e.op = 0x01 then intWrap ty (x + intVal ty imm)
  else if e.op = 0x06 then intWrap ty (x + y)
  else if e.op = 0x12 then intWrap ty (x - y)
  else if e.op = 0x13 then (if x < y then t else v)
  else if e.op = 0x14 then (if x < y then v else t)
  else if e.op = 0x15 then (if t = 0 then imm else v)
  else if e.op = 0x1E then (if ty = 3 then intWrap ty x.natAbs else v)
  else if e.op = 0x1F then intWrap ty (-x)
  else if e.op = 0x20 then (v * 2 ^ sh) % 2 ^ w
  else if e.op = 0x21 then v / 2 ^ sh
  else intWrap ty (x / 2 ^ sh)

/-- The running pattern after the entries in integer mode; operands are read at the type's width as stored. -/
def runInt (mem : Memory) (env : Env) (ty m n : Nat) : List Entry → Nat → Nat
  | [], v => v
  | e :: es, v =>
    let t := if usesTensor e.op then
        let x := envGet env (e.operand 0)
        x.place.num mem ((m * x.p0 + n) * intBytes ty) (intBytes ty)
      else 0
    runInt mem env ty m n es (intOp ty e t v)

end Sys2Proof.Machine
end

