-- ==== Sys2Proof/Machine/Convert.lean ====
section
/-! DEFINITION. The final conversion of drains and of VECTOR: rotation (R137), scale choice (R65, R135), rounding (R66-R70),
the layout written (R63, R64, R144), writes in part (R428), and the guard's measures and samples (R133, R138, R139). -/

namespace Sys2Proof.Machine

/-! ## Rotation (R137) -/

/-- The sign word of group `j`. -/
def rotWord (seed : Word) (j : Nat) : Word :=
  xsteps 4 (nonZero (seed ^^^ (BitVec.ofNat 32 j * 0x27D4EB2F#32) ^^^ 0x165667B1#32))

/-- One level of the butterfly, distance `h`. -/
def butterfly (h : Nat) (y : List Word) : List Word :=
  (List.range y.length).map (fun i =>
    if (i / h) % 2 = 0 then fadd (y.getD i 0) (y.getD (i + h) 0) else fsub (y.getD (i - h) 0) (y.getD i 0))

/-- The Hadamard transform by levels of 1, 2, 4 and so on, `n` levels. -/
def hadamard : Nat → Nat → List Word → List Word
  | 0, _, y => y
  | n + 1, h, y => hadamard n (2 * h) (butterfly h y)

/-- Levels of a group of `g`. -/
def levels (g : Nat) : Nat := Nat.log2 g

/-- Signs of group `j` applied. -/
def signed (seed : Word) (j : Nat) (x : List Word) : List Word :=
  let w := rotWord seed j
  (x.zip (List.range x.length)).map (fun p => if w.getLsbD p.2 then p.1 ^^^ 0x80000000#32 else p.1)

/-- rotate() of one group. -/
def rotateGroup (seed : Word) (j : Nat) (x : List Word) : List Word :=
  (hadamard (levels x.length) 1 (signed seed j x)).map (fun v => fmul v 0x3E800000#32)

/-- The inverse transform (4/g) D H of one group (R159). -/
def unrotateGroup (seed : Word) (j : Nat) (x : List Word) : List Word :=
  let k := fdiv 0x40800000#32 (fOfNat x.length)
  signed seed j ((hadamard (levels x.length) 1 x).map (fun v => fmul v k))

/-- A row cut into groups of `g`, the last one filled with zeros, each changed by `f`, and cut back to its length. -/
def byGroups (g : Nat) (f : Nat → List Word → List Word) (row : List Word) : List Word :=
  if g = 0 then row
  else
    ((List.range (ceilDiv row.length g)).flatMap (fun j =>
      let part := (row.drop (g * j)).take g
      f j (part ++ List.replicate (g - part.length) 0))).take row.length

/-- The group size of a rot field. -/
def rotSize (rot : Nat) : Nat := if rot = 1 then 16 else if rot = 2 then 32 else 0

/-! ## Sampling (R138) -/

/-- sampled(). -/
def sampledTile (t : Nat) (stepLo : Word) (tag k : Nat) : Bool :=
  let w := xsteps 2 (nonZero ((BitVec.ofNat 32 t * 0x9E3779B9#32) ^^^ (stepLo * 0x85EBCA6B#32) ^^^
    (BitVec.ofNat 32 tag * 0xC2B2AE35#32)))
  k == 0 || w.toNat / 2 ^ (32 - k) == 0

/-! ## What a conversion is told and what it gives -/

/-- How an output is converted: the element format, promoted form, the tensor scale in use, the scale s_t of shadow
conversions, the plan, the seed of sr() where it is used, the generator seed of rotation and its group size, the tag and
its sampling, the step at dispatch. -/
structure ConvSpec where
  fmt : Nat
  promoted : Bool
  rows : Nat
  p0 : Nat
  sr : Option Word
  seed : Word
  rot : Nat
  tag : Nat
  sampleLog2 : Nat
  stepLo : Word
  deriving DecidableEq, Repr

/-- What a conversion gives: bytes by offset from the tensor's base, ranges left undefined, and the measures. -/
structure Converted where
  pieces : List (Nat × Bytes)
  holes : List (Nat × Nat)
  amax : Num
  nonfinite : Nat
  sats : Nat
  samples : List (Nat × Word × Word)
  deriving DecidableEq, Repr

/-- The position of an output element in its tile: tile number and element number (R70). -/
abbrev TileOf := Nat → Nat → Nat × Nat

/-- A row of an output as a drain or VECTOR gives it: none marks an element outside the run-time extents, which is neither
measured nor written (R112, R113). -/
abbrev Row := List (Option Word)

/-- The elements of a row with their columns, counted from `base`. -/
def rowElems (base : Nat) (row : Row) : List (Nat × Word) :=
  (row.zip (List.range row.length)).filterMap (fun p => p.1.map (fun w => (base + p.2, w)))

/-- The values of a list of rows. -/
def rowValues (rows : List Row) : List Word := rows.flatMap (fun r => r.filterMap id)

/-- A converted run of elements of one row: its pieces, its saturations, and the column, F4 value and value of each
element. -/
structure RunOut where
  pieces : List (Nat × Bytes)
  sats : Nat
  values : List (Nat × Num × Word)
  deriving DecidableEq, Repr

/-- The draw of element (r, c), where sr() is used (R70). -/
def drawOf (k : ConvSpec) (tile : TileOf) (r c : Nat) : Option Nat :=
  match k.sr with
  | none => none
  | some seed => some (srDraw seed (tile r c).1 (tile r c).2)

/-- Codes of one block packed as stored, padding codes zero (R63). -/
def packCodes (fmt : Nat) (codes : List Nat) : Bytes :=
  packBits (blockBytes fmt) (codes.flatMap (fun c => putBits c (fwidth fmt)) ++
    List.replicate (8 * blockBytes fmt - codes.length * fwidth fmt) false)

/-- Offset of the first unit (R63). -/
def headerBytes (fmt : Nat) : Nat := if fmt = 6 then 64 else 0

/-- A block of a scaled format coded under the tensor scale `st` (R65). -/
def codeBlock (fmt : Nat) (st : Num) (xs : List Num) (us : List (Option Nat)) : Block :=
  if fmt = 5 then f6Block xs us else if fmt = 6 then f4Block st xs us else t2Block xs us

/-- The exact values of an F4 block (R62). -/
def f4Values (st : Num) (b : Block) : List Num := b.codes.map (fun c => Num.mul (scaledElem 6 b.scale c) st)

/-- The codes of a block: the new ones where an element is written, the committed ones `old` elsewhere in the row (DESIGN
CHOICE, log 70: R113 keeps those elements, but the block has one scale). -/
def mergeCodes (old : Nat → Nat) : Row → Nat → List Nat → List Nat
  | [], _, _ => []
  | none :: t, i, cs => old i :: mergeCodes old t (i + 1) cs
  | some _ :: t, i, cs => cs.headD 0 :: mergeCodes old t (i + 1) cs.tail

/-- Block `j` of row `r` of a scaled output; `old` gives the committed codes by row and column. A block none of whose
elements is written keeps its bytes (R428). -/
def convBlock (k : ConvSpec) (st : Num) (tile : TileOf) (old : Nat → Nat → Nat) (r j : Nat) (xs : Row) : RunOut :=
  let c0 := blockLen k.fmt * j
  let els := rowElems c0 xs
  if els.isEmpty then { pieces := [], sats := 0, values := [] }
  else
    let b := codeBlock k.fmt st (els.map (fun e => f32 e.2)) (els.map (fun e => drawOf k tile r e.1))
    let row := xs ++ List.replicate (min (blockLen k.fmt) (k.p0 - c0) - xs.length) none
    let blk := r * ceilDiv k.p0 (blockLen k.fmt) + j
    { pieces := [(headerBytes k.fmt + scaleOff k.fmt blk, toLe (scaleBytes k.fmt) b.scale),
                 (headerBytes k.fmt + codesOff k.fmt blk, packCodes k.fmt (mergeCodes (fun i => old r (c0 + i)) row 0 b.codes))]
      sats := b.sats
      values := if k.fmt = 6 then (els.zip (f4Values st b)).map (fun p => (p.1.1, p.2, p.1.2)) else [] }

/-- One row of a scaled output. -/
def convScaledRow (k : ConvSpec) (st : Num) (tile : TileOf) (old : Nat → Nat → Nat) (r : Nat) (row : Row) : RunOut :=
  let bs := (List.range (ceilDiv row.length (blockLen k.fmt))).map (fun j =>
    convBlock k st tile old r j ((row.drop (blockLen k.fmt * j)).take (blockLen k.fmt)))
  { pieces := bs.flatMap (·.pieces), sats := (bs.map (·.sats)).sum, values := bs.flatMap (·.values) }

/-- The pieces of codes of `w` bytes from offset `base`: one run where the row is whole, else element by element. -/
def codePieces (base w : Nat) (row : Row) (cs : List (Nat × Nat)) : List (Nat × Bytes) :=
  if row.all (·.isSome) then [(base, cs.flatMap (fun c => toLe w c.2))] else cs.map (fun c => (base + c.1 * w, toLe w c.2))

/-- One row of an unscaled output. -/
def convPlainRow (k : ConvSpec) (tile : TileOf) (r : Nat) (row : Row) : RunOut :=
  let cs := (rowElems 0 row).map (fun e => (e.1, roundInto k.fmt (if 3 ≤ k.fmt then drawOf k tile r e.1 else none) (f32 e.2)))
  { pieces := codePieces (r * k.p0 * fwidth k.fmt / 8) (fwidth k.fmt / 8) row (cs.map (fun c => (c.1, c.2.code)))
    sats := (cs.filter (fun c => c.2.sat)).length, values := [] }

/-- One row in promoted form under `sp`, with the shadow F4 values under `st` (R139, R144). -/
def convPromotedRow (k : ConvSpec) (sp st : Num) (tile : TileOf) (r : Nat) (row : Row) : RunOut :=
  let cs := (rowElems 0 row).map (fun e => (e.1, roundInto 3 (drawOf k tile r e.1) (Num.div (f32 e.2) sp)))
  let shadow := (List.range (ceilDiv row.length 16)).flatMap (fun j =>
    let els := rowElems (16 * j) ((row.drop (16 * j)).take 16)
    (els.zip (f4Values st (f4Block st (els.map (fun e => f32 e.2)) (els.map (fun _ => none))))).map (fun p => (p.1.1, p.2, p.1.2)))
  { pieces := codePieces (64 + r * k.p0) 1 row (cs.map (fun c => (c.1, c.2.code)))
    sats := (cs.filter (fun c => c.2.sat)).length, values := shadow }

/-- The largest finite magnitude of a list of words. -/
def amaxOf : List Word → Num
  | [] => .fin false 0 0
  | w :: t =>
    let r := amaxOf t
    if isFinite w then (if Num.lt r (f32 w).abs then (f32 w).abs else r) else r

/-- err and ref of one sampled tile over its elements in order: the F4 value and v (R139). -/
def tileSums : List (Num × Word) → Word × Word → Word × Word
  | [], a => a
  | (q, v) :: t, (e, f) =>
    if isFinite v then
      let d := toF32 (Num.sub q (f32 v))
      tileSums t (ffma d d e, ffma v v f)
    else tileSums t (e, f)

/-- The sampled tiles of an F4 conversion in increasing tile index, with their sums (R138, R139). -/
def sampleTiles (k : ConvSpec) (tile : TileOf) (outs : List RunOut) : List (Nat × Word × Word) :=
  if k.fmt ≠ 6 ∨ k.tag = 0 then []
  else
    let els : List (Nat × Num × Word) := (outs.zip (List.range outs.length)).flatMap (fun p =>
      p.1.values.map (fun x => ((tile p.2 x.1).1, x.2)))
    let last := (els.map (·.1)).foldl max 0
    ((List.range (last + 1)).filter (fun t => els.any (fun x => x.1 == t) && sampledTile t k.stepLo k.tag k.sampleLog2)).map
      (fun t =>
        let r := tileSums ((els.filter (fun x => x.1 == t)).map (fun x => x.2)) (0, 0)
        (t, r.1, r.2))

/-! ## Writes in part (R428) -/

/-- How the tensor header of an F4 output is treated. -/
inductive HeaderAct where
  | whole
  | keep
  | nanFill
  | afresh
  deriving DecidableEq, Repr

/-- Whether block `j` of row `r` is written. -/
def blockWritten (fmt : Nat) (vals : List Row) (r j : Nat) : Bool :=
  (((vals.getD r []).drop (blockLen fmt * j)).take (blockLen fmt)).any (·.isSome)

/-- Whether element `i` of row `r` is written. -/
def elemWritten (vals : List Row) (r i : Nat) : Bool := ((vals.getD r []).getD i none).isSome

/-- Whether the write covers every block of the plan, or every element in promoted form. -/
def writesAll (k : ConvSpec) (vals : List Row) : Bool :=
  if k.promoted then (List.range k.rows).all (fun r => (List.range k.p0).all (elemWritten vals r))
  else (List.range k.rows).all (fun r => (List.range (ceilDiv k.p0 16)).all (fun j => blockWritten 6 vals r j))

/-- The treatment of the committed header `h` (64 bytes) of an F4 output (R428). -/
def headerAct (k : ConvSpec) (h : Bytes) (vals : List Row) : HeaderAct :=
  if writesAll k vals then .whole
  else if k.promoted then
    if field h 4 1 ≠ 3 ∨ !allZero (slice h 5 59) then .afresh
    else match decodeElem 0 (field h 0 4) with
      | .fin false m _ => if m = 0 then .nanFill else .keep
      | _ => .nanFill
  else if !allZero (slice h 1 63) then .afresh
  else if field h 0 1 = 0xFF then .nanFill
  else .keep

/-- Blocks of the plan that are not written: row and block number. -/
def outsideBlocks (k : ConvSpec) (vals : List Row) : List (Nat × Nat) :=
  (List.range k.rows).flatMap (fun r =>
    ((List.range (ceilDiv k.p0 16)).filter (fun j => !blockWritten 6 vals r j)).map (fun j => (r, j)))

/-- Elements of the plan that are not written, as offsets in promoted form. -/
def outsideElems (k : ConvSpec) (vals : List Row) : List Nat :=
  (List.range k.rows).flatMap (fun r => ((List.range k.p0).filter (fun i => !elemWritten vals r i)).map (fun i => 64 + r * k.p0 + i))

/-- Pieces written outside the range where the committed scale is not usable: NaN elements (R428). -/
def nanPieces (k : ConvSpec) (vals : List Row) : List (Nat × Bytes) :=
  if k.promoted then (outsideElems k vals).map (fun o => (o, [0x7F#8]))
  else (outsideBlocks k vals).flatMap (fun b =>
    let blk := b.1 * ceilDiv k.p0 16 + b.2
    [(64 + scaleOff 6 blk, [0xFF#8]), (64 + codesOff 6 blk, List.replicate 8 0#8)])

/-- Ranges outside the written one that become undefined (R428). -/
def outsideHoles (k : ConvSpec) (vals : List Row) : List (Nat × Nat) :=
  if k.promoted then (outsideElems k vals).map (fun o => (o, 1))
  else (outsideBlocks k vals).flatMap (fun b =>
    let blk := b.1 * ceilDiv k.p0 16 + b.2
    [(64 + scaleOff 6 blk, 1), (64 + codesOff 6 blk, 8)])

/-- The block positions that the plan leaves over in the last unit, zero codes and zero scales, written with the plan's
last block (R63). -/
def leftoverPieces (k : ConvSpec) (vals : List Row) : List (Nat × Bytes) :=
  let per := ceilDiv k.p0 (blockLen k.fmt)
  if blockWritten k.fmt vals (k.rows - 1) (per - 1) then
    ((List.range (ceilDiv (k.rows * per) (blocksPerUnit k.fmt) * blocksPerUnit k.fmt)).drop (k.rows * per)).flatMap (fun b =>
      [(headerBytes k.fmt + scaleOff k.fmt b, List.replicate (scaleBytes k.fmt) 0#8),
       (headerBytes k.fmt + codesOff k.fmt b, List.replicate (blockBytes k.fmt) 0#8)])
  else []

/-! ## The conversion -/

/-- s_p of promoted form from the delayed amax (R144). -/
def promotedScale (amax : Word) : Word :=
  if (f32 amax).isZero then 0x3F800000#32
  else
    let q := fdiv amax 0x43E00000#32
    if (f32 q).isZero then 1#32 else q

/-- The header of an F4 tensor with exponent byte `t` (R63). -/
def f4Header (t : Nat) : Bytes := toLe 1 t ++ List.replicate 63 0

/-- The header of promoted form (R144). -/
def promotedHeader (sp : Word) : Bytes := toLe 4 sp.toNat ++ [3#8] ++ List.replicate 59 0

/-- A row rotated in groups of `g`, an element outside the extents as zero fill. -/
def rotateRow (g : Nat) (seed : Word) (row : Row) : Row :=
  ((byGroups g (rotateGroup seed) (row.map (·.getD 0))).zip row).map (fun p => p.2.map (fun _ => p.1))

/-- The rows as they are measured and coded: rotated for an F4 output under a tag that rotates (R137). -/
def rotatedRows (k : ConvSpec) (vals : List Row) : List Row :=
  if k.fmt = 6 ∧ k.tag ≠ 0 ∧ k.rot ≠ 0 then vals.map (rotateRow k.rot k.seed) else vals

/-- The conversion of the rows `vals` into an F4 output with committed header `h`; `amaxT` is the amax of R135 for a
header that is chosen, which shadow conversions use too. -/
def convF4 (k : ConvSpec) (h : Bytes) (amaxT : Word) (tile : TileOf) (old : Nat → Nat → Nat) (vals : List Row) : Converted :=
  let act := headerAct k h vals
  let t := if act = .keep ∧ !k.promoted then field h 0 1 else f4Tensor (f32 amaxT)
  let st := e8m0 t
  let sp := if act = .keep then BitVec.ofNat 32 (field h 0 4) else promotedScale amaxT
  let stShadow := e8m0 (f4Tensor (f32 amaxT))
  let kept : Nat → Nat → Nat := if act = .afresh then fun r i => (Config.freeByte r i).toNat % 16 else old
  let outs := (vals.zip (List.range vals.length)).map (fun p =>
    if k.promoted then convPromotedRow k (f32 sp) stShadow tile p.2 p.1 else convScaledRow k st tile kept p.2 p.1)
  let head : List (Nat × Bytes) :=
    if act = .keep then [] else [(0, if k.promoted then promotedHeader sp else f4Header t)]
  let all := rowValues vals
  { pieces := head ++ outs.flatMap (·.pieces) ++ (if act = .nanFill then nanPieces k vals else []) ++
      (if k.promoted then [] else leftoverPieces k vals)
    holes := if act = .afresh then outsideHoles k vals else []
    amax := amaxOf all, nonfinite := (all.filter (fun w => !isFinite w)).length
    sats := (outs.map (·.sats)).sum, samples := sampleTiles k tile outs }

/-- The conversion of the rows `vals0`: the committed header `h` and codes `old`, the amax `amaxT` where an F4 scale is
chosen. -/
def convert (k : ConvSpec) (h : Bytes) (amaxT : Word) (tile : TileOf) (old : Nat → Nat → Nat) (vals0 : List Row) : Converted :=
  let vals := rotatedRows k vals0
  if k.fmt = 6 then convF4 k h amaxT tile old vals
  else
    let outs := (vals.zip (List.range vals.length)).map (fun p =>
      if isScaled k.fmt then convScaledRow k (.fin false 1 0) tile old p.2 p.1 else convPlainRow k tile p.2 p.1)
    let all := rowValues vals
    { pieces := outs.flatMap (·.pieces) ++ (if isScaled k.fmt then leftoverPieces k vals else []), holes := [], amax := amaxOf all,
      nonfinite := (all.filter (fun w => !isFinite w)).length, sats := (outs.map (·.sats)).sum, samples := [] }

/-- Rows of +0 as R114 writes them: an F4 output written whole takes exponent 0x7F, or s_p of 1.0; one written in part
follows R428 with the amax `amaxT`. -/
def convertZero (k : ConvSpec) (h : Bytes) (amaxT : Word) (old : Nat → Nat → Nat) (vals : List Row) : Converted :=
  convert { k with tag := 0, rot := 0, sr := none } h
    (if writesAll k vals then (if k.promoted then 0x43E00000#32 else 0x44C00000#32) else amaxT) (fun _ _ => (0, 0)) old vals

/-- The write effects of a conversion at a tensor base. -/
def writesAt (base : Nat) (v : Converted) : List Effect :=
  v.pieces.map (fun p => Effect.write (base + p.1) p.2) ++ v.holes.map (fun p => Effect.forget (base + p.1) p.2)

/-- What a conversion adds to its out-tag at commit (R134): nothing but saturations under tag 0, measures for F4, F6
and T2. `die` gives the compute die that drained a tile (R139). -/
def deltaOf (k : ConvSpec) (die : Nat → Nat) (v : Converted) : TagDelta :=
  let on := k.tag ≠ 0 ∧ isScaled k.fmt
  let pick (d : Nat) := v.samples.filter (fun x => die x.1 == d)
  { tag := k.tag, amax := if on then toF32 v.amax else 0, nonfinite := if on then v.nonfinite else 0,
    err0 := (pick 0).map (fun x => x.2.1), ref0 := (pick 0).map (fun x => x.2.2),
    err1 := (pick 1).map (fun x => x.2.1), ref1 := (pick 1).map (fun x => x.2.2),
    samples := v.samples.length, sat := v.sats, reservedT2 := 0, converted := on }

/-- The count of reserved T2 codes charged to the reading command's in-tag (R59, R148). -/
def reservedDelta (tag n : Nat) : TagDelta :=
  { tag := tag, amax := 0, nonfinite := 0, err0 := [], ref0 := [], err1 := [], ref1 := [], samples := 0, sat := 0,
    reservedT2 := n, converted := false }

end Sys2Proof.Machine
end

