-- ==== Sys2Proof/Machine/Tiling.lean ====
section
/-! DEFINITION. The tiling section and its checks (R82, R83, R98-R111), the accumulation of a product (R105, R106,
R115-R119), and the shared course of a command's work (R48, R223, R227). -/

namespace Sys2Proof.Machine

/-! ## The course of a command's work -/

/-- What the work of a command gives: its result, what its reads add to the dies' compression registers, and the die whose
read found a block damaged twice (R223, R227). -/
structure Run where
  result : Result
  zip : List (Nat × ZipStats)
  damage : Option Nat
  deriving DecidableEq, Repr

/-- A run without reads of compressed operands. -/
def Run.plain (r : Result) : Run := { result := r, zip := [], damage := none }

/-- A run that ends with an error. -/
def Run.fail (e : Err) : Run := Run.plain (failed e)

/-- A run with the counts of its reads. -/
def Run.reading (r : Run) (s : State) (l : List Read) : Run :=
  let c := countReads s l
  { r with zip := c.1, damage := c.2 }

/-- A run under its issue checks (R110): the first failure ends the command. -/
def checked (e : Option Err) (r : Run) : Run :=
  match e with
  | some e => Run.fail e
  | none => r

/-- The die whose Meres a compute command names first. -/
def Cmd.die (c : Cmd) : Nat := if c.arg 0x30 1 < 128 then 0 else 1

/-- The counts of a list entered in the dies' registers. -/
def countZips (s : State) : List (Nat × ZipStats) → State
  | [] => s
  | z :: t => countZips (countZip s z.1 z.2) t

/-- A dispatched command does its work: its reads are counted, its result waits for the commit point. -/
def applyRun (s : State) (c : Cmd) (r : Run) : State :=
  let s1 := countZips s r.zip
  finishWork (match r.damage with
    | some d => countDamage s1 d
    | none => s1) c r.result

/-- The status of a result with notes (R45). -/
def notedResult (notes work : Nat) (effects : List Effect) : Result :=
  { status := if notes = 0 then 0 else 1, detail := notes, work := work, effects := effects }

/-- Note bit 6 where saturation was counted (R68). -/
def satNote (n : Nat) : Nat := if n = 0 then 0 else 0x40

/-- Whether an opcode runs on Meres (R43). -/
def onMeres (op : Nat) : Bool := decide (0x0101 ≤ op ∧ op ≤ 0x0107)

/-- The logical Meres that a compute command names. -/
def Cmd.meres (c : Cmd) : List Nat := if onMeres c.opcode then (List.range (c.arg 0x31 1 + 1)).map (fun i => c.arg 0x30 1 + i) else []

/-- Whether a command has the running seat of every Mere that it names: its work begins there at its start (R193), and the
Mere is its own until it ends (R97). -/
def hasMeres (s : State) (c : Cmd) : Bool := c.meres.all (fun l => (getMere s (physOf s l)).running == some c.cid)

/-- The command `cid` where it is dispatched, has started on its Meres, and its work is not done. -/
def working (s : State) (cid : Nat) (ops : List Nat) : Option Cmd :=
  match findCmd s cid with
  | some c => if c.stage = .dispatched ∧ ops.contains c.opcode ∧ hasMeres s c then some c else none
  | none => none

/-- A dispatched command of the given opcodes does its work by `f`; any other serial number leaves the state as it
is (log 6). -/
def onWork (s : State) (cid : Nat) (ops : List Nat) (f : Cmd → State) : State :=
  match working s cid ops with
  | some c => f c
  | none => s

/-- A dispatched command does its work under its issue checks, as it reads the memory itself (R48). -/
def onRun (s : State) (cid : Nat) (ops : List Nat) (issue : State → Cmd → Option Err) (run : State → Cmd → Run) : State :=
  onWork s cid ops (fun c =>
    let v := ownView s cid
    applyRun s c (checked (issue v c) (run v c)))

/-! ## Region words (R82, R83) -/

/-- The scratchpad's size. -/
def padBytes : Nat := 4194304

/-- A scratchpad region word. -/
structure Region where
  baseWord : Nat
  scaleWord : Nat
  pitch : Nat
  scalePitch : Nat
  rows : Nat
  flags : Nat
  last : Nat
  deriving DecidableEq, Repr

/-- The region word at offset `off` of the extended block. -/
def regionAt (c : Cmd) (off : Nat) : Region :=
  { baseWord := c.xarg off 4, scaleWord := c.xarg (off + 4) 4, pitch := c.xarg (off + 8) 2,
    scalePitch := c.xarg (off + 0xA) 2, rows := c.xarg (off + 0xC) 2, flags := c.xarg (off + 0xE) 1,
    last := c.xarg (off + 0xF) 1 }

/-- A word of all zeros is unused (R98). -/
def Region.unused (r : Region) : Bool :=
  r.baseWord == 0 && r.scaleWord == 0 && r.pitch == 0 && r.scalePitch == 0 && r.rows == 0 && r.flags == 0 && r.last == 0

/-- Buffers of a region. -/
def Region.buffers (r : Region) : Nat := if bit r.flags 0 then 2 else 1

/-- First byte and length of the code plane, all buffers. -/
def Region.codePlane (r : Region) : Nat × Nat := (r.baseWord % 2 ^ 22, 64 * r.pitch * r.rows * r.buffers)

/-- First byte and length of the scale plane, all buffers. -/
def Region.scalePlane (r : Region) : Nat × Nat := (r.scaleWord % 2 ^ 22, 64 * r.scalePitch * r.rows * r.buffers)

/-- The checks of R83, in field order, the plane ends last. -/
def Region.check (r : Region) (off : Nat) : Option Err :=
  firstErr [
    need (r.baseWord / 2 ^ 22 == 0) (badExt off 1),
    need (r.baseWord % 64 == 0) (badExt off 2),
    need (r.scaleWord / 2 ^ 22 == 0) (badExt (off + 4) 1),
    need (r.scaleWord % 64 == 0) (badExt (off + 4) 2),
    need (decide (1 ≤ r.pitch ∧ r.pitch ≤ 4096)) (badExt (off + 8) 2),
    need (decide (r.scalePitch ≤ 4096)) (badExt (off + 0xA) 2),
    need (decide (1 ≤ r.rows)) (badExt (off + 0xC) 2),
    need (r.flags / 4 == 0) (badExt (off + 0xE) 1),
    need (r.last == 0) (badExt (off + 0xF) 1),
    need (decide (r.codePlane.1 + r.codePlane.2 ≤ padBytes)) (badExt off 2),
    need (decide (r.scalePlane.1 + r.scalePlane.2 ≤ padBytes)) (badExt (off + 4) 2)]

/-- Code lines of a row of `l` elements (R108, R109); `guarded` marks an F4 operand with a non-zero in-tag (R146). -/
def codeLines (l fmt : Nat) (guarded : Bool) : Nat :=
  if fmt = 6 ∧ guarded then ceilDiv (l * 8) 512
  else if isScaled fmt then ceilDiv (ceilDiv l (blockLen fmt) * blockBytes fmt) 64
  else ceilDiv (l * fwidth fmt) 512

/-- Scale lines of a row of `l` elements (R108, R109). -/
def scaleLines (l fmt : Nat) : Nat :=
  if isScaled fmt then ceilDiv (ceilDiv l (blockLen fmt) * scaleBytes fmt) 64 else 0

/-- slice() (R108). -/
def sliceBytes (rows l fmt : Nat) (guarded : Bool) : Nat := rows * 64 * (codeLines l fmt guarded + scaleLines l fmt)

/-- What a region must cover (R109): used, unused or either; rows; row length; format, none where the descriptor does
not exist; guarded F4; double-buffered. -/
structure Cover where
  used : Option Bool
  rows : Nat
  len : Nat
  fmt : Option Nat
  guarded : Bool
  double : Bool
  deriving DecidableEq, Repr

/-- Whether a used region covers its slice (R109). -/
def Region.covers (r : Region) (k : Cover) : Bool :=
  decide (k.rows ≤ r.rows) &&
  (match k.fmt with
    | none => true
    | some f =>
      (bit r.flags 0 == k.double) && decide (codeLines k.len f k.guarded ≤ r.pitch) &&
      (if isScaled f then decide (scaleLines k.len f ≤ r.scalePitch) else r.scaleWord == 0 && r.scalePitch == 0))

/-- The checks of R83 and R109 on one region word. -/
def regionCheck (c : Cmd) (off : Nat) (k : Cover) : Option Err :=
  let r := regionAt c off
  if r.unused then need (k.used != some true) (badExt off 2)
  else firstErr [r.check off, need (k.used != some false && r.covers k) (badExt off 2)]

/-! ## The tile grid (R99, R102-R105) -/

/-- The tile code and the split of a command. -/
structure Geo where
  tm : Nat
  tn : Nat
  tk : Nat
  loop : Nat
  parts : Nat
  chunk : Nat
  first : Nat
  meres : Nat
  deriving DecidableEq, Repr

/-- The geometry that a packet names (R39, R99, R115). -/
def geoOf (c : Cmd) : Geo :=
  let t := c.arg 0x28 2
  { tm := 64 * (bits t 4 0 + 1), tn := 64 * (bits t 9 5 + 1), tk := 64 * (bits t 15 10 + 1), loop := c.arg 0x2A 1,
    parts := c.arg 0x2B 1, chunk := if c.arg 0x2C 1 = 0 then 32 else c.arg 0x2C 1, first := c.arg 0x30 1,
    meres := c.arg 0x31 1 + 1 }

/-- Output blocks of a tile. -/
def Geo.q (g : Geo) : Nat := (g.tm / 64) * (g.tn / 64)

/-- Groups of Meres (R103). -/
def Geo.groups (g : Geo) : Nat := if g.parts = 0 then 0 else g.meres / g.parts

/-- The groups check of R103. -/
def Geo.groupsOk (g : Geo) : Bool :=
  decide (1 ≤ g.parts ∧ g.parts ≤ g.meres) && g.meres % g.parts == 0 &&
  (List.range g.groups).all (fun i =>
    (g.first + i * g.parts) / 128 == (g.first + i * g.parts + g.parts - 1) / 128)

/-- Pairs in a grid row of `n` columns (R102). -/
def Geo.pairs (g : Geo) (n : Nat) : Nat := ceilDiv (ceilDiv n g.tn) 2

/-- The tile and the element number of output element (m, n) on a grid over `cols` columns (R70, R102). -/
def Geo.tileOf (g : Geo) (cols : Nat) : TileOf := fun m n =>
  ((m / g.tm) * ceilDiv cols g.tn + n / g.tn, (m % g.tm) * g.tn + n % g.tn)

/-- The die that drains tile `t` (R103, R106): that of member 0 of the pair's group. -/
def Geo.dieOf (g : Geo) (cols t : Nat) : Nat :=
  let tn := ceilDiv cols g.tn
  let p := (t / max tn 1) * ceilDiv tn 2 + (t % max tn 1) / 2
  (g.first + (p % max g.groups 1) * g.parts) / 128

/-! ## The course of a command on a Mere (R95, R102-R105, R190) -/

/-- The load of one slice into an operand region: the number of the operand, and the scratchpad rows in order, each marked
where it is a halo row (R84, R85, R183). -/
structure Fill where
  operand : Nat
  rows : List (Bool × List Seg)
  deriving DecidableEq, Repr

/-- What one array does in a step: a K slice of an output tile, its first chunk and number of chunks, and whether it is the
tile's last (R104, R105). -/
structure Part where
  tile : Nat
  slice : Nat
  first : Nat
  count : Nat
  last : Bool
  deriving DecidableEq, Repr

/-- One step of a Mere: the parts of array A and array B, and the new loads of reg_s, reg_p and reg_q that they take; none
where the region holds what it held (R104, R182, R190). -/
structure Step where
  a : Option Part
  b : Option Part
  s : Option Fill
  p : Option Fill
  q : Option Fill
  deriving DecidableEq, Repr

/-- The loads of region `i` (0 reg_s, 1 reg_p, 2 reg_q) in a step. -/
def Step.fill (x : Step) (i : Nat) : Option Fill := if i = 0 then x.s else if i = 1 then x.p else x.q

/-- The part of array A or B in a step. -/
def Step.part (x : Step) (array : Bool) : Option Part := if array then x.b else x.a

/-- Rows `o` to before `o + no`, each from column `i` for `ni` elements: a slice as it is stored. -/
def boxRows (o no i ni : Nat) : List (Bool × List Seg) :=
  (List.range no).map (fun r => (false, [{ row := some (o + r), col := i, len := ni }]))

/-- The slice of an operand with `no` outer indices from `o` and `ni` inner indices from `i` (R100, R108). -/
def opFill (operand : Nat) (tr : Bool) (o no i ni : Nat) : Fill :=
  { operand := operand, rows := if tr then boxRows i ni o no else boxRows o no i ni }

/-- The slices of a part of chunks `a` to before `z`, `per` chunks in each: slice number, first chunk, count. A part that
holds no chunk has one empty slice (R105). -/
def partSlices (a z per : Nat) : List (Nat × Nat × Nat) :=
  if z ≤ a then [(0, a, 0)]
  else (List.range (ceilDiv (z - a) (max per 1))).map (fun i => (i, a + i * per, min per (z - (a + i * per))))

/-- K positions of chunks: first and number. -/
def chunkSpan (c k first count : Nat) : Nat × Nat := (first * c, min ((first + count) * c) k - first * c)

/-- The part of slice `x` of a tile; `n` slices in all. -/
def partOf (tile n : Nat) (x : Nat × Nat × Nat) : Part :=
  { tile := tile, slice := x.1, first := x.2.1, count := x.2.2, last := x.1 + 1 == n }

/-- The load of a slice that holds chunks. -/
def someFill (count : Nat) (f : Fill) : Option Fill := if count = 0 then none else some f

/-- The die of member `j` of group `i` (R103). -/
def Geo.memberDie (g : Geo) (i j : Nat) : Nat := (g.first + i * g.parts + j) / 128

/-- The reads of a command's compressed operands over the courses of its members (R221); `at_` gives an operand's descriptor
and format. -/
def courseReads (g : Geo) (course : Nat → Nat → List Step) (at_ : Nat → Desc × Nat) : List Read :=
  (List.range g.groups).flatMap (fun i => (List.range g.parts).flatMap (fun j =>
    (course i j).flatMap (fun x => [x.s, x.p, x.q].filterMap (fun f => f.bind (fun f =>
      let d := at_ f.operand
      if d.1.compressed then
        some { die := g.memberDie i j, desc := d.1, ranges := segRanges d.2 d.1.p0 (f.rows.flatMap (fun r => r.2)) }
      else none)))))

/-! ## Accumulation (R116-R119) -/

/-- The chunk register after the products from position `k`, `n` of them (R118). -/
def chunkSum (prod : Nat → Num) : Nat → Nat → Option Num → Option Num
  | 0, _, c => c
  | n + 1, k, c =>
    let p := prod k
    chunkSum prod n (k + 1) (some (match c with
      | none => rndW p
      | some x => rndW (Num.add x p)))

/-- One promotion into the total (R118). -/
def promote (tau : Num) (tot : Option Word) (c : Num) : Word :=
  match tot with
  | none => toF32 (Num.mul tau c)
  | some t => toF32 (Num.add (f32 t) (Num.mul tau c))

/-- The total over the chunks from number `i`, `n` of them (R118). -/
def chunkTotal (prod : Nat → Num) (tau : Num) (chunk k : Nat) : Nat → Nat → Option Word → Option Word
  | 0, _, t => t
  | n + 1, i, t =>
    match chunkSum prod (min chunk (k - i * chunk)) (i * chunk) none with
    | none => chunkTotal prod tau chunk k n (i + 1) t
    | some c => chunkTotal prod tau chunk k n (i + 1) (some (promote tau t c))

/-- The first chunk of part `j` (R105). -/
def partStart (j chunks parts : Nat) : Nat := j * chunks / max parts 1

/-- The total of part `j` (R105, R118). -/
def partTotal (prod : Nat → Num) (tau : Num) (chunk k parts j : Nat) : Word :=
  let nc := ceilDiv k chunk
  let a := partStart j nc parts
  (chunkTotal prod tau chunk k (partStart (j + 1) nc parts - a) a none).getD 0

/-- One level of the combining tree (R106). -/
def combineLevel (d : Nat) (t : List Word) : List Word :=
  (List.range t.length).map (fun j =>
    if j % (2 * d) = 0 ∧ j + d < t.length then fadd (t.getD j 0) (t.getD (j + d) 0) else t.getD j 0)

/-- The combining tree of R106 over the parts' totals. -/
def combineTree (t : List Word) : Word :=
  (combineLevel 8 (combineLevel 4 (combineLevel 2 (combineLevel 1 t)))).getD 0 0

/-- The total of one output element over a reduction of `k` positions (R106, R118). -/
def elementTotal (prod : Nat → Num) (tau : Num) (chunk k parts : Nat) : Word :=
  combineTree ((List.range parts).map (partTotal prod tau chunk k parts))

/-! ## Lanes of the vector engine (R126) -/

/-- One fold of the lanes: lane L takes lane L + h. -/
def foldLanes (h : Nat) (l : List Word) : List Word :=
  (List.range h).map (fun i => fadd (l.getD i 0) (l.getD (i + h) 0))

/-- The fold of 256 lanes to one value (R126). -/
def foldAll (l : List Word) : Word :=
  (foldLanes 1 (foldLanes 2 (foldLanes 4 (foldLanes 8 (foldLanes 16 (foldLanes 32 (foldLanes 64 (foldLanes 128 l)))))))).getD 0 0

/-- The elements of lane `l` of a list: those at positions congruent to it, in increasing order. -/
def laneElems (xs : List Word) (l : Nat) : List Word :=
  ((xs.zip (List.range xs.length)).filter (fun p => p.2 % 256 == l)).map (fun p => p.1)

/-- Every lane's value by a step function from +0. -/
def lanes (f : Word → Word → Word) (xs : List Word) : List Word :=
  (List.range 256).map (fun l => (laneElems xs l).foldl f 0)

/-- The sum of a list by the procedure of R126 with plain addition. -/
def laneSum (xs : List Word) : Word := foldAll (lanes fadd xs)

/-- The sum of squares of R126. -/
def laneSumSq (xs : List Word) : Word := foldAll (lanes (fun a x => ffma x x a) xs)

/-! ## STATS_TAP (R128, R129) -/

/-- The tap writes of one buffer over a grid of tiles of `tr` rows and `tc` columns, tile `t i j` in grid row i and column j;
`val` is v as the entry sees it. -/
def tapGrid (tr tc : Nat) (t : Nat → Nat → Nat) (rows cols base : Nat) (val : Nat → Nat → Word) : List Effect :=
  (List.range (ceilDiv rows 64)).flatMap (fun rb =>
    (List.range cols).map (fun col =>
      let q := (tr / 64) * (tc / 64)
      let blk := (64 * rb % tr) / 64 * (tc / 64) + (col % tc) / 64
      let xs := (List.range (min 64 (rows - 64 * rb))).map (fun r => val (64 * rb + r) col)
      Effect.write (base + ((t (64 * rb / tr) (col / tc) * q + blk) * 64 + col % 64) * 8)
        (toLe 4 (laneSum xs).toNat ++ toLe 4 (laneSumSq xs).toNat)))

/-- The tap writes over the tile grid of R102. -/
def tapWrites (g : Geo) (m n base : Nat) (val : Nat → Nat → Word) : List Effect :=
  tapGrid g.tm g.tn (fun i j => i * ceilDiv n g.tn + j) m n base val

/-- Bytes of a tap buffer (R129). -/
def tapSize (g : Geo) (m n : Nat) : Nat := ceilDiv m g.tm * ceilDiv n g.tn * g.q * 512

/-! ## Placement (R111) -/

/-- Offsets of the region words of a command's tiling section. -/
def regionOffsets : List Nat := [0x10, 0x20, 0x30, 0x40, 0x50, 0x60, 0x70, 0x80, 0x90]

/-- VECTOR and STATS, which use the vector staging area (R192). -/
def Cmd.onVectors (c : Cmd) : Bool := c.opcode == 0x0105 || c.opcode == 0x0106

/-- The scratchpad ranges of a command's regions; the vector staging area of R192. -/
def padRanges (c : Cmd) : List (Nat × Nat) :=
  if c.onVectors then [(0x3C0000, 0x40000)]
  else if c.ext.length < 192 then []
  else regionOffsets.flatMap (fun o =>
    let r := regionAt c o
    if r.unused then [] else [r.codePlane, r.scalePlane])

/-- Whether two ranges of one list share a byte. -/
def selfOverlap : List (Nat × Nat) → Bool
  | [] => false
  | r :: t => t.any (overlap r) || selfOverlap t

/-- Whether two commands name a common logical Mere. -/
def shareMere (a b : Cmd) : Bool :=
  decide (a.arg 0x30 1 ≤ b.arg 0x30 1 + b.arg 0x31 1 ∧ b.arg 0x30 1 ≤ a.arg 0x30 1 + a.arg 0x31 1)

/-- Whether the regions of a command overlap one another, or those of another dispatched command on one of its Meres:
its output may then be wrong in any element (R111). -/
def placementClash (s : State) (c : Cmd) : Bool :=
  selfOverlap (padRanges c) ||
  s.cmds.any (fun x => x.cid != c.cid && x.inFlight && decide (0x0101 ≤ x.opcode ∧ x.opcode ≤ 0x0106) && shareMere x c &&
    !(x.onVectors && c.onVectors) && overlaps (padRanges x) (padRanges c))

/-- The writes of a command whose regions overlap hold free bytes (R111). -/
def blurWrites (clash : Bool) (e : List Effect) : List Effect :=
  if clash then e.map (fun x =>
    match x with
    | .write a b => .forget a b.length
    | y => y)
  else e

end Sys2Proof.Machine
end

