-- ==== Sys2Proof/Machine/Move.lean ====
section
/-! DEFINITION. The bulk engines: COPY (R202), FILL (R203), HOST_COPY (R355); ALLOC and FREE (R232-R235). -/

namespace Sys2Proof.Machine

/-- KiB moved (R44). -/
def kib (n : Nat) : Nat := n / 1024

/-- The compute die whose window holds an address; the die-interleaved window counts as C0. -/
def homeDie (a : Nat) : Nat := if windowOf a = some 2 then 1 else 0

/-- Id and fields of a descriptor that may be compressed and moved as stored (R206). -/
def anyField (s : State) (c : Cmd) (off : Nat) : Option Err :=
  firstErr [descCheck s (c.arg off 2) off false, zipDescCheck s (c.arg off 2) off]

/-- Id and fields of a descriptor that may not be compressed. -/
def rawField (s : State) (c : Cmd) (off : Nat) : Option Err :=
  firstErr [descCheck s (c.arg off 2) off false, plainCheck s (c.arg off 2) off]

/-! ## COPY -/

/-- Packet checks of COPY (R202). -/
def copyPacket (s : State) (c : Cmd) : Option Err :=
  firstErr [anyField s c 0x10, anyField s c 0x12,
    need (decide (c.arg 0x14 4 ≤ 1) || decide (c.arg 0x28 4 ≤ c.arg 0x30 4)) (badParam 0x30 2), zeroField c 0x34 12]

/-- Byte ranges of `rows` rows from `a`. -/
def rowRanges (a rows stride len : Nat) : List (Nat × Nat) := (List.range rows).map (fun r => (a + r * stride, len))

/-- Checks of COPY at issue: ranges within half_bytes, mapping, overlap of the bytes touched (R202, R231). -/
def copyIssue (s : State) (c : Cmd) : Option Err :=
  let a := readDesc s (c.arg 0x10 2)
  let b := readDesc s (c.arg 0x12 2)
  let rows := c.arg 0x14 4
  let len := c.arg 0x28 4
  let empty := rows == 0 || len == 0
  firstErr [
    need (empty || decide (c.arg 0x18 8 + (rows - 1) * c.arg 0x2C 4 + len ≤ a.half)) (badParam 0x18 2),
    need (empty || decide (c.arg 0x20 8 + (rows - 1) * c.arg 0x30 4 + len ≤ b.half)) (badParam 0x20 2),
    fullSize a 0x10, fullSize b 0x12, need (a.placed s) (badParam 0x10 3), need (b.placed s) (badParam 0x12 3),
    need (empty || !overlaps (rowRanges (b.home + c.arg 0x20 8) rows (c.arg 0x30 4) len)
      (rowRanges (a.home + c.arg 0x18 8) rows (c.arg 0x2C 4) len)) (badParam 0x12 4)]

/-- The work of COPY: rows of bytes, unchanged, within half cur of both descriptors. -/
def copyRun (s : State) (c : Cmd) : Run :=
  let a := readDesc s (c.arg 0x10 2)
  let b := readDesc s (c.arg 0x12 2)
  let rows := c.arg 0x14 4
  let len := c.arg 0x28 4
  if rows = 0 ∨ len = 0 then Run.plain zeroExtent
  else Run.plain (succeeded (kib (rows * len)) ((List.range rows).map (fun r =>
    Effect.write (b.home + c.arg 0x20 8 + r * c.arg 0x30 4) (s.mem.readN (a.home + c.arg 0x18 8 + r * c.arg 0x2C 4) len))))

/-- Where a dispatched COPY writes (R48). -/
def copyTargets (s : State) (c : Cmd) : List (Nat × Nat) :=
  rowRanges ((readDesc s (c.arg 0x12 2)).home + c.arg 0x20 8) (c.arg 0x14 4) (c.arg 0x30 4) (c.arg 0x28 4)

/-- COPY (R202). -/
def execCopy (cid : Nat) (s : State) : Ans := .next (onRun s cid [0x0201] copyIssue copyRun)

/-! ## FILL -/

/-- Packet checks of FILL (R203). -/
def fillPacket (s : State) (c : Cmd) : Option Err :=
  firstErr [anyField s c 0x10, zeroField c 0x12 2, need (c.arg 0x18 8 % 4 == 0) (badParam 0x18 2),
    need (c.arg 0x20 8 % 4 == 0) (badParam 0x20 2), zeroBytes c 0x28 24]

/-- R206 names no use of a compressed descriptor by FILL. -/
def fillIssue (s : State) (c : Cmd) : Option Err :=
  let d := readDesc s (c.arg 0x10 2)
  firstErr [plainCheck s d.id 0x10, need (decide (c.arg 0x18 8 ≤ d.half)) (badParam 0x18 2),
    need (decide (c.arg 0x18 8 + c.arg 0x20 8 ≤ d.half)) (badParam 0x20 2), fullSize d 0x10, need (d.placed s) (badParam 0x10 3)]

/-- The pattern repeated over `n` bytes. -/
def pattern (w : Word) (n : Nat) : Bytes := (List.range (n / 4)).flatMap (fun _ => toLe 4 w.toNat)

/-- The work of FILL. -/
def fillRun (s : State) (c : Cmd) : Run :=
  let d := readDesc s (c.arg 0x10 2)
  let n := c.arg 0x20 8
  if n = 0 then Run.plain zeroExtent
  else Run.plain (succeeded (kib n) [.write (d.home + c.arg 0x18 8) (pattern (c.word 0x14) n)])

/-- Where a dispatched FILL writes (R48). -/
def fillTargets (s : State) (c : Cmd) : List (Nat × Nat) := [((readDesc s (c.arg 0x10 2)).home + c.arg 0x18 8, c.arg 0x20 8)]

/-- FILL (R203). -/
def execFill (cid : Nat) (s : State) : Ans := .next (onRun s cid [0x0203] fillIssue fillRun)

/-! ## HOST_COPY -/

/-- Bytes that HOST_COPY may reach in a descriptor (R355). -/
def hostLimit (d : Desc) : Nat := if d.isMaster then 2 * d.half else d.half

/-- The checks of R355 on HOST_COPY. -/
def hostCopyPacket (s : State) (c : Cmd) : Option Err :=
  let d := readDesc s (c.arg 0x18 2)
  let off := c.arg 0x20 8
  let n := c.arg 0x28 8
  firstErr [
    need (c.arg 0x10 8 % 64 == 0) (badParam 0x10 2), anyField s c 0x18, need (decide (c.arg 0x1A 1 ≤ 1)) (badParam 0x1A 2),
    zeroField c 0x1B 5, need (off % 64 == 0 && decide (off ≤ hostLimit d)) (badParam 0x20 2),
    need (!(d.compressed && overlap (d.base + off, n) (d.cmeta, Desc.metaBytes s d d.rawBytes))) (badParam 0x20 2),
    need (n % 64 == 0 && decide (off + n ≤ hostLimit d)) (badParam 0x28 2), zeroField c 0x30 16,
    need s.ctl.busMaster (badParam 0 6)]

/-- The same checks at issue, and the mapping of R231. -/
def hostCopyIssue (s : State) (c : Cmd) : Option Err :=
  let d := readDesc s (c.arg 0x18 2)
  firstErr [hostCopyPacket s c, fullSize d 0x18, need (d.placed s) (badParam 0x18 3)]

/-- The work of HOST_COPY with what the host answered. -/
def hostCopyRun (s : State) (c : Cmd) (host : HostRead) : Run :=
  let d := readDesc s (c.arg 0x18 2)
  let n := c.arg 0x28 8
  let a := d.home + c.arg 0x20 8
  if n = 0 then Run.plain zeroExtent
  else match host with
    | .failed => Run.fail (badParam 0x10 2)
    | .data b =>
      if c.arg 0x1A 1 = 0 then Run.plain (succeeded (kib n) [.write a (slice b 0 n)])
      else Run.plain (succeeded (kib n) [.host (c.arg 0x10 8) (s.mem.readN a n)])

/-- Where a dispatched HOST_COPY writes in HBM (R48). -/
def hostCopyTargets (s : State) (c : Cmd) : List (Nat × Nat) :=
  if c.arg 0x1A 1 = 0 then [((readDesc s (c.arg 0x18 2)).home + c.arg 0x20 8, c.arg 0x28 8)] else []

/-- HOST_COPY (R355). -/
def execHostCopy (cid : Nat) (host : HostRead) (s : State) : Ans :=
  .next (onRun s cid [0x0202] hostCopyIssue (fun v c => hostCopyRun v c host))

/-! ## ALLOC and FREE -/

/-- Packet checks of ALLOC and FREE (R232); R206 lists neither. -/
def allocPacket (s : State) (c : Cmd) : Option Err :=
  firstErr [rawField s c 0x10, zeroBits c 0x12 0xFE, zeroField c 0x13 5, zeroField c 0x20 32]

/-- Length of the range before rounding (R232). -/
def allocLen (d : Desc) (c : Cmd) : Nat := if c.arg 0x18 8 = 0 then d.extent else c.arg 0x18 8

/-- Window, first span and number of spans of a range from `base`. -/
def spansOf (base len : Nat) : Nat × Nat × Nat :=
  let w := (windowOf base).getD 0
  (w, spanOf w base, ceilDiv len (spanSize w))

/-- The checks of R232 at issue. -/
def allocIssue (s : State) (c : Cmd) : Option Err :=
  let d := readDesc s (c.arg 0x10 2)
  let n := allocLen d c
  need (match windowOf d.base with
    | none => false
    | some w =>
      d.base % spanSize w == 0 && (bit (c.arg 0x12 1) 0 == d.dieLocal) && (d.dieLocal == (w != 0)) &&
      (n == 0 || windowOf (d.base + ceilDiv n (spanSize w) * spanSize w - 1) == some w)) (badParam 0x18 2)

/-- No earlier-dispatched ALLOC or FREE is uncommitted: the allocator takes them one at a time (R235). -/
def allocTurn (s : State) (c : Cmd) : Bool :=
  !s.cmds.any (fun x => (x.opcode == 0x0208 || x.opcode == 0x0209) && x.inFlight && x.cid != c.cid && decide (x.order < c.order))

/-- GiB rounded up (R45). -/
def gib (n : Nat) : Nat := ceilDiv n 0x40000000

/-- The frames a stack gives for `n` spans. -/
def takeFrames (s : State) (stack n : Nat) : List Nat :=
  lowestFree ((s.mem.stack stack).lost ++ s.mem.framesUsed stack) jobFrames 0 n

/-- The checks of R233 and the work of ALLOC. -/
def allocRun (s : State) (c : Cmd) : Run :=
  let d := readDesc s (c.arg 0x10 2)
  let r := spansOf d.base (allocLen d c)
  let w := r.1
  let count := r.2.2
  let stks := windowStacks w
  let frames := count * stks.length
  let quota := (mget 0xFFFFFFFF#32 s.mem.quota c.q).toNat
  let short := (stks.map (fun n => count - s.mem.freeCount n)).foldl max 0
  if count = 0 then Run.plain zeroExtent
  else if (List.range count).any (fun i => mhas (s.mem.spans w) (r.2.1 + i)) then Run.fail (badParam 0x18 2)
  else if quota ≠ 0xFFFFFFFF ∧ quota < s.mem.used c.q + 2 * frames then
    Run.fail (quotaExceeded c.q (frames * 0x200000))
  else if 0 < short then Run.fail (capacityShort 2 (gib (short * stks.length * 0x200000)))
  else
    let per := stks.map (fun n => takeFrames s n count)
    Run.plain (succeeded 0 [.mapSpans w r.2.1 c.q ((List.range count).map (fun i => per.map (fun l => l.getD i 0)))])

/-- The frames that a command's mappings name: stack and frame. -/
def mappedFrames : List Effect → List (Nat × Nat)
  | [] => []
  | .mapSpans w _ _ frames :: t => frames.flatMap (fun l => (windowStacks w).zip l) ++ mappedFrames t
  | _ :: t => mappedFrames t

/-- The frames that a successful ALLOC has picked are nobody else's until it commits or ends (R233). -/
def pickFrames (s : State) (cid : Nat) (r : Run) : State :=
  match mappedFrames r.result.effects with
  | [] => s
  | l => { s with mem := { s.mem with picked := mput s.mem.picked cid l } }

/-- ALLOC (R233). -/
def execAlloc (cid : Nat) (s : State) : Ans :=
  .next (onWork s cid [0x0208] (fun c =>
    if allocTurn s c then
      let r := checked (allocIssue s c) (allocRun s c)
      pickFrames (applyRun s c r) cid r
    else s))

/-- The ranges of the rings in HBM of an enabled queue (R30). -/
def ringRanges (v : Queue) : List (Nat × Nat) :=
  (if bit v.sQcfg.toNat 31 then [(v.sQbase.toNat / 4096 * 4096, v.slots * 64)] else []) ++
  (if bit v.sQcfg.toNat 30 then [(v.sRbase.toNat / 4096 * 4096, v.slots * 32)] else [])

/-- Whether a range holds a ring of an enabled queue (R231). -/
def holdsRing (s : State) (r : Nat × Nat) : Bool :=
  s.queues.any (fun e => e.2.enable && (ringRanges e.2).any (overlap r))

/-- The checks of R234 and R231 and the work of FREE. -/
def freeRun (s : State) (c : Cmd) : Run :=
  let d := readDesc s (c.arg 0x10 2)
  let r := spansOf d.base (allocLen d c)
  let w := r.1
  if r.2.2 = 0 then Run.plain zeroExtent
  else if !(List.range r.2.2).all (fun i => mhas (s.mem.spans w) (r.2.1 + i)) then Run.fail (badParam 0x18 2)
  else if holdsRing s (d.base, r.2.2 * spanSize w) then Run.fail (badParam 0 6)
  else Run.plain (succeeded 0 [.unmapSpans w r.2.1 r.2.2])

/-- FREE (R234). -/
def execFree (cid : Nat) (s : State) : Ans :=
  .next (onWork s cid [0x0209] (fun c =>
    if allocTurn s c then applyRun s c (checked (allocIssue s c) (freeRun s c)) else s))

end Sys2Proof.Machine
end

