-- ==== Sys2Proof/Machine/Prep.lean ====
section
/-! DEFINITION. What the Spring die does with one record: the container (R313-R315), the tokeniser (R318), the
configuration block's fields (R322-R324), the random choices (R325), pictures, sound and video (R326-R328). -/

namespace Sys2Proof.Machine

/-! ## Records (R313-R315) -/

/-- A field of a record (R314). -/
structure RField where
  kind : Nat
  codec : Nat
  off : Nat
  len : Nat
  data : Bytes
  deriving DecidableEq, Repr

/-- A record that passed its checks. -/
structure Record where
  id : DWord
  fields : List RField
  deriving DecidableEq, Repr

/-- What reading a record gives: a framing loss; a failed check 2 or 3 with its reason, identity and length; or the record
with its length. -/
inductive RecordRead where
  | framing
  | bad (reason : Nat) (id : DWord) (len : Nat)
  | good (r : Record) (len : Nat)
  deriving DecidableEq, Repr

/-- Check 1 of R315: the header at `a` with `rest` bytes of its entry left. -/
def recordHead (m : Memory) (a rest : Nat) : Bool :=
  let b := m.readN a 32
  let len := field b 8 8
  decide (56 ≤ rest) && slice b 0 4 == [0x46#8, 0x4C#8, 0x44#8, 0x53#8] && field b 4 2 == 1 && len % 8 == 0 &&
  decide (56 ≤ len ∧ len ≤ 2 ^ 28 ∧ len ≤ rest)

/-- Field `k` of the record `b`. -/
def recordField (b : Bytes) (k : Nat) : RField :=
  let o := 0x20 + 16 * k
  let off := field b (o + 4) 4
  let len := field b (o + 8) 4
  { kind := field b o 1, codec := field b (o + 1) 1, off := off, len := len, data := slice b off len }

/-- Whether no two of the ranges share a byte. -/
def disjoint : List (Nat × Nat) → Bool
  | [] => true
  | r :: t => !(t.any (overlap r)) && disjoint t

/-- Check 2 of R315: reserved fields, the number of fields, fields inside the payload and apart. -/
def recordShape (b : Bytes) : Bool :=
  let n := field b 6 2
  let len := b.length
  decide (1 ≤ n ∧ n ≤ 64 ∧ 0x20 + 16 * n + 8 ≤ len) && allZero (slice b 0x18 8) && allZero (slice b (len - 4) 4) &&
  (List.range n).all (fun k => allZero (slice b (0x22 + 16 * k) 2) && allZero (slice b (0x2C + 16 * k) 4)) &&
  ((List.range n).map (recordField b)).all (fun f =>
    f.len == 0 || (decide (0x20 + 16 * n ≤ f.off ∧ f.off + f.len ≤ len - 8) &&
      (f.kind != 5 || allZero (slice f.data 2 2)))) &&
  disjoint ((List.range n).map (fun k => ((recordField b k).off, (recordField b k).len)))

/-- A record read and checked (R315). -/
def readRecord (m : Memory) (a rest : Nat) : RecordRead :=
  if recordHead m a rest then
    let len := leNat (m.readN (a + 8) 8)
    let b := m.readN a len
    let id : DWord := BitVec.ofNat 64 (field b 0x10 8)
    if !recordShape b then .bad 2 id len
    else if crc32c (b.take (len - 8)) != field b (len - 8) 4 then .bad 1 id len
    else .good { id := id, fields := (List.range (field b 6 2)).map (recordField b) } len
  else .framing

/-- The field an output takes: the ordinal-th of its kind (R323). -/
def Record.pick (r : Record) (kind ordinal : Nat) : Option RField := (r.fields.filter (fun f => f.kind == kind))[ordinal]?

/-! ## The tokeniser (R318) -/

/-- The longest dictionary string that the text begins with. -/
def longest (dict : List (Bytes × Word)) (t : Bytes) : Option (Bytes × Word) :=
  dict.foldl (fun best e =>
    if e.1.isPrefixOf t && (match best with
      | some b => decide (b.1.length < e.1.length)
      | none => true) then some e else best) none

/-- The tokens of a text, each step taking a string of the dictionary or one byte. -/
def tokeniseN (dict : List (Bytes × Word)) : Nat → Bytes → List Word
  | 0, _ => []
  | _ + 1, [] => []
  | n + 1, b :: t =>
    match longest dict (b :: t) with
    | some e => e.2 :: tokeniseN dict n ((b :: t).drop e.1.length)
    | none => b.setWidth 32 :: tokeniseN dict n t

/-- The tokens of a text (R318). -/
def tokenise (dict : List (Bytes × Word)) (t : Bytes) : List Word := tokeniseN dict t.length t

/-! ## The configuration block (R322, R323) -/

/-- Outputs. -/
def cOutputs (cfg : Bytes) : Nat := field cfg 6 1

/-- Whether text is packed (mode 1). -/
def cPacked (cfg : Bytes) : Bool := field cfg 5 1 == 1

/-- Q, the queue slots. -/
def cQ (cfg : Bytes) : Nat := field cfg 7 1

/-- B, the slots of a batch. -/
def cB (cfg : Bytes) : Nat := field cfg 8 4

/-- The field of `n` bytes at `off` of output entry `i`. -/
def oe (cfg : Bytes) (i off n : Nat) : Nat := field cfg (0x40 + 64 * i + off) n

/-- The FP32 field at `off` of output entry `i`. -/
def oeW (cfg : Bytes) (i off : Nat) : Word := BitVec.ofNat 32 (oe cfg i off 4)

/-- The kind of output `i`. -/
def oKind (cfg : Bytes) (i : Nat) : Nat := oe cfg i 0 1

/-- The length of output `i`. -/
def oLen (cfg : Bytes) (i : Nat) : Nat := oe cfg i 8 4

/-- Whether output `i` is log-mel. -/
def oMel (cfg : Bytes) (i : Nat) : Bool := oe cfg i 0x15 1 == 0

/-- The planned extents of one picture (R324). -/
def picturePlan (cfg : Bytes) (i : Nat) : List Nat :=
  let w := oe cfg i 0x10 2
  let h := oe cfg i 0x12 2
  let ch := oe cfg i 0x14 1
  let p := oe cfg i 0x18 1
  if p = 0 then [ch, w, h] else [p * p * ch, (w / p) * (h / p)]

/-- The planned extents of output `i`, the slots left out (R324). -/
def outDims (cfg : Bytes) (i : Nat) : List Nat :=
  let k := oKind cfg i
  if k = 2 then picturePlan cfg i
  else if k = 4 then picturePlan cfg i ++ [oLen cfg i]
  else if k = 3 then (if oMel cfg i then [oe cfg i 0x1C 2, oLen cfg i] else [oe cfg i 0x14 1, oLen cfg i])
  else [oLen cfg i]

/-- The planned extents of the mask of output `i`, the slots left out, and bytes per entry (R324). -/
def maskDims (cfg : Bytes) (i : Nat) : Nat × Nat :=
  let k := oKind cfg i
  if k = 1 then (oLen cfg i, if cPacked cfg then 2 else 1)
  else if k = 3 ∨ k = 4 then (oLen cfg i, 1)
  else (1, 1)

/-- Whether output `i` holds integers, so that its descriptor's format is ignored (R74, R324). -/
def oIndex (cfg : Bytes) (i : Nat) : Bool := oKind cfg i == 1 || oKind cfg i == 6

/-- Bytes of one slot of output `i` in an unscaled format, or of its blocks with their scales in a scaled one; `fmt` is
the descriptor's format. -/
def slotBytes (cfg : Bytes) (i fmt : Nat) : Nat :=
  let n := (outDims cfg i).prod
  if oIndex cfg i then 4 * n
  else if oKind cfg i != 5 then n * fwidth (oe cfg i 2 1) / 8
  else if isScaled fmt then ceilDiv n (blockLen fmt) * (scaleBytes fmt + blockBytes fmt)
  else n * fwidth fmt / 8

/-- Bytes of one slot of the mask of output `i`. -/
def slotMask (cfg : Bytes) (i : Nat) : Nat := (maskDims cfg i).1 * (maskDims cfg i).2

/-- `n` bytes that the manual leaves open, under serial number `serial`, for output `i`. -/
def openBytes (serial i n : Nat) : Bytes := (List.range n).map (fun k => Config.freeByte serial (i * 2 ^ 40 + k))

/-- What output `i` holds in a slot that is padded in it, with its mask of 0 (R324, R329, R336); the contents of padded
pictures, sound, video and raw tensors are open. -/
def padOutput (cfg : Bytes) (serial fmt i : Nat) : Bytes × Bytes :=
  let data :=
    if oKind cfg i = 1 then (List.range (oLen cfg i)).flatMap (fun _ => slice cfg 0x24 4)
    else if oKind cfg i = 6 then List.replicate (4 * oLen cfg i) 0xFF#8
    else openBytes serial i (slotBytes cfg i fmt)
  (data, List.replicate (slotMask cfg i) 0)

/-! ## Text, labels and raw tensors -/

/-- A document wrapped in tok_bos and tok_eos where they are set (R329). -/
def wrapped (cfg : Bytes) (t : List Word) : List Word :=
  let mark (off : Nat) : List Word := if field cfg off 4 = 0xFFFFFFFF then [] else [BitVec.ofNat 32 (field cfg off 4)]
  mark 0x1C ++ t ++ mark 0x20

/-- Words as little-endian bytes. -/
def wordsLe (t : List Word) : Bytes := t.flatMap (fun w => toLe 4 w.toNat)

/-- Tokens laid out over L positions with tok_pad behind (R329). -/
def padTokens (cfg : Bytes) (l : Nat) (t : List Word) : Bytes :=
  wordsLe (t.take l) ++ (List.range (l - t.length)).flatMap (fun _ => slice cfg 0x24 4)

/-- A text output in mode 0 (R329): data, mask, and whether it was cut. -/
def textOutput (cfg : Bytes) (i : Nat) (dict : List (Bytes × Word)) (t : Bytes) : Bytes × Bytes × Bool :=
  let l := oLen cfg i
  let w := wrapped cfg (tokenise dict t)
  (padTokens cfg l w, List.replicate (min l w.length) 1 ++ List.replicate (l - w.length) 0, decide (l < w.length))

/-- A label output (R324): data and mask, or a reason. -/
def labelOutput (cfg : Bytes) (i : Nat) (b : Bytes) : Except Nat (Bytes × Bytes) :=
  let l := oLen cfg i
  if b.length % 4 ≠ 0 then .error 4
  else if l < b.length / 4 then .error 8
  else .ok (b ++ List.replicate (4 * l - b.length) 0xFF#8, [1#8])

/-- The blocks of a raw field of a scaled format, each its scale and its codes; open where the field's blocks are not the
output's. -/
def rawBlocks (fmt rows p0 serial i : Nat) (b : Bytes) : Bytes :=
  let h := if fmt = 6 then 64 else 0
  let nb := ceilDiv p0 (blockLen fmt)
  if rows = 1 ∨ p0 % blockLen fmt = 0 then
    (List.range (rows * nb)).flatMap (fun k =>
      slice b (h + scaleOff fmt k) (scaleBytes fmt) ++ slice b (h + codesOff fmt k) (blockBytes fmt))
  else openBytes serial i (ceilDiv (rows * p0) (blockLen fmt) * (scaleBytes fmt + blockBytes fmt))

/-- A raw tensor output (R314, R324, R336): data and mask, or a reason. -/
def rawOutput (cfg : Bytes) (i fmt serial : Nat) (b : Bytes) : Except Nat (Bytes × Bytes) :=
  let dims := field b 1 1
  let ext := (List.range dims).map (fun k => field b (4 + 3 * k) 3)
  let p0 := ext.headD 0
  let rows := (ext.drop 1).prod
  if b.length < 16 then .error 4
  else if field b 0 1 ≠ fmt ∨ dims = 0 ∨ 4 < dims ∨ ext.prod ≠ oLen cfg i then .error 8
  else if b.length - 16 < tensorBytes fmt rows p0 then .error 4
  else if isScaled fmt then .ok (rawBlocks fmt rows p0 serial i (b.drop 16), [1#8])
  else .ok (slice b 16 (tensorBytes fmt rows p0), [1#8])

/-! ## Random choices (R325) -/

/-- rng_init of R325. -/
def rngInit (id : DWord) (epoch seed : Word) (out : Nat) : Word :=
  let lo : Word := id.setWidth 32
  let hi : Word := (id >>> 32).setWidth 32
  xsteps 4 (nonZero (lo ^^^ (hi * 0x9E3779B9#32) ^^^ (epoch * 0x85EBCA6B#32) ^^^ (BitVec.ofNat 32 out * 0xC2B2AE35#32) ^^^ seed))

/-- The `n`-th draw of a generator, counted from 0: exact, in [0, 1). -/
def drawAt (g : Word) (n : Nat) : Num := .fin false (xsteps (n + 1) g).toNat (-32)

/-- floor(draw × n). -/
def pickBelow (d : Num) (n : Nat) : Nat := toNatFloor (Num.mul d (Num.ofNat n))

/-! ## Pictures (R326) -/

/-- A decoded picture: rows of pixels with their channels. -/
structure Picture where
  width : Nat
  height : Nat
  channels : Nat
  fullScale : Nat
  pixels : List Nat
  deriving DecidableEq, Repr

/-- Channel `c` of `ch` at a pixel: alpha discarded, grey replicated, colour weighed into grey (R319). -/
def Picture.at (p : Picture) (ch c x y : Nat) : Word :=
  let v (k : Nat) : Word := fOfNat (p.pixels.getD ((y * p.width + x) * p.channels + k) 0)
  if p.channels ≤ 2 then v 0
  else if ch = 1 then Config.sumAny [fmul 0x3E991687#32 (v 0), fmul 0x3F1645A2#32 (v 1), fmul 0x3DE978D5#32 (v 2)]
  else v c

/-- A crop: its first pixel, width and height. -/
structure Crop where
  x : Nat
  y : Nat
  w : Nat
  h : Nat
  deriving DecidableEq, Repr

/-- The crop of R326, with the number of draws it takes from position `k` of the generator. -/
def cropOf (cfg : Bytes) (i : Nat) (p : Picture) (g : Word) (k : Nat) : Crop × Nat :=
  let ow := oe cfg i 0x10 2
  let oh := oe cfg i 0x12 2
  let fit := oe cfg i 0x16 1
  if fit = 0 then ({ x := 0, y := 0, w := p.width, h := p.height }, 2)
  else if fit = 1 then
    let w := if p.width * oh > p.height * ow then p.height * ow / max oh 1 else p.width
    let h := if p.width * oh > p.height * ow then p.height else p.width * oh / max ow 1
    ({ x := (p.width - w) / 2, y := (p.height - h) / 2, w := w, h := h }, 2)
  else
    let r := fdiv (fOfNat ow) (fOfNat oh)
    let lo := oeW cfg i 0x1C
    let a := fadd lo (toF32 (Num.mul (f32 (fsub (oeW cfg i 0x20) lo)) (drawAt g k)))
    let area := fmul (fmul a (fOfNat p.width)) (fOfNat p.height)
    let w := min p.width (toNatRne (f32 (fsqrt (fmul area r))))
    let h := min p.height (toNatRne (f32 (fsqrt (fdiv area r))))
    ({ x := pickBelow (drawAt g (k + 1)) (p.width - w + 1), y := pickBelow (drawAt g (k + 2)) (p.height - h + 1), w := w,
       h := h }, 3)

/-- The floor of a value. -/
def floorInt : Num → Int
  | .fin n m e =>
    let v : Int := if n then -(m : Int) else m
    if 0 ≤ e then v * 2 ^ e.toNat else v / 2 ^ (-e).toNat
  | _ => 0

/-- A whole number as a value. -/
def numInt (v : Int) : Num := .fin (decide (v < 0)) v.natAbs 0

/-- The cubic kernel with a = -0.5 at a distance. -/
def cubic (d : Num) : Num :=
  let x := d.abs
  let x2 := Num.mul x x
  let x3 := Num.mul x2 x
  let half (n : Int) : Num := .fin (decide (n < 0)) n.natAbs (-1)
  if !Num.lt (Num.ofNat 1) x then Num.add (Num.sub (Num.mul (half 3) x3) (Num.mul (half 5) x2)) (Num.ofNat 1)
  else if Num.lt x (Num.ofNat 2) then
    Num.add (Num.sub (Num.add (Num.mul (half (-1)) x3) (Num.mul (half 5) x2)) (Num.mul (Num.ofNat 4) x)) (Num.ofNat 2)
  else Num.ofNat 0

/-- A position kept inside a crop's extent. -/
def clampTo (n : Nat) (v : Int) : Nat := min v.toNat (n - 1)

/-- The pixels along one axis that a destination pixel takes, with their weights (R326). -/
def axisTaps (filter x crop out : Nat) : List (Nat × Word) :=
  let sc := fdiv (fOfNat crop) (fOfNat out)
  let pos := fsub (fmul (fadd (fOfNat x) 0x3F000000#32) sc) 0x3F000000#32
  let f := floorInt (f32 pos)
  let t := Num.sub (f32 pos) (numInt f)
  if filter = 0 then
    let up := if t = .fin false 1 (-1) ∨ Num.sub t (.fin false 1 (-1)) = Num.ofNat 0 then Config.nearestTie pos
      else Num.lt (.fin false 1 (-1)) t
    [(clampTo crop (if up then f + 1 else f), 0x3F800000#32)]
  else if filter = 1 then
    [(clampTo crop f, toF32 (Num.sub (Num.ofNat 1) t)), (clampTo crop (f + 1), toF32 t)]
  else if filter = 2 then
    [(-1 : Int), 0, 1, 2].map (fun k => (clampTo crop (f + k), toF32 (cubic (Num.sub t (numInt k)))))
  else
    let a := f32 (fmul (fOfNat x) sc)
    let b := f32 (fmul (fOfNat (x + 1)) sc)
    let first := toNatFloor a
    (List.range (toNatFloor b + 1 - first)).map (fun k =>
      let lo := if Num.lt (Num.ofNat (first + k)) a then a else Num.ofNat (first + k)
      let hi := if Num.lt b (Num.ofNat (first + k + 1)) then b else Num.ofNat (first + k + 1)
      (clampTo crop (first + k : Nat), toF32 (Num.sub hi lo)))

/-- One resized value: the weighed pixels, an average for the area filter. -/
def resized (cfg : Bytes) (i : Nat) (p : Picture) (cr : Crop) (c x y : Nat) : Word :=
  let filter := oe cfg i 0x15 1
  let xs := axisTaps filter x cr.w (oe cfg i 0x10 2)
  let ys := axisTaps filter y cr.h (oe cfg i 0x12 2)
  let terms := ys.flatMap (fun b => xs.map (fun a => (fmul a.2 b.2, p.at (oe cfg i 0x14 1) c (cr.x + a.1) (cr.y + b.1))))
  let sum := Config.sumAny (terms.map (fun t => fmul t.1 t.2))
  if filter = 0 then (terms.headD (0, 0)).2
  else if filter = 3 then fdiv sum (Config.sumAny (terms.map (·.1)))
  else sum

/-- The places of a picture in output order: channel, x, y; within patches where P is set (R324). -/
def pictureOrder (cfg : Bytes) (i : Nat) : List (Nat × Nat × Nat) :=
  let w := oe cfg i 0x10 2
  let h := oe cfg i 0x12 2
  let ch := oe cfg i 0x14 1
  let p := oe cfg i 0x18 1
  if p = 0 then
    (List.range h).flatMap (fun y => (List.range w).flatMap (fun x => (List.range ch).map (fun c => (c, x, y))))
  else
    (List.range (h / p)).flatMap (fun py => (List.range (w / p)).flatMap (fun px =>
      (List.range p).flatMap (fun y => (List.range p).flatMap (fun x => (List.range ch).map (fun c =>
        (c, px * p + x, py * p + y))))))

/-- Values converted into an output's format, with the saturations counted (R66, R68). -/
def packValues (fmt : Nat) (v : List Word) : Bytes × Nat :=
  let cs := v.map (fun w => rneCode fmt (f32 w))
  (cs.flatMap (fun c => toLe (fwidth fmt / 8) c.code), (cs.filter (·.sat)).length)

/-- A picture prepared with a crop and a flip (R326). -/
def preparePicture (cfg : Bytes) (i : Nat) (p : Picture) (cr : Crop) (flip : Bool) : Bytes × Nat :=
  let w := oe cfg i 0x10 2
  packValues (oe cfg i 2 1) ((pictureOrder cfg i).map (fun t =>
    let x := if flip then w - 1 - t.2.1 else t.2.1
    fadd (fmul (fdiv (resized cfg i p cr t.1 x t.2.2) (fOfNat p.fullScale)) (oeW cfg i (0x24 + 4 * t.1))) (oeW cfg i (0x30 + 4 * t.1))))

/-- Crop and flip of a picture from draw `k` on. -/
def pictureDraws (cfg : Bytes) (i : Nat) (p : Picture) (g : Word) (k : Nat) : Crop × Bool × Nat :=
  let cr := cropOf cfg i p g k
  (cr.1, oe cfg i 0x17 1 == 1 && Num.lt (drawAt g (k + cr.2)) (.fin false 1 (-1)), cr.2 + 1)

/-! ## Video (R328) -/

/-- The frame index that output frame `k` takes of a clip of `n`, with the first one drawn as `start`. -/
def frameIndex (cfg : Bytes) (i n start k : Nat) : Nat :=
  let st := oe cfg i 0x19 1
  if st = 0 then (2 * k + 1) * n / (2 * oLen cfg i) else start + k * st

/-- The first frame of a clip (R328): 0, or drawn. -/
def startFrame (cfg : Bytes) (i n : Nat) (d : Num) : Nat :=
  let span := (oLen cfg i - 1) * oe cfg i 0x19 1
  if oe cfg i 0x1A 1 = 1 ∧ oe cfg i 0x19 1 ≠ 0 ∧ span < n then pickBelow d (n - span) else 0

/-- A video output: its frames, padded behind the clip's end; a frame that was not decoded is open. -/
def prepareVideo (cfg : Bytes) (i serial w h ch total : Nat) (frames : List (Nat × List Nat)) (g : Word) : Bytes × Bytes × Nat :=
  let pic (px : List Nat) : Picture := { width := w, height := h, channels := ch, fullScale := 255, pixels := px }
  let d := pictureDraws cfg i (pic []) g (if Config.startDrawnFirst then 1 else 0)
  let start := startFrame cfg i total (drawAt g (if Config.startDrawnFirst then 0 else d.2.2))
  let size := (picturePlan cfg i).prod * fwidth (oe cfg i 2 1) / 8
  let one (k : Nat) : Bytes × Byte × Nat :=
    let f := frameIndex cfg i total start k
    if total ≤ f then (openBytes serial (64 * i + k) size, 0, 0)
    else
      match frames.find? (fun e => e.1 == f) with
      | some e =>
        let r := preparePicture cfg i (pic e.2) d.1 d.2.1
        (r.1, 1, r.2)
      | none => (openBytes serial (64 * i + k) size, 1, 0)
  let rs := (List.range (oLen cfg i)).map one
  (rs.flatMap (·.1), rs.map (·.2.1), (rs.map (·.2.2)).sum)

/-! ## Sound (R327) -/

/-- Channel `c` of `n` of an interleaved signal. -/
def channelOf (n c : Nat) (v : List Word) : List Word := (List.range (v.length / max n 1)).map (fun k => v.getD (k * n + c) 0)

/-- The signal mixed to `out` channels (R327 step 1), one list per channel. -/
def mixTo (out n : Nat) (v : List Word) : List (List Word) :=
  let row (k : Nat) : List Word := (List.range n).map (fun c => v.getD (k * n + c) 0)
  let frames := List.range (v.length / max n 1)
  if out = 1 then [frames.map (fun k => if n = 1 then (row k).headD 0 else fdiv (Config.sumAny (row k)) (fOfNat n))]
  else if n = 2 then [channelOf 2 0 v, channelOf 2 1 v]
  else (List.range out).map (fun c => frames.map (fun k => Config.stereoMix (row k) c))

/-- The signal at the output's rate (R327 step 2). -/
def resampled (src dst : Nat) (v : List Word) : List Word :=
  if src = dst then v
  else (List.range (Config.resampleCount v.length src dst)).map (fun k => Config.resample v src dst k)

/-- Samples that an output needs (R327 step 3). -/
def samplesNeeded (cfg : Bytes) (i : Nat) : Nat :=
  if oMel cfg i then (oLen cfg i - 1) * oe cfg i 0x1A 2 + oe cfg i 0x18 2 else oLen cfg i

/-- One log-mel value (R327 step 4): Hann window, power spectrum, one triangular filter, logarithm. -/
def melValue (cfg : Bytes) (i bin : Nat) (x : List Word) : Word :=
  let win := oe cfg i 0x18 2
  let w := (List.range win).map (fun n => fmul (x.getD n 0) (Config.fourier win n 2))
  let part (kind k : Nat) : Word :=
    Config.sumAny ((List.range win).map (fun n => fmul (w.getD n 0) (Config.fourier win (k * n % win) kind)))
  let power (k : Nat) : Word := Config.sumAny [fmul (part 0 k) (part 0 k), fmul (part 1 k) (part 1 k)]
  let e := Config.sumAny ((List.range (win / 2 + 1)).map (fun k =>
    fmul (Config.melWeight (oe cfg i 0x10 4) win (oe cfg i 0x1C 2) (oeW cfg i 0x20) (oeW cfg i 0x24) bin k) (power k)))
  Config.lnSpring (fmax e (oeW cfg i 0x28))

/-- A sound output (R327). -/
def prepareAudio (cfg : Bytes) (i rate ch : Nat) (v : List Word) (g : Word) : Bytes × Bytes × Nat :=
  let out := if oMel cfg i then 1 else oe cfg i 0x14 1
  let sig := (mixTo out ch v).map (resampled rate (oe cfg i 0x10 4))
  let total := (sig.headD []).length
  let n := samplesNeeded cfg i
  let start := if n < total ∧ oe cfg i 0x16 1 = 1 then pickBelow (drawAt g 0) (total - n + 1) else 0
  let real := min n total
  let at_ (s : List Word) (k : Nat) : Word := if k < real then s.getD (start + k) 0 else 0
  if oMel cfg i then
    let hop := oe cfg i 0x1A 2
    let r := packValues (oe cfg i 2 1) ((List.range (oLen cfg i)).flatMap (fun f =>
      let x := (List.range (oe cfg i 0x18 2)).map (fun k => at_ (sig.headD []) (f * hop + k))
      (List.range (oe cfg i 0x1C 2)).map (fun b => melValue cfg i b x)))
    (r.1, (List.range (oLen cfg i)).map (fun f => if f * hop < real then 1 else 0), r.2)
  else
    let r := packValues (oe cfg i 2 1) ((List.range n).flatMap (fun k => sig.map (fun s => at_ s k)))
    (r.1, (List.range n).map (fun k => if k < real then 1 else 0), r.2)

/-! ## A decoded medium -/

/-- The output that a decoded medium gives (R326-R328): data, mask and saturations; the reason where it is not of the
output's kind or ended badly. -/
def prepareMedia (cfg : Bytes) (i serial : Nat) (id : DWord) (epoch seed : Word) (m : Media) : Except Nat (Bytes × Bytes × Nat) :=
  let g := rngInit id epoch seed i
  match m with
  | .bad r => .error r
  | .image w h ch fs px =>
    if 16384 < w ∨ 16384 < h then .error 3
    else if oKind cfg i = 2 then
      let p : Picture := { width := w, height := h, channels := ch, fullScale := fs, pixels := px }
      let d := pictureDraws cfg i p g 0
      let r := preparePicture cfg i p d.1 d.2.1
      .ok (r.1, [1#8], r.2)
    else .error 4
  | .video w h ch frames total =>
    if 4096 < w ∨ 4096 < h then .error 3
    else if oKind cfg i = 4 then .ok (prepareVideo cfg i serial w h ch total frames g) else .error 4
  | .audio rate ch v => if oKind cfg i = 3 then .ok (prepareAudio cfg i rate ch v g) else .error 4

/-- Units of a decode budget (R338): pixels at full profile, or input bytes for sound. -/
def mediaUnits (bytes : Nat) : Media → Nat
  | .image w h _ _ _ => w * h
  | .video w h _ frames _ => w * h * frames.length
  | .audio _ _ _ => bytes
  | .bad _ => 0

/-- The codec class of a media field (R314, R342), where its codec is one of R319. -/
def codecClass (kind codec : Nat) : Option Nat :=
  if kind = 2 then (if codec = 1 then some 0 else if codec = 2 then some 1 else none)
  else if kind = 3 then (if codec = 1 then some 2 else if codec = 2 then some 3 else if codec = 3 then some 4 else none)
  else if kind = 4 then (if codec = 1 then some 5 else if codec = 2 then some 6 else if codec = 3 then some 7 else none)
  else none

/-- The profile bit of a class that has a cheaper profile (R319, R335). -/
def cheapBit (cls : Nat) : Option Nat := if cls = 0 then some 1 else if cls = 3 then some 4 else if 5 ≤ cls then some 2 else none

end Sys2Proof.Machine
end

