-- ==== Sys2Proof/Machine/Ingest.lean ====
section
/-! DEFINITION. The Spring die: ingest streams, batches, replacement, the reserve pool, dictionaries and registers
(R310-R342). -/

namespace Sys2Proof.Machine

/-- Whether S is up. -/
def springUp (s : State) : Bool := dieState s 4 == 1

/-- Whether a command needs S (R255): every ingest command but INGEST_RELEASE, which frees a slot of the prepared-batch
queue (DEDUCED, log 91). -/
def onSpring (op : Nat) : Bool := op / 256 == 4 && op != 0x0403

/-! ## INGEST_OPEN (R321-R324) -/

/-- The packet checks of INGEST_OPEN. -/
def ingestOpenPacket (s : State) (c : Cmd) : Option Err :=
  let opening := c.arg 0x10 2 != 0
  let dict := c.arg 0x17 1
  firstErr [descCheck s (c.arg 0x10 2) 0x10 true, if opening then anyField s c 0x12 else none, descCheck s (c.arg 0x14 2) 0x14 true,
    need (decide (c.arg 0x16 1 ≤ 15)) (badParam 0x16 2), need (!opening || dict == 255 || decide (dict ≤ 3)) (badParam 0x17 2),
    zeroField c 0x28 24]

/-- The configuration block that INGEST_OPEN names. -/
def openConfig (s : State) (c : Cmd) : Bytes :=
  let a := (readDesc s (c.arg 0x10 2)).home
  s.mem.readN a (64 + 64 * min (s.mem.read (a + 6)).toNat 8)

/-- The header of a configuration block (R322). -/
def cfgHeader (cfg : Bytes) (reserveRing : Bool) : Bool :=
  let q := cQ cfg
  let ready := field cfg 0xC 2
  let dl := field cfg 0xF 1
  let depth := field cfg 0x16 2
  slice cfg 0 4 == [0x46#8, 0x4C#8, 0x44#8, 0x49#8] && field cfg 4 1 == 1 && decide (field cfg 5 1 ≤ 1) &&
  decide (1 ≤ cOutputs cfg ∧ cOutputs cfg ≤ 8) && (!cPacked cfg || (cOutputs cfg == 1 && oKind cfg 0 == 1)) &&
  decide (1 ≤ q ∧ q ≤ 64) && decide (1 ≤ cB cfg ∧ cB cfg ≤ 4096) && decide (1 ≤ ready ∧ ready + q - 1 ≤ 4095) &&
  decide (field cfg 0xE 1 ≤ q) && (dl == 0 || decide (2 ≤ dl ∧ dl ≤ 64)) && decide (depth ≤ 256) &&
  ((depth == 0) == (field cfg 0x18 2 == 0)) && decide (4 ≤ field cfg 0x1A 1 ∧ field cfg 0x1A 1 ≤ 16) &&
  (if reserveRing then decide (4 ≤ field cfg 0x1B 1 ∧ field cfg 0x1B 1 ≤ 16) else field cfg 0x1B 1 == 0) &&
  allZero (slice cfg 0x28 24)

/-- The fields of a picture or video output (R323). -/
def pictureGood (cfg : Bytes) (i : Nat) : Bool :=
  let w := oe cfg i 0x10 2
  let h := oe cfg i 0x12 2
  let ch := oe cfg i 0x14 1
  let p := oe cfg i 0x18 1
  let lo := oeW cfg i 0x1C
  let hi := oeW cfg i 0x20
  decide (1 ≤ w ∧ 1 ≤ h) && (ch == 1 || ch == 3) && decide (oe cfg i 0x15 1 ≤ 3) && decide (oe cfg i 0x16 1 ≤ 2) &&
  decide (oe cfg i 0x17 1 ≤ 1) && (p == 0 || (decide (2 ≤ p ∧ p ≤ 64) && w % p == 0 && h % p == 0)) &&
  (if oKind cfg i = 4 then decide (oe cfg i 0x1A 1 ≤ 1) else oe cfg i 0x19 2 == 0) && oe cfg i 0x1B 1 == 0 &&
  flt 0 lo && fle lo hi && fle hi 0x3F800000#32 && oe cfg i 0x3C 4 == 0

/-- The fields of a sound output (R323). -/
def audioGood (cfg : Bytes) (i : Nat) : Bool :=
  let rate := oe cfg i 0x10 4
  let win := oe cfg i 0x18 2
  let hop := oe cfg i 0x1A 2
  let bins := oe cfg i 0x1C 2
  decide (8000 ≤ rate ∧ rate ≤ 48000) && decide (1 ≤ oe cfg i 0x14 1 ∧ oe cfg i 0x14 1 ≤ 2) && decide (oe cfg i 0x15 1 ≤ 1) &&
  decide (oe cfg i 0x16 1 ≤ 1) && oe cfg i 0x17 1 == 0 && oe cfg i 0x1E 2 == 0 && allZero (slice cfg (0x40 + 64 * i + 0x2C) 20) &&
  (!oMel cfg i || ([256, 512, 1024, 2048, 4096].contains win && decide (1 ≤ hop ∧ hop ≤ win) && decide (1 ≤ bins ∧ bins ≤ 256) &&
    fle (fmul (oeW cfg i 0x24) 0x40000000#32) (fOfNat rate) && flt 0 (oeW cfg i 0x28)))

/-- The fields of output entry `i` (R323). -/
def outputGood (cfg : Bytes) (i : Nat) : Bool :=
  let k := oKind cfg i
  let media := k == 2 || k == 3 || k == 4
  let fmt := oe cfg i 2 1
  decide (1 ≤ k ∧ k ≤ 6) && decide (oe cfg i 1 1 ≤ 7) && (if media then fmt == 1 || fmt == 3 else fmt == 0) &&
  decide (oe cfg i 3 1 ≤ 1) && ((k == 2) == (oLen cfg i == 0)) && oe cfg i 0xC 4 == 0 &&
  (if k = 2 ∨ k = 4 then pictureGood cfg i
    else if k = 3 then audioGood cfg i
    else allZero (slice cfg (0x40 + 64 * i + 0x10) 48))

/-- A named tensor descriptor of a stream: it exists, is plain, and has the plan and the size (R324). -/
def planned (s : State) (id : Nat) (plan : List Nat) (fmt : Option Nat) (bytes : Nat → Nat) : Bool :=
  let d := readDesc s id
  id != 0 && decide (id ≤ s.job.descCount) && d.base % 64 == 0 && !d.compressed && !d.pingpong && d.dims == plan.length &&
  d.plan.take plan.length == plan && (fmt == none || fmt == some d.fmt) && decide (bytes d.fmt ≤ d.half) && d.placed s

/-- The descriptors of output `i` in queue slot `j` (R324). -/
def outputDescs (s : State) (cfg : Bytes) (i j : Nat) : Bool :=
  let dims := outDims cfg i ++ [cB cfg]
  let mask := maskDims cfg i
  let n := dims.prod
  let media := !oIndex cfg i && oKind cfg i != 5
  planned s (oe cfg i 4 2 + j) dims (if media then some (oe cfg i 2 1) else none)
    (fun f => if oIndex cfg i then 4 * n else tensorBytes f (n / max (dims.headD 1) 1) (dims.headD 0)) &&
  (oe cfg i 6 2 == 0 || planned s (oe cfg i 6 2 + j) [mask.1, cB cfg] none (fun _ => mask.1 * mask.2 * cB cfg))

/-- The manifest descriptor of queue slot `j` and the reserve pool's (R322, R324). -/
def manifestDesc (s : State) (cfg : Bytes) (j : Nat) : Bool :=
  let id := field cfg 0x14 2 + j
  let d := readDesc s id
  id != 0 && decide (id ≤ s.job.descCount) && d.base % 64 == 0 && !d.compressed && !d.pingpong &&
  decide (64 + 32 * cB cfg ≤ d.half) && d.placed s

/-- The pool's descriptor. -/
def poolDesc (s : State) (cfg : Bytes) : Bool :=
  let id := field cfg 0x18 2
  let d := readDesc s id
  id == 0 || (decide (id ≤ s.job.descCount) && d.base % 64 == 0 && !d.compressed && d.placed s)

/-- The checks of INGEST_OPEN at issue. -/
def ingestOpenIssue (s : State) (c : Cmd) : Option Err :=
  let st := c.arg 0x16 1
  let g := getIngest s st
  let cfg := openConfig s c
  let d := readDesc s (c.arg 0x10 2)
  let src := readDesc s (c.arg 0x12 2)
  let rsv := readDesc s (c.arg 0x14 2)
  let slots := List.range (cQ cfg)
  let outs := List.range (cOutputs cfg)
  if c.arg 0x10 2 = 0 then
    need (!s.cmds.any (fun x => x.opcode == 0x0402 && x.inFlight && x.arg 0x10 1 == st)) (badParam 0 6)
  else
    firstErr [need (!g.opened) (badParam 0 6), plainCheck s d.id 0x10, plainCheck s src.id 0x12, plainCheck s rsv.id 0x14,
      need (d.placed s && decide (64 ≤ d.half) && decide (cfg.length ≤ d.half)) (badParam 0x10 3),
      need (cfgHeader cfg (rsv.id != 0)) (badParam 0x10 2), need (outs.all (outputGood cfg)) (badParam 0x10 2),
      need (slots.all (fun j => manifestDesc s cfg j && outs.all (fun i => outputDescs s cfg i j))) (badParam 0x10 3),
      need (poolDesc s cfg) (badParam 0x10 3), sizeCheck s src (32 * 2 ^ field cfg 0x1A 1) 0x12,
      if rsv.id = 0 then none else sizeCheck s rsv (32 * 2 ^ field cfg 0x1B 1) 0x14,
      need (!(outs.any (fun i => oKind cfg i == 1) && c.arg 0x17 1 != 255 && !mhas s.spring.dicts (c.arg 0x17 1))) (badParam 0 6)]

/-- The work of INGEST_OPEN: the stream opens or closes at the commit. -/
def ingestOpenRun (s : State) (c : Cmd) : Run :=
  let st := c.arg 0x16 1
  if c.arg 0x10 2 = 0 then Run.plain (succeeded 0 [.closeStream st])
  else Run.plain (succeeded 0 [.openStream st (openConfig s c) (c.arg 0x12 2) (c.arg 0x14 2) (c.arg 0x17 1)
    (BitVec.ofNat 64 (c.arg 0x18 8)) (c.word 0x20) (c.word 0x24)])

/-- INGEST_OPEN (R321): S must be up. -/
def execIngestOpen (cid : Nat) (s : State) : Ans :=
  .next (onWork s cid [0x0401] (fun c => if springUp s then applyRun s c (checked (ingestOpenIssue s c) (ingestOpenRun s c)) else s))

/-- A stream opened (R321): batch 0, no prepared batches, an empty pool. -/
def openIngest (s : State) (st : Nat) (cfg : Bytes) (src rsv dict : Nat) (pos : DWord) (epoch seed : Word) : State :=
  setIngest s st { getIngest s st with
    opened := true, cfg := cfg, src := src, rsv := rsv, dict := dict, pos := pos, rsvPos := 0, epoch := epoch, seed := seed,
    srcHead := (pos >>> 32).setWidth 32, rsvHead := 0, batch := 0, held := [], asm := none, pool := [] }

/-- A stream closed: its prepared batches are discarded, its counts and tails stay. -/
def closeIngest (s : State) (st : Nat) : State :=
  setIngest s st { getIngest s st with opened := false, cfg := [], src := 0, rsv := 0, dict := 255, held := [], asm := none, pool := [] }

/-! ## INGEST_RELEASE and INGEST_SEEK -/

/-- The packet checks of INGEST_RELEASE (R332). -/
def ingestReleasePacket (_ : State) (c : Cmd) : Option Err :=
  firstErr [need (decide (c.arg 0x10 1 ≤ 15)) (badParam 0x10 2), need (decide (c.arg 0x11 1 ≤ 63)) (badParam 0x11 2),
    zeroBytes c 0x12 6, zeroBytes c 0x20 32]

/-- The slot must hold that committed, unreleased batch. -/
def ingestReleaseIssue (s : State) (c : Cmd) : Option Err :=
  let g := getIngest s (c.arg 0x10 1)
  need (g.opened && mhas g.held (c.arg 0x11 1) && mget 0 g.held (c.arg 0x11 1) == c.arg 0x18 8) (badParam 0 6)

/-- INGEST_RELEASE (R332). It runs without S as well: batches already committed are consumed (R255). -/
def execIngestRelease (cid : Nat) (s : State) : Ans :=
  .next (onWork s cid [0x0403] (fun c =>
    applyRun s c (checked (ingestReleaseIssue s c) (Run.plain (succeeded 0 [.release (c.arg 0x10 1) (c.arg 0x11 1)])))))

/-- A batch taken (R332), with the low-water alarm (R333); the last 17 takings are kept for their mean interval (R199). -/
def releaseSlot (s : State) (st slot : Nat) : State :=
  let g := getIngest s st
  let h := mdel g.held slot
  let low := field g.cfg 0xE 1
  let taken := g.taken ++ [mget 0 s.time.die 4]
  setIngest s st { g with
    held := h, taken := taken.drop (taken.length - 17), lowWater := g.lowWater || (decide (low ≤ g.held.length) && decide (h.length < low)) }

/-- The packet checks of INGEST_SEEK (R334). -/
def ingestSeekPacket (_ : State) (c : Cmd) : Option Err :=
  firstErr [need (decide (c.arg 0x10 1 ≤ 15)) (badParam 0x10 2), zeroBits c 0x11 0xFE, zeroField c 0x12 6, zeroField c 0x24 4,
    zeroField c 0x30 16]

/-- A closed stream has no position to set. -/
def ingestSeekIssue (s : State) (c : Cmd) : Option Err := need (getIngest s (c.arg 0x10 1)).opened (badParam 0 6)

/-- INGEST_SEEK (R334). -/
def execIngestSeek (cid : Nat) (s : State) : Ans :=
  .next (onWork s cid [0x0404] (fun c =>
    if springUp s then
      let rsv : Option DWord := if bit (c.arg 0x11 1) 0 then some (BitVec.ofNat 64 (c.arg 0x28 8)) else none
      applyRun s c (checked (ingestSeekIssue s c)
        (Run.plain (succeeded 0 [.seek (c.arg 0x10 1) (BitVec.ofNat 64 (c.arg 0x18 8)) (c.word 0x20) rsv])))
    else s))

/-- The new position and epoch (R334). -/
def seekIngest (s : State) (st : Nat) (pos : DWord) (epoch : Word) (rsv : Option DWord) : State :=
  let g := getIngest s st
  match rsv with
  | some r => setIngest s st { g with pos := pos, epoch := epoch, rsvPos := r, rsvHead := (r >>> 32).setWidth 32, pool := [] }
  | none => setIngest s st { g with pos := pos, epoch := epoch }

/-! ## DICT_LOAD (R316, R317) -/

/-- The packet checks of DICT_LOAD. -/
def dictLoadPacket (s : State) (c : Cmd) : Option Err :=
  firstErr [anyField s c 0x10, anyField s c 0x12, need (decide (c.arg 0x14 1 ≤ 3)) (badParam 0x14 2), zeroField c 0x15 43]

/-- Entry `k` of a dictionary: its string and token id, where it lies inside the pool. -/
def dictEntry (b : Bytes) (count pool k : Nat) : Option (Bytes × Word) :=
  let o := 0x40 + 16 * k
  let off := field b (o + 4) 4
  let len := field b (o + 8) 1
  if 1 ≤ len ∧ len ≤ 64 ∧ off + len ≤ pool ∧ allZero (slice b (o + 9) 7) ∧ 256 ≤ field b o 4 then
    some (slice b (0x40 + 16 * count + off) len, BitVec.ofNat 32 (field b o 4))
  else none

/-- Whether no element comes twice. -/
def allDistinct {α : Type} [BEq α] : List α → Bool
  | [] => true
  | x :: t => !(t.contains x) && allDistinct t

/-- A dictionary read from its descriptor (R317): its entries, or nothing where a rule is broken. -/
def dictRead (s : State) (d : Desc) : Option (List (Bytes × Word)) :=
  let h := s.mem.readN d.home 64
  let count := field h 4 4
  let pool := field h 8 4
  let n := 0x40 + 16 * count + pool
  if slice h 0 4 == [0x46#8, 0x4C#8, 0x44#8, 0x54#8] && decide (1 ≤ count ∧ count ≤ 1048576) && decide (pool ≤ 2 ^ 26) &&
    allZero (slice h 12 52) && decide (n ≤ d.half) then
    let b := s.mem.readN d.home n
    let es := (List.range count).filterMap (dictEntry b count pool)
    if es.length = count ∧ allDistinct (es.map (·.2)) ∧ allDistinct (es.map (·.1)) then some es else none
  else none

/-- The checks of DICT_LOAD at issue. -/
def dictLoadIssue (s : State) (c : Cmd) : Option Err :=
  let d := readDesc s (c.arg 0x10 2)
  let x := readDesc s (c.arg 0x12 2)
  let used := s.spring.streams.any (fun e => e.2.opened && e.2.dict == c.arg 0x14 1)
  let count := leNat (s.mem.readN (d.home + 4) 4)
  firstErr [need (!used) (badParam 0 6), plainCheck s d.id 0x10, plainCheck s x.id 0x12, sizeCheck s d 64 0x10,
    need (dictRead s d != none) (badParam 0x10 2), sizeCheck s x (32 * count + 0x100000) 0x12,
    need (!overlaps (x.ranges s) (d.ranges s)) (badParam 0x12 4)]

/-- The work of DICT_LOAD: the index, whose form is S's own, and the slot. -/
def dictLoadRun (s : State) (c : Cmd) : Run :=
  let x := readDesc s (c.arg 0x12 2)
  match dictRead s (readDesc s (c.arg 0x10 2)) with
  | some es => Run.plain (succeeded 0 [.forget x.base x.extent, .dict (c.arg 0x14 1) (c.arg 0x10 2) (c.arg 0x12 2) es])
  | none => Run.fail (badParam 0x10 2)

/-- DICT_LOAD (R316). -/
def execDictLoad (cid : Nat) (s : State) : Ans :=
  .next (onWork s cid [0x0405] (fun c => if springUp s then applyRun s c (checked (dictLoadIssue s c) (dictLoadRun s c)) else s))

/-! ## INGEST_BATCH (R331) -/

/-- The packet checks of INGEST_BATCH. -/
def ingestBatchPacket (_ : State) (c : Cmd) : Option Err :=
  firstErr [need (decide (c.arg 0x10 1 ≤ 15)) (badParam 0x10 2), zeroField c 0x11 7, need (decide (c.arg 0x18 4 ≤ 2 ^ 24)) (badParam 0x18 2),
    zeroField c 0x1C 4, zeroField c 0x28 24]

/-- Descriptors of a stream's outputs, masks and manifests in queue slot `j` (R322). -/
def slotDescs (cfg : Bytes) (j : Nat) : List Nat :=
  (field cfg 0x14 2 + j) :: (List.range (cOutputs cfg)).flatMap (fun i =>
    (oe cfg i 4 2 + j) :: (if oe cfg i 6 2 = 0 then [] else [oe cfg i 6 2 + j]))

/-- The stream must be open, and at first dispatch first_batch its next batch (R331, R341); what the command writes must
still lie in mapped spans (R231). -/
def ingestBatchIssue (s : State) (c : Cmd) : Option Err :=
  let g := getIngest s (c.arg 0x10 1)
  firstErr [need g.opened (badParam 0 6), need (c.holds || c.rerun || g.batch == c.arg 0x20 8) (badParam 0 6),
    need (c.holds || ((List.range (cQ g.cfg)).flatMap (slotDescs g.cfg)).all (fun i => (readDesc s i).placed s)) (badParam 0x10 3)]

/-- INGEST_BATCH (R331): a count of 0 ends at once; otherwise the command runs and batches are assembled. -/
def execIngestBatch (cid : Nat) (s : State) : Ans :=
  .next (onWork s cid [0x0402] (fun c =>
    if springUp s then
      match ingestBatchIssue s c with
      | some e => complete s c e 0
      | none => if c.arg 0x18 4 = 0 then finishWork s c zeroExtent else putCmd s { c with holds := true }
    else s))

/-- The running INGEST_BATCH of a stream. -/
def batchCmd (s : State) (st : Nat) : Option Cmd :=
  s.cmds.find? (fun c => c.opcode == 0x0402 && c.stage == .dispatched && c.holds && c.arg 0x10 1 == st)

/-- Slots filled with a sample, original or reserve (R331). -/
def filledSlots (l : List BatchSlot) : Nat := (l.filter (fun x => x.done && !bit x.sflags 1)).length

/-- The batch in assembly discarded (R339-R341): the position goes back, reserve samples return to the head of the pool. -/
def discardAsm (g : Ingest) : Ingest :=
  match g.asm with
  | some a => { g with asm := none, pos := a.firstPos, pool := a.rsvTaken ++ g.pool }
  | none => g

/-- An INGEST_BATCH fails: its batch in assembly is discarded. -/
def failBatch (s : State) (st : Nat) (e : Err) : State :=
  let s1 := setIngest s st (discardAsm (getIngest s st))
  match batchCmd s st with
  | some c => complete s1 c e ((c.result.map (·.work)).getD 0)
  | none => s1

/-! ## Assembly (R330) -/

/-- Every range that a batch in queue slot `j` writes. -/
def batchRanges (s : State) (cfg : Bytes) (j : Nat) : List (Nat × Nat) :=
  (slotDescs cfg j).map (fun id => ((readDesc s id).base, (readDesc s id).half))

/-- BATCH_ASSEMBLY_START (R330): a command runs, the queue slot is free and the previous batch has committed. -/
def execBatchAssemblyStart (stream : Nat) (s : State) : Ans :=
  let g := getIngest s stream
  let start : State :=
    match batchCmd s stream with
    | some c =>
      if springUp s && g.opened && g.asm == none && !mhas g.held (g.batch % max (cQ g.cfg) 1) then
        setIngest (forgetAll (batchRanges s g.cfg (g.batch % max (cQ g.cfg) 1)) s) stream
          { g with asm := some { cid := c.cid, batch := g.batch, firstPos := g.pos, rsvTaken := [], slots := [] } }
      else s
    | none => s
  onUnit (decide (stream < 16)) "stream" stream start

/-- Entries of a ring that software has written beyond a position (R310, R311). -/
def entryReady (tail : Word) (pos : DWord) : Bool :=
  let d := (tail - (pos >>> 32).setWidth 32).toNat
  decide (0 < d ∧ d < 2 ^ 31)

/-- A position: entry count and byte offset (R311). -/
def mkPos (count off : Nat) : DWord := BitVec.ofNat 64 ((count % 2 ^ 32) * 2 ^ 32 + off)

/-- The ring entry at a position (R310): address of its bytes and length, or nothing where it is malformed (R311). -/
def ringEntry (s : State) (ring log2 : Nat) (pos : DWord) : Option (Nat × Nat) × Nat :=
  let d := readDesc s ring
  let b := s.mem.readN (d.home + 32 * ((pos.toNat / 2 ^ 32) % 2 ^ log2)) 32
  let x := readDesc s (field b 0 2)
  let len := field b 0x10 8
  let ok := allZero (slice b 2 6) && allZero (slice b 0x18 8) && x.id != 0 && decide (x.id ≤ s.job.descCount) && !x.compressed &&
    field b 8 8 % 8 == 0 && len % 8 == 0 && decide (len < 2 ^ 32) && decide (field b 8 8 + len ≤ x.half)
  (if ok then some (x.home + field b 8 8, len) else none, len)

/-- What the next record of a ring is: nothing yet; an exhausted entry; a framing loss with the bytes abandoned; a record
with the position behind it. -/
inductive NextRecord where
  | empty
  | skip (pos : DWord)
  | framing (pos : DWord) (lost : Nat)
  | bad (reason : Nat) (id : DWord) (pos : DWord)
  | good (r : Record) (pos : DWord)
  deriving DecidableEq, Repr

/-- The next record at a position (R311, R315); a position behind an entry's last record is the next entry's start. -/
def nextRecord (s : State) (ring log2 : Nat) (tail : Word) (pos : DWord) : NextRecord :=
  let count := pos.toNat / 2 ^ 32
  let off := pos.toNat % 2 ^ 32
  let after (len total : Nat) : DWord := if total ≤ off + len then mkPos (count + 1) 0 else mkPos count (off + len)
  if !entryReady tail pos then .empty
  else
    match ringEntry s ring log2 pos with
    | (none, len) => .framing (mkPos (count + 1) 0) (len - off)
    | (some (a, total), _) =>
      if total ≤ off then .skip (mkPos (count + 1) 0)
      else
        match readRecord s.mem (a + off) (total - off) with
        | .framing => .framing (mkPos (count + 1) 0) (total - off)
        | .bad r id len => .bad r id (after len total)
        | .good r len => .good r (after len total)

/-- Bytes abandoned after a framing loss (R315). -/
def Ingest.lose (g : Ingest) (n : Nat) : Ingest := { g with frameLoss := true, skipBytes := g.skipBytes + n }

/-- Whether a reason counts in SCORRUPT (R342). -/
def corrupts (reason : Nat) : Bool := [1, 2, 3, 4, 7, 8].contains reason

/-- A failed record counted. -/
def Ingest.corrupt (g : Ingest) (reason : Nat) : Ingest :=
  if corrupts reason then { g with scorrupt := satAdd 32 g.scorrupt 1 } else g

/-! ## Slots and replacement (R336) -/

/-- The queue slot of the batch in assembly. -/
def queueSlot (g : Ingest) : Nat := g.batch % max (cQ g.cfg) 1

/-- The format of output `i`'s descriptor. -/
def outFmt (s : State) (g : Ingest) (i : Nat) : Nat := (readDesc s (oe g.cfg i 4 2 + queueSlot g)).fmt

/-- Every output padded and masked 0. -/
def padAll (s : State) (g : Ingest) : List (Nat × Bytes × Bytes) :=
  (List.range (cOutputs g.cfg)).map (fun i => (i, padOutput g.cfg s.freeCtr (outFmt s g i) i))

/-- The slot `k` of a batch changed. -/
def setSlot (l : List BatchSlot) (k : Nat) (v : BatchSlot) : List BatchSlot := l.set k v

/-- SAMPLE_REPLACE (R336): slot `k` takes the head of the reserve pool, or is padded. -/
def replaceSlot (s : State) (g0 : Ingest) (a : Assembly) (k reason : Nat) : Ingest :=
  let g := g0.corrupt reason
  match a.slots[k]? with
  | none => g
  | some v =>
    let base := { v with reason := reason, fields := [], done := true, docs := 1 }
    match g.pool with
    | p :: t =>
      let w := { base with
        replId := p.id, outputs := p.outputs, profile := p.profile, sat := p.sat
        sflags := 1 + (if p.profile = 0 then 0 else 4) + (if p.truncated then 8 else 0) }
      { g with
        pool := t, srepl := satAdd 32 g.srepl 1
        asm := some { a with rsvTaken := a.rsvTaken ++ [p], slots := setSlot a.slots k w } }
    | [] =>
      let w := { base with outputs := padAll s g, profile := 0, sat := 0, sflags := 2 }
      { g with
        srepl := satAdd 32 g.srepl 1, spad := satAdd 32 g.spad 1, reserveEmpty := true
        asm := some { a with slots := setSlot a.slots k w } }

/-- What one output takes of a record: its bytes, mask and truncated bit; a decoder lane; or the reason it fails. -/
inductive OutFill where
  | ready (data mask : Bytes) (cut : Bool)
  | lane (cls bytes : Nat)
  | fail (reason : Nat)
  deriving DecidableEq, Repr

/-- The entries of the dictionary slot of a stream. -/
def dictOf (s : State) (g : Ingest) : List (Bytes × Word) := (mget { desc := 0, index := 0, entries := [] } s.spring.dicts g.dict).entries

/-- What output `i` takes of a record (R323, R329, R336). -/
def fillOutput (s : State) (g : Ingest) (r : Record) (i : Nat) : OutFill :=
  let k := oKind g.cfg i
  let fmt := outFmt s g i
  let absent : OutFill :=
    if bit (oe g.cfg i 3 1) 0 then .fail 7
    else
      let p := padOutput g.cfg s.freeCtr fmt i
      .ready p.1 p.2 false
  match r.pick k (oe g.cfg i 1 1) with
  | none => absent
  | some f =>
    if f.len = 0 then absent
    else if k = 2 ∨ k = 3 ∨ k = 4 then
      match codecClass k f.codec with
      | some c => .lane c f.len
      | none => .fail 3
    else if f.codec ≠ 0 then .fail 3
    else if k = 1 then
      let t := textOutput g.cfg i (dictOf s g) f.data
      .ready t.1 t.2.1 t.2.2
    else
      match (if k = 6 then labelOutput g.cfg i f.data else rawOutput g.cfg i fmt s.freeCtr f.data) with
      | .ok p => .ready p.1 p.2 false
      | .error e => .fail e

/-- The first failing output of a list. -/
def firstFail : List (Nat × OutFill) → Option Nat
  | [] => none
  | (_, .fail r) :: _ => some r
  | _ :: t => firstFail t

/-- The outputs that are ready. -/
def readyOuts : List (Nat × OutFill) → List (Nat × Bytes × Bytes)
  | [] => []
  | (i, .ready d m _) :: t => (i, d, m) :: readyOuts t
  | _ :: t => readyOuts t

/-- The fields that take lanes. -/
def laneOuts : List (Nat × OutFill) → List LaneField
  | [] => []
  | (i, .lane c n) :: t => { output := i, expiries := 0, codec := c, bytes := n } :: laneOuts t
  | _ :: t => laneOuts t

/-- Whether any output was cut. -/
def cutOuts (l : List (Nat × OutFill)) : Bool :=
  l.any (fun e => match e.2 with
    | .ready _ _ c => c
    | _ => false)

/-- An empty slot for the record at a position. -/
def freshSlot (id pos : DWord) : BatchSlot :=
  { sampleId := id, replId := BitVec.allOnes 64, reason := 0, sflags := 0, profile := 0, docs := 0, position := pos, fields := [],
    outputs := [], sat := 0, done := false }

/-- A record goes into the next slot (mode 0). -/
def slotRecord (s : State) (g : Ingest) (a : Assembly) (pos : DWord) (r : Record) : Ingest :=
  let fills := (List.range (cOutputs g.cfg)).map (fun i => (i, fillOutput s g r i))
  let lanes := laneOuts fills
  let v := { freshSlot r.id pos with
    docs := 1, fields := lanes, outputs := readyOuts fills, sflags := if cutOuts fills then 8 else 0, done := lanes.isEmpty }
  let a1 := { a with slots := a.slots ++ [v] }
  match firstFail fills with
  | some e => replaceSlot s g a1 a.slots.length e
  | none => { g with asm := some a1 }

/-- A record that failed its checks takes the next slot and is replaced (mode 0). -/
def slotFailure (s : State) (g : Ingest) (a : Assembly) (pos id : DWord) (reason : Nat) : Ingest :=
  replaceSlot s g { a with slots := a.slots ++ [freshSlot id pos] } a.slots.length reason

/-! ## Packed text (R329) -/

/-- The slot that is being packed with its number; a new one where the last is closed. -/
def packingSlot (a : Assembly) (pos : DWord) : Nat × BatchSlot :=
  match a.slots.getLast? with
  | some v => if v.done then (a.slots.length, freshSlot (BitVec.allOnes 64) pos) else (a.slots.length - 1, v)
  | none => (0, freshSlot (BitVec.allOnes 64) pos)

/-- The slots with slot `k` replaced or added. -/
def putSlot (l : List BatchSlot) (k : Nat) (v : BatchSlot) : List BatchSlot := if k < l.length then l.set k v else l ++ [v]

/-- The tokens and ordinals of a slot. -/
def packed (v : BatchSlot) : Bytes × Bytes := (v.outputs.headD (0, [], [])).2

/-- A packed slot closed: padded behind its documents. -/
def closeSlot (cfg : Bytes) (v : BatchSlot) : BatchSlot :=
  let l := oLen cfg 0
  let t := packed v
  { v with
    outputs := [(0, t.1 ++ (List.range (l - t.1.length / 4)).flatMap (fun _ => slice cfg 0x24 4), slice t.2 0 (2 * l))]
    done := true }

/-- A document of `t` tokens placed behind a slot's others, cut to L. -/
def addDoc (cfg : Bytes) (v : BatchSlot) (id pos : DWord) (t : List Word) : BatchSlot :=
  let l := oLen cfg 0
  let o := packed v
  let n := min t.length l
  let w := { v with
    outputs := [(0, o.1 ++ wordsLe (t.take l), o.2 ++ (List.range n).flatMap (fun _ => toLe 2 (v.docs + 1)))]
    docs := v.docs + 1, sampleId := if v.docs = 0 then id else v.sampleId, position := if v.docs = 0 then pos else v.position
    sflags := if l < t.length then v.sflags ||| 8 else v.sflags }
  if (o.1.length / 4 + n) = l then closeSlot cfg w else w

/-- A document meets the packing (R329): it is placed, or it closes the slot and waits for the next one. `next` is the
position behind it. -/
def packDoc (g : Ingest) (a : Assembly) (id pos next : DWord) (t : List Word) : Ingest :=
  let p := packingSlot a pos
  let used := (packed p.2).1.length / 4
  if t.length ≤ oLen g.cfg 0 - used ∨ used = 0 then
    { g with pos := next, asm := some { a with slots := putSlot a.slots p.1 (addDoc g.cfg p.2 id pos t) } }
  else { g with asm := some { a with slots := putSlot a.slots p.1 (closeSlot g.cfg p.2) } }

/-- A failing document is dropped (R336). -/
def dropDoc (g : Ingest) (a : Assembly) (pos next : DWord) (reason : Nat) : Ingest :=
  let p := packingSlot a pos
  { g.corrupt reason with
    pos := next, asm := some { a with slots := putSlot a.slots p.1 { p.2 with sflags := p.2.sflags ||| 16 } } }

/-- A record meets the packing. -/
def packRecord (s : State) (g : Ingest) (a : Assembly) (pos next : DWord) (r : Record) : Ingest :=
  match r.pick 1 (oe g.cfg 0 1 1) with
  | some f =>
    if f.len = 0 then (if bit (oe g.cfg 0 3 1) 0 then dropDoc g a pos next 7 else { g with pos := next })
    else if f.codec ≠ 0 then dropDoc g a pos next 3
    else packDoc g a r.id pos next (wrapped g.cfg (tokenise (dictOf s g) f.data))
  | none => if bit (oe g.cfg 0 3 1) 0 then dropDoc g a pos next 7 else { g with pos := next }

/-! ## RECORD_READ, FIELD_DECODE_DONE, expiries -/

/-- Whether every slot of a batch has its record and is filled. -/
def asmFull (g : Ingest) (a : Assembly) : Bool := a.slots.length == cB g.cfg && a.slots.all (·.done)

/-- Whether the batch still takes records. -/
def asmHungry (g : Ingest) (a : Assembly) : Bool :=
  decide (a.slots.length < cB g.cfg) || (cPacked g.cfg && a.slots.any (fun v => !v.done))

/-- The stream after its next record is read. -/
def readStep (s : State) (g : Ingest) (a : Assembly) : Ingest :=
  let packed := cPacked g.cfg
  let lost := BitVec.allOnes 64
  match nextRecord s g.src (field g.cfg 0x1A 1) g.srcTail g.pos with
  | .empty => { g with sourceEmpty := true }
  | .skip p => { g with pos := p }
  | .framing p n =>
    if packed then dropDoc (g.lose n) a g.pos p 1 else { slotFailure s (g.lose n) a g.pos lost 1 with pos := p }
  | .bad r id p => if packed then dropDoc g a g.pos p r else { slotFailure s g a g.pos id r with pos := p }
  | .good r p => if packed then packRecord s g a g.pos p r else { slotRecord s g a g.pos r with pos := p }

/-- RECORD_READ (R311, R315). -/
def execRecordRead (stream : Nat) (s : State) : Ans :=
  let g := getIngest s stream
  let t : State :=
    match g.asm with
    | some a => if springUp s && asmHungry g a then tickFree (setIngest s stream (readStep s g a)) else s
    | none => s
  onUnit (decide (stream < 16)) "stream" stream t

/-- The field of a slot that a lane decodes for an output. -/
def laneField (g : Ingest) (slot output : Nat) : Option (Assembly × BatchSlot × LaneField) :=
  match g.asm with
  | some a =>
    match a.slots[slot]? with
    | some v => (v.fields.find? (fun f => f.output == output)).map (fun f => (a, v, f))
    | none => none
  | none => none

/-- SMEAN moved by a full-profile decode (R338), in 1/256 cycle; the rounding is open. -/
def newMean (s : State) (mean cycles units : Nat) : Nat :=
  let n := 63 * mean * units + 256 * cycles
  let q := n / (64 * units)
  if n % (64 * units) = 0 then q else q + Config.freePick s.freeCtr % 2

/-- The running mean of a class after a field. -/
def meanStep (s : State) (f : LaneField) (m : Media) (cycles : Nat) : State :=
  let u := mediaUnits f.bytes m
  if f.expiries = 0 ∧ u ≠ 0 then
    { s with spring := { s.spring with means := mput s.spring.means f.codec (newMean s (mget 0 s.spring.means f.codec) cycles u) } }
  else s

/-- An output of a slot is prepared. -/
def fieldReady (g : Ingest) (a : Assembly) (slot : Nat) (v : BatchSlot) (f : LaneField) (r : Bytes × Bytes × Nat) : Ingest :=
  let fields := v.fields.filter (fun x => x.output != f.output)
  let w := { v with
    fields := fields, outputs := mput v.outputs f.output (r.1, r.2.1), sat := v.sat + r.2.2, done := fields.isEmpty }
  { g with asm := some { a with slots := setSlot a.slots slot w } }

/-- FIELD_DECODE_DONE (R320, R326-R328, R338). -/
def execFieldDecodeDone (stream slot output : Nat) (media : Media) (cycles : Nat) (s : State) : Ans :=
  let g := getIngest s stream
  let t : State :=
    match laneField g slot output with
    | some (a, v, f) =>
      if springUp s then
        match prepareMedia g.cfg output s.freeCtr v.sampleId g.epoch g.seed media with
        | .ok r => tickFree (setIngest (meanStep s f media cycles) stream (fieldReady g a slot v f r))
        | .error e => tickFree (setIngest s stream (replaceSlot s g a slot e))
      else s
    | none => s
  onUnit (decide (stream < 16)) "stream" stream t

/-- The stream after a budget expiry (R338): a cheaper profile, or a replacement with reason 5. -/
def expiryStep (s : State) (g0 : Ingest) (a : Assembly) (slot : Nat) (v : BatchSlot) (f : LaneField) : Ingest :=
  let g := { g0 with sexpire := satAdd 32 g0.sexpire 1 }
  match (if f.expiries = 0 then cheapBit f.codec else none) with
  | some b =>
    let w := { v with
      fields := v.fields.map (fun x => if x.output = f.output then { x with expiries := 1 } else x)
      sflags := v.sflags ||| 4, profile := v.profile ||| b }
    { g with scheap := satAdd 32 g.scheap 1, asm := some { a with slots := setSlot a.slots slot w } }
  | none => replaceSlot s g a slot 5

/-- DECODE_BUDGET_EXPIRY (R338). -/
def execDecodeBudgetExpiry (stream slot output : Nat) (s : State) : Ans :=
  let g := getIngest s stream
  let t : State :=
    match laneField g slot output with
    | some (a, v, f) => if springUp s then tickFree (setIngest s stream (expiryStep s g a slot v f)) else s
    | none => s
  onUnit (decide (stream < 16)) "stream" stream t

/-! ## BATCH_DEADLINE and BATCH_COMMIT -/

/-- Every slot still in decode replaced with reason 6 (R339). -/
def replaceLate (s : State) : List Nat → Ingest → Ingest
  | [], g => g
  | k :: t, g =>
    match g.asm with
    | some a =>
      match a.slots[k]? with
      | some v => replaceLate s t (if v.fields.isEmpty then g else replaceSlot s g a k 6)
      | none => g
    | none => g

/-- The last slot of a packed batch closed at the deadline. -/
def closeLast (g : Ingest) : Ingest :=
  match g.asm with
  | some a =>
    if cPacked g.cfg && a.slots.length == cB g.cfg then
      { g with asm := some { a with slots := a.slots.map (fun v => if v.done then v else closeSlot g.cfg v) } }
    else g
  | none => g

/-- BATCH_DEADLINE (R339): late slots are replaced; an empty source fails the batch. -/
def execBatchDeadline (stream : Nat) (s : State) : Ans :=
  let g := getIngest s stream
  let t : State :=
    match g.asm with
    | some a =>
      if springUp s then
        let g1 := closeLast (replaceLate s (List.range a.slots.length) g)
        let s1 := tickFree (setIngest s stream g1)
        let short := decide (a.slots.length < cB g.cfg) && !entryReady g.srcTail g.pos
        if short then failBatch s1 stream (ingestStarved stream (((g1.asm.map (fun x => filledSlots x.slots))).getD 0)) else s1
      else s
    | none => s
  onUnit (decide (stream < 16)) "stream" stream t

/-- Writes of one slot's bytes into an output: whole where the format is unscaled, block by block where it is scaled. -/
def slotWrites (cfg : Bytes) (i fmt base slot : Nat) (data : Bytes) : List (Nat × Bytes) :=
  if !oIndex cfg i && isScaled fmt then
    let nb := ceilDiv (oLen cfg i) (blockLen fmt)
    let n := scaleBytes fmt + blockBytes fmt
    let h := if fmt = 6 then 64 else 0
    (List.range nb).flatMap (fun k =>
      [(base + h + scaleOff fmt (slot * nb + k), slice data (n * k) (scaleBytes fmt)),
       (base + h + codesOff fmt (slot * nb + k), slice data (n * k + scaleBytes fmt) (blockBytes fmt))])
  else [(base + slot * data.length, data)]

/-- Every write of a batch's outputs and masks. -/
def batchWrites (s : State) (g : Ingest) (slots : List BatchSlot) : List (Nat × Bytes) :=
  let j := queueSlot g
  (slots.zip (List.range slots.length)).flatMap (fun v => v.1.outputs.flatMap (fun o =>
    let d := readDesc s (oe g.cfg o.1 4 2 + j)
    let m := oe g.cfg o.1 6 2
    slotWrites g.cfg o.1 d.fmt d.base v.2 o.2.1 ++
      (if m = 0 then [] else [((readDesc s (m + j)).base + v.2 * o.2.2.length, o.2.2)])))

/-- Slots with a bit of sflags. -/
def flagged (slots : List BatchSlot) (b : Nat) : Nat := (slots.filter (fun v => bit v.sflags b)).length

/-- The manifest of a batch (R335). -/
def manifest (stream : Nat) (g : Ingest) (a : Assembly) : Bytes :=
  [0x46#8, 0x4C#8, 0x44#8, 0x42#8] ++ toLe 1 1 ++ toLe 1 stream ++ toLe 2 0 ++ toLe 8 a.batch ++ toLe 4 a.slots.length ++
  toLe 4 (flagged a.slots 0) ++ toLe 4 (flagged a.slots 1) ++ toLe 4 (flagged a.slots 2) ++ toLe 8 a.firstPos.toNat ++
  toLe 8 g.pos.toNat ++ toLe 4 g.epoch.toNat ++ toLe 12 0 ++
  a.slots.flatMap (fun v => toLe 8 v.sampleId.toNat ++ toLe 8 v.replId.toNat ++ toLe 1 v.reason ++ toLe 1 v.sflags ++
    toLe 1 v.profile ++ toLe 1 0 ++ toLe 2 v.docs ++ toLe 2 0 ++ toLe 8 v.position.toNat)

/-- Runs of bytes written to device memory. -/
def putAll : List (Nat × Bytes) → State → State
  | [], s => s
  | w :: t, s => putAll t (hbmWrite s w.1 w.2)

/-- The notes of a batch (R331, R68). -/
def batchNotes (slots : List BatchSlot) : Nat :=
  (if flagged slots 0 + flagged slots 1 = 0 then 0 else 4) + (if flagged slots 2 = 0 then 0 else 8) +
  satNote ((slots.map (·.sat)).sum)

/-- Saturations under no tag enter the module's total (R68, R148). -/
def countSat (s : State) (n : Nat) : State :=
  let t := getCounts s 0
  if n = 0 then s else setCounts s 0 { t with sat := satAdd 32 t.sat n }

/-- The command after one more batch: its reply follows the last one (R48). -/
def batchDone (s : State) (c : Cmd) (notes work : Nat) : State :=
  let w := (c.result.map (·.work)).getD 0 + work
  let c1 := { c with notes := c.notes ||| notes, batches := c.batches + 1, result := some (succeeded w []) }
  if c1.batches = c.arg 0x18 4 ∧ !s.ctl.noMainClock then replyAct s c1 (finalStatus c1 okStatus) w else putCmd s c1

/-- A batch committed (R330, R48): data, manifest, the ready counter, the command's own counter. While K has no main clock
the signals and the reply stay held (R255). -/
def commitBatch (s : State) (stream : Nat) (g : Ingest) (a : Assembly) (c : Cmd) : State :=
  let j := queueSlot g
  let man := readDesc s (field g.cfg 0x14 2 + j)
  let s1 := putAll (batchWrites s g a.slots ++ [(man.base, manifest stream g a)]) s
  let s2 := setIngest s1 stream { g with
    asm := none, batch := g.batch + 1, held := mput g.held j a.batch, srcHead := (g.pos >>> 32).setWidth 32 }
  let s3 := countSat s2 ((a.slots.map (·.sat)).sum)
  let s4 := if s.ctl.noMainClock then s3
    else addTokens (addTokens s3 c.q (field g.cfg 0xC 2 + j) 1) c.q c.signal (c.sigInc + 1)
  batchDone s4 c (batchNotes a.slots) (filledSlots a.slots)

/-- BATCH_COMMIT (R330). -/
def execBatchCommit (stream : Nat) (s : State) : Ans :=
  let g := getIngest s stream
  let t : State :=
    match g.asm, batchCmd s stream with
    | some a, some c => if springUp s && asmFull g a then commitBatch s stream g a c else s
    | _, _ => s
  onUnit (decide (stream < 16)) "stream" stream t

/-! ## The reserve pool (R337) -/

/-- What the lanes delivered for a field of a reserve record; a field that nothing came for has used up its budgets. -/
def laneResult (media : List ReserveField) (f : LaneField) : ReserveField :=
  (media.find? (fun m => m.output == f.output)).getD { output := f.output, media := .bad 4, cycles := 0, expiries := 2 }

/-- The fills of a reserve record's outputs. -/
def reserveFills (s : State) (g : Ingest) (r : Record) : List (Nat × OutFill) :=
  (List.range (cOutputs g.cfg)).map (fun i => (i, fillOutput s g r i))

/-- Whether a field's decode ended: in its first budget, or in the second with the cheaper profile of its class (R338). -/
def laneEnds (m : ReserveField) (f : LaneField) : Bool := decide (m.expiries = 0) || (decide (m.expiries = 1) && (cheapBit f.codec).isSome)

/-- The budgets that expired for a field: at most two, and one for a class without a cheaper profile. -/
def laneExpiries (m : ReserveField) (f : LaneField) : Nat := min m.expiries (if (cheapBit f.codec).isSome then 2 else 1)

/-- The profile bit of a field that its cheaper profile was used for. -/
def laneProfile (m : ReserveField) (f : LaneField) : Nat := if m.expiries = 0 then 0 else (cheapBit f.codec).getD 0

/-- A reserve sample from a record and what its lanes delivered. -/
def reserveSample (s : State) (g : Ingest) (r : Record) (media : List ReserveField) : Except Nat Sample :=
  let fills := reserveFills s g r
  let lanes := laneOuts fills
  let prep := lanes.map (fun f => (f.output,
    if laneEnds (laneResult media f) f then prepareMedia g.cfg f.output s.freeCtr r.id g.epoch g.seed (laneResult media f).media
    else .error 5))
  match firstFail fills with
  | some e => .error e
  | none =>
    match prep.findSome? (fun p => match p.2 with
      | .error e => some e
      | .ok _ => none) with
    | some e => .error e
    | none =>
      let done := prep.filterMap (fun p => match p.2 with
        | .ok v => some (p.1, v)
        | .error _ => none)
      .ok { id := r.id, outputs := done.foldl (fun o e => mput o e.1 (e.2.1, e.2.2.1)) (readyOuts fills),
            profile := lanes.foldl (fun n f => n ||| laneProfile (laneResult media f) f) 0
            truncated := cutOuts fills, sat := (done.map (fun e => e.2.2.2)).sum }

/-- The budget expiries and the cheaper profiles of a reserve record's fields, counted (R338, R342). -/
def countLanes (g : Ingest) (media : List ReserveField) (lanes : List LaneField) : Ingest :=
  { g with
    sexpire := satAdd 32 g.sexpire ((lanes.map (fun f => laneExpiries (laneResult media f) f)).sum)
    scheap := satAdd 32 g.scheap ((lanes.filter (fun f => laneProfile (laneResult media f) f != 0)).length) }

/-- The class means moved by the full-profile decodes of a reserve record that completed (R338). -/
def laneMeans (media : List ReserveField) : List LaneField → State → State
  | [], s => s
  | f :: t, s =>
    let m := laneResult media f
    laneMeans media t (if m.expiries = 0 then meanStep s f m.media m.cycles else s)

/-- The stream after one reserve record. -/
def refillStep (s : State) (g : Ingest) (media : List ReserveField) : Ingest :=
  let goTo (g : Ingest) (p : DWord) : Ingest := { g with rsvPos := p, rsvHead := (p >>> 32).setWidth 32 }
  match nextRecord s g.rsv (field g.cfg 0x1B 1) g.rsvTail g.rsvPos with
  | .empty => g
  | .skip p => goTo g p
  | .framing p n => goTo ((g.lose n).corrupt 1) p
  | .bad r _ p => goTo (g.corrupt r) p
  | .good r p =>
    let g1 := countLanes g media (laneOuts (reserveFills s g r))
    match reserveSample s g r media with
    | .ok x => { goTo g1 p with pool := g.pool ++ [x] }
    | .error e => goTo (g1.corrupt e) p

/-- The class means after one reserve record. -/
def refillMeans (s : State) (g : Ingest) (media : List ReserveField) : State :=
  match nextRecord s g.rsv (field g.cfg 0x1B 1) g.rsvTail g.rsvPos with
  | .good r _ => laneMeans media (laneOuts (reserveFills s g r)) s
  | _ => s

/-- RESERVE_REFILL (R337): the pool's place in HBM is in S's own order. -/
def execReserveRefill (stream : Nat) (media : List ReserveField) (s : State) : Ans :=
  let g := getIngest s stream
  let t : State :=
    if springUp s && g.opened && g.rsv != 0 && decide (g.pool.length < field g.cfg 0x16 2) then
      let d := readDesc s (field g.cfg 0x18 2)
      setIngest (hbmForget (refillMeans s g media) d.home d.half) stream (refillStep s g media)
    else s
  onUnit (decide (stream < 16)) "stream" stream t

/-! ## Decoder shares, tails, rejoin (R257, R310, R320) -/

/-- The share a stream has or will have. -/
def shareOf (g : Ingest) : Nat := (g.pendShare.getD g.share).toNat % 256

/-- A write of SDSHARE (R320, R342). -/
def sdshareSet (s : State) (stream : Nat) (v : Word) : State :=
  let sum := ((List.range 16).map (fun k => if k = stream then v.toNat % 256 else shareOf (getIngest s k))).sum
  if sum ≤ 256 then setIngest s stream { getIngest s stream with pendShare := some (v &&& 0xFF#32) }
  else { s with spring := { s.spring with shareRefused := true } }

/-- SDSHARE_WRITE (R320). -/
def execSdshareWrite (src : Source) (stream : Nat) (v : Word) (s : State) : Ans :=
  onUnit (decide (stream < 16)) "stream" stream (if sourceUp s src && springUp s then sdshareSet s stream v else s)

/-- DECODER_WINDOW (R320): the written shares apply. -/
def execDecoderWindow (s : State) : Ans :=
  .next { s with spring := { s.spring with
    streams := s.spring.streams.map (fun e => (e.1, { e.2 with share := e.2.pendShare.getD e.2.share, pendShare := none })) } }

/-- A tail register set (R310). -/
def tailSet (s : State) (stream : Nat) (reserve : Bool) (v : Word) : State :=
  let g := getIngest s stream
  setIngest s stream (if reserve then { g with rsvTail := v } else { g with srcTail := v })

/-- SOURCE_TAIL_WRITE (R310). -/
def execSourceTailWrite (src : Source) (stream : Nat) (reserve : Bool) (v : Word) (s : State) : Ans :=
  onUnit (decide (stream < 16)) "stream" stream (if sourceUp s src && springUp s then tailSet s stream reserve v else s)

/-- Every batch in assembly discarded: it will be assembled again from its first record (R257, R341). -/
def discardAll (s : State) : State :=
  { s with spring := { s.spring with streams := s.spring.streams.map (fun e => (e.1, discardAsm e.2)) } }

/-- S_RESUME (R257). -/
def execSResume (s : State) : Ans := .next (if springUp s then discardAll s else s)

/-! ## Jobs and registers -/

/-- Every stream closed (END_JOB, R321). -/
def closeStreams : List Nat → State → State
  | [], s => s
  | n :: t, s => closeStreams t (closeIngest s n)

/-- LOAD_JOB: the counters cleared (R342), the class means loaded by firmware (R338). -/
def springLoad (s : State) : State :=
  { s with spring := { s.spring with
    means := (List.range 8).map (fun k => (k, Config.classMean k))
    streams := s.spring.streams.map (fun e => (e.1, { e.2 with
      srepl := 0, spad := 0, scheap := 0, scorrupt := 0, sexpire := 0, skipBytes := 0 })) } }

/-- SSTATE.state (R342). -/
def streamState (s : State) (st : Nat) : Nat :=
  let g := getIngest s st
  if !g.opened then 0
  else
    match g.asm with
    | some a => if asmHungry g a && !entryReady g.srcTail g.pos then 3 else 2
    | none => if batchCmd s st == none then 1 else if mhas g.held (queueSlot g) then 3 else 2

/-- SALARM. -/
def alarms (g : Ingest) : Nat := b2n g.lowWater + 2 * b2n g.sourceEmpty + 4 * b2n g.reserveEmpty + 8 * b2n g.frameLoss

/-- The 4 bytes of the S register block at `off` (R342). -/
def springWord (s : State) (off : Nat) : Nat :=
  if off = 0 then maskOf ((List.range 16).filter (fun k => (getIngest s k).opened)) + 0x10000 * b2n s.spring.shareRefused
  else if off = 4 then maskOf ((List.range 4).filter (fun k => mhas s.spring.dicts k))
  else if 0x40 ≤ off ∧ off < 0x60 then (mget 0 s.spring.means ((off - 0x40) / 4)) % 2 ^ 32
  else if 0x400 ≤ off ∧ off < 0x800 then
    let st := (off - 0x400) / 0x40
    let g := getIngest s st
    match (off - 0x400) % 0x40 with
    | 0x00 => streamState s st * 2 ^ 30 + g.held.length * 2 ^ 23 + (if g.opened then queueSlot g else 0) * 2 ^ 16 + g.pool.length
    | 0x04 => alarms g
    | 0x08 => g.srcTail.toNat
    | 0x0C => g.srcHead.toNat
    | 0x10 => g.rsvTail.toNat
    | 0x14 => g.rsvHead.toNat
    | 0x18 => shareOf g
    | 0x20 => g.batch % 2 ^ 32
    | 0x24 => g.batch / 2 ^ 32
    | 0x28 => g.srepl
    | 0x2C => g.spad
    | 0x30 => g.scheap
    | 0x34 => g.scorrupt
    | 0x38 => g.sexpire
    | 0x3C => min (g.skipBytes / 1024) (2 ^ 32 - 1)
    | _ => 0
  else 0

/-- A 4-byte write to the S register block (R342). -/
def springWrite (s : State) (off : Nat) (v : Word) : State :=
  if off = 0 then { s with spring := { s.spring with shareRefused := s.spring.shareRefused && !bit v.toNat 16 } }
  else if 0x400 ≤ off ∧ off < 0x800 then
    let st := (off - 0x400) / 0x40
    let g := getIngest s st
    match (off - 0x400) % 0x40 with
    | 0x04 => setIngest s st { g with
        lowWater := g.lowWater && !bit v.toNat 0, sourceEmpty := g.sourceEmpty && !bit v.toNat 1
        reserveEmpty := g.reserveEmpty && !bit v.toNat 2, frameLoss := g.frameLoss && !bit v.toNat 3 }
    | 0x08 => tailSet s st false v
    | 0x10 => tailSet s st true v
    | 0x18 => sdshareSet s st v
    | _ => s
  else s

end Sys2Proof.Machine
end

