-- ==== Sys2Proof/Machine/Links.lean ====
section
/-! DEFINITION. Birtis: routing of messages (R281, R282), the flit, credits and replay (R267-R270), training (R263-R265),
lane faults (R272-R275) and the loss of a port (R276, R296). -/

namespace Sys2Proof.Machine

/-! ## The route table in force (R281) -/

/-- The table that messages of phase epoch `e` follow. -/
def routeOf (s : State) (e : Nat) : Bytes :=
  if e = s.peers.epoch then s.peers.route.getD [] else (s.peers.oldRoute.getD (s.peers.route.getD []))

/-- The table in force. -/
def route (s : State) : Bytes := s.peers.route.getD []

/-- This module's rank; 0xFFFF_FFFF before the first table (R280). -/
def ownRank (s : State) : Nat := if s.peers.route = none then 0xFFFFFFFF else field (route s) 4 4

/-- Ring size along physical axis `a`. -/
def rtDim (r : Bytes) (a : Nat) : Nat := field r (8 + 2 * a) 2

/-- This module's position along physical axis `a`. -/
def rtCoord (r : Bytes) (a : Nat) : Nat := field r (0xE + 2 * a) 2

/-- The lattice id. -/
def rtLattice (r : Bytes) : Nat := field r 0x14 2

/-- The gateway ports. -/
def rtGateways (r : Bytes) : List Nat := (List.range 24).filter (fun p => bit (field r 0x18 4) p)

/-- The physical axes of logical axis `l`, in the order A, B, C. -/
def rtAxes (r : Bytes) (l : Nat) : List Nat := (List.range 3).filter (fun a => bit (field r (0x20 + l) 1) a)

/-- The share of logical axis `l` on port `p`, in 1/256. -/
def rtShare (r : Bytes) (p l : Nat) : Nat := field r (0x40 + 5 * p + l) 1

/-- The ports of a physical axis in the plus or minus direction (R260). -/
def axisPorts (a : Nat) (plus : Bool) : List Nat :=
  let b := 4 * a + (if plus then 0 else 2)
  [b, b + 1, b + 12, b + 13]

/-- The axis and direction of a port (R260). -/
def portAxis (p : Nat) : Nat × Bool := ((p % 12) / 4, decide (p % 4 < 2))

/-- The link die of a port: X0 is die 2, X1 is die 3. -/
def linkDie (p : Nat) : Nat := if p < 12 then 2 else 3

/-- Whether a port carries flits or is paused for a lane fault (R278). -/
def portUp (s : State) (p : Nat) : Bool := decide (2 ≤ (getPort s p).state)

/-- The direction of a message from position `a` to position `b` on a ring of `n` (R282). -/
def goesPlus (n a b : Nat) : Bool :=
  let plus := (b + n - a) % n
  let minus := (a + n - b) % n
  decide (plus < minus) || (plus == minus && a % 2 == 0)

/-- Where another module is, as far as the sender knows: its coordinates and lattice, or a direction on an axis. -/
inductive Where where
  | place (coords : List Nat) (lattice : Nat)
  | along (axis : Nat) (plus : Bool)
  | unknown
  deriving DecidableEq, Repr

/-- The port groups a message may take, best first (R282, R296): the shorter direction, the other one; the gateways for
another lattice; every port of the logical axis where the place is not known. -/
def groupsFor (r : Bytes) (laxis : Nat) (w : Where) : List (List Nat) :=
  match w with
  | .unknown => (rtAxes r laxis).flatMap (fun a => [axisPorts a true, axisPorts a false])
  | .along a plus => [axisPorts a plus, axisPorts a (!plus)]
  | .place cs lat =>
    if lat ≠ rtLattice r then [rtGateways r]
    else
      match (List.range 3).find? (fun a => cs.getD a 0 != rtCoord r a) with
      | some a =>
        let plus := goesPlus (rtDim r a) (rtCoord r a) (cs.getD a 0)
        [axisPorts a plus, axisPorts a (!plus)]
      | none => []

/-- Bytes queued on a port. -/
def queuedBytes (v : Port) : Nat := (v.txQueue.map (fun m => m.data.length - m.sent)).sum

/-- Whether port `p` is a better choice than `q` for a sender on compute die `d` (R282). -/
def betterPort (s : State) (d p q : Nat) : Bool :=
  let a := queuedBytes (getPort s p)
  let b := queuedBytes (getPort s q)
  decide (a < b) || (a == b && linkDie p == d + 2 && linkDie q != d + 2)

/-- The port of a group that a message leaves on. -/
def bestOf (s : State) (d : Nat) : List Nat → Option Nat
  | [] => none
  | p :: t =>
    match bestOf s d t with
    | none => if portUp s p then some p else none
    | some q => if portUp s p && (betterPort s d p q || !betterPort s d q p) then some p else some q

/-- The port that a message takes: the first group with an up port. -/
def choosePort (s : State) (d : Nat) (groups : List (List Nat)) : Option Nat := groups.findSome? (bestOf s d)

/-- The class header of R285. -/
def classHeader (dst src : Nat) (id spec : Word) : Bytes := toLe 4 dst ++ toLe 4 src ++ toLe 4 id.toNat ++ toLe 4 spec.toNat

/-- A message queued on a port. -/
def enqueueMsg (s : State) (p : Nat) (m : TxMsg) : State :=
  setPort s p { getPort s p with txQueue := (getPort s p).txQueue ++ [{ m with sent := 0, num := none }] }

/-- A message sent, from compute die `d`; nothing where no port of its groups is up (R296). -/
def sendTx (s : State) (d : Nat) (m : TxMsg) : Option State := (choosePort s d m.groups).map (fun p => enqueueMsg s p m)

/-- A message of a command: class, destination rank and where it is, level, id, spec, payload. -/
def txOf (s : State) (c : Cmd) (cls laxis dst : Nat) (w : Where) (level : Nat) (id spec : Word) (payload : Bytes) : TxMsg :=
  { cls := cls, phase := c.phase, laxis := laxis, cid := some c.cid, level := level,
    groups := groupsFor (routeOf s c.phase) laxis w, data := classHeader dst (ownRank s) id spec ++ payload, sent := 0,
    num := none }

/-- The port a LINK_LOST names where none was left: the first of the first group. -/
def lastPort (m : TxMsg) : Nat := (m.groups.headD []).headD 0

/-- The messages of a list sent in turn; the first that cannot leave ends the list (R296). -/
def sendAll (d : Nat) : List TxMsg → State → State × Option TxMsg
  | [], s => (s, none)
  | m :: t, s =>
    match sendTx s d m with
    | some s1 => sendAll d t s1
    | none => (s, some m)

/-! ## The loss of a port (R276, R296) -/

/-- A block message of the mirror that no port takes is lost: its mirror stays filling until it breaks (R308). -/
def lostBlock (s : State) (m : TxMsg) : State :=
  let slot := field m.data 8 4
  if m.cls = 3 ∧ slot < 256 ∧ mhas s.peers.mirrors slot then
    { s with peers := { s.peers with mirrors := mmod Mirror.reset s.peers.mirrors slot (fun x => { x with done := x.done - 1 }) } }
  else s

/-- A message that was incomplete on port `p` goes another way, or its command completes with LINK_LOST. -/
def rerouteMsg (p : Nat) (s : State) (m : TxMsg) : State :=
  match sendTx s (if p < 12 then 0 else 1) m with
  | some s1 => s1
  | none =>
    match m.cid.bind (findCmd s) with
    | some c => if c.inFlight then complete s c (linkLost p m.level) 0 else s
    | none => lostBlock s m

/-- A port is down (R276): what it held is gone, and its messages are sent again elsewhere. -/
def portLost (s : State) (p : Nat) : State :=
  let v := getPort s p
  let s1 := setPort s p { v with
    state := 0, gen := 0, width := 0, wentDown := true, planes := [], nextSeq := 0, replay := [], resendFrom := none,
    resends := 0, lastRewind := none, credits := [], expect := 0, accepted := none, sendNak := false, txQueue := [],
    txMsg := [], rx := [], owed := [], oldPhase := false }
  v.txQueue.foldl (rerouteMsg p) s1

/-- A port goes down for `cause` of kind 0x1A (R276, R413). -/
def portDown (s : State) (p cause : Nat) : State := portLost (logNote s 0x1A (linkDie p) p (toLe 1 cause)) p

/-- Ports go down in turn. -/
def portsDown (cause : Nat) : List Nat → State → State
  | [], s => s
  | p :: t, s => portsDown cause t (if portUp s p ∨ (getPort s p).state = 1 then portDown s p cause else s)

/-! ## Lanes -/

/-- A lane of a port. -/
def Port.lane (v : Port) (l : Nat) : Lane := mget Lane.reset v.lanes l

/-- A lane lost in this power cycle (R275): after two cycles in a row before, it enters the non-volatile map. -/
def Port.loseLane (v : Port) (l : Nat) : Port :=
  { v with
    history := mput v.history (16 + l) 1
    nonVolatile := if 2 ≤ mget 0 v.history l then addTo v.nonVolatile l else v.nonVolatile }

/-- Lanes in neither map and not retired. -/
def Port.usable (v : Port) : List Nat :=
  (List.range 10).filter (fun l => !v.fused.contains l && !v.nonVolatile.contains l && !(v.lane l).retired)

/-- The oldest unacknowledged flit. -/
def Port.oldestSeq (v : Port) : Option Nat := v.replay.head?.map (fun e => e.1)

/-- A lasting failure of lane `l` (R273 step 3b, R274): a spare takes its place, or the port narrows, or goes down. -/
def lastingFailure (s : State) (p l : Nat) : State :=
  let v0 := getPort s p
  let v := (({ v0 with lanes := mmod Lane.reset v0.lanes l (fun x => { x with retired := true }) } : Port).loseLane l)
  let free := (v.usable.filter (fun x => !v.excluded.contains x && !v.planes.contains x))
  if v.width = 4 then portDown (setPort s p v) p 3
  else
    match free with
    | n :: _ =>
      setPort s p { v with planes := v.planes.map (fun x => if x = l then n else x), resendFrom := v.oldestSeq }
    | [] =>
      let left := (v.usable.filter (fun x => !v.excluded.contains x)).take 4
      let retired := (List.range 10).filter (fun x => (v.lane x).retired)
      logNote (setPort s p { v with planes := left, width := 4, narrowed := true, resendFrom := v.oldestSeq }) 0x1B
        (linkDie p) p (toLe 2 (maskOf retired))

/-- Ten seconds in cycles of a die's time counter (R6). -/
def tenSeconds : Nat := 250000000

/-- One millisecond in cycles of a die's time counter. -/
def oneMs : Nat := 25000

/-- The time counter of the link die of port `p` (R6). -/
def portTime (s : State) (p : Nat) : Nat := mget 0 s.time.die (linkDie p)

/-- A failed lane in use (R273): transient where its retrain succeeds and it did not fail within the last 10 s. -/
def failLane (s : State) (p l : Nat) (retrainOk : Bool) : State :=
  let v := getPort s p
  let x := v.lane l
  if !portUp s p ∨ !v.planes.contains l then s
  else
    let again : Bool := match x.lastTransient with
      | some t => decide (portTime s p < t + tenSeconds)
      | none => false
    if again ∨ !retrainOk then lastingFailure s p l
    else setPort s p { v with
      lanes := mput v.lanes l { x with transients := satAdd 8 x.transients 1, lastTransient := some (portTime s p) }
      resendFrom := v.oldestSeq }

/-- LANE_FAILURE (R273, R274). -/
def execLaneFailure (p lane : Nat) (retrainOk : Bool) (s : State) : Ans :=
  onUnit (decide (p < 24)) "port" p (capSync s (failLane s p lane retrainOk))

/-- FEC_WINDOW_END (R272): the counting window of the port restarts. At gen3 and gen2 the codewords of the window that
were corrected, and those that were not, enter PFECCOR and PFECUNC: how many is free. -/
def execFecWindowEnd (p : Nat) (s : State) : Ans :=
  let v := getPort s p
  let v1 := { v with lanes := v.lanes.map (fun e => (e.1, { e.2 with blame := 0 })) }
  let v2 := if v.gen < 2 then v1 else { v1 with
    pfeccor := satAdd 64 v1.pfeccor (Config.freeWord s.freeCtr).toNat,
    pfecunc := satAdd 32 v1.pfecunc (Config.freeWord (s.freeCtr + 1)).toNat }
  onUnit (decide (p < 24)) "port" p (if portUp s p then tickFree (tickFree (setPort s p v2)) else s)

/-- EQ_ADAPT (R266): each lane reports its eye margin. -/
def execEqAdapt (p : Nat) (margins : List Nat) (s : State) : Ans :=
  let v := getPort s p
  let lanes := (margins.zip (List.range 10)).foldl (fun m e =>
    mmod Lane.reset m e.2 (fun x => { x with margin := e.1 % 65536 })) v.lanes
  onUnit (decide (p < 24)) "port" p (if portUp s p then setPort s p { v with lanes := lanes } else s)

/-- EQ_REQUEST (R266): one transmitter coefficient moves one step, at most once per lane and millisecond. -/
def execEqRequest (p lane coeff : Nat) (up : Bool) (s : State) : Ans :=
  let v := getPort s p
  let x := v.lane lane
  let soon : Bool := match x.lastRequest with
    | some t => decide (portTime s p < t + oneMs)
    | none => false
  let x1 := { x with fir := mmod 0 x.fir coeff (fun k => if up then k + 1 else k - 1), lastRequest := some (portTime s p) }
  onUnit (decide (p < 24)) "port" p
    (if portUp s p && !soon then setPort s p { v with lanes := mput v.lanes lane x1 } else s)

/-! ## Training (R263-R265) -/

/-- Lanes good at a generation (R265). -/
def goodLanes (v : Port) (rep : TrainReport) (gen : Nat) : List Nat :=
  v.usable.filter (fun l => !rep.peerMap.contains l &&
    !rep.badLanes.any (fun e => e.1 == gen && e.2.contains l))

/-- The highest generation not above `g` with four good lanes (R264). -/
def trainAt (v : Port) (rep : TrainReport) : Nat → Option (Nat × List Nat)
  | 0 => none
  | g + 1 => if 4 ≤ (goodLanes v rep (g + 1)).length then some (g + 1, goodLanes v rep (g + 1)) else trainAt v rep g

/-- The generation that the two ends choose (R264). -/
def chosenGen (v : Port) (rep : TrainReport) : Nat := min (min 3 rep.peerGen) (min v.genCap rep.peerCap)

/-- A port that has trained (R263 step 7): fresh sequence numbers, empty replay buffers, all credits; a message that
was not complete starts again. -/
def Port.linkStart (v : Port) : Port :=
  { v with
    nextSeq := 0, replay := [], resendFrom := none, resends := 0, lastRewind := none, credits := [], expect := 0,
    accepted := none, sendNak := false, txQueue := v.txQueue.map (fun m => { m with sent := 0, num := none }), txMsg := [],
    rx := [], owed := [] }

/-- A port up at a generation with its good lanes. -/
def Port.trained (v : Port) (rep : TrainReport) (gen : Nat) (good : List Nat) : Port :=
  let wide := decide (8 ≤ good.length)
  let bad := v.usable.filter (fun l => rep.badLanes.any (fun e => e.1 == gen && e.2.contains l))
  let v1 := bad.foldl Port.loseLane v
  ({ v1 with
    state := 2, gen := gen, width := if wide then 8 else 4, narrowed := v1.narrowed || !wide,
    planes := good.take (if wide then 8 else 4), excluded := (List.range 10).filter (fun l => !good.contains l),
    ppeer := rep.peerSerial, ppeerp := BitVec.ofNat 32 (rep.peerPart % 65536 * 65536 + rep.peerGen % 4 * 256 + rep.peerPort % 32)
    } : Port).linkStart

/-- Whether a port may train: enabled, its link die up, not up itself. -/
def mayTrain (s : State) (p : Nat) : Bool :=
  (getPort s p).enable && !(getPort s p).loopFail && dieState s (linkDie p) == 1 && decide ((getPort s p).state ≤ 1)

/-- PORT_TRAINING_ATTEMPT (R263): one whole attempt. -/
def execPortTrainingAttempt (p : Nat) (rep : TrainReport) (s : State) : Ans :=
  let v := getPort s p
  onUnit (decide (p < 24)) "port" p
    (if mayTrain s p then
       match (if rep.peer && rep.stepsInBound then trainAt v rep (chosenGen v rep) else none) with
       | some (gen, good) => capSync s (setPort s p (v.trained rep gen good))
       | none => setPort s p { v with state := 0 }
     else s)

/-- PORT_TRAINING_RETRY (R263): an enabled port that is down starts its next attempt. -/
def execPortTrainingRetry (p : Nat) (s : State) : Ans :=
  onUnit (decide (p < 24)) "port" p (if mayTrain s p then setPort s p { getPort s p with state := 1 } else s)

/-- A retrain under R263, keeping nothing: flits are discarded and messages that were not complete start again. -/
def retrainPort (s : State) (p : Nat) : State :=
  let v := getPort s p
  if v.enable && !v.loopFail && dieState s (linkDie p) == 1 then
    setPort s p { v.linkStart with state := 1, gen := 0, width := 0, planes := [] }
  else s

/-- PORT_RETRAIN (R278). -/
def execPortRetrain (src : Source) (p : Nat) (s : State) : Ans :=
  onUnit (decide (p < 24)) "port" p (if sourceUp s src then capSync s (retrainPort s p) else s)

/-- PORT_ENABLE (R278): training starts. -/
def portEnable (s : State) (p : Nat) : State :=
  let v := getPort s p
  if v.enable then s
  else setPort s p { v with enable := true, state := if dieState s (linkDie p) = 1 ∧ v.loopFail = false then 1 else 0 }

/-- PORT_ENABLE. -/
def execPortEnable (src : Source) (p : Nat) (s : State) : Ans :=
  onUnit (decide (p < 24)) "port" p (if sourceUp s src then portEnable s p else s)

/-- A port whose enable bit is cleared goes down (R271). -/
def portDisable (s : State) (p : Nat) : State :=
  let v := getPort s p
  if v.enable then
    let s1 := setPort s p { v with enable := false }
    if v.state = 0 then s1 else portDown s1 p 4
  else s

/-- PORT_DISABLE. -/
def execPortDisable (src : Source) (p : Nat) (s : State) : Ans :=
  onUnit (decide (p < 24)) "port" p (if sourceUp s src then capSync s (portDisable s p) else s)

/-- A write to gen_cap (R264, R278): 0 leaves it; a cap below the running generation retrains the port at once. -/
def genCapWrite (s : State) (p n : Nat) : State :=
  if n = 0 then s
  else
    let v := getPort s p
    let s1 := setPort s p { v with genCap := n }
    if 2 ≤ v.state ∧ n < v.gen then retrainPort s1 p else s1

/-- GEN_CAP_WRITE. -/
def execGenCapWrite (src : Source) (p n : Nat) (s : State) : Ans :=
  onUnit (decide (p < 24)) "port" p (if sourceUp s src then capSync s (genCapWrite s p (n % 4)) else s)

/-! ## Flits (R267-R270) -/

/-- A flit with its fields, its CRC in the last four bytes. -/
def buildFlit (typ cls len msg frag : Nat) (payload : Bytes) (seqack : Nat) : Bytes :=
  let b := toLe 1 typ ++ toLe 1 cls ++ toLe 1 len ++ toLe 2 msg ++ toLe 2 frag ++ [0#8] ++ slice payload 0 240 ++ toLe 4 seqack
  b ++ toLe 4 (crc32 b)

/-- The seqack word of a flit that goes out now: sequence number, last accepted, nak. -/
def seqack (v : Port) (seq : Nat) : Nat :=
  seq + (match v.accepted with
    | some a => a * 2 ^ 12 + 2 ^ 24
    | none => 0) + (if v.sendNak then 2 ^ 25 else 0)

/-- A stored flit with its acknowledgement fields as of now. -/
def freshen (v : Port) (seq : Nat) (b : Bytes) : Bytes :=
  let h := b.take 0xF8 ++ toLe 4 (seqack v seq)
  h ++ toLe 4 (crc32 h)

/-- A flit leaves: the nak has been told. -/
def outFlit (s : State) (p : Nat) (v : Port) (b : Bytes) : State := emit (setPort s p { v with sendNak := false }) (.flit p b v.planes)

/-- A flit that takes the next sequence number and enters the replay buffer. -/
def sendNew (s : State) (p : Nat) (v : Port) (typ cls len msg frag : Nat) (payload : Bytes) : State :=
  let b := buildFlit typ cls len msg frag payload (seqack v v.nextSeq)
  outFlit s p { v with nextSeq := (v.nextSeq + 1) % 4096, replay := v.replay ++ [(v.nextSeq, b)] } b

/-- The credits of a class that the sender holds: 64 at the start. -/
def Port.credit (v : Port) (cls : Nat) : Nat := mget 64 v.credits cls

/-- Whether a queued message may send a flit: it has bytes left, a credit, and its phase may go (R283). -/
def mayGo (s : State) (v : Port) (m : TxMsg) : Bool :=
  decide (m.sent < m.data.length ∧ 0 < v.credit m.cls) && !(v.oldPhase && m.phase == s.peers.epoch)

/-- Use of a port's slots by a logical axis over its share (R282), so that the least served axis goes first. -/
def served (r : Bytes) (p : Nat) (v : Port) (l : Nat) : Nat :=
  let sh := rtShare r p l
  if sh = 0 then 2 ^ 62 else mget 0 v.slotUse l * 256 / sh

/-- The first of the messages whose axis is least served. -/
def leastServed (r : Bytes) (p : Nat) (v : Port) : List TxMsg → Option TxMsg
  | [] => none
  | m :: t =>
    match leastServed r p v t with
    | some n => if served r p v m.laxis ≤ served r p v n.laxis then some m else some n
    | none => some m

/-- The message of a list that goes next: the first of class 4 where it may go ahead of the shares, else the least
served axis of classes 0 to 3, else class 4. A message in progress of a class is not overtaken within its class. -/
def nextMsg (s : State) (p : Nat) (v : Port) : Option TxMsg :=
  let firstOf (k : Nat) := v.txQueue.find? (fun m => m.cls == k && decide (m.sent < m.data.length))
  let ready := ((List.range 5).filterMap firstOf).filter (mayGo s v)
  let short := ready.find? (fun m => m.cls == 4)
  if 15 ≤ v.sinceShort ∧ short ≠ none then short
  else
    match leastServed (routeOf s (if v.oldPhase then s.peers.epoch + 1 else s.peers.epoch)) p v (ready.filter (fun m => m.cls != 4)) with
    | some m => some m
    | none => short

/-- A queued message with its next fragment gone. -/
def advanceMsg (m : TxMsg) (num n : Nat) : List TxMsg → List TxMsg
  | [] => []
  | x :: t => if x = m then { x with sent := x.sent + n, num := some num } :: t else x :: advanceMsg m num n t

/-- The next fragment of a message as a DATA flit. -/
def sendFragment (s : State) (p : Nat) (v : Port) (m : TxMsg) : State :=
  let num := m.num.getD (mget 0 v.txMsg m.cls)
  let part := (m.data.drop m.sent).take 240
  let first := if m.sent = 0 then 16 else 0
  let last := if m.sent + part.length = m.data.length then 32 else 0
  let v1 : Port :=
    { v with
      credits := mput v.credits m.cls (v.credit m.cls - 1)
      txMsg := if m.num = none then mput v.txMsg m.cls ((num + 1) % 65536) else v.txMsg
      txQueue := advanceMsg m num part.length v.txQueue
      slotUse := if m.cls = 4 then v.slotUse else mmod 0 v.slotUse m.laxis (· + 1)
      sinceShort := if m.cls = 4 then 0 else v.sinceShort + 1 }
  sendNew s p v1 1 (m.cls + first + last) part.length num (m.sent / 240) part

/-- The credits owed as a CTRL flit's sixteen counts (R268). -/
def creditPayload (v : Port) : Bytes := (List.range 16).flatMap (fun k => toLe 2 (mget 0 v.owed k))

/-- One flit slot of a port (R268, R269): a resend, NULL while the replay buffer is full, the credits owed, the next
message, else NULL. -/
def flitSlot (s : State) (p : Nat) : State :=
  let v := getPort s p
  match v.resendFrom.bind (fun q => (v.replay.dropWhile (fun e => e.1 != q)).head?) with
  | some (q, b) =>
    let next := ((v.replay.dropWhile (fun e => e.1 != q)).drop 1).head?.map (fun e => e.1)
    let b1 := freshen v q b
    outFlit s p { v with resendFrom := next, preplay := satAdd 32 v.preplay 1 } b1
  | none =>
    let idle := outFlit s p { v with resendFrom := none, sinceShort := v.sinceShort + 1 } (buildFlit 0 0 0 0 0 [] (seqack v 0))
    if 512 ≤ v.replay.length then idle
    else if v.owed.any (fun e => decide (0 < e.2)) then
      sendNew s p { v with owed := [], sinceShort := v.sinceShort + 1 } 2 5 32 0 0 (creditPayload v)
    else
      match nextMsg s p v with
      | some m => sendFragment s p v m
      | none => idle

/-- LINK_FLIT_SEND (R268). -/
def execLinkFlitSend (p : Nat) (s : State) : Ans :=
  onUnit (decide (p < 24)) "port" p (if (getPort s p).state = 2 then flitSlot s p else s)

/-- Whether a sent message still has an unacknowledged flit. -/
def stillOut (replay : List (Nat × Bytes)) (m : TxMsg) : Bool :=
  decide (m.sent < m.data.length) ||
  replay.any (fun e => field e.2 0 1 == 1 && field e.2 1 1 % 16 == m.cls && some (field e.2 3 2) == m.num)

/-- An acknowledgement (R269): the flits up to it leave the replay buffer, and messages with none left are complete. -/
def Port.ackTo (v : Port) (a : Nat) : Port :=
  if v.replay.any (fun e => e.1 == a) then
    let r := (v.replay.dropWhile (fun e => e.1 != a)).drop 1
    { v with replay := r, resends := 0, lastRewind := none, txQueue := v.txQueue.filter (stillOut r) }
  else v

/-- R270: a flit resent 16 times without an acknowledgement retrains the port at its generation and lane map; where
that fails the port goes down. -/
def rewind (s : State) (p : Nat) (v : Port) (retrainOk : Bool) : State :=
  if v.replay = [] then setPort s p v
  else if v.resends < 16 then setPort s p { v with resendFrom := v.oldestSeq, resends := v.resends + 1 }
  else if retrainOk then setPort s p { v with resendFrom := v.oldestSeq, resends := 0 }
  else capSync s (portDown (setPort s p v) p 2)

/-- A sender rewinds on the first nak for an acknowledged value (R269). -/
def onNak (s : State) (p : Nat) (v : Port) (ack : Nat) : State :=
  if v.lastRewind = some ack then setPort s p v
  else rewind (tickFree s) p { v with lastRewind := some ack } (Config.freePick s.freeCtr % 2 == 0)

/-- The reassembly of a DATA flit (R267): the open fragments and the message that is complete. -/
def reassemble (rx : List Partial) (cls msg frag : Nat) (first last : Bool) (part : Bytes) : List Partial × Option Bytes :=
  let others := rx.filter (fun x => x.cls != cls)
  if first then (if last then (others, some part) else (others ++ [{ cls := cls, msg := msg, next := frag + 1, data := part }], none))
  else
    match rx.find? (fun x => x.cls == cls) with
    | some x =>
      if x.msg = msg ∧ x.next = frag then
        (if last then (others, some (x.data ++ part))
         else (others ++ [{ x with next := frag + 1, data := x.data ++ part }], none))
      else (others, none)
    | none => (others, none)

/-- A complete message that came in on port `p` (R280, R282): kept for its engine, passed on along its axis and
direction, or discarded and counted. -/
def deliverMsg (s : State) (p cls : Nat) (data : Bytes) : State :=
  let dst := field data 0 4
  let h : Header := { cls := cls, dst := dst, src := field data 4 4, id := BitVec.ofNat 32 (field data 8 4),
                      spec := BitVec.ofNat 32 (field data 12 4) }
  let drop := { s with peers := { s.peers with bmisroute := satAdd 32 s.peers.bmisroute 1 } }
  if dst = ownRank s ∧ s.peers.route ≠ none then
    { s with peers := { s.peers with inbox := s.peers.inbox ++ [(h, data.drop 16)] } }
  else
    let ax := portAxis p
    if 3 ≤ rtDim (route s) ax.1 then
      let m : TxMsg := { cls := cls, phase := 0, laxis := 0, cid := none, level := 3, groups := [axisPorts ax.1 (!ax.2)],
                         data := data, sent := 0, num := none }
      (sendTx s (if p < 12 then 0 else 1) m).getD drop
    else drop

/-- The receiver's buffer of a flit's class is free again: a credit is owed. -/
def Port.owe (v : Port) (cls : Nat) : Port := { v with owed := mmod 0 v.owed cls (· + 1) }

/-- The content of an accepted flit (R267, R268). -/
def takeFlit (s : State) (p : Nat) (v : Port) (b : Bytes) : State :=
  let typ := field b 0 1
  let cb := field b 1 1
  let cls := cb % 16
  if 2 < typ ∨ 5 < cls then setPort s p { v with pbadtype := satAdd 32 v.pbadtype 1 }
  else if typ = 2 then
    (if cls = 5 then
       setPort s p { v with credits := (List.range 5).foldl (fun m k =>
         mput m k (min 64 (mget 64 m k + field b (8 + 2 * k) 2))) v.credits }
     else setPort s p v)
  else if cls = 5 then setPort s p v
  else
    let r := reassemble v.rx cls (field b 3 2) (field b 5 2) (bit cb 4) (bit cb 5) (slice b 8 (min (field b 2 1) 240))
    let s1 := setPort s p { v.owe cls with rx := r.1 }
    match r.2 with
    | some d => deliverMsg s1 p cls d
    | none => s1

/-- Whether a flit passes its CRC. -/
def flitGood (b : Bytes) : Bool := b.length == 256 && field b 0xFC 4 == crc32 (b.take 0xFC)

/-- A flit with a bad CRC (R269, R272): discarded and counted; at gen1 the lane parity blames one of the lanes, which
one is free, and the eighth blame of a window fails the lane. -/
def badFlit (s : State) (p : Nat) : State :=
  let v := { getPort s p with pcrc := satAdd 32 (getPort s p).pcrc 1, sendNak := true }
  if v.gen = 1 then
    let l := v.planes.getD (Config.freePick s.freeCtr % max v.planes.length 1) 0
    let x := v.lane l
    let s1 := tickFree (setPort s p { v with lanes := mput v.lanes l { x with blame := x.blame + 1 } })
    if 8 ≤ x.blame + 1 then capSync s (failLane (tickFree s1) p l (Config.freePick s1.freeCtr % 2 == 0)) else s1
  else setPort s p v

/-- A flit with a good CRC: its acknowledgement, then its sequence number (R269). -/
def goodFlit (s : State) (p : Nat) (b : Bytes) : State :=
  let w := field b 0xF8 4
  let ack := bits w 23 12
  let v0 := getPort s p
  let v := if bit w 24 then v0.ackTo ack else v0
  let s1 := if bit w 25 then onNak s p v (if bit w 24 then ack else 4096) else setPort s p v
  if (getPort s1 p).state ≠ 2 ∨ field b 0 1 = 0 then s1
  else
    let u := getPort s1 p
    if w % 4096 = u.expect then
      takeFlit s1 p { u with expect := (u.expect + 1) % 4096, accepted := some (w % 4096), sendNak := false } b
    else setPort s1 p { u with sendNak := true }

/-- Whether a block message of source slot `slot` has not been acknowledged yet. -/
def blocksOut (s : State) (slot : Nat) : Bool := s.ports.any (fun e => e.2.txQueue.any (fun m => m.cls == 3 && field m.data 8 4 == slot))

/-- A filling mirror at its source is valid once the last of its blocks has landed (R308 step 3): every block was sent, and
every one was acknowledged. -/
def landMirrors (s : State) : State :=
  { s with peers := { s.peers with mirrors := s.peers.mirrors.map (fun e =>
      if e.2.source && e.2.state == 2 && decide (0 < e.2.nblocks ∧ e.2.nblocks ≤ e.2.done) && !blocksOut s e.1 then
        (e.1, { e.2 with state := 1, genC := e.2.genF, step := s.job.step, done := 0 })
      else e) } }

/-- LINK_FLIT_RECEIVE (R269). -/
def execLinkFlitReceive (p : Nat) (flit : Bytes) (s : State) : Ans :=
  onUnit (decide (p < 24)) "port" p
    (if (getPort s p).state = 2 then landMirrors (if flitGood flit then goodFlit s p flit else badFlit s p) else s)

/-- REPLAY_TIMEOUT (R269, R270). -/
def execReplayTimeout (p : Nat) (retrainOk : Bool) (s : State) : Ans :=
  onUnit (decide (p < 24)) "port" p
    (if (getPort s p).state = 2 ∧ (getPort s p).replay ≠ [] then rewind s p (getPort s p) retrainOk else s)

/-- PORT_SILENCE_TIMEOUT (R271). -/
def execPortSilenceTimeout (p : Nat) (s : State) : Ans :=
  onUnit (decide (p < 24)) "port" p (if portUp s p then capSync s (portDown s p 1) else s)

/-- PORT_PHASE_SWITCH (R283 step 3): a port with no earlier-phase message queued or unacknowledged switches;
transit does not depend on the phase. -/
def execPortPhaseSwitch (p : Nat) (s : State) : Ans :=
  let v := getPort s p
  onUnit (decide (p < 24)) "port" p
    (if v.oldPhase ∧ v.txQueue.all (fun m => m.phase == 0 || m.phase == s.peers.epoch) then
       setPort s p { v with oldPhase := false, slotUse := [] }
     else s)

/-! ## Port registers (R278) -/

/-- PCTRL. -/
def pctrlWord (v : Port) : Nat := v.genCap * 16 + b2n v.enable

/-- PSTAT. -/
def pstatWord (v : Port) : Nat :=
  v.state * 2 ^ 30 + v.gen * 2 ^ 28 + v.width * 2 ^ 24 + b2n v.wentDown * 2 + b2n v.narrowed

/-- PLANES. -/
def planesWord (v : Port) : Nat := ((List.range 8).map (fun i => v.planes.getD i 15 * 16 ^ i)).sum

/-- A word of a port's register block. -/
def portWord (v : Port) (off : Nat) : Nat :=
  if off = 0 then pctrlWord v
  else if off = 4 then pstatWord v
  else if off = 8 then (if v.planes = [] then 0 else planesWord v)
  else if off = 0xC then maskOf v.excluded * 65536 + maskOf ((List.range 10).filter (fun l => (v.lane l).retired))
  else if off = 0x10 then v.ppeer.toNat % 2 ^ 32
  else if off = 0x14 then v.ppeer.toNat / 2 ^ 32
  else if off = 0x18 then v.ppeerp.toNat
  else if off = 0x20 then v.preplay
  else if off = 0x24 then v.pcrc
  else if off = 0x28 then v.pfecunc
  else if off = 0x2C then v.pbadtype
  else if off = 0x30 then v.pfeccor % 2 ^ 32
  else if off = 0x34 then v.pfeccor / 2 ^ 32
  else if 0x40 ≤ off ∧ off < 0x68 then
    let x := v.lane ((off - 0x40) / 4)
    x.transients * 2 ^ 24 + b2n x.retired * 2 ^ 23 + x.margin
  else 0

end Sys2Proof.Machine
end

