-- ==== Sys2Proof/Machine/Basin.lean ====
section
/-! DEFINITION. Basin: REDUCE_SCATTER (R287-R297), ALL_GATHER (R298), their messages, windows and close round. -/

namespace Sys2Proof.Machine

/-! ## Rank lists (R287) -/

/-- Participants that a rank list names. -/
def rankCount (m : Memory) (a : Nat) : Nat := leNat (m.readN a 4)

/-- Stages of a rank list. -/
def rankStages (m : Memory) (a : Nat) : Nat := leNat (m.readN (a + 4) 1)

/-- Members per stage. -/
def rankDims (m : Memory) (a : Nat) : List Nat := (List.range (rankStages m a)).map (fun i => leNat (m.readN (a + 8 + 2 * i) 2))

/-- Entry `i` of a rank list. -/
def rankEntry (m : Memory) (a i : Nat) : RankEntry :=
  let b := m.readN (a + 0x10 + 16 * i) 16
  { rank := field b 0 4, backup := field b 4 4, coords := [field b 8 2, field b 10 2, field b 12 2], lattice := field b 14 2 }

/-- The factor of W1 and W2 at the span stage. -/
def rankSpan (m : Memory) (a : Nat) : Nat := leNat (m.readN (a + 5) 1)

/-- Whether the fields of a rank list are in range: a span factor from 1, unused stages 0. -/
def rankFieldsOk (m : Memory) (a : Nat) : Bool :=
  decide (1 ≤ rankSpan m a) && (List.range 4).all (fun i => decide (i < rankStages m a) || leNat (m.readN (a + 8 + 2 * i) 2) == 0)

/-- The index of this module in a rank list. -/
def rankIndex (s : State) (a n : Nat) : Option Nat :=
  (List.range n).find? (fun i => (rankEntry s.mem a i).rank == ownRank s)

/-- Participants behind one position of stage `k`: the product of the later stages' members. -/
def weight (dims : List Nat) (k : Nat) : Nat := (dims.drop (k + 1)).prod

/-- Position of index `i` in stage `k`, the first stage slowest. -/
def digit (dims : List Nat) (i k : Nat) : Nat := (i / weight dims k) % max (dims.getD k 1) 1

/-- The member of the own ring of stage `k` at position `j`. -/
def memberAt (dims : List Nat) (i k j : Nat) : Nat := i - digit dims i k * weight dims k + j * weight dims k

/-! ## Packet and issue checks (R288, R289) -/

/-- W1 in microseconds. -/
def w1Of (c : Cmd) : Nat := if c.arg 0x20 4 = 0 then 5000 else c.arg 0x20 4

/-- W2 in microseconds. -/
def w2Of (c : Cmd) : Nat := if c.arg 0x24 4 = 0 then 50000 else c.arg 0x24 4

/-- Id, fields and plain form of a descriptor of a collective (R206). -/
def collField (s : State) (c : Cmd) (off : Nat) : Option Err :=
  firstErr [descCheck s (c.arg off 2) off false, plainCheck s (c.arg off 2) off]

/-- The packet fields that both collectives share (R288). -/
def collFields (s : State) (c : Cmd) : Option Err :=
  firstErr [
    need (decide (c.arg 0x18 1 ≤ 4)) (badParam 0x18 2), zeroBits c 0x19 0xF8,
    need (decide (c.arg 0x1A 1 ≤ 15)) (badParam 0x1A 2), zeroField c 0x1B 1, need (decide (w1Of c < w2Of c)) (badParam 0x24 2),
    zeroField c 0x28 8, mereCheck s (c.arg 0x30 1) (c.arg 0x31 1) 0x30, zeroField c 0x32 14]

/-- The packet checks of REDUCE_SCATTER. -/
def reduceScatterPacket (s : State) (c : Cmd) : Option Err :=
  let g := readDesc s (c.arg 0x10 2)
  let o := readDesc s (c.arg 0x12 2)
  let t := readDesc s (c.arg 0x16 2)
  firstErr [collField s c 0x10, collField s c 0x12, collField s c 0x14, collField s c 0x16, collFields s c,
    need (decide (g.fmt ≤ 1)) (formatUnsupported 0 g.fmt), need (decide (o.fmt ≤ 1)) (formatUnsupported 2 o.fmt),
    need (t.fmt == 1) (formatUnsupported 3 t.fmt)]

/-- The packet checks of ALL_GATHER (R298). -/
def allGatherPacket (s : State) (c : Cmd) : Option Err :=
  let g := readDesc s (c.arg 0x10 2)
  let o := readDesc s (c.arg 0x12 2)
  firstErr [collField s c 0x10, collField s c 0x12, need (!o.shard) (badParam 0x12 3), collField s c 0x14, zeroField c 0x16 2,
    need (decide (c.arg 0x18 1 ≤ 4)) (badParam 0x18 2), zeroBits c 0x19 0xFE, collFields s c,
    need (decide (g.fmt ≤ 1)) (formatUnsupported 0 g.fmt), need (decide (o.fmt ≤ 1)) (formatUnsupported 2 o.fmt)]

/-- Elements of the reduction or of the gathered tensor. -/
def collElems (s : State) (c : Cmd) : Nat :=
  if c.opcode = 0x0301 then (readDesc s (c.arg 0x10 2)).elems else (readDesc s (c.arg 0x12 2)).elems

/-- E_f (R289). -/
def shardLen (e n : Nat) : Nat := ceilDiv e (1024 * n) * 1024

/-- The check of the rank list against the route table (R287, R288). -/
def rankListOk (s : State) (c : Cmd) : Bool :=
  let a := (readDesc s (c.arg 0x14 2)).home
  let n := rankCount s.mem a
  let dims := rankDims s.mem a
  let axes := rtAxes (route s) (c.arg 0x18 1)
  let standby := c.opcode == 0x0301 && bit (c.arg 0x19 1) 0
  decide (1 ≤ n ∧ n ≤ 2 ^ 24) && decide (1 ≤ dims.length ∧ dims.length ≤ 4) && dims.prod == n &&
  rankFieldsOk s.mem a &&
  (dims.length == axes.length || dims.length == axes.length + 1) &&
  decide (0x10 + 16 * n ≤ (readDesc s (c.arg 0x14 2)).half) &&
  ((axes.zip dims).all (fun p => rtDim (route s) p.1 == p.2)) &&
  (standby || (match rankIndex s a n with
    | some i =>
      let e := rankEntry s.mem a i
      e.coords == (List.range 3).map (rtCoord (route s)) && e.lattice == rtLattice (route s) &&
      ((axes.zip (List.range axes.length)).all (fun p => digit dims i p.2 == rtCoord (route s) p.1))
    | none => false))

/-- Elements of `e` that index `i` holds before stage `k` (R289). -/
def heldElems (dims : List Nat) (ef e i k : Nat) : Nat :=
  let w := (dims.drop k).prod
  let a := i / w * w * ef
  if k = 0 then e else min (a + w * ef) e - min a e

/-- Bytes of the receive area (R289), in whole state blocks of 1,024 BF16 elements; a standby rank counts as index 0. -/
def stageBytes (dims : List Nat) (ef e i : Nat) : Nat :=
  ceilDiv (2 * ((List.range dims.length).map (heldElems dims ef e i)).sum) 2048 * 2048

/-- The checks of both collectives at issue (R281, R287-R289, R231, R42). -/
def collIssue (s : State) (c : Cmd) : Option Err :=
  let g := readDesc s (c.arg 0x10 2)
  let o := readDesc s (c.arg 0x12 2)
  let r := readDesc s (c.arg 0x14 2)
  let n := rankCount s.mem r.home
  let dims := rankDims s.mem r.home
  let ef := shardLen (collElems s c) n
  let rs := c.opcode == 0x0301
  let t := readDesc s (c.arg 0x16 2)
  let own := match rankIndex s r.home n with
    | some i => min ((i + 1) * ef) (collElems s c) - min (i * ef) (collElems s c)
    | none => 0
  firstErr [
    need (s.peers.route != none) (badParam 0 6), need (r.placed s) (badParam 0x14 3), need (rankListOk s c) (badParam 0x14 2),
    need (if rs then true else decide (own ≤ g.elems)) (badParam 0x10 3), sizeCheck s g g.bytes 0x10,
    need (!rs || decide (ef ≤ o.elems)) (badParam 0x12 3), sizeCheck s o o.bytes 0x12,
    if rs then sizeCheck s t (stageBytes dims ef (collElems s c) ((rankIndex s r.home n).getD 0)) 0x16 else none,
    need (!overlaps (o.ranges s) (g.ranges s ++ r.ranges s)) (badParam 0x12 4),
    need (!rs || !overlaps (t.ranges s) (g.ranges s ++ r.ranges s)) (badParam 0x16 4)]

/-! ## The collective in flight -/

/-- The range of elements that index `i` holds after stage `k`: start and length, cut at E (R289). -/
def Coll.part (co : Coll) (k i : Nat) : Nat × Nat :=
  let w := weight co.dims k
  let a := i / w * w * co.shard
  (min a co.elems, min (a + w * co.shard) co.elems - min a co.elems)

/-- The start of what a reduction holds before stage `k`. -/
def Coll.heldStart (co : Coll) (k : Nat) : Nat := if k = 0 then 0 else (co.part (k - 1) co.index).1

/-- Members of the ring of stage `k`. -/
def Coll.size (co : Coll) (k : Nat) : Nat := co.dims.getD k 1

/-- Index of the member at position `j` of stage `k`. -/
def Coll.memberIdx (co : Coll) (k j : Nat) : Nat := memberAt co.dims co.index k j

/-- The entry of an index. -/
def Coll.entry (co : Coll) (i : Nat) : RankEntry := co.entries.getD i { rank := 0xFFFFFFFF, backup := 0xFFFFFFFF, coords := [], lattice := 0 }

/-- Rank of the member at position `j` of stage `k`. -/
def Coll.memberRank (co : Coll) (k j : Nat) : Nat := (co.entry (co.memberIdx k j)).rank

/-- This module's rank. -/
def Coll.own (co : Coll) : Nat := (co.entry co.index).rank

/-- The level of a stage (R279): ring, lattice or span. -/
def Coll.level (co : Coll) (k : Nat) : Nat := if co.axes ≤ k then 5 else if co.axes = 1 then 3 else 4

/-- The stage code of a class 0 message (R285). -/
def Coll.stageCode (co : Coll) (k : Nat) : Nat := if co.axes ≤ k then 3 else k

/-- The stage that a code names. -/
def Coll.stageOf (co : Coll) (code : Nat) : Nat := if code = 3 then co.dims.length - 1 else code

/-- Where a rank is: its entry of the list, if it has one. -/
def Coll.whereIs (co : Coll) (rank : Nat) : Where :=
  match co.entries.find? (fun e => e.rank == rank) with
  | some e => .place e.coords e.lattice
  | none => .unknown

/-- Whether `us` microseconds of the window in hand have passed on the always-on clock of this module (R280, R292); the
factor of the span stage counts them longer, the close round's are plain. -/
def windowOver (s : State) (co : Coll) (us : Nat) : Bool :=
  decide (co.since + us * (if co.axes ≤ co.stage ∧ !co.settled then co.spanMult else 1) ≤ microsOn s 5)

/-- Elements of one message: at most 1 MiB of `w`-byte elements (R290). -/
def segElemsOf (w : Nat) : Nat := 2 ^ 20 / w

/-- Width of a collective's elements on the links: BF16 for a reduction, the gathered format for a gather. -/
def collWidth (s : State) (c : Cmd) : Nat :=
  if c.opcode = 0x0301 then 2 else fwidth (readDesc s (c.arg 0x12 2)).fmt / 8

/-- A BF16 value as an FP32 word, rounded (R290). -/
def toBfWord (w : Word) : Word := bf16Word (toBf16 (f32 w))

/-- Non-finite values of a list. -/
def countBad (ws : List Word) : Nat := (ws.filter (fun w => !isFinite w)).length

/-- Elements as bytes of a message: BF16, or FP32 of a gather. -/
def wordsOut (w : Nat) (ws : List Word) : Bytes :=
  ws.flatMap (fun x => if w = 2 then toLe 2 (toBf16 (f32 x)) else toLe 4 x.toNat)

/-- Elements of a message. -/
def wordsIn (w : Nat) (b : Bytes) : List Word :=
  (List.range (b.length / w)).map (fun i => if w = 2 then bf16Word (field b (2 * i) 2) else BitVec.ofNat 32 (field b (4 * i) 4))

/-- The class 0 messages of a run of elements to one rank: kind, stage, segments with their counts. -/
def inputMsgs (s : State) (c : Cmd) (co : Coll) (kind k dst : Nat) (ws : List Word) : List TxMsg :=
  let w := collWidth s c
  let n := segElemsOf w
  (List.range (ceilDiv ws.length n)).map (fun i =>
    let part := (ws.drop (i * n)).take n
    let bad := if kind = 1 then 0 else min (countBad part) 4095
    txOf s c 0 (c.arg 0x18 1) dst (co.whereIs dst) (co.level k) co.collId
      (BitVec.ofNat 32 (kind * 2 ^ 30 + bad * 2 ^ 18 + co.stageCode k * 2 ^ 16 + i))
      ((if kind = 1 then toLe 8 co.generation else []) ++ wordsOut w part))

/-- A class 4 message of the collective: kind and payload. Its id is the collective's (log 41). -/
def shortMsg (s : State) (c : Cmd) (co : Coll) (kind dst : Nat) (payload : Bytes) : TxMsg :=
  txOf s c 4 (c.arg 0x18 1) dst (co.whereIs dst) (co.level (co.dims.length - 1)) co.collId (BitVec.ofNat 32 (kind * 2 ^ 12)) payload

/-- The record of a collective put in place of the old one. -/
def storeColl (s : State) (co : Coll) : State :=
  { s with peers := { s.peers with colls := s.peers.colls.filter (fun x => x.cid != co.cid) ++ [co] } }

/-- The record of a command's collective removed, with the messages still kept for it. -/
def dropColl (s : State) (co : Coll) : State :=
  { s with peers := { s.peers with
      colls := s.peers.colls.filter (fun x => x.cid != co.cid)
      inbox := s.peers.inbox.filter (fun m => !(m.1.id == co.collId && (m.1.cls == 0 || m.1.cls == 4))) } }

/-- The collective of a running command. -/
def collOf (s : State) (cid : Nat) : Option (Cmd × Coll) :=
  match working s cid [0x0301, 0x0302] with
  | some c => (s.peers.colls.find? (fun x => x.cid == cid)).map (fun co => (c, co))
  | none => none

/-- The running collective with an id. -/
def collById (s : State) (id : Word) : Option (Cmd × Coll) :=
  (s.peers.colls.filter (fun x => x.collId == id)).findSome? (fun x => collOf s x.cid)

/-- The collective fails (R292, R293, R298): PEER_TIMEOUT is counted. -/
def failColl (s : State) (c : Cmd) (co : Coll) (e : Err) : State :=
  let s1 := dropColl s co
  complete (if e.1 = 0x31 then { s1 with peers := { s1.peers with btimeout := satAdd 32 s1.peers.btimeout 1 } } else s1) c e 0

/-- PEER_TIMEOUT for a rank: the first port of the route to it (R292). -/
def rankTimeout (s : State) (c : Cmd) (co : Coll) (k rank : Nat) : Err :=
  let groups := groupsFor (routeOf s c.phase) (c.arg 0x18 1) (co.whereIs rank)
  peerTimeout ((choosePort s 0 groups).getD ((groups.headD []).headD 0)) (co.level k) rank

/-! ## Inputs -/

/-- Segments that a run of `n` elements makes. -/
def segCount (s : State) (c : Cmd) (n : Nat) : Nat := ceilDiv n (segElemsOf (collWidth s c))

/-- Elements that a member sends for stage `k`: for a reduction the own part, for a gather what the member holds. -/
def Coll.expected (co : Coll) (k rank : Nat) : Nat :=
  if co.gather then
    match (List.range co.entries.length).find? (fun i => (co.entry i).rank == rank) with
    | some i => (co.part k i).2
    | none => 0
  else (co.part k co.index).2

/-- The segments received from a member, primary or copy. -/
def Coll.got (co : Coll) (k rank : Nat) (copy : Bool) : List CollInput :=
  co.inputs.filter (fun x => x.stage == k && x.src == rank && x.backup == copy)

/-- Whether all segments of a member's input are here, as a primary or as a copy. -/
def inputDone (s : State) (c : Cmd) (co : Coll) (k rank : Nat) (copy : Bool) : Bool :=
  (List.range (segCount s c (co.expected k rank))).all (fun i => (co.got k rank copy).any (fun x => x.segment == i))

/-- Whether the copy stands for the member's input: it is complete and the primary is not (R292). -/
def useCopy (s : State) (c : Cmd) (co : Coll) (k rank : Nat) : Bool :=
  co.pulled.contains rank && inputDone s c co k rank true && !inputDone s c co k rank false

/-- Values of a member's input in order of segments. -/
def inputValues (s : State) (c : Cmd) (co : Coll) (k rank : Nat) : List Word :=
  let l := co.got k rank (useCopy s c co k rank)
  (List.range (segCount s c (co.expected k rank))).flatMap (fun i =>
    match l.find? (fun x => x.segment == i) with
    | some x => x.values
    | none => [])

/-- Ranks of the ring of stage `k` whose inputs are added: all, or all but a dropped one (R294). -/
def Coll.adding (co : Coll) (k : Nat) : List Nat :=
  ((List.range (co.size k)).map (co.memberRank k)).filter (fun r => !(k == 0 && co.rescale && co.excluded == some r))

/-- Ranks of a stage whose inputs are still missing. -/
def missingRanks (s : State) (c : Cmd) (co : Coll) (k : Nat) : List Nat :=
  (co.adding k).filter (fun r => r != co.own && !inputDone s c co k r false && !(co.pulled.contains r && inputDone s c co k r true))

/-- The own input of a reduction stage. -/
def Coll.ownPart (co : Coll) (k : Nat) : List Word :=
  let p := co.part k co.index
  (co.held.drop (p.1 - co.heldStart k)).take p.2

/-- stage_sum() (R291). -/
def stageSum : List Word → Word
  | [] => 0
  | x :: t => t.foldl fadd x

/-- The totals of a stage, ascending rank; rescaled where a rank of the own ring was dropped (R294). -/
def stageTotals (s : State) (c : Cmd) (co : Coll) (k : Nat) : List Word :=
  let rows := (co.adding k).map (fun r => if r = co.own then co.ownPart k else inputValues s c co k r)
  let n0 := co.size 0
  let drop := k = 0 ∧ (co.adding 0).length < n0
  (List.range (co.part k co.index).2).map (fun i =>
    let t := stageSum (rows.map (fun r => r.getD i 0))
    if drop then toF32 (Num.div (Num.mul (f32 t) (Num.ofNat n0)) (Num.ofNat (n0 - 1))) else t)

/-- The offending ranks among the stage-1 inputs (R293). -/
def offendersOf (s : State) (c : Cmd) (co : Coll) : List Nat :=
  (co.adding 0).filter (fun r =>
    if r = co.own then decide (0 < countBad (co.ownPart 0))
    else (co.got 0 r (useCopy s c co 0 r)).any (fun x => decide (0 < x.nonfinite)))

/-! ## The close round (R293, R294) -/

/-- The 32 bytes of a close word. -/
def closeBytes (w : CloseWord) : Bytes :=
  toLe 4 w.offCount ++ toLe 4 w.offRank ++ toLe 4 w.q.toNat ++ toLe 4 (b2n w.failed + 2 * b2n w.backup) ++ List.replicate 16 0

/-- A close word as received. -/
def closeOf (src : Nat) (b : Bytes) : CloseWord :=
  { src := src, offCount := field b 0 4, offRank := field b 4 4, q := BitVec.ofNat 32 (field b 8 4), failed := bit (field b 12 4) 0,
    backup := bit (field b 12 4) 1 }

/-- The own close word of a settled reduction. -/
def Coll.ownClose (co : Coll) : CloseWord :=
  { src := co.own, offCount := co.offenders.length, offRank := co.offenders.headD 0xFFFFFFFF, q := laneSumSq co.totals,
    failed := false, backup := co.backupTaken }

/-- The other participants. -/
def Coll.others (co : Coll) : List Nat := (co.entries.map (fun e => e.rank)).filter (fun r => r != co.own)

/-- The close words in ascending rank. -/
def Coll.closesInOrder (co : Coll) : List CloseWord :=
  co.entries.filterMap (fun e => co.closes.find? (fun w => w.src == e.rank))

/-- The number of distinct offending ranks, from every owner's count and lowest rank (R293). -/
def distinctOff (l : List CloseWord) : Nat :=
  l.foldl (fun a w => max a w.offCount) ((l.filter (fun w => 0 < w.offCount)).map (fun w => w.offRank)).eraseDups.length

/-- The lowest offending rank. -/
def lowestOff (l : List CloseWord) : Nat := ((l.filter (fun w => 0 < w.offCount)).map (fun w => w.offRank)).foldl min 0xFFFFFFFF

/-- What a collective writes until its commit (R48): the shard and the receive area of R289, or the gathered tensor. -/
def collTargets (s : State) (c : Cmd) : List (Nat × Nat) :=
  let o := readDesc s (c.arg 0x12 2)
  let r := readDesc s (c.arg 0x14 2)
  let n := rankCount s.mem r.home
  let e := collElems s c
  let i := (rankIndex s r.home n).getD 0
  let w := fwidth o.fmt / 8
  let ef := shardLen e n
  if c.opcode = 0x0302 then [(o.home, e * w)]
  else if bit (c.arg 0x19 1) 0 then []
  else [(o.home, (min ((i + 1) * ef) e - min (i * ef) e) * w),
        ((readDesc s (c.arg 0x16 2)).home, stageBytes (rankDims s.mem r.home) ef e i)]

/-- The shard as it is committed (R291); what the receive area holds after the command is not stated. -/
def shardWrite (s : State) (c : Cmd) (co : Coll) : List Effect :=
  let o := readDesc s (c.arg 0x12 2)
  let t := readDesc s (c.arg 0x16 2)
  if co.totals = [] then []
  else [.write o.home (co.totals.flatMap (fun w => toLe (fwidth o.fmt / 8) (rneCode o.fmt (f32 w)).code)),
        .forget t.home (stageBytes co.dims co.shard co.elems co.index)]

/-- The release words to the backups that were not pulled (R297). -/
def releaseMsgs (s : State) (c : Cmd) (co : Coll) : List TxMsg :=
  let asked := co.pulled.filterMap (fun r => (co.entries.find? (fun e => e.rank == r)).map (fun e => e.backup))
  (((co.entries.map (fun e => e.backup)).eraseDups).filter (fun b => b != 0xFFFFFFFF && b != co.own && !asked.contains b)).map
    (fun b => shortMsg s c co 3 b [])

/-- KiB of the contribution or of the gathered tensor (R44). -/
def collWork (s : State) (c : Cmd) (co : Coll) : Nat :=
  co.elems * (fwidth (readDesc s (if co.gather then c.arg 0x12 2 else c.arg 0x10 2)).fmt / 8) / 1024

/-- A reduction ends with its verdict (R294, R295). -/
def endReduction (s : State) (c : Cmd) (co : Coll) (off low : Nat) : State :=
  let l := co.closesInOrder
  let backup := l.any (fun w => w.backup)
  let bad := decide (0 < off)
  let excl := co.excluded != none && !bad
  let flags := c.arg 0x19 1
  let notes := (if co.elems = 0 then 0x100 else 0) + (if backup then 0x20 else 0) + (if excl then 0x400 else 0)
  let lowAll := match co.excluded with
    | some r => min r low
    | none => low
  let effects := shardWrite s c co ++
    (if bit flags 2 then [.norm (c.arg 0x1A 1) (stageSum (l.map (fun w => w.q)))] else []) ++
    [.verdict bad excl backup (bit flags 1) lowAll off co.ownBad]
  let e := stepNonfinite off s.job.policy co.ownBad
  let r : Result :=
    if bad then { status := e.1, detail := e.2, work := collWork s c co, effects := effects }
    else notedResult notes (collWork s c co) effects
  finishWork (dropColl (sendAll 0 (releaseMsgs s c co) s).1 co) c r

/-- The collective set to run again without the offender's input, or with its backup copy in its place (R294). -/
def Coll.again (co : Coll) (now r : Nat) (copy : Bool) (start : List Word) : Coll :=
  { co with
    stage := 0, since := now, held := start, inputs := co.inputs.filter (fun x => x.stage == 0 && x.src != r), settled := false,
    totals := [], closes := [], excluded := some r, rescale := !copy, pulled := (if copy then [r] else []) ++ dropFrom co.pulled r }

/-- The contribution as it travels: BF16 values, or unrounded for a lone participant (R288, R290). -/
def contribution (s : State) (c : Cmd) (n : Nat) : List Word :=
  let g := readDesc s (c.arg 0x10 2)
  let w := fwidth g.fmt / 8
  (List.range g.elems).map (fun i =>
    let v := toF32 (decodeElem g.fmt (leNat (s.mem.readN (g.home + i * w) w)))
    if n = 1 then v else toBfWord v)

/-- What comes next of a collective. -/
inductive CollNext where
  | wait (s : State) (co : Coll)
  | go (s : State) (co : Coll)
  | done (s : State)

/-- Messages sent for a collective; where one cannot leave the command ends with LINK_LOST (R296). -/
def sendFor (s : State) (c : Cmd) (co : Coll) (ms : List TxMsg) : CollNext :=
  match sendAll 0 ms s with
  | (s1, none) => .go s1 co
  | (s1, some m) => .done (failColl s1 c co (linkLost (lastPort m) m.level))

/-- The verdict once every close word is in (R293, R294). -/
def closeRound (s : State) (c : Cmd) (co : Coll) : CollNext :=
  let l := co.closesInOrder
  if l.length < co.entries.length then .wait s co
  else if l.any (fun w => w.failed) then
    .done (failColl (tickFree s) c co (0x31, (Config.freeWord s.freeCtr).toNat % 2 ^ 24))
  else
    let off := distinctOff l
    let low := lowestOff l
    if off = 1 ∧ co.excluded = none ∧ s.job.policy = 1 ∧ 1 < co.size 0 then
      let inRing := ((List.range (co.size 0)).map (co.memberRank 0)).contains low
      let backup := ((co.entries.find? (fun e => e.rank == low)).map (fun e => e.backup)).getD 0xFFFFFFFF
      let copy := inRing && backup != 0xFFFFFFFF
      let co1 := co.again (microsOn s 5) low copy (contribution s c co.entries.length)
      if copy then sendFor s c co1 [shortMsg s c co1 2 backup (toLe 4 low)] else .go s co1
    else .done (endReduction s c co off low)

/-- A reduction's stage that has all its inputs (R291): the totals, then the next stage's messages or the close words. -/
def reduceStage (s : State) (c : Cmd) (co0 : Coll) : CollNext :=
  let k := co0.stage
  if missingRanks s c co0 k ≠ [] then .wait s co0
  else
    let badCopy := k == 0 && (match co0.excluded with
      | some r => (co0.adding 0).contains r && (co0.got 0 r true).any (fun x => decide (0 < x.nonfinite))
      | none => false)
    let co := if badCopy then { co0 with rescale := true } else co0
    let tot := stageTotals s c co k
    let copies := if k = 0 then ((co.adding 0).filter (fun r =>
      r != co.own && useCopy s c co 0 r && (co.excluded == none || co.excluded == some r))).length else 0
    let s1 := { s with peers := { s.peers with bbackup := satAdd 32 s.peers.bbackup copies } }
    let co1 := { co with
      backupTaken := co.backupTaken || decide (0 < copies)
      offenders := if k = 0 then offendersOf s c co else co.offenders }
    if k + 1 < co.dims.length then
      let co2 := { co1 with stage := k + 1, since := microsOn s 5, held := tot.map toBfWord }
      sendFor s1 c co2 (((List.range (co2.size (k + 1))).filter (fun j => co2.memberRank (k + 1) j != co2.own)).flatMap (fun j =>
        let p := co2.part (k + 1) (co2.memberIdx (k + 1) j)
        inputMsgs s1 c co2 0 (k + 1) (co2.memberRank (k + 1) j) ((co2.held.drop (p.1 - co2.heldStart (k + 1))).take p.2)))
    else
      let co2 := { co1 with settled := true, since := microsOn s 5, totals := tot }
      let co3 := { co2 with closes := co2.closes ++ [co2.ownClose] }
      sendFor s1 c co3 (co3.others.map (fun r => shortMsg s1 c co3 1 r (closeBytes co3.ownClose)))

/-! ## All-gather (R298) -/

/-- A gather's stage that has all its pieces: what is held after it, and the next stage's messages or the end. -/
def gatherStage (s : State) (c : Cmd) (co : Coll) : CollNext :=
  let k := co.stage
  if missingRanks s c co k ≠ [] then .wait s co
  else
    let copies := ((co.adding k).filter (fun r => r != co.own && useCopy s c co k r)).length
    let all := (List.range (co.size k)).flatMap (fun j =>
      if co.memberRank k j = co.own then co.held else inputValues s c co k (co.memberRank k j))
    let s1 := { s with peers := { s.peers with bbackup := satAdd 32 s.peers.bbackup copies } }
    let co1 := { co with held := all, backupTaken := co.backupTaken || decide (0 < copies) }
    if k = 0 then
      let o := readDesc s (c.arg 0x12 2)
      let w := fwidth o.fmt / 8
      let notes := (if co.elems = 0 then 0x100 else 0) + (if co1.backupTaken then 0x20 else 0)
      .done (finishWork (dropColl s1 co) c (notedResult notes (collWork s c co)
        ((if all = [] then [] else [.write o.home (wordsOut w all)]) ++ [.generation o.id (BitVec.ofNat 64 co.generation)])))
    else
      let co2 := { co1 with stage := k - 1, since := microsOn s 5 }
      sendFor s1 c co2 (((List.range (co2.size (k - 1))).filter (fun j => co2.memberRank (k - 1) j != co2.own)).flatMap (fun j =>
        inputMsgs s1 c co2 1 (k - 1) (co2.memberRank (k - 1) j) co2.held))

/-! ## Messages taken in -/

/-- Kind, non-finite count, stage code and segment of a class 0 header (R285). -/
def specKind (w : Word) : Nat := bits w.toNat 31 30

/-- The kind of a class 4 message (R285). -/
def shortKind (w : Word) : Nat := bits w.toNat 15 12

/-- Whether a message belongs to a collective: class 0, or a close word, under its id. -/
def Coll.takes (co : Coll) (h : Header) : Bool :=
  h.id == co.collId && !co.standby &&
  ((h.cls == 0 && (if co.gather then specKind h.spec == 1 else specKind h.spec == 0 || specKind h.spec == 2)) ||
   (h.cls == 4 && shortKind h.spec == 1 && !co.gather))

/-- The primary that a copy or a mirrored piece from rank `b` stands for: the first asked for of it whose segment is
not here (log 42). -/
def Coll.primaryOf (co : Coll) (b k seg : Nat) : Option Nat :=
  co.pulled.find? (fun r => (co.entries.any (fun e => e.rank == r && e.backup == b)) &&
    !(co.got k r true).any (fun x => x.segment == seg))

/-- Whether a rank is a member of the own ring of stage `k`. -/
def Coll.inRing (co : Coll) (k rank : Nat) : Bool := ((List.range (co.size k)).map (co.memberRank k)).contains rank

/-- Whether a member's copy is here whole, and so stands for its input: a primary that comes later is discarded (R292). -/
def Coll.copyIn (co : Coll) (w k rank : Nat) : Bool :=
  co.pulled.contains rank && (List.range (ceilDiv (co.expected k rank) (segElemsOf w))).all (fun i =>
    (co.got k rank true).any (fun x => x.segment == i))

/-- A class 0 message taken by a collective: the record, and whether the message is kept for the second run (R286,
R294). -/
def Coll.takeInput (co : Coll) (w : Nat) (h : Header) (payload : Bytes) : Coll × Bool :=
  let spec := h.spec.toNat
  let k := co.stageOf (bits spec 17 16)
  let seg := spec % 65536
  let body := if co.gather then payload.drop 8 else payload
  let mk (src : Nat) (copy : Bool) : CollInput :=
    { stage := k, src := src, segment := seg, backup := copy, nonfinite := bits spec 29 18, values := wordsIn w body,
      generation := if co.gather then field payload 0 8 else 0 }
  let direct := specKind h.spec != 2 && co.inRing k h.src
  if direct then
    (if (co.got k h.src false).any (fun x => x.segment == seg) then (co, co.settled && decide (0 < k))
     else if k = 0 ∧ !co.gather ∧ (decide (0 < co.stage) || co.settled || co.excluded == some h.src) then (co, false)
     else if co.copyIn w k h.src then (co, false)
     else ({ co with inputs := co.inputs ++ [mk h.src false] }, false))
  else
    match co.primaryOf h.src k seg with
    | some r => ({ co with inputs := co.inputs ++ [mk r true] }, false)
    | none => (co, false)

/-- A message taken by a collective. -/
def Coll.takeMsg (co : Coll) (w : Nat) (h : Header) (payload : Bytes) : Coll × Bool :=
  if h.cls = 0 then co.takeInput w h payload
  else if !(co.entries.any (fun e => e.rank == h.src)) then (co, false)
  else if co.closes.any (fun x => x.src == h.src) then (co, co.settled)
  else ({ co with closes := co.closes ++ [closeOf h.src payload] }, false)

/-- The messages kept in the module that a collective takes when it starts or runs again. -/
def takeKept (w : Nat) : List (Header × Bytes) → Coll → Coll × List (Header × Bytes)
  | [], co => (co, [])
  | m :: t, co =>
    if co.takes m.1 then
      let r := co.takeMsg w m.1 m.2
      let u := takeKept w t r.1
      (u.1, if r.2 then m :: u.2 else u.2)
    else
      let u := takeKept w t co
      (u.1, m :: u.2)

/-- The kept messages offered to a collective. -/
def offerKept (s : State) (c : Cmd) (co : Coll) : State × Coll :=
  let r := takeKept (collWidth s c) s.peers.inbox co
  ({ s with peers := { s.peers with inbox := r.2 } }, r.1)

/-- A piece whose generation differs from the local shard's (R298). -/
def badGeneration (co : Coll) : Option Nat :=
  if co.gather then
    (co.inputs.find? (fun x => x.generation != co.generation || x.generation == 2 ^ 64 - 1)).map (fun x => x.generation)
  else none

/-- One turn of a collective. -/
def collTurn (s : State) (c : Cmd) (co : Coll) : CollNext :=
  match badGeneration co with
  | some g => .done (failColl s c co (shardVersion (c.arg 0x10 2) g))
  | none => if co.gather then gatherStage s c co else if co.settled then closeRound s c co else reduceStage s c co

/-- Turns until the collective waits or ends: at most two runs of four stages and their close rounds. -/
def collRun : Nat → State → Cmd → Coll → State
  | 0, s, _, co => storeColl s co
  | n + 1, s, c, co =>
    match collTurn s c co with
    | .wait s1 co1 => storeColl s1 co1
    | .go s1 co1 => let r := offerKept s1 c co1; collRun n r.1 c r.2
    | .done s1 => s1

/-- The turns of a collective. -/
def runColl (s : State) (c : Cmd) (co : Coll) : State := collRun 16 s c co

/-! ## Start -/

/-- The record of a command that starts. -/
def newColl (s : State) (c : Cmd) : Coll :=
  let a := (readDesc s (c.arg 0x14 2)).home
  let n := rankCount s.mem a
  let dims := rankDims s.mem a
  let gather := c.opcode == 0x0302
  let src := readDesc s (c.arg 0x10 2)
  let e := collElems s c
  let ef := shardLen e n
  let i := (rankIndex s a n).getD 0
  let own := min ((i + 1) * ef) e - min (i * ef) e
  let held := if gather then ((contribution s c 1).take own) else contribution s c n
  { cid := c.cid, collId := c.word 0x1C, gather := gather, standby := !gather && bit (c.arg 0x19 1) 0,
    entries := (List.range n).map (rankEntry s.mem a), dims := dims, axes := (rtAxes (route s) (c.arg 0x18 1)).length,
    index := i, elems := e, shard := ef, spanMult := rankSpan s.mem a, since := c.begun, stage := if gather then dims.length - 1 else 0, held := held, inputs := [], pulled := [],
    settled := false, totals := [], closes := [], offenders := [], ownBad := !gather && decide (0 < countBad held),
    excluded := none, rescale := false, backupTaken := false, heard := [], generation := src.generation }

/-- The messages of the first stage. -/
def firstMsgs (s : State) (c : Cmd) (co : Coll) : List TxMsg :=
  let k := co.stage
  ((List.range (co.size k)).filter (fun j => co.memberRank k j != co.own)).flatMap (fun j =>
    if co.gather then inputMsgs s c co 1 k (co.memberRank k j) co.held
    else
      let p := co.part 0 (co.memberIdx 0 j)
      inputMsgs s c co 0 0 (co.memberRank 0 j) ((co.held.drop p.1).take p.2))

/-! ## Standby ranks and pulls (R292, R297, R298) -/

/-- The copy that a backup sends for the owner `rank`: the part of its contribution that the owner adds at stage 1. -/
def copyMsgs (s : State) (c : Cmd) (co : Coll) (rank : Nat) : List TxMsg :=
  match (List.range co.entries.length).find? (fun i => (co.entry i).rank == rank) with
  | some i =>
    let p := co.part 0 i
    inputMsgs s c co 2 0 rank (((contribution s c 0).drop p.1).take p.2)
  | none => []

/-- A standby that has heard from every owner commits (R297). -/
def standbyCheck (s : State) (c : Cmd) (co : Coll) : State :=
  if co.entries.all (fun e => co.heard.contains e.rank) then finishWork (dropColl s co) c (succeeded 0 [])
  else storeColl s co

/-- A pull request or release word reaches a standby, a pull request a participant. -/
def heardFrom (s : State) (c : Cmd) (co : Coll) (src : Nat) (pull : Bool) : State :=
  let co1 := { co with heard := addTo co.heard src }
  let go (s : State) : State := if co.standby then standbyCheck s c co1 else storeColl s co1
  if pull then
    match sendAll 0 (copyMsgs s c co1 src) s with
    | (s1, none) => go s1
    | (s1, some m) => failColl s1 c co1 (linkLost (lastPort m) m.level)
  else go s

/-- A message taken off the list of those that wait for their engine. -/
def unkeep (s : State) (h : Header) (payload : Bytes) : State :=
  { s with peers := { s.peers with inbox := s.peers.inbox.erase (h, payload) } }

/-- A message kept until the command that takes it is dispatched. -/
def keepMsg (s : State) (h : Header) (payload : Bytes) : State :=
  { s with peers := { s.peers with inbox := s.peers.inbox ++ [(h, payload)] } }

/-- A message for this rank is taken by `f`; one for another rank is discarded and counted (R280). -/
def onMessage (s : State) (h : Header) (payload : Bytes) (f : State → State) : State :=
  let s1 := unkeep s h payload
  if s.peers.route ≠ none ∧ h.dst = ownRank s then f s1
  else { s1 with peers := { s1.peers with bmisroute := satAdd 32 s1.peers.bmisroute 1 } }

/-- The pulls and releases that came before a standby's command was dispatched. -/
def offerShort (cid : Nat) : List (Header × Bytes) → State → State
  | [], s => s
  | m :: t, s =>
    let k := shortKind m.1.spec
    match collOf s cid with
    | some (c, co) =>
      if m.1.cls = 4 ∧ m.1.id = co.collId ∧ (k = 2 ∨ k = 3) then
        offerShort cid t (heardFrom (unkeep s m.1 m.2) c co m.1.src (k == 2))
      else offerShort cid t s
    | none => s

/-- A collective starts (R290, R297, R298). -/
def startColl (s : State) (c : Cmd) : State :=
  let co := newColl s c
  let d := readDesc s (c.arg 0x10 2)
  let o := readDesc s (c.arg 0x12 2)
  if s.peers.colls.any (fun x => x.cid == c.cid) then s
  else if co.gather ∧ (d.generation = 2 ^ 64 - 1 ∨ (bit (c.arg 0x19 1) 0 ∧ o.generation ≠ d.generation)) then
    complete s c (shardVersion d.id d.generation) 0
  else if co.standby then
    let r := storeColl s co
    offerShort c.cid s.peers.inbox (standbyCheck r c co)
  else
    match sendFor s c co (firstMsgs s c co) with
    | .go s1 co1 => let r := offerKept s1 c co1; offerShort c.cid s.peers.inbox (runColl r.1 c r.2)
    | .wait s1 co1 => storeColl s1 co1
    | .done s1 => s1

/-- A dispatched collective of an opcode starts, its checks first. -/
def collStart (op cid : Nat) (s : State) : State :=
  onWork s cid [op] (fun c =>
    match collIssue s c with
    | some e => if s.peers.colls.any (fun x => x.cid == cid) then s else complete s c e 0
    | none => startColl s c)

/-- REDUCE_SCATTER (R288). -/
def execReduceScatter (cid : Nat) (s : State) : Ans := .next (collStart 0x0301 cid s)

/-- ALL_GATHER (R298). -/
def execAllGather (cid : Nat) (s : State) : Ans := .next (collStart 0x0302 cid s)

/-! ## The event rows -/

/-- A message of class 0 or a close word reaches its collective; before its command is dispatched it is kept. -/
def collMessage (h : Header) (payload : Bytes) (s : State) : State :=
  onMessage s h payload (fun s =>
    match collById s h.id with
    | some (c, co) =>
      if co.takes h then
        let r := co.takeMsg (collWidth s c) h payload
        if r.2 then keepMsg s h payload else runColl s c r.1
      else s
    | none => keepMsg s h payload)

/-- BASIN_INPUT_RECEIVE (R290, R291). -/
def execBasinInputReceive (h : Header) (payload : Bytes) (s : State) : Ans :=
  .next (if h.cls = 0 ∧ specKind h.spec ≠ 1 then collMessage h payload s else s)

/-- GATHERED_PIECE_RECEIVE (R298). -/
def execGatheredPieceReceive (h : Header) (payload : Bytes) (s : State) : Ans :=
  .next (if h.cls = 0 ∧ specKind h.spec = 1 then collMessage h payload s else s)

/-- CLOSE_WORD_RECEIVE (R293). -/
def execCloseWordReceive (h : Header) (payload : Bytes) (s : State) : Ans :=
  .next (if h.cls = 4 ∧ shortKind h.spec = 1 then collMessage h payload s else s)

/-- The pull requests that W1 sends: for each missing primary of stage 1 that has a backup (R292); for a gather, of its
first stage (R298). -/
def w1Pulls (s : State) (c : Cmd) (co : Coll) : List (Nat × Nat) :=
  let first := if co.gather then co.dims.length - 1 else 0
  if co.stage ≠ first ∨ co.settled ∨ co.excluded ≠ none then []
  else (missingRanks s c co co.stage).filterMap (fun r =>
    match co.entries.find? (fun e => e.rank == r) with
    | some e => if e.backup ≠ 0xFFFFFFFF ∧ !co.pulled.contains r then some (r, e.backup) else none
    | none => none)

/-- The payload of a pull request (log 42): the rank asked for; for a gather the generation and the elements expected. -/
def pullPayload (co : Coll) (rank : Nat) : Bytes :=
  toLe 4 rank ++ (if co.gather then toLe 8 co.generation ++ toLe 4 (co.expected co.stage rank) else [])

/-- COLLECTIVE_W1_EXPIRY (R292, R298). -/
def execCollectiveW1Expiry (cid : Nat) (s : State) : Ans :=
  .next (match collOf s cid with
    | some (c, co) =>
      if co.standby || !windowOver s co (w1Of c) then s
      else
        let ps := w1Pulls s c co
        let co1 := { co with pulled := co.pulled ++ ps.map (fun p => p.1) }
        match sendFor s c co1 (ps.map (fun p => shortMsg s c co1 2 p.2 (pullPayload co1 p.1))) with
        | .go s1 co2 => runColl s1 c co2
        | .wait s1 co2 => storeColl s1 co2
        | .done s1 => s1
    | none => s)

/-- COLLECTIVE_W2_EXPIRY (R292, R293, R294): a missing input or close word fails the collective; the copy of an
excluded rank that did not come is dropped. An owner that fails tells the others by a failed close word. -/
def execCollectiveW2Expiry (cid : Nat) (s : State) : Ans :=
  .next (match collOf s cid with
    | some (c, co) =>
      if co.standby || !windowOver s co (w2Of c) then s
      else if co.settled then
        match co.others.find? (fun r => !co.closes.any (fun w => w.src == r)) with
        | some r => failColl s c co (rankTimeout s c co (co.dims.length - 1) r)
        | none => s
      else if co.excluded ≠ none ∧ co.stage = 0 then runColl s c { co with rescale := true }
      else
        match missingRanks s c co co.stage with
        | r :: _ =>
          let w : CloseWord := { src := co.own, offCount := 0, offRank := 0xFFFFFFFF, q := 0, failed := true, backup := false }
          let s1 := if co.gather then s else (sendAll 0 (co.others.map (fun x => shortMsg s c co 1 x (closeBytes w))) s).1
          failColl s1 c co (rankTimeout s c co co.stage r)
        | [] => s
    | none => s)

/-- The mirror that this module hosts for a rank, valid at a generation (R298, R307). -/
def hostedMirror (s : State) (rank gen : Nat) : Option Mirror :=
  ((s.peers.mirrors.filter (fun e => !e.2.source && e.2.partner == rank && e.2.state == 1 && e.2.genC.toNat == gen)).head?).map
    (fun e => e.2)

/-- Offset of the images in a mirror region of `n` blocks: after the tags, aligned to 4 KiB (R307). -/
def imageStart (n : Nat) : Nat := ceilDiv (0x40 + 8 * n) 4096 * 4096

/-- The piece of a mirrored shard that answers a gather's pull (R298): the high plane, from the host's region. -/
def mirrorPiece (s : State) (co : Coll) (c : Cmd) (rank : Nat) (payload : Bytes) : List TxMsg :=
  match hostedMirror s (field payload 0 4) (field payload 4 8) with
  | some mr =>
    let ws := wordsIn 2 (s.mem.readN ((readDesc s mr.desc).base + imageStart mr.nblocks) (2 * field payload 12 4))
    inputMsgs s c { co with generation := field payload 4 8 } 1 (co.dims.length - 1) rank ws
  | none => []

/-- PULL_REQUEST_RECEIVE (R292, R297, R298). -/
def execPullRequestReceive (h : Header) (payload : Bytes) (s : State) : Ans :=
  .next (if h.cls = 4 ∧ shortKind h.spec = 2 then
    onMessage s h payload (fun s =>
      match collById s h.id with
      | some (c, co) =>
        if co.gather then
          match sendAll 0 (mirrorPiece s co c h.src payload) s with
          | (s1, none) => s1
          | (s1, some m) => failColl s1 c co (linkLost (lastPort m) m.level)
        else heardFrom s c co h.src true
      | none => keepMsg s h payload)
    else s)

/-- RELEASE_WORD_RECEIVE (R297). -/
def execReleaseWordReceive (h : Header) (payload : Bytes) (s : State) : Ans :=
  .next (if h.cls = 4 ∧ shortKind h.spec = 3 then
    onMessage s h payload (fun s =>
      match collById s h.id with
      | some (c, co) => if co.standby then heardFrom s c co h.src false else s
      | none => keepMsg s h payload)
    else s)

/-- STANDBY_TIMEOUT (R297): level 3, the first owner not heard from. -/
def execStandbyTimeout (cid : Nat) (s : State) : Ans :=
  .next (match collOf s cid with
    | some (c, co) =>
      if co.standby && decide (co.since + 2 * w2Of c ≤ microsOn s 5) then
        match co.entries.find? (fun e => !co.heard.contains e.rank) with
        | some e =>
          let groups := groupsFor (routeOf s c.phase) (c.arg 0x18 1) (co.whereIs e.rank)
          failColl s c co (peerTimeout ((choosePort s 0 groups).getD ((groups.headD []).headD 0)) 3 e.rank)
        | none => s
      else s
    | none => s)

/-! ## Registers (R299) -/

/-- A word of the Basin register block. -/
def basinWord (s : State) (off : Nat) : Nat :=
  let b := s.peers
  if off = 0 then b2n b.final * 2 ^ 31 + b2n b.nonfinite * 4 + b2n b.excluded * 2 + b2n b.backup
  else if off = 4 then b.boffend
  else if off = 8 then b.bbackup
  else if off = 0xC then b.btimeout
  else if off = 0x10 then b.bexcl
  else if off = 0x14 then b.bmisroute
  else if off = 0x18 then (if b.switching = none then 0 else 256) + b.phase
  else if off = 0x1C then maskOf ((List.range 24).filter (fun p => (getPort s p).oldPhase))
  else 0

end Sys2Proof.Machine
end

