-- ==== Sys2Proof/Machine/Update.lean ====
section
/-! DEFINITION. The update engine: UPDATE_SGD, UPDATE_ADAM and UPDATE_LION (R162-R168), the loss scale (R170-R172), and
the blocks sent to the mirror (R307, R308). -/

namespace Sys2Proof.Machine

/-! ## Parameters (R164, R165) -/

/-- Nesterov, clip by global norm, bias correction. -/
def Cmd.uflag (c : Cmd) (i : Nat) : Bool := bit (c.arg 0x31 1) i

/-- Whether a word is finite and in a range told by `f`. -/
def hyper (c : Cmd) (off : Nat) (f : Word → Bool) : Option Err :=
  need (isFinite (c.word off) && f (c.word off)) (badParam off 2)

/-- At least 0. -/
def atLeast0 (w : Word) : Bool := fle 0 w

/-- From 0 up to, and without, 1. -/
def belowOne (w : Word) : Bool := fle 0 w && flt w 0x3F800000#32

/-- More than 0. -/
def above0 (w : Word) : Bool := flt 0 w

/-- A state descriptor (R165): needed, allowed or not used by the opcode; E elements, in place, not compressed. -/
def stateField (s : State) (c : Cmd) (off : Nat) (needed allowed : Bool) (e : Nat) : Option Err :=
  let d := readDesc s (c.arg off 2)
  if c.arg off 2 = 0 then need (!needed) (badParam off 3)
  else firstErr [need allowed (badParam off 3), descCheck s (c.arg off 2) off false, plainCheck s (c.arg off 2) off,
    need (d.elems == e && (!d.pingpong || off == 0x12)) (badParam off 3)]

/-- State and gradient formats (R165). -/
def stateFormat (s : State) (c : Cmd) (off : Nat) : Option Err :=
  let d := readDesc s (c.arg off 2)
  need (c.arg off 2 == 0 || decide (d.fmt ≤ 1)) (formatUnsupported 3 d.fmt)

/-- The packet checks of the update commands (R164, R165). -/
def updatePacket (s : State) (c : Cmd) : Option Err :=
  let sgd := c.opcode == 0x0501
  let adam := c.opcode == 0x0502
  let m := readDesc s (c.arg 0x10 2)
  let e := m.elems
  let bias := adam && c.uflag 2
  firstErr [
    descCheck s m.id 0x10 false, plainCheck s m.id 0x10, need (m.isMaster && decide (2 * e ≤ m.half)) (badParam 0x10 3),
    stateField s c 0x12 true true e, stateField s c 0x14 (!sgd) true e, stateField s c 0x16 adam adam e,
    hyper c 0x18 atLeast0, hyper c 0x1C belowOne,
    if sgd then zeroField c 0x20 4 else hyper c 0x20 belowOne,
    if adam then hyper c 0x24 atLeast0 else zeroField c 0x24 4,
    hyper c 0x28 atLeast0,
    if adam then need (!bias || c.arg 0x2C 4 != 0) (badParam 0x2C 2) else zeroField c 0x2C 4,
    need (decide (c.arg 0x30 1 < 16)) (badParam 0x30 2), zeroBits c 0x31 0xF8,
    need (sgd || !c.uflag 0) (badParam 0x31 1), need (adam || !c.uflag 2) (badParam 0x31 1), zeroField c 0x32 2,
    hyper c 0x34 (fun w => !c.uflag 1 || above0 w), zeroField c 0x38 8,
    stateFormat s c 0x12, stateFormat s c 0x14, stateFormat s c 0x16]

/-- Whether the ranges of descriptor `b` meet those of descriptor `a`. -/
def descsMeet (s : State) (a b : Nat) : Bool :=
  a != 0 && b != 0 && overlaps ((readDesc s a).ranges s) ((readDesc s b).ranges s)

/-- Sizes, mapping and overlap at issue (R64, R231, R42). -/
def updateIssue (s : State) (c : Cmd) : Option Err :=
  let m := readDesc s (c.arg 0x10 2)
  let size (off : Nat) : Option Err :=
    if c.arg off 2 = 0 then none else sizeCheck s (readDesc s (c.arg off 2)) (readDesc s (c.arg off 2)).bytes off
  let clear (off : Nat) (l : List Nat) : Option Err :=
    need (!l.any (fun o => descsMeet s (c.arg o 2) (c.arg off 2))) (badParam off 4)
  firstErr [need (m.isMaster && decide (2 * m.elems ≤ m.half)) (badParam 0x10 3), need (m.placed s) (badParam 0x10 3),
    size 0x12, size 0x14, size 0x16, clear 0x12 [0x10], clear 0x14 [0x10, 0x12], clear 0x16 [0x10, 0x12, 0x14]]

/-! ## The arithmetic (R166) -/

/-- pw(): a power by repeated squaring, each product rounded; `n` bounds the turns of the loop. -/
def pw : Nat → Word → Nat → Word → Word
  | 0, r, _, _ => r
  | n + 1, r, t, x => if t = 0 then r else pw n (if t % 2 = 1 then fmul r x else r) (t / 2) (fmul x x)

/-- One in FP32. -/
def fOne : Word := 0x3F800000#32

/-- The constants of an update command. -/
structure UpdateK where
  op : Nat
  nesterov : Bool
  moment : Bool
  lr : Word
  beta1 : Word
  beta2 : Word
  eps : Word
  k : Word
  a : Word
  ob1 : Word
  ob2 : Word
  bc1 : Word
  bc2 : Word
  deriving DecidableEq, Repr

/-- The clip factor c from the norm and the scale that the command read at its dispatch. -/
def clipFactor (c : Cmd) : Word :=
  let n := fdiv (fsqrt c.norm) c.scale
  if c.uflag 1 && flt (c.word 0x34) n then fdiv (c.word 0x34) n else fOne

/-- The constants of R166. -/
def updateConsts (c : Cmd) : UpdateK :=
  let bias := c.opcode == 0x0502 && c.uflag 2
  let corr (b : Word) : Word := if bias then fsub fOne (pw 33 fOne (c.arg 0x2C 4) b) else fOne
  { op := c.opcode, nesterov := c.uflag 0, moment := c.arg 0x14 2 != 0, lr := c.word 0x18, beta1 := c.word 0x1C,
    beta2 := c.word 0x20, eps := c.word 0x24, k := fdiv (clipFactor c) c.scale,
    a := fsub fOne (fmul (c.word 0x18) (c.word 0x28)), ob1 := fsub fOne (c.word 0x1C), ob2 := fsub fOne (c.word 0x20),
    bc1 := corr (c.word 0x1C), bc2 := corr (c.word 0x20) }

/-- sign(): +1, -1, or 0 for either zero; NaN stays NaN. -/
def signWord (w : Word) : Word :=
  match f32 w with
  | .nan => 0x7FC00000#32
  | x => if x.isZero then 0 else if x.isNeg then 0xBF800000#32 else fOne

/-- An element: master, first and second moment. -/
structure Elem where
  w : Word
  m : Word
  v : Word
  deriving DecidableEq, Repr

/-- The new master and state of one element, not yet rounded into the stored formats. -/
def updateElem (k : UpdateK) (x : Elem) (grad : Word) : Elem :=
  let g := fmul grad k.k
  let fin (d m v : Word) : Elem := { w := ffma (fneg k.lr) d (fmul x.w k.a), m := m, v := v }
  if k.op = 0x0501 then
    (if k.moment then
       let m := ffma k.beta1 x.m g
       fin (if k.nesterov then ffma k.beta1 m g else m) m x.v
     else fin g x.m x.v)
  else if k.op = 0x0502 then
    let m := ffma k.beta1 x.m (fmul k.ob1 g)
    let v := ffma k.beta2 x.v (fmul k.ob2 (fmul g g))
    fin (fdiv (fdiv m k.bc1) (fadd (fsqrt (fdiv v k.bc2)) k.eps)) m v
  else
    fin (signWord (ffma k.beta1 x.m (fmul k.ob1 g))) (ffma k.beta2 x.m (fmul k.ob2 g)) x.v

/-! ## Stored state -/

/-- The stored code of element `i` of a state or gradient descriptor. -/
def storedAt (m : Memory) (d : Desc) (i : Nat) : Nat := leNat (m.readN (d.home + i * (fwidth d.fmt / 8)) (fwidth d.fmt / 8))

/-- The same widened to FP32 (R71). -/
def widenedAt (m : Memory) (d : Desc) (i : Nat) : Word := toF32 (decodeElem d.fmt (storedAt m d i))

/-- The master word of element `i` (R162). -/
def masterAt (m : Memory) (d : Desc) (i : Nat) : Word :=
  BitVec.ofNat 32 (leNat (m.readN (d.base + 2 * i) 2) * 65536 + leNat (m.readN (d.base + d.half + 2 * i) 2))

/-- What an element holds after the command: the master word, the codes of the moments, and whether it was held. -/
structure NewElem where
  w : Word
  m : Nat
  v : Nat
  held : Bool
  deriving DecidableEq, Repr

/-- An element as it stands. -/
def oldElem (s : State) (dm d1 d2 : Desc) (i : Nat) : NewElem :=
  { w := masterAt s.mem dm i, m := if d1.id = 0 then 0 else storedAt s.mem d1 i, v := if d2.id = 0 then 0 else storedAt s.mem d2 i,
    held := false }

/-- One element (R166, R167): held where the master or a new state value is not finite. -/
def newElem (s : State) (k : UpdateK) (dm dg d1 d2 : Desc) (i : Nat) : NewElem :=
  let old : Elem :=
    { w := masterAt s.mem dm i, m := if d1.id = 0 then 0 else widenedAt s.mem d1 i,
      v := if d2.id = 0 then 0 else widenedAt s.mem d2 i }
  let x := updateElem k old (widenedAt s.mem dg i)
  let c1 := (rneCode d1.fmt (f32 x.m)).code
  let c2 := (rneCode d2.fmt (f32 x.v)).code
  let ok := isFinite x.w && (d1.id == 0 || (decodeElem d1.fmt c1).isFin) && (d2.id == 0 || (decodeElem d2.fmt c2).isFin)
  if ok then { w := x.w, m := c1, v := c2, held := false } else { oldElem s dm d1 d2 i with held := true }

/-- The descriptor behind a field; the record of id 0 where none is named. -/
def descOr (s : State) (id : Nat) : Desc :=
  if id = 0 then
    { id := 0, base := 0, half := 0, plan := [], fmt := 0, dflags := 0, dims := 0, generation := 0, cmeta := 0 }
  else readDesc s id

/-- The bytes of the master's high and low planes and of the moments, from element `a`, `n` of them. -/
def newBytes (d1 d2 : Desc) (es : List NewElem) : List Bytes :=
  [es.flatMap (fun e => toLe 2 (e.w.toNat / 65536)), es.flatMap (fun e => toLe 2 (e.w.toNat % 65536)),
   if d1.id = 0 then [] else es.flatMap (fun e => toLe (fwidth d1.fmt / 8) e.m),
   if d2.id = 0 then [] else es.flatMap (fun e => toLe (fwidth d2.fmt / 8) e.v)]

/-- The writes of the new state. -/
def stateWrites (dm d1 d2 : Desc) (es : List NewElem) : List Effect :=
  let b := newBytes d1 d2 es
  [.write dm.base (b.getD 0 []), .write (dm.base + dm.half) (b.getD 1 [])] ++
  (if d1.id = 0 then [] else [.write d1.base (b.getD 2 [])]) ++ (if d2.id = 0 then [] else [.write d2.base (b.getD 3 [])])

/-! ## The mirror (R308) -/

/-- Elements of a state block. -/
def blockElems : Nat := 1024

/-- The mirror slot that has a descriptor as its source master, valid or filling. -/
def mirrorOf (s : State) (desc : Nat) : Option (Nat × Mirror) :=
  s.peers.mirrors.find? (fun e => e.2.source && e.2.desc == desc && (e.2.state == 1 || e.2.state == 2))

/-- Elements that already hold the generation of the next update: a mirror found filling by RESTORE keeps its first
`done` blocks (R309). -/
def landedElems (s : State) (dm : Desc) : Nat :=
  match mirrorOf s dm.id with
  | some (_, mr) => if mr.state = 2 ∧ mr.genF.toNat = (dm.generation + 1) % 2 ^ 64 then mr.done * blockElems else 0
  | none => 0

/-- The payload of one block message: its generation (R285) and its share of each image (R307). -/
def blockPayload (gen : Nat) (d1 d2 : Desc) (es : List NewElem) (b : Nat) : Bytes :=
  toLe 8 gen ++ (newBytes d1 d2 ((es.drop (b * blockElems)).take blockElems)).flatMap id

/-- The block messages of an update to generation `gen`, blocks from `first` on, in increasing index; a partner that no
port reaches gets none, and the break of the mirror follows (MIRROR_BREAK_TIMEOUT). The number tells how many blocks the
mirror will then have. -/
def sendBlocks (slot : Nat) (mr : Mirror) (c : Cmd) (gen first n : Nat) (d1 d2 : Desc) (es : List NewElem) (s : State) : State × Nat :=
  ((List.range n).filter (first ≤ ·)).foldl (fun (a : State × Nat) b =>
    match sendTx a.1 0 { txOf a.1 c 3 mr.laxis mr.partner .unknown 3 (BitVec.ofNat 32 slot) (BitVec.ofNat 32 b)
      (blockPayload gen d1 d2 es b) with cid := none } with
    | some s1 => (s1, a.2 + 1)
    | none => a) (s, first)

/-- The mirror of the updated master filled with generation `gen` (R308); a mirror that RESTORE found filling keeps
its first `done` blocks (R309). -/
def fillMirror (s : State) (c : Cmd) (gen e : Nat) (d1 d2 : Desc) (es : List NewElem) : State :=
  match mirrorOf s (c.arg 0x10 2) with
  | none => s
  | some (slot, mr) =>
    let n := ceilDiv e blockElems
    let first := if mr.state = 2 then mr.done else 0
    let s1 := sendBlocks slot mr c gen first n d1 d2 es s
    let mr1 : Mirror := { mr with state := 2, genF := BitVec.ofNat 64 gen, done := s1.2, nblocks := n }
    { s1.1 with peers := { s1.1.peers with mirrors := mput s1.1.peers.mirrors slot mr1 } }

/-! ## The commands -/

/-- The result of an update whose verdict is non-finite (R168, R49). -/
def skippedResult (s : State) (c : Cmd) : Result :=
  let e := stepNonfinite s.peers.offCount s.job.policy s.peers.offMine
  { status := e.1, detail := e.2, work := 0, effects := [.clip (clipFactor c)] }

/-- The ranges that an update claims from its dispatch on (R48): the low plane and the moments. The high plane stays
readable, old or new in each element (R163). -/
def updateTargets (s : State) (c : Cmd) : List (Nat × Nat) :=
  let dm := readDesc s (c.arg 0x10 2)
  let d1 := descOr s (c.arg 0x14 2)
  let d2 := descOr s (c.arg 0x16 2)
  let size (d : Desc) : List (Nat × Nat) := if d.id = 0 then [] else [(d.base, dm.elems * (fwidth d.fmt / 8))]
  (dm.base + dm.half, 2 * dm.elems) :: (size d1 ++ size d2)

/-- The new high plane of a master offered to readers element by element (R163). -/
def offerHigh (s : State) (c : Cmd) (a : Nat) (b : Bytes) : State :=
  { s with mem := s.mem.offer c.cid s.freeCtr a b, freeCtr := s.freeCtr + 1 }

/-- The elements of the master after an update (R166, R167, R309). -/
def updateElems (s : State) (c : Cmd) : List NewElem :=
  let v := ownView s c.cid
  let dm := readDesc s (c.arg 0x10 2)
  let d1 := descOr s (c.arg 0x14 2)
  let d2 := descOr s (c.arg 0x16 2)
  let skip := landedElems s dm
  (List.range dm.elems).map (fun i =>
    if i < skip then oldElem v dm d1 d2 i else newElem v (updateConsts c) dm (readDesc s (c.arg 0x12 2)) d1 d2 i)

/-- The generation after an update (R164). -/
def nextGeneration (d : Desc) : Nat := (d.generation + 1) % 2 ^ 64

/-- The result of an update with a finite verdict (R166-R168, R173): new state, generation, held elements, clip factor and the
mirror's commit; note bit 10 where an excluded module's values were left out. -/
def updateResult (s : State) (c : Cmd) : Result :=
  let dm := readDesc s (c.arg 0x10 2)
  let es := updateElems s c
  let gen := BitVec.ofNat 64 (nextGeneration dm)
  let ws := stateWrites dm (descOr s (c.arg 0x14 2)) (descOr s (c.arg 0x16 2)) es
  let mirror : List Effect :=
    match mirrorOf s dm.id with
    | some (slot, _) => [.mirrorSet slot 1 gen gen 0]
    | none => []
  notedResult (if s.peers.excluded then 0x400 else 0) (((writeRanges ws).map (fun r => r.2)).sum / 1024)
    (ws ++ [.generation dm.id gen, .held ((es.filter (fun e => e.held)).length), .clip (clipFactor c)] ++ mirror)

/-- The state in which an update with a finite verdict waits for its commit: its mirror is filled (R308), each element's new
high half may be read (R163). -/
def updateOffered (s : State) (c : Cmd) : State :=
  let dm := readDesc s (c.arg 0x10 2)
  let d1 := descOr s (c.arg 0x14 2)
  let d2 := descOr s (c.arg 0x16 2)
  let es := updateElems s c
  offerHigh (fillMirror s c (nextGeneration dm) dm.elems d1 d2 es) c dm.base ((newBytes d1 d2 es).getD 0 [])

/-- An update command with its verdict (R168). -/
def updateRun (s : State) (c : Cmd) : State :=
  if s.peers.nonfinite then finishWork s c (skippedResult s c) else finishWork (updateOffered s c) c (updateResult s c)

/-- A dispatched update command of the given opcodes does its work once the step verdict is final (R168, R295); until
then it waits. -/
def updateTurn (ops : List Nat) (cid : Nat) (s : State) : State :=
  onWork s cid ops (fun c =>
    match updateIssue s c with
    | some e => complete s c e 0
    | none => if s.peers.final then updateRun s c else s)

/-- UPDATE_SGD (R166). -/
def execUpdateSgd (cid : Nat) (s : State) : Ans := .next (updateTurn [0x0501] cid s)

/-- UPDATE_ADAM (R166). -/
def execUpdateAdam (cid : Nat) (s : State) : Ans := .next (updateTurn [0x0502] cid s)

/-- UPDATE_LION (R166). -/
def execUpdateLion (cid : Nat) (s : State) : Ans := .next (updateTurn [0x0503] cid s)

/-- UPDATE_VERDICT_READY (R168): a waiting update command of any of the three opcodes goes on. -/
def execUpdateVerdictReady (cid : Nat) (s : State) : Ans := .next (updateTurn [0x0501, 0x0502, 0x0503] cid s)

/-! ## The loss scale (R171, R172) -/

/-- The packet checks of LOSS_SCALE. -/
def lossScalePacket (_ : State) (c : Cmd) : Option Err :=
  firstErr [hyper c 0x10 above0, need (flt fOne (c.word 0x14)) (badParam 0x14 2), hyper c 0x18 (fun w => above0 w && flt w fOne),
    hyper c 0x20 (fun w => above0 w && fle w (c.word 0x10)), hyper c 0x24 (fle (c.word 0x10)), zeroField c 0x28 24]

/-- LOSS_SCALE (R171): its effect comes at its commit. -/
def execLossScale (cid : Nat) (s : State) : Ans :=
  .next (onWork s cid [0x0504] (fun c =>
    finishWork s c (succeeded 0 [.lossScale (c.word 0x10) (c.word 0x14) (c.word 0x18) (c.word 0x20) (c.word 0x24) (c.arg 0x1C 4)])))

/-- The registers after LOSS_SCALE. -/
def Update.setScale (u : Update) (init growth backoff minScale maxScale : Word) (interval : Nat) : Update :=
  { u with
    lscur := init, lsnext := init, good := 0, adjusted := false, growth := growth, backoff := backoff,
    interval := interval, minScale := minScale, maxScale := maxScale }

/-- The adjustment by the first update command of step `step` to complete (R172). The good field is 24 bits wide
(R170). -/
def Update.adjust (u : Update) (step : Nat) (bad : Bool) : Update :=
  if u.adjusted ∧ u.lsstep = step then u
  else
    let u1 : Update :=
      if u.interval = 0 then u
      else if bad then { u with lsnext := fmax (fmul u.lscur u.backoff) u.minScale, good := 0 }
      else if u.good + 1 = u.interval then { u with lsnext := fmin (fmul u.lscur u.growth) u.maxScale, good := 0 }
      else { u with good := satAdd 24 u.good 1 }
    { u1 with lsstep := step, adjusted := true }

/-- A STEP_BEGIN that changes the step number (R169, R172). -/
def Update.newStep (u : Update) : Update := { u with lscur := u.lsnext, normq := [] }

/-- A word of the update engine window (R170). -/
def updateWord (u : Update) (off : Nat) : Nat :=
  if off = 0 then u.lscur.toNat
  else if off = 4 then u.lsnext.toNat
  else if off = 8 then b2n u.adjusted * 2 ^ 31 + u.good
  else if off = 0x10 then u.lsstep % 2 ^ 32
  else if off = 0x14 then u.lsstep / 2 ^ 32
  else if off = 0x18 then u.uheld
  else if off = 0x1C then u.uclip.toNat
  else if 0x40 ≤ off ∧ off < 0x80 then (mget 0 u.normq ((off - 0x40) / 4)).toNat
  else 0

end Sys2Proof.Machine
end

