-- ==== Sys2Proof/Machine/Mirrors.lean ====
section
/-! DEFINITION. The checkpoint mirror: MIRROR_CONFIG (R306), the region (R307), filling (R308), SNAPSHOT, RESTORE and
MIRROR_VERIFY (R309). -/

namespace Sys2Proof.Machine

/-! ## Records and images -/

/-- The record under a key: a source slot, or 256 more for a host. -/
def getMirror (s : State) (k : Nat) : Mirror := mget Mirror.reset s.peers.mirrors k

/-- The state with a mirror record replaced. -/
def setMirror (s : State) (k : Nat) (v : Mirror) : State := { s with peers := { s.peers with mirrors := mput s.peers.mirrors k v } }

/-- The state without a mirror record. -/
def dropMirror (s : State) (k : Nat) : State := { s with peers := { s.peers with mirrors := mdel s.peers.mirrors k } }

/-- Bytes of the four images: high plane, low plane, m1, m2 (R307). -/
def imageSizes (dm d1 d2 : Desc) : List Nat :=
  [2 * dm.elems, 2 * dm.elems, if d1.id = 0 then 0 else d1.bytes, if d2.id = 0 then 0 else d2.bytes]

/-- Device addresses of the images of the local state. -/
def imageBases (dm d1 d2 : Desc) : List Nat := [dm.base, dm.base + dm.half, d1.base, d2.base]

/-- State blocks of an image set. -/
def blocksOf (images : List Nat) : Nat := ceilDiv (images.getD 0 0 / 2) blockElems

/-- Offset of image `i` in a region: each is aligned to 4 KiB (R307). -/
def imageOff (images : List Nat) (i : Nat) : Nat :=
  imageStart (blocksOf images) + ((images.take i).map (fun n => ceilDiv n 4096 * 4096)).sum

/-- Bytes of a region. -/
def regionSize (images : List Nat) : Nat := imageOff images 3 + images.getD 3 0

/-- The part of image `i` that block `b` takes: offset and length. -/
def blockPart (images : List Nat) (i b : Nat) : Nat × Nat :=
  let e := max (images.getD 0 0 / 2) 1
  let w := images.getD i 0 / e
  (b * blockElems * w, min ((b + 1) * blockElems * w) (images.getD i 0) - min (b * blockElems * w) (images.getD i 0))

/-- Block `b` of the local state: its share of each image in order. -/
def localBlock (s : State) (dm d1 d2 : Desc) (b : Nat) : Bytes :=
  let im := imageSizes dm d1 d2
  (List.range 4).flatMap (fun i =>
    let p := blockPart im i b
    s.mem.readN ((imageBases dm d1 d2).getD i 0 + p.1) p.2)

/-- Block `b` as a host's region holds it. -/
def hostBlock (s : State) (mr : Mirror) (b : Nat) : Bytes :=
  let base := (readDesc s mr.desc).base
  (List.range 4).flatMap (fun i =>
    let p := blockPart mr.images i b
    s.mem.readN (base + imageOff mr.images i + p.1) p.2)

/-- The 64 bytes of a region header (R307). -/
def mirrorHeader (state slot source nblocks genC genF step done : Nat) : Bytes :=
  let b := [0x46#8, 0x4C#8, 0x44#8, 0x4D#8] ++ toLe 1 state ++ toLe 1 slot ++ toLe 2 0 ++ toLe 4 source ++ toLe 4 nblocks ++
    toLe 8 genC ++ toLe 8 genF ++ toLe 6 step ++ toLe 2 0 ++ toLe 4 done
  b ++ toLe 4 (crc32c b) ++ List.replicate 16 0

/-- The header of a host's record. -/
def hostHeader (slot : Nat) (mr : Mirror) : Bytes :=
  mirrorHeader mr.state slot mr.partner mr.nblocks mr.genC.toNat mr.genF.toNat mr.step mr.done

/-- A host's record stored, its header written into the region. -/
def storeHost (s : State) (slot : Nat) (mr : Mirror) : State :=
  let s1 := setMirror s (256 + slot) mr
  if mr.desc = 0 then s1 else hbmWrite s1 (readDesc s mr.desc).base (hostHeader slot mr)

/-! ## Messages of the mirror -/

/-- A class 3 message of a mirror slot; the kind lies in id bits 15:8 (log 46): 1 size, 2 answer, 3 remove, 4 verify,
5 CRCs, 6 restore, 7 restore data. Kind 0 is a block. -/
def mirrorMsg (s : State) (epoch laxis partner slot kind : Nat) (cid : Option Nat) (payload : Bytes) : TxMsg :=
  { cls := 3, phase := epoch, laxis := laxis, cid := cid, level := 3, groups := groupsFor (routeOf s epoch) laxis .unknown,
    data := classHeader partner (ownRank s) (BitVec.ofNat 32 (slot + 256 * kind)) 0 ++ payload, sent := 0, num := none }

/-- A message sent on behalf of a host or of a committed command; one that cannot leave is lost (R308). -/
def sendLoose (s : State) (m : TxMsg) : State := (sendTx s 0 m).getD s

/-! ## Checks -/

/-- The master and moment descriptors of a checkpoint command (R162, R165). -/
def stateDescs (s : State) (c : Cmd) (om o1 o2 : Nat) : Option Err :=
  let m := readDesc s (c.arg om 2)
  firstErr [descCheck s m.id om false, plainCheck s m.id om, need (m.isMaster && decide (2 * m.elems ≤ m.half)) (badParam om 3),
    stateField s c o1 false true m.elems, stateField s c o2 false true m.elems]

/-- Sizes and mapping of the same. -/
def stateSizes (s : State) (c : Cmd) (om o1 o2 : Nat) : Option Err :=
  let size (off : Nat) : Option Err :=
    if c.arg off 2 = 0 then none else sizeCheck s (readDesc s (c.arg off 2)) (readDesc s (c.arg off 2)).bytes off
  firstErr [need ((readDesc s (c.arg om 2)).placed s) (badParam om 3), size o1, size o2]

/-- The packet checks of MIRROR_CONFIG (R306). -/
def mirrorConfigPacket (s : State) (c : Cmd) : Option Err :=
  let role := c.arg 0x16 1
  firstErr [if role = 0 then stateDescs s c 0x10 0x12 0x14 else if role = 1 then collField s c 0x10 else none,
    need (decide (role ≤ 2)) (badParam 0x16 2), need (decide (c.arg 0x1C 1 ≤ 4)) (badParam 0x1C 2), zeroField c 0x1D 35]

/-- Its checks at issue. -/
def mirrorConfigIssue (s : State) (c : Cmd) : Option Err :=
  let role := c.arg 0x16 1
  firstErr [need (s.peers.route != none) (badParam 0 6), need (role != 0 || (rtAxes (route s) (c.arg 0x1C 1)) != []) (badParam 0x1C 2),
    if role = 0 then stateSizes s c 0x10 0x12 0x14
    else if role = 1 then need ((readDesc s (c.arg 0x10 2)).placed s) (badParam 0x10 3) else none]

/-- The packet checks of SNAPSHOT and RESTORE (R309). -/
def checkpointPacket (s : State) (c : Cmd) : Option Err :=
  let host := c.opcode == 0x0602 || c.arg 0x16 1 == 1
  firstErr [stateDescs s c 0x10 0x12 0x14,
    if c.opcode = 0x0602 then zeroField c 0x16 2 else need (decide (c.arg 0x16 1 ≤ 1)) (badParam 0x16 2),
    need (!host || c.arg 0x18 8 % 4096 == 0) (badParam 0x18 2), zeroField c 0x28 24]

/-- The images of a command's descriptors. -/
def cmdImages (s : State) (c : Cmd) : List Nat := imageSizes (readDesc s (c.arg 0x10 2)) (descOr s (c.arg 0x12 2)) (descOr s (c.arg 0x14 2))

/-- Their checks at issue: bytes available, bus mastering, mapping. -/
def checkpointIssue (s : State) (c : Cmd) : Option Err :=
  let host := c.opcode == 0x0602 || c.arg 0x16 1 == 1
  firstErr [need (host || s.peers.route != none) (badParam 0 6), stateSizes s c 0x10 0x12 0x14,
    need (!host || decide (regionSize (cmdImages s c) ≤ c.arg 0x20 8)) (badParam 0x20 2), need (!host || s.ctl.busMaster) (badParam 0 6)]

/-- The packet checks of MIRROR_VERIFY. -/
def mirrorVerifyPacket (s : State) (c : Cmd) : Option Err := firstErr [stateDescs s c 0x10 0x12 0x14, zeroField c 0x16 42]

/-- Its checks at issue. -/
def mirrorVerifyIssue (s : State) (c : Cmd) : Option Err :=
  firstErr [need (s.peers.route != none) (badParam 0 6), stateSizes s c 0x10 0x12 0x14,
    need (match mirrorOf s (c.arg 0x10 2) with
      | some (_, mr) => mr.state == 1
      | none => false) (badParam 0 6)]

/-- A message of a command sent; LINK_LOST where none can leave. -/
def sendOrLose (s : State) (c : Cmd) (m : TxMsg) : State :=
  match sendTx s 0 m with
  | some s1 => s1
  | none => complete s c (linkLost (lastPort m) m.level) 0

/-! ## MIRROR_CONFIG -/

/-- PEER_TIMEOUT of a mirror's partner, level 3. -/
def partnerTimeout (s : State) (c : Cmd) (laxis partner : Nat) : Err :=
  let groups := groupsFor (routeOf s c.phase) laxis .unknown
  peerTimeout ((choosePort s 0 groups).getD ((groups.headD []).headD 0)) 3 partner

/-- A source that has told its size commits when its mirror is valid (R306); one that broke while it was filled is
PEER_TIMEOUT (DESIGN CHOICE, log 98). -/
def mirrorConfigEnd (s : State) (c : Cmd) (slot : Nat) : State :=
  let mr := getMirror s slot
  if mr.asked then s
  else if mr.state = 1 then finishWork s c (succeeded (mr.images.sum / 1024) [])
  else if mr.state = 3 then complete s c (partnerTimeout s c mr.laxis mr.partner) 0
  else s

/-- The work of MIRROR_CONFIG: a host or removal commits at once; a source tells its size and waits. -/
def mirrorConfigRun (s : State) (c : Cmd) : State :=
  let slot := c.arg 0x17 1
  let partner := c.arg 0x18 4
  let laxis := c.arg 0x1C 1
  let role := c.arg 0x16 1
  if role = 1 then finishWork s c (succeeded 0 [.mirrorHost slot partner laxis (c.arg 0x10 2)])
  else if role = 2 then finishWork s c (succeeded 0 [.mirrorRemove slot partner])
  else if c.holds then mirrorConfigEnd s c slot
  else
    let im := cmdImages s c
    let mr : Mirror :=
      { Mirror.reset with
        source := true, partner := partner, laxis := laxis, desc := c.arg 0x10 2, m1 := c.arg 0x12 2, m2 := c.arg 0x14 2,
        nblocks := blocksOf im, images := im, asked := true }
    sendOrLose (putCmd (setMirror s slot mr) { c with holds := true }) c
      (mirrorMsg s c.phase laxis partner slot 1 (some c.cid) (im.flatMap (toLe 8)))

/-- MIRROR_CONFIG (R306). -/
def execMirrorConfig (cid : Nat) (s : State) : Ans :=
  .next (onWork s cid [0x0601] (fun c =>
    match mirrorConfigIssue s c with
    | some e => complete s c e 0
    | none => mirrorConfigRun s c))

/-- The dispatched source configuration of a slot. -/
def configOf (s : State) (slot : Nat) : Option Cmd :=
  s.cmds.find? (fun c => c.stage == .dispatched && c.opcode == 0x0601 && c.arg 0x16 1 == 0 && c.arg 0x17 1 == slot)

/-- MIRROR_CONFIG_TIMEOUT (R306): the host did not configure the slot within 1 s. -/
def execMirrorConfigTimeout (cid : Nat) (s : State) : Ans :=
  .next (onWork s cid [0x0601] (fun c =>
    if c.arg 0x16 1 = 0 ∧ (getMirror s (c.arg 0x17 1)).asked then
      complete (dropMirror s (c.arg 0x17 1)) c (partnerTimeout s c (c.arg 0x1C 1) (c.arg 0x18 4)) 0
    else s))

/-- The whole mirror filled with the current state after the host agreed (R306). -/
def fillWhole (s : State) (c : Cmd) (slot : Nat) : State :=
  let dm := readDesc s (c.arg 0x10 2)
  let d1 := descOr s (c.arg 0x12 2)
  let d2 := descOr s (c.arg 0x14 2)
  let mr := getMirror s slot
  let gen := BitVec.ofNat 64 dm.generation
  let s1 := (List.range mr.nblocks).foldl (fun (a : State × Nat) b =>
    match sendTx a.1 0 { mirrorMsg a.1 c.phase mr.laxis mr.partner slot 0 none [] with
      data := classHeader mr.partner (ownRank s) (BitVec.ofNat 32 slot) (BitVec.ofNat 32 b) ++ toLe 8 dm.generation ++ localBlock s dm d1 d2 b } with
    | some s1 => (s1, a.2 + 1)
    | none => a) (s, 0)
  let mr1 : Mirror :=
    if mr.nblocks = 0 then { mr with state := 1, genC := gen, genF := gen, step := s.job.step, asked := false }
    else { mr with state := 2, genF := gen, done := s1.2, asked := false }
  mirrorConfigEnd (setMirror s1.1 slot mr1) c slot

/-- What a host answers to a size: the bytes its region is short of (R306). -/
def answerSize (s : State) (slot : Nat) (mr : Mirror) : State :=
  let short := regionSize mr.images - (readDesc s mr.desc).half
  let mr1 : Mirror := { mr with asked := false, nblocks := blocksOf mr.images, state := 0 }
  let s1 := if short = 0 then storeHost s slot mr1 else setMirror s (256 + slot) mr1
  sendLoose s1 (mirrorMsg s1 s.peers.epoch mr.laxis mr.partner slot 2 none (toLe 8 short))

/-- A host configuration at its commit (R306): a size that came before is answered. -/
def configureHost (s : State) (slot partner laxis desc : Nat) : State :=
  let old := getMirror s (256 + slot)
  let mr : Mirror :=
    if old.asked ∧ old.partner = partner then { old with desc := desc, laxis := laxis, state := 0 }
    else { Mirror.reset with partner := partner, laxis := laxis, desc := desc }
  let s1 := storeHost s slot mr
  if mr.asked then answerSize s1 slot mr else s1

/-- A slot removed at its commit, and the partner told (R306). -/
def removeMirror (s : State) (slot : Nat) : State :=
  let tell (k : Nat) (s : State) : State :=
    if mhas s.peers.mirrors k then
      let mr := getMirror s k
      sendLoose (dropMirror s k) (mirrorMsg s s.peers.epoch mr.laxis mr.partner slot 3 none [])
    else s
  tell (256 + slot) (tell slot s)

/-! ## The host's side of filling (R308) -/

/-- A block's share of each image written into the region, from the message's bytes. -/
def writeShares (base : Nat) (images : List Nat) (b : Nat) : List Nat → Bytes → State → State
  | [], _, s => s
  | i :: t, data, s =>
    let p := blockPart images i b
    writeShares base images b t (data.drop p.2) (hbmWrite s (base + imageOff images i + p.1) (slice data 0 p.2))

/-- One block message at the host: the header set to filling where the generation is new, then image, tag, done + 1,
and valid after the last block. A block of that generation that is here already is discarded (R286). -/
def landBlock (s : State) (slot : Nat) (mr0 : Mirror) (b gen : Nat) (data : Bytes) : State :=
  let base := (readDesc s mr0.desc).base
  let fresh := mr0.state ≠ 2 ∨ mr0.genF.toNat ≠ gen
  let mr := if fresh then { mr0 with state := 2, genF := BitVec.ofNat 64 gen, done := 0 } else mr0
  let tag := base + 0x40 + 8 * b
  let here := mr0.state = 1 ∧ mr0.genC.toNat = gen ∨ ¬ fresh ∧ leNat (s.mem.readN tag 8) = gen
  if mr.nblocks ≤ b ∨ here then s
  else
    let s1 := hbmWrite (writeShares base mr.images b [0, 1, 2, 3] data (storeHost s slot mr)) tag (toLe 8 gen)
    let done := mr.done + 1
    storeHost s1 slot (if done = mr.nblocks then { mr with done := done, state := 1, genC := BitVec.ofNat 64 gen, step := s.job.step }
      else { mr with done := done })

/-- MIRROR_BLOCK_RECEIVE (R308). -/
def execMirrorBlockReceive (h : Header) (payload : Bytes) (s : State) : Ans :=
  .next (if h.cls = 3 then
    onMessage s h payload (fun s =>
      let slot := h.id.toNat % 256
      let mr := getMirror s (256 + slot)
      if mr.desc = 0 ∨ mr.partner ≠ h.src then s else landBlock s slot mr h.spec.toNat (field payload 0 8) (payload.drop 8))
    else s)

/-- A mirror broken, and logged (R308, R309, R413). -/
def breakMirror (s : State) (slot : Nat) : State :=
  let mr := getMirror s slot
  logNote (setMirror s slot { mr with state := 3 }) 0x1C 0 slot (toLe 4 mr.partner ++ toLe 8 mr.genF.toNat)

/-- MIRROR_BREAK_TIMEOUT (R308): the partner was unreachable for 100 ms while the mirror was filling. -/
def execMirrorBreakTimeout (slot : Nat) (s : State) : Ans :=
  .next (if (getMirror s slot).source ∧ (getMirror s slot).state = 2 then breakMirror s slot else s)

/-- The record set by a commit; a mirror broken meanwhile stays broken, and one whose blocks have not all landed stays
filling (R308). -/
def mirrorCommit (s : State) (slot state : Nat) (genC genF : DWord) (done : Nat) : State :=
  let mr := getMirror s slot
  let out := mr.state == 2 && mr.genF == genF && (decide (mr.done < mr.nblocks) || blocksOut s slot)
  if !mr.source ∨ mr.state = 3 then s
  else if state = 1 ∧ out then s
  else setMirror s slot { mr with
    state := state, genC := genC, genF := genF, done := done, step := if state = 1 then s.job.step else mr.step }

/-! ## SNAPSHOT and RESTORE (R309) -/

/-- The generation of a master is torn (R49). -/
def isTorn (d : Desc) : Bool := d.generation == 2 ^ 64 - 1

/-- Zero bytes up to the next multiple of 4 KiB. -/
def padTo4k (b : Bytes) : Bytes := b ++ List.replicate (ceilDiv b.length 4096 * 4096 - b.length) 0

/-- The region of R307 with the local state, its header aside: tags at the current generation, then the images. -/
def snapshotBody (s : State) (c : Cmd) : Bytes :=
  let dm := readDesc s (c.arg 0x10 2)
  let im := cmdImages s c
  let bases := imageBases dm (descOr s (c.arg 0x12 2)) (descOr s (c.arg 0x14 2))
  let tags := (List.range (blocksOf im)).flatMap (fun _ => toLe 8 dm.generation)
  let head := tags ++ List.replicate (imageStart (blocksOf im) - 0x40 - tags.length) 0
  head ++ (List.range 3).flatMap (fun i => padTo4k (s.mem.readN (bases.getD i 0) (im.getD i 0))) ++ s.mem.readN (bases.getD 3 0) (im.getD 3 0)

/-- The work of SNAPSHOT: the region without its header, then the header, valid last. -/
def snapshotRun (s : State) (c : Cmd) : Result :=
  let dm := readDesc s (c.arg 0x10 2)
  let body := snapshotBody s c
  let n := blocksOf (cmdImages s c)
  let a := c.arg 0x18 8
  if isTorn dm then failed (shardVersion dm.id dm.generation)
  else succeeded (kib body.length)
    [.host (a + 0x40) body, .host a (mirrorHeader 1 0 (ownRank s) n dm.generation dm.generation s.job.step n)]

/-- SNAPSHOT (R309). -/
def execSnapshot (cid : Nat) (s : State) : Ans :=
  .next (onWork s cid [0x0602] (fun c => applyRun s c (checked (checkpointIssue s c) (Run.plain (snapshotRun s c)))))

/-- MEM_UNCORRECTABLE for a shard that no mirror serves: the place of its first sector. -/
def noMirror (s : State) (d : Desc) : Err :=
  match s.mem.translate d.base with
  | some t => memUncorrectable t.1 t.2.1 (isTorn d)
  | none => memUncorrectable 0 0 (isTorn d)

/-- The images laid into the local descriptors. -/
def imageWrites (bases : List Nat) (images : List Nat) (at_ : Nat → Nat → Bytes) : List Effect :=
  (List.range 4).filterMap (fun i => if images.getD i 0 = 0 then none else some (.write (bases.getD i 0) (at_ i (images.getD i 0))))

/-- The result of a restore with the images at hand. -/
def restoreResult (s : State) (c : Cmd) (genC : Nat) (at_ : Nat → Nat → Bytes) (more : List Effect) : Result :=
  let dm := readDesc s (c.arg 0x10 2)
  let im := cmdImages s c
  succeeded (im.sum / 1024)
    (imageWrites (imageBases dm (descOr s (c.arg 0x12 2)) (descOr s (c.arg 0x14 2))) im at_ ++
      [.generation dm.id (BitVec.ofNat 64 genC)] ++ more)

/-- Whether a host image is a valid region for the descriptors. -/
def hostImageGood (b : Bytes) (n : Nat) : Bool :=
  slice b 0 4 == [0x46#8, 0x4C#8, 0x44#8, 0x4D#8] && field b 4 1 == 1 && field b 0xC 4 == n && field b 0x2C 4 == crc32c (slice b 0 0x2C)

/-- RESTORE from host memory. -/
def restoreHost (s : State) (c : Cmd) (host : HostRead) : Result :=
  let dm := readDesc s (c.arg 0x10 2)
  let im := cmdImages s c
  match host with
  | .failed => failed (badParam 0x18 2)
  | .data b =>
    if hostImageGood b (blocksOf im) then
      restoreResult s c (field b 0x10 8) (fun i n => slice b (imageOff im i) n) []
    else failed (noMirror s dm)

/-- RESTORE (R309): from the host at once; from the mirror by a request that the partner answers. -/
def execRestore (cid : Nat) (host : HostRead) (s : State) : Ans :=
  .next (onWork s cid [0x0603] (fun c =>
    match checkpointIssue s c with
    | some e => complete s c e 0
    | none =>
      let mr := getMirror s (c.arg 0x17 1)
      if c.arg 0x16 1 = 1 then finishWork s c (restoreHost s c host)
      else if !mr.source ∨ mr.desc ≠ c.arg 0x10 2 ∨ mr.state = 3 ∨ mr.state = 0 then
        complete s c (noMirror s (readDesc s (c.arg 0x10 2))) 0
      else if c.holds then s
      else sendOrLose (putCmd s { c with holds := true }) c (mirrorMsg s c.phase mr.laxis mr.partner (c.arg 0x17 1) 6 (some c.cid) [])))

/-- MIRROR_VERIFY (R309). -/
def execMirrorVerify (cid : Nat) (s : State) : Ans :=
  .next (onWork s cid [0x0604] (fun c =>
    match mirrorVerifyIssue s c with
    | some e => complete s c e 0
    | none =>
      match mirrorOf s (c.arg 0x10 2) with
      | some (slot, mr) =>
        if c.holds then s
        else sendOrLose (putCmd s { c with holds := true }) c (mirrorMsg s c.phase mr.laxis mr.partner slot 4 (some c.cid) [])
      | none => s))

/-! ## Messages received -/

/-- The dispatched command of an opcode that waits on a source slot's partner. -/
def waiterOf (s : State) (op slot : Nat) : Option Cmd :=
  s.cmds.find? (fun c => c.stage == .dispatched && c.opcode == op && c.arg 0x10 2 == (getMirror s slot).desc)

/-- The CRC values of the partner compared with the local blocks' (R309). -/
def verifyResult (s : State) (c : Cmd) (slot : Nat) (values : List Word) : State :=
  let dm := readDesc s (c.arg 0x10 2)
  let d1 := descOr s (c.arg 0x12 2)
  let d2 := descOr s (c.arg 0x14 2)
  let bad := (List.range (getMirror s slot).nblocks).find? (fun b =>
    values.getD b 0 != BitVec.ofNat 32 (crc32c (localBlock s dm d1 d2 b)) || decide (values.length ≤ b))
  match bad with
  | some b => complete (breakMirror s slot) c (streamDamaged 1 b) 0
  | none => finishWork s c (succeeded ((cmdImages s c).sum / 1024) [])

/-- The mirror's answer to a restore (R309): valid or filling serves, broken or empty does not. -/
def restoreAnswer (s : State) (c : Cmd) (slot state : Nat) (genC genF : DWord) (done : Nat) (image : Bytes) : State :=
  let im := cmdImages s c
  let at_ (i n : Nat) : Bytes := slice image ((im.take i).sum) n
  if state = 1 then finishWork s c (restoreResult s c genC.toNat at_ [.mirrorSet slot 1 genC genC 0])
  else if state = 2 then finishWork s c (restoreResult s c genC.toNat at_ [.mirrorSet slot 2 genC genF done])
  else complete s c (noMirror s (readDesc s (c.arg 0x10 2))) 0

/-- A size told by a source: answered where the slot is configured for it, else remembered. -/
def hearSize (s : State) (slot src : Nat) (images : List Nat) : State :=
  let mr := getMirror s (256 + slot)
  if mr.desc ≠ 0 ∧ mr.partner = src then answerSize s slot { mr with images := images, asked := true }
  else setMirror s (256 + slot) { mr with partner := src, images := images, asked := true }

/-- The images of a host's region, one after the other. -/
def hostImages (s : State) (mr : Mirror) : Bytes :=
  (List.range 4).flatMap (fun i => s.mem.readN ((readDesc s mr.desc).base + imageOff mr.images i) (mr.images.getD i 0))

/-- A configuration, verify or restore message. -/
def mirrorHear (s : State) (h : Header) (msg : MirrorMsg) : State :=
  let slot := h.id.toNat % 256
  let host := getMirror s (256 + slot)
  let answers := decide (host.desc ≠ 0 ∧ host.partner = h.src)
  match msg with
  | .configSize images => hearSize s slot h.src images
  | .configAnswer short =>
    (match configOf s slot with
     | some c =>
       if short = 0 then fillWhole s c slot
       else complete (dropMirror s slot) c (capacityShort 2 (gib short)) 0
     | none => s)
  | .remove =>
    let s1 := if answers then dropMirror s (256 + slot) else s
    if (getMirror s1 slot).source ∧ (getMirror s1 slot).partner = h.src then dropMirror s1 slot else s1
  | .verifyRequest =>
    if answers then
      sendLoose s (mirrorMsg s s.peers.epoch host.laxis host.partner slot 5 none
        ((List.range host.nblocks).flatMap (fun b => toLe 4 (crc32c (hostBlock s host b)))))
    else s
  | .crcs values =>
    (match waiterOf s 0x0604 slot with
     | some c => verifyResult s c slot values
     | none => s)
  | .restoreRequest =>
    if answers then
      sendLoose s (mirrorMsg s s.peers.epoch host.laxis host.partner slot 7 none
        (toLe 4 host.state ++ toLe 8 host.genC.toNat ++ toLe 8 host.genF.toNat ++ toLe 4 host.done ++ hostImages s host))
    else s
  | .restoreData state genC genF done image =>
    (match waiterOf s 0x0603 slot with
     | some c => restoreAnswer s c slot state genC genF done image
     | none => s)

/-- MIRROR_MESSAGE_RECEIVE (R306, R309). -/
def execMirrorMessageReceive (h : Header) (msg : MirrorMsg) (s : State) : Ans :=
  .next (if h.cls = 3 then
    (if s.peers.route ≠ none ∧ h.dst = ownRank s then mirrorHear s h msg
     else { s with peers := { s.peers with bmisroute := satAdd 32 s.peers.bmisroute 1 } })
  else s)

end Sys2Proof.Machine
end

