-- ==== Sys2Proof/Machine/Contain.lean ====
section
/-! DEFINITION. What takes units out of service: power domains (R384), the safe state (R366), kills that are re-run
(R50, R407), the retirement of Meres (R408), the loss of dies (R254, R255), containment (R406-R410). -/

namespace Sys2Proof.Machine

/-! ## Domains, stacks, the safe state -/

/-- The domains of a die (R384): C0, C1, X0, X1, S, K. -/
def dieDomains (d : Nat) : List Nat :=
  if d = 0 then List.range 38
  else if d = 1 then (List.range 38).map (· + 38)
  else if d = 2 then (List.range 6).map (· + 76)
  else if d = 3 then (List.range 6).map (· + 82)
  else if d = 4 then (List.range 6).map (· + 88)
  else [94]

/-- The cluster domains of both compute dies. -/
def clusterDomains : List Nat := (List.range 34) ++ (List.range 34).map (· + 38)

/-- The clusters whose domain a list holds. -/
def clustersIn (l : List Nat) : List Nat := (List.range 68).filter (fun c => l.contains (domainOf c))

/-- A Mere whose domain is switched off loses its memories (R385); its retirement stays. -/
def Mere.lose (m : Mere) : Mere :=
  { Mere.reset with retired := m.retired, cycles := m.cycles, nvRetired := m.nvRetired }

/-- Domains switched off: their clusters stop and their Meres lose what they held (R384, R385). -/
def domainsOff (s : State) (l : List Nat) : State :=
  let cl := clustersIn l
  { s with
    power := { s.power with
      domains := s.power.domains.filter (fun d => !l.contains d), ramping := s.power.ramping.filter (fun d => !l.contains d)
      clusters := s.power.clusters.map (fun e => if cl.contains e.1 then (e.1, { e.2 with freq := 0, limit := 7 }) else e) }
    compute := { s.compute with
      meres := s.compute.meres.map (fun e => if cl.contains (clusterOf e.1) then (e.1, e.2.lose) else e) } }

/-- Stacks put into self-refresh; their contents are kept (R255). -/
def stacksSleep (s : State) (l : List Nat) : State :=
  l.foldl (fun s n => setStackS s n { s.mem.stack n with selfRefresh := true }) s

/-- The stacks behind a compute die. -/
def dieStacks (d : Nat) : List Nat := if d = 0 then [0, 1, 2, 3] else if d = 1 then [4, 5, 6, 7] else []

/-- KIRQ's vector raised for the mailbox or a change of the module state (R353); it needs the endpoint. -/
def raiseKirq (s : State) : State := if barsUp s then emit s (.msix (s.ctl.kirq.toNat % 1024)) else s

/-- The safe state (R366) with a stage code. -/
def enterSafe (s : State) (stage : Nat) : State :=
  let s1 := stacksSleep (domainsOff s clusterDomains) (List.range 8)
  raiseKirq { s1 with ctl := { s1.ctl with kstate := 2, stage := stage } }

/-! ## The end of commands that wait for a re-run -/

/-- Commands that containment killed and has not re-dispatched complete with KILLED, cause 2, as the job fails. -/
def endReruns (s : State) : State :=
  let l := s.cmds.filter (fun c => s.rel.toRerun.contains c.cid && c.stage == .stopped)
  let s1 := finishAll (l.map (fun c => (c, killed 2 0))) s
  { s1 with rel := { s1.rel with toRerun := [] } }

/-- Whether a descriptor lies on stacks of compute die `d` (R228). -/
def onDie (s : State) (d id : Nat) : Bool :=
  id != 0 && (match windowOf (readDesc s id).base with
    | some w => w == 0 || w == d + 1
    | none => false)

/-- Whether a range of logical Meres reaches compute die `d`. -/
def mereOn (c : Cmd) (d : Nat) : Bool :=
  if d = 0 then decide (c.arg 0x30 1 < 128) else decide (128 ≤ c.arg 0x30 1 + c.arg 0x31 1)

/-- Whether a dispatched command needs a resource of lost compute die `d` (R52): Meres it names, the scheduler that homes
its signal counter, an engine or stacks behind its descriptors. An axis has ports on both link dies, and every message can
leave on the other one's (R260, R296). PHASE has read its table; STEP_BEGIN needs C0, which holds the guard's registers;
LOSS_SCALE both engines (DEDUCED, log 65). -/
def needsDie (s : State) (d : Nat) (c : Cmd) : Bool :=
  (c.signal != 0 && (decide (c.signal < 2048) == (d == 0))) ||
  (if 0x0101 ≤ c.opcode ∧ c.opcode ≤ 0x0107 then mereOn c d
   else if c.opcode = 0x0703 ∨ c.opcode = 0x0707 ∨ c.opcode = 0x0708 then false
   else if c.opcode = 0x0704 then d == 0
   else if c.opcode = 0x0504 then true
   else (c.opcode == 0x0301 && mereOn c d) || (descFieldsOf c.opcode).any (fun o => onDie s d (c.arg o 2)))

/-- The job fails (R52), commands waiting for a re-run included. -/
def jobFails (s : State) (lost : List Nat) (observed : Option Nat) : State :=
  if s.job.loaded then endReruns (failJob s (fun c => lost.any (fun d => needsDie s d c)) observed) else s

/-- The job fails with every dispatched command completing KILLED, cause 2 (R406 level 3, R382). -/
def jobFailsAll (s : State) : State :=
  let s1 := jobFails s [0, 1] none
  let l := s1.cmds.filter (fun c => decide (c.q < 64) && c.inFlight)
  tearAll l (finishAll (l.map (fun c => (c, killed 2 0))) s1)

/-! ## Kills that are re-run -/

/-- A command stopped without a reply (R50 step 2, R407): its decrements are returned, its seats given up, a batch in
assembly discarded. -/
def stopCmd (s : State) (c : Cmd) : State :=
  let s1 := returnTokens (releaseSeats (endClaims s c (c.opcode == 0x0102)) c.cid) c.q c.waits
  let s2 : State := if c.opcode = 0x0402 then setIngest s1 (c.arg 0x10 1) (discardAsm (getIngest s1 (c.arg 0x10 1))) else s1
  putCmd s2 { c with
    stage := .stopped, rerun := true, holds := false, result := if c.opcode = 0x0402 then c.result else none }

/-- Every command of a list stopped. -/
def stopCmds : List Cmd → State → State
  | [], s => s
  | c :: t, s => stopCmds t (stopCmd s c)

/-! ## Meres (R406-R408) -/

/-- The die of a physical Mere. -/
def mereDie (phys : Nat) : Nat := if phys < 136 then 0 else 1

/-- The commands seated on a physical Mere. -/
def seatedOn (s : State) (phys : Nat) : List Cmd :=
  let m := getMere s phys
  s.cmds.filter (fun c => c.inFlight && (m.running == some c.cid || m.waiting.any (fun w => w.cid == c.cid)))

/-- The exposed logical Mere that a physical one backs. -/
def logicalOf (s : State) (phys : Nat) : Option Nat :=
  let d := mereDie phys
  ((List.range (meresExposed s d)).map (fun l => 128 * d + l)).find? (fun l => physOf s l == phys)

/-- The junction temperature of a cluster: its hotter sensor. -/
def Cluster.temp (c : Cluster) : Int := max c.temp0 c.temp1

/-- The one of a list with the coolest cluster, the first among equals. -/
def coolest (s : State) : List Nat → Option Nat
  | [] => none
  | p :: t =>
    match coolest s t with
    | none => some p
    | some q => if (getCluster s (clusterOf p)).temp ≤ (getCluster s (clusterOf q)).temp then some p else some q

/-- Physical Meres of a die that are neither retired nor behind an exposed logical Mere. -/
def spareMeres (s : State) (d : Nat) : List Nat :=
  ((List.range 136).map (fun n => 136 * d + n)).filter (fun p => !(getMere s p).retired && logicalOf s p == none)

/-- Whether a compute command names a logical Mere (R56). -/
def namesMere (c : Cmd) (l : Nat) : Bool :=
  decide (0x0101 ≤ c.opcode ∧ c.opcode ≤ 0x0107) && decide (c.arg 0x30 1 ≤ l ∧ l ≤ c.arg 0x30 1 + c.arg 0x31 1)

/-- Commands on the logical Mere that is no longer exposed end with CAPACITY_SHORT (R408). -/
def endOnLast (s : State) (d l phys : Nat) : State :=
  let on := seatedOn s phys
  let dead := s.cmds.filter (fun c => on.any (fun x => x.cid == c.cid) ||
    (s.rel.toRerun.contains c.cid && c.stage == .stopped && namesMere c l))
  settle (finishAll (dead.map (fun c => (c, capacityShort d 1))) s)

/-- A physical Mere retired in service and its logical Mere remapped (R408). -/
def retireMere (s : State) (phys : Nat) : State :=
  let d := mereDie phys
  let m := getMere s phys
  if m.retired then s
  else
    let mark (s : State) : State :=
      let s1 := setMere s phys { (getMere s phys).lose with retired := true, nvRetired := m.nvRetired || decide (2 ≤ m.cycles) }
      { s1 with rel := { s1.rel with
        retired0 := if d = 0 then satAdd 16 s1.rel.retired0 1 else s1.rel.retired0
        retired1 := if d = 1 then satAdd 16 s1.rel.retired1 1 else s1.rel.retired1 } }
    match logicalOf s phys with
    | none => mark s
    | some l =>
      match coolest s (spareMeres s d) with
      | some p => { mark s with compute := { (mark s).compute with place := mput s.compute.place l p } }
      | none =>
        let hi := 128 * d + meresExposed s d - 1
        let s1 := endOnLast s d hi (physOf s hi)
        let s2 := mark s1
        if l = hi then s2 else { s2 with compute := { s2.compute with place := mput s2.compute.place l (physOf s hi) } }

/-- Meres retired in turn. -/
def retireMeres : List Nat → State → State
  | [], s => s
  | p :: t, s => retireMeres t (retireMere s p)

/-- The kill-class commands seated on any of a list of Meres are stopped and wait for their re-run (R407). -/
def killOn (s : State) (l : List Nat) : State :=
  let v := s.cmds.filter (fun c => isKill c.opcode && l.any (fun p => (seatedOn s p).any (fun x => x.cid == c.cid)))
  let s1 := stopCmds v s
  { s1 with rel := { s1.rel with toRerun := s1.rel.toRerun ++ v.map (·.cid) } }

/-! ## The loss of a die (R254, R255) -/

/-- The link die that a compute die takes with it. -/
def linkOf (d : Nat) : List Nat := if d = 0 then [2] else if d = 1 then [3] else []

/-- The ports of a link die. -/
def diePorts (d : Nat) : List Nat := if d = 2 then List.range 12 else if d = 3 then (List.range 12).map (· + 12) else []

/-- Ports lost with their link die, without entries of their own. -/
def portsGone : List Nat → State → State
  | [], s => s
  | p :: t, s => portsGone t (if (getPort s p).state = 0 then s else portLost s p)

/-- DSTAT and DSEEN after a loss (R259). -/
def markLost (s : State) (l : List Nat) : State :=
  let s1 := l.foldl (fun s d => setDie s d 2) s
  { s1 with dies := { s1.dies with dseen := s1.dies.dseen ||| BitVec.ofNat 32 (maskOf l) } }

/-- A die is taken out (R255, R406): a compute die fails the job with DIE_LOST, its stacks enter self-refresh, its link
die is unreachable; a link die's ports go down; S stops. -/
def takeDie (s : State) (d : Nat) : State :=
  let s1 := markLost s (d :: linkOf d)
  let s2 := if d < 2 then stacksSleep (jobFails s1 [d] (some d)) (dieStacks d) else s1
  portsGone ((d :: linkOf d).flatMap diePorts) s2

/-! ## Containment -/

/-- The die of an error's site; a module error has none. -/
def siteDie : ErrorSite → Nat
  | .mere p _ => mereDie p
  | .cluster d _ _ => d
  | .die d _ _ => d
  | .module _ => 6

/-- The level at which an error starts (R406); a fault of K is a module error. -/
def siteLevel : ErrorSite → Nat
  | .mere _ _ => 0
  | .cluster _ _ _ => 1
  | .die d _ _ => if d = 5 then 3 else 2
  | .module _ => 3

/-- Whether an error of a die is its loss (R254): its unit is 256 plus the bundle that went down first. -/
def isLoss : ErrorSite → Bool
  | .die _ u _ => decide (256 ≤ u)
  | _ => false

/-- The dies at the other ends of a die's bundles (R244). -/
def partners (d : Nat) : List Nat :=
  if d = 0 then [1, 2, 4, 5] else if d = 1 then [0, 3, 4, 5] else if d = 2 then [0] else if d = 3 then [1] else [0, 1]

/-- Whether an error lies inside the domain under handling (R409). -/
def insideOf (b : Contained) (e : ErrorSite) : Bool :=
  if b.level = 3 then true
  else if b.level = 2 then siteDie e == siteDie b.site || (isLoss e && (partners (siteDie b.site)).contains (siteDie e))
  else
    match b.site, e with
    | .cluster d c _, .mere p _ => mereDie p == d && (p - 136 * mereDie p) / 4 == c
    | .cluster d c _, .cluster d' c' _ => d == d' && c == c'
    | .mere p _, .mere q _ => p == q
    | _, _ => false

/-- Spares left on a die. -/
def sparesByte (s : State) (d : Nat) : Bytes := toLe 1 (sparesLeft s d)

/-- Whether the loss of a compute die ends a command with DIE_LOST (R52). -/
def dieLostSeen (s : State) (d : Nat) : Bool :=
  decide (d < 2) && s.job.loaded && !s.job.failed &&
  s.cmds.any (fun c => decide (c.q < 64) && c.inFlight && (isKill c.opcode || needsDie s d c))

/-- The log entry of a contained error (R412, R413). -/
def logSite (s : State) (e : ErrorSite) (flags cause : Nat) : State :=
  match e with
  | .mere p src =>
    let l := (logicalOf s p).getD 0xFFFF
    let tag := ((seatedOn s p).find? (fun c => isKill c.opcode)).map (fun c => c.tag.toNat)
    logAdd s 0x01 0 (mereDie p) (p - 136 * mereDie p) flags 0 0 cause (toLe 1 src ++ toLe 2 l ++ sparesByte s (mereDie p) ++ toLe 4 (tag.getD 0))
  | .cluster d c src => logAdd s 0x02 1 d c flags 0 0 cause (toLe 1 src ++ sparesByte s d)
  | .die d u a =>
    if d = 5 then logAdd s 0x05 3 5 0xFFFF flags 0 0 cause (toLe 1 1)
    else if 256 ≤ u then
      logAdd s 0x03 2 d (u - 256) flags (if dieLostSeen s d then 0x40 else 0) (if dieLostSeen s d then d else 0) cause (toLe 1 a)
    else logAdd s 0x04 2 d (if u ≤ 7 then u else 0xFFFF) flags 0 0 cause (toLe 4 a)
  | .module src => logAdd s 0x05 3 6 0xFFFF flags 0 0 cause (toLe 1 src)

/-- The sequence number of the entry just written. -/
def lastSeq (s : State) : Nat := (s.rel.log.getLast?.map (·.seq)).getD 0

/-- The four Meres of a cluster of a die. -/
def clusterMeres (d c : Nat) : List Nat := (List.range 4).map (fun k => 136 * d + 4 * c + k)

/-- An error under handling counted at its level (R415). -/
def countLevel (s : State) (l : Nat) : State := { s with rel := { s.rel with levels := mmod 0 s.rel.levels l (fun n => satAdd 16 n 1) } }

/-- Handling at module level (R406): the pending errors are discarded, each writing an entry; the job fails; safe state,
stage code 0x0A. -/
def handleModule (s : State) : State :=
  let s1 := s.rel.pend.foldl (fun s c => logSite s c.site 6 0xFFFFFFFF) s
  enterSafe (jobFailsAll { s1 with rel := { s1.rel with pend := [] } }) 10

/-- The actions of a level (R406). -/
def handleSite (s : State) (e : ErrorSite) : State :=
  match e with
  | .mere p _ => retireMeres [p] (killOn s [p])
  | .cluster d c _ => domainsOff (retireMeres (clusterMeres d c) (killOn s (clusterMeres d c))) [38 * d + c]
  | .die d _ _ => if d = 5 then handleModule s else takeDie s d
  | .module _ => handleModule s

/-- Handling of an error starts (R410). -/
def startHandling (s : State) (e : ErrorSite) (seq : Nat) : State :=
  let c : Contained := { site := e, level := siteLevel e, seq := seq }
  handleSite (countLevel { s with rel := { s.rel with handling := some c } } (siteLevel e)) e

/-- An escalation (R410): the new entry names the first in cause_seq, and handling starts again one level up. -/
def escalateTo (s : State) (b : Contained) (e : ErrorSite) : State :=
  let s1 := logSite { s with rel := { s.rel with resc := satAdd 32 s.rel.resc 1 } } e 1 b.seq
  startHandling s1 e (lastSeq s1)

/-- The loss of both compute dies is a module-level error (R258, R410). -/
def bothLost (s : State) : State :=
  match s.rel.handling with
  | some b =>
    if b.level == 2 && dieState s 0 == 2 && dieState s 1 == 2 then escalateTo s b (.module 2) else s
  | none => s

/-- The site that an escalation from `b` by error `e` handles. -/
def escalated (b : Contained) (e : ErrorSite) : ErrorSite :=
  let l := max (b.level + 1) (siteLevel e)
  let d := siteDie b.site
  if l = 1 then
    (match b.site with
      | .mere p _ => .cluster d ((p - 136 * d) / 4) 4
      | x => x)
  else if l = 2 then (if siteLevel e = 2 then e else .die d 0xFF 0)
  else .module 2

/-- Whether the same loss is under way already: one event (R254). -/
def knownLoss (s : State) (e : ErrorSite) : Bool :=
  isLoss e && (dieState s (siteDie e) != 1 || s.rel.pend.any (fun c => isLoss c.site && siteDie c.site == siteDie e))

/-- A contained error (R406, R409, R410). -/
def containError (s : State) (e : ErrorSite) : State :=
  if knownLoss s e then s
  else
    match s.rel.handling with
    | none =>
      let s1 := logSite s e 0 0xFFFFFFFF
      bothLost (startHandling s1 e (lastSeq s1))
    | some b =>
      if b.level = 3 then logSite s e 0 0xFFFFFFFF
      else if insideOf b e then bothLost (escalateTo s b (escalated b e))
      else if s.rel.pend.length < 32 then
        let s1 := logSite s e 2 0xFFFFFFFF
        let c : Contained := { site := e, level := siteLevel e, seq := lastSeq s1 }
        { s1 with rel := { s1.rel with pend := s1.rel.pend ++ [c] } }
      else
        let s1 := logSite { s with rel := { s.rel with overflow := true } } e 0 0xFFFFFFFF
        let s2 := logSite s1 (.module 3) 0 (lastSeq s1)
        startHandling s2 (.module 3) (lastSeq s2)

/-- An SRAM word that cannot be corrected, counted (R415): scratchpad, Tarn, long-lived SRAM. -/
def countSramUnc (s : State) (e : ErrorSite) : State :=
  let hit : Bool := match e with
    | .mere _ src => src == 1 || src == 2
    | .die _ u _ => u == 7
    | _ => false
  if hit then { s with rel := { s.rel with rsramunc := satAdd 32 s.rel.rsramunc 1 } } else s

/-- Whether the site names units that the module has. -/
def siteOk : ErrorSite → Bool
  | .mere p _ => decide (p < 272)
  | .cluster d c _ => decide (d < 2 ∧ c < 34)
  | .die d _ _ => decide (d < 6)
  | .module _ => true

/-- CONTAINED_ERROR (R406). -/
def execContainedError (err : ErrorSite) (s : State) : Ans :=
  onUnit (siteOk err) "error site" (siteDie err) (capSync s (containError (countSramUnc s err) err))

/-- Commands that containment killed go back to their queue's head, ahead of those not yet dispatched (R407). -/
def rerunCmds (s : State) : State :=
  { s with
    cmds := s.cmds.map (fun c => if s.rel.toRerun.contains c.cid && c.stage == .stopped then { c with stage := .fetched } else c)
    rel := { s.rel with toRerun := [] } }

/-- CONTAINMENT_DONE (R406, R410): handling ends below the module level, the next pending error is handled. -/
def execContainmentDone (s : State) : Ans :=
  .next (match s.rel.handling with
    | some b =>
      if b.level = 3 then s
      else
        let s1 := rerunCmds { s with rel := { s.rel with handling := none } }
        match s1.rel.pend with
        | [] => s1
        | c :: t => capSync s (bothLost (startHandling { s1 with rel := { s1.rel with pend := t } } c.site c.seq))
    | none => s)

/-! ## The reliability window (R415) and telemetry section 2 (R416) -/

/-- RSTAT. -/
def rstat (s : State) : Nat :=
  (match s.rel.handling with
    | some b => b.level + 1
    | none => 0) * 2 ^ 29 + s.rel.pend.length * 2 ^ 16 + 2 * b2n s.rel.overwrote + b2n s.rel.overflow

/-- RLOGOLD. -/
def logOldest (s : State) : Nat := (s.rel.log.head?.map (·.seq)).getD s.rel.nextSeq

/-- The 4 bytes of the reliability window at `off`. -/
def relWord (s : State) (off : Nat) : Nat :=
  let r := s.rel
  if off = 0 then rstat s
  else if off = 4 then r.rscrub.toNat
  else if off = 8 then r.nextSeq
  else if off = 0xC then logOldest s
  else if off = 0x10 then r.rsramcor
  else if off = 0x14 then r.rsramunc
  else if off = 0x18 then r.retired1 * 65536 + r.retired0
  else if off = 0x1C then r.resc
  else if off = 0x20 then mget 0 r.levels 1 * 65536 + mget 0 r.levels 0
  else if off = 0x24 then mget 0 r.levels 3 * 65536 + mget 0 r.levels 2
  else if off = 0x28 then r.rage.toNat
  else if 0x40 ≤ off ∧ off < 0x60 then
    let k := s.mem.stack ((off - 0x40) / 4)
    (k.passes % 65536) * 65536 + k.scrubFrame
  else 0

/-- A write of RSCRUB (R415): a period outside 1 to 24 leaves it unchanged. -/
def rscrubSet (s : State) (v : Word) : State :=
  let p := bits v.toNat 4 0
  if 1 ≤ p ∧ p ≤ 24 then { s with rel := { s.rel with rscrub := v &&& 0x11F#32 } } else s

/-- RSCRUB_WRITE. -/
def execRscrubWrite (src : Source) (v : Word) (s : State) : Ans := .next (if sourceUp s src then rscrubSet s v else s)

/-- A 4-byte write to the reliability window. -/
def relWrite (s : State) (off : Nat) (v : Word) : State :=
  if off = 0 then { s with rel := { s.rel with
    overwrote := s.rel.overwrote && !bit v.toNat 1, overflow := s.rel.overflow && !bit v.toNat 0 } }
  else if off = 4 then rscrubSet s v
  else s

/-- Telemetry section 2 (R416). -/
def section2 (s : State) : Bytes :=
  let w (off : Nat) : Bytes := toLe 4 (relWord s off)
  w 0 ++ w 8 ++ w 0xC ++ w 0x10 ++ w 0x14 ++ w 0x18 ++ toLe 1 (sparesLeft s 0) ++ toLe 1 (sparesLeft s 1) ++ toLe 2 0 ++ w 0x1C ++
  w 0x20 ++ w 0x24 ++ w 0x28 ++ toLe 4 0 ++ (List.range 8).flatMap (fun n => w (0x40 + 4 * n)) ++ toLe 48 0

end Sys2Proof.Machine
end

