-- ==== Sys2Proof/Machine/Power.lean ====
section
/-! DEFINITION. Voltage, frequency and thermal control, Weir, power caps, placement (R388-R401). -/

namespace Sys2Proof.Machine

/-! ## Clusters -/

/-- Whether a cluster's domain is on. -/
def clusterOn (s : State) (c : Nat) : Bool := s.power.domains.contains (domainOf c)

/-- The physical Meres of cluster `c` of 68. -/
def meresOf (c : Nat) : List Nat := (List.range 4).map (fun k => 4 * c + k)

/-- Whether a Mere of the cluster runs a command. -/
def clusterBusy (s : State) (c : Nat) : Bool := (meresOf c).any (fun p => (getMere s p).running != none)

/-- PCTRL's frequency target. -/
def freqTarget (s : State) : Nat := bits s.power.pctrl.toNat 10 0

/-- The duty of a cap below PMIN, in 1/32 (R399). -/
def capDuty (s : State) : Nat :=
  if capEff s < s.power.pmin then 1 + 31 * (capEff s - s.power.pidle) / max (s.power.pmin - s.power.pidle) 1 else 32

/-- The lowest of a cluster's limits with its code (R389, R400). -/
def lowestLimit : List (Nat × Nat) → Nat × Nat
  | [] => (1200, 0)
  | [x] => x
  | x :: t => if x.1 ≤ (lowestLimit t).1 then x else lowestLimit t

/-- The frequency that R389 gives a cluster, with the limit in force. -/
def clusterLimit (s : State) (v : Cluster) : Nat × Nat :=
  lowestLimit [(freqTarget s, 0), (v.fcap, 1), (v.thermal, 2), (v.weir, 3), (if capDuty s < 32 then 600 else 1200, 4)]

/-- One 25 MHz step from `a` toward `b`. -/
def stepToward (a b : Nat) : Nat := if a < b then min b (a + 25) else max b (a - 25)

/-- The rail of a cluster whose frequency becomes `f`: before a frequency rises, the rail first reaches the voltage that the new
one needs (R388). -/
def railAt (c : Nat) (v : Cluster) (f : Nat) : Nat := if v.freq < f then min 900 (max v.railMv (Config.railNeed c f)) else v.railMv

/-- FREQUENCY_STEP (R388, R389). -/
def execFrequencyStep (cluster : Nat) (s : State) : Ans :=
  let v := getCluster s cluster
  let l := clusterLimit s v
  let busy := clusterBusy s cluster || (meresOf cluster).any (fun p => (getMere s p).filler)
  let code := if v.doubled then 5 else if busy then l.2 else 6
  onUnit (decide (cluster < 68)) "cluster" cluster
    (if clusterOn s cluster then
       let f := stepToward (max v.freq 600) l.1
       setCluster s cluster { v with freq := f, railMv := railAt cluster v f, limit := code }
     else s)

/-- A rail that can rise no further (R391): fcap falls by 25 MHz, kept for good; its first fall counts the cluster as
capped; at 600 MHz the cluster itself is at fault (R414). -/
def railShort (s : State) (c : Nat) : State :=
  let v := getCluster s c
  if v.fcap ≤ 600 then containError s (.cluster (c / 34) (c % 34) 3)
  else
    let s1 := setCluster s c { v with fcap := v.fcap - 25, capped := true }
    if v.capped then s1 else logNote s1 0x20 (c / 34) c (toLe 2 (v.fcap - 25))

/-- A droop event (R390): the period doubles; 1,024 in a row without margin are a cluster error (R406). -/
def droopEvent (s : State) (c : Nat) : State :=
  let v := getCluster s c
  let s1 := setCluster s c { v with doubled := true, droops := v.droops + 1 }
  let s2 := { s1 with power := { s1.power with pdroop := satAdd 32 s1.power.pdroop 1 } }
  if v.droops + 1 = 1024 then containError s2 (.cluster (c / 34) (c % 34) 3) else s2

/-- CPM_CHECK (R388, R390, R391): the rail moves by 5 mV. -/
def cpmStep (s : State) (c : Nat) (m : Margin) : State :=
  let v := getCluster s c
  match m with
  | .ample => setCluster s c { v with railMv := max (650 + v.railOffset) (v.railMv - 5), droops := 0 }
  | .held => setCluster s c { v with droops := 0 }
  | .lacking => if 900 ≤ v.railMv then railShort s c else setCluster s c { v with railMv := min 900 (v.railMv + 5), droops := 0 }
  | .belowQuarter => droopEvent s c

/-- CPM_CHECK. -/
def execCpmCheck (cluster : Nat) (margin : Margin) (s : State) : Ans :=
  onUnit (decide (cluster < 68)) "cluster" cluster (if clusterOn s cluster then capSync s (cpmStep s cluster margin) else s)

/-- DROOP_HOLD_EXPIRY (R390): the doubled period ends, or is held again while the margin stays short. -/
def execDroopHoldExpiry (cluster : Nat) (short : Bool) (s : State) : Ans :=
  let v := getCluster s cluster
  onUnit (decide (cluster < 68)) "cluster" cluster
    (if v.doubled then
       (if short then capSync s (droopEvent s cluster) else setCluster s cluster { v with doubled := false })
     else s)

/-! ## Thermal limits (R392-R395) -/

/-- The die of a junction sensor: two for each cluster, then four each on X0, X1, S and K. -/
def sensorDie (n : Nat) : Nat := if n < 136 then n / 68 else 2 + (n - 136) / 4

/-- A cluster sensor's reading taken in (R392): an entry into throttling counts. -/
def clusterReads (s : State) (n : Nat) (r : Int) : State :=
  let c := n / 2
  let v := getCluster s c
  let w := if n % 2 = 0 then { v with temp0 := r } else { v with temp1 := r }
  let hot : Bool := decide (1600 ≤ w.temp)
  let x := { w with throttling := hot || (v.throttling && decide (1552 ≤ w.temp)) }
  let y := if 1648 ≤ x.temp ∧ x.freq = 600 then { x with duty := 1 + Config.freePick s.freeCtr % 32 } else x
  let s1 := tickFree (setCluster s c y)
  if hot && !v.throttling then
    { s1 with power := { s1.power with pthrot := satAdd 32 s1.power.pthrot 1, throttleSeen := true } }
  else s1

/-- A thermal trip (R393): output asserted, domains off, stacks in self-refresh, the job fails, safe state with stage code
0x08; a sensor of K takes D94 with it. -/
def thermalTrip (s : State) (die unit : Nat) (info : Bytes) (onK : Bool) : State :=
  let off := clusterDomains ++ dieDomains 2 ++ dieDomains 3 ++ dieDomains 4 ++ (if onK then [94] else [])
  let s1 := { s with
    power := { s.power with thermOut := true, tripped := true }, ctl := { s.ctl with waitCool := true }
    pins := { s.pins with swTrip := true, alertReleased := false } }
  let s2 := jobFails (domainsOff s1 off) [0, 1] none
  let s3 := enterSafe (portsGone (List.range 24) (logNote s2 0x21 die unit info)) 8
  if onK then { s3 with ctl := { s3.ctl with linkUp := false, noMainClock := true } } else s3

/-- A trip where K has no power: the output and the entry; there is no safe state to enter. -/
def darkTrip (s : State) (die unit : Nat) (info : Bytes) : State :=
  logNote { s with
    power := { s.power with thermOut := true, tripped := true }, ctl := { s.ctl with waitCool := true }
    pins := { s.pins with swTrip := true, alertReleased := false } } 0x21 die unit info

/-- A trip detected (R393): one that the module has already taken changes nothing more, but for a sensor of K. -/
def tripNow (s : State) (die unit : Nat) (info : Bytes) (onK : Bool) : State :=
  if !s.power.domains.contains 94 then (if s.power.thermOut then s else darkTrip s die unit info)
  else if s.power.tripped && isSafe s && s.ctl.stage == 8 && !onK then s
  else thermalTrip s die unit info onK

/-- The reading of a junction sensor that is 110 °C or above for the second time running trips (R393). -/
def sensorTrip (s : State) (n : Nat) (r : Int) : State :=
  if 1760 ≤ r then
    if s.power.sensorTrips.contains n then
      tripNow s (sensorDie n) n (toLe 2 (s16 r) ++ toLe 1 0) (sensorDie n == 5)
    else { s with power := { s.power with sensorTrips := addTo s.power.sensorTrips n } }
  else { s with power := { s.power with sensorTrips := dropFrom s.power.sensorTrips n } }

/-- The alarm of X0, X1, S and K at 100 °C (R392). -/
def sensorAlarm (s : State) (n : Nat) (r : Int) : State :=
  { s with power := { s.power with alarms := if 1600 ≤ r then addTo s.power.alarms n else dropFrom s.power.alarms n } }

/-- JUNCTION_SENSOR_READ (R392, R393): a reading in 1/16 °C. -/
def execJunctionSensorRead (sensor : Nat) (reading : Int) (s : State) : Ans :=
  onUnit (decide (sensor < 152)) "sensor" sensor
    (capSync s (sensorTrip (if sensor < 136 then clusterReads s sensor reading else sensorAlarm s sensor reading) sensor reading))

/-- THERMAL_TRIP (R393): the second reading in a row at 110 °C or above. -/
def execThermalTrip (sensor : Nat) (reading : Int) (onK : Bool) (s : State) : Ans :=
  onUnit (decide (sensor < 152)) "sensor" sensor
    (if decide (1760 ≤ reading) && s.power.sensorTrips.contains sensor then
       capSync s (tripNow s (sensorDie sensor) sensor (toLe 2 (s16 reading) ++ toLe 1 0) (onK || sensorDie sensor == 5))
     else s)

/-- THERMAL_LIMIT_STEP (R392). -/
def execThermalLimitStep (cluster : Nat) (s : State) : Ans :=
  let v := getCluster s cluster
  let t := if 1600 ≤ v.temp then max 600 (v.thermal - 25) else if v.temp < 1552 then min 1200 (v.thermal + 25) else v.thermal
  onUnit (decide (cluster < 68)) "cluster" cluster (setCluster s cluster { v with thermal := t })

/-- INLET_HOT (R394): above 40 °C for 10 s. -/
def execInletHot (inlet : Int) (s : State) : Ans :=
  let cool := (s.power.pcool &&& 0xFFFF0000#32) ||| BitVec.ofNat 32 (s16 inlet)
  .next { s with power := { s.power with pcool := cool, inletHot := s.power.inletHot || decide (640 < inlet) } }

/-- FLOW_LOW (R394): a rise above 30 °C for 10 s. -/
def execFlowLow (inlet outlet : Int) (s : State) : Ans :=
  .next { s with power := { s.power with
    pcool := BitVec.ofNat 32 (s16 outlet * 65536 + s16 inlet), flowLow := s.power.flowLow || decide (480 < outlet - inlet) } }

/-- Whether a REDUCE_SCATTER in flight adds on a logical Mere (R288, R291). -/
def reduceMere (s : State) (l : Nat) : Bool :=
  s.cmds.any (fun c => c.opcode == 0x0301 && c.inFlight && decide (c.arg 0x30 1 ≤ l ∧ l ≤ c.arg 0x30 1 + c.arg 0x31 1))

/-- Moves of thermal placement (R395): idle logical Meres of hot clusters, in turn, to free Meres of cool clusters; `n`
times the die's mean is `sum`. -/
def remapHot (d : Nat) (temp : Nat → Int) (n sum : Int) : List Nat → State → State
  | [], s => s
  | l :: t, s =>
    let p := physOf s l
    let m := getMere s p
    let idle := m.running == none && m.waiting.isEmpty && !reduceMere s l
    let cool := (spareMeres s d).filter (fun q => decide (n * temp (clusterOf q) < sum))
    let best := cool.foldl (fun b q => match b with
      | some x => if temp (clusterOf q) < temp (clusterOf x) then some q else some x
      | none => some q) (none : Option Nat)
    match best with
    | some q =>
      if idle && decide (sum + 80 * n ≤ n * temp (clusterOf p)) then
        remapHot d temp n sum t { s with compute := { s.compute with place := mput s.compute.place l q } }
      else remapHot d temp n sum t s
    | none => remapHot d temp n sum t s

/-- PLACEMENT_REMAP (R395): `temps` are the die's 34 cluster temperatures averaged over 1 ms. -/
def execPlacementRemap (die : Nat) (temps : List Int) (s : State) : Ans :=
  let temp (c : Nat) : Int := temps.getD (c - 34 * die) 0
  onUnit (decide (die < 2)) "compute die" die
    (if bit s.power.pctrl.toNat 12 ∧ dieState s die = 1 then
       remapHot die temp temps.length temps.sum ((List.range (meresExposed s die)).map (fun l => 128 * die + l)) s
     else s)

/-! ## Weir (R396, R397) -/

/-- The WCTRL value in force at a sample. -/
def weirCtrl (s : State) : Word := s.power.pendWctrl.getD s.power.wctrl

/-- The next allowance (R396), in 1/100 W: `d` the demand. -/
def nextAllowance (s : State) (d : Nat) : Nat :=
  let w := (weirCtrl s).toNat
  let up := bits w 20 10
  let dn := bits w 31 21
  let a := s.power.allowance
  let cap := 100 * capEff s
  let hi := min (a + up) (max cap (a - dn))
  let lo := max (a - dn) s.power.pfloor
  min (max d lo) hi

/-- Meres that may take filler (R397): sound, no running command, their cluster on and below 95 °C. -/
def fillerMeres (s : State) : List Nat :=
  (List.range 272).filter (fun p => !(getMere s p).retired && (getMere s p).running == none && clusterOn s (clusterOf p) &&
    decide ((getCluster s (clusterOf p)).temp < 1520))

/-- The filler of every Mere set. -/
def setFiller (s : State) (on : List Nat) : State :=
  (List.range 272).foldl (fun s p =>
    let m := getMere s p
    if m.filler = on.contains p then s else setMere s p { m with filler := on.contains p }) s

/-- The coolest `n` of a list of Meres, by selection. -/
def coolestN (s : State) : Nat → List Nat → List Nat
  | 0, _ => []
  | n + 1, l =>
    match coolest s l with
    | some p => p :: coolestN s n (l.filter (· != p))
    | none => []

/-- WEIR_SAMPLE (R396, R397, R400): the written controls apply; the allowance moves; clusters are lowered together by 25
MHz, or filler goes to the coolest Meres: how many it takes is open. -/
def weirSample (s : State) (demand power volts amps fillerJ : Nat) (short : Bool) : State :=
  let d := 100 * demand
  let a := nextAllowance s d
  let tooMuch := decide (a < d)
  let s1 := { s with power := { s.power with
    wctrl := weirCtrl s, pendWctrl := none, allowance := a
    pvin := BitVec.ofNat 32 (amps % 65536 * 65536 + volts % 65536), pfiller := satAdd 64 s.power.pfiller fillerJ
    floorShort := s.power.floorShort || short
    clusters := s.power.clusters.map (fun e => (e.1, { e.2 with
      weir := if !tooMuch then 1200
        else if clusterBusy s e.1 then (if a < 100 * power then max 600 (e.2.weir - 25) else min 1200 (e.2.weir + 25))
        else e.2.weir })) } }
  let cand := fillerMeres s1
  let n := Config.freePick s.freeCtr % (cand.length + 1)
  tickFree (setFiller s1 (if d < a then coolestN s1 n cand else []))

/-- WEIR_SAMPLE. -/
def execWeirSample (demand power volts amps fillerJ : Nat) (short : Bool) (s : State) : Ans :=
  .next (weirSample s demand power volts amps fillerJ short)

/-- WEIR_MEAN_UPDATE (R396): one more 1 ms mean; the 256 ms mean and the floor. -/
def execWeirMeanUpdate (mean : Nat) (s : State) : Ans :=
  let l := s.power.means ++ [mean]
  let l1 := l.drop (l.length - 256)
  let pct := bits s.power.wctrl.toNat 9 3
  let floor := min (pct * l1.sum / max l1.length 1) (100 * capEff s)
  .next { s with power := { s.power with means := l1, pin := mean, pmean := l1.sum / max l1.length 1, pfloor := floor } }

/-- DUTY_CYCLE_PERIOD (R399): under a cap below PMIN the clusters at 0.60 GHz run a fraction of each period. -/
def execDutyCyclePeriod (s : State) : Ans :=
  let n := capDuty s
  .next { s with power := { s.power with clusters := s.power.clusters.map (fun e =>
    (e.1, { e.2 with duty := if e.2.freq = 600 ∧ e.2.temp < 1648 then n else if e.2.temp < 1648 then 32 else e.2.duty })) } }

/-- DOMAIN_RAMP_DONE (R385): the domain is on. -/
def execDomainRampDone (d : Nat) (s : State) : Ans :=
  onUnit (decide (d < 96)) "power domain" d
    (if s.power.ramping.contains d then
       { s with power := { s.power with ramping := dropFrom s.power.ramping d, domains := addTo s.power.domains d } }
     else s)

/-- Domains whose reason to be off has ended start their ramp (R384). -/
def startRamp (s : State) (l : List Nat) : State :=
  { s with power := { s.power with
    ramping := (l.filter (fun d => !s.power.domains.contains d)).foldl addTo s.power.ramping } }

/-! ## Power caps (R399) -/

/-- A cap set or removed. -/
def setCap (s : State) (w : Nat) : State :=
  capSync s { s with power := { s.power with
    capW := if w = 0 then none else some w, capUnreachable := decide (0 < w ∧ w < s.power.pidle) } }

/-! ## The power and clock window (R400) and telemetry section 1 (R401) -/

/-- PWSTAT. -/
def pwstat (s : State) : Nat :=
  let p := s.power
  b2n p.capUnreachable * 2 ^ 31 + b2n p.tripped * 2 ^ 30 + b2n p.floorShort * 512 + b2n p.wctrlRefused * 256 + b2n p.inputFault * 128 +
  b2n p.ref25Lost * 64 + b2n p.ref156Lost * 32 + b2n p.ref100Lost * 16 + b2n p.flowLow * 8 + b2n p.inletHot * 4 + b2n p.throttleSeen * 2

/-- PCLUS of a cluster; its temperature in °C from 0 to 127. -/
def pclus (s : State) (i : Nat) : Nat :=
  let v := getCluster s i
  v.freq * 2 ^ 21 + v.fcap * 2 ^ 10 + v.limit * 2 ^ 7 + min 127 (v.temp / 16).toNat

/-- PCAP. -/
def pcap (s : State) : Nat := (s.power.capW.getD 3000) * 65536 + capEff s

/-- The 4 bytes of the power and clock window at `off`. -/
def powerWord (s : State) (off : Nat) : Nat :=
  let p := s.power
  if off = 0 then pwstat s
  else if off = 4 then (weirCtrl s).toNat
  else if off = 8 then pcap s
  else if off = 0xC then p.pctrl.toNat
  else if off = 0x10 then p.pin
  else if off = 0x14 then p.pvin.toNat
  else if off = 0x18 then p.pmean
  else if off = 0x1C then p.pfloor / 100
  else if off = 0x20 then p.pidle
  else if off = 0x24 then p.pmin
  else if off = 0x28 then p.pcool.toNat
  else if off = 0x30 then p.pfiller % 2 ^ 32
  else if off = 0x34 then p.pfiller / 2 ^ 32
  else if off = 0x38 then p.pdroop
  else if off = 0x3C then p.pthrot
  else if 0x100 ≤ off ∧ off < 0x210 then pclus s ((off - 0x100) / 4)
  else 0

/-- A write of WCTRL (R400): all of it, or nothing with wctrl_refused. -/
def wctrlSet (s : State) (v : Word) : State :=
  let n := v.toNat
  let ok (x : Nat) : Bool := decide (10 ≤ x ∧ x ≤ 2000)
  if ok (bits n 31 21) && ok (bits n 20 10) && decide (bits n 9 3 ≤ 100) then
    { s with power := { s.power with pendWctrl := some (v &&& 0xFFFFFFF8#32) } }
  else { s with power := { s.power with wctrlRefused := true } }

/-- WCTRL_WRITE. -/
def execWctrlWrite (src : Source) (v : Word) (s : State) : Ans := .next (if sourceUp s src then wctrlSet s v else s)

/-- A write of PCTRL (R400): a target out of range is discarded, another is rounded down to 25 MHz. -/
def pctrlSet (s : State) (v : Word) : State :=
  let t := bits v.toNat 10 0
  let target := if 600 ≤ t ∧ t ≤ 1200 then t / 25 * 25 else freqTarget s
  { s with power := { s.power with pctrl := BitVec.ofNat 32 (b2n (bit v.toNat 12) * 4096 + target) } }

/-- FREQ_TARGET_WRITE. -/
def execFreqTargetWrite (src : Source) (v : Word) (s : State) : Ans := .next (if sourceUp s src then pctrlSet s v else s)

/-- A 4-byte write to the power and clock window. -/
def powerWrite (s : State) (off : Nat) (v : Word) : State :=
  if off = 0 then
    let n := v.toNat
    { s with power := { s.power with
      floorShort := s.power.floorShort && !bit n 9, wctrlRefused := s.power.wctrlRefused && !bit n 8
      inputFault := s.power.inputFault && !bit n 7, ref25Lost := s.power.ref25Lost && !bit n 6
      ref156Lost := s.power.ref156Lost && !bit n 5, ref100Lost := s.power.ref100Lost && !bit n 4
      flowLow := s.power.flowLow && !bit n 3, inletHot := s.power.inletHot && !bit n 2
      throttleSeen := s.power.throttleSeen && !bit n 1 } }
  else if off = 4 then wctrlSet s v
  else if off = 0xC then pctrlSet s v
  else s

/-- MTEMP of a stack (R243). -/
def mtemp (s : State) (n : Nat) : Nat := (s.mem.stack n).level % 4 * 2 ^ 30 + s16 (s.mem.stack n).temp

/-- Telemetry section 1 (R401). -/
def section1 (s : State) : Bytes :=
  let w (off : Nat) : Bytes := toLe 4 (powerWord s off)
  w 0x10 ++ w 0x14 ++ w 0x18 ++ w 0x1C ++ w 8 ++ w 0 ++ w 0x28 ++ toLe 2 s.power.pidle ++ toLe 2 s.power.pmin ++ w 0x30 ++ w 0x34 ++
  w 0x38 ++ w 0x3C ++ (List.range 68).flatMap (fun i => toLe 4 (pclus s i)) ++ (List.range 8).flatMap (fun n => toLe 4 (mtemp s n)) ++
  toLe 32 0

end Sys2Proof.Machine
end

