-- ==== Sys2Proof/Machine/Hbm.lean ====
section
/-! DEFINITION. Errors on the read path of the memory, temperatures, scrub (R237-R241, R404), the memory register block
(R243). -/

namespace Sys2Proof.Machine

/-- Notes added to a command's reply (R45). -/
def noteCmd (s : State) (cid note : Nat) : State :=
  match findCmd s cid with
  | some c => putCmd s { c with notes := c.notes ||| note }
  | none => s

/-- The command that reads for a user. -/
def readerOf (s : State) : SectorUser → Option Nat
  | .command cid => some cid
  | .stateBlock cid _ => some cid
  | .gradient cid => some cid
  | .record st => (getIngest s st).asm.map (·.cid)

/-- The bytes of block `b` of the images of an update's state, taken back from the mirror (R49). -/
def patchBlock (s : State) (c : Cmd) (b : Nat) (data : Bytes) : State :=
  let dm := readDesc s (c.arg 0x10 2)
  let d1 := descOr s (c.arg 0x14 2)
  let d2 := descOr s (c.arg 0x16 2)
  let sizes := imageSizes dm d1 d2
  ((List.range 4).foldl (fun (a : State × Bytes) i =>
    let p := blockPart sizes i b
    (if p.2 = 0 then a.1 else hbmWrite a.1 ((imageBases dm d1 d2).getD i 0 + p.1) (slice a.2 0 p.2), a.2.drop p.2)) (s, data)).1

/-- The loss scale adjusted by an update command that completes with its verdict (R172): `bad` where the verdict is
non-finite or a rank was excluded. -/
def adjustScale (s : State) (c : Cmd) (bad : Bool) : State :=
  if isUpdate c.opcode then { s with update := s.update.adjust c.step bad } else s

/-- An update command stops with its master torn (R49, R168); a mirror that it fills stays filling. -/
def tornEnd (s : State) (c : Cmd) (e : Err) : State := complete (adjustScale (tearMaster s c) c s.peers.excluded) c e 0

/-- The outcome of a sector that stayed uncorrectable, for its reader (R239 step 3b, R49, R340); `mirror` is the block that the
mirror of an update's state gives back. -/
def sectorFails (s : State) (stack frame : Nat) (mirror : Option Bytes) (user : SectorUser) : State :=
  let e (torn : Bool) := memUncorrectable stack frame torn
  match user with
  | .record st => failBatch s st (e false)
  | .command cid =>
    (match findCmd s cid with
      | some c => if c.inFlight then complete s c (e false) 0 else s
      | none => s)
  | .gradient cid =>
    (match findCmd s cid with
      | some c => if c.inFlight then (if isUpdate c.opcode then tornEnd s c (e true) else complete s c (e false) 0) else s
      | none => s)
  | .stateBlock cid b =>
    (match findCmd s cid with
      | some c =>
        if c.inFlight ∧ isUpdate c.opcode then
          (match mirror with
            | some d => noteCmd (patchBlock s c b d) cid 0x200
            | none => tornEnd s c (e true))
        else s
      | none => s)

/-- The requesters of a read that R201 served at once, each with the outcome (R239). -/
def sectorsFail (stack frame : Nat) (mirror : Option Bytes) : List SectorUser → State → State
  | [], s => s
  | u :: t, s => sectorsFail stack frame mirror t (sectorFails s stack frame mirror u)

/-- Detail bit 4 for every requester whose sector was good on its retry. -/
def noteUsers : List SectorUser → State → State
  | [], s => s
  | u :: t, s =>
    noteUsers t (match readerOf s u with
      | some cid => noteCmd s cid 0x10
      | none => s)

/-- A read of the sector at a device address for its requesters (R238, R239): delivered clean, corrected or good on the one
retry, or failed. -/
def sectorFor (s : State) (users : List SectorUser) (mirror : Option Bytes) (addr : Nat) (k : Sector) : State :=
  match s.mem.translate addr with
  | none => s
  | some (n, f, o) =>
    let seen : Err := if users.any (fun u => (readerOf s u).isSome) then memUncorrectable n f false else okStatus
    let s1 := sectorRead s n f o k false seen.1 seen.2
    match k with
    | .retried => noteUsers users s1
    | .uncorrectable => sectorsFail n f mirror users s1
    | _ => s1

/-- HBM_UNCORRECTABLE_READ (R239), with the outcome of the sector after its retry; one that the on-die ECC corrected counts
too (R238). -/
def execHbmUncorrectableRead (user : SectorUser) (shared : List SectorUser) (addr : Nat) (outcome : Sector) (mirror : Option Bytes)
    (s : State) : Ans :=
  .next (capSync s (sectorFor s (user :: shared) mirror addr outcome))

/-- A flit fails its CRC for the `resend`-th time (R238): re-sent and counted, but a read flit after its third re-send is
an uncorrectable sector, which is read once more. -/
def flitFailsHbm (s : State) (resend : Nat) (read : Option (List SectorUser × Option Bytes × Nat × Sector)) : State :=
  let again : State := { s with mem := { s.mem with mcrc := satAdd 32 s.mem.mcrc 1 } }
  match read with
  | none => again
  | some (users, mirror, addr, k) =>
    if resend ≤ 3 then again else sectorFor s users mirror addr (if k = .uncorrectable then .uncorrectable else .retried)

/-- HBM_FLIT_CRC_FAIL. -/
def execHbmFlitCrcFail (stack resend : Nat) (read : Option (List SectorUser × Option Bytes × Nat × Sector)) (s : State) : Ans :=
  onUnit (decide (stack < 8)) "stack" stack (capSync s (flitFailsHbm s resend read))

/-! ## Temperature (R237, R393) -/

/-- Upper ends of the three lower levels, in 1/16 °C. -/
def levelEnds : List Int := [1360, 1520, 1680]

/-- The level that temperature `t` gives after level `l`: entered above a threshold, left 3 °C below it. -/
def levelOf (l : Nat) (t : Int) : Nat :=
  let up := (levelEnds.filter (fun x => decide (x < t))).length
  let stay := ((List.range 3).filter (fun i => decide (i < l) && decide (levelEnds.getD i 0 - 48 < t))).length
  max up stay

/-- STACK_TEMP_REPORT (R237, R393). -/
def stackTemp (s : State) (n : Nat) (t : Int) : State :=
  let k := s.mem.stack n
  let l := levelOf k.level t
  let enters := decide (l = 3 ∧ k.level < 3)
  let hot := decide (1760 ≤ t)
  let s1 := setStackS s n { k with temp := t, level := l, throttleSeen := k.throttleSeen || enters, tripOnce := hot }
  let s2 := if enters then logNote s1 0x14 (8 + n) n (toLe 2 (s16 t)) else s1
  let s3 := { s2 with power := { s2.power with alarms := if l = 3 then addTo s2.power.alarms (152 + n) else dropFrom s2.power.alarms (152 + n) } }
  if hot && k.tripOnce then tripNow s3 (8 + n) (152 + n) (toLe 2 (s16 t) ++ toLe 1 0) false else s3

/-- STACK_TEMP_REPORT. -/
def execStackTempReport (stack : Nat) (temp : Int) (s : State) : Ans :=
  onUnit (decide (stack < 8)) "stack" stack (capSync s (stackTemp s stack temp))

/-! ## Scrub (R404) -/

/-- Frames of a stack. -/
def allFrames : Nat := 32768

/-- The next frame at or after `f` that is not retired. -/
def nextFrame (k : Stack) (f : Nat) : Nat :=
  ((List.range (allFrames - f)).map (· + f)).find? (fun x => !(k.retired.contains x || k.volatileRetired.contains x)) |>.getD allFrames

/-- The position of scrub after a sector; with the last sector of the last frame the pass is complete and the counts of
the rows restart. -/
def scrubOn (s : State) (n : Nat) (last : Bool) : State :=
  let k := s.mem.stack n
  if last then
    let f := nextFrame k (k.scrubFrame + 1)
    if allFrames ≤ f then
      setStackS s n { k with scrubFrame := (if nextFrame k 0 < allFrames then nextFrame k 0 else 0), passes := k.passes + 1, rowErrors := [] }
    else setStackS s n { k with scrubFrame := f }
  else s

/-- The sector that a scrub outcome tells of. -/
def scrubSector : ScrubOutcome → Sector
  | .clean => .clean
  | .corrected => .corrected
  | .retried => .retried
  | .uncorrectable => .uncorrectable

/-- What a scrub read of the sector at `off` of the frame in turn found (R404, R240). -/
def scrubRead (s : State) (n off : Nat) (o : ScrubOutcome) : State :=
  sectorRead s n (s.mem.stack n).scrubFrame off (scrubSector o) true 0 0

/-- HBM_SCRUB_READ: scrub pauses while its enable bit is clear and while the stack is in self-refresh or off. A corrected
sector is written back unless a write has overtaken it; its value is the same either way. -/
def execHbmScrubRead (stack off : Nat) (last : Bool) (outcome : ScrubOutcome) (_overtaken : Bool) (s : State) : Ans :=
  let k := s.mem.stack stack
  onUnit (decide (stack < 8)) "stack" stack
    (if k.present && !k.selfRefresh && bit s.rel.rscrub.toNat 8 then
       capSync s (scrubOn (scrubRead s stack (off % 0x200000) outcome) stack last)
     else s)

/-! ## The memory register block (R243) -/

/-- MSTAT. -/
def mstat (s : State) : Nat :=
  maskOf ((List.range 8).filter (fun n => (s.mem.stack n).level == 3)) * 256 +
  maskOf ((List.range 8).filter (fun n => (s.mem.stack n).throttleSeen))

/-- The 4 bytes of the memory register block at `off`. -/
def memWord (s : State) (off : Nat) : Nat :=
  let m := s.mem
  if off = 0 then mstat s
  else if 0x10 ≤ off ∧ off < 0x30 then
    let n := (off - 0x10) / 4
    (m.stack n).retiredCount * 65536 + m.freeCount n
  else if 0x30 ≤ off ∧ off < 0x50 then mtemp s ((off - 0x30) / 4)
  else if off = 0x50 then m.mcorr % 2 ^ 32
  else if off = 0x54 then m.mcorr / 2 ^ 32
  else if off = 0x58 then m.mcrc
  else if off = 0x5C then m.mretryok
  else if off = 0x60 then m.muncor
  else if off = 0x64 then m.mppr
  else if 0x100 ≤ off ∧ off < 0x300 then
    let q := (off - 0x100) / 8
    if off % 8 = 0 then (mget 0xFFFFFFFF#32 m.quota q).toNat else m.used q
  else 0

/-- A quota set (R236, R243). -/
def setQuota (s : State) (q : Nat) (v : Word) : State := { s with mem := { s.mem with quota := mput s.mem.quota q v } }

/-- The throttle flags of a mask cleared (R243). -/
def clearThrottle (s : State) (v : Word) : State :=
  (List.range 8).foldl (fun s n =>
    if bit v.toNat n then setStackS s n { s.mem.stack n with throttleSeen := false } else s) s

/-- A 4-byte write to the memory register block. -/
def memWrite (s : State) (off : Nat) (v : Word) : State :=
  if off = 0 then clearThrottle s v
  else if 0x100 ≤ off ∧ off < 0x300 ∧ off % 8 = 0 then setQuota s ((off - 0x100) / 8) v
  else s

end Sys2Proof.Machine
end

