-- ==== Sys2Proof/Machine/Security.lean ====
section
/-! DEFINITION. The security engine: images (R370-R374), presence (R375, R376), the seal (R377), group 0x0E (R378, R379),
attestation (R380), the security window (R381). -/

namespace Sys2Proof.Machine

/-! ## Images -/

/-- The type byte that SIGNATURE_INVALID reports: 0 where magic is wrong (R371). -/
def imageType (b : Bytes) : Nat := if slice b 0 4 = [0x46#8, 0x4C#8, 0x44#8, 0x46#8] then field b 5 1 else 0

/-- Check 1 of R371: magic, header version, reserved fields, and a body of the length that the type allows. -/
def imageHeader (b : Bytes) : Bool :=
  let n := field b 0x18 8
  slice b 0 4 == [0x46#8, 0x4C#8, 0x44#8, 0x46#8] && field b 4 1 == 1 && [1, 2, 3, 4, 0x10].contains (field b 5 1) &&
  field b 7 1 == 0 && field b 0x14 4 == 0 && allZero (slice b 0x48 56) && allZero (slice b 0xC81 895) &&
  (if field b 5 1 = 0x10 then n == 0 else decide (n ≤ 0x4000000 - 4096 ∧ 4096 + n ≤ b.length))

/-- The key of the signing slot (R371 check 2). -/
def imageKey (s : State) (b : Bytes) : Bool :=
  let k := field b 6 1
  decide (k ≤ 3) && slice (Config.shake256 (slice b 0x580 1793)) 0 32 == slice (Config.keyDigest k) 0 32 && !s.sec.revoked.contains k

/-- The first of checks 1 to 5 of R371 that fails. -/
def imageFault (s : State) (b : Bytes) : Option Nat :=
  if !imageHeader b then some 1
  else if !imageKey s b then some 2
  else if !Config.falconVerify (slice b 0x580 1793) (slice b 0 0x80) (slice b 0x80 1280) then some 3
  else if slice b 0x20 32 ≠ slice (Config.shake256 (slice b 4096 (field b 0x18 8))) 0 32 then some 4
  else if field b 0x40 8 ≠ 0 ∧ field b 0x40 8 ≠ s.ctl.serial.toNat then some 5
  else none

/-- What the store keeps of an image. -/
def imageOf (b : Bytes) (downgrade : Bool) : Image :=
  { typ := field b 5 1, keySlot := field b 6 1, version := BitVec.ofNat 64 (field b 8 8), svn := field b 0x10 4,
    measure := slice (Config.shake256 (slice b 0 0x80)) 0 32, downgrade := downgrade }

/-- The banks of an image type. -/
def banksOf (s : State) (t : Nat) : Banks := mget Banks.reset s.sec.banks t

/-- The lowest firmware slot that is not revoked; 4 where all are. -/
def lowestSlot (s : State) : Nat := ((List.range 4).find? (fun k => !s.sec.revoked.contains k)).getD 4

/-- A SIGNATURE_INVALID result counted in SECSIGFAIL (R381). -/
def sigFail (s : State) (typ : Nat) : State × Err :=
  ({ s with sec := { s.sec with sigFail := satAdd 32 s.sec.sigFail 1 } }, signatureInvalid typ)

/-- The pending image of its type replaced (R374). -/
def storePending (s : State) (i : Image) : State :=
  { s with sec := { s.sec with banks := mput s.sec.banks i.typ { banksOf s i.typ with other := some i, pending := true } } }

/-- FW_UPDATE and FW_DOWNGRADE on the bytes that the host delivered (R371, R373, R374): `floor` gives a type's floor. -/
def storeImage (s : State) (host : HostRead) (downgrade : Bool) (floor : Nat → Nat) : State × Err :=
  match host with
  | .failed => (s, badParam 0x10 2)
  | .data b =>
    if imageFault s b ≠ none ∨ field b 5 1 = 0x10 then sigFail s (imageType b)
    else if field b 0x10 4 < floor (field b 5 1) then (s, badParam 0x10 6)
    else (storePending s (imageOf b downgrade), okStatus)

/-- Fused floor of a type. -/
def fusedFloor (s : State) (t : Nat) : Nat := mget 0 s.sec.floors t

/-- Stored floor of a type. -/
def storedFloor (s : State) (t : Nat) : Nat := mget 0 s.sec.storedFloors t

/-! ## Group 0x0E (R378, R379) -/

/-- A host bus address and a length. -/
def busFields (c : Cmd) (limit : Nat) : List (Option Err) :=
  [need (c.arg 0x10 8 % 64 == 0) (badParam 0x10 2), need (decide (c.arg 0x18 8 ≤ limit)) (badParam 0x18 2)]

/-- The packet checks of FW_DOWNGRADE, FW_UPDATE and DEBUG_UNLOCK. -/
def imagePacket (_ : State) (c : Cmd) : Option Err := firstErr (busFields c 0x4000000 ++ [zeroBytes c 0x20 32])

/-- The packet checks of KEY_ROTATE. -/
def keyRotatePacket (_ : State) (c : Cmd) : Option Err :=
  firstErr [need (decide (1 ≤ c.arg 0x10 1 ∧ c.arg 0x10 1 ≤ 3)) (badParam 0x10 2), zeroBytes c 0x11 47]

/-- The packet checks of SPARE_OVERRIDE. -/
def spareOverridePacket (_ : State) (c : Cmd) : Option Err :=
  let k := c.arg 0x10 1
  firstErr [need (k == 1 || k == 2) (badParam 0x10 2), need (decide (c.arg 0x11 1 ≤ (if k = 1 then 6 else 23))) (badParam 0x11 2),
    need (decide (c.arg 0x12 1 ≤ (if k = 1 then 67 else 9))) (badParam 0x12 2), need (decide (c.arg 0x13 1 ≤ 1)) (badParam 0x13 2),
    zeroBytes c 0x14 44]

/-- The packet checks of FUSE_WRITE. -/
def fuseWritePacket (_ : State) (c : Cmd) : Option Err :=
  let f := c.arg 0x10 1
  firstErr [need (f == 1 || f == 2) (badParam 0x10 2),
    need (f != 1 || decide (1 ≤ c.arg 0x11 1 ∧ c.arg 0x11 1 ≤ 4)) (badParam 0x11 2), zeroBytes c 0x13 45]

/-- FW_DOWNGRADE: as FW_UPDATE, against the fused floor. -/
def runFwDowngrade (s : State) (_ : Cmd) (host : HostRead) : State × Err := storeImage s host true (fusedFloor s)

/-- KEY_ROTATE: every slot below the named one is revoked. -/
def runKeyRotate (s : State) (c : Cmd) : State × Err :=
  let k := c.arg 0x10 1
  let uses (i : Option Image) : Bool := match i with
    | some i => decide (i.keySlot < k)
    | none => false
  if k ≤ lowestSlot s then (s, badParam 0x10 2)
  else if s.sec.banks.any (fun e => uses e.2.active || (e.2.pending && uses e.2.other)) then (s, badParam 0 6)
  else ({ s with sec := { s.sec with revoked := (List.range 4).filter (fun n => decide (n < k) || s.sec.revoked.contains n) } }, okStatus)

/-- DEBUG_UNLOCK: a bound token opens the debug ports until the next module reset. -/
def runDebugUnlock (s : State) (_ : Cmd) (host : HostRead) : State × Err :=
  if s.job.loaded then (s, badParam 0 6)
  else
    match host with
    | .failed => (s, badParam 0x10 2)
    | .data b =>
      if imageFault s b ≠ none ∨ field b 5 1 ≠ 0x10 then sigFail s (imageType b)
      else if field b 0x40 8 = 0 then sigFail s 0x10
      else ({ s with sec := { s.sec with debug := true } }, okStatus)

/-- SPARE_OVERRIDE: an entry of the non-volatile lane map added or removed (R247, R275). -/
def runSpareOverride (s : State) (c : Cmd) : State × Err :=
  let i := c.arg 0x11 1
  let p := c.arg 0x12 1
  let add := c.arg 0x13 1 == 1
  let edit (l : List Nat) : List Nat := if add then addTo l p else dropFrom l p
  let old := if c.arg 0x10 1 = 1 then (getBundle s i).nonVolatile else (getPort s i).nonVolatile
  if old.contains p = add then (s, badParam 0x13 2)
  else if c.arg 0x10 1 = 1 then (setBundle s i { getBundle s i with nonVolatile := edit old }, okStatus)
  else (setPort s i { getPort s i with nonVolatile := edit old }, okStatus)

/-- FUSE_WRITE: a fused floor raised, or the jumper disabled for good. -/
def runFuseWrite (s : State) (c : Cmd) : State × Err :=
  let t := c.arg 0x11 1
  let v := c.arg 0x12 1
  if c.arg 0x10 1 = 2 then ({ s with sec := { s.sec with jumperFused := true } }, okStatus)
  else if v ≤ fusedFloor s t ∨ 63 < v ∨ ((banksOf s t).active.map (·.svn)).getD 0 < v then (s, badParam 0x12 2)
  else ({ s with sec := { s.sec with floors := mput s.sec.floors t v } }, okStatus)

/-- R376: presence is checked once, as the command begins; without it nothing changes. -/
def privileged (s : State) (c : Cmd) (r : State × Err) : State × Err := if presence s then r else (s, presenceRequired c.opcode)

/-- A command of the admin queue ends with a status as soon as its work is done. -/
def adminEnd (c : Cmd) (r : State × Err) : State := complete r.1 c r.2 0

/-- FW_DOWNGRADE. -/
def execFwDowngrade (cid : Nat) (host : HostRead) (s : State) : Ans :=
  .next (onWork s cid [0x0E01] (fun c => adminEnd c (privileged s c (runFwDowngrade s c host))))

/-- KEY_ROTATE. -/
def execKeyRotate (cid : Nat) (s : State) : Ans :=
  .next (onWork s cid [0x0E02] (fun c => adminEnd c (privileged s c (runKeyRotate s c))))

/-- DEBUG_UNLOCK. -/
def execDebugUnlock (cid : Nat) (host : HostRead) (s : State) : Ans :=
  .next (onWork s cid [0x0E03] (fun c => adminEnd c (privileged s c (runDebugUnlock s c host))))

/-- SPARE_OVERRIDE. -/
def execSpareOverride (cid : Nat) (s : State) : Ans :=
  .next (onWork s cid [0x0E04] (fun c => adminEnd c (privileged s c (runSpareOverride s c))))

/-- FUSE_WRITE. -/
def execFuseWrite (cid : Nat) (s : State) : Ans :=
  .next (onWork s cid [0x0E05] (fun c => adminEnd c (privileged s c (runFuseWrite s c))))

/-! ## Attestation (R380) -/

/-- The running image of a type. -/
def runningOf (s : State) (t : Nat) : Image :=
  mget { typ := t, keySlot := 0, version := 0, svn := 0, measure := List.replicate 32 0, downgrade := false } s.sec.running t

/-- aflags of an attestation report. -/
def attestFlags (s : State) : Nat :=
  b2n s.sec.sealFuse + 2 * b2n s.sec.jumper + 4 * b2n (isSafe s) + 8 * b2n s.sec.debug + 16 * b2n (presence s) + 32 * b2n s.sec.spareBoot

/-- The signed bytes of an attestation report. -/
def attestBody (s : State) (nonce : Bytes) : Bytes :=
  let types := [1, 2, 3, 4]
  [0x46#8, 0x4C#8, 0x44#8, 0x41#8] ++ toLe 2 1 ++ toLe 2 1568 ++ toLe 8 s.ctl.serial.toNat ++ toLe 4 8120 ++ toLe 1 0x42 ++
  toLe 1 1 ++ toLe 1 (lowestSlot s) ++ toLe 1 (maskOf s.sec.revoked) ++ slice nonce 0 24 ++ toLe 6 s.job.step ++
  toLe 2 (attestFlags s) ++ toLe 4 s.sec.bootCount ++ toLe 4 0 ++ types.flatMap (fun t => slice (runningOf s t).measure 0 32) ++
  types.flatMap (fun t => toLe 4 (runningOf s t).svn) ++ types.flatMap (fun t => toLe 1 (fusedFloor s t)) ++ toLe 12 0 ++
  slice (Config.shake256 ((capRecord s).drop 12)) 0 32 ++ slice s.ctl.idDigest 0 32

/-- The report with its signature. -/
def attestReport (s : State) (nonce : Bytes) : Bytes :=
  let b := attestBody s nonce
  b ++ slice (Config.falconSign s.freeCtr b) 0 1280

/-! ## Presence (R375) and the seal (R377) -/

/-- Whether the always-on domain, which senses the discrete inputs and the seal, has power (R377, R384). -/
def sensing (s : State) : Bool := s.power.domains.contains 95

/-- PRESENCE_PRESS: a new 60 s window, unless the button is stuck. -/
def execPresencePress (s : State) : Ans :=
  .next (if s.sec.stuck || !sensing s then s else { s with sec := { s.sec with windowUs := 60000000, pressed := true } })

/-- PRESENCE_RELEASE: the button is free again. -/
def execPresenceRelease (s : State) : Ans := .next { s with sec := { s.sec with pressed := false, stuck := false } }

/-- PRESENCE_WINDOW_EXPIRY: 60 s after the latest accepted press. -/
def execPresenceWindowExpiry (s : State) : Ans := .next { s with sec := { s.sec with windowUs := 0 } }

/-- PRESENCE_STUCK: a press held for more than 10 s. -/
def execPresenceStuck (s : State) : Ans :=
  .next (if s.sec.pressed then { s with sec := { s.sec with windowUs := 0, stuck := true } } else s)

/-- JUMPER_FITTED: capability flag bit 1 follows (R22). -/
def execJumperFitted (s : State) : Ans :=
  .next (if sensing s then capSync s { s with sec := { s.sec with jumper := true } } else s)

/-- The jumper is out: the presence that it gave ends, and jumper_long with its condition. -/
def jumperOut (s : State) : State :=
  { s with sec := { s.sec with jumper := false }, pins := { s.pins with jumperLong := false } }

/-- JUMPER_REMOVED. -/
def execJumperRemoved (s : State) : Ans := .next (capSync s (jumperOut s))

/-- The seal is broken (R377): the fuse burns once and for all, with its entry (R413). -/
def sealOpen (s : State) : State :=
  let s1 : State := { s with pins := { s.pins with level := dropFrom s.pins.level 6 } }
  if s1.sec.sealFuse then s1 else logNote { s1 with sec := { s1.sec with sealFuse := true } } 0x29 6 0xFFFF []

/-- SEAL_BROKEN: the loop open, or invalid; a break is not seen while the always-on domain has no power. -/
def execSealBroken (invalid : Bool) (s : State) : Ans :=
  let s1 : State := if invalid then { s with pins := { s.pins with invalid := addTo s.pins.invalid 6 } } else s
  .next (if sensing s then capSync s (sealOpen s1) else s)

/-- END_WINDOW (R381). -/
def execEndWindow (src : Source) (s : State) : Ans :=
  .next (if sourceUp s src then { s with sec := { s.sec with windowUs := 0 } } else s)

/-- A write to an RWP field without presence is refused and counted (R7, R353). -/
def refuseWrite (s : State) : State := { s with ctl := { s.ctl with presRefuse := satAdd 32 s.ctl.presRefuse 1 } }

/-- A write of jumper_ignore (R381). -/
def jumperIgnoreSet (s : State) (on : Bool) : State :=
  if presence s then { s with sec := { s.sec with jumperIgnore := on } } else refuseWrite s

/-- JUMPER_IGNORE_WRITE. -/
def execJumperIgnoreWrite (src : Source) (on : Bool) (s : State) : Ans := .next (if sourceUp s src then jumperIgnoreSet s on else s)

/-! ## The security window -/

/-- SECSTAT. -/
def secstat (s : State) : Nat :=
  b2n (presence s) * 2 ^ 31 + b2n s.sec.jumper * 2 ^ 30 + b2n s.sec.stuck * 2 ^ 29 + b2n s.sec.jumperFused * 2 ^ 28 +
  b2n s.sec.sealFuse * 2 ^ 27 + b2n s.sec.debug * 2 ^ 26 + maskOf s.sec.revoked * 2 ^ 16 + ceilDiv s.sec.windowUs 1000000

/-- SIDCERT (R381): the serial, the identity digest, zero, the signature over these 56 bytes. -/
def sidCert (s : State) : Bytes :=
  toLe 8 s.ctl.serial.toNat ++ slice s.ctl.idDigest 0 32 ++ toLe 16 0 ++ slice s.sec.sidcert 0 1280

/-- The 4 bytes of the security window at `off`. -/
def secWord (s : State) (off : Nat) : Nat :=
  if off = 0 then secstat s
  else if off = 4 then b2n s.sec.jumperIgnore
  else if off = 8 then (fusedFloor s 1) + 0x100 * fusedFloor s 2 + 0x10000 * fusedFloor s 3 + 0x1000000 * fusedFloor s 4
  else if off = 0xC then s.sec.sigFail
  else if 0x800 ≤ off ∧ off < 0x800 + 1796 then field (slice s.sec.sidkey 0 1793) (off - 0x800) 4
  else if 0x1000 ≤ off ∧ off < 0x1000 + 1336 then field (sidCert s) (off - 0x1000) 4
  else 0

/-- A 4-byte write to the security window. -/
def secWrite (s : State) (off : Nat) (v : Word) : State :=
  if off = 4 then
    let s1 : State := if bit v.toNat 1 then { s with sec := { s.sec with windowUs := 0 } } else s
    if presence s then { s1 with sec := { s1.sec with jumperIgnore := bit v.toNat 0 } } else refuseWrite s1
  else s

end Sys2Proof.Machine
end

