-- ==== Sys2Proof/Machine/Admin.lean ====
section
/-! DEFINITION. The management group 0x0F (R356, R357, R380, R399, R236). -/

namespace Sys2Proof.Machine

/-- A host bus address that a command writes to: 64-byte aligned (R356). -/
def busField (c : Cmd) : Option Err := need (c.arg 0x10 8 % 64 == 0) (badParam 0x10 2)

/-- The bytes available at the address must do. -/
def roomField (c : Cmd) (n : Nat) : Option Err := need (decide (n ≤ c.arg 0x18 8)) (badParam 0x18 2)

/-! ## Telemetry (R357) -/

/-- Section 0: the guard counters, the total first. -/
def section0 (s : State) : Bytes :=
  (List.range 256).flatMap (fun t =>
    let g := getCounts s t
    toLe 4 g.sampled ++ toLe 4 g.sat ++ toLe 4 g.nonfinite ++ toLe 4 g.reservedT2 ++ toLe 4 g.promotions ++ toLe 4 g.demotions)

/-- The sections that a mask selects, with their numbers. -/
def sectionsOf (s : State) (mask : Nat) : List (Nat × Bytes) :=
  [(0, section0 s), (1, section1 s), (2, section2 s)].filter (fun p => bit mask p.1)

/-- Offsets of the sections, one after another from `o`. -/
def sectionOffsets : Nat → List (Nat × Bytes) → List (Nat × Nat)
  | _, [] => []
  | o, p :: t => (p.1, o) :: sectionOffsets (o + p.2.length) t

/-- The telemetry image. -/
def telemetryImage (s : State) (mask : Nat) : Bytes :=
  let l := sectionsOf s mask
  let offs := sectionOffsets 64 l
  [0x46#8, 0x4C#8, 0x44#8, 0x45#8] ++ toLe 4 (maskOf (l.map (·.1))) ++ toLe 6 s.job.step ++ toLe 2 0 ++
  (List.range 12).flatMap (fun k => toLe 4 (((offs.find? (fun p => p.1 == k)).map (·.2)).getD 0)) ++ l.flatMap (·.2)

/-- The packet checks of TELEMETRY_READ. -/
def telemetryPacket (s : State) (c : Cmd) : Option Err :=
  firstErr [busField c, roomField c (telemetryImage s (c.arg 0x20 4)).length, need (decide (c.arg 0x20 4 < 8)) (badParam 0x20 2),
    zeroBytes c 0x24 28]

/-- TELEMETRY_READ's work. -/
def runTelemetryRead (s : State) (c : Cmd) : State × Err :=
  (emit s (.hostWrite (c.arg 0x10 8) (telemetryImage s (c.arg 0x20 4))), okStatus)

/-- TELEMETRY_READ (R357): the image as its fields stand when it is written. -/
def execTelemetryRead (cid : Nat) (s : State) : Ans := .next (onWork s cid [0x0F01] (fun c => adminEnd c (runTelemetryRead s c)))

/-! ## POWER_CAP, QUOTA_SET -/

/-- The packet checks of POWER_CAP (R399). -/
def powerCapPacket (_ : State) (c : Cmd) : Option Err :=
  firstErr [need (decide (c.arg 0x10 2 ≤ 3000)) (badParam 0x10 2), zeroBytes c 0x12 46]

/-- POWER_CAP's work. -/
def runPowerCap (s : State) (c : Cmd) : State × Err := (setCap s (c.arg 0x10 2), okStatus)

/-- POWER_CAP (R399). -/
def execPowerCap (cid : Nat) (s : State) : Ans := .next (onWork s cid [0x0F02] (fun c => adminEnd c (runPowerCap s c)))

/-- The packet checks of QUOTA_SET. -/
def quotaSetPacket (_ : State) (c : Cmd) : Option Err :=
  firstErr [need (decide (c.arg 0x10 1 ≤ 63)) (badParam 0x10 2), zeroBytes c 0x11 3, zeroBytes c 0x18 40]

/-- QUOTA_SET's work. -/
def runQuotaSet (s : State) (c : Cmd) : State × Err := (setQuota s (c.arg 0x10 1) (c.word 0x14), okStatus)

/-- QUOTA_SET (R236). -/
def execQuotaSet (cid : Nat) (s : State) : Ans := .next (onWork s cid [0x0F03] (fun c => adminEnd c (runQuotaSet s c)))

/-! ## ERRLOG_READ -/

/-- The packet checks of ERRLOG_READ: room for every entry asked for. -/
def errlogPacket (_ : State) (c : Cmd) : Option Err :=
  firstErr [busField c, roomField c (64 * c.arg 0x24 2), need (decide (1 ≤ c.arg 0x24 2 ∧ c.arg 0x24 2 ≤ 256)) (badParam 0x24 2),
    zeroBytes c 0x26 26]

/-- The entries held among `count` sequence numbers from `first` on, in order. -/
def heldEntries (s : State) (first count : Nat) : List LogEntry :=
  (List.range count).filterMap (fun i => s.rel.log.find? (fun e => e.seq == (first + i) % 2 ^ 32))

/-- ERRLOG_READ's work. -/
def runErrlogRead (s : State) (c : Cmd) : State × Err :=
  let b := (heldEntries s (c.arg 0x20 4) (c.arg 0x24 2)).flatMap logBytes
  ((if b.isEmpty then s else emit s (.hostWrite (c.arg 0x10 8) b)), okStatus)

/-- ERRLOG_READ (R356). -/
def execErrlogRead (cid : Nat) (s : State) : Ans := .next (onWork s cid [0x0F04] (fun c => adminEnd c (runErrlogRead s c)))

/-! ## FW_UPDATE, ATTEST -/

/-- FW_UPDATE's work (R374): the stored floor bounds the image. -/
def runFwUpdate (s : State) (_ : Cmd) (host : HostRead) : State × Err := storeImage s host false (storedFloor s)

/-- FW_UPDATE (R374). -/
def execFwUpdate (cid : Nat) (host : HostRead) (s : State) : Ans :=
  .next (onWork s cid [0x0F05] (fun c => adminEnd c (runFwUpdate s c host)))

/-- The packet checks of ATTEST (R380). -/
def attestPacket (_ : State) (c : Cmd) : Option Err := firstErr [busField c, roomField c 1568, zeroBytes c 0x38 8]

/-- ATTEST's work: the report, signed under a fresh nonce of the signer. -/
def runAttest (s : State) (c : Cmd) : State × Err :=
  (tickFree (emit s (.hostWrite (c.arg 0x10 8) (attestReport s (slice c.params 0x10 24)))), okStatus)

/-- ATTEST (R380). -/
def execAttest (cid : Nat) (s : State) : Ans := .next (onWork s cid [0x0F06] (fun c => adminEnd c (runAttest s c)))

end Sys2Proof.Machine
end

