-- ==== Sys2Proof/Machine/Matmul.lean ====
section
/-! DEFINITION. MATMUL (R100): its packet checks, its issue checks (R110), its work, and what it shares with the other
array commands: operands, outputs, format rules (R72, R73). -/

namespace Sys2Proof.Machine

/-! ## Format rules (R72, R73) -/

/-- Formats of array operand A. -/
def fmtAOk (f : Nat) : Bool := decide (1 ≤ f ∧ f ≤ 6)

/-- Formats of array operand B. -/
def fmtBOk (f : Nat) : Bool := decide (1 ≤ f ∧ f ≤ 7)

/-- Formats of a drain's output. -/
def fmtOutOk (f : Nat) : Bool := decide (f ≤ 6)

/-- The pair rule (R73). -/
def pairOk (a b : Nat) : Bool :=
  (a == 1 && b == 1) || (a == 2 && b == 2) || (decide (3 ≤ a ∧ a ≤ 5) && decide (3 ≤ b ∧ b ≤ 5)) ||
  (a == 6 && (b == 6 || b == 7))

/-- The pair rule as a check: the detail names operand A where A holds T2, else operand B (R73). -/
def pairCheck (a b : Nat) : Option Err :=
  need (pairOk a b) (if a = 7 then formatUnsupported 0 a else formatUnsupported 1 b)

/-- Stochastic rounding only into narrow formats (R69). -/
def srCheck (fmt : Nat) (sr : Bool) (e : Err) : Option Err := need (!sr || decide (3 ≤ fmt)) e

/-! ## Packet checks of the R39 layout -/

/-- Descriptor field of an array operand that may be compressed (R206). -/
def operandField (s : State) (c : Cmd) (off : Nat) (optional : Bool) : Option Err :=
  let id := c.arg off 2
  firstErr [descCheck s id off optional, zipDescCheck s id off]

/-- Descriptor field that may not be compressed (R206). -/
def plainField (s : State) (c : Cmd) (off : Nat) (optional : Bool) : Option Err :=
  let id := c.arg off 2
  firstErr [descCheck s id off optional, plainCheck s id off]

/-- Drain program field: its id, and its base (R429). -/
def drainField (s : State) (c : Cmd) (off : Nat) : Option Err :=
  let id := c.arg off 2
  firstErr [idCheck s id off true, need (descFields s id false) (badParam off 3)]

/-- The range check of chunk_c (R115). -/
def chunkCheck (c : Cmd) : Option Err :=
  let k := c.arg 0x2C 1
  need (k == 0 || (k % 8 == 0 && decide (16 ≤ k ∧ k ≤ 128))) (badParam 0x2C 2)

/-- The tail that the four array commands share: chunk, drain, Meres, extended pointer field. -/
def tailChecks (s : State) (c : Cmd) : List (Option Err) :=
  [need (decide (1 ≤ c.arg 0x2B 1 ∧ c.arg 0x2B 1 ≤ 16)) (badParam 0x2B 2), chunkCheck c, zeroField c 0x2D 1,
   drainField s c 0x2E, mereCheck s (c.arg 0x30 1) (c.arg 0x31 1) 0x30]

/-- EXT clear leaves bytes 0x38 to 0x3F reserved (R34). -/
def noExtCheck (c : Cmd) : Option Err := need (c.isExt || allZero (slice c.params 0x28 8)) (badParam 0x38 1)

/-- Check 1 of MATMUL, in offset order (R35, R39, R72, R73, R115, R131, R135, R146, R429). -/
def matmulPacket (s : State) (c : Cmd) : Option Err :=
  let fa := c.arg 0x18 1 % 16
  let fb := c.arg 0x19 1 % 16
  let fo := c.arg 0x1A 1 % 16
  firstErr ([
    operandField s c 0x10 false, operandField s c 0x12 false, plainField s c 0x14 false, operandField s c 0x16 true,
    zeroBits c 0x18 0xE0, need (fmtAOk fa) (formatUnsupported 0 fa),
    zeroBits c 0x19 0xE0, need (fmtBOk fb) (formatUnsupported 1 fb), pairCheck fa fb,
    zeroBits c 0x1A 0xE0, need (fmtOutOk fo) (formatUnsupported 2 fo), srCheck fo (bit (c.arg 0x1A 1) 4) (badParam 0x1A 2),
    zeroBits c 0x1B 0xFC] ++ tailChecks s c ++ [
    need (fb != 7 || c.arg 0x32 1 == 0) (badParam 0x32 2),
    need (fo != 6 || c.arg 0x33 1 != 0) (badParam 0x33 2), noExtCheck c])

/-! ## Issue checks (R110) -/

/-- Check 2 of R110: EXT, the block's length, the reserved fields of the tiling section. -/
def tilingCheck (c : Cmd) (minLen : Nat) : Option Err :=
  firstErr [need c.isExt (badParam 0x02 2), need (decide (minLen ≤ c.ext.length)) (badExt 0 2), zeroExt c 0x04 12,
    zeroExt c 0xA0 32]

/-- An extent within the planned extent of a descriptor (check 3 of R110). -/
def extentCheck (dim ext plan desc : Nat) : Option Err := need (decide (ext ≤ plan)) (shapeExceeds dim desc)

/-- Rows or dimension 0 by the transpose bit: the planned extent along the operand's outer index (R100). -/
def outerPlan (d : Desc) (tr : Bool) : Nat := if tr then d.p0 else d.rows

/-- The planned extent along K. -/
def innerPlan (d : Desc) (tr : Bool) : Nat := if tr then d.rows else d.p0

/-- Check 4 of R110. -/
def loopCheck (g : Geo) : Option Err :=
  firstErr [need (decide (g.loop ≤ 2)) (badParam 0x2A 2), need g.groupsOk (badParam 0x2B 2),
    need (g.tk % g.chunk == 0) (badParam 0x28 2)]

/-- Resident tiles of a Tarn half over a plan of `n` columns (R104, R107). -/
def residents (g : Geo) (n : Nat) : Nat := if g.loop = 2 then ceilDiv (g.pairs n) g.groups else 1

/-- Check 5 of R110: the Tarn (R107). -/
def tarnCheck (g : Geo) (n : Nat) : Option Err :=
  need (decide (residents g n * g.q ≤ 32)) (tileCapacity 0 (residents g n) (32 / g.q))

/-- The staging format of an output: E4M3 for F4 under a non-zero out-tag (R146). -/
def stageFmt (fmt outTag : Nat) : Nat := if fmt = 6 ∧ outTag ≠ 0 then 3 else fmt

/-- The format of a drain operand, none where its descriptor does not exist (R108). -/
def drainFmt (s : State) (id : Nat) : Option Nat :=
  if 1 ≤ id ∧ id ≤ s.job.descCount ∧ (readDesc s id).fmt ≤ 7 then some (readDesc s id).fmt else none

/-- Scratchpad bytes of the drain operands (R108). -/
def drainNeed (s : State) (aux inTag : Nat) (p : List Entry) (ids : List Nat) : Nat :=
  (ids.map (fun id =>
    match drainFmt s id with
    | none => 0
    | some f => sliceBytes (if vectorOnly aux p id then 2 else 128) 64 f (inTag != 0))).sum

/-- An operand's slice: `outer` rows along its outer index, `inner` along the reduction (R108). -/
def opSlice (outer inner fmt : Nat) (tr guarded : Bool) : Nat :=
  if tr then sliceBytes inner outer fmt guarded else sliceBytes outer inner fmt guarded

/-- Check 6 of R110 (R108): `need` bytes, of which four buffers of `sb`. -/
def padCheck (needed sb : Nat) : Option Err :=
  need (decide (needed ≤ padBytes)) (tileCapacity 1 4 ((padBytes - (needed - 4 * sb)) / max sb 1))

/-- The cover of an operand slice (R109). -/
def opCover (used : Option Bool) (outer inner fmt : Nat) (tr guarded : Bool) : Cover :=
  { used := used, rows := if tr then inner else outer, len := if tr then outer else inner, fmt := some fmt,
    guarded := guarded, double := true }

/-- The cover of an output staging region (R109). -/
def stageCover (fmt : Nat) : Cover := { used := some true, rows := 128, len := 64, fmt := some fmt, guarded := false, double := false }

/-- The cover of staging region `i` of the drain operands (R109). -/
def drainCover (s : State) (aux inTag : Nat) (p : List Entry) (ids : List Nat) (i : Nat) : Cover :=
  match ids[i]? with
  | none => { used := some false, rows := 0, len := 64, fmt := none, guarded := false, double := false }
  | some id =>
    { used := some true, rows := if vectorOnly aux p id then 2 else 128, len := 64, fmt := drainFmt s id,
      guarded := inTag != 0, double := false }

/-- The cover of the combine staging (R109). -/
def combineCover (parts : Nat) : Cover :=
  { used := some (decide (1 < parts)), rows := 256, len := 64, fmt := some 0, guarded := false, double := false }

/-- Size of a descriptor's tensor under the format a command gives it, with room for promoted form where `guarded`
(R64, R146). -/
def needBytes (d : Desc) (fmt : Nat) (guarded : Bool) : Nat :=
  if fmt = 6 ∧ guarded then max (tensorBytes 6 d.rows d.p0) (64 + d.elems) else tensorBytes fmt d.rows d.p0

/-- The group size that the out-tag's configuration gives F4 outputs (R137). -/
def rotOf (s : State) (c : Cmd) (fmt tag : Nat) : Nat :=
  if fmt = 6 ∧ tag ≠ 0 then rotSize (bits (tagView s c tag).cfg.toNat 29 28) else 0

/-- R146: under rotation, plan[0] of an F4 output is a multiple of g. -/
def rotCheck (s : State) (c : Cmd) (d : Desc) (fmt tag : Nat) : Option Err :=
  let g := rotOf s c fmt tag
  need (g == 0 || d.p0 % g == 0) (badParam 0x33 2)

/-- Checks 2 to 8 of R110 for MATMUL. -/
def matmulIssue (s : State) (c : Cmd) : Option Err :=
  let g := geoOf c
  let a := readDesc s (c.arg 0x10 2)
  let b := readDesc s (c.arg 0x12 2)
  let o := readDesc s (c.arg 0x14 2)
  let aux := c.arg 0x16 2
  let fa := c.arg 0x18 1 % 16
  let ta := bit (c.arg 0x18 1) 4
  let fb := c.arg 0x19 1 % 16
  let tb := bit (c.arg 0x19 1) 4
  let fo := c.arg 0x1A 1 % 16
  let inTag := c.arg 0x32 1
  let outTag := c.arg 0x33 1
  let ga := inTag != 0
  let m := c.arg 0x1C 4
  let n := c.arg 0x20 4
  let k := c.arg 0x24 4
  let drain := c.arg 0x2E 2
  let p := program s drain
  let ids := firstNamed aux p
  let st := stageFmt fo outTag
  let sa := opSlice g.tm g.tk fa ta ga
  let sb := opSlice g.tn g.tk fb tb ga
  let total := 2 * sa + 4 * sb + 2 * sliceBytes 128 64 st false + drainNeed s aux inTag p ids +
    (if 1 < g.parts then 65536 else 0)
  firstErr [
    tilingCheck c 192, zeroExtTail c 192,
    extentCheck 0 m o.rows o.id, extentCheck 0 m (outerPlan a ta) a.id,
    extentCheck 1 n o.p0 o.id, extentCheck 1 n (outerPlan b tb) b.id,
    extentCheck 2 k (innerPlan a ta) a.id, extentCheck 2 k (innerPlan b tb) b.id,
    loopCheck g, tarnCheck g o.p0, padCheck total sb,
    regionCheck c 0x10 (opCover (some true) g.tm g.tk fa ta ga),
    regionCheck c 0x20 (opCover (some true) g.tn g.tk fb tb ga),
    regionCheck c 0x30 (opCover (if 1 < ceilDiv o.p0 g.tn then some true else none) g.tn g.tk fb tb ga),
    regionCheck c 0x40 (stageCover st), regionCheck c 0x50 (stageCover st),
    regionCheck c 0x60 (drainCover s aux inTag p ids 0), regionCheck c 0x70 (drainCover s aux inTag p ids 1),
    regionCheck c 0x80 (drainCover s aux inTag p ids 2), regionCheck c 0x90 (combineCover g.parts),
    sizeCheck s a (needBytes a fa false) 0x10, sizeCheck s b (needBytes b fb false) 0x12,
    sizeCheck s o (needBytes o fo (outTag != 0)) 0x14,
    need (!overlaps (o.ranges s) (a.ranges s ++ b.ranges s ++ (if aux = 0 then [] else (readDesc s aux).ranges s) ++
      programReads s drain aux)) (badParam 0x14 4),
    need (!overlaps (tapRanges s drain aux) (a.ranges s ++ b.ranges s ++ programReads s drain aux)) (badParam 0x2E 4),
    need (!(bit (c.arg 0x1B 1) 0) || o.pingpong) (badParam 0x1B 5),
    programCheck s drain aux none (badParam 0x2E) o.rows o.p0 (tapSize g m n), programT2 s aux inTag p,
    rotCheck s c o fo outTag]

/-! ## Outputs -/

/-- The committed tensor of an output, in the form its header shows (R120, R144). -/
def oldTensor (s : State) (d : Desc) (fmt : Nat) : Tensor :=
  if fmt = 6 then
    (if s.mem.read (d.home + 4) = 3 then
      { fmt := 3, place := .mem d.home, off := 64, p0 := d.p0, scale := decodeElem 0 (leNat (s.mem.readN d.home 4)) }
     else { fmt := 6, place := .mem d.home, off := 64, p0 := d.p0, scale := e8m0 (s.mem.read d.home).toNat })
  else { fmt := fmt, place := .mem d.home, off := 0, p0 := d.p0, scale := .fin false 1 0 }

/-- An output of a command: its descriptor, format, stochastic bit, add bit and out-tag. -/
structure OutOf where
  desc : Desc
  fmt : Nat
  sr : Bool
  add : Bool
  tag : Nat
  deriving DecidableEq, Repr

/-- The conversion of an output under the command's guard state (R137, R142, R144). -/
def convSpec (s : State) (c : Cmd) (o : OutOf) : ConvSpec :=
  { fmt := o.fmt, promoted := o.fmt == 6 && isPromoted s c o.tag, rows := o.desc.rows, p0 := o.desc.p0,
    sr := if o.sr then some (c.word 0x34) else none, seed := c.word 0x34, rot := rotOf s c o.fmt o.tag, tag := o.tag,
    sampleLog2 := bits (tagView s c o.tag).cfg.toNat 19 16, stepLo := BitVec.ofNat 32 c.step }

/-- The committed header of an F4 output. -/
def outHeader (s : State) (o : OutOf) : Bytes := if o.fmt = 6 then s.mem.readN o.desc.home 64 else []

/-- Bytes that add mode copies from the committed half (R113). -/
def outBytes (k : ConvSpec) : Nat := if k.promoted then 64 + k.rows * k.p0 else tensorBytes k.fmt k.rows k.p0

/-- The values of an output by row and column, none outside the run-time extents. -/
abbrev Grid := Nat → Nat → Option Word

/-- The grid of `m` rows of `n` values from the origin. -/
def gridOf (m n : Nat) (val : Nat → Nat → Word) : Grid := fun r i => if r < m ∧ i < n then some (val r i) else none

/-- The rows of an output of `m` rows of `n` columns; in add mode the committed element is the left operand (R120). -/
def outRows (s : State) (o : OutOf) (m n : Nat) (val : Grid) : List Row :=
  (List.range m).map (fun r => (List.range n).map (fun i =>
    (val r i).map (fun v => if o.add then fadd ((oldTensor s o.desc o.fmt).wide s.mem r i) v else v)))

/-- The committed code of an element of a scaled output. -/
def oldCode (s : State) (o : OutOf) (r i : Nat) : Nat :=
  Tensor.code s.mem { fmt := o.fmt, place := .mem o.desc.home, off := headerBytes o.fmt, p0 := o.desc.p0, scale := .nan } r i

/-- Writes of an output into its target half, and the flip of cur in add mode (R49, R113). -/
def outEffects (s : State) (o : OutOf) (k : ConvSpec) (v : Converted) : List Effect :=
  if o.add then
    .write o.desc.partner (s.mem.readN o.desc.home (outBytes k)) :: writesAt o.desc.partner v ++ [.flip o.desc.id]
  else writesAt o.desc.home v

/-- What one output gives: its effects, its saturations. -/
structure OutRun where
  effects : List Effect
  sats : Nat
  deriving DecidableEq, Repr

/-- An output of `m` rows of `n` columns under the tile grid `tile`, drained by die `die` of a tile. -/
def runOutput (s : State) (c : Cmd) (o : OutOf) (tile : TileOf) (die : Nat → Nat) (m n : Nat) (val : Grid) : OutRun :=
  let k := convSpec s c o
  let v := convert k (outHeader s o) (tagView s c o.tag).amax tile (oldCode s o) (outRows s o m n val)
  { effects := outEffects s o k v ++ [.guard (deltaOf k die v)], sats := v.sats }

/-- An output of +0 within the extents (R114). -/
def zeroOutput (s : State) (c : Cmd) (o : OutOf) (m n : Nat) (inside : Nat → Nat → Bool) : OutRun :=
  let k := convSpec s c o
  { effects := outEffects s { o with add := false } k (convertZero k (outHeader s o) (tagView s c o.tag).amax (oldCode s o)
      ((List.range m).map (fun r => (List.range n).map (fun i => if inside r i then some 0#32 else none)))), sats := 0 }

/-- Every element of the rows and columns given. -/
def wholeGrid : Nat → Nat → Bool := fun _ _ => true

/-- The tap writes of a program's STATS_TAP entries: `write` gives those of one buffer from the value at its entry. -/
def tapEffects (s : State) (aux : Nat) (p : List Entry) (write : Nat → (Nat → Nat → Word) → List Effect)
    (at_ : Nat → Nat → Nat → Word) : List Effect :=
  ((List.range p.length).zip p).flatMap (fun e =>
    if e.2.op = 0x11 then write (readDesc s (e.2.operand aux)).home (at_ e.1) else [])

/-- The count of reserved T2 codes as an effect (R148). -/
def reservedEffect (tag n : Nat) : List Effect := if n = 0 then [] else [.guard (reservedDelta tag n)]

/-! ## The product -/

/-- An array operand in use: element (outer index, K position) (R100). -/
def arrayElem (m : Memory) (t : Tensor) (tr : Bool) (i k : Nat) : Num := if tr then t.elem m k i else t.elem m i k

/-- Rows and columns of an operand that the extents touch (R112). -/
def touchedRC (tr : Bool) (outer inner : Nat) : Nat × Nat := if tr then (inner, outer) else (outer, inner)

/-- Reserved T2 codes among the elements of runs that an operand delivers (R59). A stored element counts once in a command,
however often its tiles fetch it (DESIGN CHOICE, log 76: the manual does not say what one read is). -/
def reservedIn (m : Memory) (t : Tensor) (l : List Seg) : Nat :=
  if t.fmt ≠ 7 then 0
  else (l.map (fun g =>
    match g.row with
    | none => 0
    | some r => ((List.range g.len).filter (fun i => t.isReserved m r (g.col + i))).length)).sum

/-- Reserved T2 codes of a box of an operand. -/
def reservedCount (m : Memory) (t : Tensor) (rc : Nat × Nat) : Nat := reservedIn m t (boxSegs rc.1 rc.2)

/-- Multiply-accumulates in units of 2^20 (R44). -/
def macWork (m n k : Nat) : Nat := m * n * k / 2 ^ 20

/-- The output of MATMUL (R39). -/
def matmulOut (s : State) (c : Cmd) : OutOf :=
  { desc := readDesc s (c.arg 0x14 2), fmt := c.arg 0x1A 1 % 16, sr := bit (c.arg 0x1A 1) 4,
    add := bit (c.arg 0x1B 1) 0, tag := c.arg 0x33 1 }

/-- What MATMUL writes: its output from the values `val`, its taps from the values `tap` before each entry. -/
def matmulEffects (s : State) (c : Cmd) (val : Nat → Nat → Word) (tap : Nat → Nat → Nat → Word) : OutRun :=
  let g := geoOf c
  let m := c.arg 0x1C 4
  let n := c.arg 0x20 4
  let r := runOutput s c (matmulOut s c) (g.tileOf n) (g.dieOf n) m n (gridOf m n val)
  { r with effects := r.effects ++ tapEffects s (c.arg 0x16 2) (program s (c.arg 0x2E 2)) (tapWrites g m n) tap }

/-- The pairs of group `i` in the order of the loop code, as runs that share a load of A: tile row, pair columns (R103,
R104). -/
def pairRuns (g : Geo) (tm tn i : Nat) : List (Nat × List Nat) :=
  let pr := ceilDiv tn 2
  let mine (r q : Nat) : Bool := (r * pr + q) % max g.groups 1 == i
  if g.loop = 2 then
    (List.range tm).map (fun r => (r, (List.range pr).filter (mine r)))
  else if g.loop = 1 then
    (List.range pr).flatMap (fun q => ((List.range tm).filter (fun r => mine r q)).map (fun r => (r, [q])))
  else (List.range tm).flatMap (fun r => ((List.range pr).filter (mine r)).map (fun q => (r, [q])))

/-- The course of member `j` of group `i` in MATMUL (R102-R105): operand 0 is A, operand 1 is B. -/
def matmulCourse (c : Cmd) (i j : Nat) : List Step :=
  let g := geoOf c
  let m := c.arg 0x1C 4
  let n := c.arg 0x20 4
  let k := c.arg 0x24 4
  let ta := bit (c.arg 0x18 1) 4
  let tb := bit (c.arg 0x19 1) 4
  let tn := ceilDiv n g.tn
  let nc := ceilDiv k g.chunk
  let sl := partSlices (partStart j nc g.parts) (partStart (j + 1) nc g.parts) (g.tk / g.chunk)
  if m = 0 ∨ n = 0 ∨ k = 0 then []
  else
    (pairRuns g (ceilDiv m g.tm) tn i).flatMap (fun run => sl.flatMap (fun x =>
      let ks := chunkSpan g.chunk k x.2.1 x.2.2
      let colFill (t : Nat) := someFill x.2.2 (opFill 1 tb (t * g.tn) (min g.tn (n - t * g.tn)) ks.1 ks.2)
      ((List.range run.2.length).zip run.2).map (fun q =>
        let t := 2 * q.2
        { a := some (partOf (run.1 * tn + t) sl.length x),
          b := if t + 1 < tn then some (partOf (run.1 * tn + t + 1) sl.length x) else none,
          s := if q.1 = 0 then someFill x.2.2 (opFill 0 ta (run.1 * g.tm) (min g.tm (m - run.1 * g.tm)) ks.1 ks.2) else none,
          p := colFill t, q := if t + 1 < tn then colFill (t + 1) else none })))

/-- The reads of MATMUL's operands. -/
def matmulReads (s : State) (c : Cmd) : List Read :=
  let a := readDesc s (c.arg 0x10 2)
  let b := readDesc s (c.arg 0x12 2)
  (if a.compressed ∨ b.compressed then
    courseReads (geoOf c) (matmulCourse c) (fun o => if o = 0 then (a, c.arg 0x18 1 % 16) else (b, c.arg 0x19 1 % 16))
   else []) ++ envReads s c.die (c.arg 0x16 2) (c.arg 0x1C 4) (c.arg 0x20 4) (program s (c.arg 0x2E 2))

/-- Operand A of MATMUL as it is loaded. -/
def matmulA (s : State) (c : Cmd) : Loaded :=
  let b := touchedRC (bit (c.arg 0x18 1) 4) (c.arg 0x1C 4) (c.arg 0x24 4)
  loadTensor s (readDesc s (c.arg 0x10 2)) (c.arg 0x18 1 % 16) 0 (isPromoted s c (c.arg 0x32 1)) (boxSegs b.1 b.2)

/-- Operand B of MATMUL as it is loaded. -/
def matmulB (s : State) (c : Cmd) : Loaded :=
  let b := touchedRC (bit (c.arg 0x19 1) 4) (c.arg 0x20 4) (c.arg 0x24 4)
  loadTensor s (readDesc s (c.arg 0x12 2)) (c.arg 0x19 1 % 16) 1 (isPromoted s c (c.arg 0x32 1)) (boxSegs b.1 b.2)

/-- The work of MATMUL. -/
def matmulRun (s : State) (c : Cmd) : Run :=
  let g := geoOf c
  let aux := c.arg 0x16 2
  let ta := bit (c.arg 0x18 1) 4
  let tb := bit (c.arg 0x19 1) 4
  let m := c.arg 0x1C 4
  let n := c.arg 0x20 4
  let k := c.arg 0x24 4
  let p := program s (c.arg 0x2E 2)
  if m = 0 ∨ n = 0 ∨ (k = 0 ∧ (matmulOut s c).add) then Run.plain zeroExtent
  else if k = 0 then Run.plain (succeeded 0 (zeroOutput s c (matmulOut s c) m n wholeGrid).effects)
  else
    Run.reading
      (match matmulA s c, matmulB s c, loadEnv s (isPromoted s c (c.arg 0x32 1)) aux m n p (firstNamed aux p) with
        | .ok a, .ok b, .ok env =>
          let tau := Num.mul a.scale b.scale
          let total (i j : Nat) : Word :=
            elementTotal (fun x => Num.mul (arrayElem s.mem a ta i x) (arrayElem s.mem b tb j x)) tau g.chunk k g.parts
          let r := matmulEffects s c (fun i j => runProgram s.mem env aux i j p (total i j))
            (fun e i j => runBefore s.mem env aux i j e p (total i j))
          Run.plain (notedResult (satNote r.sats) (macWork m n k)
            (blurWrites (placementClash s c) r.effects ++
              reservedEffect (c.arg 0x32 1) (reservedCount s.mem b (touchedRC tb n k) + envReserved s.mem env aux m n p)))
        | .error e, _, _ => Run.fail e
        | _, .error e, _ => Run.fail e
        | _, _, .error e => Run.fail e)
      s (matmulReads s c)

/-- Where a dispatched MATMUL writes (R48). -/
def matmulTargets (s : State) (c : Cmd) : List (Nat × Nat) :=
  if c.arg 0x1C 4 = 0 ∨ c.arg 0x20 4 = 0 ∨ (c.arg 0x24 4 = 0 ∧ (matmulOut s c).add) then []
  else if c.arg 0x24 4 = 0 then writeRanges (zeroOutput s c (matmulOut s c) (c.arg 0x1C 4) (c.arg 0x20 4) wholeGrid).effects
  else writeRanges (matmulEffects s c (fun _ _ => 0) (fun _ _ _ => 0)).effects

/-- MATMUL (R100): the whole product of a command that runs on its Meres; its outputs wait for the commit point. -/
def execMatmul (cid : Nat) (s : State) : Ans := .next (onRun s cid [0x0101] matmulIssue matmulRun)

end Sys2Proof.Machine
end

