-- ==== Sys2Proof/Machine/Attn.lean ====
section
/-! DEFINITION. ATTN_BLOCK (R303): one forward or backward attention block with online softmax. -/

namespace Sys2Proof.Machine

/-! ## Parameters -/

/-- Bits of akind. -/
def Cmd.akind (c : Cmd) (i : Nat) : Bool := bit (c.arg 0x1A 1) i

/-- The mask field. -/
def Cmd.amask (c : Cmd) : Nat := bits (c.arg 0x1A 1) 4 3

/-- Heads of a tensor: the product of the planned extents above dimension 1. -/
def headsOf (d : Desc) : Nat := ((d.plan.drop 2).take (d.dims - 2)).prod

/-- Rows per head. -/
def headRows (d : Desc) : Nat := if d.dims < 2 then 1 else d.plan.getD 1 1

/-- Row of head `h`, position `i`. -/
def headRow (d : Desc) (h i : Nat) : Nat := h * headRows d + i

/-- PINGPONG required (R303). -/
def pingField (s : State) (c : Cmd) (off : Nat) : Option Err :=
  firstErr [plainField s c off false, need (readDesc s (c.arg off 2)).pingpong (badParam off 5)]

/-- The packet checks of ATTN_BLOCK. -/
def attnPacket (s : State) (c : Cmd) : Option Err :=
  let bwd := c.akind 0
  let f (off : Nat) := (readDesc s (c.arg off 2)).fmt
  firstErr [
    plainField s c 0x10 false, plainField s c 0x12 false, plainField s c 0x14 false, pingField s c 0x16, pingField s c 0x18,
    zeroBits c 0x1A 0xC0, need (c.amask != 3) (badParam 0x1A 2), zeroField c 0x1B 1,
    need (decide (64 ≤ c.arg 0x28 2 ∧ c.arg 0x28 2 ≤ 512) && c.arg 0x28 2 % 64 == 0) (badParam 0x28 2),
    if c.amask = 2 then plainField s c 0x2A false else zeroField c 0x2A 2,
    if bwd then plainField s c 0x2C false else none, if bwd then plainField s c 0x2E false else none,
    mereCheck s (c.arg 0x30 1) (c.arg 0x31 1) 0x30, if bwd && c.akind 1 then plainField s c 0x32 false else none, zeroField c 0x38 8,
    need (fmtAOk (f 0x10)) (formatUnsupported 0 (f 0x10)), need (fmtBOk (f 0x12)) (formatUnsupported 1 (f 0x12)),
    pairCheck (f 0x10) (f 0x12), need (f 0x14 != 7) (formatUnsupported 1 7), pairCheck (f 0x14) (f 0x14),
    srCheck (f 0x14) (c.akind 5) (badParam 0x1A 2), if bwd then pairCheck (f 0x2C) (f 0x14) else none,
    need (f 0x16 == 0) (formatUnsupported 2 (f 0x16)), need (f 0x18 == 0) (formatUnsupported 3 (f 0x18)),
    if bwd then need (f 0x2E == 0) (formatUnsupported 2 (f 0x2E)) else none,
    if bwd && c.akind 1 then need (f 0x32 == 0) (formatUnsupported 3 (f 0x32)) else none]

/-- The extents of an operand: dh within dimension 0, `n` rows within dimension 1, the heads of Q. -/
def attnExtent (s : State) (c : Cmd) (off dim n inner : Nat) : Option Err :=
  let d := readDesc s (c.arg off 2)
  firstErr [need (decide (n ≤ headRows d)) (shapeExceeds dim d.id), need (decide (inner ≤ d.p0)) (shapeExceeds 2 d.id),
    need (decide (headsOf (readDesc s (c.arg 0x10 2)) ≤ headsOf d)) (shapeExceeds 3 d.id)]

/-- Bytes of the mask: one per query row and key row, one plane, or one for each head of its plan. -/
def maskBytes (d : Desc) : Nat := d.elems

/-- The checks at issue: extents, sizes, mapping, overlap. -/
def attnIssue (s : State) (c : Cmd) : Option Err :=
  let q := c.arg 0x20 4
  let k := c.arg 0x24 4
  let dh := c.arg 0x28 2
  let bwd := c.akind 0
  let first := bwd && c.akind 1
  let d (off : Nat) := readDesc s (c.arg off 2)
  let fits (off : Nat) : Option Err := sizeCheck s (d off) (d off).bytes off
  let ins := [0x10, 0x12, 0x14] ++ (if c.amask = 2 then [0x2A] else []) ++ (if bwd then [0x2C] else []) ++ (if first then [0x32] else [])
  let outs := [0x16, 0x18] ++ (if bwd then [0x2E] else [])
  firstErr ([
    attnExtent s c 0x10 0 q dh, attnExtent s c 0x12 1 k dh, attnExtent s c 0x14 1 k dh, attnExtent s c 0x16 0 q dh,
    attnExtent s c 0x18 0 q 2, if bwd then attnExtent s c 0x2C 0 q dh else none, if first then attnExtent s c 0x32 0 q dh else none,
    if c.amask = 2 then need (decide (q ≤ headRows (d 0x2A) ∧ k ≤ (d 0x2A).p0)) (shapeExceeds 3 (d 0x2A).id) else none,
    fits 0x10, fits 0x12, fits 0x14, fits 0x16, fits 0x18,
    if c.amask = 2 then sizeCheck s (d 0x2A) (maskBytes (d 0x2A)) 0x2A else none,
    if bwd then fits 0x2C else none,
    if bwd then sizeCheck s (d 0x2E) (4 * ((d 0x12).elems + (d 0x14).elems)) 0x2E else none,
    if first then fits 0x32 else none] ++
    outs.map (fun o => need (!overlaps ((d o).ranges s) ((ins ++ outs.filter (fun x => decide (x < o))).flatMap (fun i => (d i).ranges s)))
      (badParam o 4)))

/-! ## The work -/

/-- An FP32 word of a tensor's committed half. -/
def fpAt (m : Memory) (d : Desc) (r i : Nat) : Word := BitVec.ofNat 32 (leNat (m.readN (d.home + 4 * (r * d.p0 + i)) 4))

/-- Operands of an attention block in use. -/
structure AttnIn where
  q : Tensor
  k : Tensor
  v : Tensor
  dO : Option Tensor
  deriving DecidableEq, Repr

/-- Positions in a chunk of the arrays: chunk_c 0 selects 32 (R115). -/
def attnChunk : Nat := 32

/-- An array total over `n` positions (R118). -/
def attnTotal (prod : Nat → Num) (tau : Num) (n : Nat) : Word := elementTotal prod tau attnChunk n 1

/-- Whether key `j` is masked for query `i` of head `h`. -/
def maskedAt (s : State) (c : Cmd) (h i j : Nat) : Bool :=
  if c.amask = 1 then decide (i < j)
  else if c.amask = 2 then
    let d := readDesc s (c.arg 0x2A 2)
    s.mem.read (d.home + headRow d (if headsOf d ≤ h then 0 else h) i * d.p0 + j) == 0
  else false

/-- Row numbers of head `h` in the operands. -/
def attnRow (s : State) (c : Cmd) (off h i : Nat) : Nat := headRow (readDesc s (c.arg off 2)) h i

/-- The scaled scores of query `i`, minus infinity where masked. -/
def scoresOf (s : State) (c : Cmd) (x : AttnIn) (h i : Nat) : List Word :=
  (List.range (c.arg 0x24 4)).map (fun j =>
    if maskedAt s c h i j then 0xFF800000#32
    else fmul (c.word 0x1C) (attnTotal (fun d => Num.mul (x.q.elem s.mem (attnRow s c 0x10 h i) d) (x.k.elem s.mem (attnRow s c 0x12 h j) d))
      (Num.mul x.q.scale x.k.scale) (c.arg 0x28 2)))

/-- exp() of the vector engine (R88). -/
def vexp (w : Word) : Word := vecFun 0x16 w

/-- The draw of element (i, j) of P under stochastic rounding: blocks of 64 by 64, head after head (R303). -/
def pDraw (c : Cmd) (h i j : Nat) : Option Nat :=
  if c.akind 5 then
    let nq := ceilDiv (c.arg 0x20 4) 64
    let nk := ceilDiv (c.arg 0x24 4) 64
    some (srDraw (c.word 0x34) ((h * nq + i / 64) * nk + j / 64) (i % 64 * 64 + j % 64))
  else none

/-- The tensor factor of a rounded P: f4_tensor(1.0) for F4. -/
def pScale (fmt : Nat) : Num := if fmt = 6 then e8m0 (f4Tensor (.fin false 1 0)) else .fin false 1 0

/-- A run of P along its reduction rounded into V's format: the element values without the tensor scale, and the
saturations. -/
def roundRun (fmt : Nat) : Nat → List (Word × Option Nat) → List Num × Nat
  | 0, _ => ([], 0)
  | n + 1, ps =>
    if ps = [] then ([], 0)
    else if isScaled fmt then
      let l := blockLen fmt
      let b := codeBlock fmt (pScale fmt) ((ps.take l).map (fun p => f32 p.1)) ((ps.take l).map (fun p => p.2))
      let r := roundRun fmt n (ps.drop l)
      (b.codes.map (scaledElem fmt b.scale) ++ r.1, b.sats + r.2)
    else
      let cs := ps.map (fun p => roundInto fmt (if 3 ≤ fmt then p.2 else none) (f32 p.1))
      (cs.map (fun k => decodeElem fmt k.code), (cs.filter (fun k => k.sat)).length)

/-- The largest of a word and a list. -/
def maxWith (m : Word) (l : List Word) : Word := l.foldl fmax m

/-- Whether a word is minus infinity. -/
def isNegInf (w : Word) : Bool := w == 0xFF800000#32

/-- What the forward pass gives for one row: m, l, the row of o, the saturations. -/
structure FwdRow where
  m : Word
  l : Word
  o : List Word
  sats : Nat
  deriving DecidableEq, Repr

/-- The forward pass of one row and head (R303). -/
def forwardRow (s : State) (c : Cmd) (x : AttnIn) (h i : Nat) : FwdRow :=
  let od := readDesc s (c.arg 0x16 2)
  let md := readDesc s (c.arg 0x18 2)
  let dh := c.arg 0x28 2
  let first := c.akind 1
  let m0 : Word := if first then 0xFF800000#32 else fpAt s.mem md (headRow md h i) 0
  let l0 : Word := if first then 0 else fpAt s.mem md (headRow md h i) 1
  let ss := scoresOf s c x h i
  let mn := maxWith m0 ss
  let dead := isNegInf mn
  let a : Word := if dead then 0 else vexp (fsub m0 mn)
  let p : List Word := ss.map (fun y => if dead then 0 else vexp (fsub y mn))
  let l := fadd (fmul l0 a) (laneSum p)
  let r := roundRun x.v.fmt p.length (p.zip ((List.range p.length).map (pDraw c h i)))
  let o := (List.range dh).map (fun d =>
    let o0 : Word := if first then 0 else fpAt s.mem od (headRow od h i) d
    fadd (fmul o0 a) (attnTotal (fun j => Num.mul (r.1.getD j (.fin false 0 0)) (x.v.elem s.mem (attnRow s c 0x14 h j) d))
      (Num.mul (pScale x.v.fmt) x.v.scale) p.length))
  if c.akind 2 then
    { m := fadd mn (vecFun 0x17 l), l := 0, o := o.map (fun y => if (f32 l).isZero then 0 else fdiv y l), sats := r.2 }
  else { m := mn, l := l, o := o, sats := r.2 }

/-- The rows of the block: head and query. -/
def attnRows (s : State) (c : Cmd) : List (Nat × Nat) :=
  (List.range (headsOf (readDesc s (c.arg 0x10 2)))).flatMap (fun h => (List.range (c.arg 0x20 4)).map (fun i => (h, i)))

/-- A ping-pong output rewritten: the committed half copied, rows laid over it, and cur flipped (R49, R113). -/
def rewriteHalf (s : State) (d : Desc) (rows : List (Nat × List Word)) : List Effect :=
  .write d.partner (s.mem.readN d.home d.bytes) ::
  rows.map (fun r => Effect.write (d.partner + 4 * (r.1 * d.p0)) (r.2.flatMap (fun w => toLe 4 w.toNat))) ++ [.flip d.id]

/-- Reserved T2 codes of K, which the block reads once for each stored element (R59, R148). -/
def attnReserved (s : State) (c : Cmd) (x : AttnIn) : Nat :=
  reservedCount s.mem x.k (headsOf (readDesc s (c.arg 0x10 2)) * headRows (readDesc s (c.arg 0x12 2)), c.arg 0x28 2)

/-- The forward pass. -/
def attnForward (s : State) (c : Cmd) (x : AttnIn) : Result :=
  let od := readDesc s (c.arg 0x16 2)
  let md := readDesc s (c.arg 0x18 2)
  let rs := (attnRows s c).map (fun p => (p, forwardRow s c x p.1 p.2))
  let sats := (rs.map (fun r => r.2.sats)).sum
  notedResult (satNote sats) (2 * rs.length * c.arg 0x24 4 * c.arg 0x28 2 / 2 ^ 20)
    (rewriteHalf s od (rs.map (fun r => (headRow od r.1.1 r.1.2, r.2.o))) ++
     rewriteHalf s md (rs.map (fun r => (headRow md r.1.1 r.1.2, [r.2.m, r.2.l]))) ++
     [.guard { reservedDelta 0 (attnReserved s c x) with sat := sats }])

/-- What the backward pass has for one row before its sums: p, ds, D and lse. -/
structure BwdRow where
  p : List Word
  ds : List Word
  d : Word
  lse : Word
  deriving DecidableEq, Repr

/-- p, D and ds of one row and head (R303). -/
def backwardRow (s : State) (c : Cmd) (x : AttnIn) (dO : Tensor) (h i : Nat) : BwdRow :=
  let md := readDesc s (c.arg 0x18 2)
  let fd := readDesc s (c.arg 0x32 2)
  let dh := c.arg 0x28 2
  let row := attnRow s c 0x2C h i
  let lse := fpAt s.mem md (headRow md h i) 0
  let dd := if c.akind 1 then
      laneSum ((List.range dh).map (fun d => fmul (dO.wide s.mem row d) (fpAt s.mem fd (headRow fd h i) d)))
    else fpAt s.mem md (headRow md h i) 1
  let p := (scoresOf s c x h i).map (fun y => vexp (fsub y lse))
  let ds := (p.zip (List.range p.length)).map (fun e =>
    let dp := attnTotal (fun d => Num.mul (dO.elem s.mem row d) (x.v.elem s.mem (attnRow s c 0x14 h e.2) d))
      (Num.mul dO.scale x.v.scale) dh
    fmul e.1 (fsub dp dd))
  { p := p, ds := ds, d := dd, lse := lse }

/-- The rounded column of P for key `j`: blocks along the query rows (R303). -/
def roundColumn (c : Cmd) (fmt h j : Nat) (rows : List BwdRow) : List Num × Nat :=
  roundRun fmt rows.length ((rows.zip (List.range rows.length)).map (fun r => (r.1.p.getD j 0, pDraw c h r.2 j)))

/-- The backward pass of one head: dQ rows, dK and dV rows, the saturations. -/
structure BwdHead where
  dq : List (List Word)
  dk : List (List Word)
  dv : List (List Word)
  rows : List BwdRow
  sats : Nat
  deriving DecidableEq, Repr

/-- The sums of the backward pass over one head. -/
def backwardHead (s : State) (c : Cmd) (x : AttnIn) (dO : Tensor) (h : Nat) : BwdHead :=
  let dh := c.arg 0x28 2
  let nk := c.arg 0x24 4
  let od := readDesc s (c.arg 0x16 2)
  let rows := (List.range (c.arg 0x20 4)).map (backwardRow s c x dO h)
  let cols := (List.range nk).map (fun j => roundColumn c x.v.fmt h j rows)
  { dq := (rows.zip (List.range rows.length)).map (fun r => (List.range dh).map (fun d =>
      let old : Word := if c.akind 1 then 0 else fpAt s.mem od (headRow od h r.2) d
      fadd old (fmul (c.word 0x1C) (laneSum ((r.1.ds.zip (List.range nk)).map (fun e => fmul e.1 (x.k.wide s.mem (attnRow s c 0x12 h e.2) d)))))))
    dk := (List.range nk).map (fun j => (List.range dh).map (fun d =>
      fmul (c.word 0x1C) (laneSum ((rows.zip (List.range rows.length)).map (fun r =>
        fmul (r.1.ds.getD j 0) (x.q.wide s.mem (attnRow s c 0x10 h r.2) d))))))
    dv := (cols.map (fun col => (List.range dh).map (fun d =>
      attnTotal (fun i => Num.mul (col.1.getD i (.fin false 0 0)) (dO.elem s.mem (attnRow s c 0x2C h i) d))
        (Num.mul (pScale x.v.fmt) dO.scale) rows.length)))
    rows := rows, sats := (cols.map (fun col => col.2)).sum }

/-- The backward pass: dQ added, dK then dV overwritten, D written where first is set. -/
def attnBackward (s : State) (c : Cmd) (x : AttnIn) (dO : Tensor) : Result :=
  let od := readDesc s (c.arg 0x16 2)
  let md := readDesc s (c.arg 0x18 2)
  let kd := readDesc s (c.arg 0x12 2)
  let vd := readDesc s (c.arg 0x14 2)
  let g := readDesc s (c.arg 0x2E 2)
  let heads := (List.range (headsOf (readDesc s (c.arg 0x10 2)))).map (fun h => (h, backwardHead s c x dO h))
  let sats := (heads.map (fun e => e.2.sats)).sum
  let rowsOf {α : Type} (f : BwdHead → List α) : List ((Nat × Nat) × α) :=
    heads.flatMap (fun e => ((f e.2).zip (List.range (f e.2).length)).map (fun r => ((e.1, r.2), r.1)))
  notedResult (satNote sats) (5 * (attnRows s c).length * c.arg 0x24 4 * c.arg 0x28 2 / 2 ^ 20)
    (rewriteHalf s od ((rowsOf (·.dq)).map (fun r => (headRow od r.1.1 r.1.2, r.2))) ++
     (if c.akind 1 then rewriteHalf s md ((rowsOf (·.rows)).map (fun r => (headRow md r.1.1 r.1.2, [r.2.lse, r.2.d]))) else []) ++
     (rowsOf (·.dk)).map (fun r => Effect.write (g.home + 4 * (headRow kd r.1.1 r.1.2 * kd.p0)) (r.2.flatMap (fun w => toLe 4 w.toNat))) ++
     (rowsOf (·.dv)).map (fun r => Effect.write (g.home + 4 * (kd.elems + headRow vd r.1.1 r.1.2 * vd.p0)) (r.2.flatMap (fun w => toLe 4 w.toNat))) ++
     [.guard { reservedDelta 0 (attnReserved s c x) with sat := sats }])

/-- The work of ATTN_BLOCK; no operand of it is compressed (R206). -/
def attnRun (s : State) (c : Cmd) : Run :=
  let d (off : Nat) := readDesc s (c.arg off 2)
  let load (off operand : Nat) : Loaded := loadTensor s (d off) (d off).fmt operand false (boxSegs (d off).rows (c.arg 0x28 2))
  if c.arg 0x20 4 = 0 ∨ c.arg 0x24 4 = 0 then Run.plain zeroExtent
  else
    match load 0x10 0, load 0x12 1, load 0x14 1 with
    | .ok q, .ok k, .ok v =>
      if c.akind 0 then
        match load 0x2C 0 with
        | .ok g => Run.plain (attnBackward s c { q := q, k := k, v := v, dO := some g } g)
        | .error e => Run.fail e
      else Run.plain (attnForward s c { q := q, k := k, v := v, dO := none })
    | .error e, _, _ => Run.fail e
    | _, .error e, _ => Run.fail e
    | _, _, .error e => Run.fail e

/-- Where a dispatched ATTN_BLOCK writes (R48). -/
def attnTargets (s : State) (c : Cmd) : List (Nat × Nat) :=
  let od := readDesc s (c.arg 0x16 2)
  let md := readDesc s (c.arg 0x18 2)
  let kd := readDesc s (c.arg 0x12 2)
  let vd := readDesc s (c.arg 0x14 2)
  let g := readDesc s (c.arg 0x2E 2)
  let dh := c.arg 0x28 2
  let rows (d : Desc) (base : Nat) : List (Nat × Nat) :=
    (List.range (headsOf (readDesc s (c.arg 0x10 2)))).flatMap (fun h => (List.range (c.arg 0x24 4)).map (fun j =>
      (base + 4 * (headRow d h j * d.p0), 4 * dh)))
  if c.arg 0x20 4 = 0 ∨ c.arg 0x24 4 = 0 then []
  else if c.akind 0 then
    [(od.partner, od.bytes)] ++ (if c.akind 1 then [(md.partner, md.bytes)] else []) ++ rows kd g.home ++
    rows vd (g.home + 4 * kd.elems)
  else [(od.partner, od.bytes), (md.partner, md.bytes)]

/-- ATTN_BLOCK (R303). -/
def execAttnBlock (cid : Nat) (s : State) : Ans := .next (onRun s cid [0x0107] attnIssue attnRun)

end Sys2Proof.Machine
end

