-- ==== Sys2Proof/Machine/Background.lean ====
section
/-! DEFINITION. The background services besides the scrub of the memory (R403). -/

namespace Sys2Proof.Machine

/-- A Mere that holds no running and no waiting command. -/
def idleMere (s : State) (p : Nat) : Bool := (getMere s p).running == none && (getMere s p).waiting.isEmpty

/-- Whether the scrub reaches its target: a die that is up; an idle Mere of a die that is up, its domain on. -/
def scrubReaches (s : State) : ScrubTarget → Bool
  | .longLived d => dieState s d == 1
  | .mere p _ => idleMere s p && dieState s (mereDie p) == 1 && s.power.domains.contains (domainOf (clusterOf p))

/-- The site of an uncorrectable word that the scrub finds: a long-lived SRAM, or a Mere's Tarn or scratchpad. -/
def scrubSite (s : State) : ScrubTarget → ErrorSite
  | .longLived d => .die d 7 (Config.freePick s.freeCtr % 2 ^ 32)
  | .mere p tarn => .mere p (if tarn then 2 else 1)

/-- SRAM_SCRUB (R403, R80): a corrected word counts; one that cannot be corrected is a contained error. -/
def sramScrub (s : State) (t : ScrubTarget) (o : ScrubOutcome) : State :=
  if scrubReaches s t then
    match o with
    | .corrected => { s with rel := { s.rel with rsramcor := satAdd 32 s.rel.rsramcor 1 } }
    | .uncorrectable => containError (countSramUnc (tickFree s) (scrubSite s t)) (scrubSite s t)
    | .clean => s
    | .retried => s
  else s

/-- Whether the target is a unit of the module. -/
def targetOk : ScrubTarget → Bool
  | .longLived d => decide (d < 6)
  | .mere p _ => decide (p < 272)

/-- SRAM_SCRUB. -/
def execSramScrub (target : ScrubTarget) (outcome : ScrubOutcome) (s : State) : Ans :=
  onUnit (targetOk target) "scrub target" 0 (capSync s (sramScrub s target outcome))

/-- SENSOR_CALIBRATION (R403): the sensor is checked against its die's reference diode. The check writes no register: the
readings that arrive are calibrated ones. -/
def execSensorCalibration (sensor : Nat) (_offset : Int) (s : State) : Ans := onUnit (decide (sensor < 152)) "sensor" sensor s

/-- MONITOR_RECALIBRATION (R403): it takes 20 µs of a cluster with no running command, and changes no register. -/
def execMonitorRecalibration (cluster : Nat) (s : State) : Ans := onUnit (decide (cluster < 68)) "cluster" cluster s

/-- Rail headroom of a cluster below 0.90 V in mV (R415). -/
def headroom (v : Cluster) : Nat := 900 - v.railMv

/-- RAGE (R415): the cluster with the least rail headroom, the lowest number among equals. -/
def rageWord (s : State) : Word :=
  let best := (List.range 68).foldl (fun b c =>
    if headroom (getCluster s c) < headroom (getCluster s b) then c else b) 0
  BitVec.ofNat 32 (best * 2 ^ 24 + headroom (getCluster s best))

/-- AGEING_MEASUREMENT (R403, R388): `drift` is the millivolts by which the oscillators ask the rail offset to rise. -/
def execAgeingMeasurement (cluster drift : Nat) (s : State) : Ans :=
  let v := getCluster s cluster
  let off := min 250 (v.railOffset + drift)
  let s1 := setCluster s cluster { v with railOffset := off, railMv := min 900 (max v.railMv (650 + off)) }
  onUnit (decide (cluster < 68)) "cluster" cluster
    (if clusterOn s cluster then { s1 with rel := { s1.rel with rage := rageWord s1 } } else s)

/-- TELEMETRY_GATHER (R403): every counter is copied into the firmware area, which only the firmware reads (R230). -/
def execTelemetryGather (s : State) : Ans := .next s

end Sys2Proof.Machine
end

