-- ==== Sys2Proof/Machine/Compress.lean ====
section
/-! DEFINITION. COMPRESS (R216-R220), DECOMPRESS (R226) and the decoding of one block with its re-fetch (R222, R223). -/

namespace Sys2Proof.Machine

/-- Packet checks of COMPRESS (R216, R217, R206). -/
def compressPacket (s : State) (c : Cmd) : Option Err :=
  let coding := c.arg 0x14 1
  let mode := c.arg 0x15 1
  firstErr [
    descCheck s (c.arg 0x10 2) 0x10 false, plainCheck s (c.arg 0x10 2) 0x10,
    descCheck s (c.arg 0x12 2) 0x12 false, zipDescCheck s (c.arg 0x12 2) 0x12,
    need (decide (1 ≤ coding ∧ coding ≤ 2)) (badParam 0x14 2), need (decide (mode ≤ 1)) (badParam 0x15 2),
    need (decide (c.arg 0x16 1 ≤ 64)) (badParam 0x16 2), zeroBits c 0x17 0xFE,
    need (!(coding == 1 && bit (c.arg 0x17 1) 0)) (badParam 0x17 2),
    need (decide (c.arg 0x18 4 ≤ (if mode = 1 then 2 ^ 24 else 0))) (badParam 0x18 2),
    zeroField c 0x1C 4, zeroField c 0x28 24]

/-- Units per block; 0 selects 64 (R216). -/
def budgetOf (c : Cmd) : Nat := if c.arg 0x16 1 = 0 then 64 else c.arg 0x16 1

/-- Entropy tables of a COMPRESS (R214, R216). -/
def tablesOf (c : Cmd) (fmt : Nat) : Nat := if c.arg 0x14 1 = 1 then 0 else if bit (c.arg 0x17 1) 0 then 1 else zipWidth fmt

/-- Whether two descriptors have one format and one plan (R217, R226). -/
def samePlan (a b : Desc) : Bool := a.fmt == b.fmt && a.dims == b.dims && a.plan.take a.dims == b.plan.take b.dims

/-- Checks of COMPRESS at issue (R217, R64, R231). -/
def compressIssue (s : State) (c : Cmd) : Option Err :=
  let a := readDesc s (c.arg 0x10 2)
  let b := readDesc s (c.arg 0x12 2)
  let blocks := zipBlocks a.rawBytes
  let zmeta := zipMetaBytes (tablesOf c a.fmt) blocks
  let src := a.ranges s
  firstErr [
    need (!a.compressed && decide (a.bytes ≤ a.half) && a.placed s) (badParam 0x10 3),
    need (b.compressed && samePlan a b) (badParam 0x12 3),
    need (decide (zipDataBytes (c.arg 0x15 1) (budgetOf c) blocks (c.arg 0x18 4) ≤ b.half)) (badParam 0x12 3),
    need (s.mem.mappedRange b.base b.half && s.mem.mappedRange b.cmeta zmeta &&
      (match windowOf b.base with
        | some w => if b.dieLocal then w != 0 else w == 0
        | none => false)) (badParam 0x12 3),
    need (decide (zmeta ≤ c.arg 0x20 8)) (badParam 0x20 2),
    need (!overlaps src [(b.base, b.half), (b.cmeta, zmeta)] && !overlap (b.base, b.half) (b.cmeta, zmeta)) (badParam 0x12 4)]

/-- The raw bytes of a tensor, padded to a multiple of 64 (R207). -/
def rawOf (s : State) (d : Desc) : Bytes := s.mem.readN d.home d.bytes ++ List.replicate (d.rawBytes - d.bytes) 0

/-- The encoded form of a COMPRESS's source under its parameters (R208-R218). -/
def compressZip (s : State) (c : Cmd) : ZipResult :=
  let a := readDesc s (c.arg 0x10 2)
  zipTensor a.fmt (c.arg 0x14 1) (c.arg 0x15 1) (budgetOf c) (b2n (bit (c.arg 0x17 1) 0)) (c.arg 0x18 4) (rawOf s a)

/-- Spill slots wanted beyond those given (R219). -/
def spillShort (s : State) (c : Cmd) : Nat := if c.arg 0x15 1 = 1 then (compressZip s c).escapes - c.arg 0x18 4 else 0

/-- The work of COMPRESS (R217-R219). -/
def compressRun (s : State) (c : Cmd) : Run :=
  let a := readDesc s (c.arg 0x10 2)
  let b := readDesc s (c.arg 0x12 2)
  let z := compressZip s c
  if a.rawBytes = 0 then Run.plain { zeroExtent with effects := [.write b.cmeta (z.metadata.take 64)] }
  else if 0 < spillShort s c then Run.fail (capacityShort 2 (gib (spillShort s c * 4096)))
  else
    Run.plain (succeeded (kib a.rawBytes)
      (.forget b.base (zipDataBytes (c.arg 0x15 1) (budgetOf c) (zipBlocks a.rawBytes) (c.arg 0x18 4)) ::
        z.runs.map (fun r => Effect.write (b.base + r.1) r.2) ++ [.write b.cmeta z.metadata,
        .zcount (homeDie b.base) z.escapes (if c.arg 0x15 1 = 1 then z.escapes else 0)]))

/-- Where a dispatched COMPRESS writes: the data area and the metadata (R48, R218). -/
def compressTargets (s : State) (c : Cmd) : List (Nat × Nat) :=
  let a := readDesc s (c.arg 0x10 2)
  let b := readDesc s (c.arg 0x12 2)
  if a.rawBytes = 0 then [(b.cmeta, 64)]
  else [(b.base, zipDataBytes (c.arg 0x15 1) (budgetOf c) (zipBlocks a.rawBytes) (c.arg 0x18 4)),
        (b.cmeta, zipMetaBytes (tablesOf c a.fmt) (zipBlocks a.rawBytes))]

/-- The counts of a pass that ends short of spill slots: the encoder has finished it, its escapes and the slots that it filled
count (R218, R219). -/
def countShort (s : State) (c : Cmd) : State :=
  let v := ownView s c.cid
  if 0 < spillShort v c ∧ compressIssue v c = none then
    countEscapes s (homeDie (readDesc v (c.arg 0x12 2)).base) (compressZip v c).escapes (c.arg 0x18 4)
  else s

/-- COMPRESS (R218). -/
def execCompress (cid : Nat) (s : State) : Ans :=
  .next (onRun (match working s cid [0x0204] with
    | some c => countShort s c
    | none => s) cid [0x0204] compressIssue compressRun)

/-- Packet checks of DECOMPRESS (R226). -/
def decompressPacket (s : State) (c : Cmd) : Option Err :=
  firstErr [descCheck s (c.arg 0x10 2) 0x10 false, zipDescCheck s (c.arg 0x10 2) 0x10,
    descCheck s (c.arg 0x12 2) 0x12 false, plainCheck s (c.arg 0x12 2) 0x12, zeroBytes c 0x14 44]

/-- Checks of DECOMPRESS at issue (R226, R231, R42). -/
def decompressIssue (s : State) (c : Cmd) : Option Err :=
  let a := readDesc s (c.arg 0x10 2)
  let b := readDesc s (c.arg 0x12 2)
  firstErr [need (a.compressed && a.placed s) (badParam 0x10 3),
    need (!b.compressed && samePlan a b && decide (a.rawBytes ≤ b.half)) (badParam 0x12 3), need (b.placed s) (badParam 0x12 3),
    need (!overlaps (a.ranges s) (b.ranges s)) (badParam 0x12 4)]

/-- The work of DECOMPRESS: all raw bytes, padding included, into half cur, on the die that holds the destination. -/
def decompressRun (s : State) (c : Cmd) : Run :=
  let a := readDesc s (c.arg 0x10 2)
  let b := readDesc s (c.arg 0x12 2)
  Run.reading
    (match zipDecode s a (fun _ => true) with
      | .error e => Run.fail (streamDamaged e.cause e.block)
      | .ok raw => Run.plain (succeeded (kib a.rawBytes) [.write b.home raw]))
    s [{ die := homeDie b.base, desc := a, ranges := [(0, a.rawBytes)] }]

/-- Where a dispatched DECOMPRESS writes (R48). -/
def decompressTargets (s : State) (c : Cmd) : List (Nat × Nat) :=
  [((readDesc s (c.arg 0x12 2)).home, (readDesc s (c.arg 0x10 2)).rawBytes)]

/-- DECOMPRESS (R226). -/
def execDecompress (cid : Nat) (s : State) : Ans := .next (onRun s cid [0x0205] decompressIssue decompressRun)

/-! ## The check of one block (R222, R223) -/

/-- PIPE_SEND and PIPE_RECV, which check only the header and the CRCs (R223). -/
def crcOnly (c : Cmd) : Bool := c.opcode == 0x0206 || c.opcode == 0x0207

/-- The check of block `i`, or of the header: the cause of a failure (R222). -/
def blockCause (s : State) (d : Desc) (crc : Bool) (i : Option Nat) : Option Nat :=
  if !zipHeaderGood s d then some 2
  else match i with
    | none => none
    | some i =>
      if crc then (if zipBlockCrc s d i then none else some 1)
      else match zipBlockOf s d i with
        | .good _ _ => none
        | .bad cause => some cause

/-- The first failure among the header and every block by the checks of PIPE_SEND and PIPE_RECV: block, none for the header,
and cause. -/
def crcDamage (s : State) (d : Desc) : Option (Option Nat × Nat) :=
  if !zipHeaderGood s d then some (none, 2)
  else ((List.range (zipBlocks d.rawBytes)).find? (fun i => !zipBlockCrc s d i)).map (fun i => (some i, 1))

/-- The die whose decoders serve a command. -/
def decodeDie (s : State) (c : Cmd) : Nat :=
  if c.opcode = 0x0205 then homeDie (readDesc s (c.arg 0x12 2)).base
  else if crcOnly c then homeDie (readDesc s (c.arg 0x10 2)).base
  else c.die

/-- The descriptors that a command reads through the decoders (R206). -/
def decodedBy (s : State) (c : Cmd) : List Nat :=
  if 0x0101 ≤ c.opcode ∧ c.opcode ≤ 0x0104 then
    [c.arg 0x10 2, c.arg 0x12 2] ++ (if c.opcode = 0x0102 then [c.xarg 0xC0 2, c.xarg 0xD0 2, c.xarg 0xD2 2] else []) ++
    firstNamed (if c.opcode = 0x0102 then 0 else c.arg 0x16 2)
      (program s (c.arg 0x2E 2) ++ (if c.opcode = 0x0102 then program s (c.xarg 0xC6 2) else []))
  else if c.opcode = 0x0105 then c.arg 0x10 2 :: firstNamed 0 (program s (c.arg 0x14 2))
  else if c.opcode = 0x0106 ∨ c.opcode = 0x0205 ∨ c.opcode = 0x0206 then [c.arg 0x10 2]
  else []

/-- The state as the first fetch of a block reads it: some bytes otherwise than device memory holds them. -/
def firstFetch (s : State) (seen : List (Nat × Byte)) : State :=
  { s with mem := seen.foldl (fun m p => m.write p.1 [p.2]) s.mem }

/-- A block that passed at its re-fetch: ZRETRY counts it, note bit 4 tells it (R223). -/
def retryGood (s : State) (c : Cmd) (desc : Nat) (block : Option Nat) : State :=
  let die := decodeDie s c
  let z := getZip s die
  putCmd (setZip s die { z with zretry := satAdd 32 z.zretry 1 })
    { c with notes := c.notes ||| 0x10, refetched := (desc, block) :: c.refetched }

/-- A block of descriptor `desc` checked as its first fetch reads it, and where it fails fetched once more, with its entries,
from device memory (R222, R223). A block has one re-fetch in a command. -/
def checkBlock (s : State) (c : Cmd) (desc : Nat) (block : Option Nat) (seen : List (Nat × Byte)) : State :=
  let d := readDesc s desc
  match blockCause (firstFetch s seen) d (crcOnly c) block with
  | none => s
  | some first =>
    let again := if c.refetched.contains (desc, block) then some first else blockCause s d (crcOnly c) block
    match again with
    | none => retryGood s c desc block
    | some cause => complete (countDamage s (decodeDie s c)) c (streamDamaged cause (block.getD 0xFFFF)) 0

/-- A decoder checks a block, or the header, of a descriptor that a dispatched command reads (R222). `seen` are the bytes that
the first fetch read otherwise than device memory holds them. A failed block is fetched once more with its entries: it
passes with note bit 4 and counts in ZRETRY, or the command fails (R223). -/
def execCompressedBlockDecode (cid desc : Nat) (block : Option Nat) (seen : List (Nat × Byte)) (s : State) : Ans :=
  .next (match findCmd s cid with
    | none => s
    | some c =>
      if c.stage == .dispatched && (readDesc s desc).compressed && (decodedBy s c).contains desc && decide (1 ≤ desc ∧ desc ≤ s.job.descCount) then
        checkBlock s c desc block seen
      else s)

end Sys2Proof.Machine
end

