-- ==== Sys2Proof/Machine/Conv.lean ====
section
/-! DEFINITION. CONV and POOL (R176-R186) and the coded feature map (R187-R189). -/

namespace Sys2Proof.Machine

/-! ## Fields and geometry -/

/-- The fields of CONV and POOL (R39, R177). -/
structure Win where
  geo : Geo
  isPool : Bool
  a : Desc
  b : Desc
  o : Desc
  fa : Nat
  fb : Nat
  fo : Nat
  m : Nat
  n : Nat
  k : Nat
  kind : Nat
  role : Nat
  fmOut : Nat
  fmIn : Nat
  full : Bool
  kw : Nat
  kh : Nat
  kd : Nat
  sd : Nat
  sw : Nat
  sh : Nat
  dw : Nat
  dh : Nat
  dd : Nat
  pl : Nat
  pr : Nat
  pt : Nat
  pb : Nat
  hs : Nat
  groups : Nat
  tin : Nat
  pkind : Nat
  outW : Nat
  outH : Nat
  deriving DecidableEq, Repr

/-- The fields of a CONV or POOL packet with its block. -/
def winOf (s : State) (c : Cmd) : Win :=
  let kind := c.xarg 0xC0 1 % 4
  { geo := geoOf c, isPool := c.opcode == 0x0104, a := readDesc s (c.arg 0x10 2), b := readDesc s (c.arg 0x12 2),
    o := readDesc s (c.arg 0x14 2), fa := c.arg 0x18 1 % 16, fb := c.arg 0x19 1 % 16, fo := c.arg 0x1A 1 % 16,
    m := c.arg 0x1C 4, n := c.arg 0x20 4, k := c.arg 0x24 4, kind := kind, role := bits (c.xarg 0xC0 1) 3 2,
    fmOut := c.xarg 0xC1 1 % 4, fmIn := bits (c.xarg 0xC1 1) 3 2, full := bit (c.xarg 0xC1 1) 5, kw := c.xarg 0xC2 2,
    kh := c.xarg 0xC4 2, kd := c.xarg 0xC6 1, sd := c.xarg 0xC7 1, sw := c.xarg 0xC8 2, sh := c.xarg 0xCA 2,
    dw := c.xarg 0xCC 1, dh := c.xarg 0xCD 1, dd := c.xarg 0xCE 1, pl := c.xarg 0xD0 2, pr := c.xarg 0xD2 2,
    pt := c.xarg 0xD4 2, pb := c.xarg 0xD6 2, hs := c.xarg 0xD8 2, groups := c.xarg 0xDA 2, tin := c.xarg 0xDC 2,
    pkind := c.xarg 0xDE 1, outW := c.xarg 0xE0 2, outH := c.xarg 0xE2 2 }

/-- A planned extent; beyond dims it reads as 1 (R178). -/
def Desc.dim (d : Desc) (i : Nat) : Nat := if i < d.dims then d.plan.getD i 0 else 1

/-- Adaptive average pooling. -/
def Win.adaptive (v : Win) : Bool := v.isPool && v.pkind == 2

/-- The descriptor of the convolution's input activation (R179). -/
def Win.x (v : Win) : Desc := if v.role = 1 then v.o else if v.role = 2 then v.b else v.a

/-- The descriptor of its output activation. -/
def Win.y (v : Win) : Desc := if v.role = 0 then v.o else v.a

/-- The weight's descriptor. -/
def Win.w (v : Win) : Desc := if v.role = 2 then v.o else v.b

/-- Packet offsets of the three descriptors. -/
def Win.xOff (v : Win) : Nat := if v.role = 1 then 0x14 else if v.role = 2 then 0x12 else 0x10

/-- Packet offset of the output activation's field. -/
def Win.yOff (v : Win) : Nat := if v.role = 0 then 0x14 else 0x10

/-- Packet offset of the weight's field. -/
def Win.wOff (v : Win) : Nat := if v.role = 2 then 0x14 else 0x12

/-- Input channels. -/
def Win.ci (v : Win) : Nat := v.x.dim 0

/-- Output channels. -/
def Win.co (v : Win) : Nat := v.y.dim 0

/-- Input width. -/
def Win.wi (v : Win) : Nat := v.x.dim 1

/-- Input height. -/
def Win.hi (v : Win) : Nat := v.x.dim 2

/-- Groups as they divide the channels: a pool runs every channel by itself (R185). -/
def Win.gs (v : Win) : Nat := if v.isPool then v.ci else v.groups

/-- Planned channels per group of the input. -/
def Win.cg (v : Win) : Nat := v.ci / max v.gs 1

/-- Planned channels per group of the output. -/
def Win.cog (v : Win) : Nat := v.co / max v.gs 1

/-- Dilated kernel extents (R178). -/
def dilated (k d : Nat) : Nat := (k - 1) * d + 1

/-- An output extent (R178), 0 where the window does not fit. -/
def outExtent (len pad e st : Nat) : Nat := if len + pad < e then 0 else (len + pad - e) / max st 1 + 1

/-- Output width. -/
def Win.wo (v : Win) : Nat := if v.adaptive then v.outW else outExtent v.wi (v.pl + v.pr) (dilated v.kw v.dw) v.sw

/-- Output height. -/
def Win.ho (v : Win) : Nat := if v.adaptive then v.outH else outExtent v.hi (v.pt + v.pb) (dilated v.kh v.dh) v.sh

/-- Output frames of a sample; adaptive pooling keeps the frames. -/
def Win.to (v : Win) : Nat := if v.adaptive then v.tin else outExtent v.tin 0 (dilated v.kd v.dd) v.sd

/-- The window of adaptive pooling along one axis: first position and length (R186). -/
def adaptWin (len out i : Nat) : Nat × Nat :=
  let a := i * len / max out 1
  (a, ceilDiv ((i + 1) * len) (max out 1) - a)

/-- The longest adaptive window along one axis. -/
def adaptMax (len out : Nat) : Nat := ((List.range out).map (fun i => (adaptWin len out i).2)).foldl max 0

/-- Taps along each axis. -/
def Win.taps (v : Win) : Nat × Nat × Nat :=
  if v.adaptive then (1, adaptMax v.hi v.outH, adaptMax v.wi v.outW) else (v.kd, v.kh, v.kw)

/-- V, the taps of a window (R178). -/
def Win.vol (v : Win) : Nat := v.taps.1 * v.taps.2.1 * v.taps.2.2

/-- Samples that the input plan holds. -/
def Win.xSamples (v : Win) : Nat := v.x.dim 3 / max v.tin 1

/-- Samples that the output plan holds. -/
def Win.ySamples (v : Win) : Nat := v.y.dim 3 / max v.to 1

/-- Depth, row and column of tap `j` (R180). -/
def Win.tap (v : Win) (j : Nat) : Nat × Nat × Nat :=
  (j / (v.taps.2.1 * v.taps.2.2), j / v.taps.2.2 % v.taps.2.1, j % v.taps.2.2)

/-- Sample, frame, row and column of a row of an activation with `t` frames of `h` rows of `w`. -/
def position (t h w p : Nat) : Nat × Nat × Nat × Nat := (p / (w * h * t), p / (w * h) % t, p / w % h, p % w)

/-- A coordinate `p * st + j * d - pad` within `len`, if it exists. -/
def coord (p st j d pad len : Nat) : Option Nat :=
  let x := p * st + j * d
  if pad ≤ x ∧ x - pad < len then some (x - pad) else none

/-- The output coordinate that reaches input coordinate `i` by tap `j`, if any (R180, role 1). -/
def backCoord (i st j d pad len : Nat) : Option Nat :=
  if i + pad < j * d then none
  else if (i + pad - j * d) % st ≠ 0 then none
  else if (i + pad - j * d) / st < len then some ((i + pad - j * d) / st) else none

/-- The input row under tap `j` of output position `p`; none in padding or outside (R180). -/
def Win.inRow (v : Win) (p j : Nat) : Option Nat :=
  let q := position v.to v.ho v.wo p
  let t := v.tap j
  if v.adaptive then
    let wh := adaptWin v.hi v.outH q.2.2.1
    let ww := adaptWin v.wi v.outW q.2.2.2
    if t.2.1 < wh.2 ∧ t.2.2 < ww.2 then
      some (((q.1 * v.tin + q.2.1) * v.hi + wh.1 + t.2.1) * v.wi + ww.1 + t.2.2)
    else none
  else
    match coord q.2.1 v.sd t.1 v.dd 0 v.tin, coord q.2.2.1 v.sh t.2.1 v.dh v.pt v.hi, coord q.2.2.2 v.sw t.2.2 v.dw v.pl v.wi with
    | some f, some h, some w => some (((q.1 * v.tin + f) * v.hi + h) * v.wi + w)
    | _, _, _ => none

/-- The output row that input position `p` feeds by tap `j`; none where the stride does not reach it (R180). -/
def Win.outRow (v : Win) (p j : Nat) : Option Nat :=
  let q := position v.tin v.hi v.wi p
  let t := v.tap j
  match backCoord q.2.1 v.sd t.1 v.dd 0 v.to, backCoord q.2.2.1 v.sh t.2.1 v.dh v.pt v.ho,
      backCoord q.2.2.2 v.sw t.2.2 v.dw v.pl v.wo with
  | some f, some h, some w => some (((q.1 * v.to + f) * v.ho + h) * v.wo + w)
  | _, _, _ => none

/-! ## Stripes and tiles (R181, R182, R185) -/

/-- Positions of one stripe line and lines of one output frame: kind 1 cuts along the length. -/
def Win.lineLen (v : Win) : Nat := if v.kind = 1 then 1 else if v.role = 1 then v.wi else v.wo

/-- Lines of one output frame. -/
def Win.lineCount (v : Win) : Nat :=
  if v.role = 1 then (if v.kind = 1 then v.wi else v.hi) else if v.kind = 1 then v.wo else v.ho

/-- Lines of a whole stripe. -/
def Win.stripe (v : Win) : Nat := if v.hs = 0 ∨ v.lineCount < v.hs then v.lineCount else v.hs

/-- Stripes of a frame. -/
def Win.stripes (v : Win) : Nat := ceilDiv v.lineCount (max v.stripe 1)

/-- Tile rows of a whole stripe. -/
def Win.stripeTiles (v : Win) : Nat := ceilDiv (v.stripe * v.lineLen) v.geo.tm

/-- Tile rows of a frame; the last stripe may be shorter. -/
def Win.frameTiles (v : Win) : Nat :=
  (v.stripes - 1) * v.stripeTiles + ceilDiv ((v.lineCount - (v.stripes - 1) * v.stripe) * v.lineLen) v.geo.tm

/-- Tile row, row within the tile and stripe of output row `m`. -/
def Win.rowAt (v : Win) (m : Nat) : Nat × Nat × Nat :=
  if v.role = 2 then (m / v.geo.tm, m % v.geo.tm, 0)
  else
    let per := v.lineLen * v.lineCount
    let f := m / per
    let i := m % per / (v.stripe * v.lineLen)
    let p := m % per - i * (v.stripe * v.lineLen)
    (f * v.frameTiles + i * v.stripeTiles + p / v.geo.tm, p % v.geo.tm, f * v.stripes + i)

/-- Columns per group of the product. -/
def Win.perGroup (v : Win) : Nat := if v.role = 0 then v.cog else v.cg

/-- The smallest power of two at or above `n`. -/
def pow2Above (n : Nat) : Nat := if n ≤ 1 then 1 else 2 ^ (Nat.log2 (n - 1) + 1)

/-- The diagonal mapping is used (R185). -/
def Win.diagonal (v : Win) : Bool := v.isPool || (decide (1 < v.groups) && v.role != 2 && decide (v.perGroup ≤ 32))

/-- The planned extent N counts by ext_n. -/
def Win.planN (v : Win) : Nat := if v.role = 2 then v.cg else v.o.p0

/-- Tile columns where ext_n is `n` (R102, R179, R185). -/
def Win.tileCols (v : Win) (n : Nat) : Nat :=
  let tn := v.geo.tn
  if v.diagonal then ceilDiv (n / max v.perGroup 1 * pow2Above v.perGroup) tn
  else if v.role = 2 then max v.groups 1 * ceilDiv (n * v.vol) tn
  else if 1 < v.groups then v.groups * ceilDiv v.perGroup tn
  else ceilDiv n tn

/-- Tile column and column within the tile of the stored column `n` of output row `m`; in role 2 the product's columns are
tap × ext_n + channel (R179). -/
def Win.colAt (v : Win) (m n : Nat) : Nat × Nat :=
  let tn := v.geo.tn
  if v.diagonal then
    let p := n / max v.perGroup 1 * pow2Above v.perGroup + n % max v.perGroup 1
    (p / tn, p % tn)
  else if v.role = 2 then
    let q := n / max v.cg 1 * v.n + n % max v.cg 1
    ((if v.groups ≤ 1 then 0 else m / max v.cog 1) * ceilDiv (v.n * v.vol) tn + q / tn, q % tn)
  else if 1 < v.groups then
    (n / max v.perGroup 1 * ceilDiv v.perGroup tn + n % max v.perGroup 1 / tn, n % max v.perGroup 1 % tn)
  else (n / tn, n % tn)

/-- The group of weights that tile column `tc` belongs to in role 2 (R185). -/
def Win.colGroup (v : Win) (tc : Nat) : Nat := if v.groups ≤ 1 then 0 else tc / max (ceilDiv (v.n * v.vol) v.geo.tn) 1

/-- Whether output row `m` has elements in tile column `tc`: in role 2 the column is one of its group (R185). -/
def Win.inGroup (v : Win) (m tc : Nat) : Bool := v.role != 2 || v.groups ≤ 1 || v.colGroup tc == m / max v.cog 1

/-- The stored output column of column `i` of tile column `tc` for output row `m`, if the extents hold it. -/
def Win.colOf (v : Win) (m tc i : Nat) : Option Nat :=
  let tn := v.geo.tn
  let w := max v.perGroup 1
  if v.diagonal then
    let p := tc * tn + i
    let n := p / pow2Above v.perGroup * w + p % pow2Above v.perGroup
    if p % pow2Above v.perGroup < w ∧ n < v.n then some n else none
  else if v.role = 2 then
    let q := (if v.groups ≤ 1 then tc else tc % max (ceilDiv (v.n * v.vol) tn) 1) * tn + i
    if q < v.n * v.vol ∧ v.inGroup m tc then some (q / max v.n 1 * v.cg + q % max v.n 1) else none
  else if 1 < v.groups then
    let per := ceilDiv v.perGroup tn
    let q := tc % max per 1 * tn + i
    if q < w ∧ tc / max per 1 * w + q < v.n then some (tc / max per 1 * w + q) else none
  else if tc * tn + i < v.n then some (tc * tn + i) else none

/-- The tile and element number of the output element at row `m` and stored column `n` (R70, R181). -/
def Win.tile (v : Win) : TileOf := fun m n =>
  ((v.rowAt m).1 * v.tileCols v.n + (v.colAt m n).1, (v.rowAt m).2.1 * v.geo.tn + (v.colAt m n).2)

/-- The die that drains a tile: every pair of stripe s goes to group s mod G (R182); role 2 follows R103. -/
def Win.dieOf (v : Win) (t : Nat) : Nat :=
  let tcs := v.tileCols v.n
  if v.role = 2 then v.geo.dieOf (v.geo.tn * tcs) t
  else
    let r := t / max tcs 1
    let f := r / max v.frameTiles 1
    let st := f * v.stripes + min (r % max v.frameTiles 1 / max v.stripeTiles 1) (v.stripes - 1)
    (v.geo.first + st % max v.geo.groups 1 * v.geo.parts) / 128

/-- Tile rows over `rows` output rows: first row and number of rows of each. -/
def Win.tileRows (v : Win) (rows : Nat) : List (Nat × Nat) :=
  if v.role = 2 then (List.range (ceilDiv rows v.geo.tm)).map (fun r => (r * v.geo.tm, min v.geo.tm (rows - r * v.geo.tm)))
  else
    let per := v.lineLen * v.lineCount
    (List.range (ceilDiv rows (max per 1))).flatMap (fun f => (List.range v.stripes).flatMap (fun i =>
      let first := f * per + i * v.stripe * v.lineLen
      let len := min v.stripe (v.lineCount - i * v.stripe) * v.lineLen
      (List.range (ceilDiv len v.geo.tm)).map (fun r => (first + r * v.geo.tm, min v.geo.tm (len - r * v.geo.tm)))))

/-- The tap writes of one buffer (R128, R129) over the command's own tile grid. A row of another group has no element in the
tile column and adds +0 (R185). -/
def Win.tapWrites (v : Win) (rows base : Nat) (val : Nat → Nat → Word) : List Effect :=
  let trs := v.tileRows rows
  let tcs := v.tileCols v.n
  let bn := v.geo.tn / 64
  ((List.range trs.length).zip trs).flatMap (fun e => (List.range tcs).flatMap (fun tc =>
    (List.range (ceilDiv e.2.2 64)).flatMap (fun i =>
      let ms := (List.range (min 64 (e.2.2 - 64 * i))).map (fun r => e.2.1 + 64 * i + r)
      match ms.find? (fun m => v.inGroup m tc) with
      | none => []
      | some m0 => (List.range v.geo.tn).filterMap (fun w => (v.colOf m0 tc w).map (fun n =>
          let xs := ms.map (fun m => if v.inGroup m tc then val m n else 0)
          Effect.write (base + (((e.1 * tcs + tc) * v.geo.q + i * bn + w / 64) * 64 + w % 64) * 8)
            (toLe 4 (laneSum xs).toNat ++ toLe 4 (laneSumSq xs).toNat))))))

/-- Bytes of a tap buffer (R129). -/
def Win.tapBytes (v : Win) (rows : Nat) : Nat := (v.tileRows rows).length * v.tileCols v.n * v.geo.q * 512

/-! ## The coded form (R187-R189) -/

/-- Bits of a code of field value `f`: 4, 6 or 8. -/
def fmBits (f : Nat) : Nat := 2 * f + 2

/-- Blocks of a row. -/
def fmRow (p0 : Nat) : Nat := ceilDiv p0 64

/-- Bytes of a slot. -/
def fmSlot (b : Nat) : Nat := 64 + 32 * b

/-- Bytes of a coded tensor (R187). -/
def fmBytes (rows p0 b : Nat) : Nat := ceilDiv (rows * fmRow p0) 4 * fmSlot b

/-- A coded block: bitmap, scale, codes in element order. -/
structure FmBlock where
  bitmap : Nat
  scale : Nat
  codes : List Nat
  deriving DecidableEq, Repr

/-- fm_block() (R188). -/
def fmBlock (b : Nat) (xs : List Num) : FmBlock :=
  if xs.any (fun x => !x.isFin) then { bitmap := 0, scale := 0xFF, codes := [] }
  else
    let a := maxMag (xs.filter (fun x => !x.isNeg))
    if a.isZero then { bitmap := 0, scale := 0, codes := [] }
    else
      let e := max (floorLog2 a - ((b : Int) - 1)) (-127)
      let cs := xs.map (fun x =>
        if x.isNeg ∨ x.isZero then 0 else min (toNatRne (Num.mul x (.fin false 1 (-e)))) (2 ^ b - 1))
      { bitmap := maskOf ((List.range cs.length).filter (fun i => cs.getD i 0 != 0)), scale := (e + 127).toNat,
        codes := cs.filter (fun x => x != 0) }

/-- The bytes of a slot of four blocks (R187). -/
def fmSlotBytes (b : Nat) (bs : List FmBlock) : Bytes :=
  bs.flatMap (fun x => toLe 8 x.bitmap) ++ bs.flatMap (fun x => toLe 1 x.scale) ++
  bs.flatMap (fun x => toLe 1 x.codes.length) ++ List.replicate 24 0 ++
  (let bb := bs.flatMap (fun x => x.codes.flatMap (fun c => putBits c b))
   packBits (32 * b) (bb ++ List.replicate (256 * b - bb.length) false))

/-- Members of a 64-bit bitmap. -/
def ones (v : Nat) : List Nat := (List.range 64).filter (fun i => bit v i)

/-- Number of `b` bits from bit position `o` of a place's bytes. -/
def bitField (byte : Nat → Nat) (o b : Nat) : Nat :=
  ((byte (o / 8) + 256 * byte (o / 8 + 1)) / 2 ^ (o % 8)) % 2 ^ b

/-- Byte `i` of the coded tensor at `base`. -/
def fmByte (m : Memory) (base i : Nat) : Nat := (m.read (base + i)).toNat

/-- Block `j` of slot `n`. -/
def fmRead (m : Memory) (base b n j : Nat) : FmBlock :=
  let at_ := base + n * fmSlot b
  let skip := ((List.range j).map (fun i => fmByte m at_ (0x24 + i))).sum
  { bitmap := leNat (m.readN (at_ + 8 * j) 8), scale := fmByte m at_ (0x20 + j),
    codes := (List.range (fmByte m at_ (0x24 + j))).map (fun i => bitField (fmByte m (at_ + 0x40)) ((skip + i) * b) b) }

/-- Whether block `j` of slot `n` is good: its count is its bitmap's population, the reserved bytes are zero (R189). -/
def fmGood (m : Memory) (base b n j : Nat) : Bool :=
  let at_ := base + n * fmSlot b
  fmByte m at_ (0x24 + j) == (ones (leNat (m.readN (at_ + 8 * j) 8))).length && allZero (m.readN (at_ + 0x28) 24)

/-- The slots that hold an element of the runs, blocks of `per` to a row. -/
def fmSlots (per : Nat) (l : List Seg) : List Nat :=
  (l.flatMap (fun g =>
    match g.row with
    | none => []
    | some r => ((List.range (ceilDiv (g.col + g.len) 64)).drop (g.col / 64)).map (fun j => (r * per + j) / 4))).eraseDups

/-- The first bad block of the slots that a command reads (R189). The second fetch reads the same bytes of device memory and
finds what the first one found. -/
def fmBad (m : Memory) (base b per : Nat) (l : List Seg) : Option Nat :=
  ((fmSlots per l).flatMap (fun n => (List.range 4).map (fun j => 4 * n + j))).find? (fun i => !fmGood m base b (i / 4) (i % 4))

/-- Element `k` of a coded block (R189). -/
def FmBlock.elem (x : FmBlock) (k : Nat) : Num :=
  if x.scale = 0xFF then .nan
  else if bit x.bitmap k then
    .fin false (x.codes.getD ((ones x.bitmap).filter (· < k)).length 0) ((x.scale : Int) - 127)
  else .fin false 0 0

/-- The conversion of element (r, i) of the coded tensor of descriptor `d` into `fmt` (R189). -/
def fmCode (m : Memory) (d : Desc) (b fmt r i : Nat) : Conv :=
  let blk := r * fmRow d.p0 + i / 64
  roundInto fmt none (f32 (toF32 ((fmRead m d.home b (blk / 4) (blk % 4)).elem (i % 64))))

/-- Element (r, i) of the coded tensor as the array takes it. -/
def fmElem (m : Memory) (d : Desc) (b fmt r i : Nat) : Num := decodeElem fmt (fmCode m d b fmt r i).code

/-- Elements of the runs whose conversion saturates, each stored element once in a command (R68, R189). -/
def fmSats (m : Memory) (d : Desc) (b fmt : Nat) (l : List Seg) : Nat :=
  (l.map (fun g =>
    match g.row with
    | none => 0
    | some r => ((List.range g.len).filter (fun i => (fmCode m d b fmt r (g.col + i)).sat)).length)).sum

/-- The code of element `k` of a coded block. -/
def FmBlock.code (x : FmBlock) (k : Nat) : Nat :=
  if bit x.bitmap k then x.codes.getD ((ones x.bitmap).filter (· < k)).length 0 else 0

/-- A block as it is written: the codes of the elements given, the committed ones of the others (DESIGN CHOICE, log 70). -/
def fmMerge (b : Nat) (old : FmBlock) (xs : Row) : FmBlock :=
  let new := fmBlock b ((xs.filterMap id).map f32)
  let cs := mergeCodes old.code xs 0 ((List.range 64).map new.code)
  { bitmap := maskOf ((List.range cs.length).filter (fun i => cs.getD i 0 != 0)), scale := new.scale,
    codes := cs.filter (fun x => x != 0) }

/-- The writes of a coded output (R188): blocks outside the rows given keep what their slot holds, and those that the plan
leaves over hold zeros. -/
def fmWrites (m : Memory) (d : Desc) (b : Nat) (vals : List Row) : List Effect :=
  let per := fmRow d.p0
  let old (i : Nat) := if i < d.rows * per then fmRead m d.home b (i / 4) (i % 4) else { bitmap := 0, scale := 0, codes := [] }
  let blockOf (i : Nat) : Option FmBlock :=
    let xs := ((vals.getD (i / max per 1) []).drop (64 * (i % max per 1))).take 64
    if xs.all (·.isNone) then none
    else if xs.all (·.isSome) ∧ d.p0 ≤ 64 * (i % max per 1) + xs.length then some (fmBlock b ((xs.filterMap id).map f32))
    else some (fmMerge b (old i) (xs ++ List.replicate (min 64 (d.p0 - 64 * (i % max per 1)) - xs.length) none))
  (List.range (ceilDiv (vals.length * per) 4)).filterMap (fun n =>
    let got := (List.range 4).map (fun j => blockOf (4 * n + j))
    if got.all (·.isNone) then none
    else some (Effect.write (d.home + n * fmSlot b) (fmSlotBytes b ((List.range 4).map (fun j =>
      (got.getD j none).getD (old (4 * n + j)))))))

/-- Positions of the reduction (R179). -/
def Win.red (v : Win) : Nat :=
  if v.role = 2 then v.k * (v.to * v.ho * v.wo) else if v.isPool then v.vol else v.k * v.vol

/-- Rows of the output within the extents (R179). -/
def Win.rowsOut (v : Win) : Nat :=
  if v.role = 2 then v.m else if v.role = 1 then v.m * (v.tin * v.hi * v.wi) else v.m * (v.to * v.ho * v.wo)

/-! ## Checks -/

/-- Check 1 of CONV and POOL, in offset order. -/
def winPacket (s : State) (c : Cmd) : Option Err :=
  let pool := c.opcode == 0x0104
  let fa := c.arg 0x18 1 % 16
  let fb := c.arg 0x19 1 % 16
  let fo := c.arg 0x1A 1 % 16
  firstErr ([
    operandField s c 0x10 false,
    if pool then need (c.arg 0x12 2 == 0) (badParam 0x12 2) else operandField s c 0x12 false,
    plainField s c 0x14 false, operandField s c 0x16 true,
    zeroBits c 0x18 0xE0, need (fmtAOk fa) (formatUnsupported 0 fa),
    if pool then need (c.arg 0x19 1 == 0) (badParam 0x19 2) else zeroBits c 0x19 0xE0,
    need (pool || fmtBOk fb) (formatUnsupported 1 fb), if pool then none else pairCheck fa fb,
    zeroBits c 0x1A 0xE0, need (fmtOutOk fo) (formatUnsupported 2 fo), srCheck fo (bit (c.arg 0x1A 1) 4) (badParam 0x1A 2),
    zeroBits c 0x1B 0xFC] ++ tailChecks s c ++ [
    need (pool || fb != 7 || c.arg 0x32 1 == 0) (badParam 0x32 2),
    need (fo != 6 || c.arg 0x33 1 != 0 || (c.isExt && c.xarg 0xC1 1 % 4 != 0)) (badParam 0x33 2), noExtCheck c])

/-- A field of the block within a range, else reason 2 (R176). -/
def inRange (c : Cmd) (off n lo hi : Nat) : Option Err :=
  need (decide (lo ≤ c.xarg off n ∧ c.xarg off n ≤ hi)) (badExt off 2)

/-- A field of the block that the opcode or kind does not use (R177). -/
def unused (c : Cmd) (off n : Nat) : Option Err := need (c.xarg off n == 0) (badExt off 1)

/-- The limits of R176 and the fields of R177, in offset order. Kinds 1 and 2 have a depth of 1 (DEDUCED, log 78: R177 asks
for at least 1, and R178 takes kd as a factor of V). -/
def winLimits (c : Cmd) (v : Win) : List (Option Err) :=
  let ad := v.adaptive
  let k (off n lo hi : Nat) := if ad then unused c off n else inRange c off n lo hi
  let pad (off kk d : Nat) :=
    if ad then unused c off 2
    else inRange c off 2 0 (if v.kind = 1 ∧ 0xD4 ≤ off then 0 else if v.isPool then min 1023 ((kk - 1) * d) else 1023)
  let one (off : Nat) (n hi : Nat) := if v.kind = 1 then k off n 1 1 else k off n 1 hi
  let deep (off : Nat) := if ad then unused c off 1 else inRange c off 1 1 (if v.kind = 3 then 4 else 1)
  [need (v.kind != 0 && !(v.isPool && v.kind == 3)) (badExt 0xC0 2), need (v.role != 3 && (!v.isPool || v.role == 0)) (badExt 0xC0 2),
   need (c.xarg 0xC0 1 / 16 == 0) (badExt 0xC0 1), need (c.xarg 0xC1 1 / 64 == 0) (badExt 0xC1 1),
   need (v.isPool || !v.full) (badExt 0xC1 1),
   need (v.fmOut == 0 || (v.fo == 1 && !bit (c.arg 0x1A 1) 4 && !bit (c.arg 0x1B 1) 0 && v.o.fmt == 1)) (badExt 0xC1 2),
   need (v.fmIn == 0 || decide (1 ≤ v.fa ∧ v.fa ≤ 4)) (formatUnsupported 0 v.fa),
   need (v.fmIn == 0 || !v.a.compressed) (badParam 0x10 3),
   k 0xC2 2 1 1024, one 0xC4 2 1024, deep 0xC6, deep 0xC7, k 0xC8 2 1 1024, one 0xCA 2 1024, k 0xCC 1 1 64, one 0xCD 1 64,
   deep 0xCE, pad 0xD0 v.kw v.dw, pad 0xD2 v.kw v.dw, pad 0xD4 v.kh v.dh, pad 0xD6 v.kh v.dh,
   if v.isPool then need (v.groups == 0) (badExt 0xDA 2)
   else need (decide (1 ≤ v.groups) && v.ci % v.groups == 0 && v.co % v.groups == 0) (badExt 0xDA 2),
   need (if v.kind = 3 then decide (max 1 (dilated v.kd v.dd) ≤ v.tin ∨ (ad ∧ 1 ≤ v.tin)) else v.tin == 1) (badExt 0xDC 2),
   if v.isPool then need (decide (v.pkind ≤ 2)) (badExt 0xDE 2) else unused c 0xDE 1,
   zeroExt c 0xDF 1, if ad then none else unused c 0xE0 2, if ad then none else unused c 0xE2 2, zeroExt c 0xE4 28,
   need (decide (1 ≤ v.wi ∧ v.wi ≤ 16384 ∧ 1 ≤ v.hi ∧ v.hi ≤ 16384) && (v.kind != 1 || v.hi == 1)) (badParam v.xOff 2)]

/-- The geometry checks of R178, R179, R181 and R182 (check 4 of R110). -/
def winGeometry (c : Cmd) (v : Win) : List (Option Err) :=
  [need (!bit (c.arg 0x18 1) 4) (badParam 0x18 2), need (v.isPool || !bit (c.arg 0x19 1) 4) (badParam 0x19 2),
   need (decide (1 ≤ v.wo ∧ 1 ≤ v.ho ∧ 1 ≤ v.to) && v.y.dim 1 == v.wo && v.y.dim 2 == v.ho && v.y.dim 3 % v.to == 0)
     (badParam v.yOff 3),
   need (v.x.dim 3 % v.tin == 0 && v.xSamples == v.ySamples) (badParam v.xOff 3),
   need (!v.isPool || v.ci == v.co) (badParam v.yOff 3),
   need (v.isPool || (v.w.dim 0 == v.cg * v.vol && v.w.rows == v.co)) (badParam v.wOff 3),
   need (v.isPool || decide (v.groups ≤ 1) || v.n == 0 || v.n == (if v.role = 0 then v.co else if v.role = 1 then v.ci else v.cg))
     (badParam 0x20 2),
   need (if v.isPool then decide (v.k ≤ 1)
     else decide (v.groups ≤ 1) || v.k == 0 || v.k == (if v.role = 0 then v.cg else if v.role = 1 then v.cog else v.ySamples))
     (badParam 0x24 2),
   need (v.isPool || v.role != 0 || v.cg % v.geo.tk == 0 || v.geo.tk % v.cg == 0) (badParam 0x28 2),
   need (v.role != 2 || ((if v.hs = 0 then v.lineCount else v.hs) * v.lineLen) % v.geo.chunk == 0) (badExt 0xD8 2)]

/-- Check 3 of R110 for CONV and POOL, in the order desc_out, desc_a, desc_b (R179). -/
def winExtents (v : Win) : List (Option Err) :=
  let wc := v.w.dim 0 / max v.vol 1
  if v.isPool then
    [extentCheck 0 v.m v.ySamples v.o.id, extentCheck 0 v.m v.xSamples v.a.id,
     extentCheck 1 v.n v.o.p0 v.o.id, extentCheck 1 v.n v.a.p0 v.a.id]
  else if v.role = 0 then
    [extentCheck 0 v.m v.ySamples v.o.id, extentCheck 0 v.m v.xSamples v.a.id,
     extentCheck 1 v.n v.co v.o.id, extentCheck 1 v.n v.w.rows v.b.id,
     extentCheck 2 v.k v.cg v.a.id, extentCheck 2 v.k wc v.b.id]
  else if v.role = 1 then
    [extentCheck 0 v.m v.xSamples v.o.id, extentCheck 0 v.m v.ySamples v.a.id,
     extentCheck 1 v.n v.ci v.o.id, extentCheck 1 v.n (wc * max v.groups 1) v.b.id,
     extentCheck 2 v.k v.cog v.a.id, extentCheck 2 v.k (v.w.rows / max v.groups 1) v.b.id]
  else
    [extentCheck 0 v.m v.w.rows v.o.id, extentCheck 0 v.m v.co v.a.id,
     extentCheck 1 v.n wc v.o.id, extentCheck 1 v.n v.cg v.b.id,
     extentCheck 2 v.k v.ySamples v.a.id, extentCheck 2 v.k v.xSamples v.b.id]

/-- Input rows that a stripe reads (R181): in role 1 the dY rows that its positions draw on. -/
def Win.stripeRows (v : Win) : Nat :=
  let n := if v.kind = 1 then 1 else v.stripe
  if v.adaptive then min v.hi (n * adaptMax v.hi v.outH)
  else if v.role = 1 then (n + dilated v.kh v.dh - 2) / max v.sh 1 + 1
  else (n - 1) * v.sh + dilated v.kh v.dh

/-- Channels of a stripe slice (R184). -/
def Win.sliceChannels (v : Win) : Nat :=
  if v.isPool then min v.geo.tn v.ci
  else if v.role = 0 then min v.geo.tk v.cg
  else if v.role = 1 then min v.geo.tk v.cog
  else min v.geo.tn v.cg

/-- The row length of the stripe-sized operand of format `f` (R184). -/
def Win.stripeLen (v : Win) (f : Nat) : Nat :=
  let wp := v.wi + v.pl + v.pr
  if isScaled f then wp * (ceilDiv v.sliceChannels (blockLen f) * blockLen f) else wp * v.sliceChannels

/-- Rows of the stripe-sized operand in a region. -/
def Win.stripeDepth (v : Win) : Nat := v.stripeRows * dilated v.kd v.dd

/-- Bytes of the A and B slices (R108, R184). In role 1 the weight, and in role 2 dY, lie with the reduction along their rows
and are sized as transposed reads, though R178 keeps the transpose bits clear (DEDUCED, log 79). -/
def Win.slices (v : Win) (ga : Bool) : Nat × Nat :=
  let g := v.geo
  if v.isPool then (sliceBytes v.stripeDepth (v.stripeLen v.fa) v.fa ga, 0)
  else if v.role = 2 then
    (opSlice g.tm g.tk v.fa true ga, sliceBytes v.stripeDepth (v.stripeLen v.fb) v.fb ga)
  else (sliceBytes v.stripeDepth (v.stripeLen v.fa) v.fa ga, opSlice g.tn g.tk v.fb (v.role == 1) ga)

/-- The cover of the stripe-sized operand (R184). -/
def Win.stripeCover (v : Win) (used : Option Bool) (f : Nat) (ga : Bool) : Cover :=
  { used := used, rows := v.stripeDepth, len := v.stripeLen f, fmt := some f, guarded := ga, double := true }

/-- The covers of reg_s, reg_p and reg_q (R109, R184). -/
def Win.covers (v : Win) (ga : Bool) : Cover × Cover × Cover :=
  let g := v.geo
  let useQ : Option Bool := if 1 < v.tileCols v.planN then some true else none
  let free : Cover := { used := none, rows := 0, len := 0, fmt := none, guarded := false, double := true }
  if v.isPool then (v.stripeCover (some true) v.fa ga, free, free)
  else if v.role = 2 then
    (opCover (some true) g.tm g.tk v.fa true ga, v.stripeCover (some true) v.fb ga, v.stripeCover useQ v.fb ga)
  else
    (v.stripeCover (some true) v.fa ga, opCover (some true) g.tn g.tk v.fb (v.role == 1) ga,
     opCover useQ g.tn g.tk v.fb (v.role == 1) ga)

/-- Resident tiles of a Tarn half over the plan (R104, R107). -/
def Win.residents (v : Win) : Nat :=
  if v.geo.loop = 2 then ceilDiv (ceilDiv (v.tileCols v.planN) 2) (max v.geo.groups 1) else 1

/-- Checks 2 to 8 of R110 for CONV and POOL. -/
def winIssue (s : State) (c : Cmd) : Option Err :=
  let v := winOf s c
  let g := v.geo
  let aux := c.arg 0x16 2
  let ga := c.arg 0x32 1 != 0
  let outTag := c.arg 0x33 1
  let drain := c.arg 0x2E 2
  let p := program s drain
  let ids := firstNamed aux p
  let st := stageFmt v.fo outTag
  let sl := v.slices ga
  let cv := v.covers ga
  let total := 2 * sl.1 + 4 * sl.2 + 2 * sliceBytes 128 64 st false + drainNeed s aux (c.arg 0x32 1) p ids +
    (if 1 < g.parts then 65536 else 0)
  firstErr ([tilingCheck c 256, zeroExtTail c 256] ++ winExtents v ++ [loopCheck g] ++ winLimits c v ++ winGeometry c v ++ [
    need (decide (v.residents * g.q ≤ 32)) (tileCapacity 0 v.residents (32 / g.q)),
    if v.isPool then need (decide (total ≤ padBytes)) (tileCapacity 1 4 0) else padCheck total sl.2,
    regionCheck c 0x10 cv.1, regionCheck c 0x20 cv.2.1, regionCheck c 0x30 cv.2.2,
    regionCheck c 0x40 (stageCover st), regionCheck c 0x50 (stageCover st),
    regionCheck c 0x60 (drainCover s aux (c.arg 0x32 1) p ids 0), regionCheck c 0x70 (drainCover s aux (c.arg 0x32 1) p ids 1),
    regionCheck c 0x80 (drainCover s aux (c.arg 0x32 1) p ids 2), regionCheck c 0x90 (combineCover g.parts),
    sizeCheck s v.a (if v.fmIn = 0 then needBytes v.a v.fa false else fmBytes v.a.rows v.a.p0 (fmBits v.fmIn)) 0x10,
    if v.isPool then none else sizeCheck s v.b (needBytes v.b v.fb false) 0x12,
    sizeCheck s v.o (if v.fmOut = 0 then needBytes v.o v.fo (outTag != 0) else fmBytes v.o.rows v.o.p0 (fmBits v.fmOut)) 0x14,
    need (!overlaps (v.o.ranges s) (v.a.ranges s ++ (if v.isPool then [] else v.b.ranges s) ++
      (if aux = 0 then [] else (readDesc s aux).ranges s) ++ programReads s drain aux)) (badParam 0x14 4),
    need (!overlaps (tapRanges s drain aux) (v.a.ranges s ++ (if v.isPool then [] else v.b.ranges s) ++ programReads s drain aux))
      (badParam 0x2E 4),
    need (!(bit (c.arg 0x1B 1) 0) || v.o.pingpong) (badParam 0x1B 5),
    programCheck s drain aux none (badParam 0x2E) v.o.rows v.o.p0 (v.tapBytes v.rowsOut), programT2 s aux (c.arg 0x32 1) p,
    rotCheck s c v.o v.fo outTag])

/-! ## The course on the Meres (R181-R183, R190) -/

/-- The runs of K positions `k0` to before `k0 + n` where one tap takes `ek` of `cg` planned channels: first column and
length in a row of weights, tap by tap (R180). -/
def tapRuns (ek cg k0 n : Nat) : List (Nat × Nat) :=
  ((List.range (ceilDiv (k0 + n) (max ek 1))).drop (k0 / max ek 1)).map (fun j =>
    let a := max k0 (j * ek)
    (j * cg + (a - j * ek), min (k0 + n) (j * ek + ek) - a))

/-- The channels of one group that K positions take: one run within a tap, all of them where the positions cross taps. -/
def tapChannels (ek k0 n : Nat) : Nat × Nat :=
  if k0 / max ek 1 = (k0 + n - 1) / max ek 1 then (k0 % max ek 1, n) else (0, ek)

/-- Stored columns of tile column `tc`. -/
def Win.colsOf (v : Win) (m tc : Nat) : List Nat := (List.range v.geo.tn).filterMap (v.colOf m tc)

/-- The channels of operand A that output columns `ns` take with the channels `ch` of a group: runs of a pixel (DESIGN CHOICE,
log 80: the manual sizes the slice for one group). -/
def Win.inChannels (v : Win) (ns : List Nat) (ch : Nat × Nat) : List (Nat × Nat) :=
  if v.isPool then
    (match ns with
     | [] => []
     | n :: _ => [(n, ns.length)])
  else
    let per := if v.role = 0 then v.cog else v.cg
    let inn := if v.role = 0 then v.cg else v.cog
    ((List.range (max v.groups 1)).filter (fun g => ns.any (fun n => n / max per 1 == g))).map (fun g => (g * inn + ch.1, ch.2))

/-- A row of pixels from pixel `p0` of a tensor, `n` of them, each with the channel runs `chs`. -/
def pixelRow (p0 n : Nat) (chs : List (Nat × Nat)) : List Seg :=
  (List.range n).flatMap (fun x => chs.map (fun c => { row := some (p0 + x), col := c.1, len := c.2 }))

/-- Padding pixels. -/
def padRow (n : Nat) (chs : List (Nat × Nat)) : List Seg :=
  (List.range n).flatMap (fun _ => chs.map (fun c => { row := none, col := c.1, len := c.2 }))

/-- Frame of the output, first line and number of lines of stripe `st` (R181). -/
def Win.stripeAt (v : Win) (st : Nat) : Nat × Nat × Nat :=
  let i := st % max v.stripes 1
  (st / max v.stripes 1, i * v.stripe, min v.stripe (v.lineCount - i * v.stripe))

/-- Whether the halo rows of a CONV or POOL command are exchanged (R183): the bit is set and a re-fetch would read too much. -/
def haloExchange (c : Cmd) (v : Win) : Bool :=
  let e := if v.kind = 1 then dilated v.kw v.dw else dilated v.kh v.dh
  let st := if v.kind = 1 then v.sw else v.sh
  let most := if c.xarg 0xCF 1 = 0 then 64 else c.xarg 0xCF 1
  bit (c.xarg 0xC1 1) 4 && v.role != 2 && !v.adaptive && decide (most * v.stripe * st < 256 * (e - st))

/-- Whether stripe `st` takes its halo from stripe `st - 1`: of one frame, on one die (R183). -/
def Win.takesHalo (v : Win) (st : Nat) : Bool :=
  let g := max v.geo.groups 1
  decide (0 < st % max v.stripes 1) && v.geo.memberDie (st % g) 0 == v.geo.memberDie ((st - 1) % g) 0

/-- The rows of the activation that forward lines `l0` to before `l0 + n` of output frame `f` read, padded to the padded
width; the first `h` rows of each frame are halo rows (R181). -/
def Win.forwardRows (v : Win) (f l0 n h : Nat) (chs : List (Nat × Nat)) : List (Bool × List Seg) :=
  let smp := f / max v.to 1
  let fo := f % max v.to 1
  let y0 := if v.kind = 1 then 0 else l0
  let yn := if v.kind = 1 then 1 else n
  (List.range (if v.adaptive then 1 else dilated v.kd v.dd)).flatMap (fun jd =>
    let frame := smp * v.tin + fo * (if v.adaptive then 1 else v.sd) + jd
    if v.adaptive then
      let a := (adaptWin v.hi v.outH y0).1
      let z := adaptWin v.hi v.outH (y0 + yn - 1)
      (List.range (z.1 + z.2 - a)).map (fun q => (false, pixelRow ((frame * v.hi + a + q) * v.wi) v.wi chs))
    else
      (List.range ((yn - 1) * v.sh + dilated v.kh v.dh)).map (fun q =>
        let y := y0 * v.sh + q
        (decide (q < h),
         padRow v.pl chs ++
           (if v.pt ≤ y ∧ y - v.pt < v.hi then pixelRow ((frame * v.hi + (y - v.pt)) * v.wi) v.wi chs else padRow v.wi chs) ++
           padRow v.pr chs)))

/-- The dY rows that lines `l0` to before `l0 + n` of frame `f` of dX draw on (R180, R181). -/
def Win.backwardRows (v : Win) (f l0 n : Nat) (chs : List (Nat × Nat)) : List (List Seg) :=
  let smp := f / max v.tin 1
  let fi := f % max v.tin 1
  let ls := if v.kind = 1 then [0] else (List.range n).map (fun i => l0 + i)
  ((List.range v.to).filter (fun fo =>
    (List.range v.kd).any (fun jd => backCoord fi v.sd jd v.dd 0 v.to == some fo))).flatMap (fun fo =>
    ((List.range v.ho).filter (fun yo =>
      ls.any (fun l => (List.range v.kh).any (fun jh => backCoord l v.sh jh v.dh v.pt v.ho == some yo)))).map (fun yo =>
        pixelRow (((smp * v.to + fo) * v.ho + yo) * v.wo) v.wo chs))

/-- The rows that stripe `st` loads (R181, R183): operand A in roles 0 and 1 and POOL. -/
def Win.stripeLoad (c : Cmd) (v : Win) (st : Nat) (chs : List (Nat × Nat)) : List (Bool × List Seg) :=
  let a := v.stripeAt st
  let on := haloExchange c v && v.takesHalo st
  if v.role = 1 then
    let prev := v.stripeAt (st - 1)
    let old := if on then v.backwardRows prev.1 prev.2.1 prev.2.2 chs else []
    (v.backwardRows a.1 a.2.1 a.2.2 chs).map (fun r => (old.contains r, r))
  else v.forwardRows a.1 a.2.1 a.2.2 (if on ∧ v.kind ≠ 1 then dilated v.kh v.dh - v.sh else 0) chs

/-- The slice of weights for tile column `tc` over K positions `k0`, `n` of them (R180): role 1 has the reduction along the
rows. -/
def Win.weightFill (v : Win) (m tc k0 n : Nat) : Fill :=
  let ns := v.colsOf m tc
  { operand := 1
    rows := if v.role = 1 then
        (List.range n).map (fun x =>
          let j := (k0 + x) / max v.k 1
          (false, (ns.map (fun i => i / max v.cg 1)).eraseDups.flatMap (fun g =>
            match ns.filter (fun i => i / max v.cg 1 == g) with
            | [] => []
            | i :: t =>
              [{ row := some (g * v.cog + (k0 + x) % max v.k 1), col := j * v.cg + i % max v.cg 1, len := t.length + 1 }])))
      else ns.map (fun i => (false, (tapRuns v.k v.cg k0 n).map (fun r => { row := some i, col := r.1, len := r.2 }))) }

/-- The K slices of role 2 from chunk `a` to before `z`: none crosses a stripe, a chunk belonging to the stripe of its first
position (DESIGN CHOICE, log 81). Slice number, first chunk, count. -/
def Win.stripeSlices (v : Win) (a z : Nat) : List (Nat × Nat × Nat) :=
  let at_ (i : Nat) : Nat :=
    let k := i * v.geo.chunk
    let per := v.lineLen * v.lineCount
    k / max per 1 * v.stripes + k % max per 1 / max (v.stripe * v.lineLen) 1
  let per := v.geo.tk / v.geo.chunk
  let runs := (((List.range z).drop a).map at_).eraseDups.flatMap (fun st =>
    let l := ((List.range z).drop a).filter (fun i => at_ i == st)
    (List.range (ceilDiv l.length (max per 1))).map (fun i => (l.headD 0 + i * per, min per (l.length - i * per))))
  if z ≤ a then [(0, a, 0)] else (List.range runs.length).zip runs

/-- The activation rows under K positions of role 2 from `k0`: the lines of their stripe that they take, `ns` the columns. -/
def Win.sampleFill (v : Win) (m tc k0 n : Nat) : Fill :=
  let ns := v.colsOf m tc
  let chs := ((ns.map (fun i => i % max v.cg 1)).foldl min v.cg, ((ns.map (fun i => i % max v.cg 1 + 1)).foldl max 0))
  let g := if v.groups ≤ 1 then 0 else m / max v.cog 1
  let per := v.ho * v.wo
  let line (k : Nat) := if v.kind = 1 then k % max per 1 else k % max per 1 / max v.wo 1
  let last := k0 + n - 1
  { operand := 1
    rows := ((List.range (last / max per 1 + 1)).drop (k0 / max per 1)).flatMap (fun f =>
      let a := if f = k0 / max per 1 then line k0 else 0
      let z := if f = last / max per 1 then line last else v.lineCount - 1
      v.forwardRows f a (z + 1 - a) 0 [(g * v.cg + chs.1, chs.2 - chs.1)]) }

/-- A list cut into runs of `n`. -/
def runsOf (n : Nat) (l : List Nat) : List (List Nat) :=
  (List.range (ceilDiv l.length (max n 1))).map (fun i => (l.drop (i * n)).take n)

/-- The course of member `j` of group `i` in role 2: the pairs of R103 over the slices of the stripes. -/
def sampleCourse (v : Win) (i j : Nat) : List Step :=
  let g := v.geo
  let tcs := v.tileCols v.n
  let nc := ceilDiv v.red g.chunk
  let sl := v.stripeSlices (partStart j nc g.parts) (partStart (j + 1) nc g.parts)
  (pairRuns g (ceilDiv v.m g.tm) tcs i).flatMap (fun run => sl.flatMap (fun x =>
    let ks := chunkSpan g.chunk v.red x.2.1 x.2.2
    let row := run.1 * g.tm
    ((List.range run.2.length).zip run.2).map (fun q =>
      let t := 2 * q.2
      { a := some (partOf (run.1 * tcs + t) sl.length x),
        b := if t + 1 < tcs then some (partOf (run.1 * tcs + t + 1) sl.length x) else none,
        s := if q.1 = 0 then someFill x.2.2 (opFill 0 true row (min g.tm (v.m - row)) ks.1 ks.2) else none,
        p := someFill x.2.2 (v.sampleFill row t ks.1 ks.2),
        q := if t + 1 < tcs then someFill x.2.2 (v.sampleFill row (t + 1) ks.1 ks.2) else none })))

/-- The steps of one stripe (R182): its tile rows in increasing order; its input held for every pair where one slice covers
all of K. Under MKN the pairs of a tile row run as many together as a Tarn half keeps (DESIGN CHOICE, log 82). -/
def stripeCourse (c : Cmd) (v : Win) (j st : Nat) : List Step :=
  let g := v.geo
  let tcs := v.tileCols v.n
  let nc := ceilDiv v.red g.chunk
  let sl := partSlices (partStart j nc g.parts) (partStart (j + 1) nc g.parts) (g.tk / g.chunk)
  let a := v.stripeAt st
  let rows := ceilDiv (a.2.2 * v.lineLen) g.tm
  let r0 := a.1 * v.frameTiles + st % max v.stripes 1 * v.stripeTiles
  let hold := decide (v.red ≤ g.tk)
  let ek := if v.isPool then 1 else v.k
  (List.range rows).flatMap (fun r => (runsOf (if g.loop = 2 then v.residents else 1) (List.range (ceilDiv tcs 2))).flatMap (fun run =>
    sl.flatMap (fun x =>
      let ks := chunkSpan g.chunk v.red x.2.1 x.2.2
      let ch := if v.isPool then (0, 1) else tapChannels ek ks.1 ks.2
      let cols (ts : List Nat) := ts.flatMap (fun t => v.colsOf 0 t)
      let need := if hold then List.range tcs else run.flatMap (fun q => [2 * q, 2 * q + 1])
      ((List.range run.length).zip run).map (fun q =>
        let t := 2 * q.2
        let first := if hold then decide (r = 0 ∧ q.2 = 0) else decide (q.1 = 0)
        { a := some (partOf ((r0 + r) * tcs + t) sl.length x),
          b := if t + 1 < tcs then some (partOf ((r0 + r) * tcs + t + 1) sl.length x) else none,
          s := if first then someFill x.2.2 { operand := 0, rows := v.stripeLoad c st (v.inChannels (cols need) ch) } else none,
          p := if v.isPool then none else someFill x.2.2 (v.weightFill 0 t ks.1 ks.2),
          q := if v.isPool ∨ tcs ≤ t + 1 then none else someFill x.2.2 (v.weightFill 0 (t + 1) ks.1 ks.2) }))))

/-- The course of member `j` of group `i` in CONV and POOL: stripe s belongs to group s mod G (R182). -/
def winCourse (c : Cmd) (v : Win) (i j : Nat) : List Step :=
  if v.m = 0 ∨ v.n = 0 ∨ v.k = 0 then []
  else if v.role = 2 then sampleCourse v i j
  else
    let frames := v.rowsOut / max (v.lineLen * v.lineCount) 1
    ((List.range (frames * v.stripes)).filter (fun st => st % max v.geo.groups 1 == i)).flatMap (stripeCourse c v j)

/-- The runs of operand `o` that the course of any member loads. -/
def winSegs (c : Cmd) (v : Win) (o : Nat) : List Seg :=
  (List.range v.geo.groups).flatMap (fun i => (List.range v.geo.parts).flatMap (fun j =>
    (winCourse c v i j).flatMap (fun x => [x.s, x.p, x.q].flatMap (fun f =>
      match f with
      | some f => if f.operand = o then f.rows.flatMap (fun r => r.2) else []
      | none => []))))

/-- The reads of CONV and POOL. -/
def winReads (s : State) (c : Cmd) (v : Win) : List Read :=
  (if v.a.compressed ∨ (v.b.compressed ∧ !v.isPool) then
    courseReads v.geo (winCourse c v) (fun o => if o = 0 then (v.a, v.fa) else (v.b, v.fb)) else []) ++
  envReads s c.die (c.arg 0x16 2) v.rowsOut (if v.role = 2 then v.o.p0 else v.n) (program s (c.arg 0x2E 2))

/-! ## The work -/

/-- An activation or weight as the arrays take it: elements under their block scales, widened elements, the tensor factor,
reserved T2 codes read, saturations of the coded form. -/
structure WinIn where
  elem : Nat → Nat → Num
  wide : Nat → Nat → Word
  scale : Num
  reserved : Nat
  sats : Nat

/-- Operand A or B loaded, the runs `segs` of it: from its tensor, or from the coded form where `fm` is set (R189). -/
def winLoad (s : State) (d : Desc) (fmt operand fm : Nat) (expect : Bool) (segs : List Seg) : Except Err WinIn :=
  if fm = 0 then
    match loadTensor s d fmt operand expect segs with
    | .error e => .error e
    | .ok t =>
      .ok { elem := t.elem s.mem, wide := t.wide s.mem, scale := t.scale, reserved := reservedIn s.mem t segs.eraseDups, sats := 0 }
  else
    match fmBad s.mem d.home (fmBits fm) (fmRow d.p0) segs with
    | some i => .error (streamDamaged 2 i)
    | none =>
      let f (r i : Nat) := fmElem s.mem d (fmBits fm) fmt r i
      .ok { elem := f, wide := fun r i => toF32 (f r i), scale := .fin false 1 0, reserved := 0,
            sats := fmSats s.mem d (fmBits fm) fmt segs.eraseDups }

/-- POOL's operand B: ones, which nothing stores (R186). -/
def noOperand : WinIn := { elem := fun _ _ => .fin false 1 0, wide := fun _ _ => 0x3F800000#32, scale := .fin false 1 0, reserved := 0, sats := 0 }

/-- The operand value +0 of padding (R180). -/
def orZero (r : Option Nat) (f : Nat → Num) : Num :=
  match r with
  | some r => f r
  | none => .fin false 0 0

/-- The product at K position `k` of output element (m, n), by role (R179, R180). -/
def Win.prod (v : Win) (a b : Nat → Nat → Num) (m n k : Nat) : Num :=
  if v.isPool then orZero (v.inRow m k) (fun r => a r n)
  else if v.role = 0 then
    let j := k / v.k
    let ch := k % v.k
    Num.mul (orZero (v.inRow m j) (fun r => a r (n / max v.cog 1 * v.cg + ch))) (b n (j * v.cg + ch))
  else if v.role = 1 then
    let j := k / v.k
    let co := n / max v.cg 1 * v.cog + k % v.k
    Num.mul (orZero (v.outRow m j) (fun r => a r co)) (b co (j * v.cg + n % max v.cg 1))
  else
    Num.mul (a k m) (orZero (v.inRow k (n / max v.cg 1)) (fun r => b r (m / max v.cog 1 * v.cg + n % max v.cg 1)))

/-- Input positions of a window (R186). -/
def Win.window (v : Win) (m : Nat) : List Nat := (List.range v.vol).filterMap (fun j => v.inRow m j)

/-- The divisor of an average (R186). -/
def Win.divisor (v : Win) (m : Nat) : Nat := if v.full ∧ v.pkind = 1 then v.vol else (v.window m).length

/-- The total that a drain of CONV or POOL takes as v: a pooled average divides it by the count, correctly rounded (R186). -/
def Win.drained (v : Win) (m : Nat) (tot : Word) : Word :=
  if v.isPool ∧ v.pkind ≠ 0 then toF32 (Num.div (f32 tot) (Num.ofNat (v.divisor m))) else tot

/-- The value of output element (m, n) before the drain program. -/
def Win.value (v : Win) (a b : WinIn) (m n : Nat) : Word :=
  if v.isPool ∧ v.pkind = 0 then
    match (v.window m).map (fun r => a.wide r n) with
    | [] => 0
    | w :: t => t.foldl fmax w
  else
    v.drained m (elementTotal (v.prod a.elem b.elem m n) (Num.mul a.scale b.scale) v.geo.chunk v.red v.geo.parts)

/-- Whether the extents hold the output element at row `m` and stored column `n` (R112, R179). -/
def Win.holds (v : Win) (m n : Nat) : Bool :=
  decide (m < v.rowsOut) && (if v.role = 2 then decide (n < v.cg * v.vol ∧ n % max v.cg 1 < v.n) else decide (n < v.n))

/-- Columns of an output row up to the extents. -/
def Win.width (v : Win) : Nat := if v.role = 2 then v.cg * v.vol else v.n

/-- The output of CONV and POOL (R39). -/
def Win.out (c : Cmd) (v : Win) : OutOf :=
  { desc := v.o, fmt := v.fo, sr := bit (c.arg 0x1A 1) 4, add := bit (c.arg 0x1B 1) 0, tag := c.arg 0x33 1 }

/-- What CONV and POOL write: the output from the values `val`, the taps from the values `tap` before each entry. -/
def winEffects (s : State) (c : Cmd) (v : Win) (val : Nat → Nat → Word) (tap : Nat → Nat → Nat → Word) : OutRun :=
  let grid : Grid := fun r i => if v.holds r i then some (val r i) else none
  let out : OutRun :=
    if v.fmOut = 0 then runOutput s c (v.out c) v.tile v.dieOf v.rowsOut v.width grid
    else
      { effects := fmWrites s.mem v.o (fmBits v.fmOut) ((List.range v.rowsOut).map (fun r => (List.range v.width).map (grid r)))
        sats := 0 }
  { out with effects := out.effects ++
      tapEffects s (c.arg 0x16 2) (program s (c.arg 0x2E 2)) (v.tapWrites v.rowsOut) tap }

/-- The output of +0 where the reduction is empty (R114, R160). -/
def winZero (s : State) (c : Cmd) (v : Win) : List Effect :=
  if v.fmOut = 0 then (zeroOutput s c (v.out c) v.rowsOut v.width v.holds).effects
  else fmWrites s.mem v.o (fmBits v.fmOut) ((List.range v.rowsOut).map (fun r => (List.range v.width).map (fun i =>
    if v.holds r i then some 0#32 else none)))

/-- The operands of CONV and POOL. -/
def winInputs (s : State) (c : Cmd) (v : Win) : Except Err (WinIn × WinIn) := do
  let expect := isPromoted s c (c.arg 0x32 1)
  let a ← winLoad s v.a v.fa 0 v.fmIn expect (winSegs c v 0)
  let b ← if v.isPool then .ok noOperand else winLoad s v.b v.fb 1 0 expect (winSegs c v 1)
  .ok (a, b)

/-- Multiply-accumulates of the command (R44). -/
def winMacs (v : Win) : Nat :=
  if v.isPool ∧ v.pkind = 0 then 0 else v.rowsOut * (if v.role = 2 then v.n * v.vol else v.n) * v.red

/-- The saturations of coded-form elements on their way into an 8-bit operand (R68): counted in the total, under no tag
(DESIGN CHOICE, log 73). -/
def satEffect (n : Nat) : List Effect := if n = 0 then [] else [.guard { reservedDelta 0 0 with sat := n }]

/-- The work of CONV and POOL. -/
def winRun (s : State) (c : Cmd) : Run :=
  let v := winOf s c
  let aux := c.arg 0x16 2
  let p := program s (c.arg 0x2E 2)
  let cols := if v.role = 2 then v.o.p0 else v.n
  if v.m = 0 ∨ v.n = 0 ∨ (v.k = 0 ∧ (v.out c).add) then Run.plain zeroExtent
  else if v.k = 0 then Run.plain (succeeded 0 (winZero s c v))
  else
    Run.reading
      (match winInputs s c v, loadEnv s (isPromoted s c (c.arg 0x32 1)) aux v.rowsOut cols p (firstNamed aux p) with
        | .ok (a, b), .ok env =>
          let out := winEffects s c v (fun r i => runProgram s.mem env aux r i p (v.value a b r i))
            (fun e r i => runBefore s.mem env aux r i e p (v.value a b r i))
          Run.plain (notedResult (satNote (out.sats + a.sats)) (winMacs v / 2 ^ 20)
            (blurWrites (placementClash s c) out.effects ++ satEffect a.sats ++
              reservedEffect (c.arg 0x32 1) (b.reserved + envReserved s.mem env aux v.rowsOut cols p)))
        | .error e, _ => Run.fail e
        | _, .error e => Run.fail e)
      s (winReads s c v)

/-- Where a dispatched CONV or POOL writes (R48). -/
def winTargets (s : State) (c : Cmd) : List (Nat × Nat) :=
  let v := winOf s c
  if v.m = 0 ∨ v.n = 0 ∨ (v.k = 0 ∧ (v.out c).add) then []
  else writeRanges (if v.k = 0 then winZero s c v else (winEffects s c v (fun _ _ => 0) (fun _ _ _ => 0)).effects)

/-- CONV (R179): a sliding-window product in forward, input-gradient or weight-gradient role. -/
def execConv (cid : Nat) (s : State) : Ans := .next (onRun s cid [0x0103] winIssue winRun)

/-- POOL (R186): maximum, average or adaptive average over windows of the input. -/
def execPool (cid : Nat) (s : State) : Ans := .next (onRun s cid [0x0104] winIssue winRun)

end Sys2Proof.Machine
end

