-- ==== Sys2Proof/Machine/MatmulBwd.lean ====
section
/-! DEFINITION. MATMUL_BWD (R150-R161): roles, checks, units and groups, both products, adapters, rotation undone. -/

namespace Sys2Proof.Machine

/-- The fields of MATMUL_BWD (R39, R150, R151). -/
structure Bwd where
  geo : Geo
  dy : Desc
  w : Desc
  dx : Desc
  x : Desc
  dw : Desc
  up : Desc
  h : Desc
  g : Desc
  db : Desc
  fa : Nat
  fb : Nat
  tb : Bool
  fo : Nat
  fx : Nat
  tx : Bool
  fw : Nat
  fg : Nat
  fdb : Nat
  frozen : Bool
  rank : Nat
  m : Nat
  n : Nat
  k : Nat
  deriving DecidableEq, Repr

/-- The fields of a MATMUL_BWD packet. -/
def bwdOf (s : State) (c : Cmd) : Bwd :=
  { geo := geoOf c, dy := readDesc s (c.arg 0x10 2), w := readDesc s (c.arg 0x12 2), dx := readDesc s (c.arg 0x14 2),
    x := readDesc s (c.xarg 0xC0 2), dw := readDesc s (c.arg 0x16 2), up := readDesc s (c.xarg 0xD0 2),
    h := readDesc s (c.xarg 0xD2 2), g := readDesc s (c.xarg 0xD4 2), db := readDesc s (c.xarg 0xD6 2),
    fa := c.arg 0x18 1 % 16, fb := c.arg 0x19 1 % 16, tb := bit (c.arg 0x19 1) 4, fo := c.arg 0x1A 1 % 16,
    fx := c.xarg 0xC2 1 % 16, tx := bit (c.xarg 0xC2 1) 4, fw := c.xarg 0xC3 1 % 16, fg := c.xarg 0xDA 1 % 16,
    fdb := c.xarg 0xDB 1 % 16, frozen := bit (c.arg 0x1B 1) 1, rank := c.xarg 0xD8 2, m := c.arg 0x1C 4,
    n := c.arg 0x20 4, k := c.arg 0x24 4 }

/-- Whether the command has an adapter (R157). -/
def Bwd.adapter (b : Bwd) : Bool := b.up.id != 0

/-- Whether array A computes dX (R150). -/
def Bwd.hasDx (b : Bwd) : Bool := b.dx.id != 0

/-- Whether array B computes dW (R157). -/
def Bwd.hasDw (b : Bwd) : Bool := !b.frozen

/-- Formats of dW, G and dB (R152). -/
def gradFmtOk (f : Nat) : Bool := decide (f ≤ 4)

/-- A descriptor id of the extended block (R35, R205, R206). -/
def extField (s : State) (c : Cmd) (off : Nat) (optional zip : Bool) : Option Err :=
  let id := c.xarg off 2
  let d := readDesc s id
  need ((if id = 0 then optional else decide (id ≤ s.job.descCount)) && descFields s id true &&
    (id == 0 || !d.compressed || (zip && !d.pingpong && d.cmeta != 0 && d.cmeta % 64 == 0))) (badExt off 3)

/-- Reserved bits of a byte of the extended block. -/
def extBits (c : Cmd) (off mask : Nat) : Option Err := need ((c.xarg off 1 &&& mask) == 0) (badExt off 1)

/-- The checks on the fields of the extended block, made where the block has its length (R151, R152, R157, R159). -/
def bwdExtPacket (s : State) (c : Cmd) : Option Err :=
  let b := bwdOf s c
  let unrot := c.xarg 0xC5 1 % 4
  firstErr [
    extField s c 0xC0 b.frozen true, extBits c 0xC2 0xE0,
    need (b.frozen || fmtAOk b.fx) (formatUnsupported 3 b.fx), if b.frozen then none else pairCheck b.fx b.fa,
    extBits c 0xC3 0xE0, need (b.frozen || gradFmtOk b.fw) (formatUnsupported 3 b.fw),
    srCheck b.fw (bit (c.xarg 0xC3 1) 4) (badExt 0xC3 2), extBits c 0xC4 0xFE, extBits c 0xC5 0xFC,
    need (unrot != 3 && (unrot == 0 || ((!b.frozen || b.adapter) && b.dy.p0 % rotSize unrot == 0))) (badExt 0xC5 2),
    need (decide (c.xarg 0xC6 2 ≤ s.job.descCount) && descFields s (c.xarg 0xC6 2) false) (badExt 0xC6 3),
    zeroExt c 0xCC 4, extField s c 0xD0 true true, need (!b.adapter || b.frozen) (badExt 0xD0 2),
    extField s c 0xD2 (!b.adapter) true, extField s c 0xD4 (!b.adapter) false, extField s c 0xD6 (!b.adapter) false,
    need (if b.adapter then decide (1 ≤ b.rank ∧ b.rank ≤ b.geo.tk ∧ b.rank ≤ 4096) else b.rank == 0) (badExt 0xD8 2),
    if b.adapter then pairCheck b.fa b.up.fmt else none, if b.adapter then pairCheck b.h.fmt b.fa else none,
    extBits c 0xDA 0xE0, need (!b.adapter || gradFmtOk b.fg) (formatUnsupported 3 b.fg),
    srCheck b.fg (bit (c.xarg 0xDA 1) 4) (badExt 0xDA 2),
    extBits c 0xDB 0xE0, need (!b.adapter || gradFmtOk b.fdb) (formatUnsupported 3 b.fdb),
    srCheck b.fdb (bit (c.xarg 0xDB 1) 4) (badExt 0xDB 2), zeroExt c 0xE0 32]

/-- Check 1 of MATMUL_BWD, in offset order. -/
def bwdPacket (s : State) (c : Cmd) : Option Err :=
  let b := bwdOf s c
  firstErr ([
    operandField s c 0x10 false, operandField s c 0x12 false, plainField s c 0x14 true,
    need (!b.frozen || b.adapter || b.hasDx || decide (c.ext.length < 256)) (badParam 0x14 2),
    need (!b.frozen || b.dw.id == 0) (badParam 0x16 2), plainField s c 0x16 b.frozen,
    zeroBits c 0x18 0xE0, need (fmtAOk b.fa) (formatUnsupported 0 b.fa), need (!bit (c.arg 0x18 1) 4) (badParam 0x18 2),
    zeroBits c 0x19 0xE0, need (fmtBOk b.fb) (formatUnsupported 1 b.fb), pairCheck b.fa b.fb,
    zeroBits c 0x1A 0xE0, need (fmtOutOk b.fo) (formatUnsupported 2 b.fo),
    srCheck b.fo (bit (c.arg 0x1A 1) 4) (badParam 0x1A 2), zeroBits c 0x1B 0xFC] ++ tailChecks s c ++ [
    need ((b.fb != 7 && !(b.adapter && b.up.fmt == 7)) || c.arg 0x32 1 == 0) (badParam 0x32 2),
    need (!b.hasDx || b.fo != 6 || c.arg 0x33 1 != 0) (badParam 0x33 2), noExtCheck c,
    if c.isExt ∧ 256 ≤ c.ext.length then bwdExtPacket s c else none])

/-- op2() of R156. -/
def opTwo (out red fmt : Nat) (tr guarded : Bool) : Nat :=
  if tr then sliceBytes red out fmt guarded else sliceBytes out red fmt guarded

/-- Scratchpad bytes of MATMUL_BWD (R156). The terms of an adapter that is absent come from a rank of 0 and the formats that
its fields name. -/
def bwdNeed (s : State) (c : Cmd) (b : Bwd) (ids : List Nat) (p : List Entry) : Nat :=
  let g := b.geo
  let gd := c.arg 0x32 1 != 0
  let ad (x : Nat) := if b.adapter then x else 0
  2 * sliceBytes g.tm g.tn b.fa gd +
  2 * max (opTwo g.tk g.tn b.fb b.tb gd) (ad (opTwo b.rank g.tn b.up.fmt b.tb gd)) +
  2 * max (opTwo g.tk g.tm b.fx b.tx gd) (ad (opTwo b.rank g.tm b.h.fmt b.tx gd)) +
  max (sliceBytes 128 64 (stageFmt b.fo (c.arg 0x33 1)) false) (sliceBytes 128 64 b.fg false) +
  max (sliceBytes 128 64 b.fw false) (sliceBytes 128 64 b.fdb false) +
  drainNeed s 0 (c.arg 0x32 1) p ids + (if 1 < g.parts then 65536 else 0)

/-- Rows or dimension 0 of X or H along M: rows where the transpose bit is set (R152). -/
def savedM (d : Desc) (tr : Bool) : Nat := if tr then d.rows else d.p0

/-- Check 3 of R110 in the order of R152: M, N, K, then the rank. -/
def bwdExtents (b : Bwd) : List (Option Err) :=
  let on (ok : Bool) (e : Option Err) := if ok then e else none
  [extentCheck 0 b.m b.dy.rows b.dy.id, on b.hasDx (extentCheck 0 b.m b.dx.rows b.dx.id),
   on (b.x.id != 0) (extentCheck 0 b.m (savedM b.x b.tx) b.x.id),
   on b.adapter (extentCheck 0 b.m (savedM b.h b.tx) b.h.id), on b.adapter (extentCheck 0 b.m b.g.rows b.g.id),
   extentCheck 1 b.n b.dy.p0 b.dy.id, extentCheck 1 b.n (if b.tb then b.w.rows else b.w.p0) b.w.id,
   on b.hasDw (extentCheck 1 b.n b.dw.rows b.dw.id),
   on b.adapter (extentCheck 1 b.n (if b.tb then b.up.rows else b.up.p0) b.up.id),
   on b.adapter (extentCheck 1 b.n b.db.rows b.db.id),
   on b.hasDx (extentCheck 2 b.k b.dx.p0 b.dx.id), extentCheck 2 b.k (if b.tb then b.w.p0 else b.w.rows) b.w.id,
   on (b.x.id != 0) (extentCheck 2 b.k (if b.tx then b.x.p0 else b.x.rows) b.x.id),
   on b.hasDw (extentCheck 2 b.k b.dw.p0 b.dw.id),
   on b.adapter (extentCheck 3 b.rank (if b.tb then b.up.p0 else b.up.rows) b.up.id),
   on b.adapter (extentCheck 3 b.rank (if b.tx then b.h.p0 else b.h.rows) b.h.id),
   on b.adapter (extentCheck 3 b.rank b.g.p0 b.g.id), on b.adapter (extentCheck 3 b.rank b.db.p0 b.db.id)]

/-- Cover of a second-operand region: W or X, or the adapter's (R109, R151). -/
def sideCover (used : Option Bool) (out red fmt : Nat) (tr guarded : Bool) : Cover :=
  { used := used, rows := if tr then red else out, len := if tr then out else red, fmt := some fmt, guarded := guarded,
    double := true }

/-- Region words of MATMUL_BWD (check 7 of R110). -/
def bwdRegions (s : State) (c : Cmd) (b : Bwd) (ids : List Nat) (p : List Entry) : List (Option Err) :=
  let g := b.geo
  let gd := c.arg 0x32 1 != 0
  let st := stageFmt b.fo (c.arg 0x33 1)
  let ad (e : Option Err) := if b.adapter then e else none
  let useB : Option Bool := if b.hasDw ∨ b.adapter ∨ 1 < ceilDiv b.dy.p0 g.tn then some true else none
  [regionCheck c 0x10 { used := some true, rows := g.tm, len := g.tn, fmt := some b.fa, guarded := gd, double := true },
   regionCheck c 0x20 (sideCover (some true) g.tk g.tn b.fb b.tb gd),
   ad (regionCheck c 0x20 (sideCover (some true) b.rank g.tn b.up.fmt b.tb gd)),
   if b.adapter then regionCheck c 0x30 (sideCover useB b.rank g.tm b.h.fmt b.tx gd)
   else regionCheck c 0x30 { sideCover useB g.tk g.tm b.fx b.tx gd with fmt := if b.fx ≤ 7 then some b.fx else none },
   regionCheck c 0x40 (stageCover st), ad (regionCheck c 0x40 (stageCover b.fg)),
   regionCheck c 0x50 (stageCover b.fw), ad (regionCheck c 0x50 (stageCover b.fdb)),
   regionCheck c 0x60 (drainCover s 0 (c.arg 0x32 1) p ids 0), regionCheck c 0x70 (drainCover s 0 (c.arg 0x32 1) p ids 1),
   regionCheck c 0x80 (drainCover s 0 (c.arg 0x32 1) p ids 2), regionCheck c 0x90 (combineCover g.parts)]

/-- The outputs of the command in field order: the error of a bad field, the address ranges (R161). -/
def bwdOuts (s : State) (b : Bwd) : List ((Nat → Err) × List (Nat × Nat)) :=
  (if b.hasDx then [(badParam 0x14, b.dx.ranges s)] else []) ++ (if b.hasDw then [(badParam 0x16, b.dw.ranges s)] else []) ++
  (if b.adapter then [(badExt 0xD4, b.g.ranges s), (badExt 0xD6, b.db.ranges s)] else [])

/-- The overlap checks of R42 and R161: each output against the inputs `ins`, the outputs before it, `seen`, and those after
it. -/
def overlapChecks (ins : List (Nat × Nat)) : List (Nat × Nat) → List ((Nat → Err) × List (Nat × Nat)) → List (Option Err)
  | _, [] => []
  | seen, o :: t =>
    need (!overlaps o.2 ins && !overlaps o.2 seen && !t.any (fun x => overlaps o.2 x.2)) (o.1 4) ::
      overlapChecks ins (seen ++ o.2) t

/-- Units of the command (R154). -/
def Bwd.units (b : Bwd) : Nat := ceilDiv b.k b.geo.tk + (if b.adapter then 1 else 0)

/-- Bytes of a tap buffer of dX: tiles of TM × TK, numbered r × U + j (R129, R155). -/
def Bwd.tapX (b : Bwd) : Nat := ceilDiv b.m b.geo.tm * b.units * ((b.geo.tm / 64) * (b.geo.tk / 64)) * 512

/-- Bytes of a tap buffer of dW: tiles of TK × TN, numbered after those of dX (R129, R155). -/
def Bwd.tapW (b : Bwd) : Nat :=
  (ceilDiv b.m b.geo.tm * b.units + ceilDiv b.k b.geo.tk * ceilDiv b.n b.geo.tn) * ((b.geo.tk / 64) * (b.geo.tn / 64)) * 512

/-- Checks 2 to 8 of R110 for MATMUL_BWD (R156, R157, R161). -/
def bwdIssue (s : State) (c : Cmd) : Option Err :=
  let b := bwdOf s c
  let g := b.geo
  let p := program s (c.arg 0x2E 2)
  let pw := program s (c.xarg 0xC6 2)
  let both := p ++ pw
  let ids := firstNamed 0 both
  let bk := g.tk / 64
  let halfB := ceilDiv (ceilDiv b.dy.p0 g.tn) g.parts
  let total := bwdNeed s c b ids both
  let addX := bit (c.arg 0x1B 1) 0
  let addW := bit (c.xarg 0xC4 1) 0
  let ins := b.dy.ranges s ++ b.w.ranges s ++ (if b.x.id = 0 then [] else b.x.ranges s) ++
    (if b.adapter then b.up.ranges s ++ b.h.ranges s else []) ++ programReads s (c.arg 0x2E 2) 0 ++
    programReads s (c.xarg 0xC6 2) 0
  let on (ok : Bool) (e : Option Err) := if ok then e else none
  let extSize (ok : Bool) (d : Desc) (n off : Nat) :=
    on ok (need ((d.compressed || decide (n ≤ d.half)) && d.placed s) (badExt off 3))
  firstErr ([tilingCheck c 256, zeroExtTail c 256] ++ bwdExtents b ++ [
    need (g.loop == 0) (badParam 0x2A 2), need g.groupsOk (badParam 0x2B 2),
    need (g.tn % g.chunk == 0 && g.tm % g.chunk == 0) (badParam 0x28 2),
    need (decide ((g.tm / 64) * bk ≤ 32)) (tileCapacity 0 1 (32 / ((g.tm / 64) * bk))),
    need (decide (halfB * bk * (g.tn / 64) ≤ 32)) (tileCapacity 0 halfB (32 / (bk * (g.tn / 64)))),
    need (decide (total ≤ padBytes)) (tileCapacity 1 (ceilDiv total 65536) 64)] ++ bwdRegions s c b ids both ++ [
    sizeCheck s b.dy (needBytes b.dy b.fa false) 0x10, sizeCheck s b.w (needBytes b.w b.fb false) 0x12,
    on b.hasDx (sizeCheck s b.dx (needBytes b.dx b.fo (c.arg 0x33 1 != 0)) 0x14),
    on b.hasDw (sizeCheck s b.dw (needBytes b.dw b.fw false) 0x16),
    extSize (b.x.id != 0) b.x (needBytes b.x b.fx false) 0xC0, extSize b.adapter b.up b.up.bytes 0xD0,
    extSize b.adapter b.h b.h.bytes 0xD2, extSize b.adapter b.g (needBytes b.g b.fg false) 0xD4,
    extSize b.adapter b.db (needBytes b.db b.fdb false) 0xD6] ++
    overlapChecks ins [] (bwdOuts s b ++ [(badParam 0x2E, tapRanges s (c.arg 0x2E 2) 0), (badExt 0xC6, tapRanges s (c.xarg 0xC6 2) 0)]) ++ [
    on b.hasDx (need (!addX || b.dx.pingpong) (badParam 0x1B 5)),
    on b.hasDw (need (!addW || b.dw.pingpong) (badExt 0xC4 5)),
    on b.adapter (need (!addX || b.g.pingpong) (badParam 0x1B 5)),
    on b.adapter (need (!addW || b.db.pingpong) (badExt 0xC4 5)),
    need (decide (ids.length ≤ 3)) (badParam 0x2E 2),
    on b.hasDx (programCheck s (c.arg 0x2E 2) 0 none (badParam 0x2E) b.dx.rows b.dx.p0 b.tapX),
    on b.hasDw (programCheck s (c.xarg 0xC6 2) 0 none (badParam 0x2E) b.dw.rows b.dw.p0 b.tapW),
    programT2 s 0 (c.arg 0x32 1) both,
    on b.hasDx (rotCheck s c b.dx b.fo (c.arg 0x33 1))])

/-- The total over the reduction N, split by tile columns among the members (R154, R155). -/
def colsTotal (g : Geo) (n : Nat) (prod : Nat → Num) (tau : Num) : Word :=
  let tn := ceilDiv n g.tn
  let nc := ceilDiv n g.chunk
  combineTree ((List.range g.parts).map (fun i =>
    let a := min nc (g.tn / g.chunk * (i * tn / g.parts))
    let z := min nc (g.tn / g.chunk * ((i + 1) * tn / g.parts))
    (chunkTotal prod tau g.chunk n (z - a) a none).getD 0))

/-- The total over the reduction M (R154): one member, one part. -/
def rowsTotal (g : Geo) (m : Nat) (prod : Nat → Num) (tau : Num) : Word := elementTotal prod tau g.chunk m 1

/-- Tile numbering of dX and G; `j0` is the adapter unit for G (R155). -/
def dxTile (b : Bwd) (j0 : Nat) : TileOf := fun m k =>
  ((m / b.geo.tm) * b.units + j0 + k / b.geo.tk, (m % b.geo.tm) * b.geo.tk + k % b.geo.tk)

/-- Tile numbering of dW and dB, stored with N along the rows (R155). -/
def dwTile (b : Bwd) (j0 : Nat) : TileOf := fun n k =>
  (ceilDiv b.m b.geo.tm * b.units + (j0 + k / b.geo.tk) * ceilDiv b.n b.geo.tn + n / b.geo.tn,
   (k % b.geo.tk) * b.geo.tn + n % b.geo.tn)

/-- The die that drains a dX tile: that of member 0 of the unit's group (R154, R155). -/
def dxDie (b : Bwd) (t : Nat) : Nat :=
  (b.geo.first + (t % max b.units 1 % max b.geo.groups 1) * b.geo.parts) / 128

/-- The N positions of one dW or dB column, the rotation undone (R159). -/
def unrotated (c : Cmd) (n : Nat) (f : Nat → Word) : List Word :=
  byGroups (rotSize (c.xarg 0xC5 1 % 4)) (unrotateGroup (BitVec.ofNat 32 (c.xarg 0xC8 4))) ((List.range n).map f)

/-- The program of dX. -/
def bwdProgram (s : State) (c : Cmd) (b : Bwd) : List Entry := if b.hasDx then program s (c.arg 0x2E 2) else []

/-- The program of dW. -/
def bwdProgramW (s : State) (c : Cmd) (b : Bwd) : List Entry := if b.hasDw then program s (c.xarg 0xC6 2) else []

/-- The values of the outputs: dX (m, k), dW (n, k), G (m, r), dB (n, r), and what the taps of the two programs see. -/
structure BwdVals where
  dx : Nat → Nat → Word
  dw : Nat → Nat → Word
  g : Nat → Nat → Word
  db : Nat → Nat → Word
  tapX : Nat → Nat → Nat → Word
  tapW : Nat → Nat → Nat → Word

/-- Values of zero. -/
def BwdVals.zero : BwdVals :=
  { dx := fun _ _ => 0, dw := fun _ _ => 0, g := fun _ _ => 0, db := fun _ _ => 0, tapX := fun _ _ _ => 0, tapW := fun _ _ _ => 0 }

/-- One output where its reduction is over `red` positions: zeroed where that is empty, kept in add mode then (R160). -/
def bwdOutput (s : State) (c : Cmd) (o : OutOf) (tile : TileOf) (die : Nat → Nat) (red m n : Nat)
    (val : Nat → Nat → Word) : Option OutRun :=
  if m = 0 ∨ n = 0 then none
  else if red = 0 then (if o.add then none else some (zeroOutput s c o m n wholeGrid))
  else some (runOutput s c o tile die m n (gridOf m n val))

/-- What the command writes: each output that is written, the taps with theirs (R160). -/
def bwdWrites (s : State) (c : Cmd) (b : Bwd) (v : BwdVals) : List OutRun :=
  let g := b.geo
  let tk := ceilDiv b.k g.tk
  let tn := ceilDiv b.n g.tn
  let addX := bit (c.arg 0x1B 1) 0
  let addW := bit (c.xarg 0xC4 1) 0
  let tapsX := if b.hasDx ∧ b.n ≠ 0 then
      tapEffects s 0 (bwdProgram s c b) (tapGrid g.tm g.tk (fun i j => i * b.units + j) b.m b.k) v.tapX
    else []
  let tapsW := if b.hasDw ∧ b.m ≠ 0 then
      tapEffects s 0 (bwdProgramW s c b) (tapGrid g.tk g.tn (fun i j => ceilDiv b.m g.tm * b.units + i * tn + j) b.k b.n)
        (fun e k n => v.tapW e n k)
    else []
  [if b.hasDx then bwdOutput s c { desc := b.dx, fmt := b.fo, sr := bit (c.arg 0x1A 1) 4, add := addX, tag := c.arg 0x33 1 }
      (dxTile b 0) (dxDie b) b.n b.m b.k v.dx else none,
   if b.hasDw then bwdOutput s c { desc := b.dw, fmt := b.fw, sr := bit (c.xarg 0xC3 1) 4, add := addW, tag := 0 }
      (dwTile b 0) (dxDie b) b.m b.n b.k v.dw else none,
   if b.adapter then bwdOutput s c { desc := b.g, fmt := b.fg, sr := bit (c.xarg 0xDA 1) 4, add := addX, tag := 0 }
      (dxTile b tk) (dxDie b) b.n b.m b.rank v.g else none,
   if b.adapter then bwdOutput s c { desc := b.db, fmt := b.fdb, sr := bit (c.xarg 0xDB 1) 4, add := addW, tag := 0 }
      (dwTile b tk) (dxDie b) b.m b.n b.rank v.db else none,
   some { effects := tapsX ++ tapsW, sats := 0 }].filterMap id

/-- Whether the command writes any output (R160). -/
def bwdAny (c : Cmd) (b : Bwd) : Bool :=
  let addX := bit (c.arg 0x1B 1) 0
  let addW := bit (c.xarg 0xC4 1) 0
  (b.hasDx && decide (b.m ≠ 0 ∧ b.k ≠ 0) && (decide (b.n ≠ 0) || !addX)) ||
  (b.adapter && decide (b.m ≠ 0) && (decide (b.n ≠ 0) || !addX)) ||
  (b.hasDw && decide (b.n ≠ 0 ∧ b.k ≠ 0) && (decide (b.m ≠ 0) || !addW)) ||
  (b.adapter && decide (b.n ≠ 0) && (decide (b.m ≠ 0) || !addW))

/-! ## The course on the Meres (R154) -/

/-- Tile columns of member `j` (R154). -/
def Bwd.memberCols (b : Bwd) (j : Nat) : List Nat :=
  let tn := ceilDiv b.n b.geo.tn
  (List.range ((j + 1) * tn / max b.geo.parts 1)).drop (j * tn / max b.geo.parts 1)

/-- The steps of member `j` in unit `u` (R154): operands 0 dY, 1 W, 2 X, 3 U, 4 H. -/
def bwdUnit (b : Bwd) (u j : Nat) : List Step :=
  let g := b.geo
  let tm := ceilDiv b.m g.tm
  let tn := ceilDiv b.n g.tn
  let ad := decide (ceilDiv b.k g.tk ≤ u)
  let doA := ad || b.hasDx
  let doB := ad || b.hasDw
  let k0 := if ad then 0 else u * g.tk
  let kn := if ad then b.rank else min g.tk (b.k - u * g.tk)
  let cols := b.memberCols j
  if !doA && !doB then []
  else (List.range tm).flatMap (fun r =>
    let mn := min g.tm (b.m - r * g.tm)
    if cols.isEmpty then
      (if doA then [{ a := some (partOf (r * b.units + u) 1 (0, 0, 0)), b := none, s := none, p := none, q := none }] else [])
    else ((List.range cols.length).zip cols).map (fun x =>
      let nn := min g.tn (b.n - x.2 * g.tn)
      { a := if doA then some (partOf (r * b.units + u) cols.length (x.1, g.tn / g.chunk * x.2, ceilDiv nn g.chunk)) else none
        b := if doB then some (partOf (tm * b.units + u * tn + x.2) tm (r, g.tm / g.chunk * r, ceilDiv mn g.chunk)) else none
        s := some (opFill 0 false (r * g.tm) mn (x.2 * g.tn) nn)
        p := if doA then some (opFill (if ad then 3 else 1) b.tb k0 kn (x.2 * g.tn) nn) else none
        q := if doB then some (opFill (if ad then 4 else 2) b.tx k0 kn (r * g.tm) mn) else none }))

/-- The course of member `j` of group `i`: its units in increasing order (R154). -/
def bwdCourse (b : Bwd) (i j : Nat) : List Step :=
  if b.m = 0 ∨ b.n = 0 then []
  else ((List.range b.units).filter (fun u => u % max b.geo.groups 1 == i)).flatMap (fun u => bwdUnit b u j)

/-- Descriptor and format of operand `o` of the course. -/
def Bwd.operand (b : Bwd) (o : Nat) : Desc × Nat :=
  if o = 0 then (b.dy, b.fa) else if o = 1 then (b.w, b.fb) else if o = 2 then (b.x, b.fx) else if o = 3 then (b.up, b.up.fmt)
  else (b.h, b.h.fmt)

/-- The reads of MATMUL_BWD. -/
def bwdReads (s : State) (c : Cmd) (b : Bwd) : List Read :=
  (if [b.dy, b.w, b.x, b.up, b.h].any (·.compressed) then courseReads b.geo (bwdCourse b) b.operand else []) ++
  envReads s c.die 0 b.m b.k (bwdProgram s c b) ++ envReads s c.die 0 b.n b.k (bwdProgramW s c b)

/-! ## The work -/

/-- The operands as the stream engines deliver them. -/
structure BwdIn where
  dy : Tensor
  w : Tensor
  x : Tensor
  up : Tensor
  h : Tensor
  env : Env
  envW : Env
  deriving DecidableEq, Repr

/-- A tensor that is not read. -/
def noTensor : Tensor := { fmt := 0, place := .raw [], off := 0, p0 := 1, scale := .fin false 1 0 }

/-- An operand loaded where it is used. -/
def loadIf (ok : Bool) (l : Loaded) : Loaded := if ok then l else .ok noTensor

/-- The loads of MATMUL_BWD, the first failure ends the command (R145, R223). -/
def bwdLoad (s : State) (c : Cmd) (b : Bwd) (p pw : List Entry) : Except Err BwdIn := do
  let e := isPromoted s c (c.arg 0x32 1)
  let box (tr : Bool) (o i : Nat) := boxSegs (touchedRC tr o i).1 (touchedRC tr o i).2
  let dy ← loadTensor s b.dy b.fa 0 e (boxSegs b.m b.n)
  let w ← loadIf (b.hasDx && b.k != 0) (loadTensor s b.w b.fb 1 e (box b.tb b.k b.n))
  let x ← loadIf (b.hasDw && b.k != 0) (loadTensor s b.x b.fx 3 e (box b.tx b.k b.m))
  let up ← loadIf b.adapter (loadTensor s b.up b.up.fmt 3 e (box b.tb b.rank b.n))
  let h ← loadIf b.adapter (loadTensor s b.h b.h.fmt 3 e (box b.tx b.rank b.m))
  let env ← loadEnv s e 0 b.m b.k p (firstNamed 0 p)
  let envW ← loadEnv s e 0 b.n b.k pw (firstNamed 0 pw)
  .ok { dy := dy, w := w, x := x, up := up, h := h, env := env, envW := envW }

/-- The values of the outputs from the operands. -/
def bwdVals (s : State) (c : Cmd) (b : Bwd) (i : BwdIn) : BwdVals :=
  let g := b.geo
  let p := bwdProgram s c b
  let pw := bwdProgramW s c b
  let dyv (m n : Nat) := i.dy.elem s.mem m n
  let dX (m k : Nat) := colsTotal g b.n (fun n => Num.mul (dyv m n) (arrayElem s.mem i.w b.tb k n)) (Num.mul i.dy.scale i.w.scale)
  let dW (k : Nat) := unrotated c b.n (fun n =>
    rowsTotal g b.m (fun m => Num.mul (arrayElem s.mem i.x b.tx k m) (dyv m n)) (Num.mul i.x.scale i.dy.scale))
  let dB (r : Nat) := unrotated c b.n (fun n =>
    rowsTotal g b.m (fun m => Num.mul (arrayElem s.mem i.h b.tx r m) (dyv m n)) (Num.mul i.h.scale i.dy.scale))
  { dx := fun m k => runProgram s.mem i.env 0 m k p (dX m k)
    dw := fun n k => runProgram s.mem i.envW 0 n k pw ((dW k).getD n 0)
    g := fun m r =>
      colsTotal g b.n (fun n => Num.mul (dyv m n) (arrayElem s.mem i.up b.tb r n)) (Num.mul i.dy.scale i.up.scale)
    db := fun n r => fmul ((dB r).getD n 0) (BitVec.ofNat 32 (c.xarg 0xDC 4))
    tapX := fun e m k => runBefore s.mem i.env 0 m k e p (dX m k)
    tapW := fun e n k => runBefore s.mem i.envW 0 n k e pw ((dW k).getD n 0) }

/-- Reserved T2 codes that the operands deliver (R59). -/
def bwdReserved (s : State) (c : Cmd) (b : Bwd) (i : BwdIn) : Nat :=
  reservedCount s.mem i.w (touchedRC b.tb b.k b.n) + reservedCount s.mem i.up (touchedRC b.tb b.rank b.n) +
  envReserved s.mem i.env 0 b.m b.k (bwdProgram s c b) + envReserved s.mem i.envW 0 b.n b.k (bwdProgramW s c b)

/-- Multiply-accumulates of the command (R44). -/
def bwdMacs (b : Bwd) : Nat :=
  (if b.hasDx then b.m * b.n * b.k else 0) + (if b.hasDw then b.m * b.n * b.k else 0) + (if b.adapter then 2 * b.m * b.n * b.rank else 0)

/-- The work of MATMUL_BWD. -/
def bwdRun (s : State) (c : Cmd) : Run :=
  let b := bwdOf s c
  if !bwdAny c b then Run.plain zeroExtent
  else if b.m = 0 ∨ b.n = 0 then Run.plain (succeeded 0 ((bwdWrites s c b BwdVals.zero).flatMap (·.effects)))
  else
    Run.reading
      (match bwdLoad s c b (bwdProgram s c b) (bwdProgramW s c b) with
        | .error e => Run.fail e
        | .ok i =>
          let outs := bwdWrites s c b (bwdVals s c b i)
          Run.plain (notedResult (satNote (outs.map (·.sats)).sum) (bwdMacs b / 2 ^ 20)
            (blurWrites (placementClash s c) (outs.flatMap (·.effects)) ++ reservedEffect (c.arg 0x32 1) (bwdReserved s c b i))))
      s (bwdReads s c b)

/-- Where a dispatched MATMUL_BWD writes (R48). -/
def bwdTargets (s : State) (c : Cmd) : List (Nat × Nat) :=
  let b := bwdOf s c
  if bwdAny c b then writeRanges ((bwdWrites s c b BwdVals.zero).flatMap (·.effects)) else []

/-- MATMUL_BWD (R150): dX on array A and dW, or the adapter outputs, on array B from one reading of dY. -/
def execMatmulBwd (cid : Nat) (s : State) : Ans := .next (onRun s cid [0x0102] bwdIssue bwdRun)

end Sys2Proof.Machine
end

