-- ==== Sys2Proof/Machine/Vector.lean ====
section
/-! DEFINITION. VECTOR (R93, R94, R74) and STATS (R123-R130). -/

namespace Sys2Proof.Machine

/-! ## VECTOR -/

/-- Integer mode (R93). -/
def vecInt (c : Cmd) : Option Nat := if bit (c.arg 0x19 1) 0 then some (bits (c.arg 0x19 1) 3 1) else none

/-- The packet checks of VECTOR, in offset order (R35, R74, R93, R94, R69, R146). -/
def vectorPacket (s : State) (c : Cmd) : Option Err :=
  let fo := c.arg 0x18 1 % 16
  let ity := vecInt c
  let fi := (readDesc s (c.arg 0x10 2)).fmt
  firstErr [
    operandField s c 0x10 false, need (ity.isSome || decide (fi ≤ 7)) (formatUnsupported 0 fi),
    plainField s c 0x12 false, idCheck s (c.arg 0x14 2) 0x14 false,
    need (descFields s (c.arg 0x14 2) false) (badParam 0x14 3), zeroField c 0x16 2,
    zeroBits c 0x18 0xE0, need (ity.isNone || fo == 0) (badParam 0x18 2), need (decide (fo ≤ 7)) (formatUnsupported 2 fo),
    srCheck fo (bit (c.arg 0x18 1) 4) (badParam 0x18 2),
    zeroBits c 0x19 0xF0, need (decide (ity.getD 0 ≤ 4)) (badParam 0x19 2),
    zeroField c 0x1A 2, zeroField c 0x20 16, mereCheck s (c.arg 0x30 1) (c.arg 0x31 1) 0x30,
    need (ity.isSome || fi != 7 || c.arg 0x32 1 == 0) (badParam 0x32 2), noExtCheck c,
    if c.isExt then zeroExtTail c 4 else none]

/-- Bytes that a tensor takes in a VECTOR command: by its format, or by the integer type (R64, R74). -/
def vecBytes (ity : Option Nat) (d : Desc) (fmt : Nat) (guarded : Bool) : Nat :=
  match ity with
  | some ty => d.elems * intBytes ty
  | none => needBytes d fmt guarded

/-- The checks of VECTOR at issue (R91, R94, R42, R64, R146). -/
def vectorIssue (s : State) (c : Cmd) : Option Err :=
  let i := readDesc s (c.arg 0x10 2)
  let o := readDesc s (c.arg 0x12 2)
  let fo := c.arg 0x18 1 % 16
  let ity := vecInt c
  let n := c.arg 0x1C 4
  let outTag := c.arg 0x33 1
  firstErr [
    need (decide (n ≤ o.elems)) (shapeExceeds 3 o.id), need (decide (n ≤ i.elems)) (shapeExceeds 3 i.id),
    sizeCheck s i (vecBytes ity i i.fmt false) 0x10, sizeCheck s o (vecBytes ity o fo (outTag != 0)) 0x12,
    need (!overlaps (o.ranges s) (i.ranges s ++ programReads s (c.arg 0x14 2) 0)) (badParam 0x12 4),
    need (!overlaps (tapRanges s (c.arg 0x14 2) 0) (i.ranges s ++ programReads s (c.arg 0x14 2) 0)) (badParam 0x14 4),
    programCheck s (c.arg 0x14 2) 0 ity (badParam 0x2E) o.rows o.p0 0,
    if ity.isSome then none else programT2 s 0 (c.arg 0x32 1) (program s (c.arg 0x14 2)), rotCheck s c o fo outTag]

/-- The tile of VECTOR: runs of 4,096 elements of the output in storage order (R70). -/
def runTile (p0 : Nat) : TileOf := fun r i => ((r * p0 + i) / 4096, (r * p0 + i) % 4096)

/-- The logical Mere that takes run `t`. The manual does not say how runs are shared out: a free choice among the set
(log 83). -/
def runMere (c : Cmd) (t : Nat) : Nat := c.arg 0x30 1 + Config.freePick t % (c.arg 0x31 1 + 1)

/-- The die whose vector engine converts a run. -/
def runDie (c : Cmd) (t : Nat) : Nat := runMere c t / 128

/-- Rows of `count` elements in storage order, `p0` a row. -/
def storageRows {α : Type} (p0 count : Nat) (f : Nat → Nat → α) : List (List α) :=
  (List.range (ceilDiv count p0)).map (fun r => (List.range (min p0 (count - r * p0))).map (f r))

/-- Elements `a` to before `z` of a tensor in storage order. -/
def lineSegs (p0 a z : Nat) : List Seg :=
  ((List.range (ceilDiv z (max p0 1))).drop (a / max p0 1)).map (fun r =>
    { row := some r, col := a - r * p0, len := min z (r * p0 + p0) - max a (r * p0) })

/-- The bytes of an operand in integer mode, moved as stored; a compressed one is decoded (R206). -/
def loadRaw (s : State) (d : Desc) (n : Nat) : Loaded :=
  if d.compressed then
    match zipDecode s d (fun b => decide (4096 * b < n)) with
    | .error e => .error (streamDamaged e.cause e.block)
    | .ok b => .ok { fmt := 0, place := .raw b, off := 0, p0 := d.p0, scale := .fin false 1 0 }
  else .ok { fmt := 0, place := .mem d.home, off := 0, p0 := d.p0, scale := .fin false 1 0 }

/-- The operands of a program in integer mode. -/
def loadRawEnv (s : State) (ty : Nat) : List Nat → Except Err Env
  | [] => .ok []
  | id :: t =>
    match loadRaw s (readDesc s id) ((readDesc s id).elems * intBytes ty), loadRawEnv s ty t with
    | .ok x, .ok r => .ok ((id, x) :: r)
    | .error e, _ => .error e
    | _, .error e => .error e

/-- The reads of VECTOR: its input run by run, its program's operands. -/
def vectorReads (s : State) (c : Cmd) : List Read :=
  let d := readDesc s (c.arg 0x10 2)
  let o := readDesc s (c.arg 0x12 2)
  let n := c.arg 0x1C 4
  let p := program s (c.arg 0x14 2)
  (if d.compressed then
    (List.range (ceilDiv n 4096)).map (fun t =>
      { die := runDie c t, desc := d,
        ranges := match vecInt c with
          | some ty => [(4096 * t * intBytes ty, min 4096 (n - 4096 * t) * intBytes ty)]
          | none => segRanges d.fmt d.p0 (lineSegs d.p0 (4096 * t) (min n (4096 * t + 4096))) })
   else []) ++
  (match vecInt c with
   | some ty => (firstNamed 0 p).map (fun id =>
      { die := c.die, desc := readDesc s id, ranges := [(0, (readDesc s id).elems * intBytes ty)] })
   | none => envReads s c.die 0 (ceilDiv n (max o.p0 1)) (min n o.p0) p)

/-- The work field of VECTOR and STATS (R94). -/
def elemWork (n : Nat) : Nat := n / 2 ^ 20

/-- VECTOR in integer mode (R74, R94). -/
def vectorInt (s : State) (c : Cmd) (ty : Nat) : Run :=
  let o := readDesc s (c.arg 0x12 2)
  let w := intBytes ty
  let n := c.arg 0x1C 4
  let p := program s (c.arg 0x14 2)
  match loadRaw s (readDesc s (c.arg 0x10 2)) (n * w), loadRawEnv s ty (firstNamed 0 p) with
  | .ok x, .ok env =>
    let out := (List.range n).flatMap (fun i =>
      toLe w (runInt s.mem env ty (i / max o.p0 1) (i % max o.p0 1) p (x.place.num s.mem (i * w) w)))
    Run.plain (succeeded (elemWork n) (blurWrites (placementClash s c) [.write o.home out]))
  | .error e, _ => Run.fail e
  | _, .error e => Run.fail e

/-- The amax that chooses an F4 scale in VECTOR, and whether the program runs twice (R135). -/
def vectorAmax (s : State) (c : Cmd) (k : ConvSpec) (vals : List Row) : Word × Bool :=
  let v := tagView s c k.tag
  if k.tag ≠ 0 ∧ ¬ bit v.cfg.toNat 27 then (v.amax, false)
  else (toF32 (amaxOf (rowValues (rotatedRows k vals))), k.fmt == 6)

/-- The output of VECTOR (R93). -/
def vectorOut (s : State) (c : Cmd) : OutOf :=
  { desc := readDesc s (c.arg 0x12 2), fmt := c.arg 0x18 1 % 16, sr := bit (c.arg 0x18 1) 4, add := false, tag := c.arg 0x33 1 }

/-- The conversion of VECTOR's values. A block that count ends in is completed with padding elements (R94). -/
def vectorConvert (s : State) (c : Cmd) (vals : List Row) : Converted :=
  let o := vectorOut s c
  let k := convSpec s c o
  convert k (outHeader s o) (vectorAmax s c k vals).1 (runTile o.desc.p0) (fun _ _ => 0) vals

/-- What VECTOR writes. The manual lays tap entries out by the output tile grid, which VECTOR has none of: a STATS_TAP leaves
its buffer undefined (DESIGN CHOICE, log 71). -/
def vectorEffects (s : State) (c : Cmd) (v : Converted) : List Effect :=
  writesAt (vectorOut s c).desc.home v ++
  (tapIds 0 (program s (c.arg 0x14 2))).map (fun t => Effect.forget (readDesc s t).home (readDesc s t).half)

/-- VECTOR outside integer mode (R94). -/
def vectorFloat (s : State) (c : Cmd) : Run :=
  let i := readDesc s (c.arg 0x10 2)
  let o := vectorOut s c
  let n := c.arg 0x1C 4
  let p := program s (c.arg 0x14 2)
  let expect := isPromoted s c (c.arg 0x32 1)
  let p0 := o.desc.p0
  let rows := ceilDiv n (max p0 1)
  let k := convSpec s c o
  match loadTensor s i i.fmt 0 expect (lineSegs i.p0 0 n), loadEnv s expect 0 rows (min n p0) p (firstNamed 0 p) with
  | .ok x, .ok env =>
    let vals : List Row := storageRows p0 n (fun r q =>
      some (runProgram s.mem env 0 r q p (x.wide s.mem ((r * p0 + q) / max i.p0 1) ((r * p0 + q) % max i.p0 1))))
    let v := vectorConvert s c vals
    Run.plain (notedResult (satNote v.sats) (elemWork (if (vectorAmax s c k vals).2 then 2 * n else n))
      (blurWrites (placementClash s c) (vectorEffects s c v) ++ [.guard (deltaOf k (runDie c) v)] ++
        reservedEffect (c.arg 0x32 1) (reservedIn s.mem x (lineSegs i.p0 0 n) + envReserved s.mem env 0 rows (min n p0) p)))
  | .error e, _ => Run.fail e
  | _, .error e => Run.fail e

/-- The work of VECTOR. -/
def vectorRun (s : State) (c : Cmd) : Run :=
  if c.arg 0x1C 4 = 0 then Run.plain zeroExtent
  else Run.reading (match vecInt c with
    | some ty => vectorInt s c ty
    | none => vectorFloat s c) s (vectorReads s c)

/-- Where a dispatched VECTOR writes (R48). -/
def vectorTargets (s : State) (c : Cmd) : List (Nat × Nat) :=
  let n := c.arg 0x1C 4
  if n = 0 then []
  else match vecInt c with
    | some ty => [((readDesc s (c.arg 0x12 2)).home, n * intBytes ty)]
    | none => writeRanges (vectorEffects s c (vectorConvert s c (storageRows (vectorOut s c).desc.p0 n (fun _ _ => some 0))))

/-- VECTOR (R94): a drain-format program over a tensor on the vector engines. -/
def execVector (cid : Nat) (s : State) : Ans := .next (onRun s cid [0x0105] vectorIssue vectorRun)

/-! ## STATS -/

/-- Kind of STATS: 0 SUMSQ, 1 MEANVAR, 2 TAP_COMBINE. -/
def statsKind (c : Cmd) : Nat := c.arg 0x14 1 % 4

/-- The packet checks of STATS (R35, R123, R124). -/
def statsPacket (s : State) (c : Cmd) : Option Err :=
  let kind := statsKind c
  let d := readDesc s (c.arg 0x10 2)
  let o := readDesc s (c.arg 0x12 2)
  let axis := c.arg 0x15 1
  firstErr [
    operandField s c 0x10 false, plainField s c 0x12 false, zeroBits c 0x14 0xF8,
    need (kind != 3) (badParam 0x14 2), need (!(kind == 0 && bit (c.arg 0x14 1) 2)) (badParam 0x14 2),
    need (if kind = 2 then axis == 0 else decide (axis < d.dims)) (badParam 0x15 2), zeroField c 0x16 2,
    if kind = 2 then none else zeroField c 0x1C 4, if kind = 2 then none else zeroField c 0x20 2, zeroField c 0x22 14,
    mereCheck s (c.arg 0x30 1) (c.arg 0x31 1) 0x30, zeroField c 0x32 6, noExtCheck c,
    if c.isExt then zeroExtTail c 4 else none,
    need (o.fmt == 0) (formatUnsupported 2 o.fmt), need (decide (d.fmt ≤ 7)) (formatUnsupported 0 d.fmt)]

/-- Product of the planned extents below dimension `a`. -/
def lowExtent (d : Desc) (a : Nat) : Nat := (d.plan.take a).prod

/-- Groups of R125. -/
def statsGroups (d : Desc) (a : Nat) : Nat := d.elems / max (d.plan.getD a 0) 1

/-- FP32 values that STATS writes (R125, R130). -/
def statsOutputs (s : State) (c : Cmd) : Nat :=
  let d := readDesc s (c.arg 0x10 2)
  if statsKind c = 2 then 2 * c.arg 0x1C 4
  else (if statsKind c = 0 then 1 else 2) * statsGroups d (c.arg 0x15 1)

/-- The tile grid of the tapping command (R129, R130). -/
def tapGeo (c : Cmd) : Geo :=
  let t := c.arg 0x20 2
  { tm := 64 * (bits t 4 0 + 1), tn := 64 * (bits t 9 5 + 1), tk := 64 * (bits t 15 10 + 1), loop := 0, parts := 1,
    chunk := 32, first := 0, meres := 1 }

/-- The checks of STATS at issue, in the order of R124, then sizes and overlap. -/
def statsIssue (s : State) (c : Cmd) : Option Err :=
  let d := readDesc s (c.arg 0x10 2)
  let o := readDesc s (c.arg 0x12 2)
  let n := c.arg 0x18 4
  let tap := statsKind c == 2
  firstErr [
    need (tap || decide (n ≤ d.plan.getD (c.arg 0x15 1) 0)) (shapeExceeds 3 d.id),
    need (decide (statsOutputs s c ≤ o.elems)) (shapeExceeds 3 o.id),
    need (!tap || decide (tapSize (tapGeo c) n (c.arg 0x1C 4) ≤ (if d.compressed then d.rawBytes else d.half))) (badParam 0x10 3),
    sizeCheck s d (if tap then 0 else d.bytes) 0x10, sizeCheck s o o.bytes 0x12,
    need (!overlaps (o.ranges s) (d.ranges s)) (badParam 0x12 4)]

/-- A quotient by a count, rounded once. -/
def fdivNat (a : Word) (n : Nat) : Word := toF32 (Num.div (f32 a) (Num.ofNat n))

/-- The variance from the two sums (R127, R130): q and var. -/
def varOf (s1 s2 : Word) (n : Nat) (bessel : Bool) : Word × Word :=
  let q := fdivNat s1 n
  (q, fdivNat (fmax (fsub s2 (fmul s1 q)) 0) (if bessel then n - 1 else n))

/-- meanvar() (R127). -/
def meanVar (xs : List Word) (bessel : Bool) : Word × Word :=
  let c := match xs with
    | x :: _ => if isFinite x then x else 0
    | [] => 0
  let ys := xs.map (fun x => fsub x c)
  let r := varOf (laneSum ys) (laneSumSq ys) xs.length bessel
  (fadd c r.1, r.2)

/-- Element `i` of group `g` along axis `a`: row and column (R125). -/
def groupElem (d : Desc) (a g i : Nat) : Nat × Nat :=
  let low := max (lowExtent d a) 1
  let lin := (g / low * d.plan.getD a 0 + i) * low + g % low
  (lin / max d.p0 1, lin % max d.p0 1)

/-- One column of TAP_COMBINE (R130). -/
def tapColumn (m : Memory) (p : Place) (g : Geo) (rows cols n : Nat) (bessel : Bool) : Word × Word :=
  let sums := (List.range (ceilDiv rows 64)).foldl (fun (acc : Word × Word) rb =>
    let t := rb / (g.tm / 64) * ceilDiv cols g.tn + n / g.tn
    let off := ((t * g.q + rb % (g.tm / 64) * (g.tn / 64) + n % g.tn / 64) * 64 + n % 64) * 8
    (fadd acc.1 (BitVec.ofNat 32 (p.num m off 4)), fadd acc.2 (BitVec.ofNat 32 (p.num m (off + 4) 4)))) (0, 0)
  varOf sums.1 sums.2 rows bessel

/-- The elements of group `g` as runs of the input (R125). -/
def groupSegs (d : Desc) (a n g : Nat) : List Seg :=
  if a = 0 then [{ row := some (groupElem d 0 g 0).1, col := (groupElem d 0 g 0).2, len := n }]
  else (List.range n).map (fun i => { row := some (groupElem d a g i).1, col := (groupElem d a g i).2, len := 1 })

/-- The runs that a reduction reads. -/
def statsSegs (d : Desc) (a n : Nat) : List Seg := (List.range (statsGroups d a)).flatMap (groupSegs d a n)

/-- The bytes of one column's tap entries (R130). -/
def tapEntries (g : Geo) (rows cols n : Nat) : List (Nat × Nat) :=
  (List.range (ceilDiv rows 64)).map (fun rb =>
    let t := rb / (g.tm / 64) * ceilDiv cols g.tn + n / g.tn
    (((t * g.q + rb % (g.tm / 64) * (g.tn / 64) + n % g.tn / 64) * 64 + n % 64) * 8, 8))

/-- The reads of STATS: group g, or column g of TAP_COMBINE, is read for logical Mere first + g mod count (R125, R130). -/
def statsRead (s : State) (c : Cmd) : List Read :=
  let d := readDesc s (c.arg 0x10 2)
  let n := c.arg 0x18 4
  let die (g : Nat) := (c.arg 0x30 1 + g % (c.arg 0x31 1 + 1)) / 128
  if !d.compressed then []
  else if statsKind c = 2 then
    (List.range (c.arg 0x1C 4)).map (fun g => { die := die g, desc := d, ranges := tapEntries (tapGeo c) n (c.arg 0x1C 4) g })
  else (List.range (statsGroups d (c.arg 0x15 1))).map (fun g =>
    { die := die g, desc := d, ranges := segRanges d.fmt d.p0 (groupSegs d (c.arg 0x15 1) n g) })

/-- The work of STATS (R125-R130). Reserved T2 codes are charged to the total alone: STATS has no in-tag (R148). -/
def statsRun (s : State) (c : Cmd) : Run :=
  let d := readDesc s (c.arg 0x10 2)
  let o := readDesc s (c.arg 0x12 2)
  let a := c.arg 0x15 1
  let n := c.arg 0x18 4
  let cols := c.arg 0x1C 4
  let bessel := bit (c.arg 0x14 1) 2
  let kind := statsKind c
  let done (work : Nat) (ws : List Word) (res : Nat) : Run :=
    Run.plain (succeeded (elemWork work)
      (blurWrites (placementClash s c) [.write o.home (ws.flatMap (fun w => toLe 4 w.toNat))] ++ reservedEffect 0 res))
  if n = 0 ∨ (kind = 2 ∧ cols = 0) then Run.plain zeroExtent
  else
    Run.reading
      (if kind = 2 then
        match loadRaw s d (tapSize (tapGeo c) n cols) with
        | .error e => Run.fail e
        | .ok x =>
          done (2 * ceilDiv n 64 * cols) ((List.range cols).flatMap (fun j =>
            let r := tapColumn s.mem x.place (tapGeo c) n cols j bessel
            [r.1, r.2])) 0
      else
        match loadTensor s d d.fmt 0 false (statsSegs d a n) with
        | .error e => Run.fail e
        | .ok x =>
          let group (g : Nat) := (List.range n).map (fun i => x.wide s.mem (groupElem d a g i).1 (groupElem d a g i).2)
          done (statsGroups d a * n) ((List.range (statsGroups d a)).flatMap (fun g =>
            if kind = 0 then [laneSumSq (group g)]
            else
              let r := meanVar (group g) bessel
              [r.1, r.2])) (reservedIn s.mem x (statsSegs d a n)))
      s (statsRead s c)

/-- Where a dispatched STATS writes (R48). -/
def statsTargets (s : State) (c : Cmd) : List (Nat × Nat) :=
  if c.arg 0x18 4 = 0 ∨ (statsKind c = 2 ∧ c.arg 0x1C 4 = 0) then []
  else [((readDesc s (c.arg 0x12 2)).home, 4 * statsOutputs s c)]

/-- STATS (R124): sums of squares, mean and variance, or combined drain taps. -/
def execStats (cid : Nat) (s : State) : Ans := .next (onRun s cid [0x0106] statsIssue statsRun)

end Sys2Proof.Machine
end

