-- ==== Sys2Proof/Machine/Courses.lean ====
section
/-! DEFINITION. The course of a command on one Mere (R94, R102-R105, R125, R154, R182, R190-R193): its steps, the loads they
take, and the plane form in which a load lands in the scratchpad (R84, R85). -/

namespace Sys2Proof.Machine

/-! ## Courses -/

/-- The one part of a run or a group: slice `i` of `n`. -/
def runPart (t i n : Nat) : Part := { tile := t, slice := i, first := i, count := 1, last := i + 1 == n }

/-- A step that takes one load of the staging area. -/
def runStep (p : Part) (segs : List Seg) : Step :=
  { a := some p, b := none, s := some { operand := 0, rows := [(false, segs)] }, p := none, q := none }

/-- The course of VECTOR on logical Mere `l`: its runs of 4,096 elements (R94, R192). -/
def vectorCourse (s : State) (c : Cmd) (l : Nat) : List Step :=
  let n := c.arg 0x1C 4
  let d := readDesc s (c.arg 0x10 2)
  ((List.range (ceilDiv n 4096)).filter (fun t => runMere c t == l)).map (fun t =>
    runStep (runPart t 0 1) (lineSegs d.p0 (4096 * t) (min n (4096 * t + 4096))))

/-- Run `i` of 4,096 elements of a group of `n` along axis `a` (R125, R192). -/
def groupRun (d : Desc) (a n g i : Nat) : List Seg :=
  if a = 0 then [{ row := some (groupElem d 0 g 0).1, col := (groupElem d 0 g 0).2 + 4096 * i, len := min 4096 (n - 4096 * i) }]
  else ((groupSegs d a n g).drop (4096 * i)).take 4096

/-- The course of STATS on logical Mere `l`: group g, or column g of TAP_COMBINE, belongs to Mere first + g mod count
(R125, R130). -/
def statsCourse (s : State) (c : Cmd) (l : Nat) : List Step :=
  let n := c.arg 0x18 4
  let cols := c.arg 0x1C 4
  let d := readDesc s (c.arg 0x10 2)
  let mine (g : Nat) : Bool := c.arg 0x30 1 + g % (c.arg 0x31 1 + 1) == l
  if n = 0 ∨ (statsKind c = 2 ∧ cols = 0) then []
  else if statsKind c = 2 then ((List.range cols).filter mine).map (fun g => runStep (runPart g 0 1) [])
  else ((List.range (statsGroups d (c.arg 0x15 1))).filter mine).flatMap (fun g =>
    (List.range (ceilDiv n 4096)).map (fun i => runStep (runPart g i (ceilDiv n 4096)) (groupRun d (c.arg 0x15 1) n g i)))

/-- The course of ATTN_BLOCK, one step: the manual lays out neither its tiles nor its slices (DESIGN CHOICE, log 87). -/
def attnCourse (c : Cmd) : List Step :=
  if c.arg 0x20 4 = 0 ∨ c.arg 0x24 4 = 0 then [] else [runStep (runPart 0 0 1) []]

/-- The place of a physical Mere in a command's set (R56). -/
def indexOf (s : State) (c : Cmd) (phys : Nat) : Option Nat :=
  (List.range (c.arg 0x31 1 + 1)).find? (fun i => physOf s (c.arg 0x30 1 + i) == phys)

/-- Group and member of place `i` of the set of an array command (R103). -/
def groupMember (c : Cmd) (i : Nat) : Nat × Nat := (i / max (geoOf c).parts 1, i % max (geoOf c).parts 1)

/-- The course of a command on the Mere at place `i` of its set. -/
def courseOf (s : State) (c : Cmd) (i : Nat) : List Step :=
  let gm := groupMember c i
  match c.opcode with
  | 0x0101 => matmulCourse c gm.1 gm.2
  | 0x0102 => bwdCourse (bwdOf s c) gm.1 gm.2
  | 0x0103 | 0x0104 => winCourse c (winOf s c) gm.1 gm.2
  | 0x0105 => vectorCourse s c (c.arg 0x30 1 + i)
  | 0x0106 => statsCourse s c (c.arg 0x30 1 + i)
  | 0x0107 => attnCourse c
  | _ => []

/-- The course of a command on a physical Mere. -/
def courseAt (s : State) (c : Cmd) (phys : Nat) : List Step :=
  match indexOf s c phys with
  | some i => courseOf s c i
  | none => []

/-- The steps that load region `i`, with their numbers: load n is the n-th of them (R190). -/
def loadsOf (k : List Step) (i : Nat) : List (Nat × Fill) :=
  ((List.range k.length).zip k).filterMap (fun e => (e.2.fill i).map (fun f => (e.1, f)))

/-- The loads of region `i` that the steps up to number `n` take. -/
def loadsBy (k : List Step) (i n : Nat) : Nat := ((loadsOf k i).filter (fun e => decide (e.1 ≤ n))).length

/-- The next step from number `n` on that holds a part of an array; the length of the course where none does. -/
def nextPart (k : List Step) (array : Bool) (n : Nat) : Nat :=
  ((List.range k.length).find? (fun i => decide (n ≤ i) && ((k[i]?).bind (fun x => x.part array)).isSome)).getD k.length

/-- The arrays that take region `i`: reg_s both, reg_p array A, reg_q array B (R95, R96). -/
def takersOf (i : Nat) : List Bool := if i = 0 then [false, true] else if i = 1 then [false] else [true]

/-- The operand regions of a command's first slice on a Mere (R193). -/
def firstRegions (k : List Step) : List Nat :=
  match k with
  | [] => []
  | x :: _ => [0, 1, 2].filter (fun i => (x.fill i).isSome)

/-- Whether a load has halo rows that come from another Mere (R183). -/
def Fill.hasHalo (f : Fill) : Bool := f.rows.any (fun r => r.1)

/-! ## Operands in plane form (R84, R85) -/

/-- An operand as a stream engine moves it: its format in the scratchpad, the bits of an unscaled element, the codes and block
scales by row and column, and the tensor scale. -/
structure Moved where
  fmt : Nat
  width : Nat
  code : Nat → Nat → Nat
  scale : Nat → Nat → Nat
  tensor : Num

/-- A loaded tensor as a source. -/
def Tensor.source (m : Memory) (t : Tensor) : Moved :=
  { fmt := t.fmt, width := fwidth t.fmt, code := t.code m, scale := t.blockScale m, tensor := t.scale }

/-- A load of a tensor as a source, if its form is the one expected. -/
def sourceIf (m : Memory) (l : Loaded) : Option Moved :=
  match l with
  | .ok t => some (t.source m)
  | .error _ => none

/-- The input of VECTOR in integer mode as a source. -/
def intSource (s : State) (d : Desc) (ty : Nat) : Option Moved :=
  match loadRaw s d (d.elems * intBytes ty) with
  | .ok t =>
    some { fmt := 0, width := 8 * intBytes ty, code := fun r i => t.place.num s.mem ((r * d.p0 + i) * intBytes ty) (intBytes ty),
           scale := fun _ _ => 0, tensor := .fin false 1 0 }
  | .error _ => none

/-- Operand `o` of a command, the runs `segs` of it; none where its load ends the command (R145, R189, R223). -/
def sourceOf (s : State) (c : Cmd) (o : Nat) (segs : List Seg) : Option Moved :=
  let e := isPromoted s c (c.arg 0x32 1)
  let load (d : Desc) (fmt n : Nat) (e : Bool) := sourceIf s.mem (loadTensor s d fmt n e segs)
  match c.opcode with
  | 0x0101 => load (readDesc s (c.arg (if o = 0 then 0x10 else 0x12) 2)) (c.arg (if o = 0 then 0x18 else 0x19) 1 % 16) o e
  | 0x0102 => load ((bwdOf s c).operand o).1 ((bwdOf s c).operand o).2 o e
  | 0x0103 | 0x0104 =>
    let v := winOf s c
    if o = 0 ∧ v.fmIn ≠ 0 then
      some { fmt := v.fa, width := fwidth v.fa, code := fun r i => (fmCode s.mem v.a (fmBits v.fmIn) v.fa r i).code,
             scale := fun _ _ => 0, tensor := .fin false 1 0 }
    else load (if o = 0 then v.a else v.b) (if o = 0 then v.fa else v.fb) o e
  | 0x0105 =>
    let d := readDesc s (c.arg 0x10 2)
    (match vecInt c with
     | some ty => intSource s d ty
     | none => load d d.fmt 0 e)
  | 0x0106 =>
    let d := readDesc s (c.arg 0x10 2)
    load d d.fmt 0 false
  | _ => none

/-- The region of operand region `i`; VECTOR and STATS have the vector staging area, whose halves hold codes from their first
byte and scales from byte 0x18000 (R192; DESIGN CHOICE, log 88: the manual gives the halves no layout). -/
def operandRegion (c : Cmd) (i : Nat) : Region :=
  if c.onVectors then
    { baseWord := 0x3C0000, scaleWord := 0x3D8000, pitch := 2048, scalePitch := 2048, rows := 1, flags := 1, last := 0 }
  else regionAt c (regionOffsets.getD i 0)

/-- First byte of row `r` in the code plane of buffer `b` (R82, R84). -/
def Region.rowAt (g : Region) (b r : Nat) : Nat := g.baseWord + 64 * g.pitch * (b * g.rows + r)

/-- First byte of row `r` in the scale plane of buffer `b`. -/
def Region.scaleRowAt (g : Region) (b r : Nat) : Nat := g.scaleWord + 64 * g.scalePitch * (b * g.rows + r)

/-- The code bytes of a run; padding is code 0 (R63, R85). -/
def Moved.codes (x : Moved) (g : Seg) : Bytes :=
  let at_ (i : Nat) : Nat := match g.row with
    | some r => x.code r i
    | none => 0
  if isScaled x.fmt then
    (g.blocks x.fmt).flatMap (fun j => packCodes x.fmt ((List.range (blockLen x.fmt)).map (fun k => at_ (j * blockLen x.fmt + k))))
  else (List.range g.len).flatMap (fun i => toLe (x.width / 8) (at_ (g.col + i)))

/-- The scale bytes of a run. -/
def Moved.scales (x : Moved) (g : Seg) : Bytes :=
  if isScaled x.fmt then
    (g.blocks x.fmt).flatMap (fun j => toLe (scaleBytes x.fmt) (match g.row with
      | some r => x.scale r (j * blockLen x.fmt)
      | none => 0))
  else []

/-- Bytes laid in a scratchpad from address `a`. -/
def padPut (pad : Map Byte) (a : Nat) (b : Bytes) : Map Byte :=
  ((List.range b.length).zip b).foldl (fun p e => mput p (a + e.1) e.2) pad

/-- The rows of a load, those that `take` picks, in plane form in buffer `b` of a region; what lies beyond the pitch or the rows
is not written (R84, R85). -/
def fillPad (x : Moved) (g : Region) (b : Nat) (f : Fill) (take : Bool → Bool) (pad : Map Byte) : Map Byte :=
  (((List.range f.rows.length).zip f.rows).filter (fun e => take e.2.1 && decide (e.1 < g.rows))).foldl (fun p e =>
    padPut (padPut p (g.rowAt b e.1) ((e.2.2.flatMap x.codes).take (64 * g.pitch)))
      (g.scaleRowAt b e.1) ((e.2.2.flatMap x.scales).take (64 * g.scalePitch))) pad

/-- The place of column `c` of stored row `r` in a row of runs: in elements, or in blocks and the element within the block. -/
def runPlace (fmt r c : Nat) : List Seg → Nat → Option Nat
  | [], _ => none
  | g :: t, n =>
    if g.row = some r ∧ g.col ≤ c ∧ c < g.col + g.len then
      some (n + (if isScaled fmt then c / blockLen fmt - g.col / blockLen fmt else c - g.col))
    else runPlace fmt r c t (n + (if isScaled fmt then (g.blocks fmt).length else g.len))

/-- The scratchpad row and place of a stored element in a load. -/
def Fill.find (f : Fill) (fmt r c : Nat) : Option (Nat × Nat) :=
  ((List.range f.rows.length).zip f.rows).findSome? (fun e => (runPlace fmt r c e.2.2 0).map (fun n => (e.1, n)))

/-- Little-endian number of `n` bytes of a scratchpad. -/
def padNum (pad : Map Byte) (a : Nat) : Nat → Nat
  | 0 => 0
  | n + 1 => (mget 0 pad a).toNat + 256 * padNum pad (a + 1) n

/-- The stored element (r, c) of format `fmt` as an array reads it from buffer `b` of a region that holds a load; a position
that the load does not hold delivers zero. -/
def padElem (pad : Map Byte) (g : Region) (b : Nat) (f : Fill) (fmt r c : Nat) : Num :=
  match f.find fmt r c with
  | none => .fin false 0 0
  | some p =>
    if isScaled fmt then
      let k := fwidth fmt * (c % blockLen fmt)
      scaledElem fmt (padNum pad (g.scaleRowAt b p.1 + p.2 * scaleBytes fmt) (scaleBytes fmt))
        ((padNum pad (g.rowAt b p.1 + p.2 * blockBytes fmt + k / 8) 2 / 2 ^ (k % 8)) % 2 ^ fwidth fmt)
    else decodeElem fmt (padNum pad (g.rowAt b p.1 + p.2 * (fwidth fmt / 8)) (fwidth fmt / 8))

end Sys2Proof.Machine
end

