-- ==== Sys2Proof/Machine/Eddy.lean ====
section
/-! DEFINITION. Eddy: KV_RING (R300, R301), KV_RING_BWD (R302) and their messages. -/

namespace Sys2Proof.Machine

/-! ## Checks (R300, R302) -/

/-- Slots of an Eddy command. -/
def Cmd.ringSlots (c : Cmd) : Nat := c.arg 0x1A 2

/-- The packet checks of KV_RING and KV_RING_BWD. -/
def kvRingPacket (s : State) (c : Cmd) : Option Err :=
  let a := readDesc s (c.arg 0x10 2)
  let b := readDesc s (c.arg 0x12 2)
  let n := c.ringSlots
  let bwd := c.opcode == 0x0304
  firstErr [collField s c 0x10, collField s c 0x12, collField s c 0x14, collField s c 0x16,
    need (decide (c.arg 0x18 1 ≤ 7)) (badParam 0x18 2), need (decide (c.arg 0x19 1 ≤ 1)) (badParam 0x19 2),
    need (decide (2 ≤ n ∧ n ≤ 64)) (badParam 0x1A 2), need (decide (c.arg 0x1C 2 + n ≤ 4096)) (badParam 0x1C 2),
    need (decide (c.arg 0x1E 2 + n ≤ 4096)) (badParam 0x1E 2), zeroField c 0x20 32,
    need (!bwd || a.fmt == 0) (formatUnsupported 0 a.fmt), need (!bwd || b.fmt == 0) (formatUnsupported 2 b.fmt),
    need (!bwd || a.elems == b.elems) (badParam 0x12 3)]

/-- Bytes of one K and one V block. KV_RING names its own blocks; KV_RING_BWD has what its slots hold. -/
def blockSizes (s : State) (c : Cmd) : Nat × Nat :=
  if c.opcode = 0x0303 then ((readDesc s (c.arg 0x10 2)).bytes, (readDesc s (c.arg 0x12 2)).bytes)
  else
    let own := mget (0, 0) s.peers.ringDescs (c.arg 0x18 1)
    if own.1 = 0 then ((readDesc s (c.arg 0x14 2)).half / max c.ringSlots 1, (readDesc s (c.arg 0x16 2)).half / max c.ringSlots 1)
    else ((readDesc s own.1).bytes, (readDesc s own.2).bytes)

/-- The checks of both at issue: the first PHASE, one physical axis, sizes, mapping, overlap. -/
def kvRingIssue (s : State) (c : Cmd) : Option Err :=
  let a := readDesc s (c.arg 0x10 2)
  let b := readDesc s (c.arg 0x12 2)
  let k := readDesc s (c.arg 0x14 2)
  let v := readDesc s (c.arg 0x16 2)
  let sz := blockSizes s c
  firstErr [
    need (s.peers.route != none) (badParam 0 6), need ((rtAxes (route s) 1).length == 1) (badParam 0x18 2),
    sizeCheck s a a.bytes 0x10, sizeCheck s b b.bytes 0x12, sizeCheck s k (c.ringSlots * sz.1) 0x14,
    sizeCheck s v (c.ringSlots * sz.2) 0x16, need (!overlaps (k.ranges s) (a.ranges s ++ b.ranges s)) (badParam 0x14 4),
    need (!overlaps (v.ranges s) (a.ranges s ++ b.ranges s ++ k.ranges s)) (badParam 0x16 4),
    need (c.opcode == 0x0303 || !overlaps (b.ranges s) (a.ranges s)) (badParam 0x12 4)]

/-! ## The ring (R301) -/

/-- Hops that a block from position `p` makes on a ring of `n`. -/
def totalHops (n : Nat) (causal : Bool) (p : Nat) : Nat := if causal then n - 1 - p else n - 1

/-- Whether a block from `p` is needed at `q`. -/
def blockNeeded (causal : Bool) (p q : Nat) : Bool := p != q && !(causal && decide (q < p))

/-- The origins whose blocks pass through this module. -/
def Eddy.passing (e : Eddy) : List Nat :=
  (List.range e.size).filter (fun p => p != e.position && (!e.causal || decide (p < e.position)))

/-- The record of an Eddy command put in place of the old one. -/
def storeEddy (s : State) (e : Eddy) : State :=
  { s with peers := { s.peers with eddies := s.peers.eddies.filter (fun x => x.cid != e.cid) ++ [e] } }

/-- The record of an Eddy command removed. -/
def dropEddy (s : State) (cid : Nat) : State :=
  { s with peers := { s.peers with eddies := s.peers.eddies.filter (fun x => x.cid != cid) } }

/-- A running Eddy command with its record. -/
def eddyOf (s : State) (cid : Nat) : Option (Cmd × Eddy) :=
  match working s cid [0x0303, 0x0304] with
  | some c => (s.peers.eddies.find? (fun x => x.cid == cid)).map (fun e => (c, e))
  | none => none

/-- A class 1 message to position `dst` of the ring: origin, hops, accumulator or block (R285). -/
def eddyMsg (s : State) (c : Cmd) (e : Eddy) (dst : Nat) (direct : Bool) (origin hops : Nat) (acc : Bool) (payload : Bytes) : TxMsg :=
  let way : Where := if direct then .along e.axis (goesPlus e.size e.position dst) else .along e.axis true
  txOf s c 1 1 (Config.ringRank e.axis dst) way 3 (BitVec.ofNat 32 (origin * 65536 + e.ring))
    (BitVec.ofNat 32 (hops % 65536 + (if acc then 65536 else 0))) payload

/-- A message sent for an Eddy command; where none can leave the command ends with LINK_LOST (R296). -/
def eddySend (s : State) (c : Cmd) (m : TxMsg) (k : State → State) : State :=
  match sendTx s 0 m with
  | some s1 => k s1
  | none => complete (dropEddy s c.cid) c (linkLost (lastPort m) m.level) 0

/-- The slot of a block after `hops` hops (R301 step 1). -/
def slotOf (c : Cmd) (hops : Nat) : Nat := (hops - 1) % max c.ringSlots 1

/-- KiB of the blocks handled (R44). -/
def eddyWork (s : State) (c : Cmd) (e : Eddy) : Nat :=
  (e.passing.length * ((blockSizes s c).1 + (blockSizes s c).2)) / 1024

/-- Partial elements of a backward ring command. -/
def partialNow (s : State) (c : Cmd) : List Word :=
  let d := readDesc s (c.arg 0x10 2)
  (List.range d.elems).map (fun i => BitVec.ofNat 32 (leNat (s.mem.readN (d.home + 4 * i) 4)))

/-- acc + partial, the travelling value on the left (R302). -/
def addPartial (acc p : List Word) : List Word := (acc.zip p).map (fun x => fadd x.1 x.2)

/-- FP32 words as bytes. -/
def wordBytes (l : List Word) : Bytes := l.flatMap (fun w => toLe 4 w.toNat)

/-- Whether everything that passes has been handled, and for a backward command the own accumulator is back. -/
def Eddy.finished (e : Eddy) : Bool :=
  e.passing.all (fun p => e.handled.contains p) &&
  (!e.backward || totalHops e.size e.causal e.position == 0 || e.accs.any (fun a => a.1 == e.position))

/-- Whether a message of a command has not wholly left its port. -/
def stillSending (s : State) (cid : Nat) : Bool :=
  s.ports.any (fun e => e.2.txQueue.any (fun m => m.cid == some cid && decide (m.sent < m.data.length)))

/-- The end of an Eddy command, once what it sends has left: KV_RING commits; KV_RING_BWD adds the own partial last and writes desc_acc (R302). -/
def eddyEnd (s : State) (c : Cmd) (e : Eddy) : State :=
  if !e.finished || stillSending s e.cid then storeEddy s e
  else if e.backward then
    let own := partialNow s c
    let total := match e.accs.find? (fun a => a.1 == e.position) with
      | some a => addPartial a.2 own
      | none => own
    finishWork (dropEddy s e.cid) c (succeeded (eddyWork s c e)
      (if total = [] then [] else [.write (readDesc s (c.arg 0x12 2)).home (wordBytes total)]))
  else finishWork (dropEddy s e.cid) c (succeeded (eddyWork s c e) [])

/-- The accumulator of a block leaves: to the next position, or straight to the owner after the last (R302). -/
def sendAcc (s : State) (c : Cmd) (e : Eddy) (origin hops : Nat) (acc : List Word) (k : State → State) : State :=
  let last := hops == totalHops e.size e.causal origin
  let dst := if last then origin else (e.position + 1) % max e.size 1
  eddySend s c (eddyMsg s c e dst last origin (hops + 1) true (toLe 4 0 ++ wordBytes acc)) k

/-- The partials that can be combined now: the first needing module starts the accumulator, a later one adds to what
came (R302). `n` bounds the partials held. -/
def combineParts : Nat → State → Cmd → Eddy → State
  | 0, s, c, e => eddyEnd s c e
  | n + 1, s, c, e =>
    match e.parts.find? (fun p => p.2.1 == 1 || e.accs.any (fun a => a.1 == p.1)) with
    | none => eddyEnd s c e
    | some p =>
      let acc := if p.2.1 = 1 then p.2.2 else match e.accs.find? (fun a => a.1 == p.1) with
        | some a => addPartial a.2 p.2.2
        | none => p.2.2
      let e1 := { e with
        parts := e.parts.filter (fun x => x.1 != p.1), accs := e.accs.filter (fun a => a.1 != p.1)
        handled := addTo e.handled p.1 }
      sendAcc s c e1 p.1 p.2.1 acc (fun s1 => combineParts n s1 c e1)

/-- A block put into its free slot (R301 steps 1 to 3): stored, signalled where needed, forwarded where it goes on. -/
def placeBlock (s : State) (c : Cmd) (e : Eddy) (origin hops : Nat) (data : Bytes) : State :=
  let j := slotOf c hops
  let sz := blockSizes s c
  let s1 := hbmWrite (hbmWrite s ((readDesc s (c.arg 0x14 2)).home + j * sz.1) (slice data 0 sz.1))
    ((readDesc s (c.arg 0x16 2)).home + j * sz.2) (slice data sz.1 sz.2)
  let needed := blockNeeded e.causal origin e.position
  let s2 := if needed then addTokens s1 c.q (c.arg 0x1C 2 + j) 1 else s1
  let e1 := { e with
    slots := if needed then mput e.slots j { origin := origin, hops := hops, needed := true } else e.slots
    handled := if e.backward then e.handled else addTo e.handled origin }
  if hops < totalHops e.size e.causal origin then
    eddySend s2 c (eddyMsg s2 c e1 ((e.position + 1) % max e.size 1) false origin (hops + 1) false data) (fun s3 => eddyEnd s3 c e1)
  else eddyEnd s2 c e1

/-- A block that came: into its slot where that is free, else it waits (R301 step 4). -/
def takeBlock (s : State) (c : Cmd) (e : Eddy) (origin hops : Nat) (data : Bytes) : State :=
  if e.handled.contains origin || e.waiting.any (fun w => w.1 == origin) || e.slots.any (fun x => x.2.origin == origin) ||
      e.parts.any (fun p => p.1 == origin) then s
  else if mhas e.slots (slotOf c hops) then storeEddy s { e with waiting := e.waiting ++ [(origin, hops, data)] }
  else placeBlock s c e origin hops data

/-- The blocks of the module's own piece: the ones named, or for KV_RING_BWD those of the last KV_RING on the ring; with
none, their content is free (log 44). -/
def ownBlock (s : State) (c : Cmd) : Bytes :=
  let sz := blockSizes s c
  let own := if c.opcode = 0x0303 then (c.arg 0x10 2, c.arg 0x12 2) else mget (0, 0) s.peers.ringDescs (c.arg 0x18 1)
  if own.1 = 0 then (List.range (sz.1 + sz.2)).map (Config.freeByte s.freeCtr)
  else s.mem.readN (readDesc s own.1).home sz.1 ++ s.mem.readN (readDesc s own.2).home sz.2

/-- Whether a class 1 message is for an Eddy record. -/
def Eddy.takes (e : Eddy) (h : Header) : Bool := h.cls == 1 && h.id.toNat % 8 == e.ring

/-- A class 1 message taken by a running Eddy command. -/
def eddyTake (s : State) (c : Cmd) (e : Eddy) (h : Header) (payload : Bytes) : State :=
  let origin := h.id.toNat / 65536
  if bit h.spec.toNat 16 then
    (if e.backward ∧ !e.accs.any (fun a => a.1 == origin) ∧ !e.handled.contains origin then
       combineParts (e.parts.length + 1) s c { e with accs := e.accs ++ [(origin, wordsIn 4 (payload.drop 4))] }
     else s)
  else takeBlock s c e origin (h.spec.toNat % 65536) payload

/-- The kept class 1 messages offered to an Eddy command that starts. -/
def offerRing (cid : Nat) : List (Header × Bytes) → State → State
  | [], s => s
  | m :: t, s =>
    match eddyOf s cid with
    | some (c, e) => if e.takes m.1 then offerRing cid t (eddyTake (unkeep s m.1 m.2) c e m.1 m.2) else offerRing cid t s
    | none => s

/-- An Eddy command starts: its own block leaves in the plus direction where any position needs it (R301). -/
def startRing (s : State) (c : Cmd) : State :=
  let axis := (rtAxes (route s) 1).headD 0
  let e : Eddy :=
    { cid := c.cid, backward := c.opcode == 0x0304, ring := c.arg 0x18 1, axis := axis, size := rtDim (route s) axis,
      position := rtCoord (route s) axis, causal := c.arg 0x19 1 == 1, slots := [], handled := [], waiting := [], parts := [],
      accs := [] }
  let s0 := tickFree (if e.backward then s else
    { s with peers := { s.peers with ringDescs := mput s.peers.ringDescs e.ring (c.arg 0x10 2, c.arg 0x12 2) } })
  let go (s : State) : State := offerRing c.cid s.peers.inbox (eddyEnd s c e)
  if 0 < totalHops e.size e.causal e.position then
    eddySend s0 c (eddyMsg s0 c e ((e.position + 1) % max e.size 1) false e.position 1 false (ownBlock s c)) go
  else go s0

/-- A dispatched Eddy command of an opcode starts, its checks first; one that has started ends once it may (R301). -/
def ringStart (op cid : Nat) (s : State) : State :=
  onWork s cid [op] (fun c =>
    match s.peers.eddies.find? (fun x => x.cid == cid) with
    | some e => eddyEnd s c e
    | none =>
      match kvRingIssue s c with
      | some e => complete s c e 0
      | none => startRing s c)

/-- KV_RING (R300). -/
def execKvRing (cid : Nat) (s : State) : Ans := .next (ringStart 0x0303 cid s)

/-- KV_RING_BWD (R302). -/
def execKvRingBwd (cid : Nat) (s : State) : Ans := .next (ringStart 0x0304 cid s)

/-! ## The event rows -/

/-- The Eddy command that takes a message: the first running one of its ring, backward for an accumulator. -/
def ringTaker (s : State) (h : Header) : Option (Cmd × Eddy) :=
  (s.peers.eddies.filter (fun e => e.takes h && (e.backward || !bit h.spec.toNat 16) &&
    !e.handled.contains (h.id.toNat / 65536))).findSome? (fun e => eddyOf s e.cid)

/-- A class 1 message reaches its command; before the command is dispatched it is kept. -/
def ringMessage (h : Header) (payload : Bytes) (s : State) : State :=
  onMessage s h payload (fun s =>
    match ringTaker s h with
    | some (c, e) => eddyTake s c e h payload
    | none => keepMsg s h payload)

/-- EDDY_BLOCK_ARRIVE (R301). -/
def execEddyBlockArrive (h : Header) (payload : Bytes) (s : State) : Ans :=
  .next (if h.cls = 1 ∧ !bit h.spec.toNat 16 then ringMessage h payload s else s)

/-- EDDY_ACCUMULATOR_ARRIVE (R302). -/
def execEddyAccumulatorArrive (h : Header) (payload : Bytes) (s : State) : Ans :=
  .next (if h.cls = 1 ∧ bit h.spec.toNat 16 then ringMessage h payload s else s)

/-- Whether the release counter of a slot has been signalled; counter 0 does not exist and holds nothing back. -/
def released (s : State) (n : Nat) : Bool := n == 0 || decide (0 < (getCounter s n).count.toNat)

/-- The blocks that wait for a slot take it in the order they came. -/
def serveWaiting (s : State) (c : Cmd) (cid j : Nat) : State :=
  match eddyOf s cid with
  | some (_, e) =>
    match e.waiting.find? (fun w => slotOf c w.2.1 == j) with
    | some w => placeBlock s c { e with waiting := e.waiting.erase w } w.1 w.2.1 w.2.2
    | none => s
  | none => s

/-- Whether a block of a command is still being forwarded from its slot (R301 step 4). -/
def forwarding (s : State) (cid origin : Nat) : Bool :=
  s.ports.any (fun e => e.2.txQueue.any (fun m => m.cid == some cid && m.cls == 1 && field m.data 10 2 == origin &&
    !bit (field m.data 12 4) 16 && decide (m.sent < m.data.length)))

/-- EDDY_SLOT_RELEASE (R301 step 4, R302): once forwarding has finished, Eddy takes the signal of the slot's release counter; a backward command
takes the partial of the block in hand; the slot may be used again. -/
def execEddySlotRelease (cid slot : Nat) (s : State) : Ans :=
  .next (match eddyOf s cid with
    | some (c, e) =>
      let n := c.arg 0x1E 2 + slot
      let b := mget { origin := 0, hops := 0, needed := false } e.slots slot
      if mhas e.slots slot && released s n && !forwarding s cid b.origin then
        let s1 := takeTokens s [n]
        let e1 := { e with
          slots := mdel e.slots slot
          parts := if e.backward then e.parts ++ [(b.origin, b.hops, partialNow s c)] else e.parts }
        serveWaiting (if e.backward then combineParts (e1.parts.length + 1) s1 c e1 else storeEddy s1 e1) c cid slot
      else s
    | none => s)

end Sys2Proof.Machine
end

