-- ==== Sys2Proof/Machine/Guard.lean ====
section
/-! DEFINITION. The guard: what a commit adds to a tag (R134, R139, R148), the evaluation at a step boundary (R136,
R140-R143), the writes held until then (R147), and the reset at LOAD_JOB (R149). -/

namespace Sys2Proof.Machine

/-! ## Commit of measures (R134, R148) -/

/-- Sums added one by one in tile order, each rounded once (R139). -/
def addSums (acc : Word) (l : List Word) : Word := l.foldl fadd acc

/-- A tag's step accumulators after a command's measures. -/
def Tag.absorb (g : Tag) (d : TagDelta) : Tag :=
  { g with
    stepAmax := fmax g.stepAmax d.amax, nonfinite := satAdd 32 g.nonfinite d.nonfinite,
    err0 := addSums g.err0 d.err0, ref0 := addSums g.ref0 d.ref0, err1 := addSums g.err1 d.err1,
    ref1 := addSums g.ref1 d.ref1, samples := satAdd 32 g.samples d.samples, sat := satAdd 32 g.sat d.sat,
    used := g.used || d.converted }

/-- The counts of R148 after a command's measures. -/
def TagCounts.absorb (g : TagCounts) (d : TagDelta) : TagCounts :=
  { g with
    sampled := satAdd 32 g.sampled d.samples, sat := satAdd 32 g.sat d.sat, nonfinite := satAdd 32 g.nonfinite d.nonfinite,
    reservedT2 := satAdd 32 g.reservedT2 d.reservedT2 }

/-- A command's measures enter its tag and the total; under tag 0 the total alone. -/
def guardCommit (s : State) (d : TagDelta) : State :=
  let s1 := setCounts s 0 ((getCounts s 0).absorb d)
  if d.tag = 0 then s1
  else setCounts (setTag s1 d.tag ((getTag s1 d.tag).absorb d)) d.tag ((getCounts s1 d.tag).absorb d)

/-! ## Evaluation (R141) -/

/-- 2 to a power as a number. -/
def pow2 (e : Int) : Num := .fin false 1 e

/-- The clean factor of a hyst field (R147). -/
def hystOf (h : Nat) : Num :=
  if h = 0 then .fin false 1 0 else if h = 1 then .fin false 7 (-3) else if h = 2 then .fin false 3 (-2) else .fin false 1 (-1)

/-- Fields of GCTRL. -/
def gAlpha (w : Word) : Nat := bits w.toNat 14 12

/-- k_dn. -/
def gKdn (w : Word) : Nat := bits w.toNat 11 8

/-- k_up. -/
def gKup (w : Word) : Nat := bits w.toNat 7 4

/-- adapt. -/
def gAdapt (w : Word) : Bool := bit w.toNat 1

/-- freeze. -/
def gFreeze (w : Word) : Bool := bit w.toNat 0

/-- Held writes applied (R147). -/
def Tag.applyHeld (g : Tag) : Tag :=
  { g with
    tcfg := g.heldCfg.getD g.tcfg, tlim := g.heldLim.getD g.tlim, tinit := g.heldInit.getD g.tinit,
    tthr := g.heldSet.getD g.tthr, heldCfg := none, heldLim := none, heldInit := none, heldSet := none }

/-- delayed_amax() (R136): the largest finite value where the product overflows. -/
def delayedAmax (cfg tinit : Word) (hist : List Word) : Word :=
  match hist with
  | [] => tinit
  | _ =>
    let v := toF32 (Num.mul (amaxOf hist) (pow2 (bits cfg.toNat 23 22)))
    if isFinite v then v else 0x7F7FFFFF#32

/-- The last steps that the history keeps. -/
def keepHistory (cfg : Word) (h : List Word) : List Word := h.drop (h.length - (bits cfg.toNat 26 24 + 1))

/-- The decision of R141: promoted and clean after the step. -/
def decide141 (gctrl : Word) (g : Tag) (have_ : Bool) (e : Word) : Bool × Nat :=
  let mode := bits g.tcfg.toNat 31 30
  let hyst := hystOf (bits g.tcfg.toNat 21 20)
  let dn := bits g.tcfg.toNat 15 8
  if gFreeze gctrl then (g.promoted, g.clean)
  else if mode = 1 then (false, 0)
  else if mode = 2 then (true, 0)
  else if !g.promoted then (if have_ && flt g.tthr e then (true, 0) else (false, g.clean))
  else if have_ then
    let lim := Num.mul hyst (f32 g.tthr)
    let under := !(Num.lt lim (f32 e)) && (match lim, f32 e with
      | .nan, _ => false
      | _, .nan => false
      | _, _ => true)
    let clean := if under then min (g.clean + 1) 255 else 0
    if dn ≠ 0 ∧ dn ≤ clean then (false, 0) else (true, clean)
  else (g.promoted, g.clean)

/-- The threshold after the step (R141). -/
def theta141 (gctrl : Word) (g : Tag) (have_ : Bool) (r : Word) : Word :=
  if gAdapt gctrl && !gFreeze gctrl && bits g.tcfg.toNat 31 30 == 0 && have_ then
    let f := if flt g.tthr r then Num.add (.fin false 1 0) (pow2 (-(gKup gctrl : Int)))
      else Num.sub (.fin false 1 0) (pow2 (-(gKdn gctrl : Int)))
    let t := toF32 (Num.mul (f32 g.tthr) f)
    fmin (fmax t (bf16Word (g.tlim.toNat % 65536))) (bf16Word (g.tlim.toNat / 65536))
  else g.tthr

/-- Evaluation of one tag (R141). -/
def Tag.evaluate (gctrl : Word) (g0 : Tag) : Tag :=
  let g := g0.applyHeld
  let err := fadd g.err0 g.err1
  let ref := fadd g.ref0 g.ref1
  let have_ := decide (0 < g.samples) && flt 0 ref
  let r := fsqrt (fdiv err ref)
  let e := if !have_ then g.terr
    else if !g.eValid then r
    else toF32 (Num.add (f32 g.terr) (Num.mul (Num.sub (f32 r) (f32 g.terr)) (pow2 (-(gAlpha gctrl : Int)))))
  let hist := keepHistory g.tcfg (if g.used then g.history ++ [g.stepAmax] else g.history)
  let dec := decide141 gctrl g have_ e
  { g with
    terr := e, eValid := g.eValid || have_, history := hist, prev := g.promoted, prevCfg := g0.tcfg,
    prevAmax := g0.tamax, promoted := dec.1, clean := dec.2,
    promotions := if dec.1 && !g.promoted then min (g.promotions + 1) 0xFFFF else g.promotions,
    tthr := theta141 gctrl g have_ r, tamax := delayedAmax g.tcfg g.tinit hist, stepAmax := 0, nonfinite := 0,
    err0 := 0, ref0 := 0, err1 := 0, ref1 := 0, samples := 0, sat := 0, used := false }

/-- Promotions and demotions counted for tag `t` and in total (R143, R148). -/
def countMove (s : State) (t : Nat) (up down : Bool) : State :=
  let f (g : TagCounts) : TagCounts :=
    { g with promotions := satAdd 32 g.promotions (b2n up), demotions := satAdd 32 g.demotions (b2n down) }
  setCounts (setCounts s 0 (f (getCounts s 0))) t (f (getCounts s t))

/-- One tag evaluated in the state; GUP and GDOWN name it where it moved. -/
def evaluateTag (s : State) (t : Nat) : State :=
  let g := getTag s t
  let g' := g.evaluate s.guard.gctrl
  let up := g'.promoted && !g.promoted
  let down := !g'.promoted && g.promoted
  let s1 := setTag s t g'
  let s2 := if up || down then countMove s1 t up down else s1
  { s2 with guard := { s2.guard with
      gup := if up then addTo s2.guard.gup t else s2.guard.gup
      gdown := if down then addTo s2.guard.gdown t else s2.guard.gdown } }

/-- Tags evaluated in increasing order. -/
def evaluateTags : List Nat → State → State
  | [], s => s
  | t :: ts, s => evaluateTags ts (evaluateTag s t)

/-- Tags 1 to 255. -/
def allTags : List Nat := (List.range 256).drop 1

/-- The evaluation of every tag at STEP_BEGIN with step number `step` (R140, R147): the state set of the step before is
kept beside the new one. -/
def guardEvaluate (s : State) (step : Nat) : State :=
  let s1 := { s with guard := { s.guard with gup := [], gdown := [] } }
  let s2 := evaluateTags allTags s1
  { s2 with guard := { s2.guard with gstep := BitVec.ofNat 64 step, geval := (s2.guard.geval + 1) % 2 ^ 32 } }

/-- Note bits 0 and 1 of a STEP_BEGIN reply (R143). -/
def guardNotes (s : State) : Nat := (if s.guard.gup.isEmpty then 0 else 1) + (if s.guard.gdown.isEmpty then 0 else 2)

/-- The guard at LOAD_JOB (R149). -/
def guardReset (s : State) : State := { s with guard := Guard.reset }

/-! ## Registers (R147) -/

/-- Whether a TCFG value is valid. -/
def tcfgValid (v : Word) : Bool :=
  bits v.toNat 31 30 != 3 && bits v.toNat 29 28 != 3 && decide (bits v.toNat 19 16 ≤ 10)

/-- A write to one of the four held registers of a tag (R147). -/
def Tag.write (g : Tag) (r : GuardReg) (v : Word) : Tag :=
  match r with
  | .tcfg => if tcfgValid v then { g with heldCfg := some (v &&& 0xFFFFFF00#32) } else g
  | .tlim => { g with heldLim := some v }
  | .tinit => if isFinite v && !(f32 v).isNeg || (f32 v).isZero then { g with heldInit := some v } else g
  | .ttset => { g with heldSet := some v }

/-- Writable bits of GCTRL. -/
def gctrlMask : Word := 0x00007FF3#32

/-- TSTAT (R147). -/
def tstat (g : Tag) : Nat :=
  b2n g.promoted * 2 ^ 31 + b2n g.prev * 2 ^ 30 + b2n g.eValid * 2 ^ 29 + min g.history.length 8 * 2 ^ 24 +
  g.clean * 2 ^ 16 + g.promotions

/-- A 256-bit mask of tags with a property. -/
def tagMask (p : Nat → Bool) : Nat := maskOf (allTags.filter p)

/-- The 4 bytes that the guard window holds at offset `off` (R147). -/
def guardWord (s : State) (off : Nat) : Nat :=
  let g := s.guard
  if off < 0x1020 then
    if off = 0x0 then g.gctrl.toNat
    else if off = 0x8 then g.gstep.toNat % 2 ^ 32
    else if off = 0xC then g.gstep.toNat / 2 ^ 32 % 2 ^ 16
    else if off = 0x10 then g.geval
    else if 0x20 ≤ off ∧ off < 0x40 then bits (tagMask (fun t => (getTag s t).promoted)) (8 * (off - 0x20) + 31) (8 * (off - 0x20))
    else if 0x40 ≤ off ∧ off < 0x60 then bits (maskOf g.gup) (8 * (off - 0x40) + 31) (8 * (off - 0x40))
    else if 0x60 ≤ off ∧ off < 0x80 then bits (maskOf g.gdown) (8 * (off - 0x60) + 31) (8 * (off - 0x60))
    else 0
  else if off < 0x1000 + 256 * 0x20 then
    let t := getTag s ((off - 0x1000) / 0x20)
    let o := (off - 0x1000) % 0x20
    if o = 0 then (t.heldCfg.getD t.tcfg).toNat
    else if o = 4 then t.tthr.toNat
    else if o = 8 then (t.heldLim.getD t.tlim).toNat
    else if o = 0xC then (t.heldInit.getD t.tinit).toNat
    else if o = 0x10 then t.terr.toNat
    else if o = 0x14 then tstat t
    else if o = 0x18 then t.tamax.toNat
    else 0
  else 0

/-- A register of a tag's block by its offset, where it may be written. -/
def guardRegAt (o : Nat) : Option GuardReg :=
  if o = 0 then some .tcfg else if o = 8 then some .tlim else if o = 0xC then some .tinit
  else if o = 0x1C then some .ttset else none

/-- A 4-byte write into the guard window. -/
def guardWrite (s : State) (off : Nat) (v : Word) : State :=
  if off = 0 then { s with guard := { s.guard with gctrl := v &&& gctrlMask } }
  else if 0x1020 ≤ off ∧ off < 0x1000 + 256 * 0x20 then
    let t := (off - 0x1000) / 0x20
    match guardRegAt ((off - 0x1000) % 0x20) with
    | some r => setTag s t ((getTag s t).write r v)
    | none => s
  else s

/-- GUARD_CONFIG_WRITE (R147): a write that waits for the next evaluation. -/
def execGuardConfigWrite (src : Source) (tag : Nat) (reg : GuardReg) (v : Word) (s : State) : Ans :=
  onUnit (decide (1 ≤ tag ∧ tag ≤ 255)) "guard tag" tag
    (if sourceUp s src then setTag s tag ((getTag s tag).write reg v) else s)

end Sys2Proof.Machine
end

