-- ==== Sys2Proof/Machine/JobCtl.lean ====
section
/-! DEFINITION. Jobs: LOAD_JOB (R24, R53), END_JOB (R54), SUSPEND and RESUME (R50, R51), TOKEN_SET and NOP (R55). -/

namespace Sys2Proof.Machine

/-! ## LOAD_JOB -/

/-- Whether the 64 KiB save area may lie at `a` (R53): within mapped spans. While no span is mapped at all there is nothing
to hold it against, since only a job's ALLOC maps spans (DEDUCED, log 67). -/
def saveAreaOk (s : State) (a : Nat) : Bool :=
  (s.mem.spans0.isEmpty && s.mem.spans1.isEmpty && s.mem.spans2.isEmpty) || s.mem.mappedRange a 65536

/-- The packet checks of LOAD_JOB (R53). -/
def loadJobPacket (s : State) (c : Cmd) : Option Err :=
  firstErr [need (c.arg 0x16 2 != 0) (badParam 0x16 2), need (c.arg 0x18 8 % 64 == 0) (badParam 0x18 2),
    need (decide (1 ≤ c.arg 0x28 1 ∧ c.arg 0x28 1 ≤ 64)) (badParam 0x28 2), need (decide (c.arg 0x29 1 ≤ 1)) (badParam 0x29 2),
    need (decide (1 ≤ c.arg 0x2A 2 ∧ c.arg 0x2A 2 ≤ 4095)) (badParam 0x2A 2), zeroField c 0x2C 4,
    need (c.arg 0x30 8 % 64 == 0 && saveAreaOk s (c.arg 0x30 8)) (badParam 0x30 2), zeroField c 0x38 8]

/-- Admission (R24): the first resource that falls short. -/
def admission (s : State) (c : Cmd) : Option Err :=
  let m := c.arg 0x14 2
  let h := c.arg 0x20 8
  firstErr [need (decide (m ≤ meresExposed s 0)) (capacityShort 0 (m - meresExposed s 0)),
    need (decide (m ≤ meresExposed s 1)) (capacityShort 1 (m - meresExposed s 1)),
    need (decide (h ≤ hbmAllocatable s)) (capacityShort 2 (ceilDiv (h - hbmAllocatable s) 0x40000000))]

/-- Zeros in every scratchpad and Tarn, spares included (R81). -/
def zeroMeres (s : State) : State :=
  { s with compute := { s.compute with meres := s.compute.meres.map (fun e =>
      (e.1, { Mere.reset with
        filler := e.2.filler, retired := e.2.retired, cycles := e.2.cycles, nvRetired := e.2.nvRetired })) } }

/-- The job that a LOAD_JOB packet describes. -/
def jobOf (c : Cmd) : Job :=
  { loaded := true, jobId := c.word 0x10, meresPerDie := c.arg 0x14 2, descCount := c.arg 0x16 2, descTable := c.arg 0x18 8,
    hbmBytes := c.arg 0x20 8, queues := c.arg 0x28 1, policy := c.arg 0x29 1, counters := c.arg 0x2A 2,
    saveArea := c.arg 0x30 8, suspended := false, failed := false, step := 0, saved := [],
    perstEnd := false }

/-- A job is loaded (R53): the scoreboard zeroed, step 0, the per-job state reset (R149, R170, R198, R227, R236, R299,
R342); nothing is enabled. -/
def loadJob (s : State) (c : Cmd) : State :=
  let s1 := zeroMeres (springLoad (guardReset s))
  { s1 with
    job := jobOf c, counters := [], update := Update.reset, peers := Peers.reset
    compute := { s1.compute with
      streams := s1.compute.streams.map (fun e =>
        (e.1, { Stream.reset with sshare := e.2.sshare, shareRefused := e.2.shareRefused }))
      zips := [] }
    mem := { s1.mem with quota := [] } }

/-- LOAD_JOB (R53): job state, then admission, then the job. -/
def execLoadJob (cid : Nat) (s : State) : Ans :=
  .next (onWork s cid [0x0701] (fun c =>
    if s.job.loaded || isSafe s then complete s c (badParam 0 6) 0
    else
      match admission s c with
      | some e => complete s c e 0
      | none => complete (loadJob s c) c okStatus 0))

/-! ## END_JOB -/

/-- The packet checks of END_JOB. -/
def endJobPacket (_ : State) (c : Cmd) : Option Err := firstErr [zeroBits c 0x10 0xFE, zeroBytes c 0x11 47]

/-- Whether a job command is killed by END_JOB: dispatched, or stopped by SUSPEND, and of class kill. -/
def endKills (c : Cmd) : Bool := decide (c.q < 64) && isKill c.opcode && (c.inFlight || c.stage == .stopped || (c.stage == .fetched && c.rerun))

/-- The first act of END_JOB: kills with KILLED, cause 0, in ring order; undispatched commands are discarded. -/
def endJobKill (s : State) : State :=
  let s1 := finishAll ((s.cmds.filter endKills).map (fun c => (c, killed 0 0))) s
  { s1 with cmds := s1.cmds.filter (fun c => decide (64 ≤ c.q) || c.inFlight), rel := { s1.rel with toRerun := [] } }

/-- Whether END_JOB must still wait: for a run-class command, or for a reply that has no free slot yet. -/
def endJobWaits (s : State) : Bool :=
  s.cmds.any (fun c => decide (c.q < 64)) || s.queues.any (fun e => decide (e.1 < 64) && !e.2.replies.isEmpty)

/-- The job queues disabled. -/
def disableJobQueues (s : State) : State :=
  { s with queues := s.queues.map (fun e => if e.1 < 64 then (e.1, { e.2 with enable := false }) else e) }

/-- The last act of END_JOB: queues disabled, scoreboard and Meres zeroed, streams closed; without keep every span is
unmapped and the pool zeroed (R235). The job's last step stays for the error log (R412). -/
def endJobFinish (s : State) (keep : Bool) : State :=
  let s1 := closeStreams (List.range 16) (zeroMeres (disableJobQueues s))
  let s2 : State := if keep then s1 else { unmapAll s1 with mem := (unmapAll s1).mem.wipeJob }
  { s2 with
    job := { Job.reset with step := s.job.step }, counters := []
    peers := { s2.peers with colls := [], eddies := [], inbox := [], switching := none } }

/-- END_JOB (R54). -/
def execEndJob (cid : Nat) (s : State) : Ans :=
  .next (onWork s cid [0x0702] (fun c =>
    if !s.job.loaded then complete s c (badParam 0 6) 0
    else
      let s1 := if c.holds then s else putCmd (endJobKill s) { c with holds := true }
      if endJobWaits s1 then s1 else capSync s (complete (endJobFinish s1 (bit (c.arg 0x10 1) 0)) { c with holds := true } okStatus 0)))

/-! ## SUSPEND and RESUME -/

/-- No parameters: bytes 0x10 to 0x3F are reserved. -/
def noParams (_ : State) (c : Cmd) : Option Err := zeroBytes c 0x10 48

/-- The dispatched kill-class commands of the job. -/
def killClass (s : State) : List Cmd := s.cmds.filter (fun c => decide (c.q < 64) && isKill c.opcode && c.inFlight)

/-- Slots later than `oldest` that have committed: fetched, and no longer in hand. -/
def committedMask (s : State) (q : Nat) (oldest : Word) : DWord :=
  let v := getQueue s q
  BitVec.ofNat 64 (maskOf ((List.range 64).filter (fun i =>
    let slot := oldest + BitVec.ofNat 32 (i + 1)
    decide ((slot - oldest).toNat < (v.qhead - oldest).toNat) && !s.cmds.any (fun c => c.q == q && c.slot == slot))))

/-- What SUSPEND saves (R50 step 4). -/
def saveQueues (s : State) : Map SaveSlot :=
  (List.range 64).foldl (fun m q =>
    match s.cmds.find? (fun c => c.q == q && c.stage == .stopped) with
    | some c => mput m q { oldest := c.slot, mask := committedMask s q c.slot }
    | none => m) []

/-- The save area's bytes, private to the firmware (R53). -/
def saveToArea (s : State) : State := hbmForget { s with job := { s.job with saved := saveQueues s } } s.job.saveArea 65536

/-- The first act of SUSPEND (R50 steps 1 and 2). -/
def suspendStart (s : State) : State := stopCmds (killClass s) { s with job := { s.job with suspended := true } }

/-- SUSPEND (R50, R51): it replies once every dispatched run-class command is over. One in progress when the job fails ends
with BAD_PARAM, reason 6 (DESIGN CHOICE, log 68: the manual says it of a SUSPEND that comes after the failure). -/
def execSuspend (cid : Nat) (s : State) : Ans :=
  .next (onWork s cid [0x0705] (fun c =>
    if !s.job.loaded || s.job.failed then complete s c (badParam 0 6) 0
    else if s.job.suspended && !c.holds then complete s c okStatus 0
    else
      let s1 := if c.holds then s else putCmd (suspendStart s) { c with holds := true }
      if s1.cmds.any (fun x => decide (x.q < 64) && x.inFlight) then s1
      else complete (saveToArea s1) { c with holds := true } okStatus 0))

/-- The commands that SUSPEND stopped go back to their queues (R51). -/
def resumeCmds (s : State) : State :=
  { s with
    cmds := s.cmds.map (fun c => if c.stage = .stopped ∧ !s.rel.toRerun.contains c.cid then { c with stage := .fetched } else c)
    job := { s.job with suspended := false, saved := [] } }

/-- RESUME (R51). -/
def execResume (cid : Nat) (s : State) : Ans :=
  .next (onWork s cid [0x0706] (fun c =>
    if !s.job.loaded || s.job.failed then complete s c (badParam 0 6) 0
    else if s.job.suspended then complete (resumeCmds s) c okStatus 0
    else complete s c okStatus 0))

/-! ## TOKEN_SET and NOP (R55) -/

/-- The packet checks of TOKEN_SET. -/
def tokenSetPacket (s : State) (c : Cmd) : Option Err :=
  firstErr [need (decide (c.arg 0x10 2 < 4096)) (badParam 0x10 1),
    need (decide (1 ≤ c.arg 0x10 2 ∧ c.arg 0x10 2 ≤ s.job.counters)) (badParam 0x10 2), zeroBits c 0x14 0xFE, zeroField c 0x15 43]

/-- TOKEN_SET: the counter changes at the commit. -/
def execTokenSet (cid : Nat) (s : State) : Ans :=
  .next (onWork s cid [0x0707] (fun c =>
    finishWork s c (succeeded 0 [.token (c.arg 0x10 2) (BitVec.ofNat 16 (c.arg 0x12 2)) (bit (c.arg 0x14 1) 0)])))

/-- NOP. -/
def execNop (cid : Nat) (s : State) : Ans := .next (onWork s cid [0x0708] (fun c => finishWork s c (succeeded 0 [])))

end Sys2Proof.Machine
end

