-- ==== Sys2Proof/Machine/Phase.lean ====
section
/-! DEFINITION. PHASE (R281, R283) and STEP_BEGIN (R284, R140). -/

namespace Sys2Proof.Machine

/-! ## PHASE -/

/-- The packet checks of PHASE. -/
def phasePacket (s : State) (c : Cmd) : Option Err :=
  firstErr [need (decide (c.arg 0x10 1 ≤ 7)) (badParam 0x10 2), descCheck s (c.arg 0x12 2) 0x12 false,
    plainCheck s (c.arg 0x12 2) 0x12, zeroBytes c 0x14 44]

/-- The table that a PHASE names. -/
def phaseTable (s : State) (c : Cmd) : Bytes := s.mem.readN (readDesc s (c.arg 0x12 2)).home 256

/-- Sum of port `p`'s share row. -/
def shareSum (r : Bytes) (p : Nat) : Nat := ((List.range 5).map (rtShare r p)).sum

/-- Ports of an axis, both directions. -/
def portsOfAxis (a : Nat) : List Nat := axisPorts a true ++ axisPorts a false

/-- The rules of R281 on a table by itself: magic and ranges, share rows, mapped axes, gateways. -/
def tableOk (r : Bytes) : Bool :=
  slice r 0 4 == [0x46#8, 0x4C#8, 0x44#8, 0x52#8] && field r 4 4 != 0xFFFFFFFF &&
  (List.range 3).all (fun a => decide (rtCoord r a < rtDim r a)) &&
  (List.range 24).all (fun p => shareSum r p == 0 || shareSum r p == 256) &&
  (List.range 5).all (fun l => (rtAxes r l).all (fun a => decide (1 < rtDim r a)) &&
    ((rtAxes r l) == [] || ((rtAxes r l).flatMap portsOfAxis).any (fun p => rtShare r p l != 0)) &&
    !((rtAxes r l).flatMap portsOfAxis).any (fun p => (rtGateways r).contains p))

/-- Rank, dims, coord, lattice, parent and gw_ports: the bytes 0x04 to 0x1B (R281). -/
def topologyOf (r : Bytes) : Bytes := slice r 4 0x18

/-- The checks of PHASE at issue. -/
def phaseIssue (s : State) (c : Cmd) : Option Err :=
  let d := readDesc s (c.arg 0x12 2)
  let t := phaseTable s c
  firstErr [need (s.peers.phase == 0xFF || decide (s.peers.phase < c.arg 0x10 1)) (badParam 0x10 6),
    need (decide (256 ≤ d.half)) (badParam 0x12 3), need (d.placed s) (badParam 0x12 3), need (tableOk t) (badParam 0x12 2),
    need (match s.peers.route with
      | some old => topologyOf old == topologyOf t
      | none => true) (badParam 0x12 2)]

/-- PHASE at its dispatch (R283 steps 1 and 2): the new table and phase serve the commands dispatched from now on; every
up port is on an earlier phase until it has drained, a port that is down switches at once. -/
def installPhase (s : State) (c : Cmd) : State :=
  { s with
    peers := { s.peers with
      oldRoute := s.peers.route, route := some (phaseTable s c), phase := c.arg 0x10 1, epoch := s.peers.epoch + 1,
      switching := some c.cid }
    ports := s.ports.map (fun e => (e.1, { e.2 with oldPhase := decide (2 ≤ e.2.state) })) }

/-- PHASE (R283 step 4): it commits once every port has switched. -/
def execPhase (cid : Nat) (s : State) : Ans :=
  .next (onWork s cid [0x0703] (fun c => if s.ports.any (fun e => e.2.oldPhase) then s else finishWork s c (succeeded 0 [])))

/-! ## STEP_BEGIN -/

/-- The packet checks of STEP_BEGIN: every step number is accepted. -/
def stepBeginPacket (_ : State) (c : Cmd) : Option Err := zeroBytes c 0x16 42

/-- Whether a command names a non-zero tag (R140). -/
def namesTag (c : Cmd) : Bool :=
  decide (0x0101 ≤ c.opcode ∧ c.opcode ≤ 0x0105) && (c.arg 0x32 1 != 0 || c.arg 0x33 1 != 0)

/-- The guard fence of R140: an earlier-dispatched command that names a tag and is not over. -/
def fenceOpen (s : State) (c : Cmd) : Bool :=
  s.cmds.any (fun x => x.inFlight && decide (x.order < c.order) && namesTag x)

/-- STEP_BEGIN (R140, R284): the step number in force changes nothing; another waits for the fence. -/
def execStepBegin (cid : Nat) (s : State) : Ans :=
  .next (onWork s cid [0x0704] (fun c =>
    let n := c.arg 0x10 6
    if n = s.job.step then finishWork s c (succeeded 0 [])
    else if fenceOpen s c then s
    else finishWork s c (succeeded 0 [.newStep n])))

/-- A new step (R140, R169, R172, R284): the guard is evaluated, the norm slots and the verdict are cleared, LSNEXT comes
into force, no phase is in force. -/
def beginStep (s : State) (n : Nat) : State :=
  let s1 := guardEvaluate s n
  { s1 with
    update := s1.update.newStep
    peers := { s1.peers with
      final := false, nonfinite := false, excluded := false, backup := false, offCount := 0, offMine := false,
      boffend := 0xFFFFFFFF, phase := 0xFF }
    job := { s1.job with step := n } }

end Sys2Proof.Machine
end

