-- ==== Sys2Proof/Machine/Pipe.lean ====
section
/-! DEFINITION. Pipeline queues: PIPE_SEND and PIPE_RECV (R304, R305); short messages of class 4 (R285). -/

namespace Sys2Proof.Machine

/-- Bytes of an entry: the tensor, or the data and metadata of a compressed one as stored (R206, R304). -/
def entrySize (s : State) (d : Desc) : Nat := if d.compressed then d.half + d.metaBytes s d.rawBytes else d.bytes

/-- The least bytes of an entry of a receiving descriptor: a compressed one arrives with the tables that its header names. -/
def entryLeast (d : Desc) : Nat := if d.compressed then d.half + zipMetaBytes 0 (zipBlocks d.rawBytes) else d.bytes

/-- Whether an arriving entry is one of descriptor `d`: a tensor of its size, or a compressed one of its half_bytes, raw size,
element width and the metadata that its header calls for (R206, R304). -/
def entryFits (d : Desc) (b : Bytes) : Bool :=
  if d.compressed then
    let h := zipParse (b.drop d.half)
    decide (d.half + 64 ≤ b.length) && h.rawBytes == d.rawBytes && h.width == zipWidth d.fmt &&
    b.length == d.half + zipMetaBytes (min h.nt 4) (zipBlocks d.rawBytes)
  else b.length == d.bytes

/-- The bytes of an entry. -/
def entryBytes (s : State) (d : Desc) : Bytes :=
  if d.compressed then s.mem.readN d.base d.half ++ s.mem.readN d.cmeta (d.metaBytes s d.rawBytes)
  else s.mem.readN d.home d.bytes

/-- The packet checks of PIPE_SEND and PIPE_RECV. -/
def pipePacket (s : State) (c : Cmd) : Option Err :=
  firstErr [anyField s c 0x10, need (decide (c.arg 0x12 1 ≤ 63)) (badParam 0x12 2), need (decide (c.arg 0x13 1 ≤ 7)) (badParam 0x13 2),
    need (decide (c.arg 0x18 1 ≤ 4)) (badParam 0x18 2), need (decide (1 ≤ c.arg 0x19 1 ∧ c.arg 0x19 1 ≤ 64)) (badParam 0x19 2),
    if c.opcode = 0x0206 then zeroField c 0x1A 2 else rawField s c 0x1A, zeroField c 0x1C 36]

/-- The checks of both at issue. -/
def pipeIssue (s : State) (c : Cmd) : Option Err :=
  let d := readDesc s (c.arg 0x10 2)
  let b := readDesc s (c.arg 0x1A 2)
  let recv := c.opcode == 0x0207
  firstErr [need (s.peers.route != none) (badParam 0 6), sizeCheck s d d.bytes 0x10,
    if recv then sizeCheck s b (c.arg 0x19 1 * entryLeast d) 0x1A else none,
    need (!recv || !overlaps (d.ranges s) (b.ranges s)) (badParam 0x10 4)]

/-- The pipeline queue of a command. -/
def Cmd.pq (c : Cmd) : Nat := c.arg 0x12 1

/-- Credits that a sender holds: its slots at the start. -/
def creditsOf (s : State) (c : Cmd) : Nat := (getPipe s c.pq).credits.getD (c.arg 0x19 1)

/-- PIPE_SEND takes its credit at dispatch (R305). -/
def takeCredit (s : State) (c : Cmd) : State :=
  setPipe s c.pq { getPipe s c.pq with credits := some (creditsOf s c - 1) }

/-- PIPE_SEND (R304): the entry leaves; the command commits when the receiver acknowledges it. -/
def pipeSend (s : State) (c : Cmd) : State :=
  let v := getPipe s c.pq
  let d := readDesc s (c.arg 0x10 2)
  let m := txOf s c 2 (c.arg 0x18 1) (c.arg 0x14 4) .unknown 3 (BitVec.ofNat 32 c.pq)
    (BitVec.ofNat 32 (v.nextEntry + c.arg 0x19 1 * 65536)) (entryBytes s d)
  if v.sent.any (fun e => e.2 == c.cid) then s
  else match (if d.compressed then crcDamage s d else none) with
  | some x => complete (countDamage s (decodeDie s c)) c (streamDamaged x.2 (x.1.getD 0xFFFF)) 0
  | none =>
    match sendTx s 0 m with
    | some s1 => setPipe s1 c.pq { v with nextEntry := (v.nextEntry + 1) % 65536, sent := v.sent ++ [(v.nextEntry, c.cid)] }
    | none => complete s c (linkLost (lastPort m) m.level) 0

/-- PIPE_SEND. -/
def execPipeSend (cid : Nat) (s : State) : Ans :=
  .next (onWork s cid [0x0206] (fun c =>
    match pipeIssue s c with
    | some e => complete s c e 0
    | none => pipeSend s c))

/-- PIPE_ENTRY_ACKNOWLEDGE (R304, R305): the entry landed, and its command ends; or it was rejected, its data stays,
and its credit with it. -/
def execPipeEntryAcknowledge (h : Header) (accepted : Bool) (s : State) : Ans :=
  .next (if h.cls = 2 then
    onMessage s h [] (fun s =>
      let pq := h.id.toNat % 64
      let v := getPipe s pq
      match v.sent.find? (fun e => e.1 == h.spec.toNat % 65536) with
      | some e =>
        let s1 := setPipe s pq { v with
          sent := v.sent.erase e, credits := if accepted then v.credits else v.credits.map (· + 1) }
        (match working s1 e.2 [0x0206] with
         | some c =>
           if accepted then finishWork s1 c (succeeded (kib (entrySize s (readDesc s (c.arg 0x10 2)))) [])
           else complete s1 c (badParam 0 2) 0
         | none => s1)
      | none => s)
    else s)

/-- The command that tells a receiver's slots, entry size and buffer: the oldest PIPE_RECV in flight on the queue. -/
def recvOf (s : State) (pq : Nat) : Option Cmd := s.cmds.find? (fun c => c.opcode == 0x0207 && c.pq == pq && c.stage != .executed)

/-- Slots and buffer of a receiving queue, of the first PIPE_RECV in flight, else as last used, and whether the entry `b` is of
the size that the queue takes. -/
def recvConfig (s : State) (pq : Nat) (b : Bytes) : Option (Nat × Nat × Bool) :=
  match recvOf s pq with
  | some c => some (c.arg 0x19 1, c.arg 0x1A 2, entryFits (readDesc s (c.arg 0x10 2)) b)
  | none => let v := getPipe s pq; if v.slots = 0 then none else some (v.slots, v.buffer, b.length == v.size)

/-- The answer to an entry: a message of class 2 with its id and number, bit 24 of spec for an acknowledgement, bit 25
where the entry landed (log 45). -/
def ackMsg (s : State) (h : Header) (laxis : Nat) (landed : Bool) : TxMsg :=
  { cls := 2, phase := s.peers.epoch, laxis := laxis, cid := none, level := 3,
    groups := groupsFor (route s) laxis .unknown,
    data := classHeader h.src (ownRank s) h.id (BitVec.ofNat 32 (h.spec.toNat % 2 ^ 24 + 2 ^ 24 + b2n landed * 2 ^ 25)), sent := 0,
    num := none }

/-- The next entry number to take after `n`, past rejected ones. -/
def Pipe.after (v : Pipe) : Nat → Nat → Nat
  | 0, n => n
  | k + 1, n => if v.rejected.contains n then v.after k ((n + 1) % 65536) else n

/-- A rejected entry's number is not waited for. -/
def Pipe.reject (v : Pipe) (n : Nat) : Pipe :=
  let w := { v with rejected := addTo v.rejected n }
  { w with nextTake := w.after w.rejected.length w.nextTake }

/-- An entry lands in its slot, or is rejected on a mismatch (R304, R305). -/
def landEntry (s : State) (h : Header) (payload : Bytes) (cfg : Nat × Nat × Bool) : State :=
  let pq := h.id.toNat % 64
  let v := getPipe s pq
  let number := h.spec.toNat % 65536
  let laxis := ((recvOf s pq).map (fun c => c.arg 0x18 1)).getD 0
  let ok := bits h.spec.toNat 23 16 == cfg.1 && cfg.2.2
  let s1 := (sendTx s 0 (ackMsg s h laxis ok)).getD s
  if !ok then setPipe s1 pq (v.reject number)
  else if v.entries.any (fun e => e.number == number && e.src == h.src) then s1
  else
    let s2 := hbmWrite s1 ((readDesc s cfg.2.1).home + number % max cfg.1 1 * payload.length) payload
    setPipe s2 pq { v with
      slots := cfg.1, size := payload.length, buffer := cfg.2.1,
      entries := v.entries ++ [{ src := h.src, number := number, data := payload }] }

/-- PIPE_ENTRY_ARRIVE (R305): before any PIPE_RECV tells the slot buffer, the entry is kept. -/
def execPipeEntryArrive (h : Header) (payload : Bytes) (s : State) : Ans :=
  .next (if h.cls = 2 ∧ !bit h.spec.toNat 24 then
    onMessage s h payload (fun s =>
      match recvConfig s (h.id.toNat % 64) payload with
      | some cfg => landEntry s h payload cfg
      | none => keepMsg s h payload)
    else s)

/-- The kept entries of a queue land once its slot buffer is known. -/
def offerEntries (pq : Nat) : List (Header × Bytes) → State → State
  | [], s => s
  | m :: t, s =>
    if m.1.cls = 2 ∧ m.1.id.toNat % 64 = pq ∧ !bit m.1.spec.toNat 24 then
      (match recvConfig s pq m.2 with
       | some cfg => offerEntries pq t (landEntry (unkeep s m.1 m.2) m.1 m.2 cfg)
       | none => offerEntries pq t s)
    else offerEntries pq t s

/-- The entry that PIPE_RECV takes next: in the order they were sent (R305). -/
def nextEntryOf (s : State) (pq : Nat) : Option PipeEntry :=
  let v := getPipe s pq
  v.entries.find? (fun e => e.number == v.nextTake)

/-- Where the entry `b` of a PIPE_RECV goes. -/
def recvWrites (d : Desc) (b : Bytes) : List (Nat × Bytes) :=
  if d.compressed then [(d.base, slice b 0 d.half), (d.cmeta, b.drop d.half)] else [(d.home, b)]

/-- The state as the destination of a PIPE_RECV would read with its entry in it. -/
def withEntry (s : State) (d : Desc) (b : Bytes) : State :=
  { s with mem := (recvWrites d b).foldl (fun m w => m.write w.1 w.2) s.mem }

/-- PIPE_RECV (R304): the next entry into the destination, the credit back at the commit. A damaged compressed entry ends it
and stays in its slot (R223; DESIGN CHOICE, log 85). -/
def pipeRecv (s : State) (c : Cmd) : State :=
  let d := readDesc s (c.arg 0x10 2)
  let v := getPipe s c.pq
  match nextEntryOf s c.pq with
  | none => s
  | some e =>
    match (if d.compressed then crcDamage (withEntry s d e.data) d else none) with
    | some x => complete (countDamage s (decodeDie s c)) c (streamDamaged x.2 (x.1.getD 0xFFFF)) 0
    | none =>
      let s1 := setPipe s c.pq { v with entries := v.entries.erase e, nextTake := v.after (v.rejected.length + 1) ((v.nextTake + 1) % 65536) }
      finishWork s1 c (succeeded (kib e.data.length) ((if e.data = [] then [] else (recvWrites d e.data).map (fun w => Effect.write w.1 w.2)) ++
        [.credit c.pq (c.arg 0x14 4) (c.arg 0x18 1) c.phase]))

/-- Where a dispatched PIPE_RECV writes (R48). -/
def pipeRecvTargets (s : State) (c : Cmd) : List (Nat × Nat) :=
  let d := readDesc s (c.arg 0x10 2)
  match nextEntryOf s c.pq with
  | some e => (recvWrites d e.data).map (fun w => (w.1, w.2.length))
  | none => []

/-- PIPE_RECV. -/
def execPipeRecv (cid : Nat) (s : State) : Ans :=
  .next (onWork s cid [0x0207] (fun c =>
    match pipeIssue s c with
    | some e => complete s c e 0
    | none => pipeRecv s c))

/-- The credit message of a committed PIPE_RECV: class 4, kind 4, the pipeline queue as id. -/
def sendCredit (s : State) (pq peer laxis epoch : Nat) : State :=
  let m : TxMsg :=
    { cls := 4, phase := epoch, laxis := laxis, cid := none, level := 3, groups := groupsFor (routeOf s epoch) laxis .unknown,
      data := classHeader peer (ownRank s) (BitVec.ofNat 32 pq) (BitVec.ofNat 32 (4 * 4096)), sent := 0, num := none }
  (sendTx s 0 m).getD s

/-- PIPE_CREDIT_RECEIVE (R305). -/
def execPipeCreditReceive (h : Header) (s : State) : Ans :=
  .next (if h.cls = 4 ∧ shortKind h.spec = 4 then
    onMessage s h [] (fun s =>
      let pq := h.id.toNat % 64
      setPipe s pq { getPipe s pq with credits := (getPipe s pq).credits.map (· + 1) })
    else s)

/-! ## Short messages (R285) -/

/-- Bytes laid into a scratchpad from an address; those beyond it are dropped. -/
def padWrite (m : Map Byte) (a : Nat) : Bytes → Map Byte
  | [] => m
  | b :: t => if a < padBytes then padWrite (mput m a b) (a + 1) t else m

/-- A token signalled by no command of a queue. -/
def signalToken (s : State) (n : Nat) : State :=
  if n = 0 then s
  else setCounter s n { getCounter s n with count := BitVec.ofNat 16 (min ((getCounter s n).count.toNat + 1) 0xFFFF) }

/-- SHORT_MESSAGE_RECEIVE (R285): a data message is written into the target scratchpad, and its arrival signalled. An
Eddy notice (kind 5) has no effect that the manual states. -/
def execShortMessageReceive (h : Header) (payload : Bytes) (s : State) : Ans :=
  .next (if h.cls = 4 ∧ shortKind h.spec = 0 then
    onMessage s h payload (fun s =>
      let logical := bits h.id.toNat 29 22
      let p := physOf s logical
      if logical % 128 < meresExposed s (logical / 128) then
        let v := getMere s p
        signalToken (setMere s p { v with pad := padWrite v.pad (h.id.toNat % 2 ^ 22) payload }) (h.spec.toNat % 4096)
      else s)
    else if h.cls = 4 ∧ shortKind h.spec = 5 then onMessage s h payload id
    else s)

end Sys2Proof.Machine
end

