-- ==== Sys2Proof/Machine/CmdProc.lean ====
section
/-! DEFINITION. The command processor: queue registers (R29-R32), packets (R33-R37), fetch (R35), dispatch (R46, R47),
commit (R48), replies (R44, R430). -/

namespace Sys2Proof.Machine

/-! ## Queue registers (R29-R32) -/

/-- The size of a ring configuration. -/
def sizeLog2 (cfg : Word) : Nat := bits cfg.toNat 4 0

/-- Whether a size is valid (R29). -/
def sizeOk (n : Nat) : Bool := decide (6 ≤ n ∧ n ≤ 16)

/-- Base of a ring: bits 11 to 0 are ignored. -/
def ringBase (b : DWord) : Nat := b.toNat / 4096 * 4096

/-- Device or bus address of the next reply slot (R30). -/
def Queue.replyAddr (v : Queue) : Nat := ringBase v.sRbase + v.rtail.toNat % v.slots * 32

/-- Whether the reply ring is full, or counts as full: no free slot (R32), an unmapped slot (R231), a held reply (R430). -/
def ringFull (s : State) (q : Nat) : Bool :=
  let v := getQueue s q
  v.heldReply || (sizeOk (sizeLog2 v.sQcfg) &&
    (decide (v.slots ≤ v.unread) || (bit v.sQcfg.toNat 30 && !s.mem.mappedRange v.replyAddr 32)))

/-- The doorbell test of R31. -/
def doorbellOk (v : Queue) (size : Nat) (tail : Word) : Bool := sizeOk size && decide ((tail - v.qhead).toNat ≤ 2 ^ size)

/-- QTAIL written (R31). -/
def ringDoorbell (s : State) (q : Nat) (w : Word) : State :=
  let v := getQueue s q
  if w = v.qtail then s
  else if doorbellOk v (sizeLog2 (if v.enable then v.sQcfg else v.qcfg)) w then setQueue s q { v with qtail := w }
  else setQueue s q { v with overrun := true }

/-- Whether an enable is accepted (R29, R31). -/
def enableOk (v : Queue) : Bool :=
  doorbellOk v (sizeLog2 v.qcfg) v.qtail && (bit v.qcfg.toNat 31 || ringBase v.qbase != 0) &&
  (bit v.qcfg.toNat 30 || ringBase v.rbase != 0)

/-- QCTRL.enable set (R29, R30): the ring configuration is sampled, or the enable refused. -/
def enableQueue (s : State) (q : Nat) : State :=
  let v := getQueue s q
  if v.enable then s
  else if enableOk v then setQueue s q { v with enable := true, sQbase := v.qbase, sQcfg := v.qcfg, sRbase := v.rbase }
  else setQueue s q { v with cfgError := true }

/-- QCTRL.enable cleared: refused while a command of the queue is dispatched and uncommitted. A command that is fetched and
not dispatched, or stopped for a re-run, does not block it: it stays in the queue and goes on after the next enable (DESIGN
CHOICE, log 66: R29 speaks of dispatched commands alone). -/
def disableQueue (s : State) (q : Nat) : State :=
  if dispatchedOf s q = 0 then setQueue s q { getQueue s q with enable := false } else s

/-- QCTRL.pause. -/
def pauseQueue (s : State) (q : Nat) (on : Bool) : State := setQueue s q { getQueue s q with pause := on }

/-- wait_ms of a queue. -/
def Queue.waitMs (v : Queue) : Nat := v.qtimeout.toNat % 2 ^ 20

/-- Whether a time in microseconds reaches a queue's limit (R29, R46). -/
def Queue.timeUp (v : Queue) (us : Nat) : Bool := v.waitMs != 0 && decide (1000 * v.waitMs ≤ us)

/-- The oldest waiting command of a queue completes with TIMEOUT where its wait time has reached the limit (R46). -/
def expireWait (s : State) (q : Nat) : State :=
  match oldest s q with
  | some c =>
    (match firstShort s c.waits with
      | some n =>
        if queueState s q = 1 ∧ firstPoisoned s c.waits = none ∧ (getQueue s q).timeUp c.waitUs then complete s c (timedOut n) 0 else s
      | none => s)
  | none => s

/-- The first dispatched update command of a queue that waited for the step verdict up to the limit (R295). -/
def lateUpdate (s : State) (q : Nat) : Option Cmd :=
  s.cmds.find? (fun c => c.q == q && c.stage == .dispatched && isUpdate c.opcode && !s.peers.final &&
    (getQueue s q).timeUp (microsOn s c.timeDie - c.since))

/-- Its TIMEOUT; no counter is waited on. -/
def expireUpdate (s : State) (q : Nat) : State :=
  match lateUpdate s q with
  | some c => complete s c (timedOut 0) 0
  | none => s

/-- TOKEN_WAIT_TIMEOUT (R46, R295). -/
def execTokenWaitTimeout (q : Nat) (s : State) : Ans := onUnit (decide (q ≤ 64)) "queue" q (expireUpdate (expireWait (settle s) q) q)

/-- A command that waits for its tokens, tested with the wait time it has accumulated (R30): it completes with TIMEOUT
where that reaches the limit. A poisoned one is not timed out. -/
def retestWait (s : State) (cid : Nat) : State :=
  match findCmd s cid with
  | some c =>
    (match firstShort s c.waits with
      | some n =>
        if c.stage = .fetched ∧ firstPoisoned s c.waits = none ∧ (getQueue s c.q).timeUp c.waitUs then complete s c (timedOut n) 0 else s
      | none => s)
  | none => s

/-- Every command of a list tested in turn. -/
def retestWaits : List Nat → State → State
  | [], s => s
  | k :: t, s => retestWaits t (retestWait s k)

/-- QTIMEOUT written: it takes effect at once, for every command of the queue that is waiting (R30). -/
def setTimeout (s : State) (q : Nat) (w : Word) : State :=
  let s1 := setQueue s q { getQueue s q with qtimeout := w &&& 0xFFFFF#32 }
  expireUpdate (retestWaits ((s1.cmds.filter (fun c => c.q == q)).map (·.cid)) s1) q

/-- RHEAD written (R32). -/
def setRhead (s : State) (q : Nat) (w : Word) : State := setQueue s q { getQueue s q with rhead := w }

/-- QUEUE_DOORBELL (R31). -/
def execQueueDoorbell (q : Nat) (v : Word) (s : State) : Ans :=
  onUnit (decide (q ≤ 64)) "queue" q (if barsUp s then ringDoorbell s q v else s)

/-- QUEUE_ENABLE (R30). -/
def execQueueEnable (q : Nat) (s : State) : Ans := onUnit (decide (q ≤ 64)) "queue" q (if barsUp s then enableQueue s q else s)

/-- QUEUE_DISABLE (R29). -/
def execQueueDisable (q : Nat) (s : State) : Ans := onUnit (decide (q ≤ 64)) "queue" q (if barsUp s then disableQueue s q else s)

/-- QUEUE_PAUSE (R29). -/
def execQueuePause (q : Nat) (on : Bool) (s : State) : Ans :=
  onUnit (decide (q ≤ 64)) "queue" q (if barsUp s then pauseQueue s q on else s)

/-- QTIMEOUT_WRITE (R30). -/
def execQtimeoutWrite (q : Nat) (v : Word) (s : State) : Ans :=
  onUnit (decide (q ≤ 64)) "queue" q (if barsUp s then setTimeout s q v else s)

/-- RHEAD_UPDATE (R32). -/
def execRheadUpdate (q : Nat) (v : Word) (s : State) : Ans := onUnit (decide (q ≤ 64)) "queue" q (if barsUp s then setRhead s q v else s)

/-- QSTAT (R29). -/
def qstat (s : State) (q : Nat) : Nat :=
  let v := getQueue s q
  queueState s q * 2 ^ 30 + b2n v.sbOverflow * 128 + b2n v.killedDep * 64 + b2n v.timeout * 32 + b2n (ringFull s q) * 16 +
  b2n v.overrun * 8 + b2n v.cfgError * 4 + b2n v.badPacket * 2

/-- The 4 bytes at an offset of a queue block (R29). -/
def queueWord (s : State) (q off : Nat) : Nat :=
  let v := getQueue s q
  if off = 0 then v.qbase.toNat % 2 ^ 32
  else if off = 4 then v.qbase.toNat / 2 ^ 32
  else if off = 8 then v.qcfg.toNat
  else if off = 0xC then v.qtimeout.toNat
  else if off = 0x10 then v.qtail.toNat
  else if off = 0x14 then v.qhead.toNat
  else if off = 0x18 then v.rbase.toNat % 2 ^ 32
  else if off = 0x1C then v.rbase.toNat / 2 ^ 32
  else if off = 0x20 then v.rtail.toNat
  else if off = 0x24 then v.rhead.toNat
  else if off = 0x28 then 2 * b2n v.pause + b2n v.enable
  else if off = 0x2C then qstat s q
  else 0

/-- The sticky bits of QSTAT cleared where a one is written (R7). -/
def clearSticky (v : Queue) (w : Nat) : Queue :=
  { v with
    sbOverflow := v.sbOverflow && !bit w 7, killedDep := v.killedDep && !bit w 6, timeout := v.timeout && !bit w 5,
    overrun := v.overrun && !bit w 3, cfgError := v.cfgError && !bit w 2, badPacket := v.badPacket && !bit w 1 }

/-- A 4-byte write to a queue block; QBASE and RBASE are written through their halves (R351). -/
def queueWrite (s : State) (q off : Nat) (w : Word) : State :=
  if off = 8 then setQueue s q { getQueue s q with qcfg := w &&& 0xC3FF031F#32 }
  else if off = 0xC then setTimeout s q w
  else if off = 0x10 then ringDoorbell s q w
  else if off = 0x24 then setRhead s q w
  else if off = 0x28 then
    let s1 := pauseQueue s q (bit w.toNat 1)
    if bit w.toNat 0 then enableQueue s1 q else disableQueue s1 q
  else if off = 0x2C then setQueue s q (clearSticky (getQueue s q) w.toNat)
  else s

/-! ## Packets (R33-R37) -/

/-- The opcodes that must carry an extended block (R34, R98). -/
def needsExt (op : Nat) : Bool := decide (0x0101 ≤ op ∧ op ≤ 0x0104)

/-- The opcodes that accept one. -/
def takesExt (op : Nat) : Bool := decide (0x0101 ≤ op ∧ op ≤ 0x0106)

/-- The opcodes of version 1 (R36). -/
def inVersion1 (op : Nat) : Bool := op / 256 == 1 || op / 256 == 2 || op == 0x0707 || op == 0x0708

/-- The command that 64 packet bytes spell, in version 2 form (R33, R36, R37). A packet of unknown version has no known
layout: its opcode and tag alone are read. An admin packet names no counter (R27). -/
def parsePacket (s : State) (q : Nat) (slot : Word) (b : Bytes) : Cmd :=
  let ver := field b 3 1
  let op := field b 0 2
  let t := field b 8 8
  let f := field b 2 1
  let base : Cmd :=
    { cid := s.nextCid, q := q, slot := slot, version := ver, opcode := op, flags := 0, tag := BitVec.ofNat 32 (field b 4 4),
      waits := [], signal := 0, sigInc := 0, params := slice b 0x10 48, ext := [], waitUs := 0, stage := .fetched, rerun := false,
      started := false, order := 0, since := 0, begun := 0, step := 0, phase := 0, evalNo := 0, scale := 0, norm := 0, notes := 0,
      batches := 0, holds := false, refetched := [], result := none }
  let c1 : Cmd :=
    if ver = 1 then
      { base with
        flags := b2n (needsExt op) + 2 * b2n (bit f 0) + 4 * b2n (bit f 1), params := slice b 0x0C 48,
        waits := [bits t 9 0, bits t 19 10, 0, 0], signal := bits t 29 20 }
    else if ver = 2 then
      { base with
        flags := f, waits := [bits t 11 0, bits t 23 12, bits t 35 24, bits t 47 36], signal := bits t 59 48,
        sigInc := bits t 63 60 }
    else base
  if q = 64 then { c1 with waits := [], signal := 0, sigInc := 0 } else c1

/-- Bytes of the extended block that a packet names, or the failure of R34. -/
def extBlock (s : State) (c : Cmd) : Except Err Bytes :=
  let p := c.arg 0x38 8
  let n := leNat (s.mem.readN p 4)
  if !c.isExt then .ok []
  else if p % 64 ≠ 0 ∨ !s.mem.mappedRange p 64 then .error (badParam 0x38 2)
  else if n % 64 ≠ 0 ∨ n < 64 ∨ 4096 < n ∨ !s.mem.mappedRange p n then .error (badParam 0x38 2)
  else .ok (s.mem.readN p n)

/-- The version, opcode, queue and state checks, then the reserved bits of the header (R27, R33-R36, R366). -/
def headerError (s : State) (b : Bytes) (c : Cmd) : Option Err :=
  let op := c.opcode
  let v1 := c.version == 1
  let admin := c.q == 64
  firstErr [
    need (v1 || c.version == 2) (badOpcode op 4),
    need ((jobOpcodes ++ adminOpcodes).contains op) (badOpcode op 1),
    need (!v1 || inVersion1 op) (badOpcode op 3),
    need ((if admin then adminOpcodes else jobOpcodes).contains op) (badOpcode op 2),
    need (admin || (s.job.loaded && decide (c.q < s.job.queues))) (badParam 0 6),
    need (!(admin && isSafe s) || [0x0701, 0x0F01, 0x0F04, 0x0F05, 0x0F06].contains op || op / 256 == 0x0E) (badParam 0 6),
    need (if v1 then field b 2 1 / 4 == 0 else field b 2 1 / 16 == 0) (badParam 2 1),
    need (!c.isExt || takesExt op) (badParam 2 2),
    need (!(v1 && decide (2 ^ 30 ≤ field b 8 4))) (badParam 8 1),
    need (!admin || field b 8 8 == 0) (badParam 8 1)]

/-- The packet checks of each opcode (R35, R110 check 1). -/
def opcodePacket (s : State) (c : Cmd) : Option Err :=
  match c.opcode with
  | 0x0101 => matmulPacket s c
  | 0x0102 => bwdPacket s c
  | 0x0103 | 0x0104 => winPacket s c
  | 0x0105 => vectorPacket s c
  | 0x0106 => statsPacket s c
  | 0x0107 => attnPacket s c
  | 0x0201 => copyPacket s c
  | 0x0202 => hostCopyPacket s c
  | 0x0203 => fillPacket s c
  | 0x0204 => compressPacket s c
  | 0x0205 => decompressPacket s c
  | 0x0206 | 0x0207 => pipePacket s c
  | 0x0208 | 0x0209 => allocPacket s c
  | 0x0301 => reduceScatterPacket s c
  | 0x0302 => allGatherPacket s c
  | 0x0303 | 0x0304 => kvRingPacket s c
  | 0x0401 => ingestOpenPacket s c
  | 0x0402 => ingestBatchPacket s c
  | 0x0403 => ingestReleasePacket s c
  | 0x0404 => ingestSeekPacket s c
  | 0x0405 => dictLoadPacket s c
  | 0x0501 | 0x0502 | 0x0503 => updatePacket s c
  | 0x0504 => lossScalePacket s c
  | 0x0601 => mirrorConfigPacket s c
  | 0x0602 | 0x0603 => checkpointPacket s c
  | 0x0604 => mirrorVerifyPacket s c
  | 0x0701 => loadJobPacket s c
  | 0x0702 => endJobPacket s c
  | 0x0703 => phasePacket s c
  | 0x0704 => stepBeginPacket s c
  | 0x0705 | 0x0706 | 0x0708 => noParams s c
  | 0x0707 => tokenSetPacket s c
  | 0x0E01 | 0x0E03 | 0x0F05 => imagePacket s c
  | 0x0E02 => keyRotatePacket s c
  | 0x0E04 => spareOverridePacket s c
  | 0x0E05 => fuseWritePacket s c
  | 0x0F01 => telemetryPacket s c
  | 0x0F02 => powerCapPacket s c
  | 0x0F03 => quotaSetPacket s c
  | 0x0F04 => errlogPacket s c
  | 0x0F06 => attestPacket s c
  | _ => none

/-- Whether an error names one of the packet's inline parameters, which come before the extended pointer at 0x38 (R45). -/
def isInline (e : Err) : Bool :=
  (e.1 == 0x11 && decide (0x10 ≤ e.2 % 256 ∧ e.2 % 256 < 0x38)) || (e.1 == 0x14 && e.2 % 4 != 3)

/-- The reserved last word of a version 1 packet (R36), as an offset in version 2 form. -/
def tailError (b : Bytes) (c : Cmd) : Option Err := need (c.version != 1 || field b 0x3C 4 == 0) (badParam 0x40 1)

/-- The checks that follow the header, the first bad field first (R45): the inline parameters, the extended pointer and
length, the last word of version 1, the extended block. -/
def bodyError (s : State) (b : Bytes) (c : Cmd) (x : Except Err Bytes) : Option Err :=
  match x with
  | .error e =>
    (match opcodePacket s c with
      | some e' => if isInline e' then some e' else some e
      | none => some e)
  | .ok x =>
    match opcodePacket s { c with ext := x } with
    | some e => if isInline e then some e else firstErr [tailError b c, some e]
    | none => tailError b c

/-- Every check of R35 on a packet: the command with its extended block, or the error. -/
def packetCheck (s : State) (b : Bytes) (c : Cmd) : Except Err Cmd :=
  match headerError s b c with
  | some e => .error e
  | none =>
    match bodyError s b c (extBlock s c), extBlock s c with
    | some e, _ => .error e
    | none, .ok x => .ok { c with ext := x }
    | none, .error e => .error e

/-! ## PACKET_FETCH -/

/-- K runs: its firmware is up, and it has its main clock (R255, R363, R366). -/
def kRuns (s : State) : Bool := (isReady s || isSafe s) && !s.ctl.noMainClock

/-- An END_JOB that waits for the job's commands (R54). -/
def jobEnding (s : State) : Bool := s.cmds.any (fun c => c.opcode == 0x0702 && c.holds)

/-- Whether a queue fetches: enabled, packets left, and for a job queue neither suspended, failed nor ending (R50, R52,
R54). -/
def canFetch (s : State) (q : Nat) : Bool :=
  let v := getQueue s q
  kRuns s && v.enable && v.qtail != v.qhead &&
  (q == 64 || (!(s.job.loaded && (s.job.failed || s.job.suspended)) && !jobEnding s))

/-- What became of an access to an HBM sector (R238, R239): the counts and its row; `seen` says that a command's reply
tells of a failure. -/
def sectorOutcome (s : State) (a : Nat) (k : Sector) (seen : Bool) : State :=
  match s.mem.place a with
  | none => s
  | some (n, f, o) =>
    let e : Err := if seen then memUncorrectable n f false else okStatus
    sectorRead s n f o k false e.1 e.2

/-- Detail bit 4 for a sector that was good on its retry (R239). -/
def retryNote (k : Sector) : Nat := if k = .retried then 0x10 else 0

/-- A rejected packet completes at once (R35). -/
def rejectPacket (s : State) (c : Cmd) (e : Err) : State :=
  complete (setQueue s c.q { getQueue s c.q with badPacket := true }) c e 0

/-- The failure of a packet whose extended block lies in a sector that stayed uncorrectable (R239): what the header and the
inline parameters show comes first, since they were read before it. -/
def extFails (s : State) (b : Bytes) (c : Cmd) : State :=
  let s1 := sectorOutcome s (c.arg 0x38 8) .uncorrectable true
  match headerError s b c, opcodePacket s c, s.mem.translate (c.arg 0x38 8) with
  | some e, _, _ => rejectPacket s c e
  | none, some e, some (n, f, _) => if isInline e then rejectPacket s c e else complete s1 c (memUncorrectable n f false) 0
  | none, none, some (n, f, _) => complete s1 c (memUncorrectable n f false) 0
  | none, _, none => s1

/-- Whether a packet has an extended block to read. -/
def readsExt (s : State) (c : Cmd) : Bool :=
  match extBlock s c with
  | .ok x => !x.isEmpty
  | .error _ => false

/-- The packet of a slot taken in: `zeros` marks a slot that could not be read (R231, R352); `ext` is what became of the
read of its extended block. -/
def takePacket (s : State) (q : Nat) (slot : Word) (b : Bytes) (zeros : Bool) (note : Nat) (ext : Sector) : State :=
  let c := { parsePacket s q slot b with notes := note }
  if zeros then rejectPacket s c (badOpcode 0 1)
  else if readsExt s c && ext == .uncorrectable then extFails s b c
  else
    let s1 := if readsExt s c then sectorOutcome s (c.arg 0x38 8) ext true else s
    match packetCheck s b { c with notes := note ||| (if readsExt s c then retryNote ext else 0) } with
    | .error e => rejectPacket s1 c e
    | .ok d => { s1 with cmds := s1.cmds ++ [d], nextCid := s1.nextCid + 1 }

/-- A fetch whose sector stayed uncorrectable (R239): tag 0, MEM_UNCORRECTABLE. -/
def fetchFails (s : State) (q : Nat) (slot : Word) (a : Nat) : State :=
  match s.mem.translate a with
  | some (n, f, _) => rejectPacket s (parsePacket s q slot []) (memUncorrectable n f false)
  | none => s

/-- The next packet of a queue (R30, R31, R35): QHEAD passes its slot. -/
def fetchPacket (s : State) (q : Nat) (host : HostRead) (hbm ext : Sector) : State :=
  let v := getQueue s q
  let s1 := setQueue s q { v with qhead := v.qhead + 1 }
  let a := ringBase v.sQbase + v.qhead.toNat % v.slots * 64
  let none64 : Bytes := List.replicate 64 0
  if bit v.sQcfg.toNat 31 then
    if s.mem.mappedRange a 64 then
      (match hbm with
        | .uncorrectable => fetchFails (sectorOutcome s1 a hbm true) q v.qhead a
        | _ => takePacket (sectorOutcome s1 a hbm true) q v.qhead (s.mem.readN a 64) false (retryNote hbm) ext)
    else takePacket s1 q v.qhead none64 true 0 ext
  else
    match host with
    | .data b => takePacket s1 q v.qhead (slice b 0 64) false 0 ext
    | .failed => takePacket s1 q v.qhead none64 true 0 ext

/-- PACKET_FETCH (R35). -/
def execPacketFetch (q : Nat) (host : HostRead) (hbm : FetchSectors) (s : State) : Ans :=
  onUnit (decide (q ≤ 64)) "queue" q (if canFetch s q then capSync s (fetchPacket s q host hbm.slot hbm.ext) else s)

/-! ## COMMAND_DISPATCH -/

/-- The checks of each opcode at issue (R110 checks 2 to 8 and their like). -/
def opcodeIssue (s : State) (c : Cmd) : Option Err :=
  match c.opcode with
  | 0x0101 => matmulIssue s c
  | 0x0102 => bwdIssue s c
  | 0x0103 | 0x0104 => winIssue s c
  | 0x0105 => vectorIssue s c
  | 0x0106 => statsIssue s c
  | 0x0107 => attnIssue s c
  | 0x0201 => copyIssue s c
  | 0x0202 => hostCopyIssue s c
  | 0x0203 => fillIssue s c
  | 0x0204 => compressIssue s c
  | 0x0205 => decompressIssue s c
  | 0x0206 | 0x0207 => pipeIssue s c
  | 0x0208 | 0x0209 => allocIssue s c
  | 0x0301 | 0x0302 => collIssue s c
  | 0x0303 | 0x0304 => kvRingIssue s c
  | 0x0401 => ingestOpenIssue s c
  | 0x0402 => ingestBatchIssue s c
  | 0x0403 => ingestReleaseIssue s c
  | 0x0404 => ingestSeekIssue s c
  | 0x0405 => dictLoadIssue s c
  | 0x0501 | 0x0502 | 0x0503 => updateIssue s c
  | 0x0601 => mirrorConfigIssue s c
  | 0x0602 | 0x0603 => checkpointIssue s c
  | 0x0604 => mirrorVerifyIssue s c
  | 0x0703 => phaseIssue s c
  | _ => none

/-- The drain programs that a command names. -/
def programsOf (c : Cmd) : List Nat :=
  if c.opcode = 0x0102 then [c.arg 0x2E 2, c.xarg 0xC6 2]
  else if c.opcode ≤ 0x0104 then [c.arg 0x2E 2]
  else if c.opcode = 0x0105 then [c.arg 0x14 2]
  else []

/-- The descriptors that a command names: in its packet, its extended block, its drain programs. -/
def namedDescs (s : State) (c : Cmd) : List Nat :=
  ((descFieldsOf c.opcode).map (fun o => c.arg o 2) ++
    (if c.opcode = 0x0102 then [0xC0, 0xC6, 0xD0, 0xD2, 0xD4, 0xD6].map (fun o => c.xarg o 2) else []) ++
    (if c.opcode = 0x0402 then
       let g := getIngest s (c.arg 0x10 1)
       (List.range (cQ g.cfg)).flatMap (slotDescs g.cfg) ++ [g.src, g.rsv, field g.cfg 0x18 2]
     else []) ++
    (programsOf c).flatMap (fun p => (program s p).map (fun e => e.desc))).filter (· != 0)

/-- The descriptors that a command adds to (R49). -/
def addsTo (c : Cmd) : List Nat :=
  let add := bit (c.arg 0x1B 1) 0
  (if c.opcode = 0x0102 then
     (if add then [c.arg 0x14 2, c.xarg 0xD4 2] else []) ++ (if bit (c.xarg 0xC4 1) 0 then [c.arg 0x16 2, c.xarg 0xD6 2] else [])
   else if c.opcode = 0x0101 ∨ c.opcode = 0x0103 ∨ c.opcode = 0x0104 then (if add then [c.arg 0x14 2] else [])
   else []).filter (· != 0)

/-- Whether two lists share a member. -/
def share (a b : List Nat) : Bool := a.any (fun x => b.contains x)

/-- The other dispatched, uncommitted commands. -/
def others (s : State) (c : Cmd) : List Cmd := s.cmds.filter (fun x => x.cid != c.cid && x.inFlight)

/-- Whether an update must wait for its mirror: still filling from the previous update (R308). -/
def mirrorBusy (s : State) (c : Cmd) : Bool :=
  match mirrorOf s (c.arg 0x10 2) with
  | some (_, mr) => mr.state == 2 && mr.genF.toNat != ((readDesc s (c.arg 0x10 2)).generation + 1) % 2 ^ 64
  | none => false

/-- The commands of the queue that were fetched before `c` and are not over. -/
def earlier (s : State) (c : Cmd) : List Cmd := (s.cmds.takeWhile (fun x => x.cid != c.cid)).filter (fun x => x.q == c.q)

/-- LOAD_JOB, END_JOB, SUSPEND and RESUME, which take effect one at a time, each after the earlier ones have replied
(R28). -/
def isJobCtl (op : Nat) : Bool := [0x0701, 0x0702, 0x0705, 0x0706].contains op

/-- The writers of the image store, served in arrival order (R374). -/
def writesImages (op : Nat) : Bool := op == 0x0E01 || op == 0x0F05

/-- What an opcode's own rules hold back at dispatch: add mode (R49), a master (R163, R308, R309), FREE (R234), a stream
(R331), PHASE and STEP_BEGIN (R283), a pipeline's credit or entry (R305), the admin commands of R28. -/
def opcodeHeld (s : State) (c : Cmd) : Bool :=
  let o := others s c
  let master := o.any (fun x => isUpdate x.opcode && x.arg 0x10 2 == c.arg 0x10 2)
  o.any (fun x => share (addsTo c) (addsTo x)) ||
  (isUpdate c.opcode && (master || mirrorBusy s c)) ||
  (c.opcode / 256 == 6 && master) ||
  (c.opcode == 0x0209 &&
    (let d := readDesc s (c.arg 0x10 2)
     let r := (d.base, ceilDiv (allocLen d c) (spanSize ((windowOf d.base).getD 0)) * spanSize ((windowOf d.base).getD 0))
     o.any (fun x => (namedDescs s x).any (fun i => ((readDesc s i).ranges s).any (overlap r))))) ||
  ((c.opcode == 0x0402 || c.opcode == 0x0404) && o.any (fun x => x.opcode == 0x0402 && x.arg 0x10 1 == c.arg 0x10 1)) ||
  (c.opcode == 0x0401 && c.arg 0x10 2 != 0 && o.any (fun x => x.opcode == 0x0402 && x.arg 0x10 1 == c.arg 0x16 1)) ||
  ((c.opcode == 0x0703 || c.opcode == 0x0704) && o.any (fun x => x.opcode == 0x0703 || x.opcode == 0x0704)) ||
  (c.opcode == 0x0206 && creditsOf s c == 0) ||
  (c.opcode == 0x0207 && nextEntryOf s c.pq == none) ||
  (isJobCtl c.opcode && ((earlier s c).any (fun x => isJobCtl x.opcode) || (getQueue s 64).replies.any (fun r => isJobCtl r.opcode))) ||
  (c.opcode / 256 == 0x0E && (earlier s c).any (fun x => x.opcode / 256 == 0x0E)) ||
  (writesImages c.opcode && (earlier s c).any (fun x => writesImages x.opcode))

/-- Whether a command is held back in its queue: a full reply ring (R32), 64 in flight, FENCE (R47), a command killed
and not yet run again (R51, R407), its tokens (R46), its opcode's rules. -/
def held (s : State) (c : Cmd) : Bool :=
  ringFull s c.q || decide (64 ≤ dispatchedOf s c.q) || (c.isFence && !(earlier s c).isEmpty) ||
  s.cmds.any (fun x => x.q == c.q && x.stage == .stopped) || (firstShort s c.waits).isSome || opcodeHeld s c

/-- The command that a queue would dispatch: its oldest; on the admin queue, whose commands do not wait for one another,
the first that nothing holds. -/
def candidate (s : State) (q : Nat) : Option Cmd :=
  if q = 64 then s.cmds.find? (fun c => c.q == 64 && c.stage == .fetched && !held s c)
  else
    match oldest s q with
    | some c => if held s c then none else some c
    | none => none

/-- Whether two commands cannot both have the counts they wait on. -/
def clash (s : State) (a b : Cmd) : Bool :=
  a.waits.any (fun n => n != 0 && b.waits.contains n && decide ((getCounter s n).count.toNat < needed a.waits n + needed b.waits n))

/-- The first Mere of a command that is no longer exposed: such a command is rejected under R56 (R408). -/
def lostMere (s : State) (c : Cmd) : Option Nat := c.meres.find? (fun l => decide (meresExposed s (l / 128) ≤ l % 128))

/-- Whether every Mere has a free waiting seat (R193). -/
def seatsFree (s : State) (c : Cmd) : Bool := c.meres.all (fun l => decide ((getMere s (physOf s l)).waiting.length < 3))

/-- A waiting seat taken on every Mere of a list (R193); where the command loads nothing there, nothing has to land. -/
def takeSeats (c : Cmd) : List Nat → State → State
  | [], s => s
  | l :: t, s =>
    let p := physOf s l
    let m := getMere s p
    let w : Seat := { cid := c.cid, landed := (firstRegions (courseAt s c p)).isEmpty, skip := 0 }
    takeSeats c t (setMere s p { m with waiting := m.waiting ++ [w] })

/-- The domains of S that an opening stream needs (R384): parser and assembler, and the decoder pools of its outputs. -/
def streamDomains (cfg : Bytes) : List Nat :=
  let has (k : Nat) : Bool := (List.range (cOutputs cfg)).any (fun i => oKind cfg i == k)
  [88, 92] ++ (if has 2 then [89] else []) ++ (if has 3 then [90] else []) ++ (if has 4 then [91] else [])

/-- The domains that a command needs and that are off. -/
def domainsNeeded (s : State) (c : Cmd) : List Nat :=
  (if c.opcode = 0x0401 ∧ c.arg 0x10 2 ≠ 0 then streamDomains (openConfig s c) else []).filter (fun d => !s.power.domains.contains d)

/-- Whether nothing but a competitor holds a ready command back: its seats, its domains, S. -/
def mayLaunch (s : State) (c : Cmd) : Bool :=
  seatsFree s c && (domainsNeeded s c).isEmpty && (!onSpring c.opcode || springUp s)

/-- How far queue `q` stands from the head of the rotation (R46). -/
def rotation (s : State) (q : Nat) : Nat := (q + 64 - s.compute.turn % 64) % 64

/-- Whether queue `a` comes before queue `b` where both have a ready command (R46): higher priority, then rotation. -/
def precedes (s : State) (a b : Nat) : Bool :=
  let p (q : Nat) : Nat := bits (getQueue s q).sQcfg.toNat 9 8
  decide (p b < p a) || (p a == p b && decide (rotation s a < rotation s b))

/-- Whether a queue that comes first has a ready command that competes for a count (R46). -/
def outranked (s : State) (c : Cmd) : Bool :=
  (List.range 64).any (fun q => q != c.q && precedes s q c.q && queueState s q == 1 &&
    (match candidate s q with
      | some d => clash s c d && mayLaunch s d
      | none => false))

/-- A command under the guard states and the step that it keeps from its first dispatch on (R138, R142). -/
def stampCmd (s : State) (c : Cmd) : Cmd :=
  if c.started then c else { c with evalNo := s.guard.geval, step := s.job.step }

/-- The ranges of HBM that a command writes and that are undefined from its dispatch to its commit (R48): those of every
form it can take. The slots of KV_RING are readable from each arrival's signal on (R301), the outputs of INGEST_BATCH batch
by batch (R333), so neither stands here; nor does what goes to the host or to a peer. -/
def targets (s : State) (c : Cmd) : List (Nat × Nat) :=
  match c.opcode with
  | 0x0101 => matmulTargets s c
  | 0x0102 => bwdTargets s c
  | 0x0103 | 0x0104 => winTargets s c
  | 0x0105 => vectorTargets s c
  | 0x0106 => statsTargets s c
  | 0x0107 => attnTargets s c
  | 0x0201 => copyTargets s c
  | 0x0202 => hostCopyTargets s c
  | 0x0203 => fillTargets s c
  | 0x0204 => compressTargets s c
  | 0x0205 => decompressTargets s c
  | 0x0207 => pipeRecvTargets s c
  | 0x0301 | 0x0302 => collTargets s c
  | 0x0304 => [((readDesc s (c.arg 0x12 2)).home, (readDesc s (c.arg 0x12 2)).bytes)]
  | 0x0405 => [((readDesc s (c.arg 0x12 2)).base, (readDesc s (c.arg 0x12 2)).extent)]
  | 0x0501 | 0x0502 | 0x0503 => updateTargets s c
  | 0x0603 => (imageBases (readDesc s (c.arg 0x10 2)) (descOr s (c.arg 0x12 2)) (descOr s (c.arg 0x14 2))).zip (cmdImages s c)
  | _ => []

/-- A command is dispatched (R46): the rotation moves past its queue where it takes a count, the decrements, the seats, and
what holds for its whole course: the tag states and phase, the loss scale and norm read at dispatch (R142, R166, R283), and
its claim on what it writes (R48). -/
def launch (s : State) (c : Cmd) : State :=
  let s0 : State :=
    if c.q < 64 ∧ c.waits.any (· != 0) then { s with compute := { s.compute with turn := (c.q + 1) % 64 } } else s
  let s1 := takeSeats c c.meres (takeTokens s0 c.waits)
  let s2 := if c.opcode = 0x0206 then takeCredit s1 c else s1
  let s3 := if c.opcode = 0x0703 then installPhase s2 c else s2
  claimAll (putCmd { s3 with nextCid := s3.nextCid + 1 } { c with
    stage := .dispatched, started := true, since := microsOn s c.timeDie, begun := microsOn s 5, order := s3.nextCid,
    phase := s3.peers.epoch, scale := s.update.lscur, norm := mget 0 s.update.normq (c.arg 0x30 1) }) c.cid (targets s c)

/-- A ready command is dispatched, waits for S, a domain, a seat or its turn, or ends at its checks. -/
def dispatchCmd (s : State) (c : Cmd) : State :=
  if onSpring c.opcode && !springUp s then (if s.dies.givenUp.contains 4 then complete s c (dieLost 4) 0 else s)
  else if domainsNeeded s c ≠ [] then startRamp s (domainsNeeded s c)
  else
    match lostMere s c with
    | some _ => complete s c (badParam 0x30 2) 0
    | none =>
      if !seatsFree s c || outranked s c then s
      else
        match opcodeIssue s (stampCmd s c) with
        | some e => complete s c e 0
        | none => launch s (stampCmd s c)

/-- The dispatch of a queue: poison first, then the candidate (R46). -/
def dispatchNext (s : State) (q : Nat) : State :=
  let s1 := settle s
  if queueState s1 q = 1 ∧ kRuns s1 ∧ !(decide (q < 64) && jobEnding s1) then
    (match candidate s1 q with
      | some c => dispatchCmd s1 c
      | none => s1)
  else s1

/-- COMMAND_DISPATCH (R46). -/
def execCommandDispatch (q : Nat) (s : State) : Ans := onUnit (decide (q ≤ 64)) "queue" q (dispatchNext s q)

/-! ## COMMAND_COMMIT -/

/-- The domains of S off once no stream is open (R384). -/
def springIdle (s : State) : State :=
  if s.spring.streams.any (fun e => e.2.opened) then s else domainsOff s [88, 89, 90, 91, 92]

/-- dflags.cur of a descriptor flipped (R41, R49). -/
def flipCur (s : State) (id : Nat) : State := hbmWrite s (descAddr s id + 0x21) [s.mem.read (descAddr s id + 0x21) ^^^ 2#8]

/-- The verdict of a collective entered (R295, R299). -/
def enterVerdict (s : State) (nonfinite excluded backup final : Bool) (offender count : Nat) (mine : Bool) : State :=
  let p := s.peers
  { s with peers := { p with
    nonfinite := p.nonfinite || nonfinite, excluded := p.excluded || excluded, backup := p.backup || backup,
    final := p.final || final, boffend := min p.boffend offender, offCount := max p.offCount count,
    offMine := p.offMine || mine, bexcl := satAdd 32 p.bexcl (b2n excluded) } }

/-- One effect of a commit. -/
def applyEffect (s : State) (c : Cmd) (e : Effect) : State :=
  match e with
  | .write a b => hbmWrite s a b
  | .forget a n => hbmForget s a n
  | .host a b => emit s (.hostWrite a b)
  | .flip id => flipCur s id
  | .generation id v => hbmWrite s (descAddr s id + 0x28) (toLe 8 v.toNat)
  | .guard d => guardCommit s d
  | .token n v clear => setCounter s n { count := v, poison := (getCounter s n).poison && !clear }
  | .lossScale a g b lo hi i => { s with update := s.update.setScale a g b lo hi i }
  | .mapSpans w first owner frames => mapSpans s w first owner frames
  | .unmapSpans w first count => unmapSpans s w first count
  | .held n => { s with update := { s.update with uheld := satAdd 32 s.update.uheld n } }
  | .clip w => { s with update := { s.update with uclip := w } }
  | .zcount d esc spill => countEscapes s d esc spill
  | .norm slot q => { s with update := { s.update with normq := mput s.update.normq slot (fadd (mget 0 s.update.normq slot) q) } }
  | .verdict n x b f off count mine => enterVerdict s n x b f off count mine
  | .seek st pos ep rsv => seekIngest s st pos ep rsv
  | .release st slot => releaseSlot s st slot
  | .openStream st cfg src rsv d pos ep seed => openIngest s st cfg src rsv d pos ep seed
  | .closeStream st => springIdle (closeIngest s st)
  | .dict slot d i es => { s with spring := { s.spring with dicts := mput s.spring.dicts slot { desc := d, index := i, entries := es } } }
  | .credit pq peer l ep => sendCredit s pq peer l ep
  | .mirrorHost slot p l d => configureHost s slot p l d
  | .mirrorRemove slot _ => removeMirror s slot
  | .mirrorSet slot st gc gf n => mirrorCommit s slot st gc gf n
  | .newStep n => let s1 := beginStep s n; noteCmd s1 c.cid (guardNotes s1)

/-- Effects in order. -/
def applyEffects (c : Cmd) : List Effect → State → State
  | [], s => s
  | e :: t, s => applyEffects c t (applyEffect s c e)

/-- The commit while K has no main clock (R255): the effects happen, the signal and the reply stay held. -/
def holdCommit (s : State) (c : Cmd) (r : Result) : State :=
  putCmd (endClaims (applyEffects c r.effects s) c true) { c with result := some { r with effects := [] } }

/-- The effects of a commit (R48): what was claimed takes its new contents; an update command adjusts the loss scale (R172),
PHASE ends its switch (R283). -/
def commitEffects (s : State) (c : Cmd) (r : Result) : State :=
  let s1 := adjustScale (endClaims (applyEffects c r.effects s) c true) c (r.status == 0x32 || (r.status == 1 && bit r.detail 10))
  if c.opcode = 0x0703 then { s1 with peers := { s1.peers with switching := none } } else s1

/-- The commit of a command whose work is done (R48): effects, then the signal, then the reply (R46). -/
def commitCmd (s : State) (c : Cmd) (r : Result) : State :=
  let s2 := commitEffects s c r
  complete s2 ((findCmd s2 c.cid).getD c) (r.status, r.detail) r.work

/-- COMMAND_COMMIT (R48). -/
def execCommandCommit (cid : Nat) (s : State) : Ans :=
  .next (match findCmd s cid with
    | some c =>
      (match c.stage, c.result with
        | .executed, some r => capSync s (if s.ctl.noMainClock then holdCommit s c r else commitCmd s c r)
        | _, _ => s)
    | none => s)

/-! ## Replies (R44, R32, R430) -/

/-- The 32 bytes of a reply (R44). -/
def replyBytes (v : Queue) (q : Nat) (r : Reply) : Bytes :=
  toLe 4 r.tag.toNat ++ toLe 1 r.status ++ toLe 3 r.detail ++ toLe 2 r.opcode ++ toLe 1 q ++
  toLe 1 (b2n (bit v.rtail.toNat (sizeLog2 v.sQcfg)) + 2 * b2n r.rerun) ++ toLe 4 r.seq.toNat ++ toLe 6 r.step ++ toLe 2 0 ++
  toLe 4 (min r.work (2 ^ 32 - 1)) ++ toLe 4 (min r.elapsed (2 ^ 32 - 1))

/-- The oldest waiting reply goes into the next slot, to host memory or to HBM, and then its interrupt (R352). -/
def writeReply (s : State) (q : Nat) (r : Reply) (rest : List Reply) : State :=
  let v := getQueue s q
  let b := replyBytes v q r
  let s1 := if bit v.sQcfg.toNat 30 then hbmWrite s v.replyAddr b else emit s (.hostWrite v.replyAddr b)
  let s2 := setQueue s1 q { v with rtail := v.rtail + 1, replies := rest, heldReply := false }
  if r.irq && s.ctl.linkUp then emit s2 (.msix (bits v.sQcfg.toNat 25 16)) else s2

/-- A reply tried: into host memory while the link is up; into HBM by the sector's outcome (R239, R430). -/
def tryReply (s : State) (q : Nat) (hbm : Sector) : State :=
  let v := getQueue s q
  match v.replies with
  | [] => s
  | r :: rest =>
    if bit v.sQcfg.toNat 30 then
      let s1 := sectorOutcome s v.replyAddr hbm false
      (match hbm with
        | .uncorrectable => setQueue s1 q { v with heldReply := true }
        | _ => writeReply s1 q r rest)
    else if s.ctl.linkUp then writeReply s q r rest
    else s

/-- REPLY_WRITE (R32): needs a free slot. -/
def execReplyWrite (q : Nat) (hbm : Sector) (s : State) : Ans :=
  onUnit (decide (q ≤ 64)) "queue" q (if ringFull s q || s.ctl.noMainClock then s else capSync s (tryReply s q hbm))

/-- REPLY_RETRY (R430): the held reply is tried again. -/
def execReplyRetry (q : Nat) (hbm : Sector) (s : State) : Ans :=
  onUnit (decide (q ≤ 64)) "queue" q
    (if (getQueue s q).heldReply && !s.ctl.noMainClock && s.mem.mappedRange (getQueue s q).replyAddr 32 then capSync s (tryReply s q hbm) else s)

end Sys2Proof.Machine
end

