-- ==== Sys2Proof/Machine/Meres.lean ====
section
/-! DEFINITION. The course of a command on its Meres: landed loads, starts, promotions, combines, halo rows, drains and staging
(R87, R92, R105, R106, R118, R183, R190-R196). -/

namespace Sys2Proof.Machine

/-! ## Loads (R190, R193) -/

/-- Whether command `cid` has a seat on a Mere. -/
def Mere.seats (m : Mere) (cid : Nat) : Bool := m.running == some cid || m.waiting.any (fun w => w.cid == cid)

/-- Loads of a region that have landed for a command. -/
def Mere.landed (m : Mere) (cid region : Nat) : Nat := (m.landedSlices.filter (fun e => e == (cid, region))).length

/-- Steps that an array has done, A or B. -/
def Mere.steps (m : Mere) (array : Bool) : Nat := if array then m.stepsB else m.stepsA

/-- Whether an array has done its parts of every step before number `n`. -/
def Mere.past (m : Mere) (k : List Step) (n : Nat) (array : Bool) : Bool := decide (n ≤ nextPart k array (m.steps array))

/-- Whether buffer n mod 2 may take load `n` of a region (R190, R193): a waiting command loads its first slice; a running one
its first two, and each further load once the arrays that take the region have done the steps of the last load but one. -/
def mayLoad (m : Mere) (cid : Nat) (k : List Step) (i n : Nat) : Bool :=
  match (loadsOf k i)[n]? with
  | none => false
  | some e =>
    if m.running = some cid then
      decide (n < 2) ||
      (match (loadsOf k i)[n - 1]? with
       | some p => (takersOf i).all (m.past k p.1)
       | none => false)
    else n == 0 && e.1 == 0

/-- Whether load `n` of a region is complete on a Mere: landed, with its halo rows where it takes them from another Mere. -/
def loadDone (m : Mere) (cid : Nat) (k : List Step) (i n : Nat) : Bool :=
  decide (n < m.landed cid i) &&
  (i != 0 || m.halos.contains (cid, n) || !(((loadsOf k 0)[n]?).map (fun e => e.2.hasHalo)).getD false)

/-- Whether the first slice of a command has fully landed (R193). -/
def firstLanded (m : Mere) (cid : Nat) (k : List Step) : Bool := (firstRegions k).all (fun i => loadDone m cid k i 0)

/-- Gang commands (R195). -/
def isGang (c : Cmd) : Bool :=
  (decide (0x0101 ≤ c.opcode ∧ c.opcode ≤ 0x0104) && decide (1 < c.arg 0x2B 1)) ||
  ((c.opcode == 0x0103 || c.opcode == 0x0104) && bit (c.xarg 0xC1 1) 4) || c.opcode == 0x0107

/-- The waiting seats after a landing, and the command that an idle Mere will start because its first slice completed first
(R193, R194). -/
def seatsLanded (m : Mere) (c : Cmd) (k : List Step) : Mere :=
  let now := firstLanded m c.cid k
  let new := now && m.waiting.any (fun w => w.cid == c.cid && !w.landed)
  { m with
    first := if new ∧ m.running = none ∧ m.first = none ∧ !m.waiting.any (·.landed) ∧ !isGang c then some c.cid else m.first
    waiting := m.waiting.map (fun w => if w.cid = c.cid then { w with landed := w.landed || now } else w) }

/-- The loads of a step's operand, first run to last. -/
def Fill.segs (f : Fill) : List Seg := f.rows.flatMap (fun r => r.2)

/-- SLICE_LOAD_DONE (R84, R85, R190, R193): the next load of a region moves from HBM into plane form in buffer n mod 2, its
tensor scale into the operand's register. Loads land in their order. Halo rows that another Mere sends are left out. -/
def sliceLoad (s : State) (c : Cmd) (mere region n : Nat) : State :=
  let m := getMere s mere
  let v := ownView s c.cid
  let k := courseAt v c mere
  match (loadsOf k region)[n]? with
  | none => s
  | some e =>
    if n == m.landed c.cid region && m.seats c.cid && mayLoad m c.cid k region n then
      let m1 := { m with landedSlices := m.landedSlices ++ [(c.cid, region)] }
      let m2 : Mere := match sourceOf v c e.2.operand e.2.segs with
        | none => m1
        | some x =>
          { m1 with
            pad := fillPad x (operandRegion c region) (n % 2) e.2 (fun h => !h) m.pad
            scales := mput m.scales e.2.operand x.tensor }
      setMere s mere (seatsLanded m2 c k)
    else s

/-- SLICE_LOAD_DONE. -/
def execSliceLoadDone (cid mere region load : Nat) (s : State) : Ans :=
  onUnit (decide (mere < 272)) "Mere" mere
    (match findCmd s cid with
      | some c => if c.inFlight then sliceLoad s c mere region load else s
      | none => s)

/-! ## Seats (R193-R195) -/

/-- Whether the command of a seat is a gang command. -/
def seatGang (s : State) (w : Seat) : Bool := match findCmd s w.cid with
  | some c => isGang c
  | none => false

/-- The waiting seat that a free Mere starts (R194): the oldest pinned one alone; else the one whose first slice completed
first while the Mere stood idle; else the oldest landed one. -/
def nextSeat (s : State) (m : Mere) : Option Seat :=
  match m.waiting.find? (fun w => decide (4 ≤ w.skip)) with
  | some w => if w.landed && !seatGang s w then some w else none
  | none =>
    match m.waiting.find? (fun w => m.first == some w.cid) with
    | some w => some w
    | none => m.waiting.find? (fun w => w.landed && !seatGang s w)

/-- Seats passed over for `cid`: those ahead of it. -/
def passedOver (cid : Nat) : List Seat → List Seat
  | [] => []
  | w :: t => if w.cid = cid then [] else w :: passedOver cid t

/-- The waiting seats after `cid` starts, the skip counts of those ahead of it raised. -/
def skipAhead (cid : Nat) : List Seat → List Seat
  | [] => []
  | w :: t => if w.cid = cid then t else { w with skip := w.skip + 1 } :: skipAhead cid t

/-- A command moves to the running seat (R193, R194): filler stops, late starts and skips are counted. -/
def startOn (s : State) (cid phys : Nat) : State :=
  let m := getMere s phys
  let d := mereDie phys
  let r := getStream s d
  let n := (passedOver cid m.waiting).length
  let s1 := setStream s d { r with slate := satAdd 32 r.slate (b2n m.late), sskip := satAdd 32 r.sskip n }
  setMere s1 phys { m with
    running := some cid, first := none, waiting := skipAhead cid m.waiting, filler := false, late := false, stepsA := 0,
    stepsB := 0, drainedA := [], drainedB := [], combined := [] }

/-- MERE_START (R194). -/
def execMereStart (mere : Nat) (s : State) : Ans :=
  let m := getMere s mere
  onUnit (decide (mere < 272)) "Mere" mere
    (if m.running = none then
       (match nextSeat s m with
        | some w => startOn s w.cid mere
        | none => s)
     else s)

/-- Whether a gang may start on a Mere: its seat free, its first slice landed, no older command pinned there. -/
def gangReady (s : State) (cid phys : Nat) : Bool :=
  let m := getMere s phys
  m.running == none && m.waiting.any (fun w => w.cid == cid && w.landed) &&
  (match m.waiting.find? (fun w => decide (4 ≤ w.skip)) with
    | some w => w.cid == cid
    | none => true)

/-- A command started on every Mere of a list. -/
def startAll (cid : Nat) : List Nat → State → State
  | [], s => s
  | p :: t, s => startAll cid t (startOn s cid p)

/-- The physical Meres of a command's set (R56). -/
def mereSet (s : State) (c : Cmd) : List Nat := (List.range (c.arg 0x31 1 + 1)).map (fun i => physOf s (c.arg 0x30 1 + i))

/-- GANG_START (R195): every Mere in one act, or none. -/
def execGangStart (cid : Nat) (s : State) : Ans :=
  .next (match findCmd s cid with
    | some c => if isGang c && c.inFlight && (mereSet s c).all (gangReady s cid) then startAll cid (mereSet s c) s else s
    | none => s)

/-! ## The arrays (R92, R105, R118, R190) -/

/-- What an array does for a tile of a command: the rows and columns of a tile, the stored output element of a tile's element
number, the product at a K position from the operands' stored elements, the operands whose tensor scales make tau, the chunk
length and the reduction; `most` where the tile takes a running maximum and no product (R186). -/
structure ArrayWork where
  rows : Nat
  cols : Nat
  at_ : Nat → Option (Nat × Nat)
  prod : (Nat → Nat → Nat → Num) → Nat → Nat → Nat → Num
  tau : List Nat
  chunk : Nat
  red : Nat
  most : Bool

/-- A stored element of an operand by outer index and K position (R100). -/
def atOuter (get : Nat → Nat → Nat → Num) (o : Nat) (tr : Bool) (i k : Nat) : Num := if tr then get o k i else get o i k

/-- MATMUL on tile `t`. -/
def matmulWork (c : Cmd) (t : Nat) : ArrayWork :=
  let g := geoOf c
  let m := c.arg 0x1C 4
  let n := c.arg 0x20 4
  let tn := ceilDiv n g.tn
  { rows := g.tm, cols := g.tn
    at_ := fun e =>
      let r := t / max tn 1 * g.tm + e / g.tn
      let q := t % max tn 1 * g.tn + e % g.tn
      if r < m ∧ q < n then some (r, q) else none
    prod := fun get r q x => Num.mul (atOuter get 0 (bit (c.arg 0x18 1) 4) r x) (atOuter get 1 (bit (c.arg 0x19 1) 4) q x)
    tau := [0, 1], chunk := g.chunk, red := c.arg 0x24 4, most := false }

/-- CONV and POOL on tile `t` (R179-R182, R185, R186). -/
def winWork (v : Win) (t : Nat) : ArrayWork :=
  let g := v.geo
  let tcs := max (v.tileCols v.n) 1
  { rows := g.tm, cols := g.tn
    at_ := fun e =>
      match (v.tileRows v.rowsOut)[t / tcs]? with
      | none => none
      | some tr => if e / g.tn < tr.2 then (v.colOf (tr.1 + e / g.tn) (t % tcs) (e % g.tn)).map (fun q => (tr.1 + e / g.tn, q)) else none
    prod := fun get m n k => v.prod (get 0) (get 1) m n k
    tau := if v.isPool then [0] else [0, 1], chunk := g.chunk, red := v.red, most := v.isPool && v.pkind == 0 }

/-- MATMUL_BWD on tile `t`: dX and G on array A, dW and dB, rows along K, on array B (R154, R155). -/
def bwdWork (b : Bwd) (array : Bool) (t : Nat) : ArrayWork :=
  let g := b.geo
  let tn := max (ceilDiv b.n g.tn) 1
  let t1 := t - ceilDiv b.m g.tm * b.units
  let u := if array then t1 / tn else t % max b.units 1
  let ad := decide (ceilDiv b.k g.tk ≤ u)
  let k0 := if ad then 0 else u * g.tk
  let kn := if ad then b.rank else b.k
  if array then
    { rows := g.tk, cols := g.tn
      at_ := fun e =>
        let n := t1 % tn * g.tn + e % g.tn
        let k := k0 + e / g.tn
        if n < b.n ∧ k < kn then some (n, k) else none
      prod := fun get n k m => Num.mul (atOuter get (if ad then 4 else 2) b.tx k m) (get 0 m n)
      tau := [if ad then 4 else 2, 0], chunk := g.chunk, red := b.m, most := false }
  else
    { rows := g.tm, cols := g.tk
      at_ := fun e =>
        let m := t / max b.units 1 * g.tm + e / g.tk
        let k := k0 + e % g.tk
        if m < b.m ∧ k < kn then some (m, k) else none
      prod := fun get m k n => Num.mul (get 0 m n) (atOuter get (if ad then 3 else 1) b.tb k n)
      tau := [0, if ad then 3 else 1], chunk := g.chunk, red := b.n, most := false }

/-- The work of an array command on a tile. ATTN_BLOCK promotes no totals that the manual lays out (DESIGN CHOICE, log 87). -/
def arrayWork (s : State) (c : Cmd) (array : Bool) (t : Nat) : Option ArrayWork :=
  if c.opcode = 0x0101 then some (matmulWork c t)
  else if c.opcode = 0x0102 then some (bwdWork (bwdOf s c) array t)
  else if c.opcode = 0x0103 ∨ c.opcode = 0x0104 then some (winWork (winOf s c) t)
  else none

/-- Output blocks of a tile. -/
def ArrayWork.blocks (w : ArrayWork) : Nat := (w.rows / 64) * (w.cols / 64)

/-- Block of element `e` of a tile, in the order of R102. -/
def ArrayWork.blockOf (w : ArrayWork) (e : Nat) : Nat := e / max w.cols 1 / 64 * (w.cols / 64) + e % max w.cols 1 / 64

/-- Word of element `e` in a Tarn half where the tile has place `p`: its blocks of 64 × 64 follow one another. -/
def tarnIndex (w : ArrayWork) (p e : Nat) : Nat :=
  (p * w.blocks + w.blockOf e) * 4096 + e / max w.cols 1 % 64 * 64 + e % max w.cols 1 % 64

/-- The output blocks of a tile that hold elements within the extents. -/
def ArrayWork.held (w : ArrayWork) : List Nat :=
  (((List.range (w.rows * w.cols)).filter (fun e => (w.at_ e).isSome)).map w.blockOf).eraseDups

/-- The tiles of an array in the order in which a course first takes them. -/
def tilesOf (k : List Step) (array : Bool) : List Nat := (k.filterMap (fun x => (x.part array).map (·.tile))).eraseDups

/-- The number of a tile in a course; past them all where the course lacks it. -/
def tileNumber (k : List Step) (array : Bool) (t : Nat) : Nat := (tilesOf k array).idxOf t

/-- Tiles that a Tarn half holds (R81, R107). -/
def tarnPlaces (w : ArrayWork) : Nat := max 1 (32 / max w.blocks 1)

/-- The place of a tile in its Tarn half: the places are taken in turn. -/
def placeOf (k : List Step) (array : Bool) (w : ArrayWork) (t : Nat) : Nat := tileNumber k array t % tarnPlaces w

/-- Drained blocks of an array. -/
def Mere.drained (m : Mere) (array : Bool) : List (Nat × Nat) := if array then m.drainedB else m.drainedA

/-- Whether the tile that had the place before has been drained (R92). -/
def placeFree (s : State) (c : Cmd) (m : Mere) (k : List Step) (array : Bool) (w : ArrayWork) (t : Nat) : Bool :=
  let i := tileNumber k array t
  if i < tarnPlaces w then true
  else
    match (tilesOf k array)[i - tarnPlaces w]? with
    | none => true
    | some o => (match arrayWork s c array o with
      | some x => x.held.all (fun b => (m.drained array).contains (o, b))
      | none => true)

/-- The format in which the scratchpad holds operand `o`: that of its packet, or E4M3 for F4 in promoted form (R145). -/
def operandFmt (s : State) (c : Cmd) (o : Nat) : Nat :=
  let f := match c.opcode with
    | 0x0101 => c.arg (if o = 0 then 0x18 else 0x19) 1 % 16
    | 0x0102 => ((bwdOf s c).operand o).2
    | _ => if o = 0 then (winOf s c).fa else (winOf s c).fb
  if f = 6 ∧ isPromoted s c (c.arg 0x32 1) then 3 else f

/-- The stored elements of the operands as an array reads them in step `n` of a course: those of the loads that the regions
hold then (R190). -/
def padOperands (s : State) (c : Cmd) (pad : Map Byte) (k : List Step) (array : Bool) (n : Nat) : Nat → Nat → Nat → Num :=
  let now (i : Nat) : Option (Nat × Fill) :=
    let j := loadsBy k i n
    if j = 0 then none else ((loadsOf k i)[j - 1]?).map (fun e => ((j - 1) % 2, e.2))
  let side := if array then 2 else 1
  let here : List (Nat × Nat × Fill) := [0, side].filterMap (fun i => (now i).map (fun e => (i, e)))
  fun o r q =>
    match here.find? (fun e => e.2.2.operand == o) with
    | some e => padElem pad (operandRegion c e.1) e.2.1 e.2.2 (operandFmt s c o) r q
    | none => .fin false 0 0

/-- The running maximum of a maximum pool over positions `k0`, `n` of them (R186). -/
def mostOf (v : Win) (get : Nat → Nat → Nat → Num) (tau : Num) (m q k0 n : Nat) (t : Option Word) : Option Word :=
  (((List.range n).map (fun i => k0 + i)).filterMap (v.inRow m)).foldl (fun a r =>
    let w := toF32 (Num.mul (get 0 r q) tau)
    some (match a with
      | none => w
      | some x => fmax x w)) t

/-- The promotions of a part into a Tarn half at place `p` (R105, R118). -/
def promotePart (s : State) (c : Cmd) (w : ArrayWork) (get : Nat → Nat → Nat → Num) (tau : Num) (x : Part) (p : Nat)
    (tarn : Map Word) : Map Word :=
  (List.range (w.rows * w.cols)).foldl (fun t e =>
    match w.at_ e with
    | none => t
    | some q =>
      let i := tarnIndex w p e
      let old : Option Word := if x.slice = 0 ∨ !mhas t i then none else some (mget 0 t i)
      let new : Option Word :=
        if w.most then mostOf (winOf s c) get tau q.1 q.2 (x.first * w.chunk) (min w.red ((x.first + x.count) * w.chunk) - x.first * w.chunk) old
        else chunkTotal (w.prod get q.1 q.2) tau w.chunk w.red x.count x.first old
      match new with
      | some v => mput t i v
      | none => if x.last then mput t i 0 else mdel t i) tarn

/-- The tensor factor of a tile: the product of its operands' tensor-scale registers (R116). -/
def Mere.tau (m : Mere) (l : List Nat) : Num := (l.map (fun o => mget (.fin false 1 0) m.scales o)).foldl Num.mul (.fin false 1 0)

/-- The array cycles that a Mere was held before an event; how many is open (R196). -/
def stalled (s : State) (mere : Nat) : State :=
  let r := getStream s (mereDie mere)
  tickFree (setStream s (mereDie mere) { r with sstall := satAdd 64 r.sstall (Config.freePick s.freeCtr) })

/-- The single-bit errors that reads of a Mere's SRAM corrected on the way (R80). -/
def corrected (s : State) (fixed : Nat) : State := { s with rel := { s.rel with rsramcor := satAdd 32 s.rel.rsramcor fixed } }

/-- Whether an array may take its part of step `n`: every load of the step landed, the other array of MATMUL_BWD past the
steps before it, the tile's place free (R92, R96, R183, R190). -/
def partReady (s : State) (c : Cmd) (m : Mere) (k : List Step) (array : Bool) (n : Nat) (x : Part) : Bool :=
  [0, if array then 2 else 1].all (fun i => loadsBy k i n == 0 || loadDone m c.cid k i (loadsBy k i n - 1)) &&
  (c.opcode != 0x0102 || m.past k n (!array)) &&
  (x.slice != 0 || (match arrayWork s c array x.tile with
    | some w => placeFree s c m k array w x.tile
    | none => true))

/-- Output bytes of a run of VECTOR or a group of STATS: the ranges that it writes (R94, R125). -/
def runRanges (s : State) (c : Cmd) (x : Part) : List (Nat × Nat) :=
  let o := readDesc s (c.arg 0x12 2)
  if c.opcode = 0x0106 then
    let w := if statsKind c = 0 then 4 else 8
    if x.last then [(o.home + w * x.tile, w)] else []
  else
    let n := c.arg 0x1C 4
    match vecInt c with
    | some ty => [(o.home + 4096 * x.tile * intBytes ty, min 4096 (n - 4096 * x.tile) * intBytes ty)]
    | none =>
      let f := if (vectorOut s c).fmt = 6 ∧ isPromoted s c (c.arg 0x33 1) then 3 else (vectorOut s c).fmt
      ((lineSegs o.p0 (4096 * x.tile) (min n (4096 * x.tile + 4096))).flatMap (Seg.ranges f o.p0)).map (fun r =>
        (o.home + (if f ≠ (vectorOut s c).fmt then 64 else 0) + r.1, r.2))

/-! ## Staging (R89, R191, R192) -/

/-- The run of a command under its issue checks (R110). -/
def computeRun (s : State) (c : Cmd) : Run :=
  match c.opcode with
  | 0x0101 => checked (matmulIssue s c) (matmulRun s c)
  | 0x0102 => checked (bwdIssue s c) (bwdRun s c)
  | 0x0105 => checked (vectorIssue s c) (vectorRun s c)
  | 0x0106 => checked (statsIssue s c) (statsRun s c)
  | _ => checked (winIssue s c) (winRun s c)

/-- The writes of a command, where its work has been done or now. -/
def writesOf (s : State) (c : Cmd) : List Effect :=
  match c.result with
  | some r => r.effects
  | none => (computeRun (ownView s c.cid) c).result.effects

/-- Byte `a` as the writes of a list leave it. -/
def writtenByte (a : Nat) : List Effect → Option Byte
  | [] => none
  | .write b d :: t =>
    match writtenByte a t with
    | some x => some x
    | none => if b ≤ a ∧ a < b + d.length then d[a - b]? else none
  | _ :: t => writtenByte a t

/-- The bytes of the ranges as a command writes them; a byte that it leaves undefined is free (R111). -/
def bytesIn (free : Nat) (e : List Effect) (rs : List (Nat × Nat)) : List (Nat × Bytes) :=
  rs.map (fun r => (r.1, (List.range r.2).map (fun i => (writtenByte (r.1 + i) e).getD (Config.freeByte free (r.1 + i)))))

/-- Output of an array: descriptor, format, promoted form, add mode. -/
def drainTarget (s : State) (c : Cmd) (array : Bool) (tile : Nat) : Desc × Nat × Bool × Bool :=
  let b := bwdOf s c
  let add := bit (c.arg 0x1B 1) 0
  if c.opcode = 0x0102 then
    let u := if array then (tile - ceilDiv b.m b.geo.tm * b.units) / max (ceilDiv b.n b.geo.tn) 1 else tile % max b.units 1
    let addW := bit (c.xarg 0xC4 1) 0
    if u < ceilDiv b.k b.geo.tk then (if array then (b.dw, b.fw, false, addW) else (b.dx, b.fo, isPromoted s c (c.arg 0x33 1), add))
    else if array then (b.db, b.fdb, false, addW)
    else (b.g, b.fg, false, add)
  else (readDesc s (c.arg 0x14 2), c.arg 0x1A 1 % 16, isPromoted s c (c.arg 0x33 1), add)

/-- Rising numbers as runs: first and length. -/
def runsIn : List Nat → List (Nat × Nat)
  | [] => []
  | a :: t =>
    match runsIn t with
    | [] => [(a, 1)]
    | r :: u => if r.1 = a + 1 then (a, r.2 + 1) :: u else (a, 1) :: r :: u

/-- The output elements of block `k` of a tile: for each stored row its runs of columns. -/
def blockSegs (w : ArrayWork) (k : Nat) : List Seg :=
  let es := ((List.range (w.rows * w.cols)).filter (fun e => w.blockOf e == k)).filterMap w.at_
  ((es.map (·.1)).eraseDups).flatMap (fun r =>
    (runsIn ((es.filter (fun p => p.1 == r)).map (·.2))).map (fun q => { row := some r, col := q.1, len := q.2 }))

/-- Where the scratchpad rows of a staged block lie in HBM: for each run its code ranges and its scale ranges (R63, R64, R144). -/
def stagedRanges (base fmt : Nat) (promoted : Bool) (p0 : Nat) (g : Seg) : List (Nat × Nat) × List (Nat × Nat) :=
  let r := g.row.getD 0
  if fmt = 6 ∧ promoted then ([(base + 64 + r * p0 + g.col, g.len)], [])
  else if isScaled fmt then
    let b (j : Nat) := r * ceilDiv p0 (blockLen fmt) + j
    ((g.blocks fmt).map (fun j => (base + headerBytes fmt + codesOff fmt (b j), blockBytes fmt)),
     (g.blocks fmt).map (fun j => (base + headerBytes fmt + scaleOff fmt (b j), scaleBytes fmt)))
  else ([(base + (r * p0 + g.col) * fwidth fmt / 8, g.len * fwidth fmt / 8)], [])

/-- The slots of a coded output that hold elements of the runs (R187). -/
def codedRanges (v : Win) (l : List Seg) : List (Nat × Nat) :=
  (fmSlots (fmRow v.o.p0) l).map (fun n => (v.o.home + n * fmSlot (fmBits v.fmOut), fmSlot (fmBits v.fmOut)))

/-- A block, its bytes in HBM and its rows of codes and scales in a staging block of reg_oa or reg_ob. -/
def stageBlock (s : State) (c : Cmd) (array : Bool) (w : ArrayWork) (tile block : Nat) : Staged × List (Bytes × Bytes) :=
  let o := drainTarget s c array tile
  let base := if o.2.2.2 then o.1.partner else o.1.home
  let segs := blockSegs w block
  let e := writesOf s c
  let all (rs : List (Nat × Nat)) : Bytes := (bytesIn s.freeCtr e rs).flatMap (·.2)
  let v := winOf s c
  if (c.opcode = 0x0103 ∨ c.opcode = 0x0104) ∧ v.fmOut ≠ 0 then
    let d := bytesIn s.freeCtr e (codedRanges v segs)
    ({ cid := c.cid, tile := tile, block := block, data := d }, d.map (fun x => (x.2, [])))
  else
    let rs := segs.map (stagedRanges base o.2.1 o.2.2.1 o.1.p0)
    ({ cid := c.cid, tile := tile, block := block, data := bytesIn s.freeCtr e (rs.flatMap (fun r => r.1 ++ r.2)) },
     rs.map (fun r => (all r.1, all r.2)))

/-- Rows of a staging block laid in a region from row `first` on; what lies beyond the pitch is not written. -/
def stagePad (g : Region) (first : Nat) (rows : List (Bytes × Bytes)) (pad : Map Byte) : Map Byte :=
  ((List.range rows.length).zip rows).foldl (fun p e =>
    padPut (padPut p (g.rowAt 0 (first + e.1)) (e.2.1.take (64 * g.pitch))) (g.scaleRowAt 0 (first + e.1)) (e.2.2.take (64 * g.scalePitch))) pad

/-- The blocks staged on an array's side. -/
def Mere.staged (m : Mere) (array : Bool) : List Staged := if array then m.stagedB else m.stagedA

/-- The output of a run or a group in its half of the staging area, as STAGED_BLOCK_WRITEBACK finds it (R192). -/
def stageRun (s : State) (c : Cmd) (m : Mere) (n : Nat) (x : Part) : Mere :=
  let rs := runRanges s c x
  if rs.isEmpty then m
  else
    let d := bytesIn s.freeCtr (writesOf s c) rs
    { m with
      pad := padPut m.pad ((operandRegion c 0).rowAt (n % 2) 0) (d.flatMap (·.2))
      stagedA := m.stagedA ++ [{ cid := c.cid, tile := x.tile, block := 0, data := d }] }

/-! ## Slices (R118, R190, R192, R196) -/

/-- ARRAY_SLICE_DONE: the next part of an array's course, whose loads have landed, promotes its chunks from the scratchpad into
the Tarn half; a run of VECTOR or STATS leaves its output in its half of the staging area. The loads that no later step takes
fall free. The cycles the array was held are open. -/
def sliceDone (s : State) (c : Cmd) (mere : Nat) (array : Bool) (tile slice fixed : Nat) : State :=
  let m := getMere s mere
  let v := ownView s c.cid
  let k := courseAt v c mere
  let n := nextPart k array (m.steps array)
  match (k[n]?).bind (fun x => x.part array) with
  | none => s
  | some x =>
    if m.running == some c.cid && x.tile == tile && x.slice == slice && partReady v c m k array n x &&
        (!c.onVectors || decide (m.stagedA.length < 2)) then
      let m1 : Mere := if c.onVectors then stageRun s c m n x
        else match arrayWork v c array tile with
        | none => m
        | some w =>
          let upd := promotePart v c w (padOperands v c m.pad k array n) (m.tau w.tau) x (placeOf k array w tile)
          if array then { m with tarnB := upd m.tarnB } else { m with tarnA := upd m.tarnA }
      let m2 : Mere := if array then { m1 with stepsB := n + 1 } else { m1 with stepsA := n + 1 }
      corrected (stalled (setMere s mere m2) mere) fixed
    else s

/-- ARRAY_SLICE_DONE. -/
def execArraySliceDone (cid mere : Nat) (at_ : ArrayTile) (slice fixed : Nat) (s : State) : Ans :=
  onUnit (decide (mere < 272)) "Mere" mere
    (match findCmd s cid with
      | some c => if c.inFlight && decide (0x0101 ≤ c.opcode ∧ c.opcode ≤ 0x0107) then sliceDone s c mere at_.array at_.tile slice fixed else s
      | none => s)

/-! ## Combines, halos (R106, R183) -/

/-- The members that member `j` of `p` receives from, in order of level (R106). -/
def senders (j p : Nat) : List Nat := ([1, 2, 4, 8].filter (fun d => j % (2 * d) == 0 && decide (j + d < p))).map (fun d => j + d)

/-- Whether an array's totals are split over the members of a group: array B of MATMUL_BWD has whole columns (R154). -/
def isSplit (c : Cmd) (array : Bool) : Bool := decide (1 < (geoOf c).parts) && !(c.opcode == 0x0102 && array)

/-- Whether an array has promoted the last chunk of a tile on a Mere. -/
def tileDone (m : Mere) (k : List Step) (array : Bool) (t : Nat) : Bool :=
  ((List.range k.length).zip k).any (fun e => (e.2.part array).any (fun x => x.tile == t && x.last) && decide (e.1 < m.steps array))

/-- Combines that a Mere has received for a tile. -/
def Mere.received (m : Mere) (array : Bool) (t : Nat) : Nat := (m.combined.filter (fun e => e.1 == array && e.2.1 == t)).length

/-- Whether every combine of member `j` for a tile has come. -/
def combinedAll (c : Cmd) (m : Mere) (array : Bool) (t j : Nat) : Bool := m.received array t == (senders j (geoOf c).parts).length

/-- The rows of FP32 totals of a tile's blocks in reg_c, four blocks of 64 rows in turn. -/
def combinePad (c : Cmd) (w : ArrayWork) (val : Nat → Word) (pad : Map Byte) : Map Byte :=
  let g := regionAt c 0x90
  ((List.range (w.rows * w.cols)).filter (fun e => (w.at_ e).isSome)).foldl (fun p e =>
    padPut p (g.rowAt 0 (w.blockOf e % 4 * 64 + e / max w.cols 1 % 64) + 4 * (e % max w.cols 1 % 64)) (toLe 4 (val e).toNat)) pad

/-- COMBINE_RECEIVE (R106): the next member's totals of a tile pass through reg_c into this member's Tarn half, its own total
as the left operand; the sender's blocks are drained. -/
def combineAdd (s : State) (c : Cmd) (mere sender : Nat) (array : Bool) (tile fixed : Nat) : State :=
  let m := getMere s mere
  let f := getMere s sender
  let v := ownView s c.cid
  match indexOf s c mere, indexOf s c sender, arrayWork v c array tile with
  | some i, some j, some w =>
    let a := groupMember c i
    let b := groupMember c j
    let k := courseAt v c mere
    let q := courseAt v c sender
    if m.running == some c.cid && f.running == some c.cid && isSplit c array && a.1 == b.1 &&
        (senders a.2 (geoOf c).parts)[m.received array tile]? == some b.2 && tileDone m k array tile && tileDone f q array tile &&
        combinedAll c f array tile b.2 then
      let from_ := if array then f.tarnB else f.tarnA
      let val (e : Nat) : Word := mget 0 from_ (tarnIndex w (placeOf q array w tile) e)
      let add (t : Map Word) : Map Word :=
        ((List.range (w.rows * w.cols)).filter (fun e => (w.at_ e).isSome)).foldl (fun t e =>
          let x := tarnIndex w (placeOf k array w tile) e
          mput t x (fadd (mget 0 t x) (val e))) t
      let gone := w.held.map (fun b => (tile, b))
      let s1 := setMere s sender
        (if array then { f with drainedB := f.drainedB ++ gone } else { f with drainedA := f.drainedA ++ gone })
      let m1 : Mere := { m with
        pad := combinePad c w val m.pad, combined := m.combined ++ [(array, tile, b.2)]
        tarnA := if array then m.tarnA else add m.tarnA, tarnB := if array then add m.tarnB else m.tarnB }
      corrected (stalled (setMere s1 mere m1) mere) fixed
    else s
  | _, _, _ => s

/-- COMBINE_RECEIVE. -/
def execCombineReceive (cid mere sender : Nat) (at_ : ArrayTile) (fixed : Nat) (s : State) : Ans :=
  onUnit (decide (mere < 272 ∧ sender < 272)) "Mere" mere
    (match findCmd s cid with
      | some c => if c.inFlight then combineAdd s c mere sender at_.array at_.tile fixed else s
      | none => s)

/-- The next load of reg_s on a Mere whose halo rows have not come. -/
def nextHalo (m : Mere) (cid : Nat) (k : List Step) : Option (Nat × Fill) :=
  (((List.range (loadsOf k 0).length).zip (loadsOf k 0)).find? (fun e => e.2.2.hasHalo && !m.halos.contains (cid, e.1))).map (fun e => (e.1, e.2.2))

/-- Whether a Mere has loaded the halo rows of a load, in a load before number `lim` (R183). -/
def holdsRows (m : Mere) (cid : Nat) (k : List Step) (f : Fill) (lim : Nat) : Bool :=
  ((List.range (loadsOf k 0).length).zip (loadsOf k 0)).any (fun e =>
    decide (e.1 < lim) && loadDone m cid k 0 e.1 && (f.rows.filter (·.1)).all (fun r => e.2.2.rows.any (fun x => x.2 == r.2)))

/-- HALO_RECEIVE (R183): the halo rows of the next load of reg_s come from the matching member of the group that holds the
stripe before, on the same die, once it has loaded them; they are the operand's own values; single-bit
errors corrected in the sender's pad count (R80). -/
def haloIn (s : State) (c : Cmd) (mere sender fixed : Nat) : State :=
  let m := getMere s mere
  let f := getMere s sender
  let v := ownView s c.cid
  let k := courseAt v c mere
  match nextHalo m c.cid k, indexOf s c mere, indexOf s c sender with
  | some h, some i, some j =>
    if m.seats c.cid && f.seats c.cid && mayLoad m c.cid k 0 h.1 && mereDie mere == mereDie sender &&
        (groupMember c i).2 == (groupMember c j).2 &&
        holdsRows f c.cid (courseAt v c sender) h.2 (if mere = sender then h.1 else f.landed c.cid 0) then
      let m1 : Mere := { m with halos := m.halos ++ [(c.cid, h.1)] }
      let m2 : Mere := match sourceOf v c h.2.operand h.2.segs with
        | none => m1
        | some x => { m1 with pad := fillPad x (operandRegion c 0) (h.1 % 2) h.2 id m.pad }
      corrected (stalled (setMere s mere (seatsLanded m2 c k)) mere) fixed
    else s
  | _, _, _ => s

/-- HALO_RECEIVE. -/
def execHaloReceive (cid mere sender fixed : Nat) (s : State) : Ans :=
  onUnit (decide (mere < 272 ∧ sender < 272)) "Mere" mere
    (match findCmd s cid with
      | some c => if c.inFlight && (c.opcode == 0x0103 || c.opcode == 0x0104) then haloIn s c mere sender fixed else s
      | none => s)

/-! ## Drains (R87, R89, R191) -/

/-- DRAIN_OUTPUT_BLOCK (R89, R191): a block whose last chunk is promoted, and whose totals are combined, goes through the
program and the conversion into the free one of the two staging blocks of reg_oa or reg_ob. -/
def drainBlock (s : State) (c : Cmd) (mere : Nat) (array : Bool) (tile block fixed : Nat) : State :=
  let m := getMere s mere
  let v := ownView s c.cid
  let k := courseAt v c mere
  match indexOf s c mere, arrayWork v c array tile with
  | some i, some w =>
    let j := (groupMember c i).2
    if m.running == some c.cid && tileDone m k array tile && (!isSplit c array || (j == 0 && combinedAll c m array tile 0)) &&
        w.held.contains block && !(m.drained array).contains (tile, block) && decide ((m.staged array).length < 2) then
      let st := stageBlock s c array w tile block
      let pad := stagePad (regionAt c (if array then 0x50 else 0x40)) (64 * ((m.drained array).length % 2)) st.2 m.pad
      let m1 : Mere :=
        if array then { m with pad := pad, stagedB := m.stagedB ++ [st.1], drainedB := m.drainedB ++ [(tile, block)] }
        else { m with pad := pad, stagedA := m.stagedA ++ [st.1], drainedA := m.drainedA ++ [(tile, block)] }
      corrected (tickFree (setMere s mere m1)) fixed
    else s
  | _, _ => s

/-- DRAIN_OUTPUT_BLOCK. -/
def execDrainOutputBlock (cid mere : Nat) (at_ : ArrayTile) (block fixed : Nat) (s : State) : Ans :=
  onUnit (decide (mere < 272)) "Mere" mere
    (match findCmd s cid with
      | some c => if c.inFlight && !c.onVectors then drainBlock s c mere at_.array at_.tile block fixed else s
      | none => s)

/-- STAGED_BLOCK_WRITEBACK (R191): the oldest staged block has left for HBM, where its bytes are undefined until the commit
(R48); its staging block falls free. -/
def execStagedBlockWriteback (mere : Nat) (array : Bool) (s : State) : Ans :=
  let m := getMere s mere
  onUnit (decide (mere < 272)) "Mere" mere
    (setMere s mere (if array then { m with stagedB := m.stagedB.drop 1 } else { m with stagedA := m.stagedA.drop 1 }))

end Sys2Proof.Machine
end

