-- ==== Sys2Proof/Machine/Package.lean ====
section
/-! DEFINITION. Bundles (R244-R247, R253), lost dies (R254), rejoins (R256-R258), the die register block (R259). -/

namespace Sys2Proof.Machine

/-! ## Bundles -/

/-- The dies at the two ends of a bundle (R244). -/
def bundleEnds (b : Nat) : Nat × Nat :=
  if b = 0 then (0, 1) else if b = 1 then (0, 2) else if b = 2 then (1, 3) else if b = 3 then (0, 4) else if b = 4 then (1, 4)
  else if b = 5 then (0, 5) else (1, 5)

/-- Positions that an assembly map of either die excludes: the union where the two differ (R247). -/
def Bundle.assembly (v : Bundle) : List Nat := (v.fused ++ v.fusedFar).eraseDups

/-- Positions in none of the maps and not excluded in this power cycle. -/
def Bundle.good (v : Bundle) : List Nat :=
  (List.range 68).filter (fun p => !v.assembly.contains p && !v.nonVolatile.contains p && !v.cycle.contains p)

/-- A position excluded in this power cycle (R246, R247): after two cycles in a row before, for good. -/
def Bundle.exclude (v : Bundle) (p : Nat) : Bundle :=
  { v with cycle := addTo v.cycle p, nonVolatile := if 2 ≤ mget 0 v.history p then addTo v.nonVolatile p else v.nonVolatile }

/-- The lanes chosen at a training (R247): 64, or 32 at half width, or none. A bundle that was at half width in this power
cycle stays there (R246). -/
def Bundle.train (v : Bundle) : Bundle :=
  let g := v.good
  let base := { v with inRow := 0, failSeq := none, blame := [], idleNear := 0, idleFar := 0 }
  if 64 ≤ g.length ∧ !v.halved then { base with inUse := g.take 64, state := 1 }
  else if 32 ≤ g.length then { base with inUse := g.take 32, state := 2, halved := true }
  else { base with inUse := [], state := 0 }

/-- Whether a bundle carries flits: at full or half width. -/
def Bundle.carries (v : Bundle) : Bool := v.state == 1 || v.state == 2

/-- The bundles that are down, as a mask. -/
def bundlesDown (s : State) : Nat := maskOf ((List.range 7).filter (fun b => (getBundle s b).state == 0))

/-- Whether a bundle is down. -/
def isDown (s : State) (b : Nat) : Bool := (getBundle s b).state == 0

/-- The die that a bundle's going down loses (R254). Bundle 5 or 6 loses the compute die behind it once the other compute
die is lost, since K then reaches it by no way. -/
def lostBy (s : State) (b : Nat) : Option Nat :=
  if b = 0 then some (if isDown s 5 then 0 else 1)
  else if b = 1 then some 2
  else if b = 2 then some 3
  else if b = 3 ∨ b = 4 then (if isDown s 3 && isDown s 4 then some 4 else none)
  else if dieState s (6 - b) ≠ 1 then some (b - 5)
  else if isDown s 5 && isDown s 6 then some 5
  else none

/-- A bundle goes down (R253, R254, R259). The loss of K is a fault of K (R406), and DSTAT tells it. -/
def bundleDown (s : State) (b : Nat) : State :=
  let v := getBundle s b
  if !v.carries then s
  else
    let s1 := setBundle s b { v with state := 0, inUse := [] }
    let s2 := { s1 with dies := { s1.dies with dseen := s1.dies.dseen ||| BitVec.ofNat 32 (2 ^ (8 + b)) } }
    match lostBy s2 b with
    | some d =>
      let s3 := containError s2 (.die d (256 + b) (bundlesDown s2))
      if d = 5 then markLost s3 [5] else s3
    | none => s2

/-- The positions retired in this power cycle as the 68-bit mask of kind 0x19. -/
def cycleMask (v : Bundle) : Bytes := toLe 9 (maskOf v.cycle)

/-- A position retired in service (R246): a free one replaces it, the bundle goes to half width, or down. -/
def retirePosition (s : State) (b p : Nat) : State :=
  let v := ({ getBundle s b with blame := mdel (getBundle s b).blame p } : Bundle).exclude p
  let free := v.good.filter (fun x => !v.inUse.contains x)
  if (v.state = 1 ∧ 64 ≤ v.good.length) ∨ (v.state = 2 ∧ 32 ≤ v.good.length) then
    setBundle s b { v with inUse := v.inUse.map (fun x => if x = p then free.headD x else x) }
  else if 32 ≤ v.good.length then
    let w := { v with inUse := v.good.take 32, state := 2, halved := true }
    logNote (setBundle s b w) 0x19 (bundleEnds b).1 b (cycleMask w)
  else bundleDown (setBundle s b v) b

/-- The receiver's count starts again: the near end's where the far end sent (R253). -/
def Bundle.heard (v : Bundle) (farEnd : Bool) : Bundle := if farEnd then { v with idleNear := 0 } else { v with idleFar := 0 }

/-- One more CRC failure of flit `seq` of a direction (R245): a failure of another flit tells that the earlier one, replayed,
has passed. -/
def Bundle.fails (v : Bundle) (farEnd : Bool) (seq : Nat) : Bundle :=
  if v.failSeq = some (farEnd, seq) then { v with inRow := v.inRow + 1 }
  else
    let w := match v.failSeq with
      | some f => v.heard f.1
      | none => v
    { w with failSeq := some (farEnd, seq), inRow := 1 }

/-- A bundle flit of sequence number `seq` fails its CRC (R245, R246): the sender replays from it on, go-back-N over its 256
flits, and the lane at fault is blamed; the eighth failure of the flit in a row retrains the bundle at its width, the eighth
blame of a window retires the position. -/
def flitFails (s : State) (b lane : Nat) (farEnd : Bool) (seq : Nat) (retrainOk : Bool) : State :=
  let v := (getBundle s b).fails farEnd (seq % 256)
  if !v.carries then s
  else
    let p := v.inUse.getD lane 68
    let n := mget 0 v.blame p + 1
    let v1 : Bundle := { v with replays := satAdd 32 v.replays 1, blame := mput v.blame p n }
    let v2 : Bundle := if 8 ≤ v1.inRow then { v1 with inRow := 0, failSeq := none, idleNear := 0, idleFar := 0 } else v1
    let s1 := emit (setBundle s b v2) (.resend b (seq % 256))
    let s2 := if 8 ≤ v1.inRow ∧ !retrainOk then bundleDown s1 b else s1
    if 8 ≤ n ∧ p < 68 ∧ (getBundle s2 b).carries then retirePosition s2 b p else s2

/-- BUNDLE_FLIT_CRC_FAIL (R245). -/
def execBundleFlitCrcFail (b : Nat) (flit : BundleFlit) (retrainOk : Bool) (s : State) : Ans :=
  onUnit (decide (b < 7)) "bundle" b (capSync s (flitFails s b flit.lane flit.farEnd flit.seq retrainOk))

/-- BUNDLE_WINDOW_END (R246): the blame counts restart. -/
def execBundleWindowEnd (b : Nat) (s : State) : Ans :=
  onUnit (decide (b < 7)) "bundle" b (setBundle s b { getBundle s b with blame := [] })

/-- The die at the end of a bundle that sends. -/
def senderOf (b : Nat) (farEnd : Bool) : Nat := if farEnd then (bundleEnds b).2 else (bundleEnds b).1

/-- BUNDLE_LIVENESS_SEND (R253): the end sends a liveness flit, and the other end's count starts again; a flit from a lost
die is discarded (R254). -/
def execBundleLivenessSend (b : Nat) (farEnd : Bool) (s : State) : Ans :=
  let v := getBundle s b
  let w := if dieState s (senderOf b farEnd) = 2 then v else v.heard farEnd
  onUnit (decide (b < 7)) "bundle" b (if v.carries then emit (setBundle s b w) (.bundleFlit b) else s)

/-- BUNDLE_LIVENESS_TIMEOUT (R253): a receiver whose count has reached 2^16 declares the bundle down. -/
def execBundleLivenessTimeout (b : Nat) (s : State) : Ans :=
  let v := getBundle s b
  onUnit (decide (b < 7)) "bundle" b (if v.idleNear = 65536 ∨ v.idleFar = 65536 then capSync s (bundleDown s b) else s)

/-- Cycles of a bundle in 1 µs (R244). -/
def bundleCycles (b : Nat) : Nat := if b < 3 then 2000 else if b < 5 then 1000 else 500

/-- The receivers' counts after 1 µs without a flit. -/
def Bundle.idle (v : Bundle) (b : Nat) : Bundle :=
  if !v.carries then v
  else { v with idleNear := min 65536 (v.idleNear + bundleCycles b), idleFar := min 65536 (v.idleFar + bundleCycles b) }

/-- Positions excluded by the tests of a training. -/
def excludeAll (b : Nat) (bad : List (Nat × Nat)) (v : Bundle) : Bundle :=
  (bad.filter (fun e => e.1 == b)).foldl (fun v e => v.exclude e.2) v

/-- The entry of a bundle whose two assembly maps differ (R247): the union as a 68-bit mask. -/
def logMaps (s : State) (b : Nat) : State :=
  let v := getBundle s b
  if maskOf v.fused.eraseDups = maskOf v.fusedFar.eraseDups then s
  else logNote s 0x18 (bundleEnds b).1 b (toLe 9 (maskOf v.assembly))

/-- Bundles trained in turn (R247); one that comes up at half width writes its entry. -/
def trainBundles (bad : List (Nat × Nat)) : List Nat → State → State
  | [], s => s
  | b :: t, s =>
    let v := (excludeAll b bad (getBundle s b)).train
    let s1 := setBundle (logMaps s b) b v
    trainBundles bad t (if v.state = 2 ∧ !(getBundle s b).halved then logNote s1 0x19 (bundleEnds b).1 b (cycleMask v) else s1)

/-! ## Identities (R249, R250) -/

/-- The type of the die at an index: C0, C1, X0, X1, S, K, then the base dies of H0 to H7. -/
def typeAt (i : Nat) : Nat := if i < 2 then 1 else if i < 4 then 2 else if i = 4 then 3 else if i = 5 then 4 else 5

/-- Its position. -/
def positionAt (i : Nat) : Nat := if i < 4 then i % 2 else if i < 6 then 0 else i - 6

/-- The record fused in a die of this module (R249). Its die serial is the part's own: free. -/
def identity (s : State) (i : Nat) : Bytes :=
  let b := toLe 1 (typeAt i) ++ toLe 1 (positionAt i) ++ toLe 1 0x42 ++ toLe 1 1 ++ toLe 4 0 ++ toLe 8 s.ctl.serial.toNat ++
    toLe 8 (Config.dieSerial i) ++ toLe 4 0
  b ++ toLe 4 (crc32c b)

/-- The record found at an index: another one than the fused where discovery or a rejoin found it. -/
def identityAt (s : State) (i : Nat) : Bytes := mget (identity s i) s.dies.found i

/-- Whether a record passes (R250): its CRC, its type and position, K's stepping, K's package serial. -/
def identityOk (s : State) (i : Nat) (b : Bytes) : Bool :=
  b.length == 32 && field b 0x1C 4 == crc32c (b.take 0x1C) && field b 0 1 == typeAt i && field b 1 1 == positionAt i &&
  slice b 2 2 == slice (identityAt s 5) 2 2 && slice b 8 8 == slice (identityAt s 5) 8 8

/-- The identities of dies checked as a report finds them: the records found are kept, and the flag tells whether all
pass. -/
def checkIdentities (found : List (Nat × Bytes)) (l : List Nat) (s : State) : State × Bool :=
  let s1 : State := { s with dies := { s.dies with
    found := l.foldl (fun m i => match found.find? (fun e => e.1 == i) with
      | some e => mput m i e.2
      | none => mdel m i) s.dies.found } }
  (s1, l.all (fun i => identityOk s1 i (identityAt s1 i)))

/-! ## Qualification of stacks (R252) -/

/-- What a stack has pending is repaired (R240, R241): its known failing rows, and marked frames, none of them mapped. -/
def repairStack (s : State) (n : Nat) : State :=
  let s1 := repairRows n ((s.mem.stack n).failing.filter (fun r => !frameMapped s n (rowFrame r.1))) s
  ((s1.mem.stack n).marked.filter (fun f => !frameMapped s1 n f)).foldl (fun s f => retireFrame s n f) s1

/-- The bank of a row key. -/
def rowBank (key : Nat) : Nat := key / 2 ^ 32 % 2 ^ 16

/-- A failing row that a memory test finds: repaired under R240, or its frame is retired for the power cycle where the
retirement list is full (R241); else a bank without a spare row fails the stack (R368's example). The flag tells it. -/
def foundRow (s : State) (n key : Nat) : State × Bool :=
  let k := s.mem.stack n
  if (k.retired ++ k.volatileRetired).contains (rowFrame key) then (s, true)
  else if mget 0 k.sparesUsed (rowBank key) < 2 ∨ 4096 ≤ retireListLen s then
    (rowFails s n (rowFrame key) (key % 2 ^ 32) (rowBank key), true)
  else (s, false)

/-- The rows found in one stack, in turn. -/
def foundRows (n : Nat) : List Nat → State → State × Bool
  | [], s => (s, true)
  | key :: t, s =>
    let r := foundRow s n key
    let r2 := foundRows n t r.1
    (r2.1, r.2 && r2.2)

/-- One stack qualified: its identity, its interface, its tests, its rows. A stack that fails is not present. -/
def qualifyStack (found : List (Nat × Bytes)) (bad : List Nat) (rows : List (Nat × Nat)) (n : Nat) (s : State) : State × Bool :=
  let i := checkIdentities found [6 + n] s
  let r := foundRows n ((rows.filter (fun e => e.1 == n)).map (·.2)) (repairStack i.1 n)
  let ok := i.2 && !bad.contains n && r.2
  (setStackS r.1 n { r.1.mem.stack n with present := ok, selfRefresh := false }, ok)

/-- Every stack of a list qualified; the flag tells whether all passed. -/
def qualifyStacks (found : List (Nat × Bytes)) (bad : List Nat) (rows : List (Nat × Nat)) : List Nat → State → State × Bool
  | [], s => (s, true)
  | n :: t, s =>
    let r := qualifyStack found bad rows n s
    let r2 := qualifyStacks found bad rows t r.1
    (r2.1, r.2 && r2.2)

/-! ## Rejoins (R256-R258) -/

/-- The bundles of a die (R244). -/
def dieBundles (d : Nat) : List Nat :=
  if d = 0 then [0, 1, 3, 5] else if d = 1 then [0, 2, 4, 6] else if d = 2 then [1] else if d = 3 then [2] else [3, 4]

/-- What a rejoining die trains, in order, with the identities checked after each (R256 step 3). -/
def rejoinCourse (d : Nat) : List (List Nat × List Nat) :=
  if d = 0 then [([5], [0]), ([0], [0]), ([1, 3], [2])]
  else if d = 1 then [([6], [1]), ([0], [1]), ([2, 4], [3])]
  else if d = 2 then [([1], [2])]
  else if d = 3 then [([2], [3])]
  else [([3, 4], [4])]

/-- The steps of a course: bundles train, identities are checked; the first that fails ends it. -/
def trainCourse (bad : List (Nat × Nat)) (found : List (Nat × Bytes)) : List (List Nat × List Nat) → State → State × Bool
  | [], s => (s, true)
  | x :: t, s =>
    let s1 := trainBundles bad x.1 s
    let r := checkIdentities found x.2 s1
    if x.1.any (isDown s1) || !r.2 then (r.1, false) else trainCourse bad found t r.1

/-- Whether a partner that the rejoin needs is lost itself; a link die rejoins with its compute die. -/
def partnerGone (s : State) (d : Nat) : Bool :=
  (partners d).any (fun p => dieState s p != 1 && !(linkOf d).contains p)

/-- Domains of a list that were on, switched off and on again: what they held is lost, clusters start at their lowest
frequency (R385, R388). -/
def cycleDomains (s : State) (l : List Nat) : State :=
  let on := s.power.domains.filter (fun d => l.contains d)
  let s1 := domainsOff s l
  (clustersIn on).foldl (fun s c => setCluster s c { getCluster s c with freq := 600, limit := 6 })
    { s1 with power := { s1.power with domains := on.foldl addTo s1.power.domains } }

/-- An attempt begins (R256 step 1): the die's domains, and its link die's, are cycled; DSTAT reads 3; its bundles are to be
trained. -/
def rejoinBegin (s : State) (d : Nat) : State :=
  let all := d :: linkOf d
  let s1 := all.foldl (fun s x => setDie s x 3) (cycleDomains s (all.flatMap dieDomains))
  (dieBundles d).foldl (fun s b => setBundle s b { getBundle s b with state := 3, inUse := [] }) s1

/-- A failed attempt (R256): counted and logged; the third gives the die up, and ingest commands held for S complete with
DIE_LOST. A bundle that has not trained is down. -/
def rejoinFailed (s : State) (d step : Nat) (abandoned : Bool) : State :=
  let n := mget 0 s.dies.attempts d + 1
  let s1 := logNote { s with dies := { s.dies with
      rejoinFail := satAdd 16 s.dies.rejoinFail 1, attempts := mput s.dies.attempts d n
      waitingRetry := if n < 3 then addTo s.dies.waitingRetry d else dropFrom s.dies.waitingRetry d
      givenUp := if n < 3 then s.dies.givenUp else addTo s.dies.givenUp d
      bundles := s.dies.bundles.map (fun e => if e.2.state = 3 then (e.1, { e.2 with state := 0 }) else e) } }
    0x06 d n (toLe 1 (if abandoned then 0 else step))
  let s2 := (d :: linkOf d).foldl (fun s x => setDie s x 2) s1
  if d = 4 ∧ 3 ≤ n then
    settle (finishAll ((s2.cmds.filter (fun c => onSpring c.opcode)).map (fun c => (c, dieLost 4))) s2)
  else s2

/-- A rejoin that succeeds (R256, R257). -/
def rejoinDone (s : State) (d : Nat) : State :=
  let all := d :: linkOf d
  let s1 := all.foldl (fun s x => setDie s x 1) s
  let ports := all.flatMap diePorts
  { s1 with
    dies := { s1.dies with
      rejoinOk := satAdd 16 s1.dies.rejoinOk 1, attempts := mdel s1.dies.attempts d, waitingRetry := dropFrom s1.dies.waitingRetry d }
    ports := s1.ports.map (fun e => if ports.contains e.1 && e.2.enable && !e.2.loopFail then (e.1, { e.2 with state := 1 }) else e) }

/-- Steps 2 to 4 of an attempt, as the report finds them (R256): the self-test, the bundles in their order with the
identities, and for a compute die its stacks, whose contents are kept. -/
def rejoinSteps (s : State) (d : Nat) (rep : RejoinReport) : State :=
  if rep.failStep = some 1 ∨ rep.failStep = some 2 then rejoinFailed s d (rep.failStep.getD 0) false
  else
    let r := trainCourse rep.badPositions rep.identities (rejoinCourse d) s
    if !r.2 || rep.failStep == some 3 then rejoinFailed r.1 d 3 false
    else
      let q := qualifyStacks rep.identities rep.badStacks rep.repairedRows (dieStacks d) r.1
      if !q.2 || rep.failStep.isSome then rejoinFailed q.1 d 4 false else rejoinDone q.1 d

/-- REJOIN_ATTEMPT (R256, R258): with no report an attempt begins on a lost die that is not given up and waits for no
retry; a report ends the attempt under way. -/
def rejoinAttempt (s : State) (d : Nat) : Option RejoinReport → State
  | none =>
    if dieState s d = 2 ∧ !s.dies.givenUp.contains d ∧ !s.dies.waitingRetry.contains d then rejoinBegin s d else s
  | some rep =>
    if dieState s d = 3 then
      (if rep.partnerLost ∨ partnerGone s d then rejoinFailed s d 0 true else rejoinSteps s d rep)
    else s

/-- REJOIN_ATTEMPT. -/
def execRejoinAttempt (die : Nat) (rep : Option RejoinReport) (s : State) : Ans :=
  onUnit (decide (die < 5)) "die" die (capSync s (rejoinAttempt s die rep))

/-- REJOIN_RETRY_TIMER (R256, R258): the next attempt begins, once a lost partner is back. -/
def execRejoinRetryTimer (die : Nat) (s : State) : Ans :=
  onUnit (decide (die < 5)) "die" die
    (if s.dies.waitingRetry.contains die && dieState s die == 2 && !partnerGone s die then
       capSync s (rejoinBegin { s with dies := { s.dies with waitingRetry := dropFrom s.dies.waitingRetry die } } die)
     else s)

/-! ## The die register block (R259) -/

/-- DLINFO of a bundle. -/
def dlinfo (v : Bundle) : Nat :=
  let out := (v.assembly ++ v.nonVolatile ++ v.cycle).eraseDups
  maskOf ((out.filter (fun p => decide (64 ≤ p ∧ p < 68))).map (· - 64)) * 2 ^ 24 +
  ((v.assembly ++ v.nonVolatile).eraseDups.length) * 2 ^ 16 + v.cycle.length * 2 ^ 8 + v.inUse.length

/-- DLBAD of a bundle. -/
def dlbad (v : Bundle) : Nat := maskOf (((v.assembly ++ v.nonVolatile ++ v.cycle).eraseDups).filter (· < 64))

/-- The 4 bytes of the die register block at `off`. -/
def dieWord (s : State) (off : Nat) : Nat :=
  if off = 0 then ((List.range 6).map (fun d => dieState s d % 4 * 4 ^ d)).sum
  else if off = 4 then ((List.range 7).map (fun b => (getBundle s b).state % 4 * 4 ^ b)).sum
  else if off = 8 then s.dies.dseen.toNat
  else if off = 0xC then s.dies.rejoinFail * 65536 + s.dies.rejoinOk
  else if 0x40 ≤ off ∧ off < 0xB0 then
    let v := getBundle s ((off - 0x40) / 0x10)
    let o := (off - 0x40) % 0x10
    if o = 0 then dlbad v % 2 ^ 32 else if o = 4 then dlbad v / 2 ^ 32 else if o = 8 then dlinfo v else v.replays
  else 0

/-- A 4-byte write to the die register block. -/
def dieWrite (s : State) (off : Nat) (v : Word) : State :=
  if off = 8 then { s with dies := { s.dies with dseen := s.dies.dseen &&& ~~~(v &&& 0x7F3F#32) } } else s

end Sys2Proof.Machine
end

