-- ==== Sys2Proof/Machine/Streams.lean ====
section
/-! DEFINITION. The stack controllers' slots, shares, deadlines and bursts (R197-R201, R204, R237, R402) and the stream
registers (R198). -/

namespace Sys2Proof.Machine

/-- Slots in an arbitration window (R198). -/
def windowSlots : Nat := 4096

/-- Background slots in a window (R402). -/
def backSlots : Nat := 16

/-- The shares in force at a stack: read, write, remote (R198). -/
def sharesOf (w : Word) : List Nat := [bits w.toNat 7 0, bits w.toNat 15 8, bits w.toNat 23 16]

/-- NoC cycles within which requests join a burst or share a read (R200, R201). -/
def joinCycles : Nat := 32

/-! ## Classes and deadlines (R197, R199) -/

/-- The class of a request at stack `n`: remote from the other compute die and for Basin, Eddy, pipelines and mirrors; else
write for write-back and the writes of engines; else read, all traffic of S with it (R197, R204). -/
def reqClass (r : HbmRequest) (n : Nat) : Nat :=
  match r.stream with
  | .remote => 2
  | .spring _ => 0
  | _ => if r.die + n / 4 = 1 then 2 else if r.isWrite then 1 else 0

/-- The stream of a request as a number: an engine's reads and writes are one stream. -/
def reqStream (r : HbmRequest) : Nat :=
  match r.stream with
  | .prefetch m _ => m
  | .firstSlice m => 272 + m
  | .spring k => 544 + k
  | .read | .write => 1000 + r.engine
  | .remote => 2000 + r.engine

/-- The rank of the engine in the tie order: Mere stream engines by physical index, then S, then the others (R199). -/
def reqRank (r : HbmRequest) : Nat :=
  match r.stream with
  | .prefetch m _ => m
  | .firstSlice m => m
  | .spring _ => 272
  | _ => 273 + r.engine

/-- Multiply-accumulates of one array in a cycle of its cluster's clock (R77, R78). -/
def arrayRate (c : Cmd) : Nat :=
  let fa := c.arg 0x18 1 % 16
  let fb := if c.opcode = 0x0104 then fa else c.arg 0x19 1 % 16
  let turned := bit (c.arg 0x18 1) 4 || bit (c.arg 0x19 1) 4
  if fa = 1 ∨ fa = 2 then 4096
  else if fa ≠ 6 then 8192
  else if fb = 7 then (if turned then 16384 else 32768)
  else if turned then 8192 else 16384

/-- The NoC cycles, 2 GHz, that an array of a running command needs for a number of chunks (R77, R199). -/
def chunkCycles (s : State) (mere chunks : Nat) : Nat :=
  match (getMere s mere).running.bind (findCmd s) with
  | none => 0
  | some c =>
    let g := geoOf c
    chunks * (g.tm * g.tn * g.chunk / arrayRate c) * 2000 / max (getCluster s (clusterOf mere)).freq 1

/-- The running mean interval between the last 17 takings of a stream's batches, in NoC cycles: 80 to a tick of S (R199). With
fewer than two takings the manual gives no mean: a free value (DESIGN CHOICE, log 89). -/
def batchCycles (s : State) (g : Ingest) : Nat :=
  match g.taken with
  | a :: b :: t => 80 * (((b :: t).getLast?.getD b) - a) / (t.length + 1)
  | _ => Config.freePick s.freeCtr

/-- The deadline of a read-share request that arrives at time `now` (R199). The controller's estimate of the
running command's commit, in cycles from now by physical Mere, comes with the event; unlisted it is a free value. -/
def reqDeadline (s : State) (est : List (Nat × Nat)) (r : HbmRequest) (now : Nat) : Nat :=
  match r.stream with
  | .prefetch m k => now + chunkCycles s m k
  | .firstSlice m => if (getMere s m).running = none then now else now + mget (Config.freePick s.freeCtr) est m
  | .spring k => now + (getIngest s k).held.length * batchCycles s (getIngest s k)
  | _ => now + 65536

/-! ## Bursts (R200, R201) -/

/-- The burst of one request. -/
def burstOf (s : State) (est : List (Nat × Nat)) (n now : Nat) (r : HbmRequest) : Burst :=
  { die := r.die, engine := reqRank r, stream := reqStream r, cls := reqClass r n, isWrite := r.isWrite, first := r.first, count := r.count,
    served := 0, queued := now, deadline := reqDeadline s est r now }

/-- Whether a burst reads what a request of another engine of its die reads, within the same 32 cycles (R201). -/
def Burst.shares (b r : Burst) : Bool :=
  !b.isWrite && !r.isWrite && b.die == r.die && b.engine != r.engine && decide (r.queued ≤ b.queued + joinCycles) &&
  decide (b.first ≤ r.first ∧ r.first + r.count ≤ b.first + b.count)

/-- Whether a request runs on from a burst of its stream: one direction, consecutive sectors of one 4 KiB unit, within 32
cycles of the first request, 2 KiB in all (R200). -/
def Burst.follows (b r : Burst) : Bool :=
  b.die == r.die && b.engine == r.engine && b.stream == r.stream && b.cls == r.cls && b.isWrite == r.isWrite &&
  r.first == b.first + b.count && (b.first - b.served) / 64 == (r.first + r.count - 1) / 64 &&
  decide (r.queued ≤ b.queued + joinCycles ∧ b.served + b.count + r.count ≤ 32)

/-- Whether two accesses of one stream, one of them a write, share a sector. -/
def Burst.conflicts (b r : Burst) : Bool :=
  b.die == r.die && b.stream == r.stream && b.isWrite != r.isWrite && decide (b.first < r.first + r.count ∧ r.first < b.first + b.count)

/-- A request enters a queue: into a read that is shared, into a burst that it runs on from and that nothing of the other
direction on its sectors follows, or at the end. The flag says that it was absorbed. -/
def enter (r : Burst) : List Burst → List Burst × Bool
  | [] => ([r], false)
  | b :: t =>
    if b.shares r then ({ b with deadline := min b.deadline r.deadline } :: t, true)
    else if b.follows r && !t.any (fun x => x.conflicts r) then ({ b with count := b.count + r.count } :: t, true)
    else
      let u := enter r t
      (b :: u.1, u.2)

/-- The requests that arrive at a stack, in turn; what was absorbed counts in the die's SMERGE. -/
def arrive (est : List (Nat × Nat)) (n : Nat) : List HbmRequest → State → State
  | [], s => s
  | r :: t, s =>
    let k := s.mem.stack n
    if r.count = 0 then arrive est n t s
    else
      let u := enter (burstOf s est n k.clock r) k.queue
      let d := n / 4
      let s1 := setStackS (tickFree s) n { k with queue := u.1 }
      arrive est n t (setStream s1 d { getStream s1 d with smerge := satAdd 32 (getStream s1 d).smerge (b2n u.2) })

/-! ## Slots (R197, R199, R402) -/

/-- Of the classes that wait, the one that has used the smallest fraction of its share, ties in the order read, write,
remote: class number, used slots, share (R197). -/
def leastUsed : List (Nat × Nat × Nat) → Option Nat
  | [] => none
  | (k, u, w) :: t =>
    match t.find? (fun x => decide (x.2.1 * w < u * x.2.2) && (decide (0 < x.2.2))) with
    | some _ => leastUsed t
    | none => if w = 0 ∧ t.any (fun x => decide (0 < x.2.2)) then leastUsed t else some k

/-- Whether burst `a` is served before burst `b` of its class: reads by deadline, ties by rank (R199); the others in the order
in which they came (DESIGN CHOICE, log 90: the manual gives their class no order). -/
def Burst.before (a b : Burst) : Bool :=
  a.cls != 0 || decide (a.deadline < b.deadline ∨ (a.deadline = b.deadline ∧ a.engine ≤ b.engine))

/-- The burst of a class that takes the slot. -/
def nextBurst (cls : Nat) : List Burst → Option Burst
  | [] => none
  | b :: t =>
    if b.cls = cls then
      match nextBurst cls t with
      | none => some b
      | some x => if b.before x then some b else some x
    else nextBurst cls t

/-- One sector of a burst served. -/
def serve (b : Burst) : List Burst → List Burst
  | [] => []
  | x :: t =>
    if x = b then (if x.count ≤ 1 then t else { x with first := x.first + 1, count := x.count - 1, served := x.served + 1 } :: t)
    else x :: serve b t

/-- The first slot of a window: the counts restart and the shares last written apply (R198). -/
def windowStart (s : State) (n : Nat) : State :=
  let k := s.mem.stack n
  if k.slotNo = 0 then
    setStackS s n { k with usedBack := 0, usedRead := 0, usedWrite := 0, usedRemote := 0, shares := (getStream s (n / 4)).sshare }
  else s

/-- The stack's controller `gap` NoC cycles on. -/
def passTime (s : State) (n gap : Nat) : State := setStackS s n { s.mem.stack n with clock := (s.mem.stack n).clock + gap }

/-- The slot given to the class that has used least of its share. -/
def grantClass (k : Stack) : Stack :=
  let has (c : Nat) : Bool := k.queue.any (fun b => b.cls == c)
  let sh := sharesOf k.shares
  let cls : List (Nat × Nat × Nat) :=
    (if has 0 then [(0, k.usedRead, sh.getD 0 0)] else []) ++ (if has 1 then [(1, k.usedWrite, sh.getD 1 0)] else []) ++
    (if has 2 then [(2, k.usedRemote, sh.getD 2 0)] else [])
  match leastUsed cls with
  | none => k
  | some c =>
    let k1 : Stack := match nextBurst c k.queue with
      | some b => { k with queue := serve b k.queue }
      | none => k
    if c = 0 then { k1 with usedRead := k1.usedRead + 1 }
    else if c = 1 then { k1 with usedWrite := k1.usedWrite + 1 }
    else { k1 with usedRemote := k1.usedRemote + 1 }

/-- HBM_SLOT_GRANT (R197-R201, R402): requests arrive at stack `n` and one slot is granted; a stack at the top temperature level
gives half of its slots (R237). -/
def slotGrant (s0 : State) (n gap : Nat) (background : Bool) (arrivals : List HbmRequest) (est : List (Nat × Nat)) : State :=
  let s := arrive est n arrivals (windowStart (passTime s0 n gap) n)
  let k := s.mem.stack n
  let next := (k.slotNo + 1) % windowSlots
  if background && decide (k.usedBack < backSlots) then setStackS s n { k with slotNo := next, usedBack := k.usedBack + 1 }
  else if k.level = 3 ∧ windowSlots / 2 ≤ k.usedBack + k.usedRead + k.usedWrite + k.usedRemote then
    setStackS s n { k with slotNo := next }
  else setStackS s n { grantClass k with slotNo := next }

/-- HBM_SLOT_GRANT. -/
def execHbmSlotGrant (stack gap : Nat) (background : Bool) (arrivals : List HbmRequest) (estimates : List (Nat × Nat)) (s : State) : Ans :=
  onUnit (decide (stack < 8)) "stack" stack (slotGrant s stack gap background arrivals estimates)

/-! ## Stream registers (R198) -/

/-- A write of SSHARE (R198): each stack takes it at its next window, or it is discarded with share_refused. -/
def sshareSet (s : State) (d : Nat) (v : Word) : State :=
  let r := getStream s d
  let n := v.toNat
  if bits n 7 0 + bits n 15 8 + bits n 23 16 = 256 then setStream s d { r with sshare := v &&& 0xFFFFFF#32 }
  else setStream s d { r with shareRefused := true }

/-- SSHARE_WRITE. -/
def execSshareWrite (src : Source) (die : Nat) (v : Word) (s : State) : Ans :=
  onUnit (decide (die < 2)) "compute die" die (if sourceUp s src then sshareSet s die v else s)

/-- The 4 bytes of a stream register block at `off` (R198). -/
def streamWord (s : State) (d off : Nat) : Nat :=
  let r := getStream s d
  if off = 0 then r.sshare.toNat
  else if off = 4 then b2n r.shareRefused
  else if off = 8 then windowSlots
  else if off = 0x10 then r.slate
  else if off = 0x14 then r.sskip
  else if off = 0x18 then r.sstall % 2 ^ 32
  else if off = 0x1C then r.sstall / 2 ^ 32
  else if off = 0x20 then r.smerge
  else 0

/-- A 4-byte write to a stream register block. -/
def streamWrite (s : State) (d off : Nat) (v : Word) : State :=
  let r := getStream s d
  if off = 0 then sshareSet s d v
  else if off = 4 then setStream s d { r with shareRefused := r.shareRefused && !bit v.toNat 0 }
  else s

end Sys2Proof.Machine
end

