-- ==== Sys2Proof/Machine/Regs.lean ====
section
/-! DEFINITION. The BAR0 map (R350) read and written by 4-byte words, 8-byte registers and their halves (R351), the
register blocks of K (R353), of the links (R278), of Basin (R299) and of compression (R227), the mailboxes. -/

namespace Sys2Proof.Machine

/-! ## Blocks -/

/-- KSTAT (R353). -/
def kstat (s : State) : Nat := s.ctl.kstate % 4 * 2 ^ 30 + s.ctl.stage % 256 * 2 ^ 16 + s.ctl.selftest % 256

/-- The 4 bytes of the K control block at `off` (R353). -/
def ctlWord (s : State) (off : Nat) : Nat :=
  let c := s.ctl
  if off = 0 then kstat s
  else if off = 8 then c.apbase.toNat % 2 ^ 32
  else if off = 0xC then c.apbase.toNat / 2 ^ 32
  else if off = 0x10 then c.h2c.toNat % 2 ^ 32
  else if off = 0x14 then c.h2c.toNat / 2 ^ 32
  else if off = 0x18 then c.c2h.toNat % 2 ^ 32
  else if off = 0x1C then c.c2h.toNat / 2 ^ 32
  else if off = 0x20 then c.kirq.toNat
  else if off = 0x24 then c.presRefuse
  else if off = 0x28 then c.aperr
  else 0

/-- The 4 bytes of a compression register block at `off` (R227). -/
def zipWord (s : State) (d off : Nat) : Nat :=
  let z := getZip s d
  if off = 0 then z.zretry
  else if off = 4 then z.zdamage
  else if off = 8 then z.zescape
  else if off = 0xC then z.zspill
  else if off = 0x10 then z.zraw % 2 ^ 32
  else if off = 0x14 then z.zraw / 2 ^ 32
  else if off = 0x18 then z.zstored % 2 ^ 32
  else if off = 0x1C then z.zstored / 2 ^ 32
  else 0

/-- A 4-byte write to a port's register block (R278): gen_cap, then enable, then retrain. -/
def portWrite (s : State) (p off : Nat) (w : Word) : State :=
  if off = 0 then
    let s1 := if bits w.toNat 5 4 = 0 then s else genCapWrite s p (bits w.toNat 5 4)
    let on := (getPort s1 p).enable
    let s2 := if bit w.toNat 0 && !on then portEnable s1 p else if !bit w.toNat 0 && on then portDisable s1 p else s1
    if bit w.toNat 1 then retrainPort s2 p else s2
  else if off = 4 then
    let v := getPort s p
    setPort s p { v with wentDown := v.wentDown && !bit w.toNat 1, narrowed := v.narrowed && !bit w.toNat 0 }
  else s

/-! ## The map (R350) -/

/-- Whether an offset lies in the queue register window. -/
def inQueues (off : Nat) : Bool := decide (0x10000 ≤ off ∧ off < 0x10000 + 65 * 0x40)

/-- The 4 bytes of BAR0 at `off`, a multiple of 4. -/
def bar0Word (s : State) (off : Nat) : Nat :=
  if off < 0x80 then field (capRecord s) off 4
  else if 0x100 ≤ off ∧ off < 0x130 then ctlWord s (off - 0x100)
  else if inQueues off then queueWord s ((off - 0x10000) / 0x40) ((off - 0x10000) % 0x40)
  else if 0x20000 ≤ off ∧ off < 0x30000 then guardWord s (off - 0x20000)
  else if 0x30000 ≤ off ∧ off < 0x40000 then updateWord s.update (off - 0x30000)
  else if 0x40000 ≤ off ∧ off < 0x42000 then streamWord s ((off - 0x40000) / 0x1000) ((off - 0x40000) % 0x1000)
  else if 0x50000 ≤ off ∧ off < 0x52000 then zipWord s ((off - 0x50000) / 0x1000) ((off - 0x50000) % 0x1000)
  else if 0x60000 ≤ off ∧ off < 0x70000 then memWord s (off - 0x60000)
  else if 0x70000 ≤ off ∧ off < 0x80000 then dieWord s (off - 0x70000)
  else if 0x80000 ≤ off ∧ off < 0x81800 then portWord (getPort s ((off - 0x80000) / 0x100)) ((off - 0x80000) % 0x100)
  else if 0x90000 ≤ off ∧ off < 0xA0000 then basinWord s (off - 0x90000)
  else if 0xA0000 ≤ off ∧ off < 0xB0000 then springWord s (off - 0xA0000)
  else if 0xB0000 ≤ off ∧ off < 0xC0000 then powerWord s (off - 0xB0000)
  else if 0xC0000 ≤ off ∧ off < 0xD0000 then relWord s (off - 0xC0000)
  else if 0xD0000 ≤ off ∧ off < 0xE0000 then secWord s (off - 0xD0000)
  else 0

/-- A 4-byte write to a 4-byte register of BAR0. -/
def bar0Write (s : State) (off : Nat) (w : Word) : State :=
  if off = 0x120 then { s with ctl := { s.ctl with kirq := w &&& 0x3FF#32 } }
  else if inQueues off then queueWrite s ((off - 0x10000) / 0x40) ((off - 0x10000) % 0x40) w
  else if 0x20000 ≤ off ∧ off < 0x30000 then guardWrite s (off - 0x20000) w
  else if 0x40000 ≤ off ∧ off < 0x42000 then streamWrite s ((off - 0x40000) / 0x1000) ((off - 0x40000) % 0x1000) w
  else if 0x60000 ≤ off ∧ off < 0x70000 then memWrite s (off - 0x60000) w
  else if 0x70000 ≤ off ∧ off < 0x80000 then dieWrite s (off - 0x70000) w
  else if 0x80000 ≤ off ∧ off < 0x81800 then portWrite s ((off - 0x80000) / 0x100) ((off - 0x80000) % 0x100) w
  else if 0xA0000 ≤ off ∧ off < 0xB0000 then springWrite s (off - 0xA0000) w
  else if 0xB0000 ≤ off ∧ off < 0xC0000 then powerWrite s (off - 0xB0000) w
  else if 0xC0000 ≤ off ∧ off < 0xD0000 then relWrite s (off - 0xC0000) w
  else if 0xD0000 ≤ off ∧ off < 0xE0000 then secWrite s (off - 0xD0000) w
  else s

/-! ## 8-byte registers (R351) -/

/-- Whether an 8-byte register that can be written starts at `off`: APBASE, KMB_H2C, QBASE, RBASE. -/
def isWide (off : Nat) : Bool :=
  off == 0x108 || off == 0x110 || (inQueues off && (off % 0x40 == 0 || off % 0x40 == 0x18))

/-- KMB_H2C takes a value: the cores' mailbox interrupt (R353). -/
def mailboxIn (s : State) (v : DWord) : State := emit { s with ctl := { s.ctl with h2c := v, coreIrq := true } } .coreInterrupt

/-- An 8-byte register takes a value. -/
def wideSet (s : State) (off : Nat) (v : DWord) : State :=
  let s1 := { s with ctl := { s.ctl with halves := mdel s.ctl.halves off } }
  let q := (off - 0x10000) / 0x40
  if off = 0x108 then { s1 with ctl := { s1.ctl with apbase := v } }
  else if off = 0x110 then mailboxIn s1 v
  else if off % 0x40 = 0 then setQueue s1 q { getQueue s1 q with qbase := v }
  else setQueue s1 q { getQueue s1 q with rbase := v }

/-- The upper half written: the register takes its value from the last lower half, or from the one in force. -/
def wideUpper (s : State) (off : Nat) (w : Word) : State :=
  let low := mget (BitVec.ofNat 32 (bar0Word s off)) s.ctl.halves off
  wideSet s off (BitVec.ofNat 64 (w.toNat * 2 ^ 32 + low.toNat))

/-- A 4-byte write to BAR0, halves of 8-byte registers included. -/
def writeWord (s : State) (off : Nat) (w : Word) : State :=
  if isWide off then { s with ctl := { s.ctl with halves := mput s.ctl.halves off w } }
  else if 4 ≤ off ∧ isWide (off - 4) then wideUpper s (off - 4) w
  else bar0Write s off w

/-- A write of 4 or 8 bytes (R351); one of another size or alignment does nothing. -/
def writeBar0 (s : State) (off size : Nat) (v : DWord) : State :=
  if off % size ≠ 0 then s
  else if size = 4 then writeWord s off (v.setWidth 32)
  else if size = 8 then
    (if isWide off then wideSet s off v else bar0Write (bar0Write s off (v.setWidth 32)) (off + 4) ((v >>> 32).setWidth 32))
  else s

/-- 4 bytes of the MSI-X table, 1,024 entries of 16 bytes at 0 of BAR4/5 (R348); the pending bit array is read-only. -/
def msixPut (s : State) (off : Nat) (w : Word) : State :=
  if off < 0x4000 then { s with ctl := { s.ctl with msixTable := mput s.ctl.msixTable (off / 4) w } } else s

/-- A write through BAR4/5 of 4 or 8 bytes (R348, R351). -/
def msixWrite (s : State) (off size : Nat) (v : DWord) : State :=
  if off % size ≠ 0 then s
  else if size = 4 then msixPut s off (v.setWidth 32)
  else if size = 8 then msixPut (msixPut s off (v.setWidth 32)) (off + 4) ((v >>> 32).setWidth 32)
  else s

/-- REGISTER_WRITE (R7): only the host writes queue registers (R16, R344, R350), and the MSI-X table (R348). -/
def execRegisterWrite (src : Source) (off size : Nat) (v : DWord) (s : State) : Ans :=
  .next (if src == .hostMsix then (if barsUp s then msixWrite s off size v else s)
    else if sourceUp s src && (src == .host || !inQueues off) then capSync s (writeBar0 s off size v) else s)

/-- HOST_MAILBOX_WRITE (R353). -/
def execHostMailboxWrite (src : Source) (v : DWord) (s : State) : Ans := .next (if sourceUp s src then wideSet s 0x110 v else s)

/-- CORE_MAILBOX_WRITE (R353): KIRQ's vector is raised to the host. -/
def execCoreMailboxWrite (v : DWord) (s : State) : Ans :=
  .next (if sourceUp s .cores then raiseKirq { s with ctl := { s.ctl with c2h := v } } else s)

end Sys2Proof.Machine
end

