-- ==== Sys2Proof/Machine/Host.lean ====
section
/-! DEFINITION. What the host reaches beside BAR0: the aperture (R349), PCIe configuration space (R345, R346, R348, R354);
and the data port (R361, R362). -/

namespace Sys2Proof.Machine

/-! ## Device memory from outside a command -/

/-- Whether a range is mapped and its memory powered and out of self-refresh. An access does not cross a 4 KiB boundary,
so that one stack serves it. -/
def reachable (s : State) (a n : Nat) : Bool :=
  s.mem.mappedRange a n &&
  (match s.mem.translate a with
    | some t => (s.mem.stack t.1).present && !(s.mem.stack t.1).selfRefresh
    | none => false)

/-- Whether a write covers whole sectors only (R430). -/
def wholeSectors (a n : Nat) : Bool := a % 64 == 0 && n % 64 == 0

/-- A write of bytes (R239): a partly covered sector that stays uncorrectable takes nothing. -/
def outsideWrite (s : State) (a : Nat) (b : Bytes) (hbm : Sector) : State × Bool :=
  if wholeSectors a b.length then (hbmWrite s a b, true)
  else
    let s1 := sectorOutcome s a hbm false
    match hbm with
    | .uncorrectable => (s1, false)
    | _ => (hbmWrite s1 a b, true)

/-- A read of bytes (R239); nothing where the sector stays uncorrectable. -/
def outsideRead (s : State) (a n : Nat) (hbm : Sector) : State × Option Bytes :=
  let s1 := sectorOutcome s a hbm false
  match hbm with
  | .uncorrectable => (s1, none)
  | _ => (s1, some (s.mem.readN a n))

/-! ## The aperture (R349) -/

/-- The device address of an aperture offset: the low 32 bits of APBASE are ignored. -/
def apertureAddr (s : State) (off : Nat) : Nat := s.ctl.apbase.toNat / 2 ^ 32 * 2 ^ 32 + off % 2 ^ 32

/-- An access to an unmapped address counts. -/
def countAperr (s : State) : State := { s with ctl := { s.ctl with aperr := satAdd 32 s.ctl.aperr 1 } }

/-- The device address that an access of `via` at `off` means. -/
def viaAddr (s : State) (off : Nat) : Via → Nat
  | .aperture => apertureAddr s off
  | .coreJob => off
  | .coreWindow => coreBase + off

/-- Whether who accesses runs: the host through its BARs, the cores under K's main clock. -/
def viaUp (s : State) : Via → Bool
  | .aperture => barsUp s
  | .coreJob => sourceUp s .cores
  | .coreWindow => sourceUp s .cores

/-- Whether the memory at a device address answers: the cores' window lies in every stack (R230). -/
def viaReach (s : State) (a n : Nat) : Via → Bool
  | .aperture => reachable s a n
  | .coreJob => s.job.loaded && reachable s a n
  | .coreWindow => decide (a + n ≤ coreBase + coreSize) &&
      (List.range 8).all (fun k => (s.mem.stack k).present && !(s.mem.stack k).selfRefresh)

/-- The data of a read goes to who asked. -/
def viaData (b : Bytes) : Via → Out
  | .aperture => .completion b
  | .coreJob => .coreData b
  | .coreWindow => .coreData b

/-- An access to an unmapped address: APERR counts those of the aperture. -/
def viaMiss (s : State) : Via → State
  | .aperture => countAperr s
  | .coreJob => s
  | .coreWindow => s

/-- A read: all ones where it fails (R349; for the cores DESIGN CHOICE, log 94). -/
def apertureRead (s : State) (via : Via) (off len : Nat) (hbm : Sector) : State :=
  let a := viaAddr s off via
  let ones : Bytes := List.replicate len 0xFF#8
  if viaReach s a len via then
    (match outsideRead s a len hbm with
      | (s1, some b) => emit s1 (viaData b via)
      | (s1, none) => emit s1 (viaData ones via))
  else emit (viaMiss s via) (viaData ones via)

/-- APERTURE_READ (R349), and a read of the cores (R344). -/
def execApertureRead (at_ : Access) (len : Nat) (hbm : Sector) (s : State) : Ans :=
  .next (if viaUp s at_.via then capSync s (apertureRead s at_.via at_.off len hbm) else s)

/-- APERTURE_WRITE (R349), and a write of the cores (R344). -/
def execApertureWrite (at_ : Access) (data : Bytes) (hbm : Sector) (s : State) : Ans :=
  let a := viaAddr s at_.off at_.via
  .next (if viaUp s at_.via then
      (if viaReach s a data.length at_.via then capSync s (outsideWrite s a data hbm).1 else viaMiss s at_.via)
    else s)

/-! ## Configuration space -/

/-- The writable bits of a standard header register (PRESUMED, log 60): command, the six BARs by their sizes (R348). -/
def configMask (s : State) (off : Nat) : Word :=
  if off = 4 then 0x00000546#32
  else if s.ctl.noFirmware then 0
  else if off = 0x10 then 0xFFF00000#32
  else if off = 0x20 then 0xFFFF0000#32
  else if off = 0x14 ∨ off = 0x1C ∨ off = 0x24 then 0xFFFFFFFF#32
  else 0

/-- The type bits of a BAR: 64-bit, and prefetchable for the aperture. -/
def barType (s : State) (off : Nat) : Nat :=
  if s.ctl.noFirmware then 0 else if off = 0x10 ∨ off = 0x20 then 4 else if off = 0x18 then 12 else 0

/-- Migus major and minor as one byte each; 0 while no stage 2 has run. -/
def dvsecFw (s : State) : Nat := s.ctl.fwVersion.toNat / 2 ^ 48 % 256 + s.ctl.fwVersion.toNat / 2 ^ 32 % 256 * 256

/-- The designated vendor-specific capability (R354), which the model places at 0x100 (PRESUMED, log 60). -/
def dvsec (s : State) : Bytes :=
  toLe 2 0x0023 ++ toLe 2 1 ++ toLe 2 Config.vendorId ++ toLe 2 0x0200 ++ toLe 2 1 ++ toLe 1 s.ctl.selftest ++ toLe 1 s.ctl.kstate ++
  toLe 2 s.ctl.stage ++ toLe 2 (dvsecFw s) ++ toLe 8 s.ctl.serial.toNat ++ toLe 8 0

/-- The configuration register at `off`; one whose place the manual does not describe is open. -/
def configRead (s : State) (off : Nat) : Word :=
  let held := (mget 0 s.ctl.config off) &&& configMask s off
  if off = 0 then BitVec.ofNat 32 (Config.vendorId % 65536 + 0x8120 * 65536)
  else if off = 4 then held ||| 0x00100000#32
  else if off = 8 then 0x12000000#32
  else if 0x10 ≤ off ∧ off < 0x28 then held ||| BitVec.ofNat 32 (barType s off)
  else if 0x100 ≤ off ∧ off < 0x120 then BitVec.ofNat 32 (field (dvsec s) (off - 0x100) 4)
  else Config.configWord s.freeCtr off

/-- A configuration write: the writable bits are kept; bit 2 of the command register is bus mastering. -/
def configWrite (s : State) (off : Nat) (w : Word) : State :=
  if configMask s off = 0 then s
  else { s with ctl := { s.ctl with
    config := mput s.ctl.config off (w &&& configMask s off)
    busMaster := if off = 4 then bit w.toNat 2 else s.ctl.busMaster } }

/-- PCIE_CONFIG_REQUEST (R346): no link, no request; before the endpoint can complete it, Configuration Request Retry
Status. -/
def configRequest (s : State) (off : Nat) (write : Option Word) : State :=
  if s.ctl.perst || s.ctl.noMainClock then s
  else if !s.ctl.endpointOn then emit s .configRetry
  else
    match write with
    | some w => emit (configWrite s off w) (.completion [])
    | none => tickFree (emit s (.completion (toLe 4 (configRead s off).toNat)))

/-- PCIE_CONFIG_REQUEST: registers are 4 bytes. -/
def execPcieConfigRequest (off : Nat) (write : Option Word) (s : State) : Ans := .next (configRequest s (off / 4 * 4) write)

/-! ## The data port (R361, R362) -/

/-- The space of DP_ADDR. -/
def dpSpace (s : State) : Nat := s.mgmt.dpAddr.toNat / 2 ^ 60

/-- The address within it. -/
def dpAt (s : State) : Nat := s.mgmt.dpAddr.toNat % 2 ^ 60

/-- A failed access: the target and DP_ADDR stay (R362). -/
def dpFail (s : State) (e : Nat) : State := { s with mgmt := { s.mgmt with errValid := true, err := e } }

/-- A good access: DP_ADDR advances within its space. -/
def dpNext (s : State) : State :=
  if s.mgmt.inc then
    { s with mgmt := { s.mgmt with dpAddr := BitVec.ofNat 64 (dpSpace s * 2 ^ 60 + (dpAt s + 4) % 2 ^ 60) } }
  else s

/-- Whether space 1 answers: a loaded job and powered memory, outside the safe state (R362, R366). -/
def dpMemory (s : State) : Bool := s.job.loaded && !isSafe s && reachable s (dpAt s) 4

/-- The 4 bytes of the identity records (R361). -/
def identityWord (s : State) (a : Nat) : Nat := field (identityAt s (a / 0x20)) (a % 0x20) 4

/-- Whether K answers the data port: it has power and firmware (R367, R384). -/
def dpUp (s : State) : Bool := !s.ctl.noFirmware && s.power.domains.contains 94

/-- Without firmware the controller answers from its own copy of the capability record (R367). -/
def dpCopy (s : State) : Bool := s.ctl.noFirmware && dpSpace s == 0 && decide (dpAt s < 0x80)

/-- A read of DP_DATA: the word, or the error code. A misaligned address is refused. -/
def dpRead (s : State) (hbm : Sector) : State × Option Word :=
  let a := dpAt s
  let sp := dpSpace s
  if a % 4 ≠ 0 then (dpFail s 3, none)
  else if sp = 2 then (if a < 14 * 0x20 then (dpNext s, some (BitVec.ofNat 32 (identityWord s a))) else (dpFail s 1, none))
  else if sp = 3 then (tickFree (dpNext s), some (Config.nvWord s.freeCtr a))
  else if !dpUp s && !dpCopy s then (dpFail s 3, none)
  else if sp = 0 then (if a < 0x100000 then (dpNext s, some (BitVec.ofNat 32 (bar0Word s a))) else (dpFail s 1, none))
  else if sp = 1 then
    (if dpMemory s then
       (match outsideRead s a 4 hbm with
         | (s1, some b) => (dpNext s1, some (BitVec.ofNat 32 (leNat b)))
         | (s1, none) => (dpFail s1 4, none))
     else (dpFail s 1, none))
  else (dpFail s 1, none)

/-- A write of DP_DATA; the flag tells whether it was good. The queue window and space 3 refuse (R350, R362), and the
identity records are fused. -/
def dpWrite (s : State) (w : Word) (hbm : Sector) : State × Bool :=
  let a := dpAt s
  let sp := dpSpace s
  if a % 4 ≠ 0 then (dpFail s 3, false)
  else if sp = 2 ∨ sp = 3 ∨ !dpUp s then (dpFail s 3, false)
  else if sp = 0 then
    (if 0x100000 ≤ a then (dpFail s 1, false)
     else if inQueues a then (dpFail s 3, false)
     else (dpNext (writeWord s a w), true))
  else if sp = 1 then
    (if dpMemory s then
       (match outsideWrite s a (toLe 4 w.toNat) hbm with
         | (s1, true) => (dpNext s1, true)
         | (s1, false) => (dpFail s1 4, false))
     else (dpFail s 1, false))
  else (dpFail s 1, false)

/-- DP_DATA_ACCESS (R361): a read delivers its word. -/
def execDpDataAccess (write : Option Word) (hbm : Sector) (s : State) : Ans :=
  .next (capSync s (match write with
    | some w => (dpWrite s w hbm).1
    | none =>
      (match dpRead s hbm with
        | (s1, some w) => emit s1 (.dpData w)
        | (s1, none) => s1)))

/-- DP_CTRL; a burst is over by the time it can be read. -/
def dpCtrl (s : State) : Nat := b2n s.mgmt.errValid * 2 ^ 30 + s.mgmt.err % 8 * 2 ^ 27 + b2n s.mgmt.inc * 2 ^ 16 + s.mgmt.count % 8192

/-- A burst length that count takes: 4 to 4,096, a multiple of 4. -/
def countOk (n : Nat) : Bool := n % 4 == 0 && decide (4 ≤ n ∧ n ≤ 4096)

/-- A write of DP_CTRL: a count that is no burst length leaves the field. -/
def dpCtrlWrite (s : State) (w : Word) : State :=
  let n := w.toNat % 8192
  { s with mgmt := { s.mgmt with
    errValid := s.mgmt.errValid && !bit w.toNat 30, inc := bit w.toNat 16, count := if countOk n then n else s.mgmt.count } }

end Sys2Proof.Machine
end

