-- ==== Sys2Proof/Machine/Mgmt.lean ====
section
/-! DEFINITION. The management ports (R358), network frames (R359), management datagrams (R360), the discrete-input
registers (R424), the SMBus sideband (R425). -/

namespace Sys2Proof.Machine

/-! ## The management ports (R358) -/

/-- Whether a management port has link. -/
def mgtLink (s : State) (p : Nat) : Bool := if p = 0 then s.mgmt.link0 else s.mgmt.link1

/-- Whether a port answers: the controller has power, and the port is the active one and has link. -/
def mgtAnswers (s : State) (p : Nat) : Bool := s.power.domains.contains 95 && p == s.mgmt.active && mgtLink s p

/-- The link of a port set, with its rate number. -/
def setMgtLink (s : State) (p : Nat) (up : Bool) (rate : Nat) : State :=
  if p = 0 then { s with mgmt := { s.mgmt with link0 := up, rate0 := rate } }
  else { s with mgmt := { s.mgmt with link1 := up, rate1 := rate } }

/-- The rate that a port tries or has: 0 25GBASE-R, 1 10GBASE-R, 2 1000BASE-X. -/
def mgtRate (s : State) (p : Nat) : Nat := if p = 0 then s.mgmt.rate0 else s.mgmt.rate1

/-- MGT_RATE_SEARCH: the next rate of a port without link. -/
def execMgtRateSearch (p : Nat) (s : State) : Ans :=
  onUnit (decide (p < 2)) "management port" p (if mgtLink s p then s else setMgtLink s p false ((mgtRate s p + 1) % 3))

/-- MGT_FAILOVER: the active port has been without link for 2 s and the other one has link. -/
def execMgtFailover (s : State) : Ans :=
  let other := 1 - s.mgmt.active
  .next (if !mgtLink s s.mgmt.active && mgtLink s other then { s with mgmt := { s.mgmt with active := other } } else s)

/-- MGT_LINK_UP: link at the rate in trial. -/
def execMgtLinkUp (p : Nat) (s : State) : Ans := onUnit (decide (p < 2)) "management port" p (setMgtLink s p true (mgtRate s p))

/-- MGT_LINK_DOWN: the rate search begins. -/
def execMgtLinkDown (p : Nat) (s : State) : Ans :=
  onUnit (decide (p < 2)) "management port" p (if mgtLink s p then setMgtLink s p false 0 else s)

/-- A frame that the controller answers, or takes its address from (R359); the answer's bytes are the standards'. -/
def networkFrame (s : State) (p : Nat) (f : NetFrame) : State :=
  match f with
  | .arp r => emit s (.frame p (Config.netAnswer 0 r))
  | .echo r => emit s (.frame p (Config.netAnswer 1 r))
  | .neighbour r => emit s (.frame p (Config.netAnswer 2 r))
  | .dhcp a => { s with mgmt := { s.mgmt with address := a } }
  | .other => s

/-- MGMT_NETWORK_FRAME. -/
def execMgmtNetworkFrame (p : Nat) (f : NetFrame) (s : State) : Ans :=
  onUnit (decide (p < 2)) "management port" p (if mgtAnswers s p then networkFrame s p f else s)

/-! ## The data port registers (R361, R424) -/

/-- The filtered level of an input: PWRGD, PERST#, MRST#, THERMTRIP_IN#, PRESENCE, SVC_JMP, seal loop. -/
def inputLevel (s : State) (i : Nat) : Bool :=
  if i = 0 then s.ctl.powerGood
  else if i = 1 then s.ctl.perst
  else if i = 2 then s.ctl.mrst
  else if i = 4 then s.sec.pressed
  else if i = 5 then s.sec.jumper
  else s.pins.level.contains i

/-- DISCSTAT (R424). -/
def discstat (s : State) : Nat :=
  b2n s.pins.jumperLong * 2 ^ 24 + b2n s.pins.mrstLong * 2 ^ 23 + b2n s.pins.perstLong * 2 ^ 22 + b2n (inputLevel s 3) * 2 ^ 21 +
  b2n s.sec.stuck * 2 ^ 20 + maskOf (s.pins.invalid.filter (· < 7)) * 2 ^ 8 + maskOf ((List.range 7).filter (inputLevel s))

/-- A write of DISCSTAT: the invalid bits are cleared by ones. -/
def discstatWrite (s : State) (w : Word) : State :=
  { s with pins := { s.pins with invalid := s.pins.invalid.filter (fun i => !bit w.toNat (8 + i)) } }

/-- The glitch counts of inputs `4 * h` to `4 * h + 3` (R424). -/
def discglitch (s : State) (h : Nat) : Nat :=
  ((List.range 4).map (fun i => (if 4 * h + i < 7 then mget 0 s.pins.glitches (4 * h + i) else 0) * 256 ^ i)).sum

/-- The key under which a lower half of DP_ADDR waits for its upper half (R351). -/
def dpHalf : Nat := 0x200000

/-- DP_ADDR takes a value. -/
def dpLoad (s : State) (a : DWord) : State := { s with mgmt := { s.mgmt with dpAddr := a } }

/-- A half of DP_ADDR written: the value is taken with the upper half. -/
def dpHalfWrite (s : State) (high : Bool) (w : Word) : State :=
  if high then
    let low := mget (s.mgmt.dpAddr.setWidth 32) s.ctl.halves dpHalf
    dpLoad { s with ctl := { s.ctl with halves := mdel s.ctl.halves dpHalf } } (BitVec.ofNat 64 (w.toNat * 2 ^ 32 + low.toNat))
  else { s with ctl := { s.ctl with halves := mput s.ctl.halves dpHalf w } }

/-- A read of a data port register: its bytes, or the error code; 1 where no register has that place and size. -/
def dpRegRead (s : State) (off len : Nat) (hbm : Sector) : State × Except Nat Bytes :=
  let ok (n v : Nat) : State × Except Nat Bytes := (s, .ok (toLe n v))
  if off = 0 ∧ len = 8 then ok 8 s.mgmt.dpAddr.toNat
  else if off = 0x18 ∧ len = 8 then ok 8 (discglitch s 0 + 2 ^ 32 * discglitch s 1)
  else if len ≠ 4 then (s, .error 1)
  else if off = 0 then ok 4 (s.mgmt.dpAddr.toNat % 2 ^ 32)
  else if off = 4 then ok 4 (s.mgmt.dpAddr.toNat / 2 ^ 32)
  else if off = 8 then
    (match dpRead s hbm with
      | (s1, some w) => (s1, .ok (toLe 4 w.toNat))
      | (s1, none) => (s1, .error s1.mgmt.err))
  else if off = 0xC then ok 4 (dpCtrl s)
  else if off = 0x10 then ok 4 (discstat s)
  else if off = 0x18 then ok 4 (discglitch s 0)
  else if off = 0x1C then ok 4 (discglitch s 1)
  else (s, .error 1)

/-- A write of a data port register, with the result code; a read-only one keeps its value. -/
def dpRegWrite (s : State) (off : Nat) (b : Bytes) (hbm : Sector) : State × Nat :=
  let w := BitVec.ofNat 32 (leNat b)
  if off = 0 ∧ b.length = 8 then (dpLoad s (BitVec.ofNat 64 (leNat b)), 0)
  else if off = 0x18 ∧ b.length = 8 then (s, 0)
  else if b.length ≠ 4 then (s, 1)
  else if off = 0 then (dpHalfWrite s false w, 0)
  else if off = 4 then (dpHalfWrite s true w, 0)
  else if off = 8 then
    (match dpWrite s w hbm with
      | (s1, true) => (s1, 0)
      | (s1, false) => (s1, s1.mgmt.err))
  else if off = 0xC then (dpCtrlWrite s w, 0)
  else if off = 0x10 then (discstatWrite s w, 0)
  else if off = 0x18 ∨ off = 0x1C then (s, 0)
  else (s, 1)

/-! ## Bursts (R360, R362) -/

/-- A burst of reads: it stops at its first failure. `hbm` is the outcome of its first access. -/
def burstRead : Nat → State → Sector → State × Bytes × Nat
  | 0, s, _ => (s, [], 0)
  | n + 1, s, hbm =>
    match dpRead s hbm with
    | (s1, some w) =>
      let r := burstRead n s1 .clean
      (r.1, toLe 4 w.toNat ++ r.2.1, r.2.2)
    | (s1, none) => (s1, [], s1.mgmt.err)

/-- A burst of writes. -/
def burstWrite : Nat → State → Bytes → Sector → State × Nat
  | 0, s, _, _ => (s, 0)
  | n + 1, s, b, hbm =>
    match dpWrite s (BitVec.ofNat 32 (field b 0 4)) hbm with
    | (s1, true) => burstWrite n s1 (b.drop 4) .clean
    | (s1, false) => (s1, s1.mgmt.err)

/-- DP_ADDR and DP_CTRL.count loaded for a burst. -/
def burstLoad (s : State) (a n : Nat) : State := { s with mgmt := { s.mgmt with dpAddr := BitVec.ofNat 64 a, count := n } }

/-- Whether a burst crosses a 4 KiB boundary. -/
def burstCrosses (a n : Nat) : Bool := decide (4096 < a % 4096 + n)

/-! ## Datagrams (R360) -/

/-- The length field. -/
def dgLength (b : Bytes) : Nat := field b 6 2

/-- Bytes that a datagram of an op must have beyond its header. -/
def dgData (b : Bytes) : Nat := if field b 4 1 = 1 ∨ field b 4 1 = 3 then 0 else dgLength b

/-- Whether a datagram is well formed. -/
def dgOk (b : Bytes) : Bool :=
  let op := field b 4 1
  let n := dgLength b
  slice b 0 4 == [0x46#8, 0x4C#8, 0x44#8, 0x51#8] && decide (1 ≤ op ∧ op ≤ 5) && field b 0xC 4 == 0 && decide (n ≤ 4096) &&
  b.length == 0x18 + dgData b &&
  (if op ≤ 2 then countOk n else if op ≤ 4 then n == 4 || n == 8 else n == 64)

/-- The reply to a datagram. -/
def dgReply (b : Bytes) (result : Nat) (data : Bytes) : Bytes :=
  slice b 0 4 ++ toLe 1 (field b 4 1 + 0x80) ++ toLe 1 result ++ toLe 2 data.length ++ slice b 8 4 ++ toLe 4 0 ++ slice b 0x10 8 ++ data

/-- What a request did, with its reply's result and data. -/
abbrev Served := State × Nat × Bytes

/-- Op 1. -/
def serveBurstRead (s : State) (b : Bytes) (hbm : Sector) : Served :=
  let n := dgLength b
  let s1 := burstLoad s (field b 0x10 8) n
  if burstCrosses (field b 0x10 8) n then (dpFail s1 2, 2, [])
  else
    let r := burstRead (n / 4) s1 hbm
    (r.1, r.2.2, r.2.1)

/-- Op 2. -/
def serveBurstWrite (s : State) (b : Bytes) (hbm : Sector) : Served :=
  let n := dgLength b
  let s1 := burstLoad s (field b 0x10 8) n
  if burstCrosses (field b 0x10 8) n then (dpFail s1 2, 2, [])
  else
    let r := burstWrite (n / 4) s1 (b.drop 0x18) hbm
    (r.1, r.2, [])

/-- Whether a register access is among what the controller accepts without firmware: the port itself (R367). -/
def regAllowed (s : State) (off : Nat) : Bool := !s.ctl.noFirmware || decide (off < 0x10)

/-- Op 3. -/
def serveRegisterRead (s : State) (b : Bytes) (hbm : Sector) : Served :=
  if regAllowed s (field b 0x10 8) then
    (match dpRegRead s (field b 0x10 8) (dgLength b) hbm with
      | (s1, .ok d) => (s1, 0, d)
      | (s1, .error e) => (s1, e, []))
  else (s, 3, [])

/-- Op 4. -/
def serveRegisterWrite (s : State) (b : Bytes) (hbm : Sector) : Served :=
  if regAllowed s (field b 0x10 8) then
    let r := dpRegWrite s (field b 0x10 8) (b.drop 0x18) hbm
    (r.1, r.2, [])
  else (s, 3, [])

/-- The work of a command of groups 0x0E and 0x0F. -/
def runManagement (s : State) (c : Cmd) (host : HostRead) : State × Err :=
  match c.opcode with
  | 0x0E01 => privileged s c (runFwDowngrade s c host)
  | 0x0E02 => privileged s c (runKeyRotate s c)
  | 0x0E03 => privileged s c (runDebugUnlock s c host)
  | 0x0E04 => privileged s c (runSpareOverride s c)
  | 0x0E05 => privileged s c (runFuseWrite s c)
  | 0x0F01 => runTelemetryRead s c
  | 0x0F02 => runPowerCap s c
  | 0x0F03 => runQuotaSet s c
  | 0x0F04 => runErrlogRead s c
  | 0x0F05 => runFwUpdate s c host
  | _ => runAttest s c

/-- Whether an opcode is of the groups that op 5 takes. -/
def managementGroup (op : Nat) : Bool := op / 256 == 0x0E || op / 256 == 0x0F

/-- The status reply of an op 5 command, with no ring behind it. -/
def commandReply (s : State) (c : Cmd) (e : Err) : Bytes :=
  replyBytes Queue.reset 64
    { tag := c.tag, status := e.1, detail := e.2, opcode := c.opcode, rerun := false, seq := 0, step := s.job.step, work := 0,
      elapsed := 0, irq := false }

/-- A command checked and run at once (R360, R367). -/
def runPacket (s : State) (b : Bytes) (host : HostRead) : State × Bytes :=
  let c := parsePacket s 64 0 b
  if c.version ≠ 1 ∧ c.version ≠ 2 then (s, commandReply s c (badOpcode c.opcode 4))
  else if !managementGroup c.opcode then (s, commandReply s c (badOpcode c.opcode 2))
  else if s.ctl.noFirmware && c.opcode != 0x0F05 then (s, commandReply s c (badOpcode c.opcode 1))
  else
    match packetCheck s b c with
    | .error e => (s, commandReply s c e)
    | .ok d =>
      let r := runManagement s d host
      (r.1, commandReply r.1 d r.2)

/-- Op 5: it needs K, or the controller's own image store. -/
def serveCommand (s : State) (b : Bytes) (host : HostRead) : Served :=
  if kRuns s || s.ctl.noFirmware then
    let r := runPacket s (slice b 0x18 64) host
    (r.1, 0, r.2)
  else (s, 3, [])

/-- A datagram at a port: answered by the active port, dropped and counted where malformed. -/
def datagram (s : State) (p op : Nat) (b : Bytes) (serve : State → Served) : State :=
  if !mgtAnswers s p then s
  else if !dgOk b then { s with mgmt := { s.mgmt with malformed := satAdd 32 s.mgmt.malformed 1 } }
  else if field b 4 1 ≠ op then s
  else
    let r := serve s
    capSync s (emit r.1 (.datagram p (dgReply b r.2.1 r.2.2)))

/-- MGMT_BURST_READ. -/
def execMgmtBurstRead (p : Nat) (dgram : Bytes) (hbm : Sector) (s : State) : Ans :=
  onUnit (decide (p < 2)) "management port" p (datagram s p 1 dgram (fun s => serveBurstRead s dgram hbm))

/-- MGMT_BURST_WRITE. -/
def execMgmtBurstWrite (p : Nat) (dgram : Bytes) (hbm : Sector) (s : State) : Ans :=
  onUnit (decide (p < 2)) "management port" p (datagram s p 2 dgram (fun s => serveBurstWrite s dgram hbm))

/-- MGMT_REGISTER_READ. -/
def execMgmtRegisterRead (p : Nat) (dgram : Bytes) (hbm : Sector) (s : State) : Ans :=
  onUnit (decide (p < 2)) "management port" p (datagram s p 3 dgram (fun s => serveRegisterRead s dgram hbm))

/-- MGMT_REGISTER_WRITE. -/
def execMgmtRegisterWrite (p : Nat) (dgram : Bytes) (hbm : Sector) (s : State) : Ans :=
  onUnit (decide (p < 2)) "management port" p (datagram s p 4 dgram (fun s => serveRegisterWrite s dgram hbm))

/-- MGMT_COMMAND. -/
def execMgmtCommand (p : Nat) (dgram : Bytes) (host : HostRead) (s : State) : Ans :=
  onUnit (decide (p < 2)) "management port" p (datagram s p 5 dgram (fun s => serveCommand s dgram host))

/-! ## The sideband (R425) -/

/-- STATUS_WORD. -/
def statusWord (s : State) : Nat :=
  b2n s.pins.swFault * 2 ^ 15 + b2n (!s.power.domains.contains 94) * 64 + b2n s.pins.swTrip * 4

/-- SMB_ALERT#: STATUS_WORD non-zero and not released since, or mrst_long. -/
def smbAlert (s : State) : Bool := (statusWord s != 0 && !s.pins.alertReleased) || s.pins.mrstLong

/-- FAULT# (R419, R421): asserted in the safe state, for an invalid input and for a held reset. -/
def faultOut (s : State) : Bool := isSafe s || !s.pins.invalid.isEmpty || s.pins.mrstLong

/-- A transfer whose PEC fails is discarded; without power nothing answers. -/
def onPec (pec : Bool) (s : State) (f : State → State) : Ans := .next (if pec && s.power.domains.contains 95 then f s else s)

/-- Two bytes returned. -/
def smbWord (v : Nat) (s : State) : State := emit s (.smbus (toLe 2 v))

/-- A block of 4 bytes returned. -/
def smbBlock (v : Nat) (s : State) : State := emit s (.smbus (toLe 4 v))

/-- STATUS_WORD. -/
def execStatusWord (pec : Bool) (s : State) : Ans := onPec pec s (fun s => smbWord (statusWord s) s)

/-- CLEAR_FAULTS; bit 6 tells the present, and stays while it holds. -/
def execClearFaults (pec : Bool) (s : State) : Ans :=
  onPec pec s (fun s => { s with pins := { s.pins with swFault := false, swTrip := false, alertReleased := true } })

/-- READ_VIN: PVIN's voltage, 10 mV each. -/
def execReadVin (pec : Bool) (s : State) : Ans :=
  onPec pec s (fun s => smbWord (Config.linear11 (bits s.power.pvin.toNat 15 0) 100).toNat s)

/-- READ_IIN: PVIN's current, 10 mA each. -/
def execReadIin (pec : Bool) (s : State) : Ans :=
  onPec pec s (fun s => smbWord (Config.linear11 (bits s.power.pvin.toNat 31 16) 100).toNat s)

/-- READ_PIN: watts. -/
def execReadPin (pec : Bool) (s : State) : Ans := onPec pec s (fun s => smbWord (Config.linear11 s.power.pin 1).toNat s)

/-- SMBUS_DP_ADDR. -/
def execSmbusDpAddr (pec high : Bool) (write : Option Word) (s : State) : Ans :=
  onPec pec s (fun s =>
    match write with
    | some w => dpHalfWrite s high w
    | none => smbBlock (if high then s.mgmt.dpAddr.toNat / 2 ^ 32 else s.mgmt.dpAddr.toNat % 2 ^ 32) s)

/-- SMBUS_DP_DATA: a read that fails returns no data. -/
def execSmbusDpData (pec : Bool) (write : Option Word) (hbm : Sector) (s : State) : Ans :=
  onPec pec s (fun s => capSync s (
    match write with
    | some w => (dpWrite s w hbm).1
    | none =>
      (match dpRead s hbm with
        | (s1, some w) => smbBlock w.toNat s1
        | (s1, none) => s1)))

/-- SMBUS_DP_CTRL. -/
def execSmbusDpCtrl (pec : Bool) (write : Option Word) (s : State) : Ans :=
  onPec pec s (fun s =>
    match write with
    | some w => dpCtrlWrite s w
    | none => smbBlock (dpCtrl s) s)

/-- SMBUS_DISCSTAT. -/
def execSmbusDiscstat (pec : Bool) (write : Option Word) (s : State) : Ans :=
  onPec pec s (fun s =>
    match write with
    | some w => discstatWrite s w
    | none => smbBlock (discstat s) s)

/-- SMBUS_DISCGLITCH. -/
def execSmbusDiscglitch (pec high : Bool) (s : State) : Ans := onPec pec s (fun s => smbBlock (discglitch s (b2n high)) s)

end Sys2Proof.Machine
end

