-- ==== Sys2Proof/Machine/Startup.lean ====
section
/-! DEFINITION. What each kind of reset leaves (R10, R365, R382), and start-up (R363, R364, R366, R367, R372). -/

namespace Sys2Proof.Machine

/-! ## What survives -/

/-- A physical Mere over a module reset: its retirement lasts for the power cycle. -/
def Mere.reborn (m : Mere) : Mere := { Mere.reset with retired := m.retired, cycles := m.cycles, nvRetired := m.nvRetired }

/-- A physical Mere over a power cycle (R408). -/
def Mere.powered (m : Mere) : Mere :=
  { Mere.reset with retired := m.nvRetired, cycles := if m.retired then m.cycles + 1 else 0, nvRetired := m.nvRetired }

/-- A stack over a module reset: retired frames, spare rows, failing rows not yet repaired, the scrub's counts. -/
def Stack.reborn (k : Stack) : Stack :=
  { Stack.reset with
    retired := k.retired, marked := k.marked, volatileRetired := k.volatileRetired, takenOver := k.takenOver
    failing := k.failing, sparesUsed := k.sparesUsed, flagged := k.flagged, passes := k.passes, scrubFrame := k.scrubFrame
    temp := k.temp }

/-- A stack over a power cycle (R241, R242): frames retired for the power cycle return, reserved ones to their role. -/
def Stack.powered (k : Stack) : Stack :=
  { Stack.reset with
    retired := k.retired, marked := k.marked, takenOver := k.takenOver.filter (fun e => k.retired.contains e.1)
    sparesUsed := k.sparesUsed, flagged := decide (328 ≤ k.retired.length) }

/-- A bundle over a module reset. -/
def Bundle.reborn (v : Bundle) : Bundle :=
  { Bundle.reset with
    fused := v.fused, fusedFar := v.fusedFar, nonVolatile := v.nonVolatile, cycle := v.cycle, history := v.history
    replays := v.replays, halved := v.halved }

/-- The history of lost units, at the start of the next power cycle: one more for those lost in the last one. -/
def nextHistory (h : Map Nat) (lost : List Nat) : Map Nat := lost.foldl (fun m n => mput m n (mget 0 h n + 1)) []

/-- A bundle over a power cycle (R247). -/
def Bundle.powered (v : Bundle) : Bundle :=
  { Bundle.reset with
    fused := v.fused, fusedFar := v.fusedFar, nonVolatile := v.nonVolatile, history := nextHistory v.history v.cycle }

/-- A port over a module reset: counters and lanes lost in this power cycle stay (R278). -/
def Port.reborn (v : Port) : Port :=
  { Port.reset with
    preplay := v.preplay, pcrc := v.pcrc, pfecunc := v.pfecunc, pbadtype := v.pbadtype, pfeccor := v.pfeccor
    lanes := v.lanes.map (fun e => (e.1, { Lane.reset with transients := e.2.transients, retired := e.2.retired }))
    fused := v.fused, nonVolatile := v.nonVolatile, history := v.history }

/-- A port over a power cycle (R275). -/
def Port.powered (v : Port) : Port :=
  let lost := (List.range 10).filter (fun l => mget 0 v.history (16 + l) == 1)
  { Port.reset with fused := v.fused, nonVolatile := v.nonVolatile, history := nextHistory v.history lost }

/-- A cluster over any reset: ageing stays (R391). -/
def Cluster.reborn (v : Cluster) : Cluster :=
  { Cluster.reset with
    fcap := v.fcap, railOffset := v.railOffset, capped := v.capped, railMv := 650 + v.railOffset, temp0 := v.temp0, temp1 := v.temp1 }

/-- Every record of a map changed. -/
def mmap {α : Type} (m : Map α) (f : α → α) : Map α := m.map (fun e => (e.1, f e.2))

/-! ## Resets -/

/-- The power window over a module reset: counters and what the always-on domain measures stay (R400). -/
def Power.reborn (p : Power) : Power :=
  { Power.reset with
    tripped := p.tripped, pin := p.pin, pvin := p.pvin, pmean := p.pmean, pfloor := p.pfloor, pidle := p.pidle, pmin := p.pmin
    pcool := p.pcool, pfiller := p.pfiller, pdroop := p.pdroop, pthrot := p.pthrot, means := p.means
    clusters := mmap p.clusters Cluster.reborn, sensorTrips := p.sensorTrips, alarms := p.alarms, thermOut := p.thermOut }

/-- K over a module reset. -/
def Control.reborn (c : Control) : Control :=
  { Control.reset with
    perst := c.perst, updateCount := c.updateCount, powerGood := c.powerGood, mrst := c.mrst, waitCool := c.waitCool
    serial := c.serial, idDigest := c.idDigest }

/-- Every die but the always-on domain is reset (R365, R10); frames leave their spans first, so that failing rows are
repaired and marked frames retired (R240, R241). -/
def resetDies (s : State) : State :=
  let u := unmapAll s
  { State.reset with
    pending := s.pending, freeCtr := s.freeCtr, out := s.out, nextCid := s.nextCid, time := { s.time with die := [] }
    compute := { Compute.reset with meres := mmap s.compute.meres Mere.reborn }
    mem := { Memory.reset with hstacks := mmap u.mem.hstacks Stack.reborn, mppr := u.mem.mppr }
    dies := { Dies.reset with
      rejoinFail := s.dies.rejoinFail, rejoinOk := s.dies.rejoinOk, bundles := mmap s.dies.bundles Bundle.reborn }
    ports := mmap s.ports Port.reborn, ctl := s.ctl.reborn, mgmt := s.mgmt
    sec := { s.sec with debug := false, running := [] }
    power := s.power.reborn
    rel := { u.rel with
      rscrub := Reliab.reset.rscrub, overwrote := false, overflow := false, handling := none, pend := [], toRerun := [] }
    pins := s.pins }

/-- The status bits of PWSTAT that tell of losses outside the reset dies are kept where no module reset is asked. -/
def keepStatus (p q : Power) : Power :=
  { q with
    floorShort := p.floorShort, wctrlRefused := p.wctrlRefused, inputFault := p.inputFault, ref25Lost := p.ref25Lost
    ref156Lost := p.ref156Lost, ref100Lost := p.ref100Lost, flowLow := p.flowLow, inletHot := p.inletHot
    throttleSeen := p.throttleSeen }

/-- Every domain but D95 is off, and what it held is lost (R382, R385). -/
def allOff (s : State) : State :=
  let r := resetDies s
  { r with power := keepStatus s.power r.power }

/-- The module after the always-on domain has started (R382, R411, R424): only what is fused or non-volatile is left. -/
def powerOn (s : State) (straps : Nat) : State :=
  let r := resetDies s
  { r with
    time := { aon := 0, die := [] }
    compute := { Compute.reset with meres := mmap s.compute.meres Mere.powered }
    mem := { r.mem with hstacks := mmap r.mem.hstacks Stack.powered }
    dies := { Dies.reset with bundles := mmap s.dies.bundles Bundle.powered }
    ports := mmap s.ports Port.powered
    ctl := { Control.reset with serial := s.ctl.serial, idDigest := s.ctl.idDigest, waitCool := s.ctl.waitCool }
    mgmt := Mgmt.reset
    sec := { r.sec with windowUs := 0, pressed := false, stuck := false, jumper := false, jumperIgnore := false, sigFail := 0 }
    power := { Power.reset with clusters := mmap s.power.clusters Cluster.reborn }
    rel := Reliab.reset
    pins := { Pins.reset with straps := straps, level := [6] } }

/-- POWER_ON (R382): the input rises and the always-on domain starts. -/
def execPowerOn (straps : Nat) (s : State) : Ans := .next (powerOn s straps)

/-- INPUT_COLLAPSE (R382): the always-on domain stops as well, and nothing runs until the next power-on. -/
def execInputCollapse (s : State) : Ans :=
  let r := powerOn s s.pins.straps
  .next { r with power := { r.power with domains := [] }, pins := { r.pins with level := [] } }

/-! ## Start-up: the boot chain (R372) -/

/-- The check of R371 that a type's pending image fails, if any: what the report tells, or the fused floor. -/
def pendingFault (s : State) (rep : StartReport) (t : Nat) : Option Nat :=
  match rep.pendingFails.find? (fun e => e.1 == t) with
  | some e => some e.2
  | none =>
    match (banksOf s t).other with
    | some i => if i.svn < fusedFloor s t then some 6 else none
    | none => none

/-- The check that a type's active image fails, if any. -/
def activeFault (s : State) (rep : StartReport) (t : Nat) : Option Nat :=
  match rep.activeFails.find? (fun e => e.1 == t) with
  | some e => some e.2
  | none =>
    match (banksOf s t).active with
    | some i => if i.svn < fusedFloor s t then some 6 else none
    | none => none

/-- The entry of an image rejected at boot (R413): bank 0 the active one, 1 the other. -/
def logImage (s : State) (t check bank : Nat) : State := logNote s 0x28 5 t (toLe 1 check ++ toLe 1 bank)

/-- The image that runs of a type. -/
def runImage (s : State) (t : Nat) (i : Option Image) (spare : Bool) : State :=
  { s with sec := { s.sec with
    running := match i with
      | some x => mput s.sec.running t x
      | none => s.sec.running
    spareBoot := s.sec.spareBoot || spare } }

/-- One type's banks read (R372): a pending image first, one that fails is discarded and logged, then the other bank. The
flag tells whether an image runs. -/
def bootType (s : State) (rep : StartReport) (t : Nat) : State × Bool :=
  let b := banksOf s t
  if b.pending then
    match pendingFault s rep t with
    | none => (runImage s t b.other false, true)
    | some k =>
      let s1 := logImage { s with sec := { s.sec with banks := mput s.sec.banks t { b with other := none, pending := false } } } t k 1
      match activeFault s rep t with
      | none => (runImage s1 t b.active false, true)
      | some k2 => (logImage s1 t k2 0, false)
  else
    match activeFault s rep t with
    | none => (runImage s t b.active false, true)
    | some k =>
      let s1 := logImage s t k 0
      match b.other, pendingFault s rep t with
      | some i, none => (runImage s1 t (some i) true, true)
      | some _, some k2 => (logImage s1 t k2 1, false)
      | none, _ => (s1, false)

/-- A type whose pending image runs: it is active from ready on, and its svn is the stored floor (R372, R373). -/
def activateType (s : State) (t : Nat) : State :=
  let b := banksOf s t
  match b.pending, b.other with
  | true, some i => { s with sec := { s.sec with
      banks := mput s.sec.banks t { active := some i, other := b.active, pending := false }
      storedFloors := mput s.sec.storedFloors t i.svn } }
  | _, _ => s

/-- Every type's images at ready. -/
def activateImages (s : State) : State := [1, 2, 3, 4].foldl activateType s

/-! ## Start-up: the steps of R363 -/

/-- Whether the report ends start-up at a stage code. -/
def failsAt (rep : StartReport) (k : Nat) : Bool := rep.failStage == some k

/-- Start-up ends without Migus firmware (R367). -/
def endNoFirmware (s : State) (code : Nat) : State :=
  { s with
    power := { s.power with domains := [94, 95] }
    ctl := { s.ctl with noFirmware := true, stage := code, selftest := code, endpointOn := true, linkUp := !s.ctl.perst }
    dies := { s.dies with states := mput s.dies.states 5 1 } }

/-- Start-up ends in the safe state (R366). -/
def endSafe (s : State) (code : Nat) : State := enterSafe { s with ctl := { s.ctl with selftest := code } } code

/-- Step 4: the endpoint is enabled, with stage 2 running. -/
def endpointUp (s : State) : State :=
  let v := match mhas s.sec.running 2 with
    | true => (runningOf s 2).version
    | false => s.ctl.fwVersion
  { s with
    power := { s.power with domains := [94, 95] }
    ctl := { s.ctl with stage := 3, fwVersion := v, endpointOn := true, linkUp := !s.ctl.perst }
    sec := { s.sec with bootCount := (s.sec.bootCount + 1) % 2 ^ 32 } }

/-- Domains switched on. -/
def domainsOn (s : State) (l : List Nat) : State :=
  { s with power := { s.power with domains := l.foldl addTo s.power.domains } }

/-- One step of discovery (R251): what it does, and whether it passes. Steps 2 and the self-tests of step 6 fail through the
report only. -/
def discoveryStep (rep : StartReport) (k : Nat) (s : State) : State × Bool :=
  if k = 1 then (domainsOn s [34, 35, 36, 37, 72, 73, 74, 75], true)
  else if k = 3 then (trainBundles rep.badPositions [5, 6] s, true)
  else if k = 4 then checkIdentities rep.identities [5, 0, 1] s
  else if k = 5 then checkIdentities rep.identities [0, 1] (trainBundles rep.badPositions [0] s)
  else if k = 6 then (domainsOn s ((List.range 12).map (· + 76) ++ [93]), true)
  else if k = 7 then checkIdentities rep.identities [2, 3, 4] (trainBundles rep.badPositions [1, 2, 3, 4] s)
  else if k = 8 then (s, !(List.range 7).any (isDown s))
  else (s, true)

/-- The steps of discovery in turn; the one that fails, or that the report says exceeds its bound, ends it. -/
def discoverySteps (rep : StartReport) : List Nat → State → State × Bool
  | [], s => (s, true)
  | k :: t, s =>
    if rep.discoveryStep = some k then (s, false)
    else
      let r := discoveryStep rep k s
      if r.2 then discoverySteps rep t r.1 else r

/-- Step 5 (R251): discovery; its last step writes the die states. -/
def discover (s : State) (rep : StartReport) : State × Bool :=
  let r := discoverySteps rep [1, 2, 3, 4, 5, 6, 7, 8] s
  let ok := !failsAt rep 3 && r.2
  let up : List Nat := if ok then List.range 6 else [5]
  ({ r.1 with dies := { r.1.dies with states := up.foldl (fun m d => mput m d 1) r.1.dies.states } }, ok)

/-- Step 6 (R252): every stack is qualified. -/
def qualify (s : State) (rep : StartReport) : State × Bool :=
  let r := qualifyStacks rep.identities rep.badStacks rep.repairedRows (List.range 8) s
  (r.1, !failsAt rep 4 && r.2)

/-- A Mere that fails its test (R364, R408). -/
def failMere (s : State) (p : Nat) : State :=
  let m := getMere s p
  setMere s p { m with retired := true, nvRetired := m.nvRetired || decide (2 ≤ m.cycles) }

/-- Logical Meres of a die whose physical one is retired move to spares, coolest cluster first. -/
def placeSpares : List Nat → State → State
  | [], s => s
  | l :: t, s =>
    if (getMere s (physOf s l)).retired then
      match coolest s (spareMeres s (l / 128)) with
      | some p => placeSpares t { s with compute := { s.compute with place := mput s.compute.place l p } }
      | none => placeSpares t s
    else placeSpares t s

/-- Every exposed logical Mere. -/
def exposedMeres (s : State) : List Nat :=
  (List.range (meresExposed s 0)) ++ (List.range (meresExposed s 1)).map (· + 128)

/-- A cluster on, at its lowest frequency and idle. -/
def clusterStart (s : State) (c : Nat) : State := setCluster s c { (getCluster s c) with freq := 600, limit := 6 }

/-- Clusters with a Mere left (R384). -/
def liveClusters (s : State) : List Nat := (List.range 68).filter (fun c => (meresOf c).any (fun p => !(getMere s p).retired))

/-- Step 7: cluster domains on, Meres tested. -/
def testMeres (s : State) (rep : StartReport) : State × Bool :=
  let s1 := (rep.badMeres.filter (· < 272)).foldl failMere s
  let on := liveClusters s1
  let s2 := on.foldl clusterStart { s1 with power := { s1.power with domains := (on.map domainOf).foldl addTo s1.power.domains } }
  (placeSpares (exposedMeres s2) s2, !failsAt rep 5 && decide (0 < meresExposed s2 0) && decide (0 < meresExposed s2 1))

/-- A port that fails its loopback (R364). -/
def failPort (s : State) (p : Nat) : State := logNote (setPort s p { getPort s p with loopFail := true }) 0x1A (linkDie p) p (toLe 1 5)

/-- Step 8: every port's loopback. -/
def testPorts (s : State) (rep : StartReport) : State × Bool :=
  let s1 := (rep.badPorts.filter (· < 24)).foldl failPort s
  let dead (l : List Nat) : Bool := l.all (fun p => (getPort s1 p).loopFail)
  (s1, !failsAt rep 6 && !dead (List.range 12) && !dead ((List.range 12).map (· + 12)))

/-- Step 10: ready; what the firmware loads before it (R10): PIDLE and PMIN as measured, RAGE, and the means of the codec
classes, which are the ones it loads at LOAD_JOB (R338; DEDUCED, log 69); port training begins. -/
def becomeReady (s : State) (rep : StartReport) : State :=
  let s1 := activateImages { s with
    ctl := { s.ctl with kstate := 1, stage := 7, selftest := 0 }
    power := { s.power with pidle := rep.pidle, pmin := rep.pmin }
    rel := { s.rel with rage := rageWord s }
    spring := { s.spring with means := (List.range 8).map (fun c => (c, Config.classMean c)) } }
  raiseKirq ((List.range 24).foldl (fun s p =>
    setPort s p { getPort s p with state := if (getPort s p).enable && !(getPort s p).loopFail then 1 else 0 }) s1)

/-- Steps 9 and 10: the cores start from their image; what else their window holds is open. -/
def startCores (s : State) (rep : StartReport) : State :=
  let r := bootType s rep 4
  if failsAt rep 7 || !r.2 then endSafe r.1 7 else becomeReady (hbmForget r.1 coreBase coreSize) rep

/-- Steps 7 and 8. -/
def startUnits (s : State) (rep : StartReport) : State :=
  let m := testMeres s rep
  if !m.2 then endSafe m.1 5
  else
    let p := testPorts m.1 rep
    if !p.2 then endSafe p.1 6 else startCores p.1 rep

/-- Steps 5 and 6. -/
def startDies (s : State) (rep : StartReport) : State :=
  let d := discover s rep
  if !d.2 then endSafe d.1 3
  else
    let q := qualify d.1 rep
    if !q.2 then endSafe q.1 4 else startUnits q.1 rep

/-- Steps 2 to 10 of R363, as the report finds them. -/
def startUp (s : State) (rep : StartReport) : State :=
  let s0 : State := { s with
    ctl := { s.ctl with waitCool := false, kstate := 0, noMainClock := false, noFirmware := false }
    power := { s.power with thermOut := false }, sec := { s.sec with spareBoot := false, running := [] } }
  if failsAt rep 1 then endNoFirmware s0 1
  else
    let c := bootType s0 rep 3
    let b1 := bootType c.1 rep 1
    let b2 := bootType b1.1 rep 2
    if failsAt rep 2 || !b1.2 || !b2.2 then endNoFirmware b2.1 2 else startDies (endpointUp b2.1) rep

/-- Whether start-up may pass step 2: PWRGD asserted, MRST# released, no trip that holds it (R365, R393, R421). -/
def mayStart (s : State) (rep : StartReport) : Bool :=
  s.ctl.powerGood && !s.ctl.mrst && !s.pins.level.contains 3 && (!s.ctl.waitCool || rep.cool)

/-- Start-up where nothing holds it. -/
def tryStart (s : State) (rep : StartReport) : State := if mayStart s rep then startUp s rep else s

/-- Whether start-up has not begun since the last reset: K has no power, and no safe state was entered (R368). -/
def notStarted (s : State) : Bool := !s.power.domains.contains 94 && s.ctl.kstate == 0

end Sys2Proof.Machine
end

