-- ==== Sys2Proof/Machine/Pins.lean ====
section
/-! DEFINITION. The discrete inputs (R421-R423), the input voltage (R382), the reference clocks (R387), K's main clock
(R255). -/

namespace Sys2Proof.Machine

/-! ## PWRGD and the input voltage -/

/-- PWRGD_ASSERT (R363, R422): start-up, or the end of its wait. -/
def execPwrgdAssert (rep : StartReport) (s : State) : Ans :=
  let s1 : State := { s with ctl := { s.ctl with powerGood := true } }
  .next (if s.power.domains.contains 95 then (if notStarted s then capSync s (tryStart s1 rep) else s1) else s)

/-- An input fault (R382): the job fails, an entry is written with the voltage in 10 mV, every domain but D95 goes off. -/
def inputLost (s : State) (volts : Nat) : State :=
  let s1 := jobFailsAll (logNote s 0x22 6 0xFFFF (toLe 2 volts))
  allOff { s1 with power := { s1.power with inputFault := true }, pins := { s1.pins with swFault := true, alertReleased := false } }

/-- INPUT_FAULT. -/
def execInputFault (volts : Nat) (s : State) : Ans := .next (capSync s (inputLost s volts))

/-- The effect of PWRGD deasserted (R422). -/
def powerBad (s : State) : State :=
  let s1 := inputLost s (s.power.pvin.toNat % 65536)
  { s1 with ctl := { s1.ctl with powerGood := false } }

/-- PWRGD_DEASSERT. -/
def execPwrgdDeassert (s : State) : Ans := .next (if s.ctl.powerGood then capSync s (powerBad s) else s)

/-- INPUT_RESTORED (R382): start-up runs again while PWRGD is asserted. -/
def execInputRestored (rep : StartReport) (s : State) : Ans := .next (if notStarted s then capSync s (tryStart s rep) else s)

/-! ## PERST# (R346, R347) -/

/-- Replies that would go to host memory are discarded. -/
def dropHostReplies (s : State) : State :=
  { s with queues := s.queues.map (fun e => (e.1, if bit e.2.sQcfg.toNat 30 then e.2 else { e.2 with replies := [] })) }

/-- The end of the job that PERST# began, once nothing of it is left (R54, R347). -/
def perstFinish (s : State) : State :=
  if s.job.perstEnd then
    let s1 := dropHostReplies s
    if endJobWaits s1 then s1 else capSync s (endJobFinish s1 false)
  else s

/-- The endpoint reset: its BAR, MSI-X and bus-master state; every queue disabled; the job ends as END_JOB with keep clear
would. -/
def endpointReset (s : State) : State :=
  let s1 : State := { s with
    ctl := { s.ctl with linkUp := false, busMaster := false, config := [], msixTable := [] }
    queues := s.queues.map (fun e => (e.1, { e.2 with enable := false })) }
  let s2 := dropHostReplies s1
  if s2.job.loaded then
    let s3 := endJobKill s2
    perstFinish { s3 with job := { s3.job with perstEnd := true } }
  else s2

/-- PERST_ASSERT. -/
def execPerstAssert (s : State) : Ans :=
  let s1 : State := { s with ctl := { s.ctl with perst := true } }
  .next (if s.ctl.perst then s else if s.ctl.endpointOn then capSync s (endpointReset s1) else s1)

/-- PERST_DEASSERT (R346): the link trains once step 4 has passed. -/
def execPerstDeassert (s : State) : Ans :=
  .next { s with
    ctl := { s.ctl with perst := false, linkUp := s.ctl.linkUp || (s.ctl.endpointOn && !s.ctl.noMainClock) }
    pins := { s.pins with perstLong := false } }

/-! ## MRST# (R365) -/

/-- MRST_ASSERT: every die but the always-on domain is reset. -/
def execMrstAssert (s : State) : Ans :=
  let r := resetDies s
  .next (capSync s { r with ctl := { r.ctl with mrst := true } })

/-- MRST_RELEASE: start-up from step 2. -/
def execMrstRelease (rep : StartReport) (s : State) : Ans :=
  let s1 : State := { s with ctl := { s.ctl with mrst := false }, pins := { s.pins with mrstLong := false } }
  .next (if s.power.domains.contains 95 then (if notStarted s then capSync s (tryStart s1 rep) else s1) else s)

/-! ## THERMTRIP_IN# (R393, R421) -/

/-- A trip by the input. -/
def inputTrip (s : State) : State :=
  tripNow { s with pins := { s.pins with level := addTo s.pins.level 3 } } 6 0xFFFF (toLe 2 0 ++ toLe 1 1) false

/-- THERMTRIP_IN_ASSERT. -/
def execThermtripInAssert (s : State) : Ans := .next (if s.pins.level.contains 3 then s else capSync s (inputTrip s))

/-- THERMTRIP_IN_RELEASE. -/
def execThermtripInRelease (s : State) : Ans := .next { s with pins := { s.pins with level := dropFrom s.pins.level 3 } }

/-! ## Glitches, invalid inputs, timeouts (R421) -/

/-- INPUT_GLITCH: ignored and counted, saturating at 255. -/
def execInputGlitch (idx : Nat) (s : State) : Ans :=
  onUnit (decide (idx < 7)) "discrete input" idx
    { s with pins := { s.pins with glitches := mput s.pins.glitches idx (satAdd 8 (mget 0 s.pins.glitches idx) 1) } }

/-- What an invalid input is taken for; PERST#, MRST# and PRESENCE hold their filtered levels. -/
def takenFor (s : State) (idx : Nat) : State :=
  if idx = 0 then (if s.ctl.powerGood then powerBad s else s)
  else if idx = 3 then (if s.pins.level.contains 3 then s else inputTrip s)
  else if idx = 5 then jumperOut s
  else if idx = 6 then sealOpen s
  else s

/-- INPUT_INVALID. -/
def execInputInvalid (idx : Nat) (s : State) : Ans :=
  onUnit (decide (idx < 7)) "discrete input" idx
    (capSync s (takenFor { s with pins := { s.pins with invalid := addTo s.pins.invalid idx } } idx))

/-- PERST_LONG. -/
def execPerstLong (s : State) : Ans := .next (if s.ctl.perst then { s with pins := { s.pins with perstLong := true } } else s)

/-- MRST_LONG. -/
def execMrstLong (s : State) : Ans := .next (if s.ctl.mrst then { s with pins := { s.pins with mrstLong := true } } else s)

/-- JUMPER_LONG: presence stays as it is. -/
def execJumperLong (s : State) : Ans := .next (if s.sec.jumper then { s with pins := { s.pins with jumperLong := true } } else s)

/-! ## Clocks -/

/-- The 25 MHz board reference lost (R387): the job fails, every domain but D95 goes off, safe state with code 0x09. -/
def lose25 (s : State) : State :=
  let s1 := jobFailsAll { s with power := { s.power with ref25Lost := true } }
  let s2 := domainsOff (portsGone (List.range 24) s1) (List.range 95)
  let s3 := enterSafe s2 9
  { s3 with ctl := { s3.ctl with linkUp := false, endpointOn := false, noMainClock := true } }

/-- The entry of a lost reference (R413). -/
def logReference (s : State) (which : Nat) : State := logNote s 0x23 5 which []

/-- REFERENCE_LOST (R387). -/
def referenceLost (s : State) (which : Nat) : State :=
  let s1 := logReference s which
  if which = 0 then lose25 s1
  else if which = 1 then portsDown 1 (List.range 24) { s1 with power := { s1.power with ref156Lost := true } }
  else
    let s2 : State := { s1 with power := { s1.power with ref100Lost := true } }
    if s2.ctl.endpointOn && s2.ctl.linkUp then endpointReset s2 else s2

/-- REFERENCE_LOST: 0 25 MHz, 1 156.25 MHz, 2 100 MHz. -/
def execReferenceLost (which : Nat) (s : State) : Ans :=
  onUnit (decide (which < 3)) "reference" which (capSync s (referenceLost s which))

/-- K_CLOCK_LOSS (R255): no new command; the PCIe link goes down; DSTAT tells it, and the management controller reports the
event on its active port. -/
def execKClockLoss (s : State) : Ans :=
  let s1 : State := { markLost s [5] with ctl := { s.ctl with noMainClock := true, linkUp := false } }
  let link := if s.mgmt.active = 0 then s.mgmt.link0 else s.mgmt.link1
  .next (if s.power.domains.contains 94 then (if link then emit s1 (.managementEvent s.mgmt.active 5) else s1) else s)

end Sys2Proof.Machine
end

