-- ==== Sys2Proof/Machine/Dispatch.lean ====
section
/-! DEFINITION. One arm for each command: its meaning. -/

namespace Sys2Proof.Machine

/-- The effect of a command on everything but the queue. -/
def exec (i : Instr) (s : State) : Host.Outcome State Fault Refusal :=
  match i with
  | .matmul cid => Sys2Proof.Machine.execMatmul cid s
  | .matmulBwd cid => Sys2Proof.Machine.execMatmulBwd cid s
  | .conv cid => Sys2Proof.Machine.execConv cid s
  | .pool cid => Sys2Proof.Machine.execPool cid s
  | .vector cid => Sys2Proof.Machine.execVector cid s
  | .stats cid => Sys2Proof.Machine.execStats cid s
  | .attnBlock cid => Sys2Proof.Machine.execAttnBlock cid s
  | .copy cid => Sys2Proof.Machine.execCopy cid s
  | .hostCopy cid host => Sys2Proof.Machine.execHostCopy cid host s
  | .fill cid => Sys2Proof.Machine.execFill cid s
  | .compress cid => Sys2Proof.Machine.execCompress cid s
  | .decompress cid => Sys2Proof.Machine.execDecompress cid s
  | .pipeSend cid => Sys2Proof.Machine.execPipeSend cid s
  | .pipeRecv cid => Sys2Proof.Machine.execPipeRecv cid s
  | .alloc cid => Sys2Proof.Machine.execAlloc cid s
  | .free cid => Sys2Proof.Machine.execFree cid s
  | .reduceScatter cid => Sys2Proof.Machine.execReduceScatter cid s
  | .allGather cid => Sys2Proof.Machine.execAllGather cid s
  | .kvRing cid => Sys2Proof.Machine.execKvRing cid s
  | .kvRingBwd cid => Sys2Proof.Machine.execKvRingBwd cid s
  | .ingestOpen cid => Sys2Proof.Machine.execIngestOpen cid s
  | .ingestBatch cid => Sys2Proof.Machine.execIngestBatch cid s
  | .ingestRelease cid => Sys2Proof.Machine.execIngestRelease cid s
  | .ingestSeek cid => Sys2Proof.Machine.execIngestSeek cid s
  | .dictLoad cid => Sys2Proof.Machine.execDictLoad cid s
  | .updateSgd cid => Sys2Proof.Machine.execUpdateSgd cid s
  | .updateAdam cid => Sys2Proof.Machine.execUpdateAdam cid s
  | .updateLion cid => Sys2Proof.Machine.execUpdateLion cid s
  | .lossScale cid => Sys2Proof.Machine.execLossScale cid s
  | .mirrorConfig cid => Sys2Proof.Machine.execMirrorConfig cid s
  | .snapshot cid => Sys2Proof.Machine.execSnapshot cid s
  | .restore cid host => Sys2Proof.Machine.execRestore cid host s
  | .mirrorVerify cid => Sys2Proof.Machine.execMirrorVerify cid s
  | .loadJob cid => Sys2Proof.Machine.execLoadJob cid s
  | .endJob cid => Sys2Proof.Machine.execEndJob cid s
  | .phase cid => Sys2Proof.Machine.execPhase cid s
  | .stepBegin cid => Sys2Proof.Machine.execStepBegin cid s
  | .suspend cid => Sys2Proof.Machine.execSuspend cid s
  | .resume cid => Sys2Proof.Machine.execResume cid s
  | .tokenSet cid => Sys2Proof.Machine.execTokenSet cid s
  | .nop cid => Sys2Proof.Machine.execNop cid s
  | .fwDowngrade cid host => Sys2Proof.Machine.execFwDowngrade cid host s
  | .keyRotate cid => Sys2Proof.Machine.execKeyRotate cid s
  | .debugUnlock cid host => Sys2Proof.Machine.execDebugUnlock cid host s
  | .spareOverride cid => Sys2Proof.Machine.execSpareOverride cid s
  | .fuseWrite cid => Sys2Proof.Machine.execFuseWrite cid s
  | .telemetryRead cid => Sys2Proof.Machine.execTelemetryRead cid s
  | .powerCap cid => Sys2Proof.Machine.execPowerCap cid s
  | .quotaSet cid => Sys2Proof.Machine.execQuotaSet cid s
  | .errlogRead cid => Sys2Proof.Machine.execErrlogRead cid s
  | .fwUpdate cid host => Sys2Proof.Machine.execFwUpdate cid host s
  | .attest cid => Sys2Proof.Machine.execAttest cid s
  | .packetFetch q host hbm => Sys2Proof.Machine.execPacketFetch q host hbm s
  | .commandDispatch q => Sys2Proof.Machine.execCommandDispatch q s
  | .tokenWaitTimeout q => Sys2Proof.Machine.execTokenWaitTimeout q s
  | .commandCommit cid => Sys2Proof.Machine.execCommandCommit cid s
  | .replyWrite q hbm => Sys2Proof.Machine.execReplyWrite q hbm s
  | .replyRetry q hbm => Sys2Proof.Machine.execReplyRetry q hbm s
  | .queueDoorbell q v => Sys2Proof.Machine.execQueueDoorbell q v s
  | .queueEnable q => Sys2Proof.Machine.execQueueEnable q s
  | .queueDisable q => Sys2Proof.Machine.execQueueDisable q s
  | .queuePause q on => Sys2Proof.Machine.execQueuePause q on s
  | .qtimeoutWrite q v => Sys2Proof.Machine.execQtimeoutWrite q v s
  | .rheadUpdate q v => Sys2Proof.Machine.execRheadUpdate q v s
  | .registerWrite src off size v => Sys2Proof.Machine.execRegisterWrite src off size v s
  | .guardConfigWrite src tag reg v => Sys2Proof.Machine.execGuardConfigWrite src tag reg v s
  | .sshareWrite src die v => Sys2Proof.Machine.execSshareWrite src die v s
  | .sdshareWrite src stream v => Sys2Proof.Machine.execSdshareWrite src stream v s
  | .sourceTailWrite src stream reserve v => Sys2Proof.Machine.execSourceTailWrite src stream reserve v s
  | .wctrlWrite src v => Sys2Proof.Machine.execWctrlWrite src v s
  | .freqTargetWrite src v => Sys2Proof.Machine.execFreqTargetWrite src v s
  | .portRetrain src p => Sys2Proof.Machine.execPortRetrain src p s
  | .portEnable src p => Sys2Proof.Machine.execPortEnable src p s
  | .portDisable src p => Sys2Proof.Machine.execPortDisable src p s
  | .genCapWrite src p v => Sys2Proof.Machine.execGenCapWrite src p v s
  | .endWindow src => Sys2Proof.Machine.execEndWindow src s
  | .jumperIgnoreWrite src on => Sys2Proof.Machine.execJumperIgnoreWrite src on s
  | .hostMailboxWrite src v => Sys2Proof.Machine.execHostMailboxWrite src v s
  | .coreMailboxWrite v => Sys2Proof.Machine.execCoreMailboxWrite v s
  | .rscrubWrite src v => Sys2Proof.Machine.execRscrubWrite src v s
  | .dpDataAccess write hbm => Sys2Proof.Machine.execDpDataAccess write hbm s
  | .apertureRead at_ len hbm => Sys2Proof.Machine.execApertureRead at_ len hbm s
  | .apertureWrite at_ data hbm => Sys2Proof.Machine.execApertureWrite at_ data hbm s
  | .pcieConfigRequest off write => Sys2Proof.Machine.execPcieConfigRequest off write s
  | .mgmtBurstRead port dgram hbm => Sys2Proof.Machine.execMgmtBurstRead port dgram hbm s
  | .mgmtBurstWrite port dgram hbm => Sys2Proof.Machine.execMgmtBurstWrite port dgram hbm s
  | .mgmtRegisterRead port dgram hbm => Sys2Proof.Machine.execMgmtRegisterRead port dgram hbm s
  | .mgmtRegisterWrite port dgram hbm => Sys2Proof.Machine.execMgmtRegisterWrite port dgram hbm s
  | .mgmtCommand port dgram host => Sys2Proof.Machine.execMgmtCommand port dgram host s
  | .statusWord pec => Sys2Proof.Machine.execStatusWord pec s
  | .clearFaults pec => Sys2Proof.Machine.execClearFaults pec s
  | .readVin pec => Sys2Proof.Machine.execReadVin pec s
  | .readIin pec => Sys2Proof.Machine.execReadIin pec s
  | .readPin pec => Sys2Proof.Machine.execReadPin pec s
  | .smbusDpAddr pec high write => Sys2Proof.Machine.execSmbusDpAddr pec high write s
  | .smbusDpData pec write hbm => Sys2Proof.Machine.execSmbusDpData pec write hbm s
  | .smbusDpCtrl pec write => Sys2Proof.Machine.execSmbusDpCtrl pec write s
  | .smbusDiscstat pec write => Sys2Proof.Machine.execSmbusDiscstat pec write s
  | .smbusDiscglitch pec high => Sys2Proof.Machine.execSmbusDiscglitch pec high s
  | .pwrgdAssert rep => Sys2Proof.Machine.execPwrgdAssert rep s
  | .pwrgdDeassert => Sys2Proof.Machine.execPwrgdDeassert s
  | .perstAssert => Sys2Proof.Machine.execPerstAssert s
  | .perstDeassert => Sys2Proof.Machine.execPerstDeassert s
  | .mrstAssert => Sys2Proof.Machine.execMrstAssert s
  | .mrstRelease rep => Sys2Proof.Machine.execMrstRelease rep s
  | .thermtripInAssert => Sys2Proof.Machine.execThermtripInAssert s
  | .presencePress => Sys2Proof.Machine.execPresencePress s
  | .presenceRelease => Sys2Proof.Machine.execPresenceRelease s
  | .presenceWindowExpiry => Sys2Proof.Machine.execPresenceWindowExpiry s
  | .presenceStuck => Sys2Proof.Machine.execPresenceStuck s
  | .jumperFitted => Sys2Proof.Machine.execJumperFitted s
  | .jumperRemoved => Sys2Proof.Machine.execJumperRemoved s
  | .sealBroken invalid => Sys2Proof.Machine.execSealBroken invalid s
  | .inputGlitch idx => Sys2Proof.Machine.execInputGlitch idx s
  | .inputInvalid idx => Sys2Proof.Machine.execInputInvalid idx s
  | .perstLong => Sys2Proof.Machine.execPerstLong s
  | .mrstLong => Sys2Proof.Machine.execMrstLong s
  | .jumperLong => Sys2Proof.Machine.execJumperLong s
  | .inputFault volts => Sys2Proof.Machine.execInputFault volts s
  | .inputRestored rep => Sys2Proof.Machine.execInputRestored rep s
  | .inputCollapse => Sys2Proof.Machine.execInputCollapse s
  | .referenceLost which => Sys2Proof.Machine.execReferenceLost which s
  | .kClockLoss => Sys2Proof.Machine.execKClockLoss s
  | .thermalTrip sensor reading onK => Sys2Proof.Machine.execThermalTrip sensor reading onK s
  | .junctionSensorRead sensor reading => Sys2Proof.Machine.execJunctionSensorRead sensor reading s
  | .thermalLimitStep cluster => Sys2Proof.Machine.execThermalLimitStep cluster s
  | .inletHot inlet => Sys2Proof.Machine.execInletHot inlet s
  | .flowLow inlet outlet => Sys2Proof.Machine.execFlowLow inlet outlet s
  | .cpmCheck cluster margin => Sys2Proof.Machine.execCpmCheck cluster margin s
  | .droopHoldExpiry cluster short => Sys2Proof.Machine.execDroopHoldExpiry cluster short s
  | .frequencyStep cluster => Sys2Proof.Machine.execFrequencyStep cluster s
  | .weirSample demand power volts amps fillerJ short => Sys2Proof.Machine.execWeirSample demand power volts amps fillerJ short s
  | .weirMeanUpdate mean => Sys2Proof.Machine.execWeirMeanUpdate mean s
  | .dutyCyclePeriod => Sys2Proof.Machine.execDutyCyclePeriod s
  | .domainRampDone d => Sys2Proof.Machine.execDomainRampDone d s
  | .placementRemap die temps => Sys2Proof.Machine.execPlacementRemap die temps s
  | .sliceLoadDone cid mere region load => Sys2Proof.Machine.execSliceLoadDone cid mere region load s
  | .mereStart mere => Sys2Proof.Machine.execMereStart mere s
  | .gangStart cid => Sys2Proof.Machine.execGangStart cid s
  | .arraySliceDone cid mere at_ slice fixed => Sys2Proof.Machine.execArraySliceDone cid mere at_ slice fixed s
  | .drainOutputBlock cid mere at_ block fixed => Sys2Proof.Machine.execDrainOutputBlock cid mere at_ block fixed s
  | .stagedBlockWriteback mere array => Sys2Proof.Machine.execStagedBlockWriteback mere array s
  | .combineReceive cid mere sender at_ fixed => Sys2Proof.Machine.execCombineReceive cid mere sender at_ fixed s
  | .haloReceive cid mere sender fixed => Sys2Proof.Machine.execHaloReceive cid mere sender fixed s
  | .hbmSlotGrant stack gap background arrivals estimates => Sys2Proof.Machine.execHbmSlotGrant stack gap background arrivals estimates s
  | .hbmUncorrectableRead user shared addr outcome mirror => Sys2Proof.Machine.execHbmUncorrectableRead user shared addr outcome mirror s
  | .hbmFlitCrcFail stack resend read => Sys2Proof.Machine.execHbmFlitCrcFail stack resend read s
  | .stackTempReport stack temp => Sys2Proof.Machine.execStackTempReport stack temp s
  | .compressedBlockDecode cid desc block seen => Sys2Proof.Machine.execCompressedBlockDecode cid desc block seen s
  | .bundleFlitCrcFail b flit retrainOk => Sys2Proof.Machine.execBundleFlitCrcFail b flit retrainOk s
  | .bundleWindowEnd b => Sys2Proof.Machine.execBundleWindowEnd b s
  | .bundleLivenessSend b farEnd => Sys2Proof.Machine.execBundleLivenessSend b farEnd s
  | .bundleLivenessTimeout b => Sys2Proof.Machine.execBundleLivenessTimeout b s
  | .rejoinAttempt die rep => Sys2Proof.Machine.execRejoinAttempt die rep s
  | .rejoinRetryTimer die => Sys2Proof.Machine.execRejoinRetryTimer die s
  | .sResume => Sys2Proof.Machine.execSResume s
  | .portTrainingAttempt p rep => Sys2Proof.Machine.execPortTrainingAttempt p rep s
  | .portTrainingRetry p => Sys2Proof.Machine.execPortTrainingRetry p s
  | .linkFlitSend p => Sys2Proof.Machine.execLinkFlitSend p s
  | .linkFlitReceive p flit => Sys2Proof.Machine.execLinkFlitReceive p flit s
  | .replayTimeout p retrainOk => Sys2Proof.Machine.execReplayTimeout p retrainOk s
  | .portSilenceTimeout p => Sys2Proof.Machine.execPortSilenceTimeout p s
  | .laneFailure p lane retrainOk => Sys2Proof.Machine.execLaneFailure p lane retrainOk s
  | .fecWindowEnd p => Sys2Proof.Machine.execFecWindowEnd p s
  | .eqAdapt p margins => Sys2Proof.Machine.execEqAdapt p margins s
  | .eqRequest p lane coeff up => Sys2Proof.Machine.execEqRequest p lane coeff up s
  | .portPhaseSwitch p => Sys2Proof.Machine.execPortPhaseSwitch p s
  | .basinInputReceive hdr payload => Sys2Proof.Machine.execBasinInputReceive hdr payload s
  | .collectiveW1Expiry cid => Sys2Proof.Machine.execCollectiveW1Expiry cid s
  | .collectiveW2Expiry cid => Sys2Proof.Machine.execCollectiveW2Expiry cid s
  | .closeWordReceive hdr payload => Sys2Proof.Machine.execCloseWordReceive hdr payload s
  | .pullRequestReceive hdr payload => Sys2Proof.Machine.execPullRequestReceive hdr payload s
  | .releaseWordReceive hdr payload => Sys2Proof.Machine.execReleaseWordReceive hdr payload s
  | .standbyTimeout cid => Sys2Proof.Machine.execStandbyTimeout cid s
  | .updateVerdictReady cid => Sys2Proof.Machine.execUpdateVerdictReady cid s
  | .eddyBlockArrive hdr payload => Sys2Proof.Machine.execEddyBlockArrive hdr payload s
  | .eddySlotRelease cid slot => Sys2Proof.Machine.execEddySlotRelease cid slot s
  | .eddyAccumulatorArrive hdr payload => Sys2Proof.Machine.execEddyAccumulatorArrive hdr payload s
  | .pipeEntryArrive hdr payload => Sys2Proof.Machine.execPipeEntryArrive hdr payload s
  | .pipeCreditReceive hdr => Sys2Proof.Machine.execPipeCreditReceive hdr s
  | .shortMessageReceive hdr payload => Sys2Proof.Machine.execShortMessageReceive hdr payload s
  | .mirrorBlockReceive hdr payload => Sys2Proof.Machine.execMirrorBlockReceive hdr payload s
  | .mirrorBreakTimeout slot => Sys2Proof.Machine.execMirrorBreakTimeout slot s
  | .mirrorConfigTimeout cid => Sys2Proof.Machine.execMirrorConfigTimeout cid s
  | .batchAssemblyStart stream => Sys2Proof.Machine.execBatchAssemblyStart stream s
  | .recordRead stream => Sys2Proof.Machine.execRecordRead stream s
  | .fieldDecodeDone stream slot output media cycles => Sys2Proof.Machine.execFieldDecodeDone stream slot output media cycles s
  | .decodeBudgetExpiry stream slot output => Sys2Proof.Machine.execDecodeBudgetExpiry stream slot output s
  | .batchDeadline stream => Sys2Proof.Machine.execBatchDeadline stream s
  | .batchCommit stream => Sys2Proof.Machine.execBatchCommit stream s
  | .reserveRefill stream media => Sys2Proof.Machine.execReserveRefill stream media s
  | .hbmScrubRead stack off last outcome overtaken => Sys2Proof.Machine.execHbmScrubRead stack off last outcome overtaken s
  | .sramScrub where_ outcome => Sys2Proof.Machine.execSramScrub where_ outcome s
  | .sensorCalibration sensor offset => Sys2Proof.Machine.execSensorCalibration sensor offset s
  | .monitorRecalibration cluster => Sys2Proof.Machine.execMonitorRecalibration cluster s
  | .ageingMeasurement cluster drift => Sys2Proof.Machine.execAgeingMeasurement cluster drift s
  | .telemetryGather => Sys2Proof.Machine.execTelemetryGather s
  | .containedError err => Sys2Proof.Machine.execContainedError err s
  | .containmentDone => Sys2Proof.Machine.execContainmentDone s
  | .mgtRateSearch port => Sys2Proof.Machine.execMgtRateSearch port s
  | .mgtFailover => Sys2Proof.Machine.execMgtFailover s
  | .powerOn straps => Sys2Proof.Machine.execPowerOn straps s
  | .thermtripInRelease => Sys2Proof.Machine.execThermtripInRelease s
  | .mgtLinkUp port => Sys2Proof.Machine.execMgtLinkUp port s
  | .mgtLinkDown port => Sys2Proof.Machine.execMgtLinkDown port s
  | .mgmtNetworkFrame port frame => Sys2Proof.Machine.execMgmtNetworkFrame port frame s
  | .decoderWindow => Sys2Proof.Machine.execDecoderWindow s
  | .gatheredPieceReceive hdr payload => Sys2Proof.Machine.execGatheredPieceReceive hdr payload s
  | .pipeEntryAcknowledge hdr accepted => Sys2Proof.Machine.execPipeEntryAcknowledge hdr accepted s
  | .mirrorMessageReceive hdr msg => Sys2Proof.Machine.execMirrorMessageReceive hdr msg s

end Sys2Proof.Machine
end

