-- ==== Sys2Proof/Machine/Tick.lean ====
section
/-! DEFINITION. One microsecond of time, which the block spends while no command waits (log 1). -/

namespace Sys2Proof.Machine

/-- The time counters (R6): 100 cycles of the always-on clock, and 25 of each die that is up. -/
def Time.tick (t : Time) (up : List Nat) : Time :=
  { aon := t.aon + 100, die := up.foldl (fun m d => mmod 0 m d (· + 25)) t.die }

/-- Dies that are up. -/
def upDies (s : State) : List Nat := (List.range 6).filter (fun d => dieState s d == 1)

/-- Whether a command's wait time runs (R46): the oldest of a queue that is running, with a counter short. -/
def waits (s : State) (c : Cmd) : Bool :=
  queueState s c.q == 1 && c.stage == .fetched && (firstShort s c.waits).isSome &&
  (match oldest s c.q with
    | some o => o.cid == c.cid
    | none => false)

/-- One microsecond passes. -/
def tick (s : State) : State :=
  let s1 : State := { s with
    time := s.time.tick (upDies s)
    cmds := s.cmds.map (fun c => if waits s c then { c with waitUs := c.waitUs + 1 } else c)
    sec := { s.sec with windowUs := s.sec.windowUs - 1 }
    dies := { s.dies with bundles := s.dies.bundles.map (fun e => (e.1, e.2.idle e.1)) } }
  if s.power.domains.contains 95 then perstFinish s1 else s

end Sys2Proof.Machine
end

