-- ==== Sys2Proof/Safety.lean ====
section
/-! DEFINITION. The terms in which the statements speak of the module: the invariant that every step keeps, and what becomes
of a command in flight (R46, R48). -/

namespace Sys2Proof.Machine

/-- The memory of a state is in its canonical form. -/
abbrev Safe (s : State) : Prop := s.mem.wf = true

/-- A byte address outside every range of a list. -/
def Outside (l : List (Nat × Nat)) (a : Nat) : Prop := ∀ r ∈ l, a < r.1 ∨ r.1 + r.2 ≤ a

/-- A byte address inside one of the ranges of a list. -/
def Inside (l : List (Nat × Nat)) (a : Nat) : Prop := ∃ r ∈ l, r.1 ≤ a ∧ a < r.1 + r.2

/-- The work of command `c` is done and its result `r` waits for the commit (R48): what it writes stays undefined for every
other reader until then (its claims stand since its dispatch), every byte, every other command and every other part of the
module is as before; loads may have counted in the compression registers (R227). -/
structure Executed (s t : State) (c : Cmd) (r : Result) : Prop where
  command : findCmd t c.cid = some { c with stage := .executed, result := some r }
  others : ∀ n, n ≠ c.cid → findCmd t n = findCmd s n
  rest : t = { s with cmds := t.cmds, compute := { s.compute with zips := t.compute.zips } }

/-- Command `c` is over with a status (R46): it is gone with its claims, its token act has been done, its reply waits in its
queue's ring unless it was quiet and OK (R33); a byte that no command had claimed reads as before, and what it had claimed
and not committed is undefined (R48), but for a MATMUL_BWD that is killed (R161). A poison may have ended other commands in
turn, and frames picked for an ALLOC go back (R233, R241): beside commands, queues, tokens, Meres, claims, stacks and the
error log nothing differs. -/
structure Ended (s t : State) (c : Cmd) (e : Err) (work : Nat) : Prop where
  gone : findCmd t c.cid = none
  reply : ((finalStatus c e).1 = 0 ∧ c.isQuiet = true) ∨ replyOf s c (finalStatus c e) work ∈ (getQueue t c.q).replies
  signal : signals (finalStatus c e).1 = true → c.signal ≠ 0 →
    (getCounter t c.signal).count = BitVec.ofNat 16 (min ((getCounter s c.signal).count.toNat + (c.sigInc + 1)) 0xFFFF)
  poison : signals (finalStatus c e).1 = false → c.signal ≠ 0 →
    (getCounter t c.signal).poison = true ∧ (getCounter t c.signal).count = (getCounter s c.signal).count
  released : ∀ u ∈ t.mem.claims, u.cid ≠ c.cid
  bytes : ∀ a, claimAt s.mem.claims a = none → t.mem.read a = s.mem.read a
  undefined : ¬(c.opcode = 0x0102 ∧ (finalStatus c e).1 = 0x41) → ∀ u ∈ s.mem.claims, u.cid = c.cid →
    ∀ a, u.start ≤ a → a < u.start + u.len → ∃ n, t.mem.read a = Config.freeByte n a
  rest : t = { s with
    cmds := t.cmds, queues := t.queues, counters := t.counters, compute := { s.compute with meres := t.compute.meres }
    rel := t.rel
    mem := { s.mem with
      undef := t.mem.undef, claims := t.mem.claims, picked := t.mem.picked, hstacks := t.mem.hstacks, mppr := t.mem.mppr } }

/-- Command `c` of serial number `cid` and opcode `op` is dispatched and its work is not done (R46, R48). -/
abbrev Dispatched (s : State) (cid op : Nat) (c : Cmd) : Prop :=
  findCmd s cid = some c ∧ c.stage = .dispatched ∧ c.opcode = op

/-- Command `c` of serial number `cid` and opcode `op` is dispatched, has started on every Mere that it names, and its work is
not done (R97, R193). -/
abbrev Running (s : State) (cid op : Nat) (c : Cmd) : Prop := Dispatched s cid op c ∧ hasMeres s c = true

/-- Row `i` does the work of opcode `op`, whose checks at issue are `issue` and whose work is `run`. On a command that is running
there, both read the memory as the command itself sees it (R48): with the checks passed and a status that signals, the result
waits for the commit; a check that fails ends the command with its status (R110); work that fails ends it with its own status,
its reads counted (R223, R227). A command that still waits for one of its Meres does nothing yet (R97, R193). -/
def DoesWork (i : Nat → Instr) (op : Nat) (issue : State → Cmd → Option Err) (run : State → Cmd → Run) : Prop :=
  ∀ (s : State) (cid : Nat) (c : Cmd) (r : Result), r = (run (ownView s cid) c).result →
    (Running s cid op c → issue (ownView s cid) c = none → signals r.status = true →
      ∃ t, exec (i cid) s = .next t ∧ Executed s t c r) ∧
    (Running s cid op c → issue (ownView s cid) c = none → signals r.status = false →
      ∃ t z, exec (i cid) s = .next t ∧
        Ended { s with compute := { s.compute with zips := z } } t c (r.status, r.detail) r.work) ∧
    (∀ e, Running s cid op c → issue (ownView s cid) c = some e → signals e.1 = false →
      ∃ t, exec (i cid) s = .next t ∧ Ended s t c e 0) ∧
    (Dispatched s cid op c → hasMeres s c = false → exec (i cid) s = .next s)

/-- Row `i` runs update commands of opcode `op` (R168, R295): a failing check ends the command; until the step verdict is final
it waits; a non-finite verdict leaves it with STEP_NONFINITE and nothing to write but the clip factor; else its new state waits
for the commit, its mirror filled and each element's new high half readable (R163, R308). -/
def UpdatesBy (i : Nat → Instr) (op : Nat) : Prop :=
  ∀ (s : State) (cid : Nat) (c : Cmd), Dispatched s cid op c →
    (∀ e, updateIssue s c = some e → ∃ t, exec (i cid) s = .next t ∧ Ended s t c e 0) ∧
    (updateIssue s c = none → s.peers.final = false → exec (i cid) s = .next s) ∧
    (updateIssue s c = none → s.peers.final = true → s.peers.nonfinite = true →
      ∃ t, exec (i cid) s = .next t ∧ Executed s t c (skippedResult s c)) ∧
    (updateIssue s c = none → s.peers.final = true → s.peers.nonfinite = false →
      ∃ t, exec (i cid) s = .next t ∧ Executed (updateOffered s c) t c (updateResult s c))

/-- `t` is the state `u`, but for the update count of the capability record, which follows what the record describes
(R23). -/
def Counted (u t : State) : Prop := t = { u with ctl := { u.ctl with updateCount := t.ctl.updateCount } }

/-- Row `i`, where start-up has not begun, puts the module into the state `put s` and starts it up from there (R363): it waits
while PWRGD, MRST#, a held trip or heat forbid it; a step that fails ends it without firmware up to step 4 (R367), in the safe
state with the step's stage code after it (R366); on a module on which nothing is wrong it ends ready. -/
def StartsUp (i : StartReport → Instr) (put : State → State) : Prop :=
  ∀ (s : State) (rep : StartReport), 95 ∈ s.power.domains → notStarted s = true →
    (mayStart (put s) rep = false → ∃ t, exec (i rep) s = .next t ∧ Counted (put s) t) ∧
    (∀ k, (k = 1 ∨ k = 2) → mayStart (put s) rep = true → rep.failStage = some k →
      ∃ t, exec (i rep) s = .next t ∧ t.ctl.noFirmware = true ∧ t.ctl.stage = k ∧ t.ctl.selftest = k ∧ t.ctl.kstate = 0 ∧
        t.power.domains = [94, 95]) ∧
    (mayStart (put s) rep = true → rep.pendingFails = [] → rep.activeFails = [] →
      (∀ k, 1 ≤ k → k ≤ 4 → (banksOf s k).pending = false ∧ ∃ x, (banksOf s k).active = some x ∧ fusedFloor s k ≤ x.svn) →
      (rep.failStage = some 3 → ∃ t, exec (i rep) s = .next t ∧ t.ctl.kstate = 2 ∧ t.ctl.stage = 3 ∧ t.ctl.selftest = 3) ∧
      (rep.discoveryStep = none → rep.identities = [] → rep.badStacks = [] → rep.badMeres = [] →
        rep.badPorts = [] → rep.badPositions = [] → rep.repairedRows = [] → s.dies = Dies.reset → s.mem.hstacks = [] →
        s.compute.meres = [] → (∀ p, (getPort s p).loopFail = false) →
        (∀ k, 4 ≤ k → k ≤ 7 → rep.failStage = some k →
          ∃ t, exec (i rep) s = .next t ∧ t.ctl.kstate = 2 ∧ t.ctl.stage = k ∧ t.ctl.selftest = k) ∧
        (rep.failStage = none → ∃ t, exec (i rep) s = .next t ∧ t.ctl.kstate = 1 ∧ t.ctl.stage = 7 ∧ t.ctl.selftest = 0 ∧
          t.ctl.endpointOn = true ∧ (∀ d, d < 6 → dieState t d = 1) ∧ t.job.loaded = s.job.loaded)))

/-- A datagram `b` at port `p` is served as `r` says and answered with its result and data (R360). -/
def Answered (t : State) (p : Nat) (b : Bytes) (r : Served) : Prop :=
  Counted { r.1 with out := r.1.out ++ [.datagram p (dgReply b r.2.1 r.2.2)] } t

/-- Row `i`, of opcode `op`, takes an image where `may` holds (R371-R374): one that is not delivered, or is older than its
floor, is BAD_PARAM; one that fails a check, or is no firmware, is SIGNATURE_INVALID and counted; else it becomes the pending
image of its type. -/
def StoresImage (i : Nat → HostRead → Instr) (op : Nat) (down : Bool) (floor : State → Nat → Nat) (may : State → Prop) : Prop :=
  ∀ (s : State) (cid : Nat) (c : Cmd), Dispatched s cid op c → may s →
    (∃ t, exec (i cid .failed) s = .next t ∧ Ended s t c (0x11, 0x210) 0) ∧
    (∀ b, imageFault s b ≠ none ∨ field b 5 1 = 0x10 →
      ∃ t, exec (i cid (.data b)) s = .next t ∧
        Ended { s with sec := { s.sec with sigFail := satAdd 32 s.sec.sigFail 1 } } t c (signatureInvalid (imageType b)) 0) ∧
    (∀ b, imageFault s b = none → field b 5 1 ≠ 0x10 →
      (field b 0x10 4 < floor s (field b 5 1) → ∃ t, exec (i cid (.data b)) s = .next t ∧ Ended s t c (0x11, 0x610) 0) ∧
      (floor s (field b 5 1) ≤ field b 0x10 4 →
        ∃ t, exec (i cid (.data b)) s = .next t ∧ Ended (storePending s (imageOf b down)) t c (0, 0) 0 ∧
          banksOf t (field b 5 1) =
            { banksOf s (field b 5 1) with other := some (imageOf b down), pending := true }))

/-- The state once QHEAD of queue `q` has passed the next slot (R30). -/
def pastHead (s : State) (q : Nat) : State := setQueue s q { getQueue s q with qhead := (getQueue s q).qhead + 1 }

/-- The command that the bytes of the next slot of queue `q` spell. -/
def slotCmd (s : State) (q : Nat) (b : Bytes) : Cmd := parsePacket (pastHead s q) q (getQueue s q).qhead b

/-- The state once a packet of queue `q` is rejected: QHEAD past it, bad_packet set (R29, R35). -/
def pastBad (s : State) (q : Nat) : State :=
  setQueue (pastHead s q) q { getQueue (pastHead s q) q with badPacket := true }

/-- Fuses burn and never recover (R370, R377, R379): the seal and the jumper fuse, the revoked slots, the fused floors. -/
structure FusesKept (a b : Security) : Prop where
  seal_ : a.sealFuse = true → b.sealFuse = true
  jumper_ : a.jumperFused = true → b.jumperFused = true
  keys_ : ∀ k, k < 4 → k ∈ a.revoked → k ∈ b.revoked
  floors_ : ∀ t, mget 0 a.floors t ≤ mget 0 b.floors t

end Sys2Proof.Machine
end

