-- ==== Sys2Proof/Certificates/Slice0/Obligations.lean ====
section
/-! DEFINITION. The statements for the provers: what the rules of the manual say of the module's commands, as properties of its
model. -/

open Sys2Proof Sys2Proof.Machine

/-! ## The block's queue, memory and reset -/

/-- The block's queue is first in, first out: a step runs the command at the front on the state with the queue's rest. -/
def Obligations.StepRunsTheFrontCommand : Prop :=
  ∀ (c : Instr) (rest : List Instr) (s : State), s.pending = c :: rest → step s = exec c { s with pending := rest }

/-- On an empty queue one microsecond passes, the model's choice (log 1): the counters of R6, the press window of R375 and the
wait times of R46 run; nothing else that software sees changes. Without the always-on domain nothing happens. -/
def Obligations.IdleStepPassesOneMicrosecond : Prop :=
  (∀ s : State, s.pending = [] → 95 ∉ s.power.domains → step s = .next s) ∧
  (∀ s : State, s.pending = [] → 95 ∈ s.power.domains → s.job.perstEnd = false →
    ∃ t, step s = .next t ∧
      t.time.aon = s.time.aon + 100 ∧
      (∀ d, d < 6 → mget 0 t.time.die d = mget 0 s.time.die d + (if dieState s d = 1 then 25 else 0)) ∧
      t.sec = { s.sec with windowUs := s.sec.windowUs - 1 } ∧
      (∀ n c, findCmd s n = some c →
        findCmd t n = some { c with waitUs := c.waitUs + (if waits s c then 1 else 0) }) ∧
      t = { s with time := t.time, sec := t.sec, cmds := t.cmds, dies := { s.dies with bundles := t.dies.bundles } })

/-- What reset leaves (R29, R46, R53, R147, R170, R198, R259, R278, R299, R353, R361, R384, R400, R415): the values that the
manual gives, memory in canonical form with no byte listed and no span mapped, no command waiting or in flight. -/
def Obligations.ResetLeavesTheStatedValues : Prop :=
  Safe State.reset ∧ State.reset.pending = [] ∧ State.reset.cmds = [] ∧ State.reset.job.loaded = false ∧
  State.reset.mem.cells = [] ∧ (∀ a, State.reset.mem.mapped a = false) ∧ (∀ q, getQueue State.reset q = Queue.reset) ∧
  (∀ q, (getQueue State.reset q).enable = false ∧ (getQueue State.reset q).qtail = 0 ∧ (getQueue State.reset q).qhead = 0) ∧
  (∀ n, getCounter State.reset n = { count := 0, poison := false }) ∧ State.reset.guard.gctrl = 0x1A52#32 ∧
  (∀ n, (getTag State.reset n).tcfg = 0x03261000#32 ∧ (getTag State.reset n).tlim = 0x3E803D80#32) ∧
  State.reset.update.lscur = 0x3F800000#32 ∧ State.reset.update.uclip = 0x3F800000#32 ∧
  (∀ d, (getStream State.reset d).sshare = 0x001838B0#32) ∧ (∀ d, dieState State.reset d = 0) ∧
  (∀ p, (getPort State.reset p).enable = true ∧ (getPort State.reset p).genCap = 3 ∧ (getPort State.reset p).state = 0) ∧
  State.reset.peers.phase = 0xFF ∧ State.reset.peers.boffend = 0xFFFFFFFF ∧ (∀ n, (getIngest State.reset n).share = 0x10#32) ∧
  State.reset.ctl.kstate = 0 ∧ State.reset.mgmt.inc = true ∧ State.reset.mgmt.count = 4 ∧ State.reset.power.domains = [95] ∧
  State.reset.power.wctrl = 0x0C8191E0#32 ∧ State.reset.power.pctrl = 0x13E8#32 ∧ State.reset.rel.rscrub = 0x104#32 ∧
  State.reset.rel.log = []

/-- Every state that a step reaches from a state whose memory is in canonical form has its memory in canonical form. -/
def Obligations.EveryStepKeepsMemoryCanonical : Prop :=
  ∀ s t : State, Safe s → step s = .next t → Safe t

/-- No command touches the queue of commands. -/
def Obligations.CommandsKeepTheQueue : Prop :=
  ∀ (i : Instr) (s t : State), exec i s = .next t → t.pending = s.pending

/-- Every command that names units of the module answers a next state, in every state: none is refused, none faults. -/
def Obligations.EveryWellFormedCommandAnswers : Prop :=
  ∀ (i : Instr) (s : State), i.wf = true → ∃ t, exec i s = .next t

/-- No step ever clears the seal fuse or the jumper fuse, brings back a revoked key slot, or lowers a fused floor. -/
def Obligations.FusesNeverRecover : Prop :=
  ∀ s t : State, step s = .next t → FusesKept s.sec t.sec

/-! ## Commands of the work queues -/

/-- Numbers (R60, R66, R106, R126): a value of a format, subnormal values and both zeros included, converts to its own code; the
sum of squares adds element i to lane i mod 256 in order and then folds the lanes in halves; six parts of a split reduction
combine as ((p0 + p1) + (p2 + p3)) + (p4 + p5). -/
def Obligations.NumbersRoundAndSumAsStated : Prop :=
  (∀ fmt code : Nat, fmt < 7 → code < 2 ^ fwidth fmt → decodeElem fmt code ≠ .nan →
    rneCode fmt (decodeElem fmt code) = { code := code, sat := false }) ∧
  (∀ xs : List Word, ∃ lane : Nat → Nat → Word,
    (∀ l, l < 256 → lane 0 l = (List.range xs.length).foldl (fun a i => if i % 256 = l then ffma (xs.getD i 0) (xs.getD i 0) a else a) 0) ∧
    (∀ k l, k < 8 → l < 128 / 2 ^ k → lane (k + 1) l = fadd (lane k l) (lane k (l + 128 / 2 ^ k))) ∧
    laneSumSq xs = lane 8 0) ∧
  (∀ p0 p1 p2 p3 p4 p5 : Word,
    combineTree [p0, p1, p2, p3, p4, p5] = fadd (fadd (fadd p0 p1) (fadd p2 p3)) (fadd p4 p5))

/-- QTAIL written (R31), the size in force being the sampled one while the queue is enabled and QCFG's while it is not: a tail
at most one ring ahead of QHEAD is taken, one further ahead, or a bad size, leaves QTAIL and sets overrun, the same value has no
effect. -/
def Obligations.DoorbellTakenOrOverrun : Prop :=
  ∀ (s : State) (q : Nat) (w : Word) (n : Nat), q ≤ 64 → barsUp s = true →
    n = bits (if (getQueue s q).enable then (getQueue s q).sQcfg else (getQueue s q).qcfg).toNat 4 0 →
    (w = (getQueue s q).qtail → exec (.queueDoorbell q w) s = .next s) ∧
    (w ≠ (getQueue s q).qtail → 6 ≤ n → n ≤ 16 → (w - (getQueue s q).qhead).toNat ≤ 2 ^ n →
      exec (.queueDoorbell q w) s = .next (setQueue s q { getQueue s q with qtail := w })) ∧
    (w ≠ (getQueue s q).qtail → (n < 6 ∨ 16 < n ∨ 2 ^ n < (w - (getQueue s q).qhead).toNat) →
      exec (.queueDoorbell q w) s = .next (setQueue s q { getQueue s q with overrun := true }))

/-- QCTRL, RHEAD and QTIMEOUT (R29, R30, R32): an enable samples QBASE, QCFG and RBASE, or is refused with cfg_error for one of
three reasons; a disable is refused while a command is dispatched and uncommitted; pause, RHEAD and QTIMEOUT take effect at
once. -/
def Obligations.QueueControlTakesEffect : Prop :=
  (∀ (s : State) (q : Nat), q ≤ 64 → barsUp s = true → (getQueue s q).enable = false →
    6 ≤ bits (getQueue s q).qcfg.toNat 4 0 → bits (getQueue s q).qcfg.toNat 4 0 ≤ 16 →
    ((getQueue s q).qtail - (getQueue s q).qhead).toNat ≤ 2 ^ bits (getQueue s q).qcfg.toNat 4 0 →
    (bit (getQueue s q).qcfg.toNat 31 = true ∨ 4096 ≤ (getQueue s q).qbase.toNat) →
    (bit (getQueue s q).qcfg.toNat 30 = true ∨ 4096 ≤ (getQueue s q).rbase.toNat) →
    exec (.queueEnable q) s = .next (setQueue s q { getQueue s q with
      enable := true, sQbase := (getQueue s q).qbase, sQcfg := (getQueue s q).qcfg, sRbase := (getQueue s q).rbase })) ∧
  (∀ (s : State) (q : Nat), q ≤ 64 → barsUp s = true → (getQueue s q).enable = false →
    (bits (getQueue s q).qcfg.toNat 4 0 < 6 ∨ 16 < bits (getQueue s q).qcfg.toNat 4 0 ∨
      2 ^ bits (getQueue s q).qcfg.toNat 4 0 < ((getQueue s q).qtail - (getQueue s q).qhead).toNat ∨
      (bit (getQueue s q).qcfg.toNat 31 = false ∧ (getQueue s q).qbase.toNat < 4096) ∨
      (bit (getQueue s q).qcfg.toNat 30 = false ∧ (getQueue s q).rbase.toNat < 4096)) →
    exec (.queueEnable q) s = .next (setQueue s q { getQueue s q with cfgError := true })) ∧
  (∀ (s : State) (q : Nat), q ≤ 64 → barsUp s = true → dispatchedOf s q = 0 →
    exec (.queueDisable q) s = .next (setQueue s q { getQueue s q with enable := false })) ∧
  (∀ (s : State) (q : Nat), q ≤ 64 → barsUp s = true → dispatchedOf s q ≠ 0 → exec (.queueDisable q) s = .next s) ∧
  (∀ (s : State) (q : Nat) (on : Bool), q ≤ 64 → barsUp s = true →
    exec (.queuePause q on) s = .next (setQueue s q { getQueue s q with pause := on })) ∧
  (∀ (s : State) (q : Nat) (w : Word), q ≤ 64 → barsUp s = true →
    exec (.rheadUpdate q w) s = .next (setQueue s q { getQueue s q with rhead := w })) ∧
  (∀ (s : State) (q : Nat) (w : Word), q ≤ 64 → barsUp s = true → s.cmds = [] →
    exec (.qtimeoutWrite q w) s = .next (setQueue s q { getQueue s q with qtimeout := w &&& 0xFFFFF#32 }))

/-- A packet fetched (R30, R34, R35): QHEAD passes its slot; a packet that passes every check joins the commands in flight, one
that fails ends with its status and sets bad_packet, one that could not be read is BAD_OPCODE, reason 1 (R352); an extended
block that was read on its retry puts note bit 4 on the command, one whose sector stays uncorrectable ends it with
MEM_UNCORRECTABLE (R239). -/
def Obligations.PacketFetchTakesOrRejects : Prop :=
  (∀ (s : State) (q : Nat) (b : Bytes) (hbm : Sector) (d : Cmd), q ≤ 64 → canFetch s q = true →
    bit (getQueue s q).sQcfg.toNat 31 = false → b.length = 64 → packetCheck (pastHead s q) b (slotCmd s q b) = .ok d →
    ∃ t, exec (.packetFetch q (.data b) ⟨hbm, .clean⟩) s = .next t ∧
      Counted { pastHead s q with cmds := s.cmds ++ [d], nextCid := s.nextCid + 1 } t) ∧
  (∀ (s : State) (q : Nat) (b : Bytes) (hbm ext : Sector) (d : Cmd), q ≤ 64 → canFetch s q = true →
    bit (getQueue s q).sQcfg.toNat 31 = false → b.length = 64 → (slotCmd s q b).isExt = false →
    packetCheck (pastHead s q) b (slotCmd s q b) = .ok d →
    ∃ t, exec (.packetFetch q (.data b) ⟨hbm, ext⟩) s = .next t ∧
      Counted { pastHead s q with cmds := s.cmds ++ [d], nextCid := s.nextCid + 1 } t) ∧
  (∀ (s : State) (q : Nat) (b : Bytes) (hbm : Sector) (d : Cmd), q ≤ 64 → canFetch s q = true →
    bit (getQueue s q).sQcfg.toNat 31 = false → b.length = 64 → readsExt (pastHead s q) (slotCmd s q b) = true →
    packetCheck (pastHead s q) b (slotCmd s q b) = .ok d →
    ∃ t, exec (.packetFetch q (.data b) ⟨hbm, .retried⟩) s = .next t ∧ t.cmds = s.cmds ++ [{ d with notes := 0x10 }]) ∧
  (∀ (s : State) (q : Nat) (b : Bytes) (hbm : Sector) (n f o : Nat), q ≤ 64 → canFetch s q = true →
    bit (getQueue s q).sQcfg.toNat 31 = false → b.length = 64 → readsExt (pastHead s q) (slotCmd s q b) = true →
    headerError (pastHead s q) b (slotCmd s q b) = none → opcodePacket (pastHead s q) (slotCmd s q b) = none →
    s.mem.translate ((slotCmd s q b).arg 0x38 8) = some (n, f, o) →
    ∃ t u v, exec (.packetFetch q (.data b) ⟨hbm, .uncorrectable⟩) s = .next t ∧ Counted u t ∧ v.cmds = s.cmds ∧
      v.mem.muncor = min (s.mem.muncor + 1) 0xFFFFFFFF ∧ Ended v u (slotCmd s q b) (0x20, n + f * 8) 0) ∧
  (∀ (s : State) (q : Nat) (host : HostRead) (d : Cmd) (a : Nat), q ≤ 64 → canFetch s q = true →
    bit (getQueue s q).sQcfg.toNat 31 = true →
    a = (getQueue s q).sQbase.toNat / 4096 * 4096 + (getQueue s q).qhead.toNat % (getQueue s q).slots * 64 →
    s.mem.mappedRange a 64 = true →
    packetCheck (pastHead s q) (s.mem.readN a 64) (slotCmd s q (s.mem.readN a 64)) = .ok d →
    ∃ t, exec (.packetFetch q host ⟨.clean, .clean⟩) s = .next t ∧
      Counted { pastHead s q with cmds := s.cmds ++ [d], nextCid := s.nextCid + 1 } t) ∧
  (∀ (s : State) (q : Nat) (b : Bytes) (hbm : Sector) (e : Err), q ≤ 64 → canFetch s q = true →
    bit (getQueue s q).sQcfg.toNat 31 = false → b.length = 64 → packetCheck (pastHead s q) b (slotCmd s q b) = .error e →
    ∃ t u, exec (.packetFetch q (.data b) ⟨hbm, .clean⟩) s = .next t ∧ Counted u t ∧ Ended (pastBad s q) u (slotCmd s q b) e 0) ∧
  (∀ (s : State) (q : Nat) (hbm ext : Sector), q ≤ 64 → canFetch s q = true → bit (getQueue s q).sQcfg.toNat 31 = false →
    ∃ t u, exec (.packetFetch q .failed ⟨hbm, ext⟩) s = .next t ∧ Counted u t ∧
      Ended (pastBad s q) u (slotCmd s q (List.replicate 64 0)) (0x10, 0x10000) 0)

/-- The command that a running queue offers (R46, R47): where its tokens are there, its Meres have seats, no queue that comes
first competes and its issue checks pass, it is dispatched: every counter it names loses one for each time it is named, the
rotation moves past its queue, and what it will write is undefined from now on (R48); PIPE_SEND takes its credit (R305), PHASE
installs its table (R283). Where an issue check fails it ends with the status, where a Mere it names is no longer exposed with
BAD_PARAM (R56), where a counter it names is poisoned KILLED, cause 1, naming the first poisoned one. TOKEN_WAIT_TIMEOUT (R46):
the oldest command of a running queue whose wait time has reached wait_ms ends with TIMEOUT, which names its first short
counter; before that, or with no limit, nothing happens. A write of QTIMEOUT tests a waiting command with the time it has
accumulated at once, its queue running or not (R30). An update command that has waited for the step verdict as long ends with
TIMEOUT too (R295). -/
def Obligations.DispatchTakesTokensOrTimesOut : Prop :=
  (∀ (s : State) (q : Nat) (c : Cmd), q ≤ 64 → queueState s q = 1 → kRuns s = true → (q < 64 → jobEnding s = false) →
    poisonedHead s = none → candidate s q = some c → findCmd s c.cid = some c →
    (onSpring c.opcode = true → springUp s = true) → domainsNeeded s c = [] → lostMere s c = none → seatsFree s c = true →
    outranked s c = false → opcodeIssue s (stampCmd s c) = none →
    ∃ t d, exec (.commandDispatch q) s = .next t ∧ findCmd t c.cid = some d ∧
      d.stage = .dispatched ∧ d.started = true ∧ d.since = microsOn s c.timeDie ∧ d.scale = s.update.lscur ∧
      d.step = (if c.started then c.step else s.job.step) ∧ d.evalNo = (if c.started then c.evalNo else s.guard.geval) ∧
      (∀ n, n ≠ 0 → (getCounter t n).count.toNat = (getCounter s n).count.toNat - needed c.waits n ∧
        (getCounter t n).poison = (getCounter s n).poison) ∧
      t.compute.turn = (if c.q < 64 ∧ c.waits.any (· != 0) then (c.q + 1) % 64 else s.compute.turn) ∧
      (c.opcode = 0x0206 → (getPipe t c.pq).credits = some (creditsOf s c - 1)) ∧
      (c.opcode = 0x0703 → t.peers.phase = c.arg 0x10 1 ∧ t.peers.switching = some c.cid ∧ t.peers.oldRoute = s.peers.route) ∧
      (c.opcode ≠ 0x0206 → c.opcode ≠ 0x0703 →
        (∀ a, Inside (targets s (stampCmd s c)) a → ∃ n, t.mem.read a = Config.freeByte n a) ∧
        (∀ a, Outside (targets s (stampCmd s c)) a → t.mem.read a = s.mem.read a) ∧
        t = { s with
          cmds := t.cmds, counters := t.counters, nextCid := t.nextCid, freeCtr := t.freeCtr
          mem := { s.mem with claims := t.mem.claims }
          compute := { s.compute with meres := t.compute.meres, turn := t.compute.turn } })) ∧
  (∀ (s : State) (q : Nat) (c : Cmd) (e : Err), q ≤ 64 → queueState s q = 1 → kRuns s = true → (q < 64 → jobEnding s = false) →
    poisonedHead s = none → candidate s q = some c →
    (onSpring c.opcode = true → springUp s = true) → domainsNeeded s c = [] → lostMere s c = none → seatsFree s c = true →
    outranked s c = false → opcodeIssue s (stampCmd s c) = some e →
    ∃ t, exec (.commandDispatch q) s = .next t ∧ Ended s t c e 0) ∧
  (∀ (s : State) (q : Nat) (c : Cmd) (l : Nat), q ≤ 64 → queueState s q = 1 → kRuns s = true → (q < 64 → jobEnding s = false) →
    poisonedHead s = none → candidate s q = some c →
    (onSpring c.opcode = true → springUp s = true) → domainsNeeded s c = [] → lostMere s c = some l →
    ∃ t, exec (.commandDispatch q) s = .next t ∧ Ended s t c (0x11, 0x230) 0) ∧
  (∀ (s : State) (q : Nat) (c : Cmd) (n : Nat), q < 64 → s.cmds = [c] → c.q = q → c.stage = .fetched → queueState s q = 1 →
    firstPoisoned s c.waits = some n →
    ∃ t, exec (.commandDispatch q) s = .next t ∧ Ended s t c (0x41, 0x400000 + n) 0) ∧
  (∀ (s : State) (q : Nat) (c : Cmd) (n : Nat), q ≤ 64 → poisonedHead s = none → queueState s q = 1 → oldest s q = some c →
    firstShort s c.waits = some n → firstPoisoned s c.waits = none →
    bits (getQueue s q).qtimeout.toNat 19 0 ≠ 0 → 1000 * bits (getQueue s q).qtimeout.toNat 19 0 ≤ c.waitUs →
    (∀ x ∈ s.cmds, isUpdate x.opcode = false) →
    ∃ t, exec (.tokenWaitTimeout q) s = .next t ∧ Ended s t c (0x42, n) 0) ∧
  (∀ (s : State) (q : Nat) (c : Cmd), q ≤ 64 → poisonedHead s = none → oldest s q = some c →
    (bits (getQueue s q).qtimeout.toNat 19 0 = 0 ∨ c.waitUs < 1000 * bits (getQueue s q).qtimeout.toNat 19 0) →
    (∀ x ∈ s.cmds, isUpdate x.opcode = false) →
    exec (.tokenWaitTimeout q) s = .next s) ∧
  (∀ (s : State) (q : Nat) (w : Word) (c : Cmd) (n : Nat), q ≤ 64 → barsUp s = true → s.cmds = [c] → c.q = q → c.stage = .fetched →
    firstShort s c.waits = some n → firstPoisoned s c.waits = none →
    bits w.toNat 19 0 ≠ 0 → 1000 * bits w.toNat 19 0 ≤ c.waitUs →
    ∃ t, exec (.qtimeoutWrite q w) s = .next t ∧
      Ended (setQueue s q { getQueue s q with qtimeout := w &&& 0xFFFFF#32 }) t c (0x42, n) 0) ∧
  (∀ (s : State) (q : Nat) (c : Cmd), q ≤ 64 → s.cmds = [c] → c.q = q → c.stage = .dispatched → isUpdate c.opcode = true →
    s.peers.final = false → bits (getQueue s q).qtimeout.toNat 19 0 ≠ 0 →
    1000 * bits (getQueue s q).qtimeout.toNat 19 0 ≤ microsOn s c.timeDie - c.since →
    ∃ t, exec (.tokenWaitTimeout q) s = .next t ∧ Ended s t c (0x42, 0) 0)

/-- The commit of a command whose work is done (R46, R48): its effects, then its signal, which gains sig_inc + 1, then its
reply; what it wrote reads back, every byte that nobody had claimed is as before. While K has no main clock the effects happen
and the signal and the reply stay held (R255). -/
def Obligations.CommitAppliesSignalsReplies : Prop :=
  (∀ (s : State) (cid : Nat) (c : Cmd) (r : Result), findCmd s cid = some c → c.stage = .executed → c.result = some r →
    s.ctl.noMainClock = false →
    ∃ t u d, exec (.commandCommit cid) s = .next t ∧ Counted u t ∧
      d = (findCmd (commitEffects s c r) c.cid).getD c ∧ Ended (commitEffects s c r) u d (r.status, r.detail) r.work) ∧
  (∀ (s : State) (cid : Nat) (c : Cmd) (r : Result) (a : Nat) (b : Bytes), Safe s → findCmd s cid = some c →
    c.stage = .executed → c.result = some r → s.ctl.noMainClock = false → r.effects = [.write a b] →
    (∀ u ∈ s.mem.claims, u.cid ≠ cid → u.start + u.len ≤ a ∨ a + b.length ≤ u.start) →
    ∃ t, exec (.commandCommit cid) s = .next t ∧ findCmd t cid = none ∧ t.mem.readN a b.length = b ∧
      (∀ x, x < a ∨ a + b.length ≤ x → claimAt s.mem.claims x = none → t.mem.read x = s.mem.read x)) ∧
  (∀ (s : State) (cid : Nat) (c : Cmd) (r : Result) (a : Nat) (b : Bytes), findCmd s cid = some c → c.stage = .executed →
    c.result = some r → s.ctl.noMainClock = true → r.effects = [.write a b] →
    ∃ t u, exec (.commandCommit cid) s = .next t ∧ Counted u t ∧ findCmd u cid = some { c with result := some { r with effects := [] } } ∧
      u.counters = s.counters ∧ u.queues = s.queues ∧ u.mem.cells = (s.mem.write a b).cells)

/-- The reply leaves (R32, R44): with a free slot the oldest waiting reply goes to its slot in host memory or in HBM, RTAIL
advances, and the interrupt follows it (R352); while the ring is full nothing happens. A reply into HBM whose sector stays
uncorrectable is held back and tried again by REPLY_RETRY (R430). -/
def Obligations.ReplyGoesToItsSlot : Prop :=
  (∀ (s : State) (q : Nat) (hbm : Sector) (r : Reply) (rest : List Reply), q ≤ 64 → ringFull s q = false →
    s.ctl.noMainClock = false → bit (getQueue s q).sQcfg.toNat 30 = false → s.ctl.linkUp = true →
    (getQueue s q).replies = r :: rest →
    ∃ t, exec (.replyWrite q hbm) s = .next t ∧
      t.out = s.out ++ [.hostWrite (ringBase (getQueue s q).sRbase + (getQueue s q).rtail.toNat % (getQueue s q).slots * 32)
        (replyBytes (getQueue s q) q r)] ++ (if r.irq then [.msix (bits (getQueue s q).sQcfg.toNat 25 16)] else []) ∧
      getQueue t q = { getQueue s q with rtail := (getQueue s q).rtail + 1, replies := rest, heldReply := false } ∧
      t.mem = s.mem) ∧
  (∀ (s : State) (q : Nat) (hbm : Sector) (r : Reply) (rest : List Reply) (a : Nat), Safe s → q ≤ 64 → ringFull s q = false →
    s.ctl.noMainClock = false → bit (getQueue s q).sQcfg.toNat 30 = true → (getQueue s q).replies = r :: rest →
    a = ringBase (getQueue s q).sRbase + (getQueue s q).rtail.toNat % (getQueue s q).slots * 32 → hbm ≠ .uncorrectable →
    (∀ x, a ≤ x → x < a + 32 → claimAt s.mem.claims x = none) →
    ∃ t, exec (.replyWrite q hbm) s = .next t ∧ t.mem.readN a 32 = replyBytes (getQueue s q) q r ∧
      (∀ x, x < a ∨ a + 32 ≤ x → t.mem.read x = s.mem.read x) ∧
      getQueue t q = { getQueue s q with rtail := (getQueue s q).rtail + 1, replies := rest, heldReply := false }) ∧
  (∀ (s : State) (q : Nat) (hbm : Sector), q ≤ 64 → ringFull s q = true → exec (.replyWrite q hbm) s = .next s) ∧
  (∀ (s : State) (q : Nat) (r : Reply) (rest : List Reply), q ≤ 64 → ringFull s q = false →
    s.ctl.noMainClock = false → bit (getQueue s q).sQcfg.toNat 30 = true → (getQueue s q).replies = r :: rest →
    ∃ t, exec (.replyWrite q .uncorrectable) s = .next t ∧ getQueue t q = { getQueue s q with heldReply := true } ∧
      t.mem.cells = s.mem.cells ∧ t.out = s.out) ∧
  (∀ (s : State) (q : Nat) (hbm : Sector) (r : Reply) (rest : List Reply) (a : Nat), Safe s → q ≤ 64 → (getQueue s q).heldReply = true →
    s.ctl.noMainClock = false → bit (getQueue s q).sQcfg.toNat 30 = true → (getQueue s q).replies = r :: rest →
    a = ringBase (getQueue s q).sRbase + (getQueue s q).rtail.toNat % (getQueue s q).slots * 32 →
    s.mem.mappedRange a 32 = true → hbm ≠ .uncorrectable → (∀ x, a ≤ x → x < a + 32 → claimAt s.mem.claims x = none) →
    ∃ t, exec (.replyRetry q hbm) s = .next t ∧ t.mem.readN a 32 = replyBytes (getQueue s q) q r ∧
      (∀ x, x < a ∨ a + 32 ≤ x → t.mem.read x = s.mem.read x) ∧
      getQueue t q = { getQueue s q with rtail := (getQueue s q).rtail + 1, replies := rest, heldReply := false })

/-- The seven rows of compute work (R48, R97, R110, R193): on a command that runs on its Meres each does the work of its opcode:
with its checks passed the result waits for the commit and what it writes stays undefined until then, everything else is as
before; a failing check, or work that fails, ends the command with its status; a command that still waits for one of its Meres
does nothing yet. -/
def Obligations.ComputeCommandsReachTheirCommit : Prop :=
  DoesWork .matmul 0x0101 matmulIssue matmulRun ∧ DoesWork .matmulBwd 0x0102 bwdIssue bwdRun ∧
  DoesWork .conv 0x0103 winIssue winRun ∧ DoesWork .pool 0x0104 winIssue winRun ∧
  DoesWork .vector 0x0105 vectorIssue vectorRun ∧ DoesWork .stats 0x0106 statsIssue statsRun ∧
  DoesWork .attnBlock 0x0107 attnIssue attnRun

/-- The Tarn check of MATMUL (R107): u is the resident count of R104, one tile or, under MKN, ceil(PR / G), q the blocks of a
tile; a command with u × q above 32 that passes the earlier checks ends with TILE_CAPACITY, detail bit 0 clear, [8:1] u and
[16:9] floor(32 / q); one that passes every check has u × q at most 32. -/
def Obligations.TarnCheckRejectsLargeTiles : Prop :=
  ∀ (s : State) (cid u q : Nat) (c : Cmd), Dispatched s cid 0x0101 c → q = (geoOf c).q →
    u = (if (geoOf c).loop = 2 then ceilDiv ((geoOf c).pairs (readDesc s (c.arg 0x14 2)).p0) (geoOf c).groups else 1) →
    (matmulIssue s c = none → u * q ≤ 32) ∧
    (32 < u * q → tilingCheck c 192 = none → zeroExtTail c 192 = none →
      c.arg 0x1C 4 ≤ (readDesc s (c.arg 0x14 2)).rows →
      c.arg 0x1C 4 ≤ outerPlan (readDesc s (c.arg 0x10 2)) (bit (c.arg 0x18 1) 4) →
      c.arg 0x20 4 ≤ (readDesc s (c.arg 0x14 2)).p0 →
      c.arg 0x20 4 ≤ outerPlan (readDesc s (c.arg 0x12 2)) (bit (c.arg 0x19 1) 4) →
      c.arg 0x24 4 ≤ innerPlan (readDesc s (c.arg 0x10 2)) (bit (c.arg 0x18 1) 4) →
      c.arg 0x24 4 ≤ innerPlan (readDesc s (c.arg 0x12 2)) (bit (c.arg 0x19 1) 4) → loopCheck (geoOf c) = none →
      ∃ t, exec (.matmul cid) s = .next t ∧ Ended s t c (0x13, min u 255 * 2 + 32 / q * 0x200) 0) ∧
    (32 < q → 32 / q = 0)

/-- FILL and its commit (R203, R48): bytes offset to offset + bytes - 1 of half cur hold the pattern, little-endian and
repeated, where no other command in flight has claimed them; every byte that nobody has claimed is as before; the reply counts
the KiB. An empty FILL writes nothing and is OK_WITH_NOTES, bit 8; a failing check ends the command with its status. -/
def Obligations.FillWritesThePattern : Prop :=
  (∀ (s : State) (cid : Nat) (c : Cmd) (n a : Nat), Safe s → Dispatched s cid 0x0203 c → fillIssue (ownView s cid) c = none →
    s.ctl.noMainClock = false → n = c.arg 0x20 8 → n ≠ 0 → n % 4 = 0 →
    a = (readDesc (ownView s cid) (c.arg 0x10 2)).home + c.arg 0x18 8 →
    (∀ u ∈ s.mem.claims, u.cid ≠ cid → u.start + u.len ≤ a ∨ a + n ≤ u.start) →
    ∃ t u, exec (.fill cid) s = .next t ∧
      Executed s t c (succeeded (n / 1024) [.write a (pattern (c.word 0x14) n)]) ∧
      exec (.commandCommit cid) t = .next u ∧ findCmd u cid = none ∧
      (∀ i, i < n → u.mem.read (a + i) = BitVec.ofNat 8 ((c.word 0x14).toNat / 256 ^ (i % 4))) ∧
      (∀ x, x < a ∨ a + n ≤ x → claimAt s.mem.claims x = none → u.mem.read x = s.mem.read x)) ∧
  (∀ (s : State) (cid : Nat) (c : Cmd), Dispatched s cid 0x0203 c → fillIssue (ownView s cid) c = none → c.arg 0x20 8 = 0 →
    ∃ t, exec (.fill cid) s = .next t ∧ Executed s t c zeroExtent) ∧
  (∀ (s : State) (cid : Nat) (c : Cmd) (e : Err), Dispatched s cid 0x0203 c → fillIssue (ownView s cid) c = some e →
    signals e.1 = false → ∃ t, exec (.fill cid) s = .next t ∧ Ended s t c e 0)

/-- The bulk moves (R202, R355, R45): COPY moves its rows unchanged, HOST_COPY moves the bytes between a bus address and device
memory; an empty move writes nothing and is OK_WITH_NOTES, bit 8; a host that does not answer is BAD_PARAM. COMPRESS and
DECOMPRESS do their work (R217, R226); a COMPRESS that wants more spill slots than it has ends with CAPACITY_SHORT naming the
GiB (R219). A failing check ends any of them with its status. -/
def Obligations.MovesCarryBytesUnchanged : Prop :=
  (∀ (s : State) (cid : Nat) (c : Cmd) (v : State) (rows len : Nat), Dispatched s cid 0x0201 c → v = ownView s cid →
    copyIssue v c = none → rows = c.arg 0x14 4 → len = c.arg 0x28 4 → rows ≠ 0 → len ≠ 0 →
    ∃ t, exec (.copy cid) s = .next t ∧ Executed s t c (succeeded (rows * len / 1024) ((List.range rows).map (fun r =>
        .write ((readDesc v (c.arg 0x12 2)).home + c.arg 0x20 8 + r * c.arg 0x30 4)
          (v.mem.readN ((readDesc v (c.arg 0x10 2)).home + c.arg 0x18 8 + r * c.arg 0x2C 4) len))))) ∧
  (∀ (s : State) (cid : Nat) (c : Cmd), Dispatched s cid 0x0201 c → copyIssue (ownView s cid) c = none →
    (c.arg 0x14 4 = 0 ∨ c.arg 0x28 4 = 0) →
    ∃ t, exec (.copy cid) s = .next t ∧ Executed s t c zeroExtent) ∧
  (∀ (s : State) (cid : Nat) (c : Cmd) (v : State) (b : Bytes) (n : Nat), Dispatched s cid 0x0202 c → v = ownView s cid →
    hostCopyIssue v c = none → n = c.arg 0x28 8 → n ≠ 0 → c.arg 0x1A 1 = 0 → b.length = n →
    ∃ t, exec (.hostCopy cid (.data b)) s = .next t ∧
      Executed s t c (succeeded (n / 1024) [.write ((readDesc v (c.arg 0x18 2)).home + c.arg 0x20 8) b])) ∧
  (∀ (s : State) (cid : Nat) (c : Cmd) (v : State) (b : Bytes) (n : Nat), Dispatched s cid 0x0202 c → v = ownView s cid →
    hostCopyIssue v c = none → n = c.arg 0x28 8 → n ≠ 0 → c.arg 0x1A 1 = 1 →
    ∃ t, exec (.hostCopy cid (.data b)) s = .next t ∧ Executed s t c (succeeded (n / 1024)
        [.host (c.arg 0x10 8) (v.mem.readN ((readDesc v (c.arg 0x18 2)).home + c.arg 0x20 8) n)])) ∧
  (∀ (s : State) (cid : Nat) (c : Cmd), Dispatched s cid 0x0202 c → hostCopyIssue (ownView s cid) c = none → c.arg 0x28 8 ≠ 0 →
    ∃ t, exec (.hostCopy cid .failed) s = .next t ∧ Ended s t c (0x11, 0x210) 0) ∧
  (∀ (s : State) (cid : Nat) (c : Cmd) (host : HostRead), Dispatched s cid 0x0202 c → hostCopyIssue (ownView s cid) c = none →
    c.arg 0x28 8 = 0 → ∃ t, exec (.hostCopy cid host) s = .next t ∧ Executed s t c zeroExtent) ∧
  (∀ (s : State) (cid : Nat) (c : Cmd) (v : State), Dispatched s cid 0x0204 c → v = ownView s cid → compressIssue v c = none →
    (readDesc v (c.arg 0x10 2)).rawBytes ≠ 0 → 0 < spillShort v c →
    ∃ t z, exec (.compress cid) s = .next t ∧ Ended { s with compute := { s.compute with zips := z } } t c
      (capacityShort 2 ((spillShort v c * 4096 + 0x3FFFFFFF) / 0x40000000)) 0) ∧
  DoesWork .copy 0x0201 copyIssue copyRun ∧
  (∀ host : HostRead, DoesWork (fun cid => .hostCopy cid host) 0x0202 hostCopyIssue (fun v c => hostCopyRun v c host)) ∧
  DoesWork .compress 0x0204 compressIssue compressRun ∧ DoesWork .decompress 0x0205 decompressIssue decompressRun

/-- ALLOC and FREE (R232-R236). With no earlier one uncommitted, ALLOC of unmapped spans within quota and with frames to spare
picks, for each of its spans, one frame of every stack of the window, and its commit maps them; a span that is mapped already is
BAD_PARAM, a quota passed QUOTA_EXCEEDED, frames short CAPACITY_SHORT naming the GiB, in this order. FREE of mapped spans that
hold no ring of an enabled queue unmaps them at its commit; an unmapped span is BAD_PARAM, a ring BAD_PARAM reason 6 (R231). A
length of zero does nothing and is OK_WITH_NOTES, bit 8; a range that is misaligned or outside its window ends either with
BAD_PARAM. While an earlier one is uncommitted both wait (R235). -/
def Obligations.AllocTakesFramesFreeUnmaps : Prop :=
  (∀ (s : State) (cid : Nat) (c : Cmd) (r : Nat × Nat × Nat), Dispatched s cid 0x0208 c → allocTurn s c = true →
    allocIssue s c = none →
    r = spansOf (readDesc s (c.arg 0x10 2)).base (allocLen (readDesc s (c.arg 0x10 2)) c) →
    (r.2.2 = 0 → ∃ t, exec (.alloc cid) s = .next t ∧ Executed s t c zeroExtent) ∧
    ((∃ i, i < r.2.2 ∧ mhas (s.mem.spans r.1) (r.2.1 + i) = true) →
      ∃ t, exec (.alloc cid) s = .next t ∧ Ended s t c (0x11, 0x218) 0) ∧
    (r.2.2 ≠ 0 → (∀ i, i < r.2.2 → mhas (s.mem.spans r.1) (r.2.1 + i) = false) →
      (mget 0xFFFFFFFF#32 s.mem.quota c.q ≠ 0xFFFFFFFF#32 →
        (mget 0xFFFFFFFF#32 s.mem.quota c.q).toNat < s.mem.used c.q + 2 * (r.2.2 * (windowStacks r.1).length) →
        ∃ t, exec (.alloc cid) s = .next t ∧
          Ended s t c (quotaExceeded c.q (r.2.2 * (windowStacks r.1).length * 0x200000)) 0) ∧
      ((mget 0xFFFFFFFF#32 s.mem.quota c.q = 0xFFFFFFFF#32 ∨
          s.mem.used c.q + 2 * (r.2.2 * (windowStacks r.1).length) ≤ (mget 0xFFFFFFFF#32 s.mem.quota c.q).toNat) →
        (∀ n k, n ∈ windowStacks r.1 → k = r.2.2 - s.mem.freeCount n → 0 < k →
          (∀ m ∈ windowStacks r.1, r.2.2 - s.mem.freeCount m ≤ k) →
          ∃ t, exec (.alloc cid) s = .next t ∧
            Ended s t c (capacityShort 2 ((k * (windowStacks r.1).length * 0x200000 + 0x3FFFFFFF) / 0x40000000)) 0) ∧
        ((∀ n ∈ windowStacks r.1, r.2.2 ≤ s.mem.freeCount n) →
          ∃ t u l, exec (.alloc cid) s = .next t ∧ t = pickFrames u cid (Run.plain l) ∧ Executed s u c l ∧
            l = succeeded 0 [.mapSpans r.1 r.2.1 c.q ((List.range r.2.2).map (fun i =>
              (windowStacks r.1).map (fun n => (takeFrames s n r.2.2).getD i 0)))])))) ∧
  (∀ (s : State) (cid : Nat) (c : Cmd) (r : Nat × Nat × Nat), Dispatched s cid 0x0209 c → allocTurn s c = true →
    allocIssue s c = none →
    r = spansOf (readDesc s (c.arg 0x10 2)).base (allocLen (readDesc s (c.arg 0x10 2)) c) →
    (r.2.2 = 0 → ∃ t, exec (.free cid) s = .next t ∧ Executed s t c zeroExtent) ∧
    ((∃ i, i < r.2.2 ∧ mhas (s.mem.spans r.1) (r.2.1 + i) = false) →
      ∃ t, exec (.free cid) s = .next t ∧ Ended s t c (0x11, 0x218) 0) ∧
    (r.2.2 ≠ 0 → (∀ i, i < r.2.2 → mhas (s.mem.spans r.1) (r.2.1 + i) = true) →
      (holdsRing s ((readDesc s (c.arg 0x10 2)).base, r.2.2 * spanSize r.1) = true →
        ∃ t, exec (.free cid) s = .next t ∧ Ended s t c (0x11, 0x600) 0) ∧
      (holdsRing s ((readDesc s (c.arg 0x10 2)).base, r.2.2 * spanSize r.1) = false →
        ∃ t, exec (.free cid) s = .next t ∧ Executed s t c (succeeded 0 [.unmapSpans r.1 r.2.1 r.2.2])))) ∧
  (∀ (s : State) (cid : Nat) (c : Cmd) (e : Err), allocIssue s c = some e → allocTurn s c = true →
    (Dispatched s cid 0x0208 c → ∃ t, exec (.alloc cid) s = .next t ∧ Ended s t c e 0) ∧
    (Dispatched s cid 0x0209 c → ∃ t, exec (.free cid) s = .next t ∧ Ended s t c e 0)) ∧
  (∀ (s : State) (cid : Nat) (c : Cmd), allocTurn s c = false →
    (Dispatched s cid 0x0208 c → exec (.alloc cid) s = .next s) ∧ (Dispatched s cid 0x0209 c → exec (.free cid) s = .next s)) ∧
  (∀ (s : State) (cid : Nat) (c : Cmd) (w first q : Nat) (frames : List (List Nat)), findCmd s cid = some c → c.stage = .executed →
    s.ctl.noMainClock = false → w < 3 → c.result = some (succeeded 0 [.mapSpans w first q frames]) →
    ∃ t, exec (.commandCommit cid) s = .next t ∧ findCmd t cid = none ∧
      (∀ i d, i < frames.length → mget d (t.mem.spans w) (first + i) = { owner := q, frames := frames.getD i [] }) ∧
      (∀ k d, k < first ∨ first + frames.length ≤ k → mget d (t.mem.spans w) k = mget d (s.mem.spans w) k)) ∧
  (∀ (s : State) (cid : Nat) (c : Cmd) (w first n : Nat), findCmd s cid = some c → c.stage = .executed →
    s.ctl.noMainClock = false → w < 3 → c.result = some (succeeded 0 [.unmapSpans w first n]) →
    ∃ t, exec (.commandCommit cid) s = .next t ∧ findCmd t cid = none ∧
      (∀ k, mhas (t.mem.spans w) k = (mhas (s.mem.spans w) k && !decide (first ≤ k ∧ k < first + n))))

/-- TOKEN_SET and its commit (R55): the counter holds value; its poison goes only with the clear flag. The commands that only
set state at their commit: NOP (R55), LOSS_SCALE with its values (R171), PHASE once every port has switched, until then it waits
(R283), STEP_BEGIN once no earlier command that names a tag is left, until then it waits, at once where it names the step in
force (R140, R284). SNAPSHOT writes the region, its header last, a torn master ends it; RESTORE from host memory takes the
images of a valid region and else ends; RESTORE from the mirror asks the partner, and ends where no mirror serves the master
(R309). A failing check ends either with its status. -/
def Obligations.SettingCommandsReachTheirCommit : Prop :=
  (∀ (s : State) (cid : Nat) (c : Cmd) (n : Nat), Dispatched s cid 0x0707 c → s.ctl.noMainClock = false →
    n = c.arg 0x10 2 → c.signal ≠ n →
    ∃ t u, exec (.tokenSet cid) s = .next t ∧ exec (.commandCommit cid) t = .next u ∧ findCmd u cid = none ∧
      (getCounter u n).count.toNat = c.arg 0x12 2 ∧
      (bit (c.arg 0x14 1) 0 = true → s.cmds = [c] → (getCounter u n).poison = false) ∧
      (bit (c.arg 0x14 1) 0 = false → (getCounter s n).poison = true → (getCounter u n).poison = true) ∧
      u.mem.cells = s.mem.cells) ∧
  (∀ (s : State) (cid : Nat) (c : Cmd), Dispatched s cid 0x0708 c →
    ∃ t, exec (.nop cid) s = .next t ∧ Executed s t c (succeeded 0 [])) ∧
  (∀ (s : State) (cid : Nat) (c : Cmd), Dispatched s cid 0x0504 c →
    ∃ t, exec (.lossScale cid) s = .next t ∧ Executed s t c (succeeded 0 [.lossScale (c.word 0x10) (c.word 0x14) (c.word 0x18) (c.word 0x20) (c.word 0x24) (c.arg 0x1C 4)])) ∧
  (∀ (s : State) (cid : Nat) (c : Cmd), Dispatched s cid 0x0703 c → (∀ e ∈ s.ports, e.2.oldPhase = false) →
    ∃ t, exec (.phase cid) s = .next t ∧ Executed s t c (succeeded 0 [])) ∧
  (∀ (s : State) (cid : Nat) (c : Cmd) (e : Nat × Port), Dispatched s cid 0x0703 c → e ∈ s.ports → e.2.oldPhase = true →
    exec (.phase cid) s = .next s) ∧
  (∀ (s : State) (cid : Nat) (c : Cmd), Dispatched s cid 0x0704 c → c.arg 0x10 6 ≠ s.job.step → fenceOpen s c = false →
    ∃ t, exec (.stepBegin cid) s = .next t ∧ Executed s t c (succeeded 0 [.newStep (c.arg 0x10 6)])) ∧
  (∀ (s : State) (cid : Nat) (c x : Cmd), Dispatched s cid 0x0704 c → c.arg 0x10 6 ≠ s.job.step →
    x ∈ s.cmds → x.inFlight = true → x.order < c.order → namesTag x = true → exec (.stepBegin cid) s = .next s) ∧
  (∀ (s : State) (cid : Nat) (c : Cmd), Dispatched s cid 0x0704 c → c.arg 0x10 6 = s.job.step →
    ∃ t, exec (.stepBegin cid) s = .next t ∧ Executed s t c (succeeded 0 [])) ∧
  (∀ (s : State) (cid : Nat) (c : Cmd), Dispatched s cid 0x0602 c → checkpointIssue s c = none →
    isTorn (readDesc s (c.arg 0x10 2)) = false →
    ∃ t n h, exec (.snapshot cid) s = .next t ∧ Executed s t c (succeeded n
      [.host (c.arg 0x18 8 + 0x40) (snapshotBody s c), .host (c.arg 0x18 8) h]) ∧ h.length = 64) ∧
  (∀ (s : State) (cid : Nat) (c : Cmd), Dispatched s cid 0x0602 c → checkpointIssue s c = none →
    isTorn (readDesc s (c.arg 0x10 2)) = true →
    ∃ t, exec (.snapshot cid) s = .next t ∧
      Ended s t c (shardVersion (c.arg 0x10 2) (readDesc s (c.arg 0x10 2)).generation) 0) ∧
  (∀ (s : State) (cid : Nat) (c : Cmd) (b : Bytes), Dispatched s cid 0x0603 c → checkpointIssue s c = none →
    c.arg 0x16 1 = 1 → hostImageGood b (blocksOf (cmdImages s c)) = true →
    ∃ t, exec (.restore cid (.data b)) s = .next t ∧
      Executed s t c (restoreResult s c (field b 0x10 8) (fun i n => slice b (imageOff (cmdImages s c) i) n) [])) ∧
  (∀ (s : State) (cid : Nat) (c : Cmd) (b : Bytes), Dispatched s cid 0x0603 c → checkpointIssue s c = none →
    c.arg 0x16 1 = 1 → hostImageGood b (blocksOf (cmdImages s c)) = false →
    ∃ t, exec (.restore cid (.data b)) s = .next t ∧ Ended s t c (noMirror s (readDesc s (c.arg 0x10 2))) 0) ∧
  (∀ (s : State) (cid : Nat) (c : Cmd), Dispatched s cid 0x0603 c → checkpointIssue s c = none → c.arg 0x16 1 = 1 →
    ∃ t, exec (.restore cid .failed) s = .next t ∧ Ended s t c (0x11, 0x218) 0) ∧
  (∀ (s : State) (cid : Nat) (c : Cmd) (host : HostRead) (mr : Mirror), Dispatched s cid 0x0603 c → checkpointIssue s c = none →
    c.arg 0x16 1 = 0 → mr = getMirror s (c.arg 0x17 1) →
    (mr.source = false ∨ mr.desc ≠ c.arg 0x10 2 ∨ mr.state = 3 ∨ mr.state = 0) →
    ∃ t, exec (.restore cid host) s = .next t ∧ Ended s t c (noMirror s (readDesc s (c.arg 0x10 2))) 0) ∧
  (∀ (s : State) (cid : Nat) (c : Cmd) (host : HostRead) (mr : Mirror) (m : TxMsg) (u : State), Dispatched s cid 0x0603 c →
    checkpointIssue s c = none → c.arg 0x16 1 = 0 → mr = getMirror s (c.arg 0x17 1) → mr.source = true → mr.desc = c.arg 0x10 2 →
    mr.state ≠ 3 → mr.state ≠ 0 → c.holds = false → u = putCmd s { c with holds := true } →
    m = mirrorMsg s c.phase mr.laxis mr.partner (c.arg 0x17 1) 6 (some cid) [] →
    (∀ t, sendTx u 0 m = some t → exec (.restore cid host) s = .next t) ∧
    (sendTx u 0 m = none → ∃ t, exec (.restore cid host) s = .next t ∧ Ended u t c (linkLost (lastPort m) m.level) 0)) ∧
  (∀ (s : State) (cid : Nat) (c : Cmd) (host : HostRead) (e : Err), checkpointIssue s c = some e → signals e.1 = false →
    (Dispatched s cid 0x0602 c → ∃ t, exec (.snapshot cid) s = .next t ∧ Ended s t c e 0) ∧
    (Dispatched s cid 0x0603 c → ∃ t, exec (.restore cid host) s = .next t ∧ Ended s t c e 0))

/-- The update commands (R163-R168, R295, R308): UPDATE_SGD, UPDATE_ADAM and UPDATE_LION wait until the step verdict is final,
UPDATE_VERDICT_READY lets a waiting one of any of the three go on. A non-finite verdict ends them with STEP_NONFINITE and no
write but the clip factor; any other writes the new state and the next generation, OK, or OK_WITH_NOTES with bit 10 where a
module was excluded. An element whose master or state would not be finite keeps its old bytes and is counted as held (R167). -/
def Obligations.UpdatesWaitForTheVerdict : Prop :=
  UpdatesBy .updateSgd 0x0501 ∧ UpdatesBy .updateAdam 0x0502 ∧ UpdatesBy .updateLion 0x0503 ∧
  UpdatesBy .updateVerdictReady 0x0501 ∧ UpdatesBy .updateVerdictReady 0x0502 ∧ UpdatesBy .updateVerdictReady 0x0503 ∧
  (∀ (s : State) (c : Cmd), (skippedResult s c).status = 0x32 ∧ (skippedResult s c).effects = [.clip (clipFactor c)]) ∧
  (∀ (s : State) (c : Cmd) (r : Result) (d : Desc), r = updateResult s c → d = readDesc s (c.arg 0x10 2) →
    r.status = (if s.peers.excluded then 1 else 0) ∧ r.detail = (if s.peers.excluded then 0x400 else 0) ∧
    .write d.base ((updateElems s c).flatMap (fun e => toLe 2 (e.w.toNat / 65536))) ∈ r.effects ∧
    .write (d.base + d.half) ((updateElems s c).flatMap (fun e => toLe 2 (e.w.toNat % 65536))) ∈ r.effects ∧
    .generation d.id (BitVec.ofNat 64 (d.generation + 1)) ∈ r.effects ∧
    .held (((updateElems s c).filter (fun e => e.held)).length) ∈ r.effects ∧ .clip (clipFactor c) ∈ r.effects ∧
    (∀ slot mr, mirrorOf s d.id = some (slot, mr) →
      .mirrorSet slot 1 (BitVec.ofNat 64 (d.generation + 1)) (BitVec.ofNat 64 (d.generation + 1)) 0 ∈ r.effects)) ∧
  (∀ (s : State) (k : UpdateK) (dm dg d1 d2 : Desc) (i : Nat) (old x : Elem),
    old.w = masterAt s.mem dm i → old.m = (if d1.id = 0 then 0 else widenedAt s.mem d1 i) →
    old.v = (if d2.id = 0 then 0 else widenedAt s.mem d2 i) → x = updateElem k old (widenedAt s.mem dg i) →
    (isFinite x.w = false → newElem s k dm dg d1 d2 i = { oldElem s dm d1 d2 i with held := true }) ∧
    (isFinite x.w = true → d1.id = 0 → d2.id = 0 → (newElem s k dm dg d1 d2 i).w = x.w ∧ (newElem s k dm dg d1 d2 i).held = false))

/-! ## Jobs, management and privilege -/

/-- LOAD_JOB (R24, R53): refused while a job is loaded or in the safe state, then for the first resource that falls short, with
no side effect; else the job is the packet's, every counter is zero and unpoisoned, and per-job state is reset. END_JOB (R54):
refused with no job; it kills the job's kill-class commands, drops its undispatched ones and waits, as long as a command or a
reply of the job is left; then the job is gone, its queues are disabled, its counters read zero, and without keep all spans are
unmapped and every byte of the job's memory reads zero; with keep every span and byte stays. SUSPEND and RESUME (R50, R51):
refused with no job or a failed one (of a SUSPEND in progress the model's choice, log 68); a repeated one replies OK and changes
nothing; SUSPEND stops the kill-class commands and waits while a run-class command is dispatched, then its save area is the
firmware's; RESUME gives the stopped commands back to their queues. -/
def Obligations.JobsAreLoadedSuspendedEnded : Prop :=
  (∀ (s : State) (cid : Nat) (c : Cmd), Dispatched s cid 0x0701 c → (s.job.loaded = true ∨ s.ctl.kstate = 2) →
    ∃ t, exec (.loadJob cid) s = .next t ∧ Ended s t c (0x11, 0x600) 0) ∧
  (∀ (s : State) (cid : Nat) (c : Cmd), Dispatched s cid 0x0701 c → s.job.loaded = false → s.ctl.kstate ≠ 2 →
    (meresExposed s 0 < c.arg 0x14 2 →
      ∃ t, exec (.loadJob cid) s = .next t ∧ Ended s t c (capacityShort 0 (c.arg 0x14 2 - meresExposed s 0)) 0) ∧
    (c.arg 0x14 2 ≤ meresExposed s 0 → meresExposed s 1 < c.arg 0x14 2 →
      ∃ t, exec (.loadJob cid) s = .next t ∧ Ended s t c (capacityShort 1 (c.arg 0x14 2 - meresExposed s 1)) 0) ∧
    (c.arg 0x14 2 ≤ meresExposed s 0 → c.arg 0x14 2 ≤ meresExposed s 1 → hbmAllocatable s < c.arg 0x20 8 →
      ∃ t, exec (.loadJob cid) s = .next t ∧
        Ended s t c (capacityShort 2 (ceilDiv (c.arg 0x20 8 - hbmAllocatable s) 0x40000000)) 0) ∧
    (c.arg 0x14 2 ≤ meresExposed s 0 → c.arg 0x14 2 ≤ meresExposed s 1 → c.arg 0x20 8 ≤ hbmAllocatable s →
      ∃ t, exec (.loadJob cid) s = .next t ∧ Ended (loadJob s c) t c (0, 0) 0 ∧ t.job = jobOf c ∧ t.job.step = 0 ∧
        t.update = Update.reset ∧ t.peers = Peers.reset ∧ t.mem.cells = s.mem.cells ∧
        (s.cmds = [c] → c.signal = 0 → ∀ n, getCounter t n = { count := 0, poison := false }))) ∧
  (∀ (s : State) (cid : Nat) (c : Cmd), Dispatched s cid 0x0702 c → s.job.loaded = false →
    ∃ t, exec (.endJob cid) s = .next t ∧ Ended s t c (0x11, 0x600) 0) ∧
  (∀ (s u : State) (cid : Nat) (c : Cmd), Dispatched s cid 0x0702 c → s.job.loaded = true →
    u = (if c.holds then s else putCmd (endJobKill s) { c with holds := true }) →
    (c.holds = false → ∀ x ∈ u.cmds, x.q < 64 → x.inFlight = true ∧ isKill x.opcode = false) ∧
    (((∃ x ∈ u.cmds, x.q < 64) ∨ (∃ e ∈ u.queues, e.1 < 64 ∧ e.2.replies ≠ [])) → exec (.endJob cid) s = .next u) ∧
    ((∀ x ∈ u.cmds, 64 ≤ x.q) → (∀ e ∈ u.queues, e.1 < 64 → e.2.replies = []) →
      ∃ t v, exec (.endJob cid) s = .next t ∧ Counted v t ∧
        Ended (endJobFinish u (bit (c.arg 0x10 1) 0)) v { c with holds := true } (0, 0) 0 ∧ t.job.loaded = false ∧
        (s.cmds = [c] → c.signal = 0 → ∀ n, getCounter t n = { count := 0, poison := false }) ∧
        (bit (c.arg 0x10 1) 0 = true → t.mem.cells = u.mem.cells ∧ t.mem.spans0 = u.mem.spans0 ∧
          t.mem.spans1 = u.mem.spans1 ∧ t.mem.spans2 = u.mem.spans2) ∧
        (bit (c.arg 0x10 1) 0 = false →
          (∀ a, a < coreBase → claimAt u.mem.claims a = none → t.mem.read a = 0) ∧
          t.mem.spans0 = [] ∧ t.mem.spans1 = [] ∧ t.mem.spans2 = []))) ∧
  (∀ (s : State) (cid : Nat) (c : Cmd), (s.job.loaded = false ∨ s.job.failed = true) →
    (Dispatched s cid 0x0705 c → ∃ t, exec (.suspend cid) s = .next t ∧ Ended s t c (0x11, 0x600) 0) ∧
    (Dispatched s cid 0x0706 c → ∃ t, exec (.resume cid) s = .next t ∧ Ended s t c (0x11, 0x600) 0)) ∧
  (∀ (s : State) (cid : Nat) (c : Cmd), s.job.loaded = true → s.job.failed = false →
    (Dispatched s cid 0x0705 c → s.job.suspended = true → c.holds = false →
      ∃ t, exec (.suspend cid) s = .next t ∧ Ended s t c (0, 0) 0) ∧
    (Dispatched s cid 0x0706 c → s.job.suspended = false →
      ∃ t, exec (.resume cid) s = .next t ∧ Ended s t c (0, 0) 0) ∧
    (Dispatched s cid 0x0706 c → s.job.suspended = true →
      ∃ t, exec (.resume cid) s = .next t ∧ Ended (resumeCmds s) t c (0, 0) 0 ∧ t.job.suspended = false)) ∧
  (∀ (s : State) (x : Cmd), x ∈ s.cmds → x.stage = .stopped → x.cid ∉ s.rel.toRerun →
    { x with stage := .fetched } ∈ (resumeCmds s).cmds) ∧
  (∀ (s u : State) (cid : Nat) (c : Cmd), Dispatched s cid 0x0705 c → s.job.loaded = true → s.job.failed = false →
    s.job.suspended = c.holds → u = (if c.holds then s else putCmd (suspendStart s) { c with holds := true }) →
    u.job.suspended = true ∧
    ((∃ x ∈ u.cmds, x.q < 64 ∧ x.inFlight = true) → exec (.suspend cid) s = .next u) ∧
    ((∀ x ∈ u.cmds, x.q < 64 → x.inFlight = false) →
      ∃ t, exec (.suspend cid) s = .next t ∧ Ended (saveToArea u) t { c with holds := true } (0, 0) 0 ∧
        t.job.suspended = true))

/-- Group 0x0F (R356, R357, R380, R399, R236): what each writes to the host, TELEMETRY_READ, ERRLOG_READ and ATTEST, or sets,
POWER_CAP and QUOTA_SET, and its reply OK. Images (R371-R374, R378): a valid one no older than its floor becomes the pending
image of its type; one that fails a check is SIGNATURE_INVALID and counted; one below its floor, or not delivered, is BAD_PARAM.
The floor of FW_UPDATE is the stored one, of FW_DOWNGRADE, under presence, the fused one. A debug token is no firmware image: it
is SIGNATURE_INVALID here (the model's choice, log 100). -/
def Obligations.ManagementCommandsTakeEffect : Prop :=
  (∀ (s : State) (cid : Nat) (c : Cmd), Dispatched s cid 0x0F01 c →
    ∃ t, exec (.telemetryRead cid) s = .next t ∧
      Ended (emit s (.hostWrite (c.arg 0x10 8) (telemetryImage s (c.arg 0x20 4)))) t c (0, 0) 0) ∧
  (∀ (s : State) (cid : Nat) (c : Cmd) (w : Nat), Dispatched s cid 0x0F02 c → w = c.arg 0x10 2 →
    ∃ t, exec (.powerCap cid) s = .next t ∧ Ended (setCap s w) t c (0, 0) 0 ∧
      t.power = { s.power with capW := if w = 0 then none else some w, capUnreachable := decide (0 < w ∧ w < s.power.pidle) }) ∧
  (∀ (s : State) (cid : Nat) (c : Cmd), Dispatched s cid 0x0F03 c →
    ∃ t, exec (.quotaSet cid) s = .next t ∧ Ended (setQuota s (c.arg 0x10 1) (c.word 0x14)) t c (0, 0) 0 ∧
      mget 0 t.mem.quota (c.arg 0x10 1) = c.word 0x14 ∧
      ∀ q, q ≠ c.arg 0x10 1 → mget 0xFFFFFFFF#32 t.mem.quota q = mget 0xFFFFFFFF#32 s.mem.quota q) ∧
  (∀ (s : State) (cid : Nat) (c : Cmd) (b : Bytes), Dispatched s cid 0x0F04 c →
    b = (heldEntries s (c.arg 0x20 4) (c.arg 0x24 2)).flatMap logBytes →
    ∃ t, exec (.errlogRead cid) s = .next t ∧
      Ended (if b = [] then s else emit s (.hostWrite (c.arg 0x10 8) b)) t c (0, 0) 0) ∧
  (∀ (s : State) (cid : Nat) (c : Cmd), Dispatched s cid 0x0F06 c →
    ∃ t, exec (.attest cid) s = .next t ∧
      Ended { emit s (.hostWrite (c.arg 0x10 8) (attestReport s (slice c.params 0x10 24))) with freeCtr := s.freeCtr + 1 }
        t c (0, 0) 0) ∧
  StoresImage .fwUpdate 0x0F05 false storedFloor (fun _ => True) ∧
  StoresImage .fwDowngrade 0x0E01 true fusedFloor (fun s => presence s = true)

/-- Presence holds in an open press window, or with the jumper fitted, not ignored and not fused off (R375); a command of group
0x0E that begins without it, FW_DOWNGRADE, KEY_ROTATE, DEBUG_UNLOCK, SPARE_OVERRIDE or FUSE_WRITE, ends with PRESENCE_REQUIRED,
detail the opcode, and has no side effect (R376). Group 0x0E under presence (R378, R379): KEY_ROTATE revokes the slots below the
named one, DEBUG_UNLOCK opens debug with a bound token, SPARE_OVERRIDE edits the lane map of a bundle or a port, FUSE_WRITE
raises a floor or disables the jumper; each case that R379 rejects ends with its status and changes nothing but the count of
invalid signatures. -/
def Obligations.PrivilegeNeedsPresence : Prop :=
  (∀ s : State, presence s = true ↔
    0 < s.sec.windowUs ∨ s.sec.jumper = true ∧ s.sec.jumperIgnore = false ∧ s.sec.jumperFused = false) ∧
  (∀ (s : State) (cid : Nat) (c : Cmd) (host : HostRead), s.sec.windowUs = 0 →
    (s.sec.jumper = false ∨ s.sec.jumperIgnore = true ∨ s.sec.jumperFused = true) →
    (Dispatched s cid 0x0E01 c → ∃ t, exec (.fwDowngrade cid host) s = .next t ∧ Ended s t c (0x50, 0x0E01) 0) ∧
    (Dispatched s cid 0x0E02 c → ∃ t, exec (.keyRotate cid) s = .next t ∧ Ended s t c (0x50, 0x0E02) 0) ∧
    (Dispatched s cid 0x0E03 c → ∃ t, exec (.debugUnlock cid host) s = .next t ∧ Ended s t c (0x50, 0x0E03) 0) ∧
    (Dispatched s cid 0x0E04 c → ∃ t, exec (.spareOverride cid) s = .next t ∧ Ended s t c (0x50, 0x0E04) 0) ∧
    (Dispatched s cid 0x0E05 c → ∃ t, exec (.fuseWrite cid) s = .next t ∧ Ended s t c (0x50, 0x0E05) 0)) ∧
  (∀ (s : State) (cid : Nat) (c : Cmd) (k : Nat), Dispatched s cid 0x0E02 c → presence s = true → k = c.arg 0x10 1 →
    (k ≤ lowestSlot s → ∃ t, exec (.keyRotate cid) s = .next t ∧ Ended s t c (0x11, 0x210) 0) ∧
    (∀ (e : Nat × Banks) (x : Image), lowestSlot s < k → e ∈ s.sec.banks →
      (e.2.active = some x ∨ e.2.pending = true ∧ e.2.other = some x) → x.keySlot < k →
      ∃ t, exec (.keyRotate cid) s = .next t ∧ Ended s t c (0x11, 0x600) 0) ∧
    (lowestSlot s < k → (∀ e ∈ s.sec.banks, (∀ x, e.2.active = some x → k ≤ x.keySlot) ∧
        (e.2.pending = true → ∀ x, e.2.other = some x → k ≤ x.keySlot)) →
      ∃ t, exec (.keyRotate cid) s = .next t ∧
        (∀ n, n < 4 → (n ∈ t.sec.revoked ↔ n < k ∨ n ∈ s.sec.revoked)) ∧
        Ended { s with sec := { s.sec with revoked := t.sec.revoked } } t c (0, 0) 0)) ∧
  (∀ (s : State) (cid : Nat) (c : Cmd) (host : HostRead), Dispatched s cid 0x0E03 c → presence s = true →
    (s.job.loaded = true → ∃ t, exec (.debugUnlock cid host) s = .next t ∧ Ended s t c (0x11, 0x600) 0) ∧
    (s.job.loaded = false → host = .failed →
      ∃ t, exec (.debugUnlock cid host) s = .next t ∧ Ended s t c (0x11, 0x210) 0) ∧
    (∀ b, s.job.loaded = false → host = .data b → (imageFault s b ≠ none ∨ field b 5 1 ≠ 0x10) →
      ∃ t, exec (.debugUnlock cid host) s = .next t ∧
        Ended { s with sec := { s.sec with sigFail := satAdd 32 s.sec.sigFail 1 } } t c (signatureInvalid (imageType b)) 0) ∧
    (∀ b, s.job.loaded = false → host = .data b → imageFault s b = none → field b 5 1 = 0x10 → field b 0x40 8 = 0 →
      ∃ t, exec (.debugUnlock cid host) s = .next t ∧
        Ended { s with sec := { s.sec with sigFail := satAdd 32 s.sec.sigFail 1 } } t c (signatureInvalid 0x10) 0) ∧
    (∀ b, s.job.loaded = false → host = .data b → imageFault s b = none → field b 5 1 = 0x10 → field b 0x40 8 ≠ 0 →
      ∃ t, exec (.debugUnlock cid host) s = .next t ∧ Ended { s with sec := { s.sec with debug := true } } t c (0, 0) 0)) ∧
  (∀ (s : State) (cid : Nat) (c : Cmd) (p : Nat), Dispatched s cid 0x0E04 c → presence s = true → p = c.arg 0x12 1 →
    (c.arg 0x10 1 = 1 →
      ((c.arg 0x13 1 = 1 ↔ p ∉ (getBundle s (c.arg 0x11 1)).nonVolatile) →
        ∃ t l, exec (.spareOverride cid) s = .next t ∧
          (∀ x, x ∈ l ↔ (x = p ∧ c.arg 0x13 1 = 1) ∨ (x ≠ p ∧ x ∈ (getBundle s (c.arg 0x11 1)).nonVolatile)) ∧
          Ended (setBundle s (c.arg 0x11 1) { getBundle s (c.arg 0x11 1) with nonVolatile := l }) t c (0, 0) 0) ∧
      ((c.arg 0x13 1 = 1 ↔ p ∈ (getBundle s (c.arg 0x11 1)).nonVolatile) →
        ∃ t, exec (.spareOverride cid) s = .next t ∧ Ended s t c (0x11, 0x213) 0)) ∧
    (c.arg 0x10 1 = 2 →
      ((c.arg 0x13 1 = 1 ↔ p ∉ (getPort s (c.arg 0x11 1)).nonVolatile) →
        ∃ t l, exec (.spareOverride cid) s = .next t ∧
          (∀ x, x ∈ l ↔ (x = p ∧ c.arg 0x13 1 = 1) ∨ (x ≠ p ∧ x ∈ (getPort s (c.arg 0x11 1)).nonVolatile)) ∧
          Ended (setPort s (c.arg 0x11 1) { getPort s (c.arg 0x11 1) with nonVolatile := l }) t c (0, 0) 0) ∧
      ((c.arg 0x13 1 = 1 ↔ p ∈ (getPort s (c.arg 0x11 1)).nonVolatile) →
        ∃ t, exec (.spareOverride cid) s = .next t ∧ Ended s t c (0x11, 0x213) 0))) ∧
  (∀ (s : State) (cid : Nat) (c : Cmd) (x v : Nat), Dispatched s cid 0x0E05 c → presence s = true → x = c.arg 0x11 1 →
    v = c.arg 0x12 1 →
    (c.arg 0x10 1 = 2 →
      ∃ t, exec (.fuseWrite cid) s = .next t ∧ Ended { s with sec := { s.sec with jumperFused := true } } t c (0, 0) 0) ∧
    (c.arg 0x10 1 = 1 → (v ≤ fusedFloor s x ∨ 63 < v ∨ (banksOf s x).active = none ∨ (∃ y, (banksOf s x).active = some y ∧ y.svn < v)) →
      0 < v → ∃ t, exec (.fuseWrite cid) s = .next t ∧ Ended s t c (0x11, 0x212) 0) ∧
    (c.arg 0x10 1 = 1 → fusedFloor s x < v → v ≤ 63 → (∃ y, (banksOf s x).active = some y ∧ v ≤ y.svn) →
      ∃ t, exec (.fuseWrite cid) s = .next t ∧ fusedFloor t x = v ∧ (∀ y, y ≠ x → fusedFloor t y = fusedFloor s y) ∧
        Ended { s with sec := { s.sec with floors := t.sec.floors } } t c (0, 0) 0))

/-! ## Registers, the aperture, the endpoint and the management path -/

/-- Registers with a write of their own, for a source that reaches them (R147, R198, R320, R310, R400, R415, R353): the guard's,
a die's SSHARE, SDSHARE and the source tails, WCTRL, PCTRL and RSCRUB, the mailboxes: a value in range waits for its moment or
is taken, one out of range is discarded, with the flag that tells it; nothing else changes. Security controls (R7, R381):
end_window closes the press window; a write of jumper_ignore takes effect under presence, and without it is discarded and
counted in PRESREFUSE. -/
def Obligations.ConfigurationWritesTakeEffect : Prop :=
  (∀ (s : State) (src : Source) (tag : Nat) (v : Word), sourceUp s src = true → 1 ≤ tag → tag ≤ 255 →
    exec (.guardConfigWrite src tag .tcfg v) s = .next (setTag s tag
      (if tcfgValid v then { getTag s tag with heldCfg := some (v &&& 0xFFFFFF00#32) } else getTag s tag)) ∧
    exec (.guardConfigWrite src tag .tlim v) s = .next (setTag s tag { getTag s tag with heldLim := some v }) ∧
    exec (.guardConfigWrite src tag .ttset v) s = .next (setTag s tag { getTag s tag with heldSet := some v }) ∧
    exec (.guardConfigWrite src tag .tinit v) s = .next (setTag s tag
      (if v.toNat < 0x7F800000 ∨ v = 0x80000000#32 then { getTag s tag with heldInit := some v } else getTag s tag))) ∧
  (∀ (s : State) (src : Source) (d : Nat) (v : Word), sourceUp s src = true → d < 2 →
    exec (.sshareWrite src d v) s = .next (setStream s d
      (if v.toNat % 256 + v.toNat / 256 % 256 + v.toNat / 65536 % 256 = 256
       then { getStream s d with sshare := v &&& 0xFFFFFF#32 }
       else { getStream s d with shareRefused := true }))) ∧
  (∀ (s : State) (src : Source) (n : Nat) (v : Word) (rsv : Bool), sourceUp s src = true → dieState s 4 = 1 → n < 16 →
    exec (.sdshareWrite src n v) s = .next
      (if ((List.range 16).map (fun k => if k = n then v.toNat % 256 else shareOf (getIngest s k))).sum ≤ 256
       then setIngest s n { getIngest s n with pendShare := some (v &&& 0xFF#32) }
       else { s with spring := { s.spring with shareRefused := true } }) ∧
    exec (.sourceTailWrite src n rsv v) s = .next (setIngest s n
      { getIngest s n with srcTail := if rsv then (getIngest s n).srcTail else v,
                           rsvTail := if rsv then v else (getIngest s n).rsvTail })) ∧
  (∀ (s : State) (src : Source) (v : Word), sourceUp s src = true →
    exec (.wctrlWrite src v) s = .next { s with power :=
      if 10 ≤ v.toNat / 2 ^ 21 ∧ v.toNat / 2 ^ 21 ≤ 2000 ∧ 10 ≤ v.toNat / 2 ^ 10 % 2048 ∧ v.toNat / 2 ^ 10 % 2048 ≤ 2000 ∧
          v.toNat / 8 % 128 ≤ 100
      then { s.power with pendWctrl := some (v &&& 0xFFFFFFF8#32) } else { s.power with wctrlRefused := true } } ∧
    (∃ p, exec (.freqTargetWrite src v) s = .next { s with power := { s.power with pctrl := p } } ∧
      bit p.toNat 12 = bit v.toNat 12 ∧
      bits p.toNat 10 0 = (if 600 ≤ v.toNat % 2048 ∧ v.toNat % 2048 ≤ 1200 then v.toNat % 2048 / 25 * 25
        else bits s.power.pctrl.toNat 10 0)) ∧
    exec (.rscrubWrite src v) s = .next { s with rel := { s.rel with
      rscrub := if 1 ≤ v.toNat % 32 ∧ v.toNat % 32 ≤ 24 then v &&& 0x11F#32 else s.rel.rscrub } }) ∧
  (∀ (s : State) (src : Source) (v : DWord), sourceUp s src = true →
    exec (.hostMailboxWrite src v) s = .next { s with
      ctl := { s.ctl with h2c := v, coreIrq := true, halves := mdel s.ctl.halves 0x110 }
      out := s.out ++ [.coreInterrupt] }) ∧
  (∀ (s : State) (v : DWord), sourceUp s .cores = true →
    exec (.coreMailboxWrite v) s = .next { s with
      ctl := { s.ctl with c2h := v }
      out := s.out ++ (if barsUp s then [.msix (s.ctl.kirq.toNat % 1024)] else []) }) ∧
  (∀ (s : State) (src : Source) (on : Bool), sourceUp s src = true →
    exec (.endWindow src) s = .next { s with sec := { s.sec with windowUs := 0 } } ∧
    (presence s = true → exec (.jumperIgnoreWrite src on) s = .next { s with sec := { s.sec with jumperIgnore := on } }) ∧
    (presence s = false → exec (.jumperIgnoreWrite src on) s =
      .next { s with ctl := { s.ctl with presRefuse := min (s.ctl.presRefuse + 1) 0xFFFFFFFF } }))

/-- Writes to registers without a row of their own (R7, R8, R348, R351): a read-only or unlisted place keeps its value; a one
clears a sticky bit, a zero leaves it; the lower half of an 8-byte register waits for its upper half, which brings both in;
BAR4/5 leads to the MSI-X table, whose pending bits are read-only. -/
def Obligations.RegisterWritesFollowTheirAccessCode : Prop :=
  (∀ (s : State) (src : Source) (off : Nat) (v : DWord), src ≠ .hostMsix → off < 0x100 → off % 4 = 0 →
    exec (.registerWrite src off 4 v) s = .next s) ∧
  (∀ (s : State) (src : Source) (v : DWord), sourceUp s src = true →
    ∃ t, exec (.registerWrite src 0x120 4 v) s = .next t ∧ Counted { s with ctl := { s.ctl with kirq := v.setWidth 32 &&& 0x3FF#32 } } t) ∧
  (∀ (s : State) (src : Source) (v : DWord), sourceUp s src = true →
    ∃ t, exec (.registerWrite src 0xC0000 4 v) s = .next t ∧ Counted { s with rel := { s.rel with
      overwrote := s.rel.overwrote && !bit (v.toNat % 2 ^ 32) 1, overflow := s.rel.overflow && !bit (v.toNat % 2 ^ 32) 0 } } t) ∧
  (∀ (s : State) (q : Nat) (v : DWord), q ≤ 64 → barsUp s = true →
    ∃ t, exec (.registerWrite .host (0x10000 + 0x40 * q + 0x2C) 4 v) s = .next t ∧
      Counted (setQueue s q (clearSticky (getQueue s q) (v.toNat % 2 ^ 32))) t) ∧
  (∀ (s : State) (src : Source) (lo hi : Word), sourceUp s src = true →
    ∃ t u, exec (.registerWrite src 0x108 4 (lo.setWidth 64)) s = .next t ∧ t.ctl.apbase = s.ctl.apbase ∧
      exec (.registerWrite src 0x10C 4 (hi.setWidth 64)) t = .next u ∧
      u.ctl.apbase.toNat = hi.toNat * 2 ^ 32 + lo.toNat ∧ u.mem = s.mem ∧ u.queues = s.queues ∧ u.cmds = s.cmds) ∧
  (∀ (s : State) (src : Source) (v : DWord), sourceUp s src = true →
    ∃ t, exec (.registerWrite src 0x108 8 v) s = .next t ∧ t.ctl.apbase = v) ∧
  (∀ (s : State) (off : Nat) (v : DWord), barsUp s = true → off % 4 = 0 →
    (off < 0x4000 → exec (.registerWrite .hostMsix off 4 v) s =
      .next { s with ctl := { s.ctl with msixTable := mput s.ctl.msixTable (off / 4) (v.setWidth 32) } }) ∧
    (0x4000 ≤ off → exec (.registerWrite .hostMsix off 4 v) s = .next s))

/-- The aperture (R349): the address is APBASE's upper half with the offset; a read of mapped memory returns its bytes, one that
stays uncorrectable ones, and counts in MUNCOR; a read of unmapped memory returns ones and counts in APERR; a write reads back
and touches no other byte, one of part of a sector that stays uncorrectable is discarded, one of unmapped memory discarded and
counted. The application cores reach the loaded job's device addresses and their own 16 GiB window the same way (R230, R344);
what a read of theirs gets where nothing answers is the model's choice (log 94). -/
def Obligations.ApertureReadsAndWritesMemory : Prop :=
  (∀ (s : State) (off n a : Nat), barsUp s = true → a = s.ctl.apbase.toNat / 2 ^ 32 * 2 ^ 32 + off % 2 ^ 32 →
    (reachable s a n = true →
      ∃ t, exec (.apertureRead ⟨.aperture, off⟩ n .clean) s = .next t ∧ Counted { s with out := s.out ++ [.completion (s.mem.readN a n)] } t) ∧
    (reachable s a n = true → ∀ hbm, hbm ≠ .uncorrectable →
      ∃ t, exec (.apertureRead ⟨.aperture, off⟩ n hbm) s = .next t ∧ t.out = s.out ++ [.completion (s.mem.readN a n)]) ∧
    (reachable s a n = true →
      ∃ t, exec (.apertureRead ⟨.aperture, off⟩ n .uncorrectable) s = .next t ∧ t.out = s.out ++ [.completion (List.replicate n 0xFF#8)] ∧
        t.mem.muncor = min (s.mem.muncor + 1) 0xFFFFFFFF ∧ t.ctl.aperr = s.ctl.aperr ∧ t.mem.cells = s.mem.cells) ∧
    (s.mem.mappedRange a n = false → ∀ hbm,
      ∃ t, exec (.apertureRead ⟨.aperture, off⟩ n hbm) s = .next t ∧ Counted { s with
        out := s.out ++ [.completion (List.replicate n 0xFF#8)]
        ctl := { s.ctl with aperr := min (s.ctl.aperr + 1) 0xFFFFFFFF } } t)) ∧
  (∀ (s : State) (off a : Nat) (b : Bytes), barsUp s = true → a = s.ctl.apbase.toNat / 2 ^ 32 * 2 ^ 32 + off % 2 ^ 32 →
    (Safe s → reachable s a b.length = true → (∀ x, a ≤ x → x < a + b.length → claimAt s.mem.claims x = none) →
      ∀ hbm, (hbm ≠ .uncorrectable ∨ a % 64 = 0 ∧ b.length % 64 = 0) →
      ∃ t, exec (.apertureWrite ⟨.aperture, off⟩ b hbm) s = .next t ∧ t.mem.readN a b.length = b ∧
        (∀ x, x < a ∨ a + b.length ≤ x → t.mem.read x = s.mem.read x) ∧ Counted { s with mem := t.mem, rel := t.rel } t) ∧
    (reachable s a b.length = true → (a % 64 ≠ 0 ∨ b.length % 64 ≠ 0) →
      ∃ t, exec (.apertureWrite ⟨.aperture, off⟩ b .uncorrectable) s = .next t ∧ t.mem.cells = s.mem.cells ∧
        t.mem.muncor = min (s.mem.muncor + 1) 0xFFFFFFFF) ∧
    (s.mem.mappedRange a b.length = false → ∀ hbm,
      exec (.apertureWrite ⟨.aperture, off⟩ b hbm) s = .next { s with ctl := { s.ctl with aperr := min (s.ctl.aperr + 1) 0xFFFFFFFF } })) ∧
  (∀ (s : State) (a n : Nat), sourceUp s .cores = true → s.job.loaded = true → reachable s a n = true →
    (∃ t, exec (.apertureRead ⟨.coreJob, a⟩ n .clean) s = .next t ∧ Counted { s with out := s.out ++ [.coreData (s.mem.readN a n)] } t) ∧
    (∀ b : Bytes, Safe s → b.length = n → (∀ x, a ≤ x → x < a + n → claimAt s.mem.claims x = none) →
      ∃ t, exec (.apertureWrite ⟨.coreJob, a⟩ b .clean) s = .next t ∧ t.mem.readN a n = b ∧
        (∀ x, x < a ∨ a + n ≤ x → t.mem.read x = s.mem.read x) ∧ Counted { s with mem := t.mem } t)) ∧
  (∀ (s : State) (off n : Nat), sourceUp s .cores = true → off + n ≤ coreSize →
    (∀ k, k < 8 → (s.mem.stack k).present = true ∧ (s.mem.stack k).selfRefresh = false) →
    (∃ t, exec (.apertureRead ⟨.coreWindow, off⟩ n .clean) s = .next t ∧
      Counted { s with out := s.out ++ [.coreData (s.mem.readN (coreBase + off) n)] } t) ∧
    (∀ b : Bytes, Safe s → b.length = n → (∀ x, coreBase + off ≤ x → x < coreBase + off + n → claimAt s.mem.claims x = none) →
      ∃ t, exec (.apertureWrite ⟨.coreWindow, off⟩ b .clean) s = .next t ∧ t.mem.readN (coreBase + off) n = b ∧
        (∀ x, x < coreBase + off ∨ coreBase + off + n ≤ x → t.mem.read x = s.mem.read x) ∧ Counted { s with mem := t.mem } t)) ∧
  (∀ (s : State) (via : Via) (off n : Nat) (hbm : Sector), via ≠ .aperture → sourceUp s .cores = true →
    viaReach s (viaAddr s off via) n via = false →
    (∃ t, exec (.apertureRead ⟨via, off⟩ n hbm) s = .next t ∧ Counted { s with out := s.out ++ [.coreData (List.replicate n 0xFF#8)] } t) ∧
    (∀ b : Bytes, b.length = n → exec (.apertureWrite ⟨via, off⟩ b hbm) s = .next s)) ∧
  (∀ (s : State) (via : Via) (off n : Nat) (b : Bytes) (hbm : Sector), viaUp s via = false →
    exec (.apertureRead ⟨via, off⟩ n hbm) s = .next s ∧ exec (.apertureWrite ⟨via, off⟩ b hbm) s = .next s)

/-- PCIe configuration (R346, R354): no answer in reset, Configuration Request Retry Status before the endpoint is up, then the
register's word or a completion of the write; the status capability, at the place that the model presumes (log 60), tells the
package serial number. The data port (R361, R362): a good access moves 4 bytes and adds 4 to DP_ADDR where inc is set; a failed
one leaves the target and DP_ADDR and tells its code: no job, no mapping, no such place 1, a queue register or the identity
records written 3, a sector that stays uncorrectable 4. The code of a misaligned address and that of an address while K is off
are the model's (log 99). -/
def Obligations.EndpointAndDataPortAnswer : Prop :=
  (∀ (s : State) (off : Nat), s.ctl.noMainClock = false →
    (s.ctl.perst = true → ∀ w, exec (.pcieConfigRequest off w) s = .next s) ∧
    (s.ctl.perst = false → s.ctl.endpointOn = false → ∀ w,
      exec (.pcieConfigRequest off w) s = .next { s with out := s.out ++ [.configRetry] }) ∧
    (s.ctl.perst = false → s.ctl.endpointOn = true →
      exec (.pcieConfigRequest off none) s = .next { s with
        out := s.out ++ [.completion (toLe 4 (configRead s (off / 4 * 4)).toNat)], freeCtr := s.freeCtr + 1 } ∧
      (∀ w, ∃ t, exec (.pcieConfigRequest off (some w)) s = .next t ∧ t.out = s.out ++ [.completion []] ∧
        t = { s with out := t.out, ctl := { s.ctl with config := t.ctl.config, busMaster := t.ctl.busMaster } })) ∧
    (configRead s 0x110).toNat = field (toLe 8 s.ctl.serial.toNat) 0 4 ∧
    (configRead s 0x114).toNat = field (toLe 8 s.ctl.serial.toNat) 4 4) ∧
  (∀ (s : State) (a : Nat), s.mgmt.dpAddr.toNat = a → a % 4 = 0 → a < 0x100000 → s.ctl.noFirmware = false →
    94 ∈ s.power.domains →
    (∀ hbm, ∃ t, exec (.dpDataAccess none hbm) s = .next t ∧ t.out = s.out ++ [.dpData (BitVec.ofNat 32 (bar0Word s a))] ∧
      t.mgmt = { s.mgmt with dpAddr := if s.mgmt.inc then BitVec.ofNat 64 (a + 4) else s.mgmt.dpAddr } ∧
      t.ctl.updateCount = s.ctl.updateCount ∧ t.mem = s.mem ∧ t.queues = s.queues) ∧
    (∀ w hbm, 0x10000 ≤ a → a < 0x10000 + 65 * 0x40 →
      ∃ t, exec (.dpDataAccess (some w) hbm) s = .next t ∧
        Counted { s with mgmt := { s.mgmt with errValid := true, err := 3 } } t) ∧
    (∀ w hbm, (a < 0x10000 ∨ 0x10000 + 65 * 0x40 ≤ a) →
      ∃ t, exec (.dpDataAccess (some w) hbm) s = .next t ∧ Counted (dpNext (writeWord s a w)) t)) ∧
  (∀ (s : State) (a : Nat), s.mgmt.dpAddr.toNat = 2 ^ 60 + a → a % 4 = 0 → a < 2 ^ 60 - 4 → s.ctl.noFirmware = false →
    94 ∈ s.power.domains →
    ((s.job.loaded = false ∨ s.mem.mappedRange a 4 = false) → ∀ w hbm, ∃ t, exec (.dpDataAccess w hbm) s = .next t ∧
      Counted { s with mgmt := { s.mgmt with errValid := true, err := 1 } } t) ∧
    (s.job.loaded = true → s.ctl.kstate ≠ 2 → reachable s a 4 = true →
      (∀ w, ∃ t, exec (.dpDataAccess w .uncorrectable) s = .next t ∧ t.mgmt = { s.mgmt with errValid := true, err := 4 } ∧
        t.mem.cells = s.mem.cells ∧ t.out = s.out)) ∧
    (Safe s → s.job.loaded = true → s.ctl.kstate ≠ 2 → reachable s a 4 = true →
      (∃ t, exec (.dpDataAccess none .clean) s = .next t ∧
        t.out = s.out ++ [.dpData (BitVec.ofNat 32 (leNat (s.mem.readN a 4)))] ∧ t.mem = s.mem ∧
        t.mgmt.dpAddr.toNat = 2 ^ 60 + a + (if s.mgmt.inc then 4 else 0)) ∧
      (∀ w, (∀ x, a ≤ x → x < a + 4 → claimAt s.mem.claims x = none) →
        ∃ t, exec (.dpDataAccess (some w) .clean) s = .next t ∧ t.mem.readN a 4 = toLe 4 w.toNat ∧
        (∀ x, x < a ∨ a + 4 ≤ x → t.mem.read x = s.mem.read x) ∧
        t.mgmt.dpAddr.toNat = 2 ^ 60 + a + (if s.mgmt.inc then 4 else 0)))) ∧
  (∀ (s : State) (a : Nat), s.mgmt.dpAddr.toNat = 2 ^ 61 + a → a % 4 = 0 → a < 14 * 0x20 →
    (∀ hbm, ∃ t, exec (.dpDataAccess none hbm) s = .next t ∧
      t.out = s.out ++ [.dpData (BitVec.ofNat 32 (field (identityAt s (a / 0x20)) (a % 0x20) 4))] ∧ t.mem = s.mem) ∧
    (∀ w hbm, ∃ t, exec (.dpDataAccess (some w) hbm) s = .next t ∧
      Counted { s with mgmt := { s.mgmt with errValid := true, err := 3 } } t)) ∧
  (∀ (s : State) (w : Option Word) (hbm : Sector), s.mgmt.dpAddr.toNat % 4 ≠ 0 →
    ∃ t, exec (.dpDataAccess w hbm) s = .next t ∧ Counted { s with mgmt := { s.mgmt with errValid := true, err := 3 } } t)

/-- Datagrams (R358, R360): a port that is not the active one, or has no link, answers nothing, a malformed datagram is dropped
and counted; MGMT_BURST_READ, MGMT_BURST_WRITE, MGMT_REGISTER_READ, MGMT_REGISTER_WRITE and MGMT_COMMAND are each served and
answered with op + 0x80, a result and data; a burst over a 4 KiB boundary is refused whole with result 2; op 5 takes groups 0x0E
and 0x0F alone: any other is BAD_OPCODE, reason 2, and has no effect. The management ports (R358, R359): the rate search goes
round while there is no link; the other port becomes active only while the active one has no link and the other one has; the
active port, with link, answers ARP, echo and neighbour frames, whose bytes are the standards' (log 99), and takes a DHCP
address. -/
def Obligations.ManagementPortsServeDatagrams : Prop :=
  (∀ (s : State) (p : Nat) (b : Bytes) (hbm : Sector) (host : HostRead), p < 2 → mgtAnswers s p = true → dgOk b = true →
    (field b 4 1 = 1 → ∃ t, exec (.mgmtBurstRead p b hbm) s = .next t ∧ Answered t p b (serveBurstRead s b hbm)) ∧
    (field b 4 1 = 2 → ∃ t, exec (.mgmtBurstWrite p b hbm) s = .next t ∧ Answered t p b (serveBurstWrite s b hbm)) ∧
    (field b 4 1 = 3 → ∃ t, exec (.mgmtRegisterRead p b hbm) s = .next t ∧ Answered t p b (serveRegisterRead s b hbm)) ∧
    (field b 4 1 = 4 → ∃ t, exec (.mgmtRegisterWrite p b hbm) s = .next t ∧ Answered t p b (serveRegisterWrite s b hbm)) ∧
    (field b 4 1 = 5 → ∃ t, exec (.mgmtCommand p b host) s = .next t ∧ Answered t p b (serveCommand s b host))) ∧
  (∀ (s : State) (p : Nat) (b : Bytes) (hbm : Sector) (host : HostRead) (i : Instr), p < 2 →
    (i = .mgmtBurstRead p b hbm ∨ i = .mgmtBurstWrite p b hbm ∨ i = .mgmtRegisterRead p b hbm ∨ i = .mgmtRegisterWrite p b hbm ∨
      i = .mgmtCommand p b host) →
    ((95 ∉ s.power.domains ∨ p ≠ s.mgmt.active ∨ mgtLink s p = false) → exec i s = .next s) ∧
    (mgtAnswers s p = true → dgOk b = false →
      exec i s = .next { s with mgmt := { s.mgmt with malformed := min (s.mgmt.malformed + 1) 0xFFFFFFFF } })) ∧
  (∀ (s : State) (b : Bytes) (hbm : Sector), 4096 < field b 0x10 8 % 4096 + field b 6 2 →
    serveBurstRead s b hbm = ({ s with mgmt := { s.mgmt with
      dpAddr := BitVec.ofNat 64 (field b 0x10 8), count := field b 6 2, errValid := true, err := 2 } }, 2, []) ∧
    serveBurstWrite s b hbm = ({ s with mgmt := { s.mgmt with
      dpAddr := BitVec.ofNat 64 (field b 0x10 8), count := field b 6 2, errValid := true, err := 2 } }, 2, [])) ∧
  (∀ (s s1 : State) (b : Bytes) (hbm : Sector) (w : Word), field b 0x10 8 % 4096 + 4 ≤ 4096 → field b 6 2 = 4 →
    dpRead { s with mgmt := { s.mgmt with dpAddr := BitVec.ofNat 64 (field b 0x10 8), count := 4 } } hbm = (s1, some w) →
    serveBurstRead s b hbm = (s1, 0, toLe 4 w.toNat)) ∧
  (∀ (s : State) (b : Bytes) (hbm : Sector), s.ctl.noFirmware = false →
    (field b 0x10 8 = 0 → field b 6 2 = 8 → serveRegisterRead s b hbm = (s, 0, toLe 8 s.mgmt.dpAddr.toNat)) ∧
    (field b 0x10 8 = 0xC → field b 6 2 = 4 → serveRegisterRead s b hbm = (s, 0, toLe 4 (dpCtrl s))) ∧
    (field b 0x10 8 = 0 → b.length = 0x20 → serveRegisterWrite s b hbm =
      ({ s with mgmt := { s.mgmt with dpAddr := BitVec.ofNat 64 (leNat (b.drop 0x18)) } }, 0, []))) ∧
  (∀ (s : State) (b : Bytes) (host : HostRead) (r : Served), r = serveCommand s b host → kRuns s = true → field b 0x1B 1 = 2 →
    field b 0x19 1 ≠ 0x0E → field b 0x19 1 ≠ 0x0F → b.length = 0x58 →
    r.1 = s ∧ r.2.1 = 0 ∧ field r.2.2 4 1 = 0x10 ∧ field r.2.2 5 3 = field b 0x18 2 + 0x20000) ∧
  (∀ (s : State) (p : Nat), p < 2 →
    (mgtLink s p = false → ∃ t, exec (.mgtRateSearch p) s = .next t ∧ mgtLink t p = false ∧ mgtRate t p = (mgtRate s p + 1) % 3 ∧
      mgtLink t (1 - p) = mgtLink s (1 - p) ∧ mgtRate t (1 - p) = mgtRate s (1 - p)) ∧
    (mgtLink s p = true → exec (.mgtRateSearch p) s = .next s) ∧
    (∃ t, exec (.mgtLinkUp p) s = .next t ∧ mgtLink t p = true ∧ mgtRate t p = mgtRate s p ∧
      mgtLink t (1 - p) = mgtLink s (1 - p) ∧ t.mgmt.active = s.mgmt.active) ∧
    (mgtLink s p = false → exec (.mgtLinkDown p) s = .next s) ∧
    (mgtLink s p = true → ∃ t, exec (.mgtLinkDown p) s = .next t ∧ mgtLink t p = false ∧ mgtRate t p = 0 ∧
      mgtLink t (1 - p) = mgtLink s (1 - p) ∧ t.mgmt.active = s.mgmt.active)) ∧
  (∀ (s : State), s.mgmt.active < 2 →
    (mgtLink s s.mgmt.active = false → mgtLink s (1 - s.mgmt.active) = true →
      exec .mgtFailover s = .next { s with mgmt := { s.mgmt with active := 1 - s.mgmt.active } }) ∧
    ((mgtLink s s.mgmt.active = true ∨ mgtLink s (1 - s.mgmt.active) = false) → exec .mgtFailover s = .next s)) ∧
  (∀ (s : State) (p : Nat) (b : Bytes) (a : Word), p < 2 → mgtAnswers s p = true →
    exec (.mgmtNetworkFrame p (.arp b)) s = .next { s with out := s.out ++ [.frame p (Config.netAnswer 0 b)] } ∧
    exec (.mgmtNetworkFrame p (.echo b)) s = .next { s with out := s.out ++ [.frame p (Config.netAnswer 1 b)] } ∧
    exec (.mgmtNetworkFrame p (.neighbour b)) s = .next { s with out := s.out ++ [.frame p (Config.netAnswer 2 b)] } ∧
    exec (.mgmtNetworkFrame p .other) s = .next s ∧
    exec (.mgmtNetworkFrame p (.dhcp a)) s = .next { s with mgmt := { s.mgmt with address := a } }) ∧
  (∀ (s : State) (p : Nat) (f : NetFrame), p < 2 → mgtAnswers s p = false → exec (.mgmtNetworkFrame p f) s = .next s)

/-- The sideband (R425): a transfer whose PEC fails, or that comes while the always-on domain is off, is discarded; reads return
their word or block, writes act as on the data port registers, and CLEAR_FAULTS clears STATUS_WORD and releases SMB_ALERT#.
LINEAR11's coding is a standard outside the manual (log 99). -/
def Obligations.SidebandAnswersItsCommands : Prop :=
  (∀ (s : State) (pec high : Bool) (w : Option Word) (hbm : Sector) (i : Instr), (pec = false ∨ 95 ∉ s.power.domains) →
    (i = .statusWord pec ∨ i = .clearFaults pec ∨ i = .readVin pec ∨ i = .readIin pec ∨ i = .readPin pec ∨
      i = .smbusDpAddr pec high w ∨ i = .smbusDpData pec w hbm ∨ i = .smbusDpCtrl pec w ∨ i = .smbusDiscstat pec w ∨
      i = .smbusDiscglitch pec high) → exec i s = .next s) ∧
  (∀ (s : State), 95 ∈ s.power.domains →
    exec (.statusWord true) s = .next { s with out := s.out ++ [.smbus (toLe 2
      ((if s.pins.swFault then 0x8000 else 0) + (if 94 ∈ s.power.domains then 0 else 0x40) + (if s.pins.swTrip then 4 else 0)))] } ∧
    (∃ t, exec (.clearFaults true) s = .next t ∧ t = { s with pins := t.pins } ∧
      (94 ∈ s.power.domains → statusWord t = 0) ∧ (s.pins.mrstLong = false → smbAlert t = false)) ∧
    exec (.readVin true) s = .next { s with
      out := s.out ++ [.smbus (toLe 2 (Config.linear11 (bits s.power.pvin.toNat 15 0) 100).toNat)] } ∧
    exec (.readIin true) s = .next { s with
      out := s.out ++ [.smbus (toLe 2 (Config.linear11 (bits s.power.pvin.toNat 31 16) 100).toNat)] } ∧
    exec (.readPin true) s = .next { s with out := s.out ++ [.smbus (toLe 2 (Config.linear11 s.power.pin 1).toNat)] } ∧
    exec (.smbusDpAddr true false none) s = .next { s with out := s.out ++ [.smbus (toLe 4 (s.mgmt.dpAddr.toNat % 2 ^ 32))] } ∧
    exec (.smbusDpAddr true true none) s = .next { s with out := s.out ++ [.smbus (toLe 4 (s.mgmt.dpAddr.toNat / 2 ^ 32))] } ∧
    exec (.smbusDpCtrl true none) s = .next { s with out := s.out ++ [.smbus (toLe 4 (dpCtrl s))] } ∧
    exec (.smbusDiscstat true none) s = .next { s with out := s.out ++ [.smbus (toLe 4 (discstat s))] } ∧
    exec (.smbusDiscglitch true false) s = .next { s with out := s.out ++ [.smbus (toLe 4 (discglitch s 0))] } ∧
    exec (.smbusDiscglitch true true) s = .next { s with out := s.out ++ [.smbus (toLe 4 (discglitch s 1))] }) ∧
  (∀ (s : State) (lo hi w : Word), 95 ∈ s.power.domains →
    (∃ t u, exec (.smbusDpAddr true false (some lo)) s = .next t ∧ t.mgmt = s.mgmt ∧
      exec (.smbusDpAddr true true (some hi)) t = .next u ∧
      u.mgmt = { s.mgmt with dpAddr := BitVec.ofNat 64 (hi.toNat * 2 ^ 32 + lo.toNat) }) ∧
    exec (.smbusDpCtrl true (some w)) s = .next { s with mgmt := { s.mgmt with
      errValid := s.mgmt.errValid && !bit w.toNat 30, inc := bit w.toNat 16
      count := if w.toNat % 4 = 0 ∧ 4 ≤ w.toNat % 8192 ∧ w.toNat % 8192 ≤ 4096 then w.toNat % 8192 else s.mgmt.count } } ∧
    (∃ t, exec (.smbusDiscstat true (some w)) s = .next t ∧ t = { s with pins := { s.pins with invalid := t.pins.invalid } } ∧
      ∀ n, n ∈ t.pins.invalid ↔ n ∈ s.pins.invalid ∧ bit w.toNat (8 + n) = false)) ∧
  (∀ (s s1 : State) (v : Word) (w : Option Word) (hbm : Sector), 95 ∈ s.power.domains →
    (dpRead s hbm = (s1, some v) →
      ∃ t, exec (.smbusDpData true none hbm) s = .next t ∧ Counted { s1 with out := s1.out ++ [.smbus (toLe 4 v.toNat)] } t) ∧
    (dpRead s hbm = (s1, none) → ∃ t, exec (.smbusDpData true none hbm) s = .next t ∧ Counted s1 t) ∧
    (w = some v → ∃ t, exec (.smbusDpData true w hbm) s = .next t ∧ Counted (dpWrite s v hbm).1 t))

/-! ## Pins, resets, start-up, clocks, power and heat -/

/-- Presence (R375): an accepted press opens a window of 60 s, a stuck button opens none; 10 s of press close it and stick the
button until its release; the jumper gives presence while fitted, and its removal leaves an open window. The inputs are sensed
while the always-on domain is on (R421). The seal (R377): open or invalid, it burns the fuse once, with one entry in the error
log; the capability record tells it. A break while the always-on domain has no power is not seen. Discrete inputs (R421): a
glitch counts, to 255; an invalid period sets its bit, and the input is taken for what the table says, and else keeps its level;
PERST# or MRST# held too long sets its bit. THERMTRIP_IN# released, its level ends. An index past 6 names no input. -/
def Obligations.InputsPresenceAndSeal : Prop :=
  (∀ s : State, presence s = true ↔
    0 < s.sec.windowUs ∨ (s.sec.jumper = true ∧ s.sec.jumperIgnore = false ∧ s.sec.jumperFused = false)) ∧
  (∀ s : State, 95 ∈ s.power.domains →
    (s.sec.stuck = false → ∃ t, exec .presencePress s = .next t ∧ presence t = true ∧
      t = { s with sec := { s.sec with windowUs := 60000000, pressed := true } }) ∧
    (s.sec.stuck = true → exec .presencePress s = .next s) ∧
    (∃ t, exec .jumperFitted s = .next t ∧ Counted { s with sec := { s.sec with jumper := true } } t)) ∧
  (∀ s : State, 95 ∉ s.power.domains → exec .presencePress s = .next s ∧ exec .jumperFitted s = .next s) ∧
  (∀ s : State,
    exec .presenceRelease s = .next { s with sec := { s.sec with pressed := false, stuck := false } } ∧
    exec .presenceWindowExpiry s = .next { s with sec := { s.sec with windowUs := 0 } } ∧
    (s.sec.pressed = true → exec .presenceStuck s = .next { s with sec := { s.sec with windowUs := 0, stuck := true } }) ∧
    (s.sec.pressed = false → exec .presenceStuck s = .next s) ∧
    (∃ t, exec .jumperRemoved s = .next t ∧ t.sec = { s.sec with jumper := false } ∧
      (presence t = true ↔ 0 < s.sec.windowUs) ∧
      Counted { s with sec := { s.sec with jumper := false }, pins := { s.pins with jumperLong := false } } t) ∧
    (s.sec.jumper = true → ∃ t, exec .jumperLong s = .next t ∧ presence t = presence s ∧
      t = { s with pins := { s.pins with jumperLong := true } }) ∧
    (s.sec.jumper = false → exec .jumperLong s = .next s)) ∧
  (∀ (s : State) (invalid : Bool),
    (95 ∈ s.power.domains → ∃ t, exec (.sealBroken invalid) s = .next t ∧
      t.sec = { s.sec with sealFuse := true } ∧ bit (field (capRecord t) 0x33 1) 0 = true ∧
      (invalid = true → 6 ∈ t.pins.invalid) ∧ 6 ∉ t.pins.level ∧
      (s.sec.sealFuse = true → t.rel = s.rel) ∧
      (s.sec.sealFuse = false → s.rel.log = [] → ∃ e, t.rel.log = [e] ∧ e.kind = 0x29 ∧ e.seq = s.rel.nextSeq) ∧
      t.mem = s.mem ∧ t.cmds = s.cmds ∧ t.queues = s.queues) ∧
    (95 ∉ s.power.domains → exec (.sealBroken invalid) s = .next s)) ∧
  (∀ (s : State) (i : Nat), i < 7 →
    ∃ t, exec (.inputGlitch i) s = .next t ∧ mget 0 t.pins.glitches i = min (mget 0 s.pins.glitches i + 1) 255 ∧
      (∀ j, j ≠ i → mget 0 t.pins.glitches j = mget 0 s.pins.glitches j) ∧
      t = { s with pins := { s.pins with glitches := t.pins.glitches } }) ∧
  (∀ (s : State) (i : Nat), (i = 1 ∨ i = 2 ∨ i = 4) →
    ∃ t, exec (.inputInvalid i) s = .next t ∧ i ∈ t.pins.invalid ∧ faultOut t = true ∧
      t = { s with pins := { s.pins with invalid := t.pins.invalid } }) ∧
  (∀ (s : State) (i : Nat), 7 ≤ i → exec (.inputGlitch i) s = .fault (.noSuchUnit "discrete input" i) ∧
    exec (.inputInvalid i) s = .fault (.noSuchUnit "discrete input" i)) ∧
  (∀ s : State,
    (∃ t, exec (.inputInvalid 0) s = .next t ∧ 0 ∈ t.pins.invalid ∧ t.ctl.powerGood = false) ∧
    (∃ t, exec (.inputInvalid 3) s = .next t ∧ 3 ∈ t.pins.invalid ∧ 3 ∈ t.pins.level) ∧
    (∃ t, exec (.inputInvalid 5) s = .next t ∧ 5 ∈ t.pins.invalid ∧ t.sec = { s.sec with jumper := false }) ∧
    (∃ t, exec (.inputInvalid 6) s = .next t ∧ 6 ∈ t.pins.invalid ∧ t.sec = { s.sec with sealFuse := true })) ∧
  (∀ s : State,
    (s.ctl.perst = false → exec .perstLong s = .next s) ∧ (s.ctl.mrst = false → exec .mrstLong s = .next s) ∧
    (s.ctl.perst = true → exec .perstLong s = .next { s with pins := { s.pins with perstLong := true } }) ∧
    (s.ctl.mrst = true → ∃ t, exec .mrstLong s = .next t ∧ faultOut t = true ∧ smbAlert t = true ∧
      t = { s with pins := { s.pins with mrstLong := true } }) ∧
    exec .thermtripInRelease s = .next { s with pins := { s.pins with level := s.pins.level.filter (fun n => n != 3) } })

/-- PERST# (R346, R347): it takes the link, bus mastering, configuration and MSI-X state and disables every queue; with no job
nothing else changes but replies to host memory, which are dropped; a loaded job ends as END_JOB with keep clear ends it, at
once or once nothing of it is left; at its release the link trains once the endpoint is on. -/
def Obligations.PerstResetsTheEndpoint : Prop :=
  (∀ s : State, s.ctl.perst = false → s.ctl.endpointOn = true →
    ∃ t, exec .perstAssert s = .next t ∧ t.ctl.perst = true ∧ t.ctl.linkUp = false ∧ t.ctl.busMaster = false ∧
      t.ctl.config = [] ∧ t.ctl.msixTable = [] ∧ (∀ q, (getQueue t q).enable = false) ∧
      (s.job.loaded = true → (t.job.loaded = false ∧ t.mem.spans0 = [] ∧ t.mem.spans1 = [] ∧ t.mem.spans2 = []) ∨ t.job.perstEnd = true) ∧
      (s.job.loaded = false → t.mem = s.mem ∧ t.cmds = s.cmds ∧ t.counters = s.counters ∧ t.sec = s.sec ∧ t.power = s.power ∧
        (∀ q, getQueue t q = { getQueue s q with enable := false, replies := (getQueue t q).replies }))) ∧
  (∀ s : State, s.ctl.perst = false → s.ctl.endpointOn = false →
    exec .perstAssert s = .next { s with ctl := { s.ctl with perst := true } }) ∧
  (∀ s : State, s.ctl.perst = true → exec .perstAssert s = .next s) ∧
  (∀ s : State, exec .perstDeassert s = .next { s with
    ctl := { s.ctl with perst := false, linkUp := s.ctl.linkUp || (s.ctl.endpointOn && !s.ctl.noMainClock) }
    pins := { s.pins with perstLong := false } })

/-- Losses of power and module reset (R365, R382, R422): only the always-on domain stays on, no job, no queue, no byte of memory
is left, start-up has to run again; fuses, floors and what is non-volatile stay. Under 30 V no domain is on. -/
def Obligations.ResetsLeaveTheAlwaysOnDomain : Prop :=
  (∀ (s : State) (volts straps : Nat) (i : Instr),
    (i = .mrstAssert ∨ i = .inputFault volts ∨ (i = .pwrgdDeassert ∧ s.ctl.powerGood = true) ∨ i = .powerOn straps) →
    ∃ t, exec i s = .next t ∧ t.power.domains = [95] ∧ t.job.loaded = false ∧ t.queues = [] ∧ t.cmds = [] ∧ t.counters = [] ∧
      t.mem.cells = [] ∧ t.mem.spans0 = [] ∧ t.ctl.kstate = 0 ∧ t.ctl.linkUp = false ∧ t.sec.debug = false ∧
      t.sec.revoked = s.sec.revoked ∧ t.sec.sealFuse = s.sec.sealFuse ∧ t.sec.floors = s.sec.floors ∧ t.sec.banks = s.sec.banks ∧
      notStarted t = true) ∧
  (∀ (s : State) (volts straps : Nat),
    (∃ t, exec .mrstAssert s = .next t ∧ t.ctl.mrst = true ∧ t.sec.windowUs = s.sec.windowUs) ∧
    (∃ t, exec (.inputFault volts) s = .next t ∧ t.power.inputFault = true ∧ t.pins.swFault = true ∧ smbAlert t = true) ∧
    (s.ctl.powerGood = true → ∃ t, exec .pwrgdDeassert s = .next t ∧ t.ctl.powerGood = false ∧ t.power.inputFault = true) ∧
    (s.ctl.powerGood = false → exec .pwrgdDeassert s = .next s) ∧
    (∃ t, exec (.powerOn straps) s = .next t ∧ t.pins.straps = straps ∧ t.rel = Reliab.reset ∧ t.sec.windowUs = 0 ∧
      t.time.aon = 0 ∧ t.sec.sigFail = 0) ∧
    (∃ t, exec .inputCollapse s = .next t ∧ t.power.domains = [] ∧ t.job.loaded = false ∧ t.mem.cells = []))

/-- Start-up (R363, R365, R366, R367, R372, R382, R393): a filtered PWRGD, the release of MRST# or the return of the input
starts it; it waits while PWRGD, MRST#, a held trip or heat forbid it; a step that fails leaves K without firmware or the module
in the safe state, with the step's stage code; a module on which nothing is wrong becomes ready. -/
def Obligations.StartUpBecomesReadyOrStops : Prop :=
  StartsUp .pwrgdAssert (fun s => { s with ctl := { s.ctl with powerGood := true } }) ∧
  StartsUp .mrstRelease (fun s => { s with ctl := { s.ctl with mrst := false }, pins := { s.pins with mrstLong := false } }) ∧
  StartsUp .inputRestored (fun s => s)

/-- Lost clocks (R255, R387): without 25 MHz only the always-on domain stays on and the module is safe with code 9; without
156.25 MHz every port is down; without 100 MHz the PCIe link is down; without K's main clock K is lost, the link is down and the
management controller reports it on its active port. -/
def Obligations.LostClocksStopWhatTheyFeed : Prop :=
  ∀ s : State,
    (∃ t, exec (.referenceLost 0) s = .next t ∧ t.power.ref25Lost = true ∧ t.ctl.kstate = 2 ∧ t.ctl.stage = 9 ∧
      t.ctl.linkUp = false ∧ t.ctl.noMainClock = true ∧ (∀ d ∈ t.power.domains, 95 ≤ d) ∧
      (s.job.loaded = true → t.job.failed = true)) ∧
    (∃ t, exec (.referenceLost 1) s = .next t ∧ t.power.ref156Lost = true ∧ (∀ p, p < 24 → (getPort t p).state = 0) ∧
      t.mem = s.mem) ∧
    (s.ctl.endpointOn = true → s.ctl.linkUp = true → s.job.loaded = false →
      ∃ t, exec (.referenceLost 2) s = .next t ∧ t.power.ref100Lost = true ∧ t.ctl.linkUp = false ∧ t.ctl.config = [] ∧
        (∀ q, (getQueue t q).enable = false) ∧ t.mem = s.mem) ∧
    (94 ∈ s.power.domains → ∃ t, exec .kClockLoss s = .next t ∧ t.ctl.noMainClock = true ∧ t.ctl.linkUp = false ∧
      dieState t 5 = 2 ∧ (mgtLink s s.mgmt.active = true → t.out = s.out ++ [.managementEvent s.mgmt.active 5]) ∧ t.mem = s.mem ∧ t.cmds = s.cmds ∧ t.queues = s.queues)

/-- Thermal trips (R393): a second reading of 110 °C, or the thermal-trip input, asserts the trip output and SMB_ALERT#,
switches the domains of clusters, X0, X1 and S off, puts the stacks to sleep, fails the job and enters the safe state with code
8; a sensor of K takes D94 with it. A first reading only marks its sensor, a cooler one unmarks it; a trip already taken changes
nothing more, and with K unpowered the output alone is asserted. -/
def Obligations.ThermalTripsAtTheSecondReading : Prop :=
  (∀ (s : State) (n : Nat) (r : Int) (onK : Bool), n < 152 →
    (r < 1760 ∨ n ∉ s.power.sensorTrips → exec (.thermalTrip n r onK) s = .next s) ∧
    (1760 ≤ r → n ∈ s.power.sensorTrips → 94 ∈ s.power.domains →
      (s.power.tripped = false ∨ s.ctl.kstate ≠ 2 ∨ s.ctl.stage ≠ 8 ∨ onK = true ∨ 148 ≤ n) →
      ∃ t, exec (.thermalTrip n r onK) s = .next t ∧
        t.power.thermOut = true ∧ t.power.tripped = true ∧ t.ctl.kstate = 2 ∧ t.ctl.stage = 8 ∧ t.ctl.waitCool = true ∧
        smbAlert t = true ∧ (∀ c, c < 68 → clusterOn t c = false) ∧ (∀ d, 76 ≤ d → d < 94 → d ∉ t.power.domains) ∧
        (s.job.loaded = true → t.job.failed = true) ∧ (∀ k, k < 8 → (t.mem.stack k).selfRefresh = true) ∧
        (onK = true ∨ 148 ≤ n → 94 ∉ t.power.domains ∧ t.ctl.linkUp = false) ∧
        (onK = false → n < 148 → 94 ∈ t.power.domains)) ∧
    (1760 ≤ r → n ∈ s.power.sensorTrips → 94 ∈ s.power.domains → s.power.tripped = true → s.ctl.kstate = 2 → s.ctl.stage = 8 →
      onK = false → n < 148 → exec (.thermalTrip n r onK) s = .next s) ∧
    (1760 ≤ r → n ∈ s.power.sensorTrips → 94 ∉ s.power.domains → s.power.thermOut = true → exec (.thermalTrip n r onK) s = .next s) ∧
    (1760 ≤ r → n ∈ s.power.sensorTrips → 94 ∉ s.power.domains → s.power.thermOut = false →
      ∃ t, exec (.thermalTrip n r onK) s = .next t ∧ t.power.thermOut = true ∧ t.power.tripped = true ∧ t.ctl.waitCool = true ∧
        t.ctl.kstate = s.ctl.kstate ∧ t.power.domains = s.power.domains ∧ t.job = s.job ∧ t.mem = s.mem ∧ t.cmds = s.cmds)) ∧
  (∀ (s : State) (n : Nat) (r : Int), n < 152 →
    (r < 1760 → ∃ t, exec (.junctionSensorRead n r) s = .next t ∧ n ∉ t.power.sensorTrips ∧ t.ctl.kstate = s.ctl.kstate ∧
      t.power.domains = s.power.domains ∧ (136 ≤ n → (n ∈ t.power.alarms ↔ 1600 ≤ r))) ∧
    (1760 ≤ r → n ∉ s.power.sensorTrips → ∃ t, exec (.junctionSensorRead n r) s = .next t ∧ n ∈ t.power.sensorTrips ∧
      t.ctl.kstate = s.ctl.kstate ∧ t.power.domains = s.power.domains ∧ (136 ≤ n → n ∈ t.power.alarms)) ∧
    (1760 ≤ r → n ∈ s.power.sensorTrips → 94 ∈ s.power.domains → s.power.tripped = false →
      ∃ t, exec (.junctionSensorRead n r) s = .next t ∧ t.power.thermOut = true ∧ t.power.tripped = true ∧ t.ctl.kstate = 2 ∧
        t.ctl.stage = 8 ∧ (94 ∈ t.power.domains ↔ n < 148))) ∧
  (∀ (s : State), 3 ∉ s.pins.level → 94 ∈ s.power.domains → s.power.tripped = false →
    ∃ t, exec .thermtripInAssert s = .next t ∧ 3 ∈ t.pins.level ∧ t.power.thermOut = true ∧ t.power.tripped = true ∧
      t.ctl.kstate = 2 ∧ t.ctl.stage = 8 ∧ (∀ c, c < 68 → clusterOn t c = false)) ∧
  (∀ (s : State), 3 ∉ s.pins.level → 94 ∉ s.power.domains →
    ∃ t, exec .thermtripInAssert s = .next t ∧ 3 ∈ t.pins.level ∧ t.power.thermOut = true ∧ t.ctl.kstate = s.ctl.kstate) ∧
  (∀ (s : State), 3 ∈ s.pins.level → exec .thermtripInAssert s = .next s)

/-- A cluster's sensor (R392): its reading is kept; from 100 °C the cluster throttles until 97 °C, each entry counting in
PTHROT; the thermal limit falls by 25 MHz at 100 °C, down to 600 MHz, and rises by 25 MHz below 97 °C, up to 1,200 MHz. -/
def Obligations.ClustersThrottleWithHysteresis : Prop :=
  (∀ (s : State) (n : Nat) (r : Int) (v : Cluster), n < 136 → r < 1600 → n % 2 = 0 → v = getCluster s (n / 2) → v.temp1 < 1600 →
    ∃ t, exec (.junctionSensorRead n r) s = .next t ∧ (getCluster t (n / 2)).temp0 = r ∧
      (getCluster t (n / 2)).throttling = (v.throttling && decide (1552 ≤ max r v.temp1)) ∧ t.power.pthrot = s.power.pthrot) ∧
  (∀ (s : State) (n : Nat) (r : Int) (v : Cluster), n < 136 → 1600 ≤ r → r < 1648 → n % 2 = 1 → v = getCluster s (n / 2) →
    v.throttling = false → ∃ t, exec (.junctionSensorRead n r) s = .next t ∧ (getCluster t (n / 2)).temp1 = r ∧
      (getCluster t (n / 2)).throttling = true ∧ t.power.pthrot = min (s.power.pthrot + 1) 0xFFFFFFFF ∧
      t.power.throttleSeen = true) ∧
  (∀ (s : State) (c : Nat) (v : Cluster), c < 68 → v = getCluster s c →
    (1600 ≤ max v.temp0 v.temp1 → exec (.thermalLimitStep c) s = .next (setCluster s c { v with thermal := max 600 (v.thermal - 25) })) ∧
    (max v.temp0 v.temp1 < 1552 → exec (.thermalLimitStep c) s = .next (setCluster s c { v with thermal := min 1200 (v.thermal + 25) })) ∧
    (1552 ≤ max v.temp0 v.temp1 → max v.temp0 v.temp1 < 1600 →
      exec (.thermalLimitStep c) s = .next (setCluster s c { v with thermal := v.thermal })))

/-- Coolant (R394): an inlet above 40 °C sets inlet_hot, a rise above 30 °C flow_low, both read in PWSTAT; besides the two
measured temperatures in PCOOL nothing else changes. -/
def Obligations.CoolantFlagsAreReported : Prop :=
  ∀ (s : State) (inlet outlet : Int),
    (∃ t w, exec (.inletHot inlet) s = .next t ∧
      t = { s with power := { s.power with pcool := w, inletHot := s.power.inletHot || decide (40 * 16 < inlet) } } ∧
      bit (pwstat t) 2 = (s.power.inletHot || decide (40 * 16 < inlet))) ∧
    (∃ t w, exec (.flowLow inlet outlet) s = .next t ∧
      t = { s with power := { s.power with pcool := w, flowLow := s.power.flowLow || decide (30 * 16 < outlet - inlet) } } ∧
      bit (pwstat t) 3 = (s.power.flowLow || decide (30 * 16 < outlet - inlet)))

/-- Voltage and droop (R388, R390, R391): the rail moves by 5 mV between 650 mV with the ageing offset and 900 mV; at 900 mV
fcap falls by 25 MHz and the cluster counts as capped, and at 600 MHz, as after 1,024 droops without margin, the cluster is an
error that containment takes; a margin under a quarter doubles the period and counts in PDROOP; the doubled period ends unless
the margin is still short; a cluster that is off is not watched. -/
def Obligations.RailsAndDroopsFollowTheMonitors : Prop :=
  (∀ (s : State) (c : Nat) (v : Cluster), c < 68 → clusterOn s c = true → v = getCluster s c →
    (∃ t, exec (.cpmCheck c .ample) s = .next t ∧
      Counted (setCluster s c { v with railMv := max (650 + v.railOffset) (v.railMv - 5), droops := 0 }) t) ∧
    (∃ t, exec (.cpmCheck c .held) s = .next t ∧ Counted (setCluster s c { v with droops := 0 }) t) ∧
    (v.railMv < 900 → ∃ t, exec (.cpmCheck c .lacking) s = .next t ∧
      Counted (setCluster s c { v with railMv := min 900 (v.railMv + 5), droops := 0 }) t) ∧
    (900 ≤ v.railMv → 600 < v.fcap → ∃ t, exec (.cpmCheck c .lacking) s = .next t ∧
      (getCluster t c) = { v with fcap := v.fcap - 25, capped := true }) ∧
    (900 ≤ v.railMv → v.fcap ≤ 600 → ∃ t, exec (.cpmCheck c .lacking) s = .next t ∧
      Counted (containError s (.cluster (c / 34) (c % 34) 3)) t) ∧
    (v.droops ≠ 1023 → ∃ t, exec (.cpmCheck c .belowQuarter) s = .next t ∧
      (getCluster t c) = { v with doubled := true, droops := v.droops + 1 } ∧
      t.power.pdroop = min (s.power.pdroop + 1) 0xFFFFFFFF) ∧
    (v.droops = 1023 → ∃ t, exec (.cpmCheck c .belowQuarter) s = .next t ∧
      Counted (containError { setCluster s c { v with doubled := true, droops := 1024 } with power :=
        { (setCluster s c { v with doubled := true, droops := 1024 }).power with pdroop := satAdd 32 s.power.pdroop 1 } }
        (.cluster (c / 34) (c % 34) 3)) t)) ∧
  (∀ (s : State) (c : Nat) (v : Cluster), c < 68 → v = getCluster s c →
    (v.doubled = true → exec (.droopHoldExpiry c false) s = .next (setCluster s c { v with doubled := false })) ∧
    (v.doubled = true → v.droops ≠ 1023 → ∃ t, exec (.droopHoldExpiry c true) s = .next t ∧
      (getCluster t c) = { v with doubled := true, droops := v.droops + 1 } ∧
      t.power.pdroop = min (s.power.pdroop + 1) 0xFFFFFFFF) ∧
    (v.doubled = false → ∀ b, exec (.droopHoldExpiry c b) s = .next s)) ∧
  (∀ (s : State) (c : Nat) (m : Margin), c < 68 → clusterOn s c = false → exec (.cpmCheck c m) s = .next s)

/-- Frequencies (R388, R389): a cluster that is on moves by one step of at most 25 MHz toward the lowest of its target, its
ageing cap, its thermal limit, Weir's allowance and 600 MHz under a duty cycle, and never past it; one that comes from off steps
from 600 MHz, one that is off stays as it is, and before a frequency rises the rail is at the voltage that the new one needs,
900 mV at most. Weir (R396, R397, R400): a sample brings written controls in force and moves the allowance by at most the two
slew limits, not over the cap unless coming down from above it; the 1 ms means give the 256 ms mean and the floor. Duty cycle,
ramps, placement (R385, R395, R399): under a cap below PMIN a cool cluster at 600 MHz runs the cap's share of 32; a domain whose
ramp ends is on; with placement off, or on a die that is not in use, nothing moves, and a logical Mere that runs, waits or takes
part in a REDUCE_SCATTER stays where it is. -/
def Obligations.PowerLoopsStepTowardTheirLimits : Prop :=
  (∀ (s : State) (c low : Nat) (v : Cluster), c < 68 → v = getCluster s c →
    low = min (freqTarget s) (min v.fcap (min v.thermal (min v.weir (if capDuty s < 32 then 600 else 1200)))) →
    (clusterOn s c = false → exec (.frequencyStep c) s = .next s) ∧
    (clusterOn s c = true → ∃ t n, exec (.frequencyStep c) s = .next t ∧
      t = setCluster s c { v with freq := (getCluster t c).freq, railMv := (getCluster t c).railMv, limit := n } ∧ n ≤ 6 ∧
      (v.railMv ≤ 900 → (v.freq < (getCluster t c).freq →
          min 900 (Config.railNeed c (getCluster t c).freq) ≤ (getCluster t c).railMv ∧ v.railMv ≤ (getCluster t c).railMv ∧
          (getCluster t c).railMv ≤ 900) ∧
        ((getCluster t c).freq ≤ v.freq → (getCluster t c).railMv = v.railMv)) ∧
      (max v.freq 600 < low → (getCluster t c).freq = min low (max v.freq 600 + 25)) ∧
      (low ≤ max v.freq 600 → (getCluster t c).freq = max low (max v.freq 600 - 25)))) ∧
  (∀ (s : State) (demand power volts amps filler up dn : Nat) (short : Bool) (w : Word),
    w = s.power.pendWctrl.getD s.power.wctrl → up = w.toNat / 2 ^ 10 % 2048 → dn = w.toNat / 2 ^ 21 →
    ∃ t, exec (.weirSample demand power volts amps filler short) s = .next t ∧ t.power.wctrl = w ∧ t.power.pendWctrl = none ∧
      t.power.allowance ≤ s.power.allowance + up ∧ s.power.allowance ≤ t.power.allowance + dn ∧
      (s.power.allowance ≤ 100 * capEff s → t.power.allowance ≤ 100 * capEff s) ∧
      (100 * demand ≤ t.power.allowance → ∀ e ∈ t.power.clusters, e.2.weir = 1200) ∧
      t.power.floorShort = (s.power.floorShort || short) ∧ t.mem = s.mem ∧ t.cmds = s.cmds) ∧
  (∀ (s : State) (m : Nat), s.power.means.length ≤ 255 →
    ∃ t, exec (.weirMeanUpdate m) s = .next t ∧ t.power.means = s.power.means ++ [m] ∧ t.power.pin = m ∧
      t.power.pmean = (s.power.means.sum + m) / (s.power.means.length + 1) ∧ t.power.pfloor ≤ 100 * capEff s ∧
      t = { s with power := { s.power with
        means := t.power.means, pin := t.power.pin, pmean := t.power.pmean, pfloor := t.power.pfloor } }) ∧
  (∀ (s : State), ∃ t, exec .dutyCyclePeriod s = .next t ∧ t = { s with power := { s.power with clusters := t.power.clusters } } ∧
    (∀ c v, (c, v) ∈ s.power.clusters → v.temp < 1648 →
      (c, { v with duty := if v.freq = 600 then capDuty s else 32 }) ∈ t.power.clusters) ∧
    (s.power.pmin ≤ capEff s → capDuty s = 32)) ∧
  (∀ (s : State) (d : Nat), d < 96 →
    (d ∈ s.power.ramping → ∃ t, exec (.domainRampDone d) s = .next t ∧ d ∈ t.power.domains ∧ d ∉ t.power.ramping ∧
      (∀ x, x ≠ d → (x ∈ t.power.domains ↔ x ∈ s.power.domains)) ∧
      t = { s with power := { s.power with domains := t.power.domains, ramping := t.power.ramping } }) ∧
    (d ∉ s.power.ramping → exec (.domainRampDone d) s = .next s)) ∧
  (∀ (s : State) (d : Nat) (temps : List Int), d < 2 →
    (bit s.power.pctrl.toNat 12 = false → exec (.placementRemap d temps) s = .next s) ∧
    (dieState s d ≠ 1 → exec (.placementRemap d temps) s = .next s) ∧
    (∃ t, exec (.placementRemap d temps) s = .next t ∧
      t = { s with compute := { s.compute with place := t.compute.place } } ∧
      (∀ l, (getMere s (physOf s l)).running ≠ none ∨ (getMere s (physOf s l)).waiting ≠ [] ∨ reduceMere s l = true →
        physOf t l = physOf s l)))

/-! ## Meres, memory, the package and reliability -/

/-- Loads and seats (R84, R85, R190, R193-R195): the next load of a region lands in plane form in buffer n mod 2, within its
rows, and its tensor scale in the operand's register, while the buffer may be taken; a waiting command loads only its first
slice. A free Mere starts its pinned command alone, else the one whose first slice completed first while it stood idle, else the
oldest landed command that is no gang, and those passed over count a skip; a gang starts on all its Meres in one act. Combines,
halos, drains (R106, R183, R191): the next member's totals, complete and in the running seats of both, are added to this
member's own as left operand and leave the sender's half; halo rows come from the matching member of the group before, on the
same die, once it holds them; a finished block goes to a free staging block, and a written one leaves its own free. What is not
in order changes nothing, and no byte of memory changes. -/
def Obligations.MeresRunLandedCommandsInOrder : Prop :=
  (∀ (s : State) (cid p region n : Nat) (c : Cmd) (k : List Step) (g : Region) (e : Nat × Fill), p < 272 → findCmd s cid = some c →
    c.inFlight = true → k = courseAt (ownView s c.cid) c p → n = (getMere s p).landed c.cid region →
    (loadsOf k region)[n]? = some e → g = operandRegion c region →
    ((getMere s p).seats c.cid = true → mayLoad (getMere s p) c.cid k region n = true →
      ∃ t, exec (.sliceLoadDone cid p region n) s = .next t ∧ t = setMere s p (getMere t p) ∧
        (getMere t p).landed c.cid region = n + 1 ∧ (getMere t p).running = (getMere s p).running ∧
        (getMere t p).tarnA = (getMere s p).tarnA ∧ (getMere t p).tarnB = (getMere s p).tarnB ∧
        (∀ x, sourceOf (ownView s c.cid) c e.2.operand e.2.segs = some x →
          (getMere t p).pad = fillPad x g (n % 2) e.2 (fun h => !h) (getMere s p).pad ∧
          mget (.fin false 1 0) (getMere t p).scales e.2.operand = x.tensor) ∧
        (∀ a, (∀ r, r < g.rows → ¬(g.rowAt (n % 2) r ≤ a ∧ a < g.rowAt (n % 2) r + 64 * g.pitch) ∧
            ¬(g.scaleRowAt (n % 2) r ≤ a ∧ a < g.scaleRowAt (n % 2) r + 64 * g.scalePitch)) →
          mget 0 (getMere t p).pad a = mget 0 (getMere s p).pad a)) ∧
    ((getMere s p).seats c.cid = false ∨ mayLoad (getMere s p) c.cid k region n = false →
      exec (.sliceLoadDone cid p region n) s = .next s) ∧
    (∀ x, x ≠ n → exec (.sliceLoadDone cid p region x) s = .next s) ∧
    ((getMere s p).running ≠ some c.cid → 0 < n → exec (.sliceLoadDone cid p region n) s = .next s)) ∧
  (∀ (s : State) (p : Nat) (pre post : List Seat) (w : Seat) (m : Mere), p < 272 → m = getMere s p → m.running = none →
    m.waiting = pre ++ w :: post → (∀ x ∈ pre, x.skip < 4 ∧ x.cid ≠ w.cid) →
    ((4 ≤ w.skip ∧ w.landed = true ∧ seatGang s w = false) ∨
     ((∀ x ∈ w :: post, x.skip < 4) ∧ m.first = some w.cid) ∨
     ((∀ x ∈ w :: post, x.skip < 4) ∧ m.first = none ∧ (∀ x ∈ pre, x.landed = false ∨ seatGang s x = true) ∧ w.landed = true ∧
       seatGang s w = false)) →
    ∃ t, exec (.mereStart p) s = .next t ∧ (getMere t p).running = some w.cid ∧
      (getMere t p).waiting = pre.map (fun x => { x with skip := x.skip + 1 }) ++ post ∧ (getMere t p).filler = false ∧
      (getStream t (mereDie p)).sskip = min ((getStream s (mereDie p)).sskip + pre.length) 0xFFFFFFFF ∧
      (getStream t (mereDie p)).slate = min ((getStream s (mereDie p)).slate + (if m.late then 1 else 0)) 0xFFFFFFFF ∧
      (∀ x, x ≠ p → getMere t x = getMere s x) ∧ t.mem = s.mem ∧ t.cmds = s.cmds) ∧
  (∀ (s : State) (p : Nat), p < 272 →
    ((getMere s p).running ≠ none → exec (.mereStart p) s = .next s) ∧
    ((∀ x ∈ (getMere s p).waiting, x.landed = false) → (getMere s p).first = none → exec (.mereStart p) s = .next s) ∧
    (∀ pre w post, (getMere s p).waiting = pre ++ w :: post → (∀ x ∈ pre, x.skip < 4) → 4 ≤ w.skip →
      w.landed = false ∨ seatGang s w = true → exec (.mereStart p) s = .next s)) ∧
  (∀ (s : State) (cid : Nat) (c : Cmd), findCmd s cid = some c → isGang c = true → c.inFlight = true →
    ((∀ p ∈ mereSet s c, gangReady s cid p = true) → ∃ t, exec (.gangStart cid) s = .next t ∧
      (∀ p ∈ mereSet s c, (getMere t p).running = some cid) ∧ (∀ p, p ∉ mereSet s c → getMere t p = getMere s p) ∧ t.cmds = s.cmds) ∧
    ((∃ p ∈ mereSet s c, gangReady s cid p = false) → exec (.gangStart cid) s = .next s)) ∧
  (∀ (s : State) (cid p sender tile fixed i j : Nat) (array : Bool) (c : Cmd) (w : ArrayWork) (m f : Mere) (v : State), p < 272 →
    sender < 272 → findCmd s cid = some c → c.inFlight = true → m = getMere s p → f = getMere s sender → v = ownView s c.cid →
    indexOf s c p = some i → indexOf s c sender = some j → arrayWork v c array tile = some w →
    (m.running = some c.cid → f.running = some c.cid → isSplit c array = true → (groupMember c i).1 = (groupMember c j).1 →
      (senders (groupMember c i).2 (geoOf c).parts)[m.received array tile]? = some (groupMember c j).2 →
      tileDone m (courseAt v c p) array tile = true → tileDone f (courseAt v c sender) array tile = true →
      combinedAll c f array tile (groupMember c j).2 = true →
      ∃ t, exec (.combineReceive cid p sender ⟨array, tile⟩ fixed) s = .next t ∧
        (getMere t p).combined = m.combined ++ [(array, tile, (groupMember c j).2)] ∧
        (∀ b ∈ w.held, (tile, b) ∈ (getMere t sender).drained array) ∧
        (64 ∣ w.rows → 64 ∣ w.cols → ∀ e x, e < w.rows * w.cols → (w.at_ e).isSome = true →
          x = tarnIndex w (placeOf (courseAt v c p) array w tile) e →
          mget 0 (if array then (getMere t p).tarnB else (getMere t p).tarnA) x =
            fadd (mget 0 (if array then m.tarnB else m.tarnA) x)
              (mget 0 (if array then f.tarnB else f.tarnA) (tarnIndex w (placeOf (courseAt v c sender) array w tile) e))) ∧
        (if array then (getMere t p).tarnA = m.tarnA else (getMere t p).tarnB = m.tarnB) ∧
        t.rel.rsramcor = min (s.rel.rsramcor + fixed) 0xFFFFFFFF ∧
        (∀ y, y ≠ p → y ≠ sender → getMere t y = getMere s y) ∧ t.mem = s.mem ∧ t.cmds = s.cmds) ∧
    (m.running ≠ some c.cid ∨ f.running ≠ some c.cid ∨ tileDone m (courseAt v c p) array tile = false ∨
      tileDone f (courseAt v c sender) array tile = false ∨
      (senders (groupMember c i).2 (geoOf c).parts)[m.received array tile]? ≠ some (groupMember c j).2 →
      exec (.combineReceive cid p sender ⟨array, tile⟩ fixed) s = .next s)) ∧
  (∀ (s : State) (cid p sender fixed i j : Nat) (c : Cmd) (h : Nat × Fill) (m f : Mere) (v : State), p < 272 → sender < 272 →
    findCmd s cid = some c → c.inFlight = true → (c.opcode = 0x0103 ∨ c.opcode = 0x0104) → m = getMere s p → f = getMere s sender →
    v = ownView s c.cid → nextHalo m c.cid (courseAt v c p) = some h → indexOf s c p = some i → indexOf s c sender = some j →
    (m.seats c.cid = true → f.seats c.cid = true → mayLoad m c.cid (courseAt v c p) 0 h.1 = true → mereDie p = mereDie sender →
      (groupMember c i).2 = (groupMember c j).2 →
      holdsRows f c.cid (courseAt v c sender) h.2 (if p = sender then h.1 else f.landed c.cid 0) = true →
      ∃ t, exec (.haloReceive cid p sender fixed) s = .next t ∧ (getMere t p).halos = m.halos ++ [(c.cid, h.1)] ∧
        (getMere t p).running = m.running ∧ (getMere t p).landedSlices = m.landedSlices ∧
        (getMere t p).tarnA = m.tarnA ∧ (getMere t p).tarnB = m.tarnB ∧
        (∀ x, sourceOf v c h.2.operand h.2.segs = some x →
          (getMere t p).pad = fillPad x (operandRegion c 0) (h.1 % 2) h.2 id m.pad) ∧
        t.rel.rsramcor = min (s.rel.rsramcor + fixed) 0xFFFFFFFF ∧
        (∀ y, y ≠ p → getMere t y = getMere s y) ∧ t.mem = s.mem ∧ t.cmds = s.cmds) ∧
    (mereDie p ≠ mereDie sender ∨ (groupMember c i).2 ≠ (groupMember c j).2 ∨
      holdsRows f c.cid (courseAt v c sender) h.2 (if p = sender then h.1 else f.landed c.cid 0) = false →
      exec (.haloReceive cid p sender fixed) s = .next s)) ∧
  (∀ (s : State) (cid p tile block fixed i : Nat) (array : Bool) (c : Cmd) (w : ArrayWork) (m : Mere) (v : State), p < 272 →
    findCmd s cid = some c → c.inFlight = true → c.onVectors = false → m = getMere s p → v = ownView s c.cid →
    indexOf s c p = some i → arrayWork v c array tile = some w →
    (m.running = some c.cid → tileDone m (courseAt v c p) array tile = true →
      (isSplit c array = true → (groupMember c i).2 = 0 ∧ combinedAll c m array tile 0 = true) → block ∈ w.held →
      (tile, block) ∉ m.drained array → (m.staged array).length < 2 →
      ∃ t, exec (.drainOutputBlock cid p ⟨array, tile⟩ block fixed) s = .next t ∧
        (getMere t p).staged array = m.staged array ++ [(stageBlock s c array w tile block).1] ∧
        (getMere t p).drained array = m.drained array ++ [(tile, block)] ∧
        (getMere t p).staged (!array) = m.staged (!array) ∧ (getMere t p).tarnA = m.tarnA ∧ (getMere t p).tarnB = m.tarnB ∧
        t.rel.rsramcor = min (s.rel.rsramcor + fixed) 0xFFFFFFFF ∧ (∀ y, y ≠ p → getMere t y = getMere s y) ∧
        t.mem = s.mem ∧ t.cmds = s.cmds) ∧
    (m.running ≠ some c.cid ∨ tileDone m (courseAt v c p) array tile = false ∨ block ∉ w.held ∨ (tile, block) ∈ m.drained array ∨
      2 ≤ (m.staged array).length → exec (.drainOutputBlock cid p ⟨array, tile⟩ block fixed) s = .next s)) ∧
  (∀ (s : State) (p : Nat), p < 272 →
    exec (.stagedBlockWriteback p false) s = .next (setMere s p { getMere s p with stagedA := (getMere s p).stagedA.drop 1 }) ∧
    exec (.stagedBlockWriteback p true) s = .next (setMere s p { getMere s p with stagedB := (getMere s p).stagedB.drop 1 }))

/-- Arrays (R92, R105, R118, R190, R192, R196): the next part of an array's course, in the running seat, its loads landed and
its place free, promotes its chunks from the scratchpad into its own half of the Tarn, or stages the output of its run; any
other part, and one not ready, changes nothing. The corrections of its reads are counted, and no byte of memory changes. -/
def Obligations.ArraysTakeTheirPartsInOrder : Prop :=
  ∀ (s : State) (cid p tile slice fixed n : Nat) (array : Bool) (c : Cmd) (k : List Step) (m : Mere), p < 272 → findCmd s cid = some c →
    c.inFlight = true → 0x0101 ≤ c.opcode → c.opcode ≤ 0x0107 → m = getMere s p → k = courseAt (ownView s c.cid) c p →
    n = nextPart k array (m.steps array) →
    ((k[n]?).bind (fun x => x.part array) = none → exec (.arraySliceDone cid p ⟨array, tile⟩ slice fixed) s = .next s) ∧
    (m.running ≠ some c.cid → exec (.arraySliceDone cid p ⟨array, tile⟩ slice fixed) s = .next s) ∧
    (∀ x, (k[n]?).bind (fun x => x.part array) = some x →
      (x.tile ≠ tile ∨ x.slice ≠ slice ∨ partReady (ownView s c.cid) c m k array n x = false ∨
        (c.onVectors = true ∧ 2 ≤ m.stagedA.length) → exec (.arraySliceDone cid p ⟨array, tile⟩ slice fixed) s = .next s) ∧
      (m.running = some c.cid → x.tile = tile → x.slice = slice → partReady (ownView s c.cid) c m k array n x = true →
        (c.onVectors = true → m.stagedA.length < 2) →
        ∃ t, exec (.arraySliceDone cid p ⟨array, tile⟩ slice fixed) s = .next t ∧ (getMere t p).steps array = n + 1 ∧
          (getMere t p).steps (!array) = m.steps (!array) ∧
          (if array then (getMere t p).tarnA = m.tarnA else (getMere t p).tarnB = m.tarnB) ∧
          (∀ w, c.onVectors = false → arrayWork (ownView s c.cid) c array tile = some w →
            (if array then (getMere t p).tarnB else (getMere t p).tarnA) =
              promotePart (ownView s c.cid) c w (padOperands (ownView s c.cid) c m.pad k array n) (m.tau w.tau) x
                (placeOf k array w tile) (if array then m.tarnB else m.tarnA)) ∧
          (c.onVectors = true → runRanges s c x ≠ [] → (getMere t p).stagedA.length = m.stagedA.length + 1) ∧
          t.rel.rsramcor = min (s.rel.rsramcor + fixed) 0xFFFFFFFF ∧ (∀ y, y ≠ p → getMere t y = getMere s y) ∧
          t.mem = s.mem ∧ t.cmds = s.cmds ∧ t.queues = s.queues))

/-- Slots of a stack (R197-R199, R237, R402): every grant advances the slot number modulo 4,096; background goes first, 16 times
a window; a lone burst is served a sector and counts in its class; of reads the earliest deadline goes first, ties to the lower
rank; at the top temperature half the slots are given; the first slot of a window restarts the counts and brings the written
shares in force. Bursts (R200, R201): a request of the same engine, stream and direction that runs on from a waiting burst joins
it within 32 cycles, 4 KiB and 2 KiB in all; a read of another engine of the die that asks for what a waiting read fetches is
served by it within 32 cycles of its arrival; each counts in SMERGE; another request waits as a burst of its own, an engine's
plain read with a deadline of 65,536 cycles. -/
def Obligations.StackSlotsAreGrantedByClass : Prop :=
  (∀ (s : State) (n gap : Nat) (est : List (Nat × Nat)) (k : Stack), n < 8 → k = s.mem.stack n → k.slotNo ≠ 0 →
    (k.usedBack < 16 → ∃ t, exec (.hbmSlotGrant n gap true [] est) s = .next t ∧
      t.mem.stack n = { k with clock := k.clock + gap, slotNo := (k.slotNo + 1) % 4096, usedBack := k.usedBack + 1 } ∧
      (∀ x, x ≠ n → t.mem.stack x = s.mem.stack x) ∧ t.cmds = s.cmds ∧ t.compute = s.compute) ∧
    (k.level < 3 → k.queue = [] → ∃ t, exec (.hbmSlotGrant n gap false [] est) s = .next t ∧
      t.mem.stack n = { k with clock := k.clock + gap, slotNo := (k.slotNo + 1) % 4096 }) ∧
    (∀ b, k.level < 3 → k.queue = [b] → b.cls < 3 → ∃ t, exec (.hbmSlotGrant n gap false [] est) s = .next t ∧
      t.mem.stack n = { k with
        clock := k.clock + gap, slotNo := (k.slotNo + 1) % 4096
        queue := if b.count ≤ 1 then [] else [{ b with first := b.first + 1, count := b.count - 1, served := b.served + 1 }]
        usedRead := k.usedRead + (if b.cls = 0 then 1 else 0), usedWrite := k.usedWrite + (if b.cls = 1 then 1 else 0)
        usedRemote := k.usedRemote + (if b.cls = 2 then 1 else 0) }) ∧
    (∀ b, k.level < 3 → b ∈ k.queue → (∀ x ∈ k.queue, x.cls = 0) →
      (∀ x ∈ k.queue, x ≠ b → b.deadline < x.deadline ∨ (b.deadline = x.deadline ∧ b.engine < x.engine)) →
      ∃ t, exec (.hbmSlotGrant n gap false [] est) s = .next t ∧ (t.mem.stack n).queue = serve b k.queue ∧
        (t.mem.stack n).usedRead = k.usedRead + 1) ∧
    (k.level = 3 → 2048 ≤ k.usedBack + k.usedRead + k.usedWrite + k.usedRemote →
      ∃ t, exec (.hbmSlotGrant n gap false [] est) s = .next t ∧
        t.mem.stack n = { k with clock := k.clock + gap, slotNo := (k.slotNo + 1) % 4096 })) ∧
  (∀ (s : State) (n gap : Nat) (b : Bool) (l : List HbmRequest) (est : List (Nat × Nat)), n < 8 → (s.mem.stack n).slotNo = 0 →
    ∃ t, exec (.hbmSlotGrant n gap b l est) s = .next t ∧ (t.mem.stack n).slotNo = 1 ∧
      (t.mem.stack n).usedBack + (t.mem.stack n).usedRead + (t.mem.stack n).usedWrite + (t.mem.stack n).usedRemote ≤ 1 ∧
      (t.mem.stack n).shares = (getStream s (n / 4)).sshare ∧ t.cmds = s.cmds ∧ t.queues = s.queues) ∧
  (∀ (s : State) (n gap : Nat) (est : List (Nat × Nat)) (k : Stack) (b : Burst) (r : HbmRequest), n < 8 → k = s.mem.stack n → k.slotNo ≠ 0 → k.usedBack < 16 →
    k.queue = [b] → 0 < r.count → r.die = b.die → k.clock + gap ≤ b.queued + 32 →
    (reqRank r = b.engine → reqStream r = b.stream → reqClass r n = b.cls → r.isWrite = b.isWrite → r.first = b.first + b.count →
      (b.first - b.served) / 64 = (r.first + r.count - 1) / 64 → b.served + b.count + r.count ≤ 32 →
      ∃ t, exec (.hbmSlotGrant n gap true [r] est) s = .next t ∧
        (t.mem.stack n).queue = [{ b with count := b.count + r.count }] ∧
        (getStream t (n / 4)).smerge = min ((getStream s (n / 4)).smerge + 1) 0xFFFFFFFF) ∧
    (reqRank r ≠ b.engine → b.isWrite = false → r.isWrite = false → b.first ≤ r.first → r.first + r.count ≤ b.first + b.count →
      ∃ t, exec (.hbmSlotGrant n gap true [r] est) s = .next t ∧
        (t.mem.stack n).queue = [{ b with deadline := min b.deadline (reqDeadline s est r (k.clock + gap)) }] ∧
        (getStream t (n / 4)).smerge = min ((getStream s (n / 4)).smerge + 1) 0xFFFFFFFF) ∧
    (reqRank r ≠ b.engine → b.isWrite = true ∨ r.isWrite = true ∨ r.first < b.first ∨ b.first + b.count < r.first + r.count →
      ∃ t x, exec (.hbmSlotGrant n gap true [r] est) s = .next t ∧ (t.mem.stack n).queue = [b, x] ∧ x.first = r.first ∧
        x.count = r.count ∧ x.queued = k.clock + gap ∧ x.cls = reqClass r n ∧
        (getStream t (n / 4)).smerge = min (getStream s (n / 4)).smerge 0xFFFFFFFF)) ∧
  (∀ (s : State) (n gap : Nat) (est : List (Nat × Nat)) (k : Stack) (r : HbmRequest), n < 8 → k = s.mem.stack n → k.slotNo ≠ 0 → k.usedBack < 16 →
    k.queue = [] → 0 < r.count → r.stream = .read →
    ∃ t x, exec (.hbmSlotGrant n gap true [r] est) s = .next t ∧ (t.mem.stack n).queue = [x] ∧ x.first = r.first ∧ x.count = r.count ∧
      x.deadline = k.clock + gap + 65536 ∧ x.cls = reqClass r n)

/-- Sectors and flits (R201, R238, R239, R49): a corrected read counts in MCORR; one that passes on its retry counts in MRETRYOK
and notes bit 4 for its command; one that stays uncorrectable counts in MUNCOR and fails its command with MEM_UNCORRECTABLE of
its stack and page, every command that it served, and no update whose state block the mirror gives back; a re-sent flit counts
in MCRC, three times at most for one read. Compressed blocks (R222, R223): of a descriptor that the command reads a good block
changes nothing; one that passes at its one re-fetch counts in ZRETRY and notes bit 4; one that fails again, or after its re-
fetch, ends the command with STREAM_DAMAGED of its cause and counts in ZDAMAGE. -/
def Obligations.DamagedReadsAreRetriedThenFail : Prop :=
  (∀ (s : State) (user : SectorUser) (shared : List SectorUser) (mir : Option Bytes) (a : Nat) (o : Sector), s.mem.translate a = none →
    exec (.hbmUncorrectableRead user shared a o mir) s = .next s) ∧
  (∀ (s : State) (user : SectorUser) (shared : List SectorUser) (mir : Option Bytes) (a n f o : Nat), s.mem.translate a = some (n, f, o) →
    exec (.hbmUncorrectableRead user shared a .clean mir) s = .next s ∧
    (∃ t, exec (.hbmUncorrectableRead user shared a .corrected mir) s = .next t ∧
      t.mem.mcorr = min (s.mem.mcorr + 1) 0xFFFFFFFFFFFFFFFF ∧ t.cmds = s.cmds ∧ t.queues = s.queues ∧
      (∀ x, t.mem.read x = s.mem.read x))) ∧
  (∀ (s : State) (cid a n f o : Nat) (c : Cmd) (mir : Option Bytes), s.mem.translate a = some (n, f, o) → findCmd s cid = some c →
    c.inFlight = true →
    (∃ t, exec (.hbmUncorrectableRead (.command cid) [] a .retried mir) s = .next t ∧
      t.mem.mretryok = min (s.mem.mretryok + 1) 0xFFFFFFFF ∧ findCmd t cid = some { c with notes := c.notes ||| 0x10 } ∧
      (∀ x, t.mem.read x = s.mem.read x) ∧ t.queues = s.queues) ∧
    (∃ t u v, exec (.hbmUncorrectableRead (.command cid) [] a .uncorrectable mir) s = .next t ∧ Counted v t ∧
      Ended u v c (0x20, n + f * 8) 0 ∧ u.mem.muncor = min (s.mem.muncor + 1) 0xFFFFFFFF ∧ u.cmds = s.cmds ∧
      u.queues = s.queues ∧ u.counters = s.counters ∧ (∀ x, t.mem.read x = s.mem.read x ∨ claimAt s.mem.claims x ≠ none)) ∧
    (∀ cid2 c2, findCmd s cid2 = some c2 → c2.inFlight = true →
      ∃ t, exec (.hbmUncorrectableRead (.command cid) [.command cid2] a .uncorrectable mir) s = .next t ∧ findCmd t cid = none ∧
        findCmd t cid2 = none) ∧
    (∀ b d, isUpdate c.opcode = true →
      (∃ t, exec (.hbmUncorrectableRead (.stateBlock cid b) [] a .uncorrectable (some d)) s = .next t ∧
        findCmd t cid = some { c with notes := c.notes ||| 0x200 }) ∧
      (∃ t, exec (.hbmUncorrectableRead (.stateBlock cid b) [] a .uncorrectable none) s = .next t ∧ findCmd t cid = none))) ∧
  (∀ (s : State) (n k : Nat), n < 8 →
    (∃ t, exec (.hbmFlitCrcFail n k none) s = .next t ∧
      Counted { s with mem := { s.mem with mcrc := min (s.mem.mcrc + 1) 0xFFFFFFFF } } t) ∧
    (∀ users mir a o, k ≤ 3 → ∃ t, exec (.hbmFlitCrcFail n k (some (users, mir, a, o))) s = .next t ∧
      Counted { s with mem := { s.mem with mcrc := min (s.mem.mcrc + 1) 0xFFFFFFFF } } t) ∧
    (∀ user shared mir a o, 3 < k → exec (.hbmFlitCrcFail n k (some (user :: shared, mir, a, o))) s =
      exec (.hbmUncorrectableRead user shared a (if o = .uncorrectable then .uncorrectable else .retried) mir) s)) ∧
  (∀ (s : State) (cid desc : Nat) (block : Option Nat) (seen : List (Nat × Byte)) (c : Cmd) (d : Desc),
    findCmd s cid = some c → c.stage = .dispatched → d = readDesc s desc → d.compressed = true → 1 ≤ desc → desc ≤ s.job.descCount →
    (desc ∉ decodedBy s c → exec (.compressedBlockDecode cid desc block seen) s = .next s) ∧
    (blockCause (firstFetch s seen) d (crcOnly c) block = none → exec (.compressedBlockDecode cid desc block seen) s = .next s) ∧
    (∀ first, desc ∈ decodedBy s c → blockCause (firstFetch s seen) d (crcOnly c) block = some first →
      ((desc, block) ∉ c.refetched → blockCause s d (crcOnly c) block = none →
        ∃ t, exec (.compressedBlockDecode cid desc block seen) s = .next t ∧
          findCmd t cid = some { c with notes := c.notes ||| 0x10, refetched := (desc, block) :: c.refetched } ∧
          (getZip t (decodeDie s c)).zretry = min ((getZip s (decodeDie s c)).zretry + 1) 0xFFFFFFFF ∧ t.mem = s.mem ∧
          t.queues = s.queues) ∧
      (∀ cause, (desc, block) ∉ c.refetched → blockCause s d (crcOnly c) block = some cause →
        ∃ t, exec (.compressedBlockDecode cid desc block seen) s = .next t ∧
          Ended (countDamage s (decodeDie s c)) t c (streamDamaged cause (block.getD 0xFFFF)) 0) ∧
      ((desc, block) ∈ c.refetched →
        ∃ t, exec (.compressedBlockDecode cid desc block seen) s = .next t ∧
          Ended (countDamage s (decodeDie s c)) t c (streamDamaged first (block.getD 0xFFFF)) 0)))

/-- Stacks' temperatures and scrub (R237, R240, R393, R404): levels 1, 2, 3 are entered above 85, 95 and 105 °C and left 3 °C
below; a second reading in a row at 110 °C trips; scrub pauses while disabled, off or in self-refresh, counts what it corrects
and what it cannot, goes on to the next frame after a frame's last sector, and completes a pass after the last frame. Background
services (R403, R415): a corrected SRAM word counts; an uncorrectable one is a contained error and counts; ageing raises the
rail offset of a cluster that is on, to 250 mV, and tells the least headroom; calibrations and the telemetry gathering change
nothing that software sees. -/
def Obligations.StacksAndServicesReport : Prop :=
  (∀ (s : State) (n : Nat) (x : Int) (k : Stack), n < 8 → k = s.mem.stack n → x < 110 * 16 →
    ∃ t, exec (.stackTempReport n x) s = .next t ∧ (t.mem.stack n).temp = x ∧ t.ctl.kstate = s.ctl.kstate ∧
      (105 * 16 < x → (t.mem.stack n).level = 3) ∧ (95 * 16 < x → x ≤ 102 * 16 → (t.mem.stack n).level = 2) ∧
      (85 * 16 < x → x ≤ 92 * 16 → (t.mem.stack n).level = 1) ∧ (x ≤ 82 * 16 → (t.mem.stack n).level = 0) ∧
      (102 * 16 < x → x ≤ 105 * 16 → (t.mem.stack n).level = (if k.level < 3 then 2 else 3)) ∧
      (92 * 16 < x → x ≤ 95 * 16 → (t.mem.stack n).level = (if k.level < 2 then 1 else 2)) ∧
      (82 * 16 < x → x ≤ 85 * 16 → (t.mem.stack n).level = (if k.level < 1 then 0 else 1)) ∧ t.cmds = s.cmds) ∧
  (∀ (s : State) (n : Nat) (x : Int), n < 8 → 110 * 16 ≤ x →
    ((s.mem.stack n).tripOnce = false → ∃ t, exec (.stackTempReport n x) s = .next t ∧ t.power.tripped = s.power.tripped ∧
      (t.mem.stack n).tripOnce = true) ∧
    ((s.mem.stack n).tripOnce = true → 94 ∈ s.power.domains → s.power.tripped = false →
      ∃ t, exec (.stackTempReport n x) s = .next t ∧ t.power.tripped = true ∧ t.ctl.kstate = 2 ∧ t.ctl.stage = 8)) ∧
  (∀ (s : State) (n off : Nat) (last ov : Bool) (o : ScrubOutcome), n < 8 →
    ((s.mem.stack n).present = false ∨ (s.mem.stack n).selfRefresh = true ∨ bit s.rel.rscrub.toNat 8 = false) →
    exec (.hbmScrubRead n off last o ov) s = .next s) ∧
  (∀ (s : State) (n off : Nat) (ov : Bool) (k : Stack), n < 8 → k = s.mem.stack n → k.present = true → k.selfRefresh = false →
    bit s.rel.rscrub.toNat 8 = true →
    exec (.hbmScrubRead n off false .clean ov) s = .next s ∧
    (∃ t, exec (.hbmScrubRead n off false .corrected ov) s = .next t ∧
      t.mem.mcorr = min (s.mem.mcorr + 1) 0xFFFFFFFFFFFFFFFF ∧ (∀ x, t.mem.read x = s.mem.read x)) ∧
    (∃ t, exec (.hbmScrubRead n off false .uncorrectable ov) s = .next t ∧ t.mem.muncor = min (s.mem.muncor + 1) 0xFFFFFFFF ∧
      t.cmds = s.cmds) ∧
    (k.scrubFrame < 32767 → k.scrubFrame + 1 ∉ k.retired → k.scrubFrame + 1 ∉ k.volatileRetired →
      ∃ t, exec (.hbmScrubRead n off true .clean ov) s = .next t ∧
        (t.mem.stack n).scrubFrame = k.scrubFrame + 1 ∧ (t.mem.stack n).passes = k.passes) ∧
    (k.scrubFrame = 32767 → ∃ t, exec (.hbmScrubRead n off true .clean ov) s = .next t ∧
      (t.mem.stack n).passes = k.passes + 1 ∧ (t.mem.stack n).rowErrors = [])) ∧
  (∀ (s : State) (tg : ScrubTarget), targetOk tg = true →
    (scrubReaches s tg = true →
      exec (.sramScrub tg .corrected) s = .next { s with rel := { s.rel with rsramcor := min (s.rel.rsramcor + 1) 0xFFFFFFFF } } ∧
      exec (.sramScrub tg .clean) s = .next s ∧
      (∃ t, exec (.sramScrub tg .uncorrectable) s = .next t ∧ t.rel.rsramunc = min (s.rel.rsramunc + 1) 0xFFFFFFFF)) ∧
    (scrubReaches s tg = false → ∀ o, exec (.sramScrub tg o) s = .next s)) ∧
  (∀ (s : State) (n : Nat) (x : Int), n < 152 → exec (.sensorCalibration n x) s = .next s) ∧
  (∀ (s : State) (c drift : Nat) (v : Cluster), c < 68 → v = getCluster s c →
    exec (.monitorRecalibration c) s = .next s ∧ exec .telemetryGather s = .next s ∧
    (clusterOn s c = true → ∃ t, exec (.ageingMeasurement c drift) s = .next t ∧
      getCluster t c = { v with
        railOffset := min 250 (v.railOffset + drift), railMv := min 900 (max v.railMv (650 + min 250 (v.railOffset + drift))) } ∧
      (∀ x, x ≠ c → getCluster t x = getCluster s x) ∧
      (∀ x, x < 68 → t.rel.rage.toNat % 2 ^ 16 ≤ 900 - (getCluster t x).railMv)) ∧
    (clusterOn s c = false → exec (.ageingMeasurement c drift) s = .next s))

/-- Bundles (R245, R246, R253, R254): a failed flit is sent again, counts in its replays and blames its lane; the eighth failure
of a flit in a row retrains the bundle or takes it down, the eighth blame of a window retires the position, at half width where
fewer than 64 are left; a window's end clears the blames; a liveness flit restarts the other end's count unless its die is lost;
a count of 65,536 takes the bundle down; a bundle that is down stays as it is. -/
def Obligations.BundlesReplayBlameAndGoDown : Prop :=
  ∀ (s : State) (b lane seq p : Nat) (far ok : Bool) (v : Bundle), b < 7 → lane < 68 → v = getBundle s b → p = v.inUse.getD lane 68 →
    (v.carries = false → exec (.bundleFlitCrcFail b ⟨lane, far, seq⟩ ok) s = .next s ∧ exec (.bundleLivenessSend b far) s = .next s) ∧
    (v.carries = true → v.failSeq = none → mget 0 v.blame p < 7 →
      ∃ t, exec (.bundleFlitCrcFail b ⟨lane, far, seq⟩ ok) s = .next t ∧ Counted { setBundle s b { v with
          replays := min (v.replays + 1) 0xFFFFFFFF, inRow := 1, failSeq := some (far, seq % 256)
          blame := mput v.blame p (mget 0 v.blame p + 1) }
        with out := s.out ++ [.resend b (seq % 256)] } t) ∧
    (v.carries = true → v.failSeq = some (far, seq % 256) → v.inRow < 7 → mget 0 v.blame p < 7 →
      ∃ t, exec (.bundleFlitCrcFail b ⟨lane, far, seq⟩ ok) s = .next t ∧ Counted { setBundle s b { v with
          replays := min (v.replays + 1) 0xFFFFFFFF, inRow := v.inRow + 1, blame := mput v.blame p (mget 0 v.blame p + 1) }
        with out := s.out ++ [.resend b (seq % 256)] } t) ∧
    (v.carries = true → v.failSeq = some (far, seq % 256) → v.inRow = 7 → mget 0 v.blame p < 7 →
      ∃ t, exec (.bundleFlitCrcFail b ⟨lane, far, seq⟩ ok) s = .next t ∧
        (ok = true → (getBundle t b).state = v.state ∧ (getBundle t b).inRow = 0 ∧ (getBundle t b).failSeq = none) ∧
        (ok = false → (getBundle t b).state = 0 ∧ (getBundle t b).inUse = [] ∧ bit t.dies.dseen.toNat (8 + b) = true)) ∧
    (v.carries = true → p < 68 → v.failSeq = none → mget 0 v.blame p = 7 →
      ∃ t, exec (.bundleFlitCrcFail b ⟨lane, far, seq⟩ ok) s = .next t ∧ p ∈ (getBundle t b).cycle ∧
        (v.state = 1 → 64 ≤ (v.exclude p).good.length → (getBundle t b).state = 1 ∧
          (getBundle t b).inUse.length = v.inUse.length) ∧
        (v.state = 1 → (v.exclude p).good.length = 63 → (getBundle t b).state = 2 ∧ (getBundle t b).inUse.length = 32) ∧
        ((v.exclude p).good.length < 32 → (getBundle t b).state = 0)) ∧
    exec (.bundleWindowEnd b) s = .next (setBundle s b { v with blame := [] }) ∧
    (v.carries = true → dieState s (senderOf b far) ≠ 2 → exec (.bundleLivenessSend b far) s =
      .next { setBundle s b (if far then { v with idleNear := 0 } else { v with idleFar := 0 }) with out := s.out ++ [.bundleFlit b] }) ∧
    (v.carries = true → dieState s (senderOf b far) = 2 → ∃ t, exec (.bundleLivenessSend b far) s = .next t ∧
      getBundle t b = v ∧ t.out = s.out ++ [.bundleFlit b]) ∧
    (v.carries = true → v.idleNear = 65536 ∨ v.idleFar = 65536 → ∃ t, exec (.bundleLivenessTimeout b) s = .next t ∧
      (getBundle t b).state = 0 ∧ (getBundle t b).inUse = [] ∧ bit t.dies.dseen.toNat (8 + b) = true) ∧
    (v.idleNear ≠ 65536 → v.idleFar ≠ 65536 → exec (.bundleLivenessTimeout b) s = .next s)

/-- Rejoins (R256-R258): an attempt on a lost die cycles it, reads 3 in DSTAT and puts its bundles to training; the report that
passes brings it up with its link die, its stacks awake, and counts in rejoin_ok; a failed one counts, the third gives the die
up and an earlier one waits for the timer, which starts the next attempt; S, once up, drops its batches in assembly. -/
def Obligations.LostDiesRejoin : Prop :=
  (∀ (s : State) (d : Nat), d < 5 →
    (dieState s d = 2 → d ∉ s.dies.givenUp → d ∉ s.dies.waitingRetry → ∃ t, exec (.rejoinAttempt d none) s = .next t ∧
      dieState t d = 3 ∧ (∀ x ∈ linkOf d, dieState t x = 3) ∧ (∀ b ∈ dieBundles d, (getBundle t b).state = 3) ∧
      (∀ x, x ≠ d → x ∉ linkOf d → dieState t x = dieState s x) ∧ t.cmds = s.cmds ∧ t.mem = s.mem) ∧
    (dieState s d ≠ 2 ∨ d ∈ s.dies.givenUp ∨ d ∈ s.dies.waitingRetry → exec (.rejoinAttempt d none) s = .next s)) ∧
  (∀ (s : State) (d : Nat) (rep : RejoinReport) (r q : State × Bool), d < 5 →
    r = trainCourse rep.badPositions rep.identities (rejoinCourse d) s →
    q = qualifyStacks rep.identities rep.badStacks rep.repairedRows (dieStacks d) r.1 →
    (dieState s d ≠ 3 → exec (.rejoinAttempt d (some rep)) s = .next s) ∧
    (dieState s d = 3 → rep.partnerLost = false → partnerGone s d = false → rep.failStep = none → r.2 = true → q.2 = true →
      ∃ t, exec (.rejoinAttempt d (some rep)) s = .next t ∧ dieState t d = 1 ∧ (∀ x ∈ linkOf d, dieState t x = 1) ∧
        t.dies.rejoinOk = min (s.dies.rejoinOk + 1) 0xFFFF ∧ mget 0 t.dies.attempts d = 0 ∧
        (∀ k ∈ dieStacks d, (t.mem.stack k).selfRefresh = false ∧ (t.mem.stack k).present = true) ∧ t.cmds = s.cmds) ∧
    (dieState s d = 3 → rep.partnerLost = true ∨ partnerGone s d = true ∨ rep.failStep ≠ none ∨ r.2 = false ∨ q.2 = false →
      ∃ t, exec (.rejoinAttempt d (some rep)) s = .next t ∧ dieState t d = 2 ∧ (∀ x ∈ linkOf d, dieState t x = 2) ∧
        t.dies.rejoinFail = min (s.dies.rejoinFail + 1) 0xFFFF ∧ mget 0 t.dies.attempts d = mget 0 s.dies.attempts d + 1 ∧
        (2 ≤ mget 0 s.dies.attempts d → d ∈ t.dies.givenUp) ∧ (mget 0 s.dies.attempts d < 2 → d ∈ t.dies.waitingRetry))) ∧
  (∀ (s : State) (d : Nat), d < 5 →
    (d ∈ s.dies.waitingRetry → dieState s d = 2 → partnerGone s d = false → ∃ t, exec (.rejoinRetryTimer d) s = .next t ∧
      dieState t d = 3 ∧ d ∉ t.dies.waitingRetry ∧ (∀ x, x ≠ d → x ∉ linkOf d → dieState t x = dieState s x) ∧ t.mem = s.mem) ∧
    (d ∉ s.dies.waitingRetry ∨ partnerGone s d = true → exec (.rejoinRetryTimer d) s = .next s)) ∧
  (∀ s : State,
    (dieState s 4 = 1 → ∃ t, exec .sResume s = .next t ∧ (∀ n, (getIngest t n).asm = none) ∧
      (∀ n a, (getIngest s n).asm = some a → (getIngest t n).pos = a.firstPos) ∧ t = { s with spring := t.spring }) ∧
    (dieState s 4 ≠ 1 → exec .sResume s = .next s))

/-- Containment (R406, R408-R410): with nothing under handling an error is handled at its level: a Mere's retires the Mere and
stops its kill-class commands, a cluster's retires its four Meres and switches its domain off, a die's takes the die out, the
module's fails the job and enters the safe state; one outside the domain under handling waits, and the end of handling takes the
next. -/
def Obligations.ErrorsAreContainedAtTheirLevel : Prop :=
  (∀ (s : State) (p src : Nat), p < 272 → src ≠ 1 → src ≠ 2 → s.rel.handling = none → (getMere s p).retired = false →
    ∃ t, exec (.containedError (.mere p src)) s = .next t ∧ (getMere t p).retired = true ∧
      (∃ b, t.rel.handling = some b ∧ b.level = 0 ∧ b.site = .mere p src) ∧
      mget 0 t.rel.levels 0 = min (mget 0 s.rel.levels 0 + 1) 0xFFFF ∧ t.ctl.kstate = s.ctl.kstate ∧
      (∀ c ∈ seatedOn s p, isKill c.opcode = true → c.cid ∈ t.rel.toRerun)) ∧
  (∀ (s : State) (d c src : Nat), d < 2 → c < 34 → s.rel.handling = none →
    ∃ t, exec (.containedError (.cluster d c src)) s = .next t ∧ 38 * d + c ∉ t.power.domains ∧
      (∀ p ∈ clusterMeres d c, (getMere t p).retired = true) ∧
      (∃ b, t.rel.handling = some b ∧ b.level = 1 ∧ b.site = .cluster d c src) ∧
      mget 0 t.rel.levels 1 = min (mget 0 s.rel.levels 1 + 1) 0xFFFF ∧ t.ctl.kstate = s.ctl.kstate) ∧
  (∀ (s : State) (d u a : Nat), 2 ≤ d → d < 5 → u < 256 → s.rel.handling = none → dieState s 0 = 1 →
    ∃ t, exec (.containedError (.die d u a)) s = .next t ∧ dieState t d = 2 ∧ bit t.dies.dseen.toNat d = true ∧
      (∃ b, t.rel.handling = some b ∧ b.level = 2 ∧ b.site = .die d u a) ∧
      mget 0 t.rel.levels 2 = min (mget 0 s.rel.levels 2 + 1) 0xFFFF ∧ t.ctl.kstate = s.ctl.kstate) ∧
  (∀ (s : State) (p src src2 q : Nat), p < 272 → q < 272 → p ≠ q → src ≠ 1 → src ≠ 2 → s.rel.pend.length < 32 →
    (∃ b, s.rel.handling = some b ∧ b.site = .mere q src2 ∧ b.level = 0) →
    ∃ t, exec (.containedError (.mere p src)) s = .next t ∧ t.rel.handling = s.rel.handling ∧
      (∃ b, t.rel.pend = s.rel.pend ++ [b] ∧ b.site = .mere p src ∧ b.level = 0) ∧ t.cmds = s.cmds ∧
      getMere t p = getMere s p) ∧
  (∀ (s : State) (src : Nat), s.rel.handling = none → s.rel.pend = [] →
    ∃ t, exec (.containedError (.module src)) s = .next t ∧ t.ctl.kstate = 2 ∧ t.ctl.stage = 10 ∧
      (s.job.loaded = true → t.job.failed = true) ∧ (∀ c ∈ t.cmds, c.q < 64 → c.inFlight = false)) ∧
  (∀ (s : State) (b : Contained), s.rel.handling = some b → b.level < 3 → s.rel.pend = [] →
    ∃ t, exec .containmentDone s = .next t ∧ t.rel.handling = none ∧ t.rel.toRerun = [] ∧
      (∀ c n, n ∈ s.rel.toRerun → findCmd s n = some c → c.stage = .stopped → findCmd t n = some { c with stage := .fetched }) ∧
      t.mem = s.mem) ∧
  (∀ (s : State) (b x : Contained) (rest : List Contained), s.rel.handling = some b → b.level < 3 → s.rel.pend = x :: rest →
    ∃ t, exec .containmentDone s = .next t ∧ Counted (bothLost (startHandling
      { rerunCmds { s with rel := { s.rel with handling := none } } with rel :=
        { (rerunCmds { s with rel := { s.rel with handling := none } }).rel with pend := rest } } x.site x.seq)) t) ∧
  (∀ (s : State) (b : Contained), s.rel.handling = some b → b.level = 3 → exec .containmentDone s = .next s) ∧
  (∀ (s : State), s.rel.handling = none → exec .containmentDone s = .next s)

/-! ## Birtis links, mirrors, pipelines, rings and collectives -/

/-- Training (R263-R266, R272): an attempt brings a port up at the highest generation that both ends allow and four lanes carry,
at eight lanes or four, or leaves it down; a retry starts the next attempt; margins and coefficients are the lanes' own; a
window's end clears the blames. -/
def Obligations.PortsTrainToTheBestGeneration : Prop :=
  (∀ (s : State) (p gen : Nat) (rep : TrainReport) (good : List Nat), p < 24 → mayTrain s p = true →
    rep.peer = true → rep.stepsInBound = true → trainAt (getPort s p) rep (chosenGen (getPort s p) rep) = some (gen, good) →
    ∃ t, exec (.portTrainingAttempt p rep) s = .next t ∧ (getPort t p).state = 2 ∧ (getPort t p).gen = gen ∧
      gen ≤ rep.peerCap ∧ gen ≤ rep.peerGen ∧ gen ≤ (getPort s p).genCap ∧ gen ≤ 3 ∧ 4 ≤ good.length ∧
      (getPort t p).width = (if 8 ≤ good.length then 8 else 4) ∧
      (getPort t p).planes = good.take (if 8 ≤ good.length then 8 else 4) ∧
      (∀ l ∈ good, l < 10 ∧ l ∉ rep.peerMap) ∧ (getPort t p).replay = [] ∧ (getPort t p).nextSeq = 0 ∧
      (getPort t p).ppeer = rep.peerSerial ∧ (∀ x, x ≠ p → getPort t x = getPort s x) ∧ t.mem = s.mem ∧ t.cmds = s.cmds) ∧
  (∀ (s : State) (p : Nat) (rep : TrainReport), p < 24 →
    (mayTrain s p = true → (rep.peer = false ∨ rep.stepsInBound = false ∨
        trainAt (getPort s p) rep (chosenGen (getPort s p) rep) = none) →
      exec (.portTrainingAttempt p rep) s = .next (setPort s p { getPort s p with state := 0 })) ∧
    (mayTrain s p = true → exec (.portTrainingRetry p) s = .next (setPort s p { getPort s p with state := 1 })) ∧
    (mayTrain s p = false → exec (.portTrainingAttempt p rep) s = .next s ∧ exec (.portTrainingRetry p) s = .next s)) ∧
  (∀ (s : State) (p : Nat) (margins : List Nat), p < 24 → portUp s p = true →
    ∃ t, exec (.eqAdapt p margins) s = .next t ∧ (∀ l m, l < 10 → margins[l]? = some m → ((getPort t p).lane l).margin = m % 65536) ∧
      (∀ l, margins.length ≤ l → (getPort t p).lane l = (getPort s p).lane l) ∧
      t = setPort s p { getPort s p with lanes := (getPort t p).lanes }) ∧
  (∀ (s : State) (p lane coeff : Nat) (up : Bool) (x : Lane), p < 24 → portUp s p = true → x = (getPort s p).lane lane →
    (x.lastRequest = none ∨ (∃ a, x.lastRequest = some a ∧ a + 25000 ≤ portTime s p)) →
    ∃ t, exec (.eqRequest p lane coeff up) s = .next t ∧
      mget 0 ((getPort t p).lane lane).fir coeff = mget 0 x.fir coeff + (if up then 1 else -1) ∧
      ((getPort t p).lane lane).lastRequest = some (portTime s p) ∧
      (∀ l, l ≠ lane → (getPort t p).lane l = (getPort s p).lane l) ∧
      t = setPort s p { getPort s p with lanes := (getPort t p).lanes }) ∧
  (∀ (s : State) (p lane coeff a : Nat) (up : Bool), p < 24 → ((getPort s p).lane lane).lastRequest = some a → portTime s p < a + 25000 →
    exec (.eqRequest p lane coeff up) s = .next s) ∧
  (∀ (s : State) (p lane coeff : Nat) (up : Bool) (margins : List Nat), p < 24 → portUp s p = false →
    exec (.eqRequest p lane coeff up) s = .next s ∧ exec (.eqAdapt p margins) s = .next s ∧ exec (.fecWindowEnd p) s = .next s) ∧
  (∀ (s : State) (p : Nat), p < 24 → portUp s p = true →
    ∃ t, exec (.fecWindowEnd p) s = .next t ∧ (∀ l, ((getPort t p).lane l).blame = 0) ∧
      ((getPort s p).gen < 2 → (getPort t p).pfeccor = (getPort s p).pfeccor ∧ (getPort t p).pfecunc = (getPort s p).pfecunc) ∧
      (∀ x, x ≠ p → getPort t x = getPort s x) ∧ t.mem = s.mem ∧ t.cmds = s.cmds)

/-- Port controls (R263, R264, R271, R278): enable starts training where the die is up; clearing it takes the port down; a
retrain keeps nothing; gen_cap 0 leaves the field, a cap under the running generation retrains at once. -/
def Obligations.PortControlsTakeEffect : Prop :=
  ∀ (s : State) (src : Source) (p : Nat) (v : Port), sourceUp s src = true → p < 24 → v = getPort s p →
    (v.enable = true → exec (.portEnable src p) s = .next s) ∧
    (v.enable = false → exec (.portEnable src p) s = .next (setPort s p { v with
      enable := true, state := if dieState s (linkDie p) = 1 ∧ v.loopFail = false then 1 else 0 })) ∧
    (v.enable = false → exec (.portDisable src p) s = .next s) ∧
    (v.enable = true → v.state = 0 →
      ∃ t, exec (.portDisable src p) s = .next t ∧ Counted (setPort s p { v with enable := false }) t) ∧
    (v.enable = true → v.state ≠ 0 → ∃ t, exec (.portDisable src p) s = .next t ∧ (getPort t p).enable = false ∧
      (getPort t p).state = 0 ∧ (getPort t p).wentDown = true ∧ (getPort t p).replay = [] ∧ t.mem = s.mem) ∧
    (v.enable = true → v.loopFail = false → dieState s (linkDie p) = 1 →
      ∃ t, exec (.portRetrain src p) s = .next t ∧
        Counted (setPort s p { v.linkStart with state := 1, gen := 0, width := 0, planes := [] }) t) ∧
    ((v.enable = false ∨ v.loopFail = true ∨ dieState s (linkDie p) ≠ 1) → exec (.portRetrain src p) s = .next s) ∧
    exec (.genCapWrite src p 0) s = .next s ∧
    (∀ n, 1 ≤ n → n ≤ 3 → (v.state < 2 ∨ v.gen ≤ n) →
      ∃ t, exec (.genCapWrite src p n) s = .next t ∧ Counted (setPort s p { v with genCap := n }) t) ∧
    (∀ n, 1 ≤ n → n ≤ 3 → 2 ≤ v.state → n < v.gen → v.enable = true → v.loopFail = false → dieState s (linkDie p) = 1 →
      ∃ t, exec (.genCapWrite src p n) s = .next t ∧ Counted (setPort s p { v.linkStart with
        genCap := n, state := 1, gen := 0, width := 0, planes := [] }) t)

/-- Flits (R267-R270): an up port with nothing to send sends NULL; a message's fragment takes a sequence number, a credit of its
class and a place in the replay buffer; a flit in order is accepted, one out of order asks for a resend, one with a bad CRC is
discarded and counted; an acknowledgement clears the replay buffer up to its flit; a resend takes no new number. Replay (R269,
R270): a time-out rewinds to the oldest unacknowledged flit and counts; after 16 resends without an acknowledgement the port
retrains and goes on, or, where that fails, goes down and its messages take other ports. -/
def Obligations.FlitsAreSentAcceptedAndReplayed : Prop :=
  (∀ (s : State) (p : Nat) (v : Port), p < 24 → v = getPort s p → v.state = 2 → v.resendFrom = none →
    (v.replay.length < 512 → (∀ e ∈ v.owed, e.2 = 0) → v.txQueue = [] →
      ∃ t b, exec (.linkFlitSend p) s = .next t ∧ t.out = s.out ++ [.flit p b v.planes] ∧ field b 0 1 = 0 ∧ b.length = 256 ∧
        getPort t p = { v with sinceShort := v.sinceShort + 1, sendNak := false } ∧ t.mem = s.mem ∧ t.cmds = s.cmds) ∧
    (512 ≤ v.replay.length → ∃ t b, exec (.linkFlitSend p) s = .next t ∧ t.out = s.out ++ [.flit p b v.planes] ∧ field b 0 1 = 0 ∧
      (getPort t p).nextSeq = v.nextSeq ∧ (getPort t p).txQueue = v.txQueue ∧ t.cmds = s.cmds) ∧
    (∀ m, v.replay.length < 512 → (∀ e ∈ v.owed, e.2 = 0) → nextMsg s p v = some m →
      ∃ t b, exec (.linkFlitSend p) s = .next t ∧ t.out = s.out ++ [.flit p b v.planes] ∧ field b 0 1 = 1 ∧
        (getPort t p).nextSeq = (v.nextSeq + 1) % 4096 ∧ (getPort t p).replay = v.replay ++ [(v.nextSeq, b)] ∧
        (getPort t p).credit m.cls = v.credit m.cls - 1 ∧ (∀ x, x ≠ p → getPort t x = getPort s x) ∧ t.mem = s.mem ∧ t.cmds = s.cmds)) ∧
  (∀ (s : State) (p q : Nat) (b : Bytes) (v : Port) (rest : List (Nat × Bytes)), p < 24 → v = getPort s p → v.state = 2 →
    v.replay = (q, b) :: rest → v.resendFrom = some q →
    ∃ t, exec (.linkFlitSend p) s = .next t ∧ (getPort t p).nextSeq = v.nextSeq ∧ (getPort t p).replay = v.replay ∧
      (getPort t p).preplay = min (v.preplay + 1) 0xFFFFFFFF ∧ (getPort t p).resendFrom = rest.head?.map (fun e => e.1)) ∧
  (∀ (s : State) (p : Nat) (flit : Bytes), p < 24 → (getPort s p).state = 2 → flitGood flit = false → (getPort s p).gen ≠ 1 →
    exec (.linkFlitReceive p flit) s =
      .next (landMirrors (setPort s p { getPort s p with pcrc := min ((getPort s p).pcrc + 1) 0xFFFFFFFF, sendNak := true }))) ∧
  (∀ (s : State) (p : Nat) (flit : Bytes), p < 24 → (getPort s p).state = 2 → flitGood flit = false → (getPort s p).gen = 1 →
    ∃ t, exec (.linkFlitReceive p flit) s = .next t ∧
      (((getPort t p).pcrc = min ((getPort s p).pcrc + 1) 0xFFFFFFFF ∧ (getPort t p).expect = (getPort s p).expect) ∨
        (getPort t p).state = 0)) ∧
  (∀ (s : State) (p w : Nat) (flit : Bytes) (v : Port), p < 24 → v = getPort s p → v.state = 2 → flitGood flit = true →
    w = field flit 0xF8 4 → bit w 24 = false → bit w 25 = false → field flit 0 1 ≠ 0 →
    (w % 4096 ≠ v.expect → exec (.linkFlitReceive p flit) s = .next (landMirrors (setPort s p { v with sendNak := true }))) ∧
    (w % 4096 = v.expect → ∃ t, exec (.linkFlitReceive p flit) s = .next t ∧ (getPort t p).expect = (v.expect + 1) % 4096 ∧
      (getPort t p).accepted = some v.expect ∧ (getPort t p).sendNak = false ∧ t.mem = s.mem ∧ t.cmds = s.cmds)) ∧
  (∀ (s : State) (p w : Nat) (flit : Bytes), p < 24 → (getPort s p).state = 2 → flitGood flit = true → w = field flit 0xF8 4 →
    bit w 24 = true → bit w 25 = false → field flit 0 1 = 0 →
    exec (.linkFlitReceive p flit) s = .next (landMirrors (setPort s p ((getPort s p).ackTo (bits w 23 12))))) ∧
  (∀ (s : State) (p : Nat), p < 24 → (getPort s p).state ≠ 2 → exec (.linkFlitSend p) s = .next s ∧
    (∀ f, exec (.linkFlitReceive p f) s = .next s)) ∧
  (∀ (s : State) (p : Nat) (ok : Bool) (v : Port) (e : Nat × Bytes) (rest : List (Nat × Bytes)), p < 24 → v = getPort s p →
    v.state = 2 → v.replay = e :: rest →
    (v.resends < 16 → exec (.replayTimeout p ok) s = .next (setPort s p { v with resendFrom := some e.1, resends := v.resends + 1 })) ∧
    (16 ≤ v.resends → exec (.replayTimeout p true) s = .next (setPort s p { v with resendFrom := some e.1, resends := 0 })) ∧
    (16 ≤ v.resends → ∃ t, exec (.replayTimeout p false) s = .next t ∧ (getPort t p).state = 0 ∧ (getPort t p).replay = [] ∧
      (getPort t p).wentDown = true))

/-- Lanes, silence, phases (R271, R273, R274, R276, R283): a failed lane that retrains, and did not fail in the last 10 s,
counts one transient failure; else a spare lane takes its place, or the port narrows to four lanes, or goes down; a silent port
goes down; a port switches phase once no message of an earlier phase is left. -/
def Obligations.LanesFailOverOrThePortGoesDown : Prop :=
  (∀ (s : State) (p l : Nat) (v : Port) (x : Lane), p < 24 → v = getPort s p → portUp s p = true → l ∈ v.planes → x = v.lane l →
    (x.lastTransient = none ∨ ∃ a, x.lastTransient = some a ∧ a + 250000000 ≤ portTime s p) →
    ∃ t, exec (.laneFailure p l true) s = .next t ∧ ((getPort t p).lane l).transients = min (x.transients + 1) 0xFF ∧
      ((getPort t p).lane l).lastTransient = some (portTime s p) ∧ (getPort t p).planes = v.planes ∧ (getPort t p).state = v.state ∧
      (∀ y, y ≠ p → getPort t y = getPort s y) ∧ t.mem = s.mem ∧ t.cmds = s.cmds) ∧
  (∀ (s : State) (p l n : Nat) (ok : Bool) (v : Port), p < 24 → v = getPort s p → portUp s p = true → l ∈ v.planes → v.width ≠ 4 →
    (ok = false ∨ ∃ a, (v.lane l).lastTransient = some a ∧ portTime s p < a + 250000000) → n < 10 → n ≠ l → n ∉ v.fused → n ∉ v.nonVolatile → (v.lane n).retired = false → n ∉ v.excluded → n ∉ v.planes →
    (∀ y, y < 10 → y ≠ l → y ∉ v.fused → y ∉ v.nonVolatile → (v.lane y).retired = false → y ∉ v.excluded → y ∉ v.planes → n ≤ y) →
    ∃ t, exec (.laneFailure p l ok) s = .next t ∧ (getPort t p).planes = v.planes.map (fun x => if x = l then n else x) ∧
      ((getPort t p).lane l).retired = true ∧ (getPort t p).width = v.width ∧ (getPort t p).state = v.state ∧
      (∀ y, y ≠ p → getPort t y = getPort s y) ∧ t.cmds = s.cmds) ∧
  (∀ (s : State) (p l : Nat) (ok : Bool) (v : Port), p < 24 → v = getPort s p → portUp s p = true → l ∈ v.planes → v.width ≠ 4 →
    (ok = false ∨ ∃ a, (v.lane l).lastTransient = some a ∧ portTime s p < a + 250000000) →
    (∀ y, y < 10 → y ≠ l → y ∈ v.planes ∨ y ∈ v.fused ∨ y ∈ v.nonVolatile ∨ (v.lane y).retired = true ∨ y ∈ v.excluded) →
    ∃ t, exec (.laneFailure p l ok) s = .next t ∧ (getPort t p).width = 4 ∧ (getPort t p).narrowed = true ∧
      (getPort t p).planes.length ≤ 4 ∧ l ∉ (getPort t p).planes ∧ (getPort t p).state = v.state ∧ t.cmds = s.cmds) ∧
  (∀ (s : State) (p l : Nat) (ok : Bool) (v : Port), p < 24 → v = getPort s p → portUp s p = true → l ∈ v.planes → v.width = 4 →
    (ok = false ∨ ∃ a, (v.lane l).lastTransient = some a ∧ portTime s p < a + 250000000) →
    ∃ t, exec (.laneFailure p l ok) s = .next t ∧ (getPort t p).state = 0 ∧ (getPort t p).wentDown = true) ∧
  (∀ (s : State) (p l : Nat) (ok : Bool), p < 24 → (portUp s p = false ∨ l ∉ (getPort s p).planes) →
    exec (.laneFailure p l ok) s = .next s) ∧
  (∀ (s : State) (p : Nat), p < 24 →
    (portUp s p = true → ∃ t, exec (.portSilenceTimeout p) s = .next t ∧ (getPort t p).state = 0 ∧ (getPort t p).wentDown = true ∧
      (getPort t p).planes = [] ∧ (getPort t p).txQueue = []) ∧
    (portUp s p = false → exec (.portSilenceTimeout p) s = .next s)) ∧
  (∀ (s : State) (p : Nat), p < 24 →
    ((getPort s p).oldPhase = true → (∀ m ∈ (getPort s p).txQueue, m.phase = 0 ∨ m.phase = s.peers.epoch) →
      exec (.portPhaseSwitch p) s = .next (setPort s p { getPort s p with oldPhase := false, slotUse := [] })) ∧
    ((∃ m ∈ (getPort s p).txQueue, m.phase ≠ 0 ∧ m.phase ≠ s.peers.epoch) → exec (.portPhaseSwitch p) s = .next s))

/-- Commands on a checkpoint mirror (R306, R308, R309): a host or a removal reaches its commit at once; a source tells its image
sizes, waits, and ends once its mirror is valid or has broken, without an answer with PEER_TIMEOUT; verify and restore ask the
partner once; a restore that no mirror serves ends with MEM_UNCORRECTABLE. The message kinds (log 46) and the end with a broken
mirror (log 98) are the model's choice. -/
def Obligations.MirrorCommandsAskThePartner : Prop :=
  (∀ (s : State) (cid slot : Nat) (c : Cmd) (mr : Mirror), Dispatched s cid 0x0601 c → mirrorConfigIssue s c = none →
    slot = c.arg 0x17 1 → mr = getMirror s slot →
    (c.arg 0x16 1 = 1 → ∃ t, exec (.mirrorConfig cid) s = .next t ∧
      Executed s t c (succeeded 0 [.mirrorHost slot (c.arg 0x18 4) (c.arg 0x1C 1) (c.arg 0x10 2)])) ∧
    (c.arg 0x16 1 = 2 → ∃ t, exec (.mirrorConfig cid) s = .next t ∧
      Executed s t c (succeeded 0 [.mirrorRemove slot (c.arg 0x18 4)])) ∧
    (∀ p, c.arg 0x16 1 = 0 → c.holds = false →
      choosePort s 0 (groupsFor (routeOf s c.phase) (c.arg 0x1C 1) .unknown) = some p →
      ∃ t m, exec (.mirrorConfig cid) s = .next t ∧ (getPort t p).txQueue = (getPort s p).txQueue ++ [m] ∧ m.cls = 3 ∧
        m.data = classHeader (c.arg 0x18 4) (ownRank s) (BitVec.ofNat 32 (slot + 256)) 0 ++ (cmdImages s c).flatMap (toLe 8) ∧
        (getMirror t slot).asked = true ∧ (getMirror t slot).desc = c.arg 0x10 2 ∧ (getMirror t slot).partner = c.arg 0x18 4 ∧
        (∀ x, x ≠ p → getPort t x = getPort s x) ∧ findCmd t cid = some { c with holds := true } ∧ t.mem = s.mem ∧
        t.queues = s.queues) ∧
    (c.arg 0x16 1 = 0 → c.holds = true → mr.asked = false → mr.state = 1 →
      ∃ t, exec (.mirrorConfig cid) s = .next t ∧ Executed s t c (succeeded (mr.images.sum / 1024) [])) ∧
    (c.arg 0x16 1 = 0 → c.holds = true → mr.asked = false → mr.state = 3 →
      ∃ t, exec (.mirrorConfig cid) s = .next t ∧ Ended s t c (partnerTimeout s c mr.laxis mr.partner) 0) ∧
    (c.arg 0x16 1 = 0 → c.holds = true → mr.asked = true ∨ mr.state = 2 → exec (.mirrorConfig cid) s = .next s)) ∧
  (∀ (s : State) (cid : Nat) (c : Cmd), Dispatched s cid 0x0601 c → c.arg 0x16 1 = 0 →
    ((getMirror s (c.arg 0x17 1)).asked = true → ∃ t port, exec (.mirrorConfigTimeout cid) s = .next t ∧
      Ended (dropMirror s (c.arg 0x17 1)) t c (peerTimeout port 3 (c.arg 0x18 4)) 0) ∧
    ((getMirror s (c.arg 0x17 1)).asked = false → exec (.mirrorConfigTimeout cid) s = .next s)) ∧
  (∀ (s : State) (cid p slot : Nat) (c : Cmd) (mr : Mirror), Dispatched s cid 0x0604 c → mirrorVerifyIssue s c = none →
    mirrorOf s (c.arg 0x10 2) = some (slot, mr) →
    (c.holds = false → choosePort s 0 (groupsFor (routeOf s c.phase) mr.laxis .unknown) = some p →
      ∃ t m, exec (.mirrorVerify cid) s = .next t ∧ (getPort t p).txQueue = (getPort s p).txQueue ++ [m] ∧ m.cls = 3 ∧
        m.data = classHeader mr.partner (ownRank s) (BitVec.ofNat 32 (slot + 1024)) 0 ∧
        findCmd t cid = some { c with holds := true } ∧ t = { s with ports := t.ports, cmds := t.cmds }) ∧
    (c.holds = true → exec (.mirrorVerify cid) s = .next s)) ∧
  (∀ (s : State) (cid p : Nat) (c : Cmd) (mr : Mirror) (h : HostRead), Dispatched s cid 0x0603 c → checkpointIssue s c = none →
    c.arg 0x16 1 ≠ 1 → mr = getMirror s (c.arg 0x17 1) →
    (mr.source = true → mr.desc = c.arg 0x10 2 → (mr.state = 1 ∨ mr.state = 2) → c.holds = false →
      choosePort s 0 (groupsFor (routeOf s c.phase) mr.laxis .unknown) = some p →
      ∃ t m, exec (.restore cid h) s = .next t ∧ (getPort t p).txQueue = (getPort s p).txQueue ++ [m] ∧ m.cls = 3 ∧
        m.data = classHeader mr.partner (ownRank s) (BitVec.ofNat 32 (c.arg 0x17 1 + 1536)) 0 ∧
        findCmd t cid = some { c with holds := true } ∧ t = { s with ports := t.ports, cmds := t.cmds }) ∧
    (mr.source = false ∨ mr.desc ≠ c.arg 0x10 2 ∨ mr.state = 3 ∨ mr.state = 0 →
      ∃ t, exec (.restore cid h) s = .next t ∧ Ended s t c (noMirror s (readDesc s (c.arg 0x10 2))) 0))

/-- What a mirror's partner sends (R306, R308, R309): a block of the generation being filled lands and counts once, one of a new
generation starts its filling; 100 ms without the partner break a filling mirror; a size told is remembered, or answered by a
configured host; an answer fills the mirror or ends the source with CAPACITY_SHORT; a removal drops the record; requests are
answered; CRCs that agree and restored images end their command; a message for another rank is discarded and counted. -/
def Obligations.MirrorMessagesTakeEffect : Prop :=
  (∀ (s : State) (h : Header) (data : Bytes) (mr : Mirror) (slot : Nat), h.cls = 3 → s.peers.route ≠ none → h.dst = ownRank s →
    slot = h.id.toNat % 256 → mr = getMirror s (256 + slot) → mr.desc ≠ 0 → mr.partner = h.src → mr.state = 2 →
    mr.genF.toNat = field data 0 8 → h.spec.toNat < mr.nblocks →
    (leNat (s.mem.readN ((readDesc s mr.desc).base + 0x40 + 8 * h.spec.toNat) 8) ≠ field data 0 8 →
      ∃ t, exec (.mirrorBlockReceive h data) s = .next t ∧ (getMirror t (256 + slot)).done = mr.done + 1 ∧
        (mr.done + 1 = mr.nblocks → (getMirror t (256 + slot)).state = 1 ∧ (getMirror t (256 + slot)).genC = mr.genF) ∧
        (mr.done + 1 ≠ mr.nblocks → (getMirror t (256 + slot)).state = 2 ∧ (getMirror t (256 + slot)).genC = mr.genC) ∧
        t.cmds = s.cmds ∧ t.queues = s.queues) ∧
    (leNat (s.mem.readN ((readDesc s mr.desc).base + 0x40 + 8 * h.spec.toNat) 8) = field data 0 8 →
      ∃ t, exec (.mirrorBlockReceive h data) s = .next t ∧ t.mem = s.mem ∧ getMirror t (256 + slot) = mr ∧ t.cmds = s.cmds)) ∧
  (∀ (s : State) (h : Header) (data : Bytes) (mr : Mirror) (slot : Nat), h.cls = 3 → s.peers.route ≠ none → h.dst = ownRank s →
    slot = h.id.toNat % 256 → mr = getMirror s (256 + slot) → mr.desc ≠ 0 → mr.partner = h.src → mr.state = 1 →
    mr.genC.toNat ≠ field data 0 8 → h.spec.toNat < mr.nblocks → 1 < mr.nblocks →
    ∃ t, exec (.mirrorBlockReceive h data) s = .next t ∧ (getMirror t (256 + slot)).done = 1 ∧ (getMirror t (256 + slot)).state = 2 ∧
      (getMirror t (256 + slot)).genF.toNat = field data 0 8 ∧ (getMirror t (256 + slot)).genC = mr.genC ∧ t.cmds = s.cmds) ∧
  (∀ (s : State) (h : Header) (data : Bytes), h.cls = 3 → s.peers.route ≠ none → h.dst = ownRank s →
    ((getMirror s (256 + h.id.toNat % 256)).desc = 0 ∨ (getMirror s (256 + h.id.toNat % 256)).partner ≠ h.src) →
    ∃ t, exec (.mirrorBlockReceive h data) s = .next t ∧ t = { s with peers := t.peers } ∧ t.peers.mirrors = s.peers.mirrors) ∧
  (∀ (s : State) (slot : Nat),
    ((getMirror s slot).source = true → (getMirror s slot).state = 2 → ∃ t, exec (.mirrorBreakTimeout slot) s = .next t ∧
      getMirror t slot = { getMirror s slot with state := 3 } ∧ t.mem = s.mem ∧ t.cmds = s.cmds) ∧
    ((getMirror s slot).source = false ∨ (getMirror s slot).state ≠ 2 → exec (.mirrorBreakTimeout slot) s = .next s)) ∧
  (∀ (s : State) (h : Header) (msg : MirrorMsg), h.cls = 3 → (s.peers.route = none ∨ h.dst ≠ ownRank s) →
    exec (.mirrorMessageReceive h msg) s =
      .next { s with peers := { s.peers with bmisroute := min (s.peers.bmisroute + 1) 0xFFFFFFFF } }) ∧
  (∀ (s : State) (h : Header) (images : List Nat) (slot : Nat), h.cls = 3 → s.peers.route ≠ none → h.dst = ownRank s →
    slot = h.id.toNat % 256 → (getMirror s (256 + slot)).desc = 0 →
    ∃ t, exec (.mirrorMessageReceive h (.configSize images)) s = .next t ∧
      getMirror t (256 + slot) = { getMirror s (256 + slot) with partner := h.src, images := images, asked := true } ∧
      (∀ k, k ≠ 256 + slot → getMirror t k = getMirror s k) ∧ t.mem = s.mem ∧ t.cmds = s.cmds) ∧
  (∀ (s : State) (h : Header) (images : List Nat) (slot p : Nat) (mr : Mirror), h.cls = 3 → s.peers.route ≠ none →
    h.dst = ownRank s → slot = h.id.toNat % 256 → mr = getMirror s (256 + slot) → mr.desc ≠ 0 → mr.partner = h.src →
    choosePort s 0 (groupsFor (routeOf s s.peers.epoch) mr.laxis .unknown) = some p →
    ∃ t m, exec (.mirrorMessageReceive h (.configSize images)) s = .next t ∧
      (getPort t p).txQueue = (getPort s p).txQueue ++ [m] ∧ m.cls = 3 ∧
      m.data = classHeader mr.partner (ownRank s) (BitVec.ofNat 32 (slot + 512)) 0 ++
        toLe 8 (regionSize images - (readDesc s mr.desc).half) ∧
      (getMirror t (256 + slot)).nblocks = blocksOf images ∧ (getMirror t (256 + slot)).asked = false ∧ t.cmds = s.cmds) ∧
  (∀ (s : State) (h : Header) (c : Cmd) (slot n : Nat), h.cls = 3 → s.peers.route ≠ none → h.dst = ownRank s →
    slot = h.id.toNat % 256 → configOf s slot = some c →
    (0 < n → ∃ t, exec (.mirrorMessageReceive h (.configAnswer n)) s = .next t ∧
      Ended (dropMirror s slot) t c (capacityShort 2 (gib n)) 0) ∧
    (0 < (getMirror s slot).nblocks → ∃ t, exec (.mirrorMessageReceive h (.configAnswer 0)) s = .next t ∧
      (getMirror t slot).state = 2 ∧ (getMirror t slot).genF = BitVec.ofNat 64 (readDesc s (c.arg 0x10 2)).generation ∧
      (getMirror t slot).asked = false ∧ t.cmds = s.cmds ∧ t.mem = s.mem)) ∧
  (∀ (s : State) (h : Header) (slot p : Nat) (mr : Mirror), h.cls = 3 → s.peers.route ≠ none → h.dst = ownRank s →
    slot = h.id.toNat % 256 → mr = getMirror s (256 + slot) → mr.desc ≠ 0 → mr.partner = h.src →
    (∃ t, exec (.mirrorMessageReceive h .remove) s = .next t ∧ getMirror t (256 + slot) = Mirror.reset ∧
      (∀ k, k ≠ slot → k ≠ 256 + slot → getMirror t k = getMirror s k) ∧ t.mem = s.mem ∧ t.cmds = s.cmds) ∧
    (choosePort s 0 (groupsFor (routeOf s s.peers.epoch) mr.laxis .unknown) = some p →
      (∃ t m, exec (.mirrorMessageReceive h .verifyRequest) s = .next t ∧
        (getPort t p).txQueue = (getPort s p).txQueue ++ [m] ∧ m.data = classHeader mr.partner (ownRank s) (BitVec.ofNat 32 (slot + 1280)) 0 ++
          (List.range mr.nblocks).flatMap (fun b => toLe 4 (crc32c (hostBlock s mr b))) ∧ t = { s with ports := t.ports }) ∧
      (∃ t m, exec (.mirrorMessageReceive h .restoreRequest) s = .next t ∧
        (getPort t p).txQueue = (getPort s p).txQueue ++ [m] ∧ m.data = classHeader mr.partner (ownRank s) (BitVec.ofNat 32 (slot + 1792)) 0 ++
          (toLe 4 mr.state ++ toLe 8 mr.genC.toNat ++ toLe 8 mr.genF.toNat ++ toLe 4 mr.done ++ hostImages s mr) ∧
        t = { s with ports := t.ports }))) ∧
  (∀ (s : State) (h : Header) (values : List Word) (c : Cmd) (slot : Nat), h.cls = 3 → s.peers.route ≠ none → h.dst = ownRank s →
    slot = h.id.toNat % 256 → waiterOf s 0x0604 slot = some c → findCmd s c.cid = some c →
    values = (List.range (getMirror s slot).nblocks).map (fun b => BitVec.ofNat 32 (crc32c
      (localBlock s (readDesc s (c.arg 0x10 2)) (descOr s (c.arg 0x12 2)) (descOr s (c.arg 0x14 2)) b))) →
    ∃ t, exec (.mirrorMessageReceive h (.crcs values)) s = .next t ∧
      Executed s t c (succeeded ((cmdImages s c).sum / 1024) [])) ∧
  (∀ (s : State) (h : Header) (values : List Word) (c : Cmd) (slot b : Nat), h.cls = 3 → s.peers.route ≠ none → h.dst = ownRank s →
    slot = h.id.toNat % 256 → waiterOf s 0x0604 slot = some c → b < (getMirror s slot).nblocks → b < values.length →
    (∀ i, i < b → values.getD i 0 = BitVec.ofNat 32 (crc32c
      (localBlock s (readDesc s (c.arg 0x10 2)) (descOr s (c.arg 0x12 2)) (descOr s (c.arg 0x14 2)) i))) →
    values.getD b 0 ≠ BitVec.ofNat 32 (crc32c
      (localBlock s (readDesc s (c.arg 0x10 2)) (descOr s (c.arg 0x12 2)) (descOr s (c.arg 0x14 2)) b)) →
    ∃ t u, exec (.mirrorMessageReceive h (.crcs values)) s = .next t ∧ Ended u t c (streamDamaged 1 b) 0 ∧
      (getMirror u slot).state = 3 ∧ u.mem = s.mem ∧ u.cmds = s.cmds) ∧
  (∀ (s : State) (h : Header) (genC genF : DWord) (done : Nat) (image : Bytes) (c : Cmd) (slot : Nat), h.cls = 3 →
    s.peers.route ≠ none → h.dst = ownRank s → slot = h.id.toNat % 256 → waiterOf s 0x0603 slot = some c →
    findCmd s c.cid = some c →
    (∃ t r, exec (.mirrorMessageReceive h (.restoreData 1 genC genF done image)) s = .next t ∧ Executed s t c r ∧
      r.status = 0 ∧ .mirrorSet slot 1 genC genC 0 ∈ r.effects ∧
      .generation (c.arg 0x10 2) (BitVec.ofNat 64 genC.toNat) ∈ r.effects) ∧
    (∃ t r, exec (.mirrorMessageReceive h (.restoreData 2 genC genF done image)) s = .next t ∧ Executed s t c r ∧
      r.status = 0 ∧ .mirrorSet slot 2 genC genF done ∈ r.effects ∧
      .generation (c.arg 0x10 2) (BitVec.ofNat 64 genC.toNat) ∈ r.effects) ∧
    (∀ st, st ≠ 1 → st ≠ 2 → ∃ t, exec (.mirrorMessageReceive h (.restoreData st genC genF done image)) s = .next t ∧
      Ended s t c (noMirror s (readDesc s (c.arg 0x10 2))) 0))

/-- Pipelines (R223, R304, R305): PIPE_SEND puts its entry on a port under the next number and waits; the entry lands in slot
number mod slots of the receiver, or is rejected and its number passed over; PIPE_RECV takes the entries in order and gives the
credit back at its commit; a damaged compressed entry ends either command; the acknowledgement ends the sender's, a credit
message adds a credit. The form of the acknowledgement is the model's choice (log 45). Short data messages (R285): the bytes go
to the scratchpad of the logical Mere and address that id names, those beyond its end are dropped, and the token that spec names
is signalled; an Eddy notice changes nothing, and a message for another rank is counted. -/
def Obligations.PipelinesAndShortMessages : Prop :=
  (∀ (s : State) (cid p : Nat) (c : Cmd) (v : Pipe) (d : Desc), Dispatched s cid 0x0206 c → pipeIssue s c = none → v = getPipe s c.pq →
    d = readDesc s (c.arg 0x10 2) →
    ((∃ n, (n, c.cid) ∈ v.sent) → exec (.pipeSend cid) s = .next s) ∧
    ((∀ e ∈ v.sent, e.2 ≠ c.cid) → (d.compressed = true → crcDamage s d = none) →
      choosePort s 0 (groupsFor (routeOf s c.phase) (c.arg 0x18 1) .unknown) = some p →
      ∃ t m, exec (.pipeSend cid) s = .next t ∧ (getPort t p).txQueue = (getPort s p).txQueue ++ [m] ∧ m.cls = 2 ∧
        m.data = classHeader (c.arg 0x14 4) (ownRank s) (BitVec.ofNat 32 c.pq) (BitVec.ofNat 32 (v.nextEntry + c.arg 0x19 1 * 65536)) ++
          entryBytes s d ∧
        getPipe t c.pq = { v with nextEntry := (v.nextEntry + 1) % 65536, sent := v.sent ++ [(v.nextEntry, c.cid)] } ∧
        t.cmds = s.cmds ∧ t.mem = s.mem ∧ t.queues = s.queues) ∧
    (∀ x, (∀ e ∈ v.sent, e.2 ≠ c.cid) → d.compressed = true → crcDamage s d = some x → ∃ t, exec (.pipeSend cid) s = .next t ∧
      Ended (countDamage s (decodeDie s c)) t c (streamDamaged x.2 (x.1.getD 0xFFFF)) 0)) ∧
  (∀ (s : State) (cid : Nat) (c : Cmd) (d : Desc) (v : Pipe), Dispatched s cid 0x0207 c → pipeIssue s c = none → v = getPipe s c.pq →
    d = readDesc s (c.arg 0x10 2) →
    (nextEntryOf s c.pq = none → exec (.pipeRecv cid) s = .next s) ∧
    (∀ e, nextEntryOf s c.pq = some e → e.data ≠ [] → (d.compressed = true → crcDamage (withEntry s d e.data) d = none) →
      ∃ t u, exec (.pipeRecv cid) s = .next t ∧
        u = setPipe s c.pq { v with
          entries := v.entries.erase e, nextTake := v.after (v.rejected.length + 1) ((v.nextTake + 1) % 65536) } ∧
        Executed u t c (succeeded (kib e.data.length) ((recvWrites d e.data).map (fun w => Effect.write w.1 w.2) ++
          [.credit c.pq (c.arg 0x14 4) (c.arg 0x18 1) c.phase]))) ∧
    (∀ e x, nextEntryOf s c.pq = some e → d.compressed = true → crcDamage (withEntry s d e.data) d = some x →
      ∃ t, exec (.pipeRecv cid) s = .next t ∧
        Ended (countDamage s (decodeDie s c)) t c (streamDamaged x.2 (x.1.getD 0xFFFF)) 0)) ∧
  (∀ (s : State) (h : Header) (data : Bytes) (pq slots buf a : Nat) (fits : Bool), Safe s → h.cls = 2 → bit h.spec.toNat 24 = false →
    s.peers.route ≠ none → h.dst = ownRank s → pq = h.id.toNat % 64 → recvConfig s pq data = some (slots, buf, fits) →
    a = (readDesc s buf).home + h.spec.toNat % 65536 % max slots 1 * data.length →
    (bits h.spec.toNat 23 16 = slots → fits = true →
      (∀ e ∈ (getPipe s pq).entries, e.number ≠ h.spec.toNat % 65536 ∨ e.src ≠ h.src) →
      (∀ i, i < data.length → claimAt s.mem.claims (a + i) = none) →
      ∃ t, exec (.pipeEntryArrive h data) s = .next t ∧
        (getPipe t pq).entries = (getPipe s pq).entries ++ [{ src := h.src, number := h.spec.toNat % 65536, data := data }] ∧
        (∀ i, i < data.length → t.mem.read (a + i) = data.getD i 0) ∧
        (∀ x, x < a ∨ a + data.length ≤ x → t.mem.read x = s.mem.read x) ∧ t.cmds = s.cmds) ∧
    (bits h.spec.toNat 23 16 ≠ slots ∨ fits = false → ∃ t, exec (.pipeEntryArrive h data) s = .next t ∧
      getPipe t pq = (getPipe s pq).reject (h.spec.toNat % 65536) ∧ t.mem = s.mem ∧ t.cmds = s.cmds)) ∧
  (∀ (s : State) (h : Header) (data : Bytes), h.cls = 2 → bit h.spec.toNat 24 = false → s.peers.route ≠ none → h.dst = ownRank s →
    recvConfig s (h.id.toNat % 64) data = none →
    ∃ t, exec (.pipeEntryArrive h data) s = .next t ∧ t = { s with peers := t.peers } ∧ t.peers.pipes = s.peers.pipes ∧
      (h, data) ∈ t.peers.inbox) ∧
  (∀ (s : State) (h : Header) (n : Nat), h.cls = 4 → shortKind h.spec = 4 → s.peers.route ≠ none → h.dst = ownRank s →
    (getPipe s (h.id.toNat % 64)).credits = some n →
    ∃ t, exec (.pipeCreditReceive h) s = .next t ∧
      getPipe t (h.id.toNat % 64) = { getPipe s (h.id.toNat % 64) with credits := some (n + 1) } ∧
      t.cmds = s.cmds ∧ t.mem = s.mem) ∧
  (∀ (s : State) (h : Header) (pq cid : Nat) (c : Cmd), h.cls = 2 → s.peers.route ≠ none → h.dst = ownRank s → pq = h.id.toNat % 64 →
    (getPipe s pq).sent.find? (fun e => e.1 == h.spec.toNat % 65536) = some (h.spec.toNat % 65536, cid) → Dispatched s cid 0x0206 c →
    (∃ t u, exec (.pipeEntryAcknowledge h true) s = .next t ∧ u.mem = s.mem ∧ u.cmds = s.cmds ∧
      (getPipe u pq).sent = (getPipe s pq).sent.erase (h.spec.toNat % 65536, cid) ∧ (getPipe u pq).credits = (getPipe s pq).credits ∧
      Executed u t c (succeeded (kib (entrySize s (readDesc s (c.arg 0x10 2)))) [])) ∧
    (∃ t u, exec (.pipeEntryAcknowledge h false) s = .next t ∧ u.mem = s.mem ∧ u.cmds = s.cmds ∧
      (getPipe u pq).credits = (getPipe s pq).credits.map (· + 1) ∧ Ended u t c (badParam 0 2) 0)) ∧
  (∀ (s : State) (h : Header) (data : Bytes) (l a n p : Nat), h.cls = 4 → shortKind h.spec = 0 → s.peers.route ≠ none →
    h.dst = ownRank s → l = bits h.id.toNat 29 22 → a = h.id.toNat % 2 ^ 22 → n = h.spec.toNat % 4096 → p = physOf s l →
    (l % 128 < meresExposed s (l / 128) →
      ∃ t, exec (.shortMessageReceive h data) s = .next t ∧
        (∀ i, i < data.length → a + i < padBytes → mget 0 (getMere t p).pad (a + i) = data.getD i 0) ∧
        (∀ x, (x < a ∨ a + data.length ≤ x ∨ padBytes ≤ x) → mget 0 (getMere t p).pad x = mget 0 (getMere s p).pad x) ∧
        (n ≠ 0 → (getCounter t n).count.toNat = min ((getCounter s n).count.toNat + 1) 0xFFFF) ∧
        (∀ k, k ≠ n → getCounter t k = getCounter s k) ∧ (∀ x, x ≠ p → getMere t x = getMere s x) ∧ t.mem = s.mem ∧
        t.cmds = s.cmds) ∧
    (meresExposed s (l / 128) ≤ l % 128 → ∃ t, exec (.shortMessageReceive h data) s = .next t ∧ t = { s with peers := t.peers }) ∧
    (∀ g : Header, g.cls = 4 → shortKind g.spec = 5 → ∃ t, exec (.shortMessageReceive g data) s = .next t ∧
      t = { s with peers := t.peers }) ∧
    (∀ g : Header, g.cls = 4 → shortKind g.spec = 0 → g.dst ≠ ownRank s → ∃ t, exec (.shortMessageReceive g data) s = .next t ∧
      t.peers.bmisroute = min (s.peers.bmisroute + 1) 0xFFFFFFFF ∧ t = { s with peers := t.peers }))

/-- Eddy (R300-R302): a ring command sends its K and V blocks one position on in the plus direction and waits; a block that has
its free slot is stored there and, where needed, signalled, and goes on while it has hops left; one whose slot is in use waits;
a released slot falls free and takes the signal back; a command whose blocks are all handled and sent ends, a backward one with
its accumulator, acc + own partial. -/
def Obligations.RingBlocksGoRound : Prop :=
  (∀ (s : State) (cid op p : Nat) (c : Cmd) (i : Instr) (k v axis size pos : Nat), Dispatched s cid op c → kvRingIssue s c = none →
    (op = 0x0303 ∧ i = .kvRing cid ∧ k = c.arg 0x10 2 ∧ v = c.arg 0x12 2 ∨
      op = 0x0304 ∧ i = .kvRingBwd cid ∧ mget (0, 0) s.peers.ringDescs (c.arg 0x18 1) = (k, v)) → k ≠ 0 →
    (∀ e ∈ s.peers.eddies, e.cid ≠ cid) → s.peers.inbox = [] → c.arg 0x19 1 = 0 → axis = (rtAxes (route s) 1).headD 0 →
    size = rtDim (route s) axis → pos = rtCoord (route s) axis → 2 ≤ size →
    choosePort s 0 [axisPorts axis true, axisPorts axis false] = some p →
    ∃ t m e, exec i s = .next t ∧ (getPort t p).txQueue = (getPort s p).txQueue ++ [m] ∧ m.cls = 1 ∧
      m.data = classHeader (Config.ringRank axis ((pos + 1) % size)) (ownRank s) (BitVec.ofNat 32 (pos * 65536 + c.arg 0x18 1)) 1 ++
        s.mem.readN (readDesc s k).home (blockSizes s c).1 ++ s.mem.readN (readDesc s v).home (blockSizes s c).2 ∧
      e ∈ t.peers.eddies ∧ e.cid = cid ∧ e.position = pos ∧ e.size = size ∧ e.slots = [] ∧ e.handled = [] ∧
      t.cmds = s.cmds ∧ t.mem = s.mem ∧ t.queues = s.queues) ∧
  (∀ (s : State) (h : Header) (data : Bytes) (c : Cmd) (e : Eddy) (origin hops j other : Nat), h.cls = 1 →
    bit h.spec.toNat 16 = false → s.peers.route ≠ none → h.dst = ownRank s → ringTaker s h = some (c, e) → e.backward = false →
    origin = h.id.toNat / 65536 → hops = h.spec.toNat % 65536 → j = slotOf c hops →
    origin ∉ e.handled → (∀ w ∈ e.waiting, w.1 ≠ origin) → (∀ x ∈ e.slots, x.2.origin ≠ origin) → (∀ x ∈ e.parts, x.1 ≠ origin) →
    other ∈ e.passing → other ≠ origin → other ∉ e.handled →
    (mhas e.slots j = false → hops = totalHops e.size e.causal origin →
      ∃ t e1, exec (.eddyBlockArrive h data) s = .next t ∧ e1 ∈ t.peers.eddies ∧ e1.cid = e.cid ∧
      e1.handled = addTo e.handled origin ∧ t.cmds = s.cmds ∧
      (blockNeeded e.causal origin e.position = true → mget { origin := 0, hops := 0, needed := false } e1.slots j =
        { origin := origin, hops := hops, needed := true }) ∧
      (blockNeeded e.causal origin e.position = true → c.arg 0x1C 2 + j ≠ 0 → (getCounter t (c.arg 0x1C 2 + j)).count.toNat =
        min ((getCounter s (c.arg 0x1C 2 + j)).count.toNat + 1) 0xFFFF)) ∧
    (∀ p, mhas e.slots j = false → hops < totalHops e.size e.causal origin →
      choosePort s 0 [axisPorts e.axis true, axisPorts e.axis false] = some p →
      ∃ t m, exec (.eddyBlockArrive h data) s = .next t ∧ (getPort t p).txQueue = (getPort s p).txQueue ++ [m] ∧ m.cls = 1 ∧
        m.data = classHeader (Config.ringRank e.axis ((e.position + 1) % max e.size 1)) (ownRank s)
          (BitVec.ofNat 32 (origin * 65536 + e.ring)) (BitVec.ofNat 32 ((hops + 1) % 65536)) ++ data) ∧
    (mhas e.slots j = true → ∃ t e1, exec (.eddyBlockArrive h data) s = .next t ∧ e1 ∈ t.peers.eddies ∧
      e1 = { e with waiting := e.waiting ++ [(origin, hops, data)] } ∧ t.mem = s.mem ∧ t.counters = s.counters ∧ t.cmds = s.cmds)) ∧
  (∀ (s : State) (cid slot n : Nat) (c : Cmd) (e : Eddy), eddyOf s cid = some (c, e) → e.backward = false → e.waiting = [] →
    n = c.arg 0x1E 2 + slot → n ≠ 0 →
    (forwarding s cid (mget { origin := 0, hops := 0, needed := false } e.slots slot).origin = true →
      exec (.eddySlotRelease cid slot) s = .next s) ∧
    (mhas e.slots slot = true → (getCounter s n).count ≠ 0 →
      forwarding s cid (mget { origin := 0, hops := 0, needed := false } e.slots slot).origin = false →
      ∃ t e1, exec (.eddySlotRelease cid slot) s = .next t ∧
      e1 ∈ t.peers.eddies ∧ e1 = { e with slots := mdel e.slots slot } ∧
      (getCounter t n).count = (getCounter s n).count - 1 ∧ t.mem = s.mem ∧ t.cmds = s.cmds) ∧
    ((getCounter s n).count = 0 → exec (.eddySlotRelease cid slot) s = .next s)) ∧
  (∀ (s : State) (h : Header) (data : Bytes) (c : Cmd) (e : Eddy), h.cls = 1 → bit h.spec.toNat 16 = true →
    s.peers.route ≠ none → h.dst = ownRank s → ringTaker s h = some (c, e) → e.backward = true → h.id.toNat / 65536 = e.position →
    e.position ∉ e.handled → e.accs = [] → e.parts = [] → stillSending s e.cid = false → (∀ p ∈ e.passing, p ∈ e.handled) →
    wordBytes (addPartial (wordsIn 4 (data.drop 4)) (partialNow s c)) ≠ [] →
    ∃ t u, exec (.eddyAccumulatorArrive h data) s = .next t ∧ u.mem = s.mem ∧ u.cmds = s.cmds ∧
      Executed u t c (succeeded (eddyWork s c e)
        [.write (readDesc s (c.arg 0x12 2)).home (wordBytes (addPartial (wordsIn 4 (data.drop 4)) (partialNow s c)))])) ∧
  (∀ (s : State) (cid : Nat) (c : Cmd) (e : Eddy), s.peers.eddies.find? (fun x => x.cid == cid) = some e →
    (Dispatched s cid 0x0303 c → e.backward = false → e.finished = true → stillSending s e.cid = false →
      ∃ t, exec (.kvRing cid) s = .next t ∧ Executed (dropEddy s e.cid) t c (succeeded (eddyWork s c e) [])) ∧
    (Dispatched s cid 0x0304 c → e.backward = true → e.finished = true → stillSending s e.cid = false →
      (∀ a ∈ e.accs, a.1 ≠ e.position) → wordBytes (partialNow s c) ≠ [] →
      ∃ t, exec (.kvRingBwd cid) s = .next t ∧ Executed (dropEddy s e.cid) t c (succeeded (eddyWork s c e)
        [.write (readDesc s (c.arg 0x12 2)).home (wordBytes (partialNow s c))])) ∧
    (e.finished = false → Dispatched s cid 0x0303 c → ∃ t, exec (.kvRing cid) s = .next t ∧ e ∈ t.peers.eddies ∧ t.cmds = s.cmds ∧
      t.mem = s.mem) ∧
    (e.finished = false → Dispatched s cid 0x0304 c → ∃ t, exec (.kvRingBwd cid) s = .next t ∧ e ∈ t.peers.eddies ∧ t.cmds = s.cmds ∧
      t.mem = s.mem))

/-- Collectives (R288, R290, R291, R293, R294, R298): REDUCE_SCATTER and ALL_GATHER send their first stage's inputs and wait for
the others'; an input, a gathered piece or a close word is taken once and the collective waits on while others are missing; the
last input of the last stage gives the totals and sends the close word, the last close word ends the reduction with its verdict,
the last piece ends the gather; a piece of another generation ends it with SHARD_VERSION; a message that comes before its
command is kept. Windows, standbys (R292, R294, R297): once W1 is over the backups of the missing primaries are asked; once W2
is over the collective ends with PEER_TIMEOUT, an owner telling the others, but an excluded rank's copy that did not come is
dropped; pulls are answered and releases heard; a standby that has heard from all ends OK, and one that has not within 2 × W2
with PEER_TIMEOUT. -/
def Obligations.CollectivesTakeTheirInputs : Prop :=
  (∀ (s : State) (cid : Nat) (c : Cmd) (co : Coll), collIssue s c = none → (∀ x ∈ s.peers.colls, x.cid ≠ cid) → s.peers.inbox = [] →
    co = newColl s c → (sendAll 0 (firstMsgs s c co) s).2 = none → missingRanks s c co co.stage ≠ [] →
    (Dispatched s cid 0x0301 c → bit (c.arg 0x19 1) 0 = false → ∃ t, exec (.reduceScatter cid) s = .next t ∧
      t.peers.colls = s.peers.colls ++ [co] ∧ t.ports = (sendAll 0 (firstMsgs s c co) s).1.ports ∧
      t.cmds = s.cmds ∧ t.mem = s.mem ∧ t.queues = s.queues) ∧
    (Dispatched s cid 0x0302 c → bit (c.arg 0x19 1) 0 = false → (readDesc s (c.arg 0x10 2)).generation ≠ 2 ^ 64 - 1 →
      ∃ t, exec (.allGather cid) s = .next t ∧
        t.peers.colls = s.peers.colls ++ [co] ∧ t.ports = (sendAll 0 (firstMsgs s c co) s).1.ports ∧
        t.cmds = s.cmds ∧ t.mem = s.mem ∧ t.queues = s.queues)) ∧
  (∀ (s : State) (cid : Nat) (c : Cmd) (e : Err), (∀ x ∈ s.peers.colls, x.cid ≠ cid) → collIssue s c = some e →
    (Dispatched s cid 0x0301 c → ∃ t, exec (.reduceScatter cid) s = .next t ∧ Ended s t c e 0) ∧
    (Dispatched s cid 0x0302 c → ∃ t, exec (.allGather cid) s = .next t ∧ Ended s t c e 0)) ∧
  (∀ (s : State) (h : Header) (data : Bytes) (c : Cmd) (co co1 : Coll) (x : CollInput) (k seg : Nat), h.cls = 0 →
    s.peers.route ≠ none → h.dst = ownRank s → collById s h.id = some (c, co) → co.collId = h.id → co.standby = false → co.gather = false →
    specKind h.spec = 0 → k = co.stageOf (bits h.spec.toNat 17 16) → seg = h.spec.toNat % 65536 → co.inRing k h.src = true →
    (∀ y ∈ co.inputs, y.stage = k → y.src = h.src → y.backup = false → y.segment ≠ seg) → co.settled = false →
    (k = 0 → co.stage = 0 ∧ co.excluded ≠ some h.src) → co.copyIn (collWidth s c) k h.src = false →
    x = { stage := k, src := h.src, segment := seg, backup := false, nonfinite := bits h.spec.toNat 29 18,
          values := wordsIn (collWidth s c) data, generation := 0 } →
    co1 = { co with inputs := co.inputs ++ [x] } →
    (missingRanks s c co1 co.stage ≠ [] → ∃ t, exec (.basinInputReceive h data) s = .next t ∧
      t.peers.colls = s.peers.colls.filter (fun y => y.cid != co.cid) ++ [co1] ∧ t.cmds = s.cmds ∧ t.mem = s.mem ∧
      t.ports = s.ports ∧ t.queues = s.queues) ∧
    (missingRanks s c co1 co.stage = [] → co.stage + 1 = co.dims.length → co.excluded = none → co.closes = [] →
      (∃ e ∈ co.entries, e.rank ≠ co.own) → s.peers.inbox = [] →
      (∀ w, (sendAll 0 (co.others.map (fun r => shortMsg s c co 1 r w)) s).2 = none) →
      ∃ t co2, exec (.basinInputReceive h data) s = .next t ∧ co2 ∈ t.peers.colls ∧ co2.cid = co.cid ∧ co2.settled = true ∧
        co2.totals = stageTotals s c co1 co.stage ∧ co2.closes = [co2.ownClose] ∧ t.cmds = s.cmds ∧ t.mem = s.mem)) ∧
  (∀ (s : State) (h : Header) (data : Bytes) (c : Cmd) (co co1 : Coll) (x : CollInput) (k seg : Nat), h.cls = 0 →
    s.peers.route ≠ none → h.dst = ownRank s → collById s h.id = some (c, co) → co.collId = h.id → co.standby = false → co.gather = true →
    specKind h.spec = 1 → k = co.stageOf (bits h.spec.toNat 17 16) → seg = h.spec.toNat % 65536 → co.inRing k h.src = true →
    (∀ y ∈ co.inputs, y.stage = k → y.src = h.src → y.backup = false → y.segment ≠ seg) → co.copyIn (collWidth s c) k h.src = false →
    x = { stage := k, src := h.src, segment := seg, backup := false, nonfinite := bits h.spec.toNat 29 18,
          values := wordsIn (collWidth s c) (data.drop 8), generation := field data 0 8 } →
    co1 = { co with inputs := co.inputs ++ [x] } → (∀ y ∈ co.inputs, y.generation = co.generation) → co.generation ≠ 2 ^ 64 - 1 →
    (x.generation = co.generation → missingRanks s c co1 co.stage ≠ [] →
      ∃ t, exec (.gatheredPieceReceive h data) s = .next t ∧
        t.peers.colls = s.peers.colls.filter (fun y => y.cid != co.cid) ++ [co1] ∧ t.cmds = s.cmds ∧ t.mem = s.mem) ∧
    (x.generation = co.generation → missingRanks s c co1 co.stage = [] → co.stage = 0 →
      ∃ t u r, exec (.gatheredPieceReceive h data) s = .next t ∧ u.cmds = s.cmds ∧ u.mem = s.mem ∧ Executed u t c r ∧
        signals r.status = true ∧
        .generation (readDesc s (c.arg 0x12 2)).id (BitVec.ofNat 64 co.generation) ∈ r.effects) ∧
    (x.generation ≠ co.generation → ∃ t u, exec (.gatheredPieceReceive h data) s = .next t ∧ u.cmds = s.cmds ∧ u.mem = s.mem ∧
      Ended u t c (shardVersion (c.arg 0x10 2) x.generation) 0)) ∧
  (∀ (s : State) (h : Header) (data : Bytes) (c : Cmd) (co co1 : Coll) (l : List CloseWord), h.cls = 4 → shortKind h.spec = 1 →
    s.peers.route ≠ none → h.dst = ownRank s → collById s h.id = some (c, co) → co.collId = h.id → co.standby = false → co.gather = false →
    (∃ e ∈ co.entries, e.rank = h.src) → (∀ w ∈ co.closes, w.src ≠ h.src) → co.settled = true →
    co1 = { co with closes := co.closes ++ [closeOf h.src data] } → l = co1.closesInOrder →
    (l.length < co.entries.length → ∃ t, exec (.closeWordReceive h data) s = .next t ∧
      t.peers.colls = s.peers.colls.filter (fun y => y.cid != co.cid) ++ [co1] ∧ t.cmds = s.cmds ∧ t.mem = s.mem ∧
      t.ports = s.ports) ∧
    (co.entries.length ≤ l.length → (∀ w ∈ l, w.failed = false) →
      (distinctOff l ≠ 1 ∨ co.excluded ≠ none ∨ s.job.policy ≠ 1 ∨ co.size 0 ≤ 1) →
      ∃ t u r low, exec (.closeWordReceive h data) s = .next t ∧ u.cmds = s.cmds ∧ u.mem = s.mem ∧ Executed u t c r ∧
        .verdict (decide (0 < distinctOff l)) (co.excluded != none && !decide (0 < distinctOff l)) (l.any (fun w => w.backup))
          (bit (c.arg 0x19 1) 1) low (distinctOff l) co.ownBad ∈ r.effects ∧
        (bit (c.arg 0x19 1) 2 = true → .norm (c.arg 0x1A 1) (stageSum (l.map (fun w => w.q))) ∈ r.effects) ∧
        (∀ x ∈ shardWrite s c co, x ∈ r.effects)) ∧
    (co.entries.length ≤ l.length → (∃ w ∈ l, w.failed = true) → ∃ t, exec (.closeWordReceive h data) s = .next t ∧
      findCmd t c.cid = none ∧ t.peers.btimeout = min (s.peers.btimeout + 1) 0xFFFFFFFF)) ∧
  (∀ (s : State) (h : Header) (data : Bytes) (t : State), s.peers.route ≠ none → h.dst = ownRank s → collById s h.id = none →
    t = { s with peers := { s.peers with inbox := s.peers.inbox.erase (h, data) ++ [(h, data)] } } →
    (h.cls = 0 → specKind h.spec ≠ 1 → exec (.basinInputReceive h data) s = .next t) ∧
    (h.cls = 0 → specKind h.spec = 1 → exec (.gatheredPieceReceive h data) s = .next t) ∧
    (h.cls = 4 → shortKind h.spec = 1 → exec (.closeWordReceive h data) s = .next t) ∧
    (h.cls = 4 → shortKind h.spec = 2 → exec (.pullRequestReceive h data) s = .next t) ∧
    (h.cls = 4 → shortKind h.spec = 3 → exec (.releaseWordReceive h data) s = .next t)) ∧
  (∀ (s : State) (cid : Nat) (c : Cmd) (co co1 : Coll) (ps : List (Nat × Nat)), collOf s cid = some (c, co) → co.standby = false →
    (windowOver s co (w1Of c) = false → exec (.collectiveW1Expiry cid) s = .next s) ∧
    (windowOver s co (w1Of c) = true → co.settled = false → badGeneration co = none → ps = w1Pulls s c co →
      co1 = { co with pulled := co.pulled ++ ps.map (fun p => p.1) } →
      (sendAll 0 (ps.map (fun p => shortMsg s c co1 2 p.2 (pullPayload co1 p.1))) s).2 = none → missingRanks s c co1 co.stage ≠ [] →
      ∃ t, exec (.collectiveW1Expiry cid) s = .next t ∧
        t.peers.colls = s.peers.colls.filter (fun y => y.cid != co.cid) ++ [co1] ∧
        t.ports = (sendAll 0 (ps.map (fun p => shortMsg s c co1 2 p.2 (pullPayload co1 p.1))) s).1.ports ∧ t.cmds = s.cmds ∧
        t.mem = s.mem)) ∧
  (∀ (s : State) (cid : Nat) (c : Cmd) (co : Coll), collOf s cid = some (c, co) → co.standby = false →
    (windowOver s co (w2Of c) = false → exec (.collectiveW2Expiry cid) s = .next s) ∧
    (∀ r, windowOver s co (w2Of c) = true → co.settled = true → co.others.find? (fun r => !co.closes.any (fun w => w.src == r)) = some r →
      ∃ t u, exec (.collectiveW2Expiry cid) s = .next t ∧ Ended u t c (rankTimeout s c co (co.dims.length - 1) r) 0 ∧
        u.peers.btimeout = min (s.peers.btimeout + 1) 0xFFFFFFFF ∧ u.cmds = s.cmds ∧ u.mem = s.mem) ∧
    (windowOver s co (w2Of c) = true → co.settled = false → co.excluded ≠ none → co.stage = 0 →
      exec (.collectiveW2Expiry cid) s = .next (runColl s c { co with rescale := true })) ∧
    (∀ r l, windowOver s co (w2Of c) = true → co.settled = false → (co.excluded = none ∨ co.stage ≠ 0) →
      missingRanks s c co co.stage = r :: l →
      ∃ t u, exec (.collectiveW2Expiry cid) s = .next t ∧ Ended u t c (rankTimeout s c co co.stage r) 0 ∧
        u.peers.btimeout = min (s.peers.btimeout + 1) 0xFFFFFFFF ∧ u.cmds = s.cmds ∧ u.mem = s.mem ∧
        (co.gather = true → u.ports = s.ports))) ∧
  (∀ (s : State) (h : Header) (data : Bytes) (c : Cmd) (co : Coll), s.peers.route ≠ none → h.dst = ownRank s → h.cls = 4 →
    collById s h.id = some (c, co) →
    (shortKind h.spec = 2 → co.gather = false → co.standby = false →
      (sendAll 0 (copyMsgs s c { co with heard := addTo co.heard h.src } h.src) s).2 = none →
      ∃ t, exec (.pullRequestReceive h data) s = .next t ∧
        t.peers.colls = s.peers.colls.filter (fun y => y.cid != co.cid) ++ [{ co with heard := addTo co.heard h.src }] ∧
        t.ports = (sendAll 0 (copyMsgs s c { co with heard := addTo co.heard h.src } h.src) s).1.ports ∧ t.cmds = s.cmds ∧ t.mem = s.mem) ∧
    (shortKind h.spec = 2 → co.gather = true → (sendAll 0 (mirrorPiece s co c h.src data) s).2 = none →
      ∃ t, exec (.pullRequestReceive h data) s = .next t ∧ t.ports = (sendAll 0 (mirrorPiece s co c h.src data) s).1.ports ∧
        t.peers.colls = s.peers.colls ∧ t.cmds = s.cmds ∧ t.mem = s.mem) ∧
    (shortKind h.spec = 3 → co.standby = false → ∃ t, exec (.releaseWordReceive h data) s = .next t ∧ t = { s with peers := t.peers } ∧
      t.peers.colls = s.peers.colls) ∧
    (shortKind h.spec = 3 → co.standby = true → (∀ e ∈ co.entries, e.rank = h.src ∨ e.rank ∈ co.heard) →
      ∃ t u, exec (.releaseWordReceive h data) s = .next t ∧ Executed u t c (succeeded 0 []) ∧ u.cmds = s.cmds ∧ u.mem = s.mem) ∧
    (shortKind h.spec = 3 → co.standby = true → (∃ e ∈ co.entries, e.rank ≠ h.src ∧ e.rank ∉ co.heard) →
      ∃ t, exec (.releaseWordReceive h data) s = .next t ∧
        t.peers.colls = s.peers.colls.filter (fun y => y.cid != co.cid) ++ [{ co with heard := addTo co.heard h.src }] ∧
        t.cmds = s.cmds ∧ t.mem = s.mem ∧ t.ports = s.ports)) ∧
  (∀ (s : State) (cid : Nat) (c : Cmd) (co : Coll), collOf s cid = some (c, co) → co.standby = true →
    (microsOn s 5 < co.since + 2 * w2Of c → exec (.standbyTimeout cid) s = .next s) ∧
    (∀ e : RankEntry, co.since + 2 * w2Of c ≤ microsOn s 5 → co.entries.find? (fun e => !co.heard.contains e.rank) = some e →
      ∃ t u port, exec (.standbyTimeout cid) s = .next t ∧ Ended u t c (peerTimeout port 3 e.rank) 0 ∧
        u.peers.btimeout = min (s.peers.btimeout + 1) 0xFFFFFFFF ∧ u.cmds = s.cmds ∧ u.mem = s.mem))

/-! ## Ingest -/

/-- Ingest commands (R316, R321, R331-R334). While S is up, opening or closing a stream, seeking and loading a dictionary reach
their commit with the effect their parameters name, a failing check ends them; INGEST_BATCH of no batches writes nothing, one of
some batches holds its stream; while S is not up each of these four waits (R254). INGEST_RELEASE frees its queue slot whether S
is up or not (R255; the model's reading, log 91). -/
def Obligations.IngestCommandsTakeEffect : Prop :=
  (∀ (s : State) (cid : Nat) (c : Cmd), Dispatched s cid 0x0401 c → springUp s = true → ingestOpenIssue s c = none →
    signals (ingestOpenRun s c).result.status = true →
    ∃ t, exec (.ingestOpen cid) s = .next t ∧ Executed s t c (ingestOpenRun s c).result) ∧
  (∀ (s : State) (cid : Nat) (c : Cmd), Dispatched s cid 0x0403 c → ingestReleaseIssue s c = none →
    ∃ t, exec (.ingestRelease cid) s = .next t ∧ Executed s t c (succeeded 0 [.release (c.arg 0x10 1) (c.arg 0x11 1)])) ∧
  (∀ (s : State) (cid : Nat) (c : Cmd), Dispatched s cid 0x0404 c → springUp s = true → ingestSeekIssue s c = none →
    ∃ t, exec (.ingestSeek cid) s = .next t ∧ Executed s t c (succeeded 0 [.seek (c.arg 0x10 1) (BitVec.ofNat 64 (c.arg 0x18 8)) (c.word 0x20)
        (if bit (c.arg 0x11 1) 0 then some (BitVec.ofNat 64 (c.arg 0x28 8)) else none)])) ∧
  (∀ (s : State) (cid : Nat) (c : Cmd), Dispatched s cid 0x0405 c → springUp s = true → dictLoadIssue s c = none →
    signals (dictLoadRun s c).result.status = true →
    ∃ t, exec (.dictLoad cid) s = .next t ∧ Executed s t c (dictLoadRun s c).result) ∧
  (∀ (s : State) (cid : Nat) (c : Cmd), Dispatched s cid 0x0402 c → springUp s = true → ingestBatchIssue s c = none →
    c.arg 0x18 4 = 0 →
    ∃ t, exec (.ingestBatch cid) s = .next t ∧ Executed s t c zeroExtent) ∧
  (∀ (s : State) (cid : Nat) (c : Cmd), Dispatched s cid 0x0402 c → springUp s = true → ingestBatchIssue s c = none →
    c.arg 0x18 4 ≠ 0 →
    ∃ t, exec (.ingestBatch cid) s = .next t ∧ findCmd t cid = some { c with holds := true } ∧
      t = { s with cmds := t.cmds }) ∧
  (∀ (s : State) (cid op : Nat) (c : Cmd) (e : Err), Dispatched s cid op c → signals e.1 = false →
    (op = 0x0403 → ingestReleaseIssue s c = some e → ∃ t, exec (.ingestRelease cid) s = .next t ∧ Ended s t c e 0) ∧
    (springUp s = true →
      (op = 0x0401 → ingestOpenIssue s c = some e → ∃ t, exec (.ingestOpen cid) s = .next t ∧ Ended s t c e 0) ∧
      (op = 0x0402 → ingestBatchIssue s c = some e → ∃ t, exec (.ingestBatch cid) s = .next t ∧ Ended s t c e 0) ∧
      (op = 0x0404 → ingestSeekIssue s c = some e → ∃ t, exec (.ingestSeek cid) s = .next t ∧ Ended s t c e 0) ∧
      (op = 0x0405 → dictLoadIssue s c = some e → ∃ t, exec (.dictLoad cid) s = .next t ∧ Ended s t c e 0))) ∧
  (∀ (s : State) (cid : Nat), springUp s = false →
    exec (.ingestOpen cid) s = .next s ∧ exec (.ingestSeek cid) s = .next s ∧ exec (.dictLoad cid) s = .next s ∧
    exec (.ingestBatch cid) s = .next s)

/-- Batches (R330, R331, R335, R339): assembly starts for a running INGEST_BATCH into a free queue slot, whose bytes become
undefined; a full batch commits: its outputs and its manifest are written and no other byte, the queue slot is held, the ready
counter and the command's own counter are signalled and the command is over after its last batch, both only while K has its main
clock (R255); the deadline replaces every late slot and closes a packed one, and an empty source ends the command. -/
def Obligations.BatchesAreAssembledAndCommitted : Prop :=
  (∀ (s : State) (n j : Nat) (c : Cmd) (g : Ingest), n < 16 → batchCmd s n = some c → springUp s = true → g = getIngest s n →
    g.opened = true → g.asm = none → j = g.batch % max (cQ g.cfg) 1 →
    (mhas g.held j = false → ∃ t, exec (.batchAssemblyStart n) s = .next t ∧
      getIngest t n = { g with asm := some { cid := c.cid, batch := g.batch, firstPos := g.pos, rsvTaken := [], slots := [] } } ∧
      (∀ x, Outside (batchRanges s g.cfg j) x → t.mem.read x = s.mem.read x) ∧
      (∀ x, Inside (batchRanges s g.cfg j) x → ∃ k, t.mem.read x = Config.freeByte k x) ∧ t.cmds = s.cmds ∧ t.queues = s.queues) ∧
    (mhas g.held j = true → exec (.batchAssemblyStart n) s = .next s)) ∧
  (∀ (s : State) (n j r m : Nat) (c : Cmd) (g : Ingest) (a : Assembly), Safe s → n < 16 → batchCmd s n = some c → springUp s = true →
    g = getIngest s n → g.asm = some a → a.slots.length = cB g.cfg → j = g.batch % max (cQ g.cfg) 1 → r = field g.cfg 0xC 2 + j →
    m = (readDesc s (field g.cfg 0x14 2 + j)).base → findCmd s c.cid = some c →
    ((∀ v ∈ a.slots, v.done = true) → (∃ t, exec (.batchCommit n) s = .next t ∧
      (∀ x, claimAt s.mem.claims x = none →
        t.mem.read x = (putAll (batchWrites s g a.slots ++ [(m, manifest n g a)]) s).mem.read x) ∧
      (∀ x, claimAt s.mem.claims x = none →
        Outside ((batchWrites s g a.slots ++ [(m, manifest n g a)]).map (fun w => (w.1, w.2.length))) x →
        t.mem.read x = s.mem.read x) ∧
      (∀ i, i < (manifest n g a).length → claimAt s.mem.claims (m + i) = none →
        t.mem.read (m + i) = (manifest n g a).getD i 0) ∧
      (∀ x, x ≠ n → getIngest t x = getIngest s x)) ∧
     (s.ctl.noMainClock = true → ∃ t, exec (.batchCommit n) s = .next t ∧ (getIngest t n).batch = g.batch + 1 ∧
      mget 0 (getIngest t n).held j = a.batch ∧ t.counters = s.counters ∧ t.queues = s.queues ∧
      ∃ d, findCmd t c.cid = some d ∧ d.batches = c.batches + 1 ∧ d.stage = c.stage)) ∧
    ((∀ v ∈ a.slots, v.done = true) → s.ctl.noMainClock = false → ∃ t, exec (.batchCommit n) s = .next t ∧ (getIngest t n).asm = none ∧
      (getIngest t n).batch = g.batch + 1 ∧ mget 0 (getIngest t n).held j = a.batch ∧
      (getIngest t n).srcHead = (g.pos >>> 32).setWidth 32 ∧
      (r ≠ 0 → r ≠ c.signal → (getCounter t r).count.toNat = min ((getCounter s r).count.toNat + 1) 0xFFFF) ∧
      (c.signal ≠ 0 → r ≠ c.signal → (getCounter t c.signal).count.toNat = min ((getCounter s c.signal).count.toNat + (c.sigInc + 1)) 0xFFFF) ∧
      (r ≠ 0 → r = c.signal → (getCounter t r).count.toNat = min ((getCounter s r).count.toNat + (c.sigInc + 2)) 0xFFFF) ∧
      (∀ k, k ≠ r → k ≠ c.signal → getCounter t k = getCounter s k) ∧
      (c.batches + 1 = c.arg 0x18 4 → findCmd t c.cid = none) ∧
      (c.batches + 1 ≠ c.arg 0x18 4 → ∃ d, findCmd t c.cid = some d ∧ d.batches = c.batches + 1 ∧ d.stage = c.stage)) ∧
    ((∃ v ∈ a.slots, v.done = false) → exec (.batchCommit n) s = .next s)) ∧
  (∀ (s : State) (n : Nat) (g : Ingest) (a : Assembly), n < 16 → springUp s = true → g = getIngest s n → g.asm = some a →
    (cB g.cfg ≤ a.slots.length ∨ entryReady g.srcTail g.pos = true → ∃ t b, exec (.batchDeadline n) s = .next t ∧
      (getIngest t n).asm = some b ∧ b.slots.length = a.slots.length ∧ (∀ v ∈ b.slots, v.fields = []) ∧ b.firstPos = a.firstPos ∧
      (cPacked g.cfg = true → a.slots.length = cB g.cfg → ∀ v ∈ b.slots, v.done = true) ∧
      (∀ x, x ≠ n → getIngest t x = getIngest s x) ∧ t.mem = s.mem ∧ t.cmds = s.cmds) ∧
    (a.slots.length < cB g.cfg → entryReady g.srcTail g.pos = false → ∀ c, batchCmd s n = some c →
      ∃ t u k, exec (.batchDeadline n) s = .next t ∧ Ended u t c (ingestStarved n k) ((c.result.map (·.work)).getD 0) ∧
        (getIngest t n).asm = none ∧ (getIngest t n).pos = a.firstPos ∧ u.mem = s.mem ∧ u.cmds = s.cmds))

/-- Records and fields (R311, R315, R320, R336-R338): a good record takes the next slot and the position moves behind it; a
failed one is replaced by the head of the reserve pool, or padded with an empty pool; a decoded field is put into its output,
one that fails is replaced; a first expiry goes on at the cheap profile, a second replaces; packed documents fill a slot's
places in turn, a document too long for what is left closes it and opens the next, a failing one is dropped (R329); a refill
adds a sample to the pool's end and passes over a failed record, the expired budgets of its fields counted; written decoder
shares apply at a window. -/
def Obligations.RecordsFillTheSlots : Prop :=
  (∀ (s : State) (n : Nat) (g : Ingest) (a : Assembly) (nx : NextRecord), n < 16 → springUp s = true → g = getIngest s n →
    g.asm = some a → a.slots.length < cB g.cfg → cPacked g.cfg = false →
    nx = nextRecord s g.src (field g.cfg 0x1A 1) g.srcTail g.pos →
    (nx = .empty → ∃ t, exec (.recordRead n) s = .next t ∧ getIngest t n = { g with sourceEmpty := true } ∧ t.mem = s.mem) ∧
    (∀ r p, nx = .good r p →
      firstFail ((List.range (cOutputs g.cfg)).map (fun i => (i, fillOutput s g r i))) = none →
      ∃ t v, exec (.recordRead n) s = .next t ∧ getIngest t n = { g with pos := p, asm := some { a with slots := a.slots ++ [v] } } ∧
        v.sampleId = r.id ∧ v.position = g.pos ∧ v.docs = 1 ∧ v.reason = 0 ∧ t.mem = s.mem ∧ t.cmds = s.cmds) ∧
    (∀ reason id p x l, nx = .bad reason id p → g.pool = x :: l →
      ∃ t v, exec (.recordRead n) s = .next t ∧ (getIngest t n).pos = p ∧ (getIngest t n).pool = l ∧
        (getIngest t n).asm = some { a with rsvTaken := a.rsvTaken ++ [x], slots := a.slots ++ [v] } ∧ v.reason = reason ∧
        v.sampleId = id ∧ v.replId = x.id ∧ v.outputs = x.outputs ∧ v.done = true ∧
        (getIngest t n).srepl = min (g.srepl + 1) 0xFFFFFFFF ∧ t.mem = s.mem ∧ t.cmds = s.cmds) ∧
    (∀ reason id p, nx = .bad reason id p → g.pool = [] →
      ∃ t v, exec (.recordRead n) s = .next t ∧ (getIngest t n).pos = p ∧ (getIngest t n).reserveEmpty = true ∧
        (getIngest t n).asm = some { a with slots := a.slots ++ [v] } ∧ v.reason = reason ∧ v.sflags = 2 ∧ v.done = true ∧
        (getIngest t n).srepl = min (g.srepl + 1) 0xFFFFFFFF ∧ (getIngest t n).spad = min (g.spad + 1) 0xFFFFFFFF ∧ t.mem = s.mem) ∧
    (∀ p k x l, nx = .framing p k → g.pool = x :: l →
      ∃ t v, exec (.recordRead n) s = .next t ∧ (getIngest t n).pos = p ∧ (getIngest t n).frameLoss = true ∧
        (getIngest t n).skipBytes = g.skipBytes + k ∧ (getIngest t n).asm = some { a with
          rsvTaken := a.rsvTaken ++ [x], slots := a.slots ++ [v] } ∧ v.reason = 1 ∧ v.replId = x.id ∧ t.mem = s.mem ∧ t.cmds = s.cmds) ∧
    (∀ p, nx = .skip p → ∃ t, exec (.recordRead n) s = .next t ∧ getIngest t n = { g with pos := p } ∧ t.mem = s.mem ∧ t.cmds = s.cmds)) ∧
  (∀ (s : State) (n : Nat) (g : Ingest) (a : Assembly) (nx : NextRecord) (k : Nat × BatchSlot), n < 16 → springUp s = true →
    g = getIngest s n → g.asm = some a → (a.slots.length < cB g.cfg ∨ ∃ v ∈ a.slots, v.done = false) → cPacked g.cfg = true →
    nx = nextRecord s g.src (field g.cfg 0x1A 1) g.srcTail g.pos → k = packingSlot a g.pos →
    (nx = .empty → ∃ t, exec (.recordRead n) s = .next t ∧ getIngest t n = { g with sourceEmpty := true } ∧ t.mem = s.mem) ∧
    (∀ r p f l, nx = .good r p → r.pick 1 (oe g.cfg 0 1 1) = some f → f.len ≠ 0 → f.codec = 0 →
      l = wrapped g.cfg (tokenise (dictOf s g) f.data) →
      (l.length ≤ oLen g.cfg 0 - (packed k.2).1.length / 4 ∨ (packed k.2).1.length / 4 = 0 →
        ∃ t, exec (.recordRead n) s = .next t ∧ t.mem = s.mem ∧ t.cmds = s.cmds ∧
          getIngest t n = { g with pos := p, asm := some { a with slots := putSlot a.slots k.1 (addDoc g.cfg k.2 r.id g.pos l) } }) ∧
      (oLen g.cfg 0 - (packed k.2).1.length / 4 < l.length → (packed k.2).1.length / 4 ≠ 0 →
        ∃ t, exec (.recordRead n) s = .next t ∧ t.mem = s.mem ∧ t.cmds = s.cmds ∧
          getIngest t n = { g with asm := some { a with slots := putSlot a.slots k.1 (closeSlot g.cfg k.2) } })) ∧
    (∀ reason id p, nx = .bad reason id p →
      ∃ t, exec (.recordRead n) s = .next t ∧ (getIngest t n).pos = p ∧ (getIngest t n).pool = g.pool ∧
        (getIngest t n).srepl = g.srepl ∧ t.mem = s.mem ∧ t.cmds = s.cmds ∧
        (getIngest t n).asm = some { a with slots := putSlot a.slots k.1 { k.2 with sflags := k.2.sflags ||| 16 } })) ∧
  (∀ (s : State) (n slot out cycles : Nat) (m : Media) (g : Ingest) (a : Assembly) (v : BatchSlot) (f : LaneField), n < 16 →
    springUp s = true → g = getIngest s n → laneField g slot out = some (a, v, f) → f.output = out →
    (∀ r, prepareMedia g.cfg out s.freeCtr v.sampleId g.epoch g.seed m = .ok r →
      ∃ t w, exec (.fieldDecodeDone n slot out m cycles) s = .next t ∧
        getIngest t n = { g with asm := some { a with slots := a.slots.set slot w } } ∧
        mget ([], []) w.outputs out = (r.1, r.2.1) ∧ w.fields = v.fields.filter (fun x => x.output != out) ∧
        w.done = w.fields.isEmpty ∧ t.mem = s.mem ∧ t.cmds = s.cmds) ∧
    (∀ e x l, prepareMedia g.cfg out s.freeCtr v.sampleId g.epoch g.seed m = .error e → a.slots[slot]? = some v → g.pool = x :: l →
      ∃ t w, exec (.fieldDecodeDone n slot out m cycles) s = .next t ∧ (getIngest t n).pool = l ∧
        (getIngest t n).asm = some { a with rsvTaken := a.rsvTaken ++ [x], slots := a.slots.set slot w } ∧ w.reason = e ∧
        w.replId = x.id ∧ w.done = true ∧ t.mem = s.mem) ∧
    (∀ b, f.expiries = 0 → cheapBit f.codec = some b → ∃ t w, exec (.decodeBudgetExpiry n slot out) s = .next t ∧
      getIngest t n = { g with
        sexpire := min (g.sexpire + 1) 0xFFFFFFFF, scheap := min (g.scheap + 1) 0xFFFFFFFF
        asm := some { a with slots := a.slots.set slot w } } ∧
      w.profile = v.profile ||| b ∧ w.done = v.done ∧ (∀ x ∈ w.fields, x.output = out → x.expiries = 1) ∧ t.mem = s.mem ∧ t.cmds = s.cmds) ∧
    (∀ x l, (f.expiries ≠ 0 ∨ cheapBit f.codec = none) → a.slots[slot]? = some v → g.pool = x :: l → ∃ t w, exec (.decodeBudgetExpiry n slot out) s = .next t ∧
      (getIngest t n).sexpire = min (g.sexpire + 1) 0xFFFFFFFF ∧ (getIngest t n).pool = l ∧
      (getIngest t n).asm = some { a with rsvTaken := a.rsvTaken ++ [x], slots := a.slots.set slot w } ∧ w.reason = 5 ∧
      w.replId = x.id ∧ t.mem = s.mem) ∧
    ((f.expiries ≠ 0 ∨ cheapBit f.codec = none) → a.slots[slot]? = some v → g.pool = [] →
      ∃ t w, exec (.decodeBudgetExpiry n slot out) s = .next t ∧ (getIngest t n).reserveEmpty = true ∧
        (getIngest t n).spad = min (g.spad + 1) 0xFFFFFFFF ∧ (getIngest t n).asm = some { a with slots := a.slots.set slot w } ∧
        w.reason = 5 ∧ w.sflags = 2 ∧ t.mem = s.mem)) ∧
  (∀ (s : State) (n : Nat) (g : Ingest) (media : List ReserveField), n < 16 → springUp s = true → g = getIngest s n →
    g.opened = true → g.rsv ≠ 0 → g.pool.length < field g.cfg 0x16 2 →
    (∀ r p x, nextRecord s g.rsv (field g.cfg 0x1B 1) g.rsvTail g.rsvPos = .good r p → reserveSample s g r media = .ok x →
      ∃ t, exec (.reserveRefill n media) s = .next t ∧
        getIngest t n = { countLanes g media (laneOuts (reserveFills s g r)) with
          rsvPos := p, rsvHead := (p >>> 32).setWidth 32, pool := g.pool ++ [x] } ∧
        (∀ y, Outside [((readDesc s (field g.cfg 0x18 2)).base, (readDesc s (field g.cfg 0x18 2)).half)] y →
          t.mem.read y = s.mem.read y) ∧ t.cmds = s.cmds) ∧
    (∀ r p, nextRecord s g.rsv (field g.cfg 0x1B 1) g.rsvTail g.rsvPos = .good r p → reserveSample s g r media = .error 5 →
      ∃ t, exec (.reserveRefill n media) s = .next t ∧ (getIngest t n).pool = g.pool ∧ (getIngest t n).scorrupt = g.scorrupt ∧
        (getIngest t n).rsvPos = p ∧
        (getIngest t n).sexpire = min (g.sexpire + ((laneOuts (reserveFills s g r)).map (fun f =>
          min (laneResult media f).expiries (if (cheapBit f.codec).isSome then 2 else 1))).sum) 0xFFFFFFFF) ∧
    (∀ reason id p, nextRecord s g.rsv (field g.cfg 0x1B 1) g.rsvTail g.rsvPos = .bad reason id p →
      ∃ t, exec (.reserveRefill n media) s = .next t ∧ (getIngest t n).rsvPos = p ∧
        (getIngest t n).rsvHead = (p >>> 32).setWidth 32 ∧ (getIngest t n).pool = g.pool ∧ t.cmds = s.cmds) ∧
    (nextRecord s g.rsv (field g.cfg 0x1B 1) g.rsvTail g.rsvPos = .empty →
      ∃ t, exec (.reserveRefill n media) s = .next t ∧ getIngest t n = g ∧ t.cmds = s.cmds)) ∧
  (∀ s : State, ∃ t, exec .decoderWindow s = .next t ∧
    (∀ n, (getIngest t n).share = (getIngest s n).pendShare.getD (getIngest s n).share ∧ (getIngest t n).pendShare = none) ∧
    t = { s with spring := t.spring })
end

