-- ==== Sys2Proof/Laws/Maps.lean ====
section
/-! SUPPORT. Finite maps: what a record reads as after a write, a removal or a change of another record. -/

namespace Sys2Proof.Machine

variable {α : Type}

/-- A record reads as what was last put there. -/
@[simp] theorem mget_mput_same (d : α) (m : Map α) (k : Nat) (v : α) : mget d (mput m k v) k = v := by
  induction m with
  | nil => simp [mput, mget]
  | cons e t ih =>
    obtain ⟨k', v'⟩ := e
    simp only [mput]
    split
    · simp [mget]
    · split
      · simp [mget]
      · rename_i h1 h2
        simp [mget, ih, Ne.symm h2]

/-- A put at one key leaves every other record. -/
theorem mget_mput_ne (d : α) (m : Map α) (k n : Nat) (v : α) (h : n ≠ k) : mget d (mput m k v) n = mget d m n := by
  induction m with
  | nil => simp [mput, mget, Ne.symm h]
  | cons e t ih =>
    obtain ⟨k', v'⟩ := e
    simp only [mput]
    split
    · simp [mget, Ne.symm h]
    · split
      · rename_i h1 h2
        subst h2
        simp [mget, Ne.symm h]
      · simp [mget, ih]

/-- Reading any record after a put. -/
theorem mget_mput (d : α) (m : Map α) (k n : Nat) (v : α) :
    mget d (mput m k v) n = if n = k then v else mget d m n := by
  split
  · rename_i h; subst h; simp
  · rename_i h; exact mget_mput_ne d m k n v h

/-- A removal leaves every other record. -/
theorem mget_mdel_ne (d : α) (m : Map α) (k n : Nat) (h : n ≠ k) : mget d (mdel m k) n = mget d m n := by
  induction m with
  | nil => rfl
  | cons e t ih =>
    obtain ⟨k', v'⟩ := e
    simp only [mdel]
    split
    · rename_i h1; subst h1; simp [mget, Ne.symm h]
    · simp [mget, ih]

/-- A change reads as the changed record. -/
@[simp] theorem mget_mmod_same (d : α) (m : Map α) (k : Nat) (f : α → α) : mget d (mmod d m k f) k = f (mget d m k) := by
  simp [mmod]

/-- A change at one key leaves every other record. -/
theorem mget_mmod_ne (d : α) (m : Map α) (k n : Nat) (f : α → α) (h : n ≠ k) : mget d (mmod d m k f) n = mget d m n :=
  mget_mput_ne d m k n _ h

end Sys2Proof.Machine
end

