-- ==== Sys2Proof/Laws/Memory.lean ====
section
/-! SUPPORT. Device memory: the canonical form is kept by every operation; a byte reads as what was last written; a write
leaves every other byte. -/

namespace Sys2Proof.Machine

/-! ## The canonical form -/

/-- A canonical list is canonical from any lower bound. -/
theorem cellsFrom_mono (c : List Host.Cell) (lo lo' : Nat) (h : lo' ≤ lo) (hc : cellsFrom lo c = true) :
    cellsFrom lo' c = true := by
  cases c with
  | nil => rfl
  | cons e t =>
    obtain ⟨a, b⟩ := e
    simp only [cellsFrom, Bool.and_eq_true, decide_eq_true_eq] at hc ⊢
    exact ⟨⟨by omega, hc.1.2⟩, hc.2⟩

/-- A put keeps the canonical form. -/
theorem cellsFrom_cellPut (c : List Host.Cell) (lo a : Nat) (b : Byte) (ha : lo ≤ a) (hc : cellsFrom lo c = true) :
    cellsFrom lo (cellPut c a b) = true := by
  induction c generalizing lo with
  | nil =>
    simp only [cellPut]
    split <;> simp_all [cellsFrom]
  | cons e t ih =>
    obtain ⟨a', b'⟩ := e
    simp only [cellsFrom, Bool.and_eq_true, decide_eq_true_eq] at hc
    simp only [cellPut]
    split
    · split <;> rename_i h1 h2
      · simp only [cellsFrom, Bool.and_eq_true, decide_eq_true_eq]; exact hc
      · simp only [cellsFrom, Bool.and_eq_true, decide_eq_true_eq]
        exact ⟨⟨ha, by simpa using h2⟩, ⟨by omega, hc.1.2⟩, hc.2⟩
    · split
      · split <;> rename_i h1 h2 h3
        · exact cellsFrom_mono t (a' + 1) lo (by omega) hc.2
        · simp only [cellsFrom, Bool.and_eq_true, decide_eq_true_eq]
          exact ⟨⟨ha, by simpa using h3⟩, h2 ▸ hc.2⟩
      · simp only [cellsFrom, Bool.and_eq_true, decide_eq_true_eq]
        exact ⟨⟨hc.1.1, hc.1.2⟩, ih (a' + 1) (by omega) hc.2⟩

/-- A run of puts keeps the canonical form. -/
theorem cellsFrom_cellRun (b : Bytes) (c : List Host.Cell) (a : Nat) (hc : cellsFrom 0 c = true) :
    cellsFrom 0 (cellRun c a b) = true := by
  induction b generalizing c a with
  | nil => exact hc
  | cons x t ih => exact ih _ _ (cellsFrom_cellPut c 0 a x (Nat.zero_le a) hc)

/-- Memory at reset is canonical. -/
@[simp] theorem Memory.wf_reset : Memory.reset.wf = true := rfl

/-- A write keeps the canonical form. -/
@[simp] theorem Memory.wf_write (m : Memory) (a : Nat) (b : Bytes) (h : m.wf = true) : (m.write a b).wf = true :=
  cellsFrom_cellRun b m.cells a h

/-- A range made undefined keeps the canonical form. -/
@[simp] theorem Memory.wf_forget (m : Memory) (a n k : Nat) (h : m.wf = true) : (m.forget a n k).wf = true := by
  simp only [Memory.forget]
  split
  · exact h
  · exact h

/-- Another page table keeps the canonical form. -/
@[simp] theorem Memory.wf_setSpans (m : Memory) (w : Nat) (t : Map Span) (h : m.wf = true) : (m.setSpans w t).wf = true := by
  simp only [Memory.setSpans]
  split
  · exact h
  · split <;> exact h

/-- Another stack record keeps the canonical form. -/
@[simp] theorem Memory.wf_setStack (m : Memory) (n : Nat) (v : Stack) (h : m.wf = true) : (m.setStack n v).wf = true := h

/-- A change of the counters, the quotas or the stacks keeps the canonical form: it depends on the cells alone. -/
theorem Memory.wf_congr (m m' : Memory) (h : m'.cells = m.cells) (hm : m.wf = true) : m'.wf = true := by
  simpa [Memory.wf, h] using hm

/-- The canonical form depends on the cells alone. -/
@[simp] theorem Memory.wf_mk (c : List Host.Cell) (u : List Undef) (cl : List Claim) (pk : Map (List (Nat × Nat)))
    (s0 s1 s2 : Map Span) (k : Map Stack) (n1 n2 n3 n4 n5 : Nat) (q : Map Word) :
    (Memory.mk c u cl pk s0 s1 s2 k n1 n2 n3 n4 n5 q).wf = cellsFrom 0 c := rfl

/-- A filter of a canonical list is canonical. -/
theorem cellsFrom_filter (p : Host.Cell → Bool) (c : List Host.Cell) (lo : Nat) (hc : cellsFrom lo c = true) :
    cellsFrom lo (c.filter p) = true := by
  induction c generalizing lo with
  | nil => rfl
  | cons e t ih =>
    obtain ⟨a, b⟩ := e
    simp only [cellsFrom, Bool.and_eq_true, decide_eq_true_eq] at hc
    by_cases h : p (a, b)
    · rw [List.filter_cons_of_pos h]
      simp only [cellsFrom, Bool.and_eq_true, decide_eq_true_eq]
      exact ⟨hc.1, ih (a + 1) hc.2⟩
    · rw [List.filter_cons_of_neg h]
      exact ih lo (cellsFrom_mono t (a + 1) lo (by omega) hc.2)

/-- The end of a job's memory keeps the canonical form. -/
@[simp] theorem Memory.wf_wipeJob (m : Memory) (h : m.wf = true) : m.wipeJob.wf = true := cellsFrom_filter _ m.cells 0 h

/-- A command's own view has the same cells. -/
@[simp] theorem Memory.wf_own (m : Memory) (cid : Nat) (h : m.wf = true) : (m.own cid).wf = true := h

/-- Claims keep the canonical form. -/
@[simp] theorem Memory.wf_claim (m : Memory) (cid k : Nat) (rs : List (Nat × Nat)) (h : m.wf = true) :
    (m.claim cid k rs).wf = true := h

/-- The offer of a master's new bytes keeps the canonical form. -/
@[simp] theorem Memory.wf_offer (m : Memory) (cid k a : Nat) (b : Bytes) (h : m.wf = true) : (m.offer cid k a b).wf = true := h

/-- The end of a command's claims keeps the canonical form. -/
@[simp] theorem Memory.wf_abandon (m : Memory) (cid : Nat) (h : m.wf = true) : (m.abandon cid).wf = true := by
  have fold : ∀ (l : List Claim) (m : Memory), m.wf = true →
      (l.foldl (fun m u => m.forget u.start u.len u.serial) m).wf = true := by
    intro l
    induction l with
    | nil => intro m h; exact h
    | cons u t ih => intro m h; exact ih _ (Memory.wf_forget m _ _ _ h)
  exact fold _ _ h

/-- The empty list is canonical. -/
@[simp] theorem cellsFrom_nil (n : Nat) : cellsFrom n [] = true := rfl

/-- The cells of a memory are canonical as the memory is. -/
@[simp] theorem Memory.cellsFrom_cells (m : Memory) : cellsFrom 0 m.cells = m.wf := rfl

/-! ## Reading after writing -/

/-- The byte put at an address reads back; every other byte is as before. -/
theorem mget_cellPut (c : List Host.Cell) (lo a n : Nat) (b : Byte) (hc : cellsFrom lo c = true) :
    mget 0 (cellPut c a b) n = if n = a then b else mget 0 c n := by
  have absent : ∀ (t : List Host.Cell) (l k : Nat), cellsFrom l t = true → k < l → mget (0 : Byte) t k = 0 := by
    intro t
    induction t with
    | nil => intros; rfl
    | cons e t ih =>
      obtain ⟨x, y⟩ := e
      intro l k h hk
      simp only [cellsFrom, Bool.and_eq_true, decide_eq_true_eq] at h
      have hx : x ≠ k := by omega
      simpa [mget, hx] using ih (x + 1) k h.2 (by omega)
  induction c generalizing lo with
  | nil =>
    simp only [cellPut]
    split <;> rename_i h1
    · subst h1; split <;> simp [mget]
    · simp only [mget]; split <;> rename_i h2
      · simp [h2]
      · simp [Ne.symm h2]
  | cons e t ih =>
    obtain ⟨a', b'⟩ := e
    have hc' := hc
    simp only [cellsFrom, Bool.and_eq_true, decide_eq_true_eq] at hc
    simp only [cellPut]
    split
    · rename_i h1
      split <;> rename_i h2
      · split <;> rename_i h3
        · subst h3; subst h2
          have : a' ≠ n := by omega
          simpa [mget, this] using absent t (a' + 1) n hc.2 (by omega)
        · rfl
      · simp only [mget]; split <;> rename_i h3
        · simp [h3]
        · simp [Ne.symm h3]
    · split
      · rename_i h1 h2
        split <;> rename_i h3
        · split <;> rename_i h4
          · subst h4; subst h3; exact absent t (a' + 1) n hc.2 (by omega)
          · have : a' ≠ n := by omega
            simp [mget, this]
        · simp only [mget]; split <;> rename_i h4
          · simp [h4]
          · have : n ≠ a := Ne.symm h4
            have h5 : a' ≠ n := by omega
            simp [h5, this]
      · rename_i h1 h2
        simp only [mget]
        split <;> rename_i h3
        · have : n ≠ a := by omega
          simp [this]
        · simp only [ih (a' + 1) hc.2]

/-- A run of bytes reads back; every other byte is as before. -/
theorem mget_cellRun (b : Bytes) (c : List Host.Cell) (a n : Nat) (hc : cellsFrom 0 c = true) :
    mget 0 (cellRun c a b) n = if a ≤ n ∧ n < a + b.length then b.getD (n - a) 0 else mget 0 c n := by
  induction b generalizing c a with
  | nil =>
    rw [cellRun, if_neg (by simp only [List.length_nil]; omega)]
  | cons x t ih =>
    have hp := cellsFrom_cellPut c 0 a x (Nat.zero_le a) hc
    rw [cellRun, ih _ _ hp, mget_cellPut c 0 a n x hc]
    by_cases h1 : n = a
    · subst h1; simp
    · by_cases h2 : a + 1 ≤ n ∧ n < a + 1 + t.length
      · have h3 : a ≤ n ∧ n < a + (x :: t).length := by simp only [List.length_cons]; omega
        rw [if_pos h2, if_pos h3]
        obtain ⟨k, rfl⟩ : ∃ k, n = a + 1 + k := ⟨n - a - 1, by omega⟩
        have e1 : a + 1 + k - (a + 1) = k := by omega
        have e2 : a + 1 + k - a = k + 1 := by omega
        simp [e1, e2]
      · have h3 : ¬ (a ≤ n ∧ n < a + (x :: t).length) := by simp only [List.length_cons]; omega
        rw [if_neg h2, if_neg h3, if_neg h1]

/-- The first mark of two lists of ranges that holds a byte. -/
theorem undefAt_append (l r : List Undef) (x : Nat) : undefAt (l ++ r) x = (undefAt l x).or (undefAt r x) := by
  induction l with
  | nil => rfl
  | cons y l ih =>
    simp only [List.cons_append, undefAt]
    split
    · rfl
    · exact ih

/-- The mark of a list that holds one range or none. -/
theorem undefAt_opt (p : Prop) [Decidable p] (u : Undef) (x : Nat) :
    undefAt (if p then [u] else []) x = if p ∧ u.start ≤ x ∧ x < u.start + u.len then some u.serial else none := by
  by_cases h : p <;> simp [h, undefAt]

/-- A range cleared of undefined marks holds none, and the marks elsewhere stay. -/
theorem undefAt_undefClear (u : List Undef) (a n x : Nat) :
    undefAt (undefClear u a n) x = if a ≤ x ∧ x < a + n then none else undefAt u x := by
  induction u with
  | nil => simp [undefClear, undefAt]
  | cons e t ih =>
    simp only [undefClear]
    split
    · rename_i h
      simp only [undefAt, ih]
      split <;> rename_i h1
      · have : ¬ (a ≤ x ∧ x < a + n) := by omega
        simp [this]
      · rfl
    · rename_i h
      rw [undefAt_append, undefAt_append, undefAt_opt, undefAt_opt, ih]
      by_cases hx : a ≤ x ∧ x < a + n
      · have h1 : ¬ (e.start < a ∧ e.start ≤ x ∧ x < e.start + (a - e.start)) := by omega
        have h2 : ¬ (a + n < e.start + e.len ∧ a + n ≤ x ∧ x < a + n + (e.start + e.len - (a + n))) := by omega
        rw [if_neg h1, if_neg h2, if_pos hx, if_pos hx]
        rfl
      · rw [if_neg hx, if_neg hx, undefAt]
        by_cases hin : e.start ≤ x ∧ x < e.start + e.len
        · rw [if_pos hin]
          by_cases hlo : x < a
          · rw [if_pos (show e.start < a ∧ e.start ≤ x ∧ x < e.start + (a - e.start) by omega)]
            rfl
          · rw [if_neg (show ¬ (e.start < a ∧ e.start ≤ x ∧ x < e.start + (a - e.start)) by omega),
              if_pos (show a + n < e.start + e.len ∧ a + n ≤ x ∧ x < a + n + (e.start + e.len - (a + n)) by omega)]
            rfl
        · rw [if_neg hin, if_neg (show ¬ (e.start < a ∧ e.start ≤ x ∧ x < e.start + (a - e.start)) by omega),
            if_neg (show ¬ (a + n < e.start + e.len ∧ a + n ≤ x ∧ x < a + n + (e.start + e.len - (a + n))) by omega)]
          rfl

/-- One byte after a write: the byte written, seen through the claim of a command in flight if one holds it; or the byte as
it was. -/
theorem Memory.read_write (m : Memory) (a n : Nat) (b : Bytes) (h : m.wf = true) :
    (m.write a b).read n = if a ≤ n ∧ n < a + b.length then
      (match claimAt m.claims n with
        | some u => u.byte n (b.getD (n - a) 0)
        | none => b.getD (n - a) 0)
    else m.read n := by
  simp only [Memory.read, Memory.write, undefAt_undefClear, mget_cellRun b m.cells a n h]
  by_cases hn : a ≤ n ∧ n < a + b.length
  · simp only [if_pos hn] <;> (split <;> simp_all)
  · simp only [if_neg hn]

/-- A byte that no command in flight claims reads as what was last written. -/
theorem Memory.read_write_inside (m : Memory) (a n : Nat) (b : Bytes) (h : m.wf = true) (hc : claimAt m.claims n = none)
    (hn : a ≤ n ∧ n < a + b.length) : (m.write a b).read n = b.getD (n - a) 0 := by
  rw [Memory.read_write m a n b h, if_pos hn, hc]

/-- A write leaves every byte outside it. -/
theorem Memory.read_write_outside (m : Memory) (a n : Nat) (b : Bytes) (h : m.wf = true) (hn : n < a ∨ a + b.length ≤ n) :
    (m.write a b).read n = m.read n := by
  rw [Memory.read_write m a n b h, if_neg (by omega)]

end Sys2Proof.Machine
end

