-- ==== Sys2Proof/Laws/State.lean ====
section
/-! SUPPORT. One lemma for each field of the state under each named update: what the update leaves, and what it makes of
the field it changes. -/

namespace Sys2Proof.Machine

/-! ## setQueue -/

@[simp] theorem setQueue_pending (s : State) (q : Nat) (v : Queue) : (setQueue s q v).pending = s.pending := by unfold setQueue; rfl
@[simp] theorem setQueue_freeCtr (s : State) (q : Nat) (v : Queue) : (setQueue s q v).freeCtr = s.freeCtr := rfl
@[simp] theorem setQueue_out (s : State) (q : Nat) (v : Queue) : (setQueue s q v).out = s.out := rfl
@[simp] theorem setQueue_nextCid (s : State) (q : Nat) (v : Queue) : (setQueue s q v).nextCid = s.nextCid := rfl
@[simp] theorem setQueue_time (s : State) (q : Nat) (v : Queue) : (setQueue s q v).time = s.time := rfl
@[simp] theorem setQueue_cmds (s : State) (q : Nat) (v : Queue) : (setQueue s q v).cmds = s.cmds := rfl
@[simp] theorem setQueue_job (s : State) (q : Nat) (v : Queue) : (setQueue s q v).job = s.job := rfl
@[simp] theorem setQueue_counters (s : State) (q : Nat) (v : Queue) : (setQueue s q v).counters = s.counters := rfl
@[simp] theorem setQueue_guard (s : State) (q : Nat) (v : Queue) : (setQueue s q v).guard = s.guard := rfl
@[simp] theorem setQueue_update (s : State) (q : Nat) (v : Queue) : (setQueue s q v).update = s.update := rfl
@[simp] theorem setQueue_compute (s : State) (q : Nat) (v : Queue) : (setQueue s q v).compute = s.compute := rfl
@[simp] theorem setQueue_mem (s : State) (q : Nat) (v : Queue) : (setQueue s q v).mem = s.mem := by unfold setQueue; rfl
@[simp] theorem setQueue_dies (s : State) (q : Nat) (v : Queue) : (setQueue s q v).dies = s.dies := rfl
@[simp] theorem setQueue_ports (s : State) (q : Nat) (v : Queue) : (setQueue s q v).ports = s.ports := rfl
@[simp] theorem setQueue_peers (s : State) (q : Nat) (v : Queue) : (setQueue s q v).peers = s.peers := rfl
@[simp] theorem setQueue_spring (s : State) (q : Nat) (v : Queue) : (setQueue s q v).spring = s.spring := rfl
@[simp] theorem setQueue_ctl (s : State) (q : Nat) (v : Queue) : (setQueue s q v).ctl = s.ctl := rfl
@[simp] theorem setQueue_mgmt (s : State) (q : Nat) (v : Queue) : (setQueue s q v).mgmt = s.mgmt := rfl
@[simp] theorem setQueue_sec (s : State) (q : Nat) (v : Queue) : (setQueue s q v).sec = s.sec := by unfold setQueue; rfl
@[simp] theorem setQueue_power (s : State) (q : Nat) (v : Queue) : (setQueue s q v).power = s.power := rfl
@[simp] theorem setQueue_rel (s : State) (q : Nat) (v : Queue) : (setQueue s q v).rel = s.rel := rfl
@[simp] theorem setQueue_pins (s : State) (q : Nat) (v : Queue) : (setQueue s q v).pins = s.pins := rfl

/-! ## setCounter -/

@[simp] theorem setCounter_pending (s : State) (n : Nat) (v : Counter) : (setCounter s n v).pending = s.pending := by unfold setCounter; rfl
@[simp] theorem setCounter_freeCtr (s : State) (n : Nat) (v : Counter) : (setCounter s n v).freeCtr = s.freeCtr := rfl
@[simp] theorem setCounter_out (s : State) (n : Nat) (v : Counter) : (setCounter s n v).out = s.out := rfl
@[simp] theorem setCounter_nextCid (s : State) (n : Nat) (v : Counter) : (setCounter s n v).nextCid = s.nextCid := rfl
@[simp] theorem setCounter_time (s : State) (n : Nat) (v : Counter) : (setCounter s n v).time = s.time := rfl
@[simp] theorem setCounter_queues (s : State) (n : Nat) (v : Counter) : (setCounter s n v).queues = s.queues := rfl
@[simp] theorem setCounter_cmds (s : State) (n : Nat) (v : Counter) : (setCounter s n v).cmds = s.cmds := rfl
@[simp] theorem setCounter_job (s : State) (n : Nat) (v : Counter) : (setCounter s n v).job = s.job := rfl
@[simp] theorem setCounter_guard (s : State) (n : Nat) (v : Counter) : (setCounter s n v).guard = s.guard := rfl
@[simp] theorem setCounter_update (s : State) (n : Nat) (v : Counter) : (setCounter s n v).update = s.update := rfl
@[simp] theorem setCounter_compute (s : State) (n : Nat) (v : Counter) : (setCounter s n v).compute = s.compute := rfl
@[simp] theorem setCounter_mem (s : State) (n : Nat) (v : Counter) : (setCounter s n v).mem = s.mem := by unfold setCounter; rfl
@[simp] theorem setCounter_dies (s : State) (n : Nat) (v : Counter) : (setCounter s n v).dies = s.dies := rfl
@[simp] theorem setCounter_ports (s : State) (n : Nat) (v : Counter) : (setCounter s n v).ports = s.ports := rfl
@[simp] theorem setCounter_peers (s : State) (n : Nat) (v : Counter) : (setCounter s n v).peers = s.peers := rfl
@[simp] theorem setCounter_spring (s : State) (n : Nat) (v : Counter) : (setCounter s n v).spring = s.spring := rfl
@[simp] theorem setCounter_ctl (s : State) (n : Nat) (v : Counter) : (setCounter s n v).ctl = s.ctl := rfl
@[simp] theorem setCounter_mgmt (s : State) (n : Nat) (v : Counter) : (setCounter s n v).mgmt = s.mgmt := rfl
@[simp] theorem setCounter_sec (s : State) (n : Nat) (v : Counter) : (setCounter s n v).sec = s.sec := by unfold setCounter; rfl
@[simp] theorem setCounter_power (s : State) (n : Nat) (v : Counter) : (setCounter s n v).power = s.power := rfl
@[simp] theorem setCounter_rel (s : State) (n : Nat) (v : Counter) : (setCounter s n v).rel = s.rel := rfl
@[simp] theorem setCounter_pins (s : State) (n : Nat) (v : Counter) : (setCounter s n v).pins = s.pins := rfl

/-! ## setTag -/

@[simp] theorem setTag_pending (s : State) (n : Nat) (v : Tag) : (setTag s n v).pending = s.pending := by unfold setTag; rfl
@[simp] theorem setTag_freeCtr (s : State) (n : Nat) (v : Tag) : (setTag s n v).freeCtr = s.freeCtr := rfl
@[simp] theorem setTag_out (s : State) (n : Nat) (v : Tag) : (setTag s n v).out = s.out := rfl
@[simp] theorem setTag_nextCid (s : State) (n : Nat) (v : Tag) : (setTag s n v).nextCid = s.nextCid := rfl
@[simp] theorem setTag_time (s : State) (n : Nat) (v : Tag) : (setTag s n v).time = s.time := rfl
@[simp] theorem setTag_queues (s : State) (n : Nat) (v : Tag) : (setTag s n v).queues = s.queues := rfl
@[simp] theorem setTag_cmds (s : State) (n : Nat) (v : Tag) : (setTag s n v).cmds = s.cmds := rfl
@[simp] theorem setTag_job (s : State) (n : Nat) (v : Tag) : (setTag s n v).job = s.job := rfl
@[simp] theorem setTag_counters (s : State) (n : Nat) (v : Tag) : (setTag s n v).counters = s.counters := rfl
@[simp] theorem setTag_update (s : State) (n : Nat) (v : Tag) : (setTag s n v).update = s.update := rfl
@[simp] theorem setTag_compute (s : State) (n : Nat) (v : Tag) : (setTag s n v).compute = s.compute := rfl
@[simp] theorem setTag_mem (s : State) (n : Nat) (v : Tag) : (setTag s n v).mem = s.mem := by unfold setTag; rfl
@[simp] theorem setTag_dies (s : State) (n : Nat) (v : Tag) : (setTag s n v).dies = s.dies := rfl
@[simp] theorem setTag_ports (s : State) (n : Nat) (v : Tag) : (setTag s n v).ports = s.ports := rfl
@[simp] theorem setTag_peers (s : State) (n : Nat) (v : Tag) : (setTag s n v).peers = s.peers := rfl
@[simp] theorem setTag_spring (s : State) (n : Nat) (v : Tag) : (setTag s n v).spring = s.spring := rfl
@[simp] theorem setTag_ctl (s : State) (n : Nat) (v : Tag) : (setTag s n v).ctl = s.ctl := rfl
@[simp] theorem setTag_mgmt (s : State) (n : Nat) (v : Tag) : (setTag s n v).mgmt = s.mgmt := rfl
@[simp] theorem setTag_sec (s : State) (n : Nat) (v : Tag) : (setTag s n v).sec = s.sec := by unfold setTag; rfl
@[simp] theorem setTag_power (s : State) (n : Nat) (v : Tag) : (setTag s n v).power = s.power := rfl
@[simp] theorem setTag_rel (s : State) (n : Nat) (v : Tag) : (setTag s n v).rel = s.rel := rfl
@[simp] theorem setTag_pins (s : State) (n : Nat) (v : Tag) : (setTag s n v).pins = s.pins := rfl

/-! ## setCounts -/

@[simp] theorem setCounts_pending (s : State) (n : Nat) (v : TagCounts) : (setCounts s n v).pending = s.pending := by unfold setCounts; rfl
@[simp] theorem setCounts_freeCtr (s : State) (n : Nat) (v : TagCounts) : (setCounts s n v).freeCtr = s.freeCtr := rfl
@[simp] theorem setCounts_out (s : State) (n : Nat) (v : TagCounts) : (setCounts s n v).out = s.out := rfl
@[simp] theorem setCounts_nextCid (s : State) (n : Nat) (v : TagCounts) : (setCounts s n v).nextCid = s.nextCid := rfl
@[simp] theorem setCounts_time (s : State) (n : Nat) (v : TagCounts) : (setCounts s n v).time = s.time := rfl
@[simp] theorem setCounts_queues (s : State) (n : Nat) (v : TagCounts) : (setCounts s n v).queues = s.queues := rfl
@[simp] theorem setCounts_cmds (s : State) (n : Nat) (v : TagCounts) : (setCounts s n v).cmds = s.cmds := rfl
@[simp] theorem setCounts_job (s : State) (n : Nat) (v : TagCounts) : (setCounts s n v).job = s.job := rfl
@[simp] theorem setCounts_counters (s : State) (n : Nat) (v : TagCounts) : (setCounts s n v).counters = s.counters := rfl
@[simp] theorem setCounts_update (s : State) (n : Nat) (v : TagCounts) : (setCounts s n v).update = s.update := rfl
@[simp] theorem setCounts_compute (s : State) (n : Nat) (v : TagCounts) : (setCounts s n v).compute = s.compute := rfl
@[simp] theorem setCounts_mem (s : State) (n : Nat) (v : TagCounts) : (setCounts s n v).mem = s.mem := by unfold setCounts; rfl
@[simp] theorem setCounts_dies (s : State) (n : Nat) (v : TagCounts) : (setCounts s n v).dies = s.dies := rfl
@[simp] theorem setCounts_ports (s : State) (n : Nat) (v : TagCounts) : (setCounts s n v).ports = s.ports := rfl
@[simp] theorem setCounts_peers (s : State) (n : Nat) (v : TagCounts) : (setCounts s n v).peers = s.peers := rfl
@[simp] theorem setCounts_spring (s : State) (n : Nat) (v : TagCounts) : (setCounts s n v).spring = s.spring := rfl
@[simp] theorem setCounts_ctl (s : State) (n : Nat) (v : TagCounts) : (setCounts s n v).ctl = s.ctl := rfl
@[simp] theorem setCounts_mgmt (s : State) (n : Nat) (v : TagCounts) : (setCounts s n v).mgmt = s.mgmt := rfl
@[simp] theorem setCounts_sec (s : State) (n : Nat) (v : TagCounts) : (setCounts s n v).sec = s.sec := by unfold setCounts; rfl
@[simp] theorem setCounts_power (s : State) (n : Nat) (v : TagCounts) : (setCounts s n v).power = s.power := rfl
@[simp] theorem setCounts_rel (s : State) (n : Nat) (v : TagCounts) : (setCounts s n v).rel = s.rel := rfl
@[simp] theorem setCounts_pins (s : State) (n : Nat) (v : TagCounts) : (setCounts s n v).pins = s.pins := rfl

/-! ## setMere -/

@[simp] theorem setMere_pending (s : State) (n : Nat) (v : Mere) : (setMere s n v).pending = s.pending := by unfold setMere; rfl
@[simp] theorem setMere_freeCtr (s : State) (n : Nat) (v : Mere) : (setMere s n v).freeCtr = s.freeCtr := rfl
@[simp] theorem setMere_out (s : State) (n : Nat) (v : Mere) : (setMere s n v).out = s.out := rfl
@[simp] theorem setMere_nextCid (s : State) (n : Nat) (v : Mere) : (setMere s n v).nextCid = s.nextCid := rfl
@[simp] theorem setMere_time (s : State) (n : Nat) (v : Mere) : (setMere s n v).time = s.time := rfl
@[simp] theorem setMere_queues (s : State) (n : Nat) (v : Mere) : (setMere s n v).queues = s.queues := rfl
@[simp] theorem setMere_cmds (s : State) (n : Nat) (v : Mere) : (setMere s n v).cmds = s.cmds := rfl
@[simp] theorem setMere_job (s : State) (n : Nat) (v : Mere) : (setMere s n v).job = s.job := rfl
@[simp] theorem setMere_counters (s : State) (n : Nat) (v : Mere) : (setMere s n v).counters = s.counters := rfl
@[simp] theorem setMere_guard (s : State) (n : Nat) (v : Mere) : (setMere s n v).guard = s.guard := rfl
@[simp] theorem setMere_update (s : State) (n : Nat) (v : Mere) : (setMere s n v).update = s.update := rfl
@[simp] theorem setMere_mem (s : State) (n : Nat) (v : Mere) : (setMere s n v).mem = s.mem := by unfold setMere; rfl
@[simp] theorem setMere_dies (s : State) (n : Nat) (v : Mere) : (setMere s n v).dies = s.dies := rfl
@[simp] theorem setMere_ports (s : State) (n : Nat) (v : Mere) : (setMere s n v).ports = s.ports := rfl
@[simp] theorem setMere_peers (s : State) (n : Nat) (v : Mere) : (setMere s n v).peers = s.peers := rfl
@[simp] theorem setMere_spring (s : State) (n : Nat) (v : Mere) : (setMere s n v).spring = s.spring := rfl
@[simp] theorem setMere_ctl (s : State) (n : Nat) (v : Mere) : (setMere s n v).ctl = s.ctl := rfl
@[simp] theorem setMere_mgmt (s : State) (n : Nat) (v : Mere) : (setMere s n v).mgmt = s.mgmt := rfl
@[simp] theorem setMere_sec (s : State) (n : Nat) (v : Mere) : (setMere s n v).sec = s.sec := by unfold setMere; rfl
@[simp] theorem setMere_power (s : State) (n : Nat) (v : Mere) : (setMere s n v).power = s.power := rfl
@[simp] theorem setMere_rel (s : State) (n : Nat) (v : Mere) : (setMere s n v).rel = s.rel := rfl
@[simp] theorem setMere_pins (s : State) (n : Nat) (v : Mere) : (setMere s n v).pins = s.pins := rfl

/-! ## setStream -/

@[simp] theorem setStream_pending (s : State) (d : Nat) (v : Stream) : (setStream s d v).pending = s.pending := by unfold setStream; rfl
@[simp] theorem setStream_freeCtr (s : State) (d : Nat) (v : Stream) : (setStream s d v).freeCtr = s.freeCtr := rfl
@[simp] theorem setStream_out (s : State) (d : Nat) (v : Stream) : (setStream s d v).out = s.out := rfl
@[simp] theorem setStream_nextCid (s : State) (d : Nat) (v : Stream) : (setStream s d v).nextCid = s.nextCid := rfl
@[simp] theorem setStream_time (s : State) (d : Nat) (v : Stream) : (setStream s d v).time = s.time := rfl
@[simp] theorem setStream_queues (s : State) (d : Nat) (v : Stream) : (setStream s d v).queues = s.queues := rfl
@[simp] theorem setStream_cmds (s : State) (d : Nat) (v : Stream) : (setStream s d v).cmds = s.cmds := rfl
@[simp] theorem setStream_job (s : State) (d : Nat) (v : Stream) : (setStream s d v).job = s.job := rfl
@[simp] theorem setStream_counters (s : State) (d : Nat) (v : Stream) : (setStream s d v).counters = s.counters := rfl
@[simp] theorem setStream_guard (s : State) (d : Nat) (v : Stream) : (setStream s d v).guard = s.guard := rfl
@[simp] theorem setStream_update (s : State) (d : Nat) (v : Stream) : (setStream s d v).update = s.update := rfl
@[simp] theorem setStream_mem (s : State) (d : Nat) (v : Stream) : (setStream s d v).mem = s.mem := by unfold setStream; rfl
@[simp] theorem setStream_dies (s : State) (d : Nat) (v : Stream) : (setStream s d v).dies = s.dies := rfl
@[simp] theorem setStream_ports (s : State) (d : Nat) (v : Stream) : (setStream s d v).ports = s.ports := rfl
@[simp] theorem setStream_peers (s : State) (d : Nat) (v : Stream) : (setStream s d v).peers = s.peers := rfl
@[simp] theorem setStream_spring (s : State) (d : Nat) (v : Stream) : (setStream s d v).spring = s.spring := rfl
@[simp] theorem setStream_ctl (s : State) (d : Nat) (v : Stream) : (setStream s d v).ctl = s.ctl := rfl
@[simp] theorem setStream_mgmt (s : State) (d : Nat) (v : Stream) : (setStream s d v).mgmt = s.mgmt := rfl
@[simp] theorem setStream_sec (s : State) (d : Nat) (v : Stream) : (setStream s d v).sec = s.sec := by unfold setStream; rfl
@[simp] theorem setStream_power (s : State) (d : Nat) (v : Stream) : (setStream s d v).power = s.power := rfl
@[simp] theorem setStream_rel (s : State) (d : Nat) (v : Stream) : (setStream s d v).rel = s.rel := rfl
@[simp] theorem setStream_pins (s : State) (d : Nat) (v : Stream) : (setStream s d v).pins = s.pins := rfl

/-! ## setZip -/

@[simp] theorem setZip_pending (s : State) (d : Nat) (v : Zip) : (setZip s d v).pending = s.pending := by unfold setZip; rfl
@[simp] theorem setZip_freeCtr (s : State) (d : Nat) (v : Zip) : (setZip s d v).freeCtr = s.freeCtr := rfl
@[simp] theorem setZip_out (s : State) (d : Nat) (v : Zip) : (setZip s d v).out = s.out := rfl
@[simp] theorem setZip_nextCid (s : State) (d : Nat) (v : Zip) : (setZip s d v).nextCid = s.nextCid := rfl
@[simp] theorem setZip_time (s : State) (d : Nat) (v : Zip) : (setZip s d v).time = s.time := rfl
@[simp] theorem setZip_queues (s : State) (d : Nat) (v : Zip) : (setZip s d v).queues = s.queues := rfl
@[simp] theorem setZip_cmds (s : State) (d : Nat) (v : Zip) : (setZip s d v).cmds = s.cmds := rfl
@[simp] theorem setZip_job (s : State) (d : Nat) (v : Zip) : (setZip s d v).job = s.job := rfl
@[simp] theorem setZip_counters (s : State) (d : Nat) (v : Zip) : (setZip s d v).counters = s.counters := rfl
@[simp] theorem setZip_guard (s : State) (d : Nat) (v : Zip) : (setZip s d v).guard = s.guard := rfl
@[simp] theorem setZip_update (s : State) (d : Nat) (v : Zip) : (setZip s d v).update = s.update := rfl
@[simp] theorem setZip_mem (s : State) (d : Nat) (v : Zip) : (setZip s d v).mem = s.mem := by unfold setZip; rfl
@[simp] theorem setZip_dies (s : State) (d : Nat) (v : Zip) : (setZip s d v).dies = s.dies := rfl
@[simp] theorem setZip_ports (s : State) (d : Nat) (v : Zip) : (setZip s d v).ports = s.ports := rfl
@[simp] theorem setZip_peers (s : State) (d : Nat) (v : Zip) : (setZip s d v).peers = s.peers := rfl
@[simp] theorem setZip_spring (s : State) (d : Nat) (v : Zip) : (setZip s d v).spring = s.spring := rfl
@[simp] theorem setZip_ctl (s : State) (d : Nat) (v : Zip) : (setZip s d v).ctl = s.ctl := rfl
@[simp] theorem setZip_mgmt (s : State) (d : Nat) (v : Zip) : (setZip s d v).mgmt = s.mgmt := rfl
@[simp] theorem setZip_sec (s : State) (d : Nat) (v : Zip) : (setZip s d v).sec = s.sec := by unfold setZip; rfl
@[simp] theorem setZip_power (s : State) (d : Nat) (v : Zip) : (setZip s d v).power = s.power := rfl
@[simp] theorem setZip_rel (s : State) (d : Nat) (v : Zip) : (setZip s d v).rel = s.rel := rfl
@[simp] theorem setZip_pins (s : State) (d : Nat) (v : Zip) : (setZip s d v).pins = s.pins := rfl

/-! ## setStackS -/

@[simp] theorem setStackS_pending (s : State) (n : Nat) (v : Stack) : (setStackS s n v).pending = s.pending := by unfold setStackS; rfl
@[simp] theorem setStackS_freeCtr (s : State) (n : Nat) (v : Stack) : (setStackS s n v).freeCtr = s.freeCtr := rfl
@[simp] theorem setStackS_out (s : State) (n : Nat) (v : Stack) : (setStackS s n v).out = s.out := rfl
@[simp] theorem setStackS_nextCid (s : State) (n : Nat) (v : Stack) : (setStackS s n v).nextCid = s.nextCid := rfl
@[simp] theorem setStackS_time (s : State) (n : Nat) (v : Stack) : (setStackS s n v).time = s.time := rfl
@[simp] theorem setStackS_queues (s : State) (n : Nat) (v : Stack) : (setStackS s n v).queues = s.queues := rfl
@[simp] theorem setStackS_cmds (s : State) (n : Nat) (v : Stack) : (setStackS s n v).cmds = s.cmds := rfl
@[simp] theorem setStackS_job (s : State) (n : Nat) (v : Stack) : (setStackS s n v).job = s.job := rfl
@[simp] theorem setStackS_counters (s : State) (n : Nat) (v : Stack) : (setStackS s n v).counters = s.counters := rfl
@[simp] theorem setStackS_guard (s : State) (n : Nat) (v : Stack) : (setStackS s n v).guard = s.guard := rfl
@[simp] theorem setStackS_update (s : State) (n : Nat) (v : Stack) : (setStackS s n v).update = s.update := rfl
@[simp] theorem setStackS_compute (s : State) (n : Nat) (v : Stack) : (setStackS s n v).compute = s.compute := rfl
@[simp] theorem setStackS_dies (s : State) (n : Nat) (v : Stack) : (setStackS s n v).dies = s.dies := rfl
@[simp] theorem setStackS_ports (s : State) (n : Nat) (v : Stack) : (setStackS s n v).ports = s.ports := rfl
@[simp] theorem setStackS_peers (s : State) (n : Nat) (v : Stack) : (setStackS s n v).peers = s.peers := rfl
@[simp] theorem setStackS_spring (s : State) (n : Nat) (v : Stack) : (setStackS s n v).spring = s.spring := rfl
@[simp] theorem setStackS_ctl (s : State) (n : Nat) (v : Stack) : (setStackS s n v).ctl = s.ctl := rfl
@[simp] theorem setStackS_mgmt (s : State) (n : Nat) (v : Stack) : (setStackS s n v).mgmt = s.mgmt := rfl
@[simp] theorem setStackS_sec (s : State) (n : Nat) (v : Stack) : (setStackS s n v).sec = s.sec := by unfold setStackS; rfl
@[simp] theorem setStackS_power (s : State) (n : Nat) (v : Stack) : (setStackS s n v).power = s.power := rfl
@[simp] theorem setStackS_rel (s : State) (n : Nat) (v : Stack) : (setStackS s n v).rel = s.rel := rfl
@[simp] theorem setStackS_pins (s : State) (n : Nat) (v : Stack) : (setStackS s n v).pins = s.pins := rfl

/-! ## setBundle -/

@[simp] theorem setBundle_pending (s : State) (b : Nat) (v : Bundle) : (setBundle s b v).pending = s.pending := by unfold setBundle; rfl
@[simp] theorem setBundle_freeCtr (s : State) (b : Nat) (v : Bundle) : (setBundle s b v).freeCtr = s.freeCtr := rfl
@[simp] theorem setBundle_out (s : State) (b : Nat) (v : Bundle) : (setBundle s b v).out = s.out := rfl
@[simp] theorem setBundle_nextCid (s : State) (b : Nat) (v : Bundle) : (setBundle s b v).nextCid = s.nextCid := rfl
@[simp] theorem setBundle_time (s : State) (b : Nat) (v : Bundle) : (setBundle s b v).time = s.time := rfl
@[simp] theorem setBundle_queues (s : State) (b : Nat) (v : Bundle) : (setBundle s b v).queues = s.queues := rfl
@[simp] theorem setBundle_cmds (s : State) (b : Nat) (v : Bundle) : (setBundle s b v).cmds = s.cmds := rfl
@[simp] theorem setBundle_job (s : State) (b : Nat) (v : Bundle) : (setBundle s b v).job = s.job := rfl
@[simp] theorem setBundle_counters (s : State) (b : Nat) (v : Bundle) : (setBundle s b v).counters = s.counters := rfl
@[simp] theorem setBundle_guard (s : State) (b : Nat) (v : Bundle) : (setBundle s b v).guard = s.guard := rfl
@[simp] theorem setBundle_update (s : State) (b : Nat) (v : Bundle) : (setBundle s b v).update = s.update := rfl
@[simp] theorem setBundle_compute (s : State) (b : Nat) (v : Bundle) : (setBundle s b v).compute = s.compute := rfl
@[simp] theorem setBundle_mem (s : State) (b : Nat) (v : Bundle) : (setBundle s b v).mem = s.mem := by unfold setBundle; rfl
@[simp] theorem setBundle_ports (s : State) (b : Nat) (v : Bundle) : (setBundle s b v).ports = s.ports := rfl
@[simp] theorem setBundle_peers (s : State) (b : Nat) (v : Bundle) : (setBundle s b v).peers = s.peers := rfl
@[simp] theorem setBundle_spring (s : State) (b : Nat) (v : Bundle) : (setBundle s b v).spring = s.spring := rfl
@[simp] theorem setBundle_ctl (s : State) (b : Nat) (v : Bundle) : (setBundle s b v).ctl = s.ctl := rfl
@[simp] theorem setBundle_mgmt (s : State) (b : Nat) (v : Bundle) : (setBundle s b v).mgmt = s.mgmt := rfl
@[simp] theorem setBundle_sec (s : State) (b : Nat) (v : Bundle) : (setBundle s b v).sec = s.sec := by unfold setBundle; rfl
@[simp] theorem setBundle_power (s : State) (b : Nat) (v : Bundle) : (setBundle s b v).power = s.power := rfl
@[simp] theorem setBundle_rel (s : State) (b : Nat) (v : Bundle) : (setBundle s b v).rel = s.rel := rfl
@[simp] theorem setBundle_pins (s : State) (b : Nat) (v : Bundle) : (setBundle s b v).pins = s.pins := rfl

/-! ## setDie -/

@[simp] theorem setDie_pending (s : State) (d v : Nat) : (setDie s d v).pending = s.pending := by unfold setDie; rfl
@[simp] theorem setDie_freeCtr (s : State) (d v : Nat) : (setDie s d v).freeCtr = s.freeCtr := rfl
@[simp] theorem setDie_out (s : State) (d v : Nat) : (setDie s d v).out = s.out := rfl
@[simp] theorem setDie_nextCid (s : State) (d v : Nat) : (setDie s d v).nextCid = s.nextCid := rfl
@[simp] theorem setDie_time (s : State) (d v : Nat) : (setDie s d v).time = s.time := rfl
@[simp] theorem setDie_queues (s : State) (d v : Nat) : (setDie s d v).queues = s.queues := rfl
@[simp] theorem setDie_cmds (s : State) (d v : Nat) : (setDie s d v).cmds = s.cmds := rfl
@[simp] theorem setDie_job (s : State) (d v : Nat) : (setDie s d v).job = s.job := rfl
@[simp] theorem setDie_counters (s : State) (d v : Nat) : (setDie s d v).counters = s.counters := rfl
@[simp] theorem setDie_guard (s : State) (d v : Nat) : (setDie s d v).guard = s.guard := rfl
@[simp] theorem setDie_update (s : State) (d v : Nat) : (setDie s d v).update = s.update := rfl
@[simp] theorem setDie_compute (s : State) (d v : Nat) : (setDie s d v).compute = s.compute := rfl
@[simp] theorem setDie_mem (s : State) (d v : Nat) : (setDie s d v).mem = s.mem := by unfold setDie; rfl
@[simp] theorem setDie_ports (s : State) (d v : Nat) : (setDie s d v).ports = s.ports := rfl
@[simp] theorem setDie_peers (s : State) (d v : Nat) : (setDie s d v).peers = s.peers := rfl
@[simp] theorem setDie_spring (s : State) (d v : Nat) : (setDie s d v).spring = s.spring := rfl
@[simp] theorem setDie_ctl (s : State) (d v : Nat) : (setDie s d v).ctl = s.ctl := rfl
@[simp] theorem setDie_mgmt (s : State) (d v : Nat) : (setDie s d v).mgmt = s.mgmt := rfl
@[simp] theorem setDie_sec (s : State) (d v : Nat) : (setDie s d v).sec = s.sec := by unfold setDie; rfl
@[simp] theorem setDie_power (s : State) (d v : Nat) : (setDie s d v).power = s.power := rfl
@[simp] theorem setDie_rel (s : State) (d v : Nat) : (setDie s d v).rel = s.rel := rfl
@[simp] theorem setDie_pins (s : State) (d v : Nat) : (setDie s d v).pins = s.pins := rfl

/-! ## setPort -/

@[simp] theorem setPort_pending (s : State) (p : Nat) (v : Port) : (setPort s p v).pending = s.pending := by unfold setPort; rfl
@[simp] theorem setPort_freeCtr (s : State) (p : Nat) (v : Port) : (setPort s p v).freeCtr = s.freeCtr := rfl
@[simp] theorem setPort_out (s : State) (p : Nat) (v : Port) : (setPort s p v).out = s.out := rfl
@[simp] theorem setPort_nextCid (s : State) (p : Nat) (v : Port) : (setPort s p v).nextCid = s.nextCid := rfl
@[simp] theorem setPort_time (s : State) (p : Nat) (v : Port) : (setPort s p v).time = s.time := rfl
@[simp] theorem setPort_queues (s : State) (p : Nat) (v : Port) : (setPort s p v).queues = s.queues := rfl
@[simp] theorem setPort_cmds (s : State) (p : Nat) (v : Port) : (setPort s p v).cmds = s.cmds := rfl
@[simp] theorem setPort_job (s : State) (p : Nat) (v : Port) : (setPort s p v).job = s.job := rfl
@[simp] theorem setPort_counters (s : State) (p : Nat) (v : Port) : (setPort s p v).counters = s.counters := rfl
@[simp] theorem setPort_guard (s : State) (p : Nat) (v : Port) : (setPort s p v).guard = s.guard := rfl
@[simp] theorem setPort_update (s : State) (p : Nat) (v : Port) : (setPort s p v).update = s.update := rfl
@[simp] theorem setPort_compute (s : State) (p : Nat) (v : Port) : (setPort s p v).compute = s.compute := rfl
@[simp] theorem setPort_mem (s : State) (p : Nat) (v : Port) : (setPort s p v).mem = s.mem := by unfold setPort; rfl
@[simp] theorem setPort_dies (s : State) (p : Nat) (v : Port) : (setPort s p v).dies = s.dies := rfl
@[simp] theorem setPort_peers (s : State) (p : Nat) (v : Port) : (setPort s p v).peers = s.peers := rfl
@[simp] theorem setPort_spring (s : State) (p : Nat) (v : Port) : (setPort s p v).spring = s.spring := rfl
@[simp] theorem setPort_ctl (s : State) (p : Nat) (v : Port) : (setPort s p v).ctl = s.ctl := rfl
@[simp] theorem setPort_mgmt (s : State) (p : Nat) (v : Port) : (setPort s p v).mgmt = s.mgmt := rfl
@[simp] theorem setPort_sec (s : State) (p : Nat) (v : Port) : (setPort s p v).sec = s.sec := by unfold setPort; rfl
@[simp] theorem setPort_power (s : State) (p : Nat) (v : Port) : (setPort s p v).power = s.power := rfl
@[simp] theorem setPort_rel (s : State) (p : Nat) (v : Port) : (setPort s p v).rel = s.rel := rfl
@[simp] theorem setPort_pins (s : State) (p : Nat) (v : Port) : (setPort s p v).pins = s.pins := rfl

/-! ## setPipe -/

@[simp] theorem setPipe_pending (s : State) (n : Nat) (v : Pipe) : (setPipe s n v).pending = s.pending := by unfold setPipe; rfl
@[simp] theorem setPipe_freeCtr (s : State) (n : Nat) (v : Pipe) : (setPipe s n v).freeCtr = s.freeCtr := rfl
@[simp] theorem setPipe_out (s : State) (n : Nat) (v : Pipe) : (setPipe s n v).out = s.out := rfl
@[simp] theorem setPipe_nextCid (s : State) (n : Nat) (v : Pipe) : (setPipe s n v).nextCid = s.nextCid := rfl
@[simp] theorem setPipe_time (s : State) (n : Nat) (v : Pipe) : (setPipe s n v).time = s.time := rfl
@[simp] theorem setPipe_queues (s : State) (n : Nat) (v : Pipe) : (setPipe s n v).queues = s.queues := rfl
@[simp] theorem setPipe_cmds (s : State) (n : Nat) (v : Pipe) : (setPipe s n v).cmds = s.cmds := rfl
@[simp] theorem setPipe_job (s : State) (n : Nat) (v : Pipe) : (setPipe s n v).job = s.job := rfl
@[simp] theorem setPipe_counters (s : State) (n : Nat) (v : Pipe) : (setPipe s n v).counters = s.counters := rfl
@[simp] theorem setPipe_guard (s : State) (n : Nat) (v : Pipe) : (setPipe s n v).guard = s.guard := rfl
@[simp] theorem setPipe_update (s : State) (n : Nat) (v : Pipe) : (setPipe s n v).update = s.update := rfl
@[simp] theorem setPipe_compute (s : State) (n : Nat) (v : Pipe) : (setPipe s n v).compute = s.compute := rfl
@[simp] theorem setPipe_mem (s : State) (n : Nat) (v : Pipe) : (setPipe s n v).mem = s.mem := by unfold setPipe; rfl
@[simp] theorem setPipe_dies (s : State) (n : Nat) (v : Pipe) : (setPipe s n v).dies = s.dies := rfl
@[simp] theorem setPipe_ports (s : State) (n : Nat) (v : Pipe) : (setPipe s n v).ports = s.ports := rfl
@[simp] theorem setPipe_spring (s : State) (n : Nat) (v : Pipe) : (setPipe s n v).spring = s.spring := rfl
@[simp] theorem setPipe_ctl (s : State) (n : Nat) (v : Pipe) : (setPipe s n v).ctl = s.ctl := rfl
@[simp] theorem setPipe_mgmt (s : State) (n : Nat) (v : Pipe) : (setPipe s n v).mgmt = s.mgmt := rfl
@[simp] theorem setPipe_sec (s : State) (n : Nat) (v : Pipe) : (setPipe s n v).sec = s.sec := by unfold setPipe; rfl
@[simp] theorem setPipe_power (s : State) (n : Nat) (v : Pipe) : (setPipe s n v).power = s.power := rfl
@[simp] theorem setPipe_rel (s : State) (n : Nat) (v : Pipe) : (setPipe s n v).rel = s.rel := rfl
@[simp] theorem setPipe_pins (s : State) (n : Nat) (v : Pipe) : (setPipe s n v).pins = s.pins := rfl

/-! ## setIngest -/

@[simp] theorem setIngest_pending (s : State) (n : Nat) (v : Ingest) : (setIngest s n v).pending = s.pending := by unfold setIngest; rfl
@[simp] theorem setIngest_freeCtr (s : State) (n : Nat) (v : Ingest) : (setIngest s n v).freeCtr = s.freeCtr := rfl
@[simp] theorem setIngest_out (s : State) (n : Nat) (v : Ingest) : (setIngest s n v).out = s.out := rfl
@[simp] theorem setIngest_nextCid (s : State) (n : Nat) (v : Ingest) : (setIngest s n v).nextCid = s.nextCid := rfl
@[simp] theorem setIngest_time (s : State) (n : Nat) (v : Ingest) : (setIngest s n v).time = s.time := rfl
@[simp] theorem setIngest_queues (s : State) (n : Nat) (v : Ingest) : (setIngest s n v).queues = s.queues := rfl
@[simp] theorem setIngest_cmds (s : State) (n : Nat) (v : Ingest) : (setIngest s n v).cmds = s.cmds := rfl
@[simp] theorem setIngest_job (s : State) (n : Nat) (v : Ingest) : (setIngest s n v).job = s.job := rfl
@[simp] theorem setIngest_counters (s : State) (n : Nat) (v : Ingest) : (setIngest s n v).counters = s.counters := rfl
@[simp] theorem setIngest_guard (s : State) (n : Nat) (v : Ingest) : (setIngest s n v).guard = s.guard := rfl
@[simp] theorem setIngest_update (s : State) (n : Nat) (v : Ingest) : (setIngest s n v).update = s.update := rfl
@[simp] theorem setIngest_compute (s : State) (n : Nat) (v : Ingest) : (setIngest s n v).compute = s.compute := rfl
@[simp] theorem setIngest_mem (s : State) (n : Nat) (v : Ingest) : (setIngest s n v).mem = s.mem := by unfold setIngest; rfl
@[simp] theorem setIngest_dies (s : State) (n : Nat) (v : Ingest) : (setIngest s n v).dies = s.dies := rfl
@[simp] theorem setIngest_ports (s : State) (n : Nat) (v : Ingest) : (setIngest s n v).ports = s.ports := rfl
@[simp] theorem setIngest_peers (s : State) (n : Nat) (v : Ingest) : (setIngest s n v).peers = s.peers := rfl
@[simp] theorem setIngest_ctl (s : State) (n : Nat) (v : Ingest) : (setIngest s n v).ctl = s.ctl := rfl
@[simp] theorem setIngest_mgmt (s : State) (n : Nat) (v : Ingest) : (setIngest s n v).mgmt = s.mgmt := rfl
@[simp] theorem setIngest_sec (s : State) (n : Nat) (v : Ingest) : (setIngest s n v).sec = s.sec := by unfold setIngest; rfl
@[simp] theorem setIngest_power (s : State) (n : Nat) (v : Ingest) : (setIngest s n v).power = s.power := rfl
@[simp] theorem setIngest_rel (s : State) (n : Nat) (v : Ingest) : (setIngest s n v).rel = s.rel := rfl
@[simp] theorem setIngest_pins (s : State) (n : Nat) (v : Ingest) : (setIngest s n v).pins = s.pins := rfl

/-! ## setCluster -/

@[simp] theorem setCluster_pending (s : State) (n : Nat) (v : Cluster) : (setCluster s n v).pending = s.pending := by unfold setCluster; rfl
@[simp] theorem setCluster_freeCtr (s : State) (n : Nat) (v : Cluster) : (setCluster s n v).freeCtr = s.freeCtr := rfl
@[simp] theorem setCluster_out (s : State) (n : Nat) (v : Cluster) : (setCluster s n v).out = s.out := rfl
@[simp] theorem setCluster_nextCid (s : State) (n : Nat) (v : Cluster) : (setCluster s n v).nextCid = s.nextCid := rfl
@[simp] theorem setCluster_time (s : State) (n : Nat) (v : Cluster) : (setCluster s n v).time = s.time := rfl
@[simp] theorem setCluster_queues (s : State) (n : Nat) (v : Cluster) : (setCluster s n v).queues = s.queues := rfl
@[simp] theorem setCluster_cmds (s : State) (n : Nat) (v : Cluster) : (setCluster s n v).cmds = s.cmds := rfl
@[simp] theorem setCluster_job (s : State) (n : Nat) (v : Cluster) : (setCluster s n v).job = s.job := rfl
@[simp] theorem setCluster_counters (s : State) (n : Nat) (v : Cluster) : (setCluster s n v).counters = s.counters := rfl
@[simp] theorem setCluster_guard (s : State) (n : Nat) (v : Cluster) : (setCluster s n v).guard = s.guard := rfl
@[simp] theorem setCluster_update (s : State) (n : Nat) (v : Cluster) : (setCluster s n v).update = s.update := rfl
@[simp] theorem setCluster_compute (s : State) (n : Nat) (v : Cluster) : (setCluster s n v).compute = s.compute := rfl
@[simp] theorem setCluster_mem (s : State) (n : Nat) (v : Cluster) : (setCluster s n v).mem = s.mem := by unfold setCluster; rfl
@[simp] theorem setCluster_dies (s : State) (n : Nat) (v : Cluster) : (setCluster s n v).dies = s.dies := rfl
@[simp] theorem setCluster_ports (s : State) (n : Nat) (v : Cluster) : (setCluster s n v).ports = s.ports := rfl
@[simp] theorem setCluster_peers (s : State) (n : Nat) (v : Cluster) : (setCluster s n v).peers = s.peers := rfl
@[simp] theorem setCluster_spring (s : State) (n : Nat) (v : Cluster) : (setCluster s n v).spring = s.spring := rfl
@[simp] theorem setCluster_ctl (s : State) (n : Nat) (v : Cluster) : (setCluster s n v).ctl = s.ctl := rfl
@[simp] theorem setCluster_mgmt (s : State) (n : Nat) (v : Cluster) : (setCluster s n v).mgmt = s.mgmt := rfl
@[simp] theorem setCluster_sec (s : State) (n : Nat) (v : Cluster) : (setCluster s n v).sec = s.sec := by unfold setCluster; rfl
@[simp] theorem setCluster_rel (s : State) (n : Nat) (v : Cluster) : (setCluster s n v).rel = s.rel := rfl
@[simp] theorem setCluster_pins (s : State) (n : Nat) (v : Cluster) : (setCluster s n v).pins = s.pins := rfl

/-! ## emit -/

@[simp] theorem emit_pending (s : State) (o : Out) : (emit s o).pending = s.pending := by unfold emit; rfl
@[simp] theorem emit_freeCtr (s : State) (o : Out) : (emit s o).freeCtr = s.freeCtr := rfl
@[simp] theorem emit_nextCid (s : State) (o : Out) : (emit s o).nextCid = s.nextCid := rfl
@[simp] theorem emit_time (s : State) (o : Out) : (emit s o).time = s.time := rfl
@[simp] theorem emit_queues (s : State) (o : Out) : (emit s o).queues = s.queues := rfl
@[simp] theorem emit_cmds (s : State) (o : Out) : (emit s o).cmds = s.cmds := rfl
@[simp] theorem emit_job (s : State) (o : Out) : (emit s o).job = s.job := rfl
@[simp] theorem emit_counters (s : State) (o : Out) : (emit s o).counters = s.counters := rfl
@[simp] theorem emit_guard (s : State) (o : Out) : (emit s o).guard = s.guard := rfl
@[simp] theorem emit_update (s : State) (o : Out) : (emit s o).update = s.update := rfl
@[simp] theorem emit_compute (s : State) (o : Out) : (emit s o).compute = s.compute := rfl
@[simp] theorem emit_mem (s : State) (o : Out) : (emit s o).mem = s.mem := by unfold emit; rfl
@[simp] theorem emit_dies (s : State) (o : Out) : (emit s o).dies = s.dies := rfl
@[simp] theorem emit_ports (s : State) (o : Out) : (emit s o).ports = s.ports := rfl
@[simp] theorem emit_peers (s : State) (o : Out) : (emit s o).peers = s.peers := rfl
@[simp] theorem emit_spring (s : State) (o : Out) : (emit s o).spring = s.spring := rfl
@[simp] theorem emit_ctl (s : State) (o : Out) : (emit s o).ctl = s.ctl := rfl
@[simp] theorem emit_mgmt (s : State) (o : Out) : (emit s o).mgmt = s.mgmt := rfl
@[simp] theorem emit_sec (s : State) (o : Out) : (emit s o).sec = s.sec := by unfold emit; rfl
@[simp] theorem emit_power (s : State) (o : Out) : (emit s o).power = s.power := rfl
@[simp] theorem emit_rel (s : State) (o : Out) : (emit s o).rel = s.rel := rfl
@[simp] theorem emit_pins (s : State) (o : Out) : (emit s o).pins = s.pins := rfl

/-! ## tickFree -/

@[simp] theorem tickFree_pending (s : State) : (tickFree s).pending = s.pending := by unfold tickFree; rfl
@[simp] theorem tickFree_out (s : State) : (tickFree s).out = s.out := rfl
@[simp] theorem tickFree_nextCid (s : State) : (tickFree s).nextCid = s.nextCid := rfl
@[simp] theorem tickFree_time (s : State) : (tickFree s).time = s.time := rfl
@[simp] theorem tickFree_queues (s : State) : (tickFree s).queues = s.queues := rfl
@[simp] theorem tickFree_cmds (s : State) : (tickFree s).cmds = s.cmds := rfl
@[simp] theorem tickFree_job (s : State) : (tickFree s).job = s.job := rfl
@[simp] theorem tickFree_counters (s : State) : (tickFree s).counters = s.counters := rfl
@[simp] theorem tickFree_guard (s : State) : (tickFree s).guard = s.guard := rfl
@[simp] theorem tickFree_update (s : State) : (tickFree s).update = s.update := rfl
@[simp] theorem tickFree_compute (s : State) : (tickFree s).compute = s.compute := rfl
@[simp] theorem tickFree_mem (s : State) : (tickFree s).mem = s.mem := by unfold tickFree; rfl
@[simp] theorem tickFree_dies (s : State) : (tickFree s).dies = s.dies := rfl
@[simp] theorem tickFree_ports (s : State) : (tickFree s).ports = s.ports := rfl
@[simp] theorem tickFree_peers (s : State) : (tickFree s).peers = s.peers := rfl
@[simp] theorem tickFree_spring (s : State) : (tickFree s).spring = s.spring := rfl
@[simp] theorem tickFree_ctl (s : State) : (tickFree s).ctl = s.ctl := rfl
@[simp] theorem tickFree_mgmt (s : State) : (tickFree s).mgmt = s.mgmt := rfl
@[simp] theorem tickFree_sec (s : State) : (tickFree s).sec = s.sec := by unfold tickFree; rfl
@[simp] theorem tickFree_power (s : State) : (tickFree s).power = s.power := rfl
@[simp] theorem tickFree_rel (s : State) : (tickFree s).rel = s.rel := rfl
@[simp] theorem tickFree_pins (s : State) : (tickFree s).pins = s.pins := rfl

/-! ## hbmWrite -/

@[simp] theorem hbmWrite_pending (s : State) (a : Nat) (b : Bytes) : (hbmWrite s a b).pending = s.pending := by unfold hbmWrite; rfl
@[simp] theorem hbmWrite_freeCtr (s : State) (a : Nat) (b : Bytes) : (hbmWrite s a b).freeCtr = s.freeCtr := rfl
@[simp] theorem hbmWrite_out (s : State) (a : Nat) (b : Bytes) : (hbmWrite s a b).out = s.out := rfl
@[simp] theorem hbmWrite_nextCid (s : State) (a : Nat) (b : Bytes) : (hbmWrite s a b).nextCid = s.nextCid := rfl
@[simp] theorem hbmWrite_time (s : State) (a : Nat) (b : Bytes) : (hbmWrite s a b).time = s.time := rfl
@[simp] theorem hbmWrite_queues (s : State) (a : Nat) (b : Bytes) : (hbmWrite s a b).queues = s.queues := rfl
@[simp] theorem hbmWrite_cmds (s : State) (a : Nat) (b : Bytes) : (hbmWrite s a b).cmds = s.cmds := rfl
@[simp] theorem hbmWrite_job (s : State) (a : Nat) (b : Bytes) : (hbmWrite s a b).job = s.job := rfl
@[simp] theorem hbmWrite_counters (s : State) (a : Nat) (b : Bytes) : (hbmWrite s a b).counters = s.counters := rfl
@[simp] theorem hbmWrite_guard (s : State) (a : Nat) (b : Bytes) : (hbmWrite s a b).guard = s.guard := rfl
@[simp] theorem hbmWrite_update (s : State) (a : Nat) (b : Bytes) : (hbmWrite s a b).update = s.update := rfl
@[simp] theorem hbmWrite_compute (s : State) (a : Nat) (b : Bytes) : (hbmWrite s a b).compute = s.compute := rfl
@[simp] theorem hbmWrite_dies (s : State) (a : Nat) (b : Bytes) : (hbmWrite s a b).dies = s.dies := rfl
@[simp] theorem hbmWrite_ports (s : State) (a : Nat) (b : Bytes) : (hbmWrite s a b).ports = s.ports := rfl
@[simp] theorem hbmWrite_peers (s : State) (a : Nat) (b : Bytes) : (hbmWrite s a b).peers = s.peers := rfl
@[simp] theorem hbmWrite_spring (s : State) (a : Nat) (b : Bytes) : (hbmWrite s a b).spring = s.spring := rfl
@[simp] theorem hbmWrite_ctl (s : State) (a : Nat) (b : Bytes) : (hbmWrite s a b).ctl = s.ctl := rfl
@[simp] theorem hbmWrite_mgmt (s : State) (a : Nat) (b : Bytes) : (hbmWrite s a b).mgmt = s.mgmt := rfl
@[simp] theorem hbmWrite_sec (s : State) (a : Nat) (b : Bytes) : (hbmWrite s a b).sec = s.sec := by unfold hbmWrite; rfl
@[simp] theorem hbmWrite_power (s : State) (a : Nat) (b : Bytes) : (hbmWrite s a b).power = s.power := rfl
@[simp] theorem hbmWrite_rel (s : State) (a : Nat) (b : Bytes) : (hbmWrite s a b).rel = s.rel := rfl
@[simp] theorem hbmWrite_pins (s : State) (a : Nat) (b : Bytes) : (hbmWrite s a b).pins = s.pins := rfl

/-! ## hbmForget -/

@[simp] theorem hbmForget_pending (s : State) (a n : Nat) : (hbmForget s a n).pending = s.pending := by unfold hbmForget; rfl
@[simp] theorem hbmForget_out (s : State) (a n : Nat) : (hbmForget s a n).out = s.out := rfl
@[simp] theorem hbmForget_nextCid (s : State) (a n : Nat) : (hbmForget s a n).nextCid = s.nextCid := rfl
@[simp] theorem hbmForget_time (s : State) (a n : Nat) : (hbmForget s a n).time = s.time := rfl
@[simp] theorem hbmForget_queues (s : State) (a n : Nat) : (hbmForget s a n).queues = s.queues := rfl
@[simp] theorem hbmForget_cmds (s : State) (a n : Nat) : (hbmForget s a n).cmds = s.cmds := rfl
@[simp] theorem hbmForget_job (s : State) (a n : Nat) : (hbmForget s a n).job = s.job := rfl
@[simp] theorem hbmForget_counters (s : State) (a n : Nat) : (hbmForget s a n).counters = s.counters := rfl
@[simp] theorem hbmForget_guard (s : State) (a n : Nat) : (hbmForget s a n).guard = s.guard := rfl
@[simp] theorem hbmForget_update (s : State) (a n : Nat) : (hbmForget s a n).update = s.update := rfl
@[simp] theorem hbmForget_compute (s : State) (a n : Nat) : (hbmForget s a n).compute = s.compute := rfl
@[simp] theorem hbmForget_dies (s : State) (a n : Nat) : (hbmForget s a n).dies = s.dies := rfl
@[simp] theorem hbmForget_ports (s : State) (a n : Nat) : (hbmForget s a n).ports = s.ports := rfl
@[simp] theorem hbmForget_peers (s : State) (a n : Nat) : (hbmForget s a n).peers = s.peers := rfl
@[simp] theorem hbmForget_spring (s : State) (a n : Nat) : (hbmForget s a n).spring = s.spring := rfl
@[simp] theorem hbmForget_ctl (s : State) (a n : Nat) : (hbmForget s a n).ctl = s.ctl := rfl
@[simp] theorem hbmForget_mgmt (s : State) (a n : Nat) : (hbmForget s a n).mgmt = s.mgmt := rfl
@[simp] theorem hbmForget_sec (s : State) (a n : Nat) : (hbmForget s a n).sec = s.sec := by unfold hbmForget; rfl
@[simp] theorem hbmForget_power (s : State) (a n : Nat) : (hbmForget s a n).power = s.power := rfl
@[simp] theorem hbmForget_rel (s : State) (a n : Nat) : (hbmForget s a n).rel = s.rel := rfl
@[simp] theorem hbmForget_pins (s : State) (a n : Nat) : (hbmForget s a n).pins = s.pins := rfl

/-! ## putCmd -/

@[simp] theorem putCmd_pending (s : State) (c : Cmd) : (putCmd s c).pending = s.pending := by unfold putCmd; rfl
@[simp] theorem putCmd_freeCtr (s : State) (c : Cmd) : (putCmd s c).freeCtr = s.freeCtr := rfl
@[simp] theorem putCmd_out (s : State) (c : Cmd) : (putCmd s c).out = s.out := rfl
@[simp] theorem putCmd_nextCid (s : State) (c : Cmd) : (putCmd s c).nextCid = s.nextCid := rfl
@[simp] theorem putCmd_time (s : State) (c : Cmd) : (putCmd s c).time = s.time := rfl
@[simp] theorem putCmd_queues (s : State) (c : Cmd) : (putCmd s c).queues = s.queues := rfl
@[simp] theorem putCmd_job (s : State) (c : Cmd) : (putCmd s c).job = s.job := rfl
@[simp] theorem putCmd_counters (s : State) (c : Cmd) : (putCmd s c).counters = s.counters := rfl
@[simp] theorem putCmd_guard (s : State) (c : Cmd) : (putCmd s c).guard = s.guard := rfl
@[simp] theorem putCmd_update (s : State) (c : Cmd) : (putCmd s c).update = s.update := rfl
@[simp] theorem putCmd_compute (s : State) (c : Cmd) : (putCmd s c).compute = s.compute := rfl
@[simp] theorem putCmd_mem (s : State) (c : Cmd) : (putCmd s c).mem = s.mem := by unfold putCmd; rfl
@[simp] theorem putCmd_dies (s : State) (c : Cmd) : (putCmd s c).dies = s.dies := rfl
@[simp] theorem putCmd_ports (s : State) (c : Cmd) : (putCmd s c).ports = s.ports := rfl
@[simp] theorem putCmd_peers (s : State) (c : Cmd) : (putCmd s c).peers = s.peers := rfl
@[simp] theorem putCmd_spring (s : State) (c : Cmd) : (putCmd s c).spring = s.spring := rfl
@[simp] theorem putCmd_ctl (s : State) (c : Cmd) : (putCmd s c).ctl = s.ctl := rfl
@[simp] theorem putCmd_mgmt (s : State) (c : Cmd) : (putCmd s c).mgmt = s.mgmt := rfl
@[simp] theorem putCmd_sec (s : State) (c : Cmd) : (putCmd s c).sec = s.sec := by unfold putCmd; rfl
@[simp] theorem putCmd_power (s : State) (c : Cmd) : (putCmd s c).power = s.power := rfl
@[simp] theorem putCmd_rel (s : State) (c : Cmd) : (putCmd s c).rel = s.rel := rfl
@[simp] theorem putCmd_pins (s : State) (c : Cmd) : (putCmd s c).pins = s.pins := rfl

/-! ## dropCmd -/

@[simp] theorem dropCmd_pending (s : State) (k : Nat) : (dropCmd s k).pending = s.pending := by unfold dropCmd; rfl
@[simp] theorem dropCmd_freeCtr (s : State) (k : Nat) : (dropCmd s k).freeCtr = s.freeCtr := rfl
@[simp] theorem dropCmd_out (s : State) (k : Nat) : (dropCmd s k).out = s.out := rfl
@[simp] theorem dropCmd_nextCid (s : State) (k : Nat) : (dropCmd s k).nextCid = s.nextCid := rfl
@[simp] theorem dropCmd_time (s : State) (k : Nat) : (dropCmd s k).time = s.time := rfl
@[simp] theorem dropCmd_queues (s : State) (k : Nat) : (dropCmd s k).queues = s.queues := rfl
@[simp] theorem dropCmd_job (s : State) (k : Nat) : (dropCmd s k).job = s.job := rfl
@[simp] theorem dropCmd_counters (s : State) (k : Nat) : (dropCmd s k).counters = s.counters := rfl
@[simp] theorem dropCmd_guard (s : State) (k : Nat) : (dropCmd s k).guard = s.guard := rfl
@[simp] theorem dropCmd_update (s : State) (k : Nat) : (dropCmd s k).update = s.update := rfl
@[simp] theorem dropCmd_compute (s : State) (k : Nat) : (dropCmd s k).compute = s.compute := rfl
@[simp] theorem dropCmd_mem (s : State) (k : Nat) : (dropCmd s k).mem = s.mem := by unfold dropCmd; rfl
@[simp] theorem dropCmd_dies (s : State) (k : Nat) : (dropCmd s k).dies = s.dies := rfl
@[simp] theorem dropCmd_ports (s : State) (k : Nat) : (dropCmd s k).ports = s.ports := rfl
@[simp] theorem dropCmd_peers (s : State) (k : Nat) : (dropCmd s k).peers = s.peers := rfl
@[simp] theorem dropCmd_spring (s : State) (k : Nat) : (dropCmd s k).spring = s.spring := rfl
@[simp] theorem dropCmd_ctl (s : State) (k : Nat) : (dropCmd s k).ctl = s.ctl := rfl
@[simp] theorem dropCmd_mgmt (s : State) (k : Nat) : (dropCmd s k).mgmt = s.mgmt := rfl
@[simp] theorem dropCmd_sec (s : State) (k : Nat) : (dropCmd s k).sec = s.sec := by unfold dropCmd; rfl
@[simp] theorem dropCmd_power (s : State) (k : Nat) : (dropCmd s k).power = s.power := rfl
@[simp] theorem dropCmd_rel (s : State) (k : Nat) : (dropCmd s k).rel = s.rel := rfl
@[simp] theorem dropCmd_pins (s : State) (k : Nat) : (dropCmd s k).pins = s.pins := rfl

/-! ## pushReply -/

@[simp] theorem pushReply_pending (s : State) (q : Nat) (r : Reply) : (pushReply s q r).pending = s.pending := by unfold pushReply; rfl
@[simp] theorem pushReply_freeCtr (s : State) (q : Nat) (r : Reply) : (pushReply s q r).freeCtr = s.freeCtr := rfl
@[simp] theorem pushReply_out (s : State) (q : Nat) (r : Reply) : (pushReply s q r).out = s.out := rfl
@[simp] theorem pushReply_nextCid (s : State) (q : Nat) (r : Reply) : (pushReply s q r).nextCid = s.nextCid := rfl
@[simp] theorem pushReply_time (s : State) (q : Nat) (r : Reply) : (pushReply s q r).time = s.time := rfl
@[simp] theorem pushReply_cmds (s : State) (q : Nat) (r : Reply) : (pushReply s q r).cmds = s.cmds := rfl
@[simp] theorem pushReply_job (s : State) (q : Nat) (r : Reply) : (pushReply s q r).job = s.job := rfl
@[simp] theorem pushReply_counters (s : State) (q : Nat) (r : Reply) : (pushReply s q r).counters = s.counters := rfl
@[simp] theorem pushReply_guard (s : State) (q : Nat) (r : Reply) : (pushReply s q r).guard = s.guard := rfl
@[simp] theorem pushReply_update (s : State) (q : Nat) (r : Reply) : (pushReply s q r).update = s.update := rfl
@[simp] theorem pushReply_compute (s : State) (q : Nat) (r : Reply) : (pushReply s q r).compute = s.compute := rfl
@[simp] theorem pushReply_mem (s : State) (q : Nat) (r : Reply) : (pushReply s q r).mem = s.mem := by unfold pushReply; rfl
@[simp] theorem pushReply_dies (s : State) (q : Nat) (r : Reply) : (pushReply s q r).dies = s.dies := rfl
@[simp] theorem pushReply_ports (s : State) (q : Nat) (r : Reply) : (pushReply s q r).ports = s.ports := rfl
@[simp] theorem pushReply_peers (s : State) (q : Nat) (r : Reply) : (pushReply s q r).peers = s.peers := rfl
@[simp] theorem pushReply_spring (s : State) (q : Nat) (r : Reply) : (pushReply s q r).spring = s.spring := rfl
@[simp] theorem pushReply_ctl (s : State) (q : Nat) (r : Reply) : (pushReply s q r).ctl = s.ctl := rfl
@[simp] theorem pushReply_mgmt (s : State) (q : Nat) (r : Reply) : (pushReply s q r).mgmt = s.mgmt := rfl
@[simp] theorem pushReply_sec (s : State) (q : Nat) (r : Reply) : (pushReply s q r).sec = s.sec := by unfold pushReply; rfl
@[simp] theorem pushReply_power (s : State) (q : Nat) (r : Reply) : (pushReply s q r).power = s.power := rfl
@[simp] theorem pushReply_rel (s : State) (q : Nat) (r : Reply) : (pushReply s q r).rel = s.rel := rfl
@[simp] theorem pushReply_pins (s : State) (q : Nat) (r : Reply) : (pushReply s q r).pins = s.pins := rfl

/-! ## releaseSeats -/

@[simp] theorem releaseSeats_pending (s : State) (k : Nat) : (releaseSeats s k).pending = s.pending := by unfold releaseSeats; rfl
@[simp] theorem releaseSeats_freeCtr (s : State) (k : Nat) : (releaseSeats s k).freeCtr = s.freeCtr := rfl
@[simp] theorem releaseSeats_out (s : State) (k : Nat) : (releaseSeats s k).out = s.out := rfl
@[simp] theorem releaseSeats_nextCid (s : State) (k : Nat) : (releaseSeats s k).nextCid = s.nextCid := rfl
@[simp] theorem releaseSeats_time (s : State) (k : Nat) : (releaseSeats s k).time = s.time := rfl
@[simp] theorem releaseSeats_queues (s : State) (k : Nat) : (releaseSeats s k).queues = s.queues := rfl
@[simp] theorem releaseSeats_cmds (s : State) (k : Nat) : (releaseSeats s k).cmds = s.cmds := rfl
@[simp] theorem releaseSeats_job (s : State) (k : Nat) : (releaseSeats s k).job = s.job := rfl
@[simp] theorem releaseSeats_counters (s : State) (k : Nat) : (releaseSeats s k).counters = s.counters := rfl
@[simp] theorem releaseSeats_guard (s : State) (k : Nat) : (releaseSeats s k).guard = s.guard := rfl
@[simp] theorem releaseSeats_update (s : State) (k : Nat) : (releaseSeats s k).update = s.update := rfl
@[simp] theorem releaseSeats_mem (s : State) (k : Nat) : (releaseSeats s k).mem = s.mem := by unfold releaseSeats; rfl
@[simp] theorem releaseSeats_dies (s : State) (k : Nat) : (releaseSeats s k).dies = s.dies := rfl
@[simp] theorem releaseSeats_ports (s : State) (k : Nat) : (releaseSeats s k).ports = s.ports := rfl
@[simp] theorem releaseSeats_peers (s : State) (k : Nat) : (releaseSeats s k).peers = s.peers := rfl
@[simp] theorem releaseSeats_spring (s : State) (k : Nat) : (releaseSeats s k).spring = s.spring := rfl
@[simp] theorem releaseSeats_ctl (s : State) (k : Nat) : (releaseSeats s k).ctl = s.ctl := rfl
@[simp] theorem releaseSeats_mgmt (s : State) (k : Nat) : (releaseSeats s k).mgmt = s.mgmt := rfl
@[simp] theorem releaseSeats_sec (s : State) (k : Nat) : (releaseSeats s k).sec = s.sec := by unfold releaseSeats; rfl
@[simp] theorem releaseSeats_power (s : State) (k : Nat) : (releaseSeats s k).power = s.power := rfl
@[simp] theorem releaseSeats_rel (s : State) (k : Nat) : (releaseSeats s k).rel = s.rel := rfl
@[simp] theorem releaseSeats_pins (s : State) (k : Nat) : (releaseSeats s k).pins = s.pins := rfl

/-! ## The record written, and the others -/

@[simp] theorem getQueue_setQueue_same (s : State) (k : Nat) (v : Queue) : getQueue (setQueue s k v) k = v :=
  mget_mput_same _ _ k v

theorem getQueue_setQueue_ne (s : State) (k n : Nat) (v : Queue) (h : n ≠ k) : getQueue (setQueue s k v) n = getQueue s n :=
  mget_mput_ne _ _ k n v h

@[simp] theorem getCounter_setCounter_same (s : State) (k : Nat) (v : Counter) : getCounter (setCounter s k v) k = v :=
  mget_mput_same _ _ k v

theorem getCounter_setCounter_ne (s : State) (k n : Nat) (v : Counter) (h : n ≠ k) : getCounter (setCounter s k v) n = getCounter s n :=
  mget_mput_ne _ _ k n v h

@[simp] theorem getTag_setTag_same (s : State) (k : Nat) (v : Tag) : getTag (setTag s k v) k = v :=
  mget_mput_same _ _ k v

theorem getTag_setTag_ne (s : State) (k n : Nat) (v : Tag) (h : n ≠ k) : getTag (setTag s k v) n = getTag s n :=
  mget_mput_ne _ _ k n v h

@[simp] theorem getCounts_setCounts_same (s : State) (k : Nat) (v : TagCounts) : getCounts (setCounts s k v) k = v :=
  mget_mput_same _ _ k v

theorem getCounts_setCounts_ne (s : State) (k n : Nat) (v : TagCounts) (h : n ≠ k) : getCounts (setCounts s k v) n = getCounts s n :=
  mget_mput_ne _ _ k n v h

@[simp] theorem getMere_setMere_same (s : State) (k : Nat) (v : Mere) : getMere (setMere s k v) k = v :=
  mget_mput_same _ _ k v

theorem getMere_setMere_ne (s : State) (k n : Nat) (v : Mere) (h : n ≠ k) : getMere (setMere s k v) n = getMere s n :=
  mget_mput_ne _ _ k n v h

@[simp] theorem getStream_setStream_same (s : State) (k : Nat) (v : Stream) : getStream (setStream s k v) k = v :=
  mget_mput_same _ _ k v

theorem getStream_setStream_ne (s : State) (k n : Nat) (v : Stream) (h : n ≠ k) : getStream (setStream s k v) n = getStream s n :=
  mget_mput_ne _ _ k n v h

@[simp] theorem getZip_setZip_same (s : State) (k : Nat) (v : Zip) : getZip (setZip s k v) k = v :=
  mget_mput_same _ _ k v

theorem getZip_setZip_ne (s : State) (k n : Nat) (v : Zip) (h : n ≠ k) : getZip (setZip s k v) n = getZip s n :=
  mget_mput_ne _ _ k n v h

@[simp] theorem getBundle_setBundle_same (s : State) (k : Nat) (v : Bundle) : getBundle (setBundle s k v) k = v :=
  mget_mput_same _ _ k v

theorem getBundle_setBundle_ne (s : State) (k n : Nat) (v : Bundle) (h : n ≠ k) : getBundle (setBundle s k v) n = getBundle s n :=
  mget_mput_ne _ _ k n v h

@[simp] theorem dieState_setDie_same (s : State) (k : Nat) (v : Nat) : dieState (setDie s k v) k = v :=
  mget_mput_same _ _ k v

theorem dieState_setDie_ne (s : State) (k n : Nat) (v : Nat) (h : n ≠ k) : dieState (setDie s k v) n = dieState s n :=
  mget_mput_ne _ _ k n v h

@[simp] theorem getPort_setPort_same (s : State) (k : Nat) (v : Port) : getPort (setPort s k v) k = v :=
  mget_mput_same _ _ k v

theorem getPort_setPort_ne (s : State) (k n : Nat) (v : Port) (h : n ≠ k) : getPort (setPort s k v) n = getPort s n :=
  mget_mput_ne _ _ k n v h

@[simp] theorem getPipe_setPipe_same (s : State) (k : Nat) (v : Pipe) : getPipe (setPipe s k v) k = v :=
  mget_mput_same _ _ k v

theorem getPipe_setPipe_ne (s : State) (k n : Nat) (v : Pipe) (h : n ≠ k) : getPipe (setPipe s k v) n = getPipe s n :=
  mget_mput_ne _ _ k n v h

@[simp] theorem getIngest_setIngest_same (s : State) (k : Nat) (v : Ingest) : getIngest (setIngest s k v) k = v :=
  mget_mput_same _ _ k v

theorem getIngest_setIngest_ne (s : State) (k n : Nat) (v : Ingest) (h : n ≠ k) : getIngest (setIngest s k v) n = getIngest s n :=
  mget_mput_ne _ _ k n v h

@[simp] theorem getCluster_setCluster_same (s : State) (k : Nat) (v : Cluster) : getCluster (setCluster s k v) k = v :=
  mget_mput_same _ _ k v

theorem getCluster_setCluster_ne (s : State) (k n : Nat) (v : Cluster) (h : n ≠ k) : getCluster (setCluster s k v) n = getCluster s n :=
  mget_mput_ne _ _ k n v h

@[simp] theorem tickFree_freeCtr (s : State) : (tickFree s).freeCtr = s.freeCtr + 1 := rfl

@[simp] theorem emit_out (s : State) (x : Out) : (emit s x).out = s.out ++ [x] := rfl

@[simp] theorem hbmWrite_mem (s : State) (a : Nat) (b : Bytes) : (hbmWrite s a b).mem = s.mem.write a b := by unfold hbmWrite; rfl

@[simp] theorem hbmForget_mem (s : State) (a n : Nat) : (hbmForget s a n).mem = s.mem.forget a n s.freeCtr := by unfold hbmForget; rfl

@[simp] theorem setStackS_mem (s : State) (n : Nat) (v : Stack) : (setStackS s n v).mem = s.mem.setStack n v := by unfold setStackS; rfl

@[simp] theorem pushReply_replies (s : State) (q : Nat) (r : Reply) :
    (getQueue (pushReply s q r) q).replies = (getQueue s q).replies ++ [r] := by
  simp [pushReply]

theorem pushReply_other (s : State) (q n : Nat) (r : Reply) (h : n ≠ q) : getQueue (pushReply s q r) n = getQueue s n :=
  getQueue_setQueue_ne s q n _ h

/-- A command taken out of the list is found no more. -/
@[simp] theorem findCmd_dropCmd (s : State) (k : Nat) : findCmd (dropCmd s k) k = none := by
  simp [findCmd, dropCmd]

/-- A command put back is found as it was put. -/
theorem findCmd_putCmd (s : State) (c : Cmd) (h : (findCmd s c.cid).isSome = true) : findCmd (putCmd s c) c.cid = some c := by
  simp only [findCmd, putCmd] at h ⊢
  generalize s.cmds = l at h
  induction l with
  | nil => simp at h
  | cons x t ih =>
    by_cases hx : x.cid = c.cid
    · simp [hx]
    · have h2 : (List.find? (fun y => y.cid == c.cid) t).isSome = true := by simpa [hx] using h
      simpa [hx] using ih h2

end Sys2Proof.Machine
end

