-- ==== Sys2Proof/Laws/Course.lean ====
section
/-! SUPPORT. The course of a command: what `finishWork` and `complete` do (R46, R48), said once. -/

namespace Sys2Proof.Machine

/-! ## Commands by serial number -/

theorem find_map_ne (l : List Cmd) (c : Cmd) (n : Nat) (h : n ≠ c.cid) :
    (l.map (fun x => if x.cid = c.cid then c else x)).find? (fun x => x.cid == n) = l.find? (fun x => x.cid == n) := by
  induction l with
  | nil => rfl
  | cons a t ih =>
    by_cases ha : a.cid = c.cid
    · have h1 : (c.cid == n) = false := by simp [Ne.symm h]
      simp [ha, h1, ih]
    · simp [List.find?_cons, ha, ih]

/-- A command put leaves the others. -/
theorem findCmd_putCmd_ne (s : State) (c : Cmd) (n : Nat) (h : n ≠ c.cid) : findCmd (putCmd s c) n = findCmd s n :=
  find_map_ne s.cmds c n h

/-- The command found has the serial number asked for. -/
theorem findCmd_cid {s : State} {n : Nat} {c : Cmd} (h : findCmd s n = some c) : c.cid = n := by
  have := List.find?_some h
  simpa using this

/-! ## finishWork -/

/-- A result that signals waits for the commit. -/
theorem finishWork_executed (s : State) (c : Cmd) (r : Result) (h : findCmd s c.cid = some c) (hr : signals r.status = true) :
    Executed s (finishWork s c r) c r := by
  have e : finishWork s c r = putCmd s { c with stage := .executed, result := some r } := by simp [finishWork, hr]
  rw [e]
  exact ⟨findCmd_putCmd _ _ (by simp [h]), fun n hn => findCmd_putCmd_ne _ { c with stage := .executed, result := some r } _ hn, rfl⟩

/-- Counts in the compression registers are none of a command's course. -/
theorem Executed.ofZips {s s1 t : State} {c : Cmd} {r : Result}
    (h : ∃ z, s1 = { s with compute := { s.compute with zips := z } }) (g : Executed s1 t c r) : Executed s t c r := by
  obtain ⟨z, rfl⟩ := h
  exact ⟨g.command, g.others, g.rest⟩

theorem countZip_zips (s : State) (d : Nat) (x : ZipStats) : ∃ z, countZip s d x = { s with compute := { s.compute with zips := z } } := by
  unfold countZip
  dsimp only
  split
  · exact ⟨s.compute.zips, rfl⟩
  · exact ⟨_, rfl⟩

theorem countZips_zips (l : List (Nat × ZipStats)) (s : State) :
    ∃ z, countZips s l = { s with compute := { s.compute with zips := z } } := by
  induction l generalizing s with
  | nil => exact ⟨s.compute.zips, rfl⟩
  | cons x t ih =>
    obtain ⟨z, hz⟩ := countZip_zips s x.1 x.2
    obtain ⟨y, hy⟩ := ih (countZip s x.1 x.2)
    exact ⟨y, by rw [countZips, hy, hz]⟩

theorem countDamage_zips (s : State) (d : Nat) : ∃ z, countDamage s d = { s with compute := { s.compute with zips := z } } := ⟨_, rfl⟩

/-- The same after the reads of a run have counted. -/
theorem applyRun_executed (s : State) (c : Cmd) (r : Run) (h : findCmd s c.cid = some c) (hr : signals r.result.status = true) :
    Executed s (applyRun s c r) c r.result := by
  have hz := countZips_zips r.zip s
  have h1 : findCmd (countZips s r.zip) c.cid = some c := by obtain ⟨z, hz⟩ := hz; rw [hz]; exact h
  refine .ofZips hz ?_
  unfold applyRun
  dsimp only
  split
  · rename_i d _
    exact .ofZips (countDamage_zips _ d) (finishWork_executed _ c _ h1 hr)
  · exact finishWork_executed _ c _ h1 hr

/-! ## Frames that leave their spans -/

/-- What repair and retirement of frames may change: the stacks, the count of repairs, the error log. -/
def StackFrame (s t : State) : Prop :=
  t = { s with rel := t.rel, mem := { s.mem with hstacks := t.mem.hstacks, mppr := t.mem.mppr } }

theorem StackFrame.refl (s : State) : StackFrame s s := rfl

theorem StackFrame.trans {a b c : State} (h : StackFrame a b) (g : StackFrame b c) : StackFrame a c := by
  unfold StackFrame at *
  rw [g, h]

theorem logNote_frame (s : State) (k d u : Nat) (i : Bytes) : StackFrame s (logNote s k d u i) := by
  unfold logNote logAdd StackFrame
  dsimp only
  split
  · split <;> rfl
  · rfl

theorem setStackS_frame (s : State) (n : Nat) (v : Stack) : StackFrame s (setStackS s n v) := rfl

theorem flagStack_frame (s : State) (n : Nat) : StackFrame s (flagStack s n) := by
  unfold flagStack
  dsimp only
  split
  · exact (setStackS_frame _ _ _).trans (logNote_frame _ _ _ _ _)
  · exact .refl _

theorem retireFrame_frame (s : State) (n f : Nat) : StackFrame s (retireFrame s n f) := by
  unfold retireFrame
  dsimp only
  exact ((setStackS_frame _ _ _).trans (logNote_frame _ _ _ _ _)).trans (flagStack_frame _ _)

theorem markFrame_frame (s : State) (n f : Nat) : StackFrame s (markFrame s n f) := by
  unfold markFrame
  dsimp only
  split
  · exact .refl _
  · split
    · split
      · exact (setStackS_frame _ _ _).trans (retireFrame_frame _ _ _)
      · exact retireFrame_frame _ _ _
    · split
      · exact (setStackS_frame _ _ _).trans (logNote_frame _ _ _ _ _)
      · exact ((setStackS_frame _ _ _).trans (logNote_frame _ _ _ _ _)).trans (retireFrame_frame _ _ _)

theorem markFrames_frame (n : Nat) (l : List Nat) (s : State) : StackFrame s (markFrames n l s) := by
  induction l generalizing s with
  | nil => exact .refl _
  | cons f t ih => exact (markFrame_frame _ _ _).trans (ih _)

theorem spentBank_frame (s : State) (n b : Nat) : StackFrame s (spentBank s n b) := by
  unfold spentBank
  dsimp only
  split
  · exact .refl _
  · exact markFrames_frame _ _ _

theorem repairRow_frame (s : State) (n : Nat) (r : Nat × Nat) : StackFrame s (repairRow s n r) := by
  unfold repairRow
  dsimp only
  split
  · refine StackFrame.trans (StackFrame.trans ?_ (logNote_frame _ _ _ _ _)) (spentBank_frame _ _ _)
    rfl
  · exact markFrame_frame _ _ _

theorem repairRows_frame (n : Nat) (l : List (Nat × Nat)) (s : State) : StackFrame s (repairRows n l s) := by
  induction l generalizing s with
  | nil => exact .refl _
  | cons r t ih => exact (repairRow_frame _ _ _).trans (ih _)

/-- Frames that leave their spans change stacks and the error log, nothing else (R234, R240, R241). -/
theorem leaveFrames_frame (l : List (Nat × Nat)) (s : State) : StackFrame s (leaveFrames l s) := by
  induction l generalizing s with
  | nil => exact .refl _
  | cons p t ih =>
    refine StackFrame.trans ?_ (ih _)
    unfold leaveFrame
    dsimp only
    split
    · exact (repairRows_frame _ _ _).trans (retireFrame_frame _ _ _)
    · exact repairRows_frame _ _ _

/-! ## Claims -/

/-- Claims of `l` that stay in `k` cover no byte anew. -/
theorem claimAt_filter (p : Claim → Bool) (l : List Claim) (a : Nat) (h : claimAt l a = none) : claimAt (l.filter p) a = none := by
  induction l with
  | nil => rfl
  | cons u t ih =>
    simp only [claimAt] at h
    split at h
    · cases h
    · rename_i hu
      rw [List.filter_cons]
      split
      · simp only [claimAt, if_neg hu]; exact ih h
      · exact ih h

theorem claimAt_outside (l : List Claim) (a : Nat) (h : claimAt l a = none) (u : Claim) (hu : u ∈ l) : a < u.start ∨ u.start + u.len ≤ a := by
  induction l with
  | nil => cases hu
  | cons v t ih =>
    simp only [claimAt] at h
    split at h
    · cases h
    · rename_i hv
      rcases List.mem_cons.mp hu with rfl | hu
      · omega
      · exact ih h hu

theorem undefAt_cons_out (u : Undef) (l : List Undef) (a : Nat) (h : a < u.start ∨ u.start + u.len ≤ a) :
    undefAt (u :: l) a = undefAt l a := by
  simp only [undefAt]
  rw [if_neg (by omega)]

/-- Bytes outside a forgotten range read as before. -/
theorem Memory.read_forget_outside (m : Memory) (b n k a : Nat) (h : a < b ∨ b + n ≤ a) : (m.forget b n k).read a = m.read a := by
  unfold Memory.forget
  split
  · rfl
  · simp only [Memory.read]
    rw [undefAt_cons_out _ _ _ h, undefAt_undefClear, if_neg (by omega)]

/-- Bytes inside a forgotten range are free. -/
theorem Memory.read_forget_inside (m : Memory) (b n k a : Nat) (h : b ≤ a ∧ a < b + n) : (m.forget b n k).read a = Config.freeByte k a := by
  unfold Memory.forget
  rw [if_neg (by omega)]
  simp [Memory.read, undefAt, h]

/-- A byte whose content is undefined stays so through `f`. -/
def KeepsUndef (m k : Memory) : Prop :=
  ∀ a, (undefAt m.undef a).isSome = true → (undefAt k.undef a).isSome = true

theorem undefAt_forget (m : Memory) (b n k a : Nat) :
    undefAt (m.forget b n k).undef a = if b ≤ a ∧ a < b + n then some k else undefAt m.undef a := by
  unfold Memory.forget
  split
  · rw [if_neg (by omega)]
  · show undefAt ({ start := b, len := n, serial := k } :: undefClear m.undef b n) a = _
    simp only [undefAt]
    split
    · rfl
    · rw [undefAt_undefClear, if_neg (by omega)]

theorem forgets_frame (l : List Claim) (m : Memory) :
    l.foldl (fun m u => m.forget u.start u.len u.serial) m =
      { m with undef := (l.foldl (fun m u => m.forget u.start u.len u.serial) m).undef } := by
  induction l generalizing m with
  | nil => rfl
  | cons u t ih =>
    rw [List.foldl_cons, ih]
    unfold Memory.forget
    split <;> rfl

theorem forgets_undefAt (l : List Claim) (m : Memory) (a : Nat) :
    ((undefAt m.undef a).isSome = true ∨ ∃ u ∈ l, u.start ≤ a ∧ a < u.start + u.len) →
      (undefAt (l.foldl (fun m u => m.forget u.start u.len u.serial) m).undef a).isSome = true := by
  induction l generalizing m with
  | nil => rintro (h | ⟨u, hu, -⟩); exacts [h, absurd hu List.not_mem_nil]
  | cons v t ih =>
    intro h
    refine ih _ ?_
    rw [undefAt_forget]
    split
    · exact .inl rfl
    · rename_i hv
      rcases h with h | ⟨u, hu, h1⟩
      · exact .inl h
      · rcases List.mem_cons.mp hu with rfl | hu
        · exact absurd h1 hv
        · exact .inr ⟨u, hu, h1⟩

theorem forgets_outside (l : List Claim) (m : Memory) (a : Nat) (h : ∀ u ∈ l, a < u.start ∨ u.start + u.len ≤ a) :
    undefAt (l.foldl (fun m u => m.forget u.start u.len u.serial) m).undef a = undefAt m.undef a := by
  induction l generalizing m with
  | nil => rfl
  | cons v t ih =>
    have hv := h v List.mem_cons_self
    rw [List.foldl_cons, ih _ (fun u hu => h u (List.mem_cons_of_mem _ hu)), undefAt_forget, if_neg (by omega)]

/-- What the end of claims does to device memory: claims go, their bytes may become undefined; nothing else. -/
structure ClaimsLess (m k : Memory) : Prop where
  cells : k.cells = m.cells
  fewer : ∃ p : Claim → Bool, k.claims = m.claims.filter p
  free : ∀ a, claimAt m.claims a = none → undefAt k.undef a = undefAt m.undef a
  keeps : KeepsUndef m k
  frame : k = { m with undef := k.undef, claims := k.claims, picked := k.picked, hstacks := k.hstacks, mppr := k.mppr }

theorem ClaimsLess.refl (m : Memory) : ClaimsLess m m :=
  ⟨rfl, ⟨fun _ => true, by simp⟩, fun _ _ => rfl, fun _ h => h, rfl⟩

theorem ClaimsLess.trans {m k j : Memory} (h : ClaimsLess m k) (g : ClaimsLess k j) : ClaimsLess m j := by
  obtain ⟨p, hp⟩ := h.fewer
  obtain ⟨q, hq⟩ := g.fewer
  refine ⟨g.cells.trans h.cells, ⟨fun u => q u && p u, by rw [hq, hp, List.filter_filter]⟩, fun a ha => ?_, fun a ha => g.keeps a (h.keeps a ha), ?_⟩
  · rw [g.free a (by rw [hp]; exact claimAt_filter _ _ _ ha), h.free a ha]
  · have e1 := h.frame
    have e2 := g.frame
    rw [e2, e1]

/-- A byte that no claim held reads as before. -/
theorem ClaimsLess.read {m k : Memory} (h : ClaimsLess m k) (a : Nat) (ha : claimAt m.claims a = none) : k.read a = m.read a := by
  obtain ⟨p, hp⟩ := h.fewer
  unfold Memory.read
  rw [h.free a ha, hp, claimAt_filter _ _ _ ha, ha, h.cells]

theorem ClaimsLess.ofStack {s t : State} (h : StackFrame s t) : ClaimsLess s.mem t.mem := by
  unfold StackFrame at h
  rw [h]
  exact ⟨rfl, ⟨fun _ => true, by simp⟩, fun _ _ => rfl, fun _ h => h, rfl⟩

/-! ## complete -/

/-- What the end of a command may change. -/
def EndFrame (s t : State) : Prop :=
  ClaimsLess s.mem t.mem ∧ t = { s with
    cmds := t.cmds, queues := t.queues, counters := t.counters, compute := { s.compute with meres := t.compute.meres }
    rel := t.rel, mem := t.mem }

theorem EndFrame.refl (s : State) : EndFrame s s := ⟨.refl _, rfl⟩

theorem EndFrame.trans {a b c : State} (h : EndFrame a b) (g : EndFrame b c) : EndFrame a c := by
  refine ⟨h.1.trans g.1, ?_⟩
  have e1 := h.2
  have e2 := g.2
  rw [e2, e1]

/-- A change of commands, queues, tokens and Meres alone. -/
theorem EndFrame.light {s t : State} (h : t = { s with
    cmds := t.cmds, queues := t.queues, counters := t.counters, compute := { s.compute with meres := t.compute.meres } }) :
    EndFrame s t := by
  have e : t.mem = s.mem := by rw [h]
  refine ⟨e ▸ .refl _, ?_⟩
  rw [h]

theorem addTokens_frame (s : State) (q n k : Nat) : EndFrame s (addTokens s q n k) := by
  refine .light ?_
  unfold addTokens
  dsimp only
  split
  · rfl
  · split <;> rfl

theorem tokenAct_frame (s : State) (c : Cmd) (e : Err) : EndFrame s (tokenAct s c e) := by
  unfold tokenAct
  split
  · exact addTokens_frame _ _ _ _
  · refine .light ?_
    unfold poison
    split <;> rfl

theorem abandon_less (m : Memory) (cid : Nat) : ClaimsLess m (m.abandon cid) := by
  unfold Memory.abandon
  refine ⟨?_, ⟨fun u => u.cid != cid, ?_⟩, fun a ha => ?_, fun a ha => forgets_undefAt _ _ _ (.inl ha), ?_⟩
  · rw [forgets_frame]; rfl
  · rw [forgets_frame]; rfl
  · exact forgets_outside _ _ _ (fun u hu => claimAt_outside _ _ ha _ (List.mem_of_mem_filter hu))
  · rw [forgets_frame]; rfl

theorem own_less (m : Memory) (cid : Nat) : ClaimsLess m (m.own cid) :=
  ⟨rfl, ⟨_, rfl⟩, fun _ _ => rfl, fun _ h => h, rfl⟩

theorem endClaims_less (s : State) (c : Cmd) (k : Bool) : EndFrame s (endClaims s c k) := by
  have hp : ∀ (m : Memory) (p : Map (List (Nat × Nat))), ClaimsLess s.mem m → ClaimsLess s.mem { m with picked := p } := by
    intro m p h
    refine ⟨h.cells, h.fewer, h.free, h.keeps, ?_⟩
    have e := h.frame
    rw [e]
  unfold endClaims
  dsimp only
  split
  · exact ⟨hp _ _ (own_less _ _), rfl⟩
  · have hl := leaveFrames_frame (mget [] s.mem.picked c.cid)
      { s with mem := { s.mem.abandon c.cid with picked := mdel (s.mem.abandon c.cid).picked c.cid } }
    refine ⟨(hp _ _ (abandon_less _ _)).trans (.ofStack hl), ?_⟩
    unfold StackFrame at hl
    rw [hl]

/-- The claims of the command are gone. -/
theorem endClaims_released (s : State) (c : Cmd) (k : Bool) : ∀ u ∈ (endClaims s c k).mem.claims, u.cid ≠ c.cid := by
  have e : (endClaims s c k).mem.claims = s.mem.claims.filter (fun u => u.cid != c.cid) := by
    unfold endClaims
    dsimp only
    split
    · rfl
    · have hl := leaveFrames_frame (mget [] s.mem.picked c.cid)
        { s with mem := { s.mem.abandon c.cid with picked := mdel (s.mem.abandon c.cid).picked c.cid } }
      unfold StackFrame at hl
      rw [hl]
      show (s.mem.abandon c.cid).claims = _
      rw [Memory.abandon, forgets_frame]
      rfl
  intro u hu
  rw [e] at hu
  simpa using (List.mem_filter.mp hu).2

/-- What the command had claimed and did not commit is undefined. -/
theorem endClaims_undefined (s : State) (c : Cmd) (a : Nat) (u : Claim) (hu : u ∈ s.mem.claims) (hc : u.cid = c.cid)
    (h1 : u.start ≤ a) (h2 : a < u.start + u.len) : (undefAt (endClaims s c false).mem.undef a).isSome = true := by
  have hl := leaveFrames_frame (mget [] s.mem.picked c.cid)
    { s with mem := { s.mem.abandon c.cid with picked := mdel (s.mem.abandon c.cid).picked c.cid } }
  unfold StackFrame at hl
  unfold endClaims
  simp only [Bool.false_eq_true, if_false]
  rw [hl]
  exact forgets_undefAt _ _ _ (.inr ⟨u, List.mem_filter.mpr ⟨hu, by simp [hc]⟩, h1, h2⟩)

theorem replyAct_frame (s : State) (c : Cmd) (e : Err) (w : Nat) : EndFrame s (replyAct s c e w) := by
  refine (endClaims_less s c (c.opcode == 0x0102 && e.1 == 0x41)).trans (.light ?_)
  unfold replyAct
  dsimp only
  split <;> rfl

/-- Device memory after the reply act is that after the end of the claims. -/
theorem replyAct_mem_eq (s : State) (c : Cmd) (e : Err) (w : Nat) :
    (replyAct s c e w).mem = (endClaims s c (c.opcode == 0x0102 && e.1 == 0x41)).mem := by
  unfold replyAct
  dsimp only
  split <;> rfl

theorem finishOne_frame (s : State) (c : Cmd) (e : Err) (w : Nat) : EndFrame s (finishOne s c e w) :=
  (tokenAct_frame _ _ _).trans (replyAct_frame _ _ _ _)

theorem sweep_frame (n : Nat) (s : State) : EndFrame s (sweep n s) := by
  induction n generalizing s with
  | zero => exact .refl _
  | succ n ih =>
    simp only [sweep]
    split
    · exact (finishOne_frame _ _ _ _).trans (ih _)
    · exact .refl _

/-- The end of a command keeps the records of the others of a queue's replies. -/
theorem addTokens_replies (s : State) (q n k p : Nat) : (getQueue (addTokens s q n k) p).replies = (getQueue s p).replies := by
  unfold addTokens
  dsimp only
  split
  · rfl
  · split
    · rfl
    · by_cases h : p = q
      · subst h; rw [getQueue_setQueue_same]; rfl
      · rw [getQueue_setQueue_ne _ _ _ _ h]; rfl

theorem tokenAct_replies (s : State) (c : Cmd) (e : Err) (p : Nat) : (getQueue (tokenAct s c e) p).replies = (getQueue s p).replies := by
  unfold tokenAct
  split
  · exact addTokens_replies _ _ _ _ _
  · unfold poison; split <;> rfl

theorem endClaims_queue (s : State) (c : Cmd) (k : Bool) (p : Nat) : getQueue (endClaims s c k) p = getQueue s p := by
  have h : (endClaims s c k).queues = s.queues := by
    unfold endClaims
    dsimp only
    split
    · rfl
    · have hl := leaveFrames_frame (mget [] s.mem.picked c.cid)
        { s with mem := { s.mem.abandon c.cid with picked := mdel (s.mem.abandon c.cid).picked c.cid } }
      unfold StackFrame at hl
      rw [hl]
  unfold getQueue
  rw [h]

theorem replyAct_replies (s : State) (c : Cmd) (e : Err) (w p : Nat) :
    (getQueue (replyAct s c e w) p).replies =
      (getQueue s p).replies ++ (if p = c.q ∧ ¬(e.1 = 0 ∧ c.isQuiet = true) then [replyOf s c e w] else []) := by
  have hr : ∀ k, replyOf (dropCmd (releaseSeats (endClaims s c k) c.cid) c.cid) c e w = replyOf s c e w := by
    intro k
    have h := (endClaims_less s c k).2
    rw [h]
    rfl
  have hq : ∀ k p, getQueue (dropCmd (releaseSeats (endClaims s c k) c.cid) c.cid) p = getQueue s p := fun k p => endClaims_queue s c k p
  have hg : ∀ k v, replyOf (setQueue (dropCmd (releaseSeats (endClaims s c k) c.cid) c.cid) c.q v) c e w =
      replyOf (dropCmd (releaseSeats (endClaims s c k) c.cid) c.cid) c e w := fun _ _ => rfl
  unfold replyAct
  dsimp only
  by_cases hp : p = c.q
  · subst hp
    split
    · rename_i h
      simp [h, getQueue_setQueue_same, stickyOf, hq]
    · rename_i h
      rw [pushReply_replies]
      simp only [getQueue_setQueue_same, stickyOf, true_and, h, not_false_eq_true, if_true, hq]
  · split
    · rw [getQueue_setQueue_ne _ _ _ _ hp, hq]; simp [hp]
    · rw [pushReply_other _ _ _ _ hp, getQueue_setQueue_ne _ _ _ _ hp, hq]; simp [hp]

theorem finishOne_replies (s : State) (c : Cmd) (e : Err) (w p : Nat) (r : Reply) (h : r ∈ (getQueue s p).replies) :
    r ∈ (getQueue (finishOne s c e w) p).replies := by
  unfold finishOne
  dsimp only
  rw [replyAct_replies, tokenAct_replies]
  exact List.mem_append_left _ h

theorem sweep_replies (n : Nat) (s : State) (p : Nat) (r : Reply) (h : r ∈ (getQueue s p).replies) :
    r ∈ (getQueue (sweep n s) p).replies := by
  induction n generalizing s with
  | zero => exact h
  | succ n ih =>
    simp only [sweep]
    split
    · exact ih _ (finishOne_replies _ _ _ _ _ _ h)
    · exact h

theorem tokenAct_cmds (s : State) (c : Cmd) (e : Err) : (tokenAct s c e).cmds = s.cmds := by
  unfold tokenAct addTokens poison
  dsimp only
  repeat' split
  all_goals rfl

theorem endClaims_cmds (s : State) (c : Cmd) (k : Bool) : (endClaims s c k).cmds = s.cmds := by
  unfold endClaims
  dsimp only
  split
  · rfl
  · have hl := leaveFrames_frame (mget [] s.mem.picked c.cid)
      { s with mem := { s.mem.abandon c.cid with picked := mdel (s.mem.abandon c.cid).picked c.cid } }
    unfold StackFrame at hl
    rw [hl]

theorem replyAct_cmds_eq (s : State) (c : Cmd) (e : Err) (w : Nat) :
    (replyAct s c e w).cmds = s.cmds.filter (fun x => x.cid != c.cid) := by
  unfold replyAct
  dsimp only
  split
  · show (endClaims s c _).cmds.filter _ = _
    rw [endClaims_cmds]
  · show (endClaims s c _).cmds.filter _ = _
    rw [endClaims_cmds]

theorem finishOne_cmds (s : State) (c : Cmd) (e : Err) (w : Nat) :
    (finishOne s c e w).cmds = s.cmds.filter (fun x => x.cid != c.cid) := by
  unfold finishOne
  dsimp only
  rw [replyAct_cmds_eq, tokenAct_cmds]

theorem find_filter_none (l : List Cmd) (p : Cmd → Bool) (n : Nat) (h : l.find? (fun x => x.cid == n) = none) :
    (l.filter p).find? (fun x => x.cid == n) = none := by
  rw [List.find?_eq_none] at *
  intro x hx
  exact h x (List.mem_of_mem_filter hx)

theorem finishOne_gone (s : State) (c d : Cmd) (e : Err) (w : Nat) (h : findCmd s d.cid = none ∨ d.cid = c.cid) :
    findCmd (finishOne s c e w) d.cid = none := by
  unfold findCmd
  rw [finishOne_cmds]
  rcases h with h | h
  · exact find_filter_none _ _ _ h
  · rw [h]; simp [List.find?_eq_none]

theorem sweep_gone (n : Nat) (s : State) (d : Cmd) (h : findCmd s d.cid = none) : findCmd (sweep n s) d.cid = none := by
  induction n generalizing s with
  | zero => exact h
  | succ n ih =>
    simp only [sweep]
    split
    · exact ih _ (finishOne_gone _ _ _ _ _ (.inl h))
    · exact h

theorem getCounter_setCounter (s : State) (n k : Nat) (v : Counter) :
    getCounter (setCounter s n v) k = if k = n then v else getCounter s k := by
  simp [getCounter, setCounter, mget_mput]

theorem poison_count (s : State) (n k : Nat) : (getCounter (poison s n) k).count = (getCounter s k).count := by
  unfold poison
  split
  · rfl
  · rw [getCounter_setCounter]; split
    · rename_i h; rw [h]
    · rfl

theorem poison_keeps (s : State) (n k : Nat) (h : (getCounter s k).poison = true) : (getCounter (poison s n) k).poison = true := by
  unfold poison
  split
  · exact h
  · rw [getCounter_setCounter]; split
    · rfl
    · exact h

@[simp] theorem replyAct_counters (s : State) (c : Cmd) (e : Err) (w : Nat) : (replyAct s c e w).counters = s.counters := by
  have h : ∀ k, (endClaims s c k).counters = s.counters := by
    intro k
    unfold endClaims
    dsimp only
    split
    · rfl
    · have hl := leaveFrames_frame (mget [] s.mem.picked c.cid)
        { s with mem := { s.mem.abandon c.cid with picked := mdel (s.mem.abandon c.cid).picked c.cid } }
      unfold StackFrame at hl
      rw [hl]
  unfold replyAct
  dsimp only
  split
  · exact h _
  · exact h _

theorem getCounter_replyAct (s : State) (c : Cmd) (e : Err) (w k : Nat) : getCounter (replyAct s c e w) k = getCounter s k := by
  simp [getCounter]

theorem signals_killed (c : Cmd) (k m : Nat) : signals (finalStatus c (killed k m)).1 = false := by
  simp [finalStatus, killed, signals]

theorem sweep_counters (n : Nat) (s : State) (k : Nat) :
    (getCounter (sweep n s) k).count = (getCounter s k).count ∧
      ((getCounter s k).poison = true → (getCounter (sweep n s) k).poison = true) := by
  induction n generalizing s with
  | zero => exact ⟨rfl, id⟩
  | succ n ih =>
    simp only [sweep]
    split
    · rename_i c m _
      have hf : ∀ j, getCounter (finishOne s c (killed 1 m) 0) j = getCounter (poison s c.signal) j := by
        intro j
        unfold finishOne
        dsimp only
        rw [getCounter_replyAct, tokenAct, signals_killed]
        simp
      refine ⟨by rw [(ih _).1, hf, poison_count], fun h => (ih _).2 (by rw [hf]; exact poison_keeps _ _ _ h)⟩
    · exact ⟨rfl, id⟩

theorem addTokens_count (s : State) (q n k : Nat) (h : n ≠ 0) :
    (getCounter (addTokens s q n k) n).count = BitVec.ofNat 16 (min ((getCounter s n).count.toNat + k) 0xFFFF) := by
  have hs : ∀ (t : State) (q : Nat) (v : Queue) (j : Nat), getCounter (setQueue t q v) j = getCounter t j := fun _ _ _ _ => rfl
  unfold addTokens
  simp only [h, if_false]
  split
  · rw [getCounter_setCounter]; simp
  · rw [hs, getCounter_setCounter]; simp

/-- A completion (R46): token act, reply, and the kills that its poison causes. -/
theorem complete_ended (s : State) (c : Cmd) (e : Err) (w : Nat) : Ended s (complete s c e w) c e w := by
  have hf := tokenAct_frame s c (finalStatus c e)
  have hm : (tokenAct s c (finalStatus c e)).mem = s.mem := by
    unfold tokenAct addTokens poison
    dsimp only
    repeat' split
    all_goals rfl
  have hw := sweep_frame (finishOne s c e w).cmds.length (finishOne s c e w)
  have hc : ∀ k, getCounter (finishOne s c e w) k = getCounter (tokenAct s c (finalStatus c e)) k := by
    intro k; unfold finishOne; exact getCounter_replyAct _ _ _ _ _
  have ha : EndFrame s (complete s c e w) := (finishOne_frame _ _ _ _).trans hw
  refine ⟨?_, ?_, ?_, ?_, ?_, fun a h => ha.1.read a h, ?_, ?_⟩
  · exact sweep_gone _ _ _ (finishOne_gone _ _ _ _ _ (.inr rfl))
  · by_cases hq : (finalStatus c e).1 = 0 ∧ c.isQuiet = true
    · exact .inl hq
    · right
      apply sweep_replies
      unfold finishOne
      dsimp only
      rw [replyAct_replies]
      apply List.mem_append_right
      rw [if_pos ⟨rfl, hq⟩, List.mem_singleton]
      have h2 := hf.2
      rw [h2]
      rfl
  · intro hs hn
    rw [complete, settle, (sweep_counters _ _ _).1, hc, tokenAct, if_pos hs]
    exact addTokens_count _ _ _ _ hn
  · intro hs hn
    have ht : tokenAct s c (finalStatus c e) = poison s c.signal := by simp [tokenAct, hs]
    have hp : (getCounter (poison s c.signal) c.signal).poison = true := by
      unfold poison; rw [if_neg hn, getCounter_setCounter]; simp
    refine ⟨?_, ?_⟩
    · rw [complete, settle]; exact (sweep_counters _ _ _).2 (by rw [hc, ht]; exact hp)
    · rw [complete, settle, (sweep_counters _ _ _).1, hc, ht, poison_count]
  · obtain ⟨p, hp⟩ := hw.1.fewer
    intro u hu
    rw [complete, settle, hp] at hu
    have h1 := List.mem_of_mem_filter hu
    unfold finishOne at h1
    dsimp only at h1
    rw [replyAct_mem_eq] at h1
    exact endClaims_released _ _ _ u h1
  · intro hn u hu hcid a h1 h2
    have hk : (c.opcode == 0x0102 && (finalStatus c e).1 == 0x41) = false := by
      by_contra hx
      apply hn
      simpa using hx
    have h3 : (undefAt (complete s c e w).mem.undef a).isSome = true := by
      refine hw.1.keeps a ?_
      unfold finishOne
      dsimp only
      rw [replyAct_mem_eq, hk]
      exact endClaims_undefined _ _ _ u (by rw [hm]; exact hu) hcid h1 h2
    obtain ⟨n, h4⟩ := Option.isSome_iff_exists.mp h3
    exact ⟨n, by simp [Memory.read, h4]⟩
  · have e1 := ha.2
    have e2 := ha.1.frame
    conv_lhs => rw [e1, e2]

/-! ## Rows of work -/

/-- A command that runs on no Mere needs none. -/
theorem hasMeres_of_off {c : Cmd} (s : State) (h : onMeres c.opcode = false) : hasMeres s c = true := by
  simp [hasMeres, Cmd.meres, h]

/-- A dispatched command that has its Meres is the one in work. -/
theorem working_of {s : State} {cid op : Nat} {c : Cmd} (h : Running s cid op c) : working s cid [op] = some c := by
  obtain ⟨⟨h1, h2, h3⟩, h4⟩ := h
  simp [working, h1, h2, h3, h4]

/-- A dispatched command that runs on no Mere is the one in work. -/
theorem working_off {s : State} {cid op : Nat} {c : Cmd} (h : Dispatched s cid op c) (ho : onMeres op = false) :
    working s cid [op] = some c :=
  working_of ⟨h, hasMeres_of_off s (h.2.2 ▸ ho)⟩

/-- The command in work is the one found under its number. -/
theorem working_find {s : State} {cid : Nat} {ops : List Nat} {c : Cmd} (h : working s cid ops = some c) :
    findCmd s cid = some c ∧ c.cid = cid ∧ c.stage = .dispatched ∧ ops.contains c.opcode = true := by
  unfold working at h
  split at h
  · rename_i x hx
    split at h
    · rename_i hp
      cases h
      exact ⟨hx, findCmd_cid hx, hp.1, hp.2.1⟩
    · cases h
  · cases h

theorem working_self {s : State} {cid : Nat} {ops : List Nat} {c : Cmd} (h : working s cid ops = some c) : findCmd s c.cid = some c := by
  obtain ⟨h1, h2, -⟩ := working_find h
  rw [h2]; exact h1

@[simp] theorem onWork_some {s : State} {cid : Nat} {ops : List Nat} {c : Cmd} {f : Cmd → State} (h : working s cid ops = some c) :
    onWork s cid ops f = f c := by simp [onWork, h]

@[simp] theorem onWork_none {s : State} {cid : Nat} {ops : List Nat} {f : Cmd → State} (h : working s cid ops = none) :
    onWork s cid ops f = s := by simp [onWork, h]

/-! ## The update count -/

/-- `capSync` moves nothing but the update count. -/
theorem capSync_counted (s u : State) : Counted u (capSync s u) := by
  unfold capSync Counted
  split <;> rfl

/-! ## Units and steps -/

/-- A command on a unit that the module has. -/
@[simp] theorem onUnit_true (name : String) (n : Nat) (s : State) : onUnit true name n s = .next s := rfl

/-- A command on a unit that it has not. -/
@[simp] theorem onUnit_false (name : String) (n : Nat) (s : State) : onUnit false name n s = .fault (.noSuchUnit name n) := rfl

/-- A step takes the front of the queue. -/
theorem step_cons (s : State) (c : Instr) (rest : List Instr) (h : s.pending = c :: rest) :
    step s = exec c { s with pending := rest } := by simp [step, h]

/-- A step on an empty queue is a microsecond. -/
theorem step_nil (s : State) (h : s.pending = []) : step s = .next (tick s) := by simp [step, h]

end Sys2Proof.Machine
end

