-- ==== Sys2Proof/Laws/Canonical.lean ====
section
/-! SUPPORT. What every operation of the machine does to device memory: most leave it, the others keep its canonical form. One
lemma for each operation that answers a state, file by file. -/

namespace Sys2Proof.Machine

/-- A fold of a step that leaves device memory leaves it. -/
@[simp] theorem foldl_mem {α : Type} (f : State → α → State) (l : List α) (s : State)
    (hf : ∀ s a, (f s a).mem = s.mem) : (l.foldl f s).mem = s.mem := by
  induction l generalizing s with
  | nil => rfl
  | cons a t ih => rw [List.foldl_cons, ih, hf]

/-- A fold of a step that keeps the canonical form keeps it. -/
@[simp] theorem foldl_wf {α : Type} (f : State → α → State) (l : List α) (s : State) (h : s.mem.wf = true)
    (hf : ∀ s a, s.mem.wf = true → (f s a).mem.wf = true) : (l.foldl f s).mem.wf = true := by
  induction l generalizing s with
  | nil => exact h
  | cons a t ih => exact ih _ (hf _ _ h)

/-! ## Machine/Ops.lean -/

@[simp] theorem setStackS_wf (s : State) (n : Nat) (v : Stack) (hm : s.mem.wf = true) :
    (setStackS s n v).mem.wf = true := by
  simp_all (maxDischargeDepth := 12) [setStackS]

@[simp] theorem hbmWrite_wf (s : State) (a : Nat) (b : Bytes) (hm : s.mem.wf = true) :
    (hbmWrite s a b).mem.wf = true := by
  simp_all (maxDischargeDepth := 12) [hbmWrite]

@[simp] theorem hbmForget_wf (s : State) (a : Nat) (n : Nat) (hm : s.mem.wf = true) :
    (hbmForget s a n).mem.wf = true := by
  simp_all (maxDischargeDepth := 12) [hbmForget]

@[simp] theorem capSync_mem (old : State) (new : State) :
    (capSync old new).mem = new.mem := by
  unfold capSync
  try dsimp only
  (repeat' (split <;> try dsimp only)) <;> simp_all

@[simp] theorem logAdd_mem (s : State) (kind : Nat) (level : Nat) (die : Nat) (unit : Nat) (eflags : Nat) (status : Nat) (detail : Nat) (cause : Nat) (info : Bytes) :
    (logAdd s kind level die unit eflags status detail cause info).mem = s.mem := by
  unfold logAdd
  try dsimp only
  (repeat' (split <;> try dsimp only)) <;> simp_all

@[simp] theorem logNote_mem (s : State) (kind : Nat) (die : Nat) (unit : Nat) (info : Bytes) :
    (logNote s kind die unit info).mem = s.mem := by
  simp [logNote]

/-! ## Machine/Repair.lean -/

@[simp] theorem flagStack_wf (s : State) (n : Nat) (hm : s.mem.wf = true) :
    (flagStack s n).mem.wf = true := by
  unfold flagStack
  try dsimp only
  (repeat' (split <;> try dsimp only)) <;> simp_all (maxDischargeDepth := 12)

@[simp] theorem retireFrame_wf (s : State) (n : Nat) (f : Nat) (hm : s.mem.wf = true) :
    (retireFrame s n f).mem.wf = true := by
  unfold retireFrame
  try dsimp only
  (repeat' (split <;> try dsimp only)) <;> simp_all (maxDischargeDepth := 12)

@[simp] theorem markFrame_wf (s : State) (n : Nat) (f : Nat) (hm : s.mem.wf = true) :
    (markFrame s n f).mem.wf = true := by
  unfold markFrame
  try dsimp only
  (repeat' (split <;> try dsimp only)) <;> simp_all (maxDischargeDepth := 12)

@[simp] theorem markFrames_wf (n : Nat) (l0 : List Nat) (s : State) (hm : s.mem.wf = true) :
    (markFrames n l0 s).mem.wf = true := by
  induction l0 generalizing s with
  | nil => simp_all (maxDischargeDepth := 12) [markFrames]
  | cons a t ih =>
    simp only [markFrames]
    (repeat' (split <;> try dsimp only)) <;> simp_all (maxDischargeDepth := 12)

@[simp] theorem spentBank_wf (s : State) (n : Nat) (bank : Nat) (hm : s.mem.wf = true) :
    (spentBank s n bank).mem.wf = true := by
  unfold spentBank
  try dsimp only
  (repeat' (split <;> try dsimp only)) <;> simp_all (maxDischargeDepth := 12)

@[simp] theorem repairRow_wf (s : State) (n : Nat) (r : Nat × Nat) (hm : s.mem.wf = true) :
    (repairRow s n r).mem.wf = true := by
  unfold repairRow
  try dsimp only
  (repeat' (split <;> try dsimp only)) <;> simp_all (maxDischargeDepth := 12)

@[simp] theorem repairRows_wf (n : Nat) (l0 : List (Nat × Nat)) (s : State) (hm : s.mem.wf = true) :
    (repairRows n l0 s).mem.wf = true := by
  induction l0 generalizing s with
  | nil => simp_all (maxDischargeDepth := 12) [repairRows]
  | cons a t ih =>
    simp only [repairRows]
    (repeat' (split <;> try dsimp only)) <;> simp_all (maxDischargeDepth := 12)

@[simp] theorem leaveFrame_wf (s : State) (n : Nat) (f : Nat) (hm : s.mem.wf = true) :
    (leaveFrame s n f).mem.wf = true := by
  unfold leaveFrame
  try dsimp only
  (repeat' (split <;> try dsimp only)) <;> simp_all (maxDischargeDepth := 12)

@[simp] theorem rowFails_wf (s : State) (n : Nat) (frame : Nat) (row : Nat) (bank : Nat) (hm : s.mem.wf = true) :
    (rowFails s n frame row bank).mem.wf = true := by
  unfold rowFails
  try dsimp only
  (repeat' (split <;> try dsimp only)) <;> simp_all (maxDischargeDepth := 12)

@[simp] theorem rowError_wf (s : State) (n : Nat) (frame : Nat) (row : Nat) (bank : Nat) (hm : s.mem.wf = true) :
    (rowError s n frame row bank).mem.wf = true := by
  unfold rowError
  try dsimp only
  (repeat' (split <;> try dsimp only)) <;> simp_all (maxDischargeDepth := 12)

@[simp] theorem logUncorrectable_mem (s : State) (n : Nat) (frame : Nat) (addr : Nat) (scrub : Bool) (status : Nat) (detail : Nat) :
    (logUncorrectable s n frame addr scrub status detail).mem = s.mem := by
  simp [logUncorrectable]

@[simp] theorem sectorRead_wf (s : State) (n : Nat) (frame : Nat) (off : Nat) (k : Sector) (scrub : Bool) (status : Nat) (detail : Nat) (hm : s.mem.wf = true) :
    (sectorRead s n frame off k scrub status detail).mem.wf = true := by
  unfold sectorRead
  try dsimp only
  (repeat' (split <;> try dsimp only)) <;> simp_all (maxDischargeDepth := 12)

@[simp] theorem leaveFrames_wf (l0 : List (Nat × Nat)) (s : State) (hm : s.mem.wf = true) :
    (leaveFrames l0 s).mem.wf = true := by
  induction l0 generalizing s with
  | nil => simp_all (maxDischargeDepth := 12) [leaveFrames]
  | cons a t ih =>
    simp only [leaveFrames]
    (repeat' (split <;> try dsimp only)) <;> simp_all (maxDischargeDepth := 12)

@[simp] theorem unmapSpans_wf (s : State) (w : Nat) (first : Nat) (count : Nat) (hm : s.mem.wf = true) :
    (unmapSpans s w first count).mem.wf = true := by
  simp_all (maxDischargeDepth := 12) [unmapSpans]

@[simp] theorem mapSpans_wf (s : State) (w : Nat) (first : Nat) (owner : Nat) (frames : List (List Nat)) (hm : s.mem.wf = true) :
    (mapSpans s w first owner frames).mem.wf = true := by
  simp_all (maxDischargeDepth := 12) [mapSpans]

@[simp] theorem unmapAll_wf (s : State) (hm : s.mem.wf = true) :
    (unmapAll s).mem.wf = true := by
  simp_all (maxDischargeDepth := 12) [unmapAll]

/-! ## Machine/Flags.lean -/

@[simp] theorem addTokens_mem (s : State) (q : Nat) (n : Nat) (k : Nat) :
    (addTokens s q n k).mem = s.mem := by
  unfold addTokens
  try dsimp only
  (repeat' (split <;> try dsimp only)) <;> simp_all

@[simp] theorem poison_mem (s : State) (n : Nat) :
    (poison s n).mem = s.mem := by
  unfold poison
  try dsimp only
  (repeat' (split <;> try dsimp only)) <;> simp_all

@[simp] theorem takeTokens_mem (s : State) (l0 : List Nat) :
    (takeTokens s l0).mem = s.mem := by
  induction l0 generalizing s with
  | nil => simp [takeTokens]
  | cons a t ih =>
    simp only [takeTokens]
    (repeat' (split <;> try dsimp only)) <;> simp_all

@[simp] theorem returnTokens_mem (s : State) (q : Nat) (l0 : List Nat) :
    (returnTokens s q l0).mem = s.mem := by
  induction l0 generalizing s with
  | nil => simp [returnTokens]
  | cons a t ih =>
    simp only [returnTokens]
    (repeat' (split <;> try dsimp only)) <;> simp_all

@[simp] theorem tokenAct_mem (s : State) (c : Cmd) (e : Err) :
    (tokenAct s c e).mem = s.mem := by
  unfold tokenAct
  try dsimp only
  (repeat' (split <;> try dsimp only)) <;> simp_all

@[simp] theorem endClaims_wf (s : State) (c : Cmd) (kept : Bool) (hm : s.mem.wf = true) :
    (endClaims s c kept).mem.wf = true := by
  unfold endClaims
  try dsimp only
  (repeat' (split <;> try dsimp only)) <;> simp_all (maxDischargeDepth := 12)

@[simp] theorem replyAct_wf (s : State) (c : Cmd) (e : Err) (work : Nat) (hm : s.mem.wf = true) :
    (replyAct s c e work).mem.wf = true := by
  unfold replyAct
  try dsimp only
  (repeat' (split <;> try dsimp only)) <;> simp_all (maxDischargeDepth := 12)

@[simp] theorem finishOne_wf (s : State) (c : Cmd) (e : Err) (work : Nat) (hm : s.mem.wf = true) :
    (finishOne s c e work).mem.wf = true := by
  simp_all (maxDischargeDepth := 12) [finishOne]

@[simp] theorem sweep_wf (l0 : Nat) (s : State) (hm : s.mem.wf = true) :
    (sweep l0 s).mem.wf = true := by
  induction l0 generalizing s with
  | zero => simp_all (maxDischargeDepth := 12) [sweep]
  | succ n ih =>
    simp only [sweep]
    (repeat' (split <;> try dsimp only)) <;> simp_all (maxDischargeDepth := 12)

@[simp] theorem settle_wf (s : State) (hm : s.mem.wf = true) :
    (settle s).mem.wf = true := by
  simp_all (maxDischargeDepth := 12) [settle]

@[simp] theorem complete_wf (s : State) (c : Cmd) (e : Err) (work : Nat) (hm : s.mem.wf = true) :
    (complete s c e work).mem.wf = true := by
  simp_all (maxDischargeDepth := 12) [complete]

@[simp] theorem finishAll_wf (l0 : List (Cmd × Err)) (s : State) (hm : s.mem.wf = true) :
    (finishAll l0 s).mem.wf = true := by
  induction l0 generalizing s with
  | nil => simp_all (maxDischargeDepth := 12) [finishAll]
  | cons a t ih =>
    simp only [finishAll]
    (repeat' (split <;> try dsimp only)) <;> simp_all (maxDischargeDepth := 12)

@[simp] theorem tearMaster_wf (s : State) (c : Cmd) (hm : s.mem.wf = true) :
    (tearMaster s c).mem.wf = true := by
  unfold tearMaster
  try dsimp only
  (repeat' (split <;> try dsimp only)) <;> simp_all (maxDischargeDepth := 12)

@[simp] theorem tearAll_wf (l0 : List Cmd) (s : State) (hm : s.mem.wf = true) :
    (tearAll l0 s).mem.wf = true := by
  induction l0 generalizing s with
  | nil => simp_all (maxDischargeDepth := 12) [tearAll]
  | cons a t ih =>
    simp only [tearAll]
    (repeat' (split <;> try dsimp only)) <;> simp_all (maxDischargeDepth := 12)

@[simp] theorem failJob_wf (s : State) (stuck : Cmd → Bool) (observed : Option Nat) (hm : s.mem.wf = true) :
    (failJob s stuck observed).mem.wf = true := by
  unfold failJob
  try dsimp only
  (repeat' (split <;> try dsimp only)) <;> simp_all (maxDischargeDepth := 12)

/-! ## Machine/Operands.lean -/

@[simp] theorem countZip_mem (s : State) (die : Nat) (z : ZipStats) :
    (countZip s die z).mem = s.mem := by
  unfold countZip
  try dsimp only
  (repeat' (split <;> try dsimp only)) <;> simp_all

@[simp] theorem countEscapes_mem (s : State) (die : Nat) (esc : Nat) (spill : Nat) :
    (countEscapes s die esc spill).mem = s.mem := by
  simp [countEscapes]

@[simp] theorem countDamage_mem (s : State) (die : Nat) :
    (countDamage s die).mem = s.mem := by
  simp [countDamage]

@[simp] theorem claimAll_wf (s : State) (cid : Nat) (rs : List (Nat × Nat)) (hm : s.mem.wf = true) :
    (claimAll s cid rs).mem.wf = true := by
  unfold claimAll
  try dsimp only
  (repeat' (split <;> try dsimp only)) <;> simp_all (maxDischargeDepth := 12)

@[simp] theorem forgetAll_wf (l0 : List (Nat × Nat)) (s : State) (hm : s.mem.wf = true) :
    (forgetAll l0 s).mem.wf = true := by
  induction l0 generalizing s with
  | nil => simp_all (maxDischargeDepth := 12) [forgetAll]
  | cons a t ih =>
    simp only [forgetAll]
    (repeat' (split <;> try dsimp only)) <;> simp_all (maxDischargeDepth := 12)

@[simp] theorem ownView_wf (s : State) (cid : Nat) (hm : s.mem.wf = true) :
    (ownView s cid).mem.wf = true := by
  simp_all (maxDischargeDepth := 12) [ownView]

@[simp] theorem finishWork_wf (s : State) (c : Cmd) (r : Result) (hm : s.mem.wf = true) :
    (finishWork s c r).mem.wf = true := by
  unfold finishWork
  try dsimp only
  (repeat' (split <;> try dsimp only)) <;> simp_all (maxDischargeDepth := 12)

/-! ## Machine/Tiling.lean -/

@[simp] theorem countZips_mem (s : State) (l0 : List (Nat × ZipStats)) :
    (countZips s l0).mem = s.mem := by
  induction l0 generalizing s with
  | nil => simp [countZips]
  | cons a t ih =>
    simp only [countZips]
    (repeat' (split <;> try dsimp only)) <;> simp_all

@[simp] theorem applyRun_wf (s : State) (c : Cmd) (r : Run) (hm : s.mem.wf = true) :
    (applyRun s c r).mem.wf = true := by
  unfold applyRun
  try dsimp only
  (repeat' (split <;> try dsimp only)) <;> simp_all (maxDischargeDepth := 12)

@[simp] theorem onWork_wf (s : State) (cid : Nat) (ops : List Nat) (f : Cmd → State) (hm : s.mem.wf = true) (hff : ∀ (x0 : Cmd), (f x0).mem.wf = true) :
    (onWork s cid ops f).mem.wf = true := by
  unfold onWork
  try dsimp only
  (repeat' (split <;> try dsimp only)) <;> simp_all (maxDischargeDepth := 12)

@[simp] theorem onRun_wf (s : State) (cid : Nat) (ops : List Nat) (issue : State → Cmd → Option Err) (run : State → Cmd → Run) (hm : s.mem.wf = true) :
    (onRun s cid ops issue run).mem.wf = true := by
  unfold onRun
  (repeat' (split <;> try dsimp only)) <;>
    first
    | (simp_all (maxDischargeDepth := 12); done)
    | (refine onWork_wf _ _ _ _ hm (fun c => ?_)
       (repeat' (split <;> try dsimp only)) <;> simp_all (maxDischargeDepth := 12))

/-! ## Machine/Move.lean -/

@[simp] theorem pickFrames_wf (s : State) (cid : Nat) (r : Run) (hm : s.mem.wf = true) :
    (pickFrames s cid r).mem.wf = true := by
  unfold pickFrames
  try dsimp only
  (repeat' (split <;> try dsimp only)) <;> simp_all (maxDischargeDepth := 12)

/-! ## Machine/Ingest.lean -/

@[simp] theorem openIngest_mem (s : State) (st : Nat) (cfg : Bytes) (src : Nat) (rsv : Nat) (dict : Nat) (pos : DWord) (epoch : Word) (seed : Word) :
    (openIngest s st cfg src rsv dict pos epoch seed).mem = s.mem := by
  simp [openIngest]

@[simp] theorem closeIngest_mem (s : State) (st : Nat) :
    (closeIngest s st).mem = s.mem := by
  simp [closeIngest]

@[simp] theorem releaseSlot_mem (s : State) (st : Nat) (slot : Nat) :
    (releaseSlot s st slot).mem = s.mem := by
  simp [releaseSlot]

@[simp] theorem seekIngest_mem (s : State) (st : Nat) (pos : DWord) (epoch : Word) (rsv : Option DWord) :
    (seekIngest s st pos epoch rsv).mem = s.mem := by
  unfold seekIngest
  try dsimp only
  (repeat' (split <;> try dsimp only)) <;> simp_all

@[simp] theorem failBatch_wf (s : State) (st : Nat) (e : Err) (hm : s.mem.wf = true) :
    (failBatch s st e).mem.wf = true := by
  unfold failBatch
  try dsimp only
  (repeat' (split <;> try dsimp only)) <;> simp_all (maxDischargeDepth := 12)

@[simp] theorem meanStep_mem (s : State) (f : LaneField) (m : Media) (cycles : Nat) :
    (meanStep s f m cycles).mem = s.mem := by
  unfold meanStep
  try dsimp only
  (repeat' (split <;> try dsimp only)) <;> simp_all

@[simp] theorem putAll_wf (l0 : List (Nat × Bytes)) (s : State) (hm : s.mem.wf = true) :
    (putAll l0 s).mem.wf = true := by
  induction l0 generalizing s with
  | nil => simp_all (maxDischargeDepth := 12) [putAll]
  | cons a t ih =>
    simp only [putAll]
    (repeat' (split <;> try dsimp only)) <;> simp_all (maxDischargeDepth := 12)

@[simp] theorem countSat_mem (s : State) (n : Nat) :
    (countSat s n).mem = s.mem := by
  unfold countSat
  try dsimp only
  (repeat' (split <;> try dsimp only)) <;> simp_all

@[simp] theorem batchDone_wf (s : State) (c : Cmd) (notes : Nat) (work : Nat) (hm : s.mem.wf = true) :
    (batchDone s c notes work).mem.wf = true := by
  unfold batchDone
  try dsimp only
  (repeat' (split <;> try dsimp only)) <;> simp_all (maxDischargeDepth := 12)

@[simp] theorem commitBatch_wf (s : State) (stream : Nat) (g : Ingest) (a : Assembly) (c : Cmd) (hm : s.mem.wf = true) :
    (commitBatch s stream g a c).mem.wf = true := by
  unfold commitBatch
  try dsimp only
  (repeat' (split <;> try dsimp only)) <;> simp_all (maxDischargeDepth := 12)

@[simp] theorem sdshareSet_mem (s : State) (stream : Nat) (v : Word) :
    (sdshareSet s stream v).mem = s.mem := by
  unfold sdshareSet
  try dsimp only
  (repeat' (split <;> try dsimp only)) <;> simp_all

@[simp] theorem tailSet_mem (s : State) (stream : Nat) (reserve : Bool) (v : Word) :
    (tailSet s stream reserve v).mem = s.mem := by
  unfold tailSet
  try dsimp only
  (repeat' (split <;> try dsimp only)) <;> simp_all

@[simp] theorem discardAll_mem (s : State) :
    (discardAll s).mem = s.mem := by
  simp [discardAll]

@[simp] theorem closeStreams_mem (l0 : List Nat) (s : State) :
    (closeStreams l0 s).mem = s.mem := by
  induction l0 generalizing s with
  | nil => simp [closeStreams]
  | cons a t ih =>
    simp only [closeStreams]
    (repeat' (split <;> try dsimp only)) <;> simp_all

@[simp] theorem springLoad_mem (s : State) :
    (springLoad s).mem = s.mem := by
  simp [springLoad]

@[simp] theorem springWrite_mem (s : State) (off : Nat) (v : Word) :
    (springWrite s off v).mem = s.mem := by
  unfold springWrite
  try dsimp only
  (repeat' (split <;> try dsimp only)) <;> simp_all

/-! ## Machine/Links.lean -/

@[simp] theorem enqueueMsg_mem (s : State) (p : Nat) (m : TxMsg) :
    (enqueueMsg s p m).mem = s.mem := by
  simp [enqueueMsg]

/-- A message queued leaves device memory. -/
theorem sendTx_mem (s s1 : State) (d : Nat) (m : TxMsg) (h : sendTx s d m = some s1) : s1.mem = s.mem := by
  simp only [sendTx, Option.map_eq_some_iff] at h
  obtain ⟨p, -, rfl⟩ := h
  simp

/-- A message queued, or another state in its place. -/
@[simp] theorem sendTx_getD_mem (s s1 : State) (d : Nat) (m : TxMsg) (h : s1.mem = s.mem) : ((sendTx s d m).getD s1).mem = s.mem := by
  cases h1 : sendTx s d m with
  | none => exact h
  | some t => exact sendTx_mem s t d m h1

@[simp] theorem sendAll_mem (d : Nat) (l0 : List TxMsg) (s : State) :
    (sendAll d l0 s).1.mem = s.mem := by
  induction l0 generalizing s with
  | nil => simp [sendAll]
  | cons a t ih =>
    simp only [sendAll]
    split
    · rename_i s1 h1
      rw [ih, sendTx_mem s s1 d a h1]
    · rfl

/-- Messages queued one after the other, each from the state so far, and counted. -/
theorem foldSend_wf {α : Type} (d : Nat) (f : State × Nat → α → TxMsg) (l : List α) (p : State × Nat) (hp : p.1.mem.wf = true) :
    (l.foldl (fun (a : State × Nat) b => match sendTx a.1 d (f a b) with
      | some s1 => (s1, a.2 + 1)
      | none => a) p).1.mem.wf = true := by
  induction l generalizing p with
  | nil => exact hp
  | cons b t ih =>
    rw [List.foldl_cons]
    refine ih _ ?_
    split
    · rename_i h2; rw [sendTx_mem _ _ _ _ h2]; exact hp
    · exact hp

@[simp] theorem lostBlock_mem (s : State) (m : TxMsg) :
    (lostBlock s m).mem = s.mem := by
  unfold lostBlock
  try dsimp only
  (repeat' (split <;> try dsimp only)) <;> simp_all

@[simp] theorem rerouteMsg_wf (p : Nat) (s : State) (m : TxMsg) (hm : s.mem.wf = true) :
    (rerouteMsg p s m).mem.wf = true := by
  unfold rerouteMsg
  split
  · rw [sendTx_mem _ _ _ _ (by assumption)]; exact hm
  · (repeat' split) <;> simp_all

@[simp] theorem portLost_wf (s : State) (p : Nat) (hm : s.mem.wf = true) :
    (portLost s p).mem.wf = true := by
  simp_all (maxDischargeDepth := 12) [portLost]

@[simp] theorem portDown_wf (s : State) (p : Nat) (cause : Nat) (hm : s.mem.wf = true) :
    (portDown s p cause).mem.wf = true := by
  simp_all (maxDischargeDepth := 12) [portDown]

@[simp] theorem portsDown_wf (cause : Nat) (l0 : List Nat) (s : State) (hm : s.mem.wf = true) :
    (portsDown cause l0 s).mem.wf = true := by
  induction l0 generalizing s with
  | nil => simp_all (maxDischargeDepth := 12) [portsDown]
  | cons a t ih =>
    simp only [portsDown]
    (repeat' (split <;> try dsimp only)) <;> simp_all (maxDischargeDepth := 12)

@[simp] theorem lastingFailure_wf (s : State) (p : Nat) (l : Nat) (hm : s.mem.wf = true) :
    (lastingFailure s p l).mem.wf = true := by
  unfold lastingFailure
  try dsimp only
  (repeat' (split <;> try dsimp only)) <;> simp_all (maxDischargeDepth := 12)

@[simp] theorem failLane_wf (s : State) (p : Nat) (l : Nat) (retrainOk : Bool) (hm : s.mem.wf = true) :
    (failLane s p l retrainOk).mem.wf = true := by
  unfold failLane
  try dsimp only
  (repeat' (split <;> try dsimp only)) <;> simp_all (maxDischargeDepth := 12)

@[simp] theorem retrainPort_mem (s : State) (p : Nat) :
    (retrainPort s p).mem = s.mem := by
  unfold retrainPort
  try dsimp only
  (repeat' (split <;> try dsimp only)) <;> simp_all

@[simp] theorem portEnable_mem (s : State) (p : Nat) :
    (portEnable s p).mem = s.mem := by
  unfold portEnable
  try dsimp only
  (repeat' (split <;> try dsimp only)) <;> simp_all

@[simp] theorem portDisable_wf (s : State) (p : Nat) (hm : s.mem.wf = true) :
    (portDisable s p).mem.wf = true := by
  unfold portDisable
  try dsimp only
  (repeat' (split <;> try dsimp only)) <;> simp_all (maxDischargeDepth := 12)

@[simp] theorem genCapWrite_mem (s : State) (p : Nat) (n : Nat) :
    (genCapWrite s p n).mem = s.mem := by
  unfold genCapWrite
  try dsimp only
  (repeat' (split <;> try dsimp only)) <;> simp_all

@[simp] theorem outFlit_mem (s : State) (p : Nat) (v : Port) (b : Bytes) :
    (outFlit s p v b).mem = s.mem := by
  simp [outFlit]

@[simp] theorem sendNew_mem (s : State) (p : Nat) (v : Port) (typ : Nat) (cls : Nat) (len : Nat) (msg : Nat) (frag : Nat) (payload : Bytes) :
    (sendNew s p v typ cls len msg frag payload).mem = s.mem := by
  simp [sendNew]

@[simp] theorem sendFragment_mem (s : State) (p : Nat) (v : Port) (m : TxMsg) :
    (sendFragment s p v m).mem = s.mem := by
  unfold sendFragment
  try dsimp only
  (repeat' (split <;> try dsimp only)) <;> simp_all

@[simp] theorem flitSlot_mem (s : State) (p : Nat) :
    (flitSlot s p).mem = s.mem := by
  unfold flitSlot
  try dsimp only
  (repeat' (split <;> try dsimp only)) <;> simp_all

@[simp] theorem rewind_wf (s : State) (p : Nat) (v : Port) (retrainOk : Bool) (hm : s.mem.wf = true) :
    (rewind s p v retrainOk).mem.wf = true := by
  unfold rewind
  try dsimp only
  (repeat' (split <;> try dsimp only)) <;> simp_all (maxDischargeDepth := 12)

@[simp] theorem onNak_wf (s : State) (p : Nat) (v : Port) (ack : Nat) (hm : s.mem.wf = true) :
    (onNak s p v ack).mem.wf = true := by
  unfold onNak
  try dsimp only
  (repeat' (split <;> try dsimp only)) <;> simp_all (maxDischargeDepth := 12)

@[simp] theorem deliverMsg_mem (s : State) (p : Nat) (cls : Nat) (data : Bytes) :
    (deliverMsg s p cls data).mem = s.mem := by
  unfold deliverMsg
  dsimp only
  split
  · rfl
  · split
    · exact sendTx_getD_mem _ _ _ _ rfl
    · rfl

@[simp] theorem takeFlit_mem (s : State) (p : Nat) (v : Port) (b : Bytes) :
    (takeFlit s p v b).mem = s.mem := by
  unfold takeFlit
  try dsimp only
  (repeat' (split <;> try dsimp only)) <;> simp_all

@[simp] theorem badFlit_wf (s : State) (p : Nat) (hm : s.mem.wf = true) :
    (badFlit s p).mem.wf = true := by
  unfold badFlit
  try dsimp only
  (repeat' (split <;> try dsimp only)) <;> simp_all (maxDischargeDepth := 12)

@[simp] theorem goodFlit_wf (s : State) (p : Nat) (b : Bytes) (hm : s.mem.wf = true) :
    (goodFlit s p b).mem.wf = true := by
  unfold goodFlit
  try dsimp only
  (repeat' (split <;> try dsimp only)) <;> simp_all (maxDischargeDepth := 12)

@[simp] theorem landMirrors_mem (s : State) :
    (landMirrors s).mem = s.mem := rfl

/-! ## Machine/Basin.lean -/

@[simp] theorem storeColl_mem (s : State) (co : Coll) :
    (storeColl s co).mem = s.mem := by
  simp [storeColl]

@[simp] theorem dropColl_mem (s : State) (co : Coll) :
    (dropColl s co).mem = s.mem := by
  simp [dropColl]

@[simp] theorem failColl_wf (s : State) (c : Cmd) (co : Coll) (e : Err) (hm : s.mem.wf = true) :
    (failColl s c co e).mem.wf = true := by
  unfold failColl
  try dsimp only
  (repeat' (split <;> try dsimp only)) <;> simp_all (maxDischargeDepth := 12)

@[simp] theorem endReduction_wf (s : State) (c : Cmd) (co : Coll) (off : Nat) (low : Nat) (hm : s.mem.wf = true) :
    (endReduction s c co off low).mem.wf = true := by
  unfold endReduction
  try dsimp only
  (repeat' (split <;> try dsimp only)) <;> simp_all (maxDischargeDepth := 12)

/-- The state that a turn of a collective leaves. -/
def CollNext.state : CollNext → State
  | .wait s _ => s
  | .go s _ => s
  | .done s => s

@[simp] theorem CollNext.state_wait (s : State) (co : Coll) : (CollNext.wait s co).state = s := rfl

@[simp] theorem CollNext.state_go (s : State) (co : Coll) : (CollNext.go s co).state = s := rfl

@[simp] theorem CollNext.state_done (s : State) : (CollNext.done s).state = s := rfl

@[simp] theorem sendFor_wf (s : State) (c : Cmd) (co : Coll) (ms : List TxMsg) (hm : s.mem.wf = true) :
    (sendFor s c co ms).state.mem.wf = true := by
  unfold sendFor
  have h1 : (sendAll 0 ms s).1.mem = s.mem := sendAll_mem 0 ms s
  split <;> rename_i h2 <;> rw [h2] at h1 <;> simp_all

@[simp] theorem closeRound_wf (s : State) (c : Cmd) (co : Coll) (hm : s.mem.wf = true) :
    (closeRound s c co).state.mem.wf = true := by
  unfold closeRound
  dsimp only
  (repeat' split) <;> simp_all

@[simp] theorem reduceStage_wf (s : State) (c : Cmd) (co : Coll) (hm : s.mem.wf = true) :
    (reduceStage s c co).state.mem.wf = true := by
  unfold reduceStage
  dsimp only
  split
  · exact hm
  · (repeat' split) <;> exact sendFor_wf _ _ _ _ hm

@[simp] theorem gatherStage_wf (s : State) (c : Cmd) (co : Coll) (hm : s.mem.wf = true) :
    (gatherStage s c co).state.mem.wf = true := by
  unfold gatherStage
  dsimp only
  split
  · exact hm
  · split
    · exact finishWork_wf _ _ _ (by simpa using hm)
    · exact sendFor_wf _ _ _ _ hm

@[simp] theorem offerKept_mem (s : State) (c : Cmd) (co : Coll) : (offerKept s c co).1.mem = s.mem := rfl

@[simp] theorem collTurn_wf (s : State) (c : Cmd) (co : Coll) (hm : s.mem.wf = true) :
    (collTurn s c co).state.mem.wf = true := by
  unfold collTurn
  (repeat' split) <;> simp_all

@[simp] theorem collRun_wf (n : Nat) (s : State) (c : Cmd) (co : Coll) (hm : s.mem.wf = true) :
    (collRun n s c co).mem.wf = true := by
  induction n generalizing s co with
  | zero => simpa [collRun] using hm
  | succ n ih =>
    have h1 := collTurn_wf s c co hm
    simp only [collRun]
    split <;> rename_i h2 <;> rw [h2] at h1
    · simpa using h1
    · exact ih _ _ (by simpa using h1)
    · exact h1

@[simp] theorem runColl_wf (s : State) (c : Cmd) (co : Coll) (hm : s.mem.wf = true) :
    (runColl s c co).mem.wf = true := by
  simp_all (maxDischargeDepth := 12) [runColl]

@[simp] theorem standbyCheck_wf (s : State) (c : Cmd) (co : Coll) (hm : s.mem.wf = true) :
    (standbyCheck s c co).mem.wf = true := by
  unfold standbyCheck
  try dsimp only
  (repeat' (split <;> try dsimp only)) <;> simp_all (maxDischargeDepth := 12)

@[simp] theorem heardFrom_wf (s : State) (c : Cmd) (co : Coll) (src : Nat) (pull : Bool) (hm : s.mem.wf = true) :
    (heardFrom s c co src pull).mem.wf = true := by
  unfold heardFrom
  dsimp only
  have h1 : (sendAll 0 (copyMsgs s c { co with heard := addTo co.heard src } src) s).1.mem = s.mem := sendAll_mem _ _ _
  split
  · split <;> rename_i h2 <;> rw [h2] at h1
    · split
      · exact standbyCheck_wf _ _ _ (by rw [h1]; exact hm)
      · simp only [storeColl_mem]; rw [h1]; exact hm
    · exact failColl_wf _ _ _ _ (by rw [h1]; exact hm)
  · split <;> simp_all

@[simp] theorem unkeep_mem (s : State) (h : Header) (payload : Bytes) :
    (unkeep s h payload).mem = s.mem := by
  simp [unkeep]

@[simp] theorem keepMsg_mem (s : State) (h : Header) (payload : Bytes) :
    (keepMsg s h payload).mem = s.mem := by
  simp [keepMsg]

@[simp] theorem onMessage_wf (s : State) (h : Header) (payload : Bytes) (f : State → State) (hm : s.mem.wf = true) (hff : ∀ (x0 : State), x0.mem.wf = true → (f x0).mem.wf = true) :
    (onMessage s h payload f).mem.wf = true := by
  unfold onMessage
  try dsimp only
  (repeat' (split <;> try dsimp only)) <;> simp_all (maxDischargeDepth := 12)

@[simp] theorem offerShort_wf (cid : Nat) (l0 : List (Header × Bytes)) (s : State) (hm : s.mem.wf = true) :
    (offerShort cid l0 s).mem.wf = true := by
  induction l0 generalizing s with
  | nil => simp_all (maxDischargeDepth := 12) [offerShort]
  | cons a t ih =>
    simp only [offerShort]
    (repeat' (split <;> try dsimp only)) <;> simp_all (maxDischargeDepth := 12)

@[simp] theorem startColl_wf (s : State) (c : Cmd) (hm : s.mem.wf = true) :
    (startColl s c).mem.wf = true := by
  unfold startColl
  dsimp only
  split
  · exact hm
  · split
    · exact complete_wf _ _ _ _ hm
    · split
      · exact offerShort_wf _ _ _ (standbyCheck_wf _ _ _ (by simpa using hm))
      · have h1 := sendFor_wf s c (newColl s c) (firstMsgs s c (newColl s c)) hm
        split <;> rename_i h2 <;> rw [h2] at h1
        · exact offerShort_wf _ _ _ (runColl_wf _ _ _ (by simpa using h1))
        · simpa using h1
        · exact h1

@[simp] theorem collStart_wf (op : Nat) (cid : Nat) (s : State) (hm : s.mem.wf = true) :
    (collStart op cid s).mem.wf = true := by
  unfold collStart
  refine onWork_wf _ _ _ _ hm (fun c => ?_)
  (repeat' split) <;> simp_all

@[simp] theorem collMessage_wf (h : Header) (payload : Bytes) (s : State) (hm : s.mem.wf = true) :
    (collMessage h payload s).mem.wf = true := by
  unfold collMessage
  refine onMessage_wf _ _ _ _ hm (fun x hx => ?_)
  split
  · split
    · dsimp only
      split <;> simp_all
    · exact hx
  · simpa using hx

/-! ## Machine/Update.lean -/

@[simp] theorem sendBlocks_wf (slot : Nat) (mr : Mirror) (c : Cmd) (gen : Nat) (first : Nat) (n : Nat) (d1 : Desc) (d2 : Desc) (es : List NewElem) (s : State) (hm : s.mem.wf = true) :
    (sendBlocks slot mr c gen first n d1 d2 es s).1.mem.wf = true := by
  exact foldSend_wf 0 _ _ _ hm

@[simp] theorem fillMirror_wf (s : State) (c : Cmd) (gen : Nat) (e : Nat) (d1 : Desc) (d2 : Desc) (es : List NewElem) (hm : s.mem.wf = true) :
    (fillMirror s c gen e d1 d2 es).mem.wf = true := by
  unfold fillMirror
  try dsimp only
  (repeat' (split <;> try dsimp only)) <;> simp_all (maxDischargeDepth := 12)

@[simp] theorem offerHigh_wf (s : State) (c : Cmd) (a : Nat) (b : Bytes) (hm : s.mem.wf = true) :
    (offerHigh s c a b).mem.wf = true := by
  simp_all (maxDischargeDepth := 12) [offerHigh]

@[simp] theorem updateOffered_wf (s : State) (c : Cmd) (hm : s.mem.wf = true) :
    (updateOffered s c).mem.wf = true := by
  simp_all (maxDischargeDepth := 12) [updateOffered]

@[simp] theorem updateRun_wf (s : State) (c : Cmd) (hm : s.mem.wf = true) :
    (updateRun s c).mem.wf = true := by
  unfold updateRun
  try dsimp only
  (repeat' (split <;> try dsimp only)) <;> simp_all (maxDischargeDepth := 12)

@[simp] theorem updateTurn_wf (ops : List Nat) (cid : Nat) (s : State) (hm : s.mem.wf = true) :
    (updateTurn ops cid s).mem.wf = true := by
  unfold updateTurn
  (repeat' (split <;> try dsimp only)) <;>
    first
    | (simp_all (maxDischargeDepth := 12); done)
    | (refine onWork_wf _ _ _ _ hm (fun c => ?_)
       (repeat' (split <;> try dsimp only)) <;> simp_all (maxDischargeDepth := 12))

/-! ## Machine/Mirrors.lean -/

@[simp] theorem setMirror_mem (s : State) (k : Nat) (v : Mirror) :
    (setMirror s k v).mem = s.mem := by
  simp [setMirror]

@[simp] theorem dropMirror_mem (s : State) (k : Nat) :
    (dropMirror s k).mem = s.mem := by
  simp [dropMirror]

@[simp] theorem storeHost_wf (s : State) (slot : Nat) (mr : Mirror) (hm : s.mem.wf = true) :
    (storeHost s slot mr).mem.wf = true := by
  unfold storeHost
  try dsimp only
  (repeat' (split <;> try dsimp only)) <;> simp_all (maxDischargeDepth := 12)

@[simp] theorem sendLoose_mem (s : State) (m : TxMsg) :
    (sendLoose s m).mem = s.mem := by
  simp [sendLoose]

@[simp] theorem sendOrLose_wf (s : State) (c : Cmd) (m : TxMsg) (hm : s.mem.wf = true) :
    (sendOrLose s c m).mem.wf = true := by
  unfold sendOrLose
  split
  · rw [sendTx_mem _ _ _ _ (by assumption)]; exact hm
  · exact complete_wf _ _ _ _ hm

@[simp] theorem mirrorConfigEnd_wf (s : State) (c : Cmd) (slot : Nat) (hm : s.mem.wf = true) :
    (mirrorConfigEnd s c slot).mem.wf = true := by
  unfold mirrorConfigEnd
  try dsimp only
  (repeat' (split <;> try dsimp only)) <;> simp_all (maxDischargeDepth := 12)

@[simp] theorem mirrorConfigRun_wf (s : State) (c : Cmd) (hm : s.mem.wf = true) :
    (mirrorConfigRun s c).mem.wf = true := by
  unfold mirrorConfigRun
  try dsimp only
  (repeat' (split <;> try dsimp only)) <;> simp_all (maxDischargeDepth := 12)

@[simp] theorem fillWhole_wf (s : State) (c : Cmd) (slot : Nat) (hm : s.mem.wf = true) :
    (fillWhole s c slot).mem.wf = true := by
  refine mirrorConfigEnd_wf _ _ _ ?_
  exact foldSend_wf 0 (fun (a : State × Nat) b => { mirrorMsg a.1 c.phase (getMirror s slot).laxis (getMirror s slot).partner slot 0 none [] with
      data := classHeader (getMirror s slot).partner (ownRank s) (BitVec.ofNat 32 slot) (BitVec.ofNat 32 b) ++
        toLe 8 (readDesc s (c.arg 0x10 2)).generation ++
        localBlock s (readDesc s (c.arg 0x10 2)) (descOr s (c.arg 0x12 2)) (descOr s (c.arg 0x14 2)) b }) _ _ hm

@[simp] theorem answerSize_wf (s : State) (slot : Nat) (mr : Mirror) (hm : s.mem.wf = true) :
    (answerSize s slot mr).mem.wf = true := by
  unfold answerSize
  try dsimp only
  (repeat' (split <;> try dsimp only)) <;> simp_all (maxDischargeDepth := 12)

@[simp] theorem configureHost_wf (s : State) (slot : Nat) (partner : Nat) (laxis : Nat) (desc : Nat) (hm : s.mem.wf = true) :
    (configureHost s slot partner laxis desc).mem.wf = true := by
  unfold configureHost
  try dsimp only
  (repeat' (split <;> try dsimp only)) <;> simp_all (maxDischargeDepth := 12)

@[simp] theorem removeMirror_mem (s : State) (slot : Nat) :
    (removeMirror s slot).mem = s.mem := by
  unfold removeMirror
  try dsimp only
  (repeat' (split <;> try dsimp only)) <;> simp_all

@[simp] theorem writeShares_wf (base : Nat) (images : List Nat) (b : Nat) (l0 : List Nat) (l1 : Bytes) (s : State) (hm : s.mem.wf = true) :
    (writeShares base images b l0 l1 s).mem.wf = true := by
  induction l0 generalizing l1 s with
  | nil => simp_all (maxDischargeDepth := 12) [writeShares]
  | cons a t ih =>
    simp only [writeShares]
    (repeat' (split <;> try dsimp only)) <;> simp_all (maxDischargeDepth := 12)

@[simp] theorem landBlock_wf (s : State) (slot : Nat) (mr0 : Mirror) (b : Nat) (gen : Nat) (data : Bytes) (hm : s.mem.wf = true) :
    (landBlock s slot mr0 b gen data).mem.wf = true := by
  unfold landBlock
  try dsimp only
  (repeat' (split <;> try dsimp only)) <;> simp_all (maxDischargeDepth := 12)

@[simp] theorem breakMirror_mem (s : State) (slot : Nat) :
    (breakMirror s slot).mem = s.mem := by
  simp [breakMirror]

@[simp] theorem mirrorCommit_mem (s : State) (slot : Nat) (state : Nat) (genC : DWord) (genF : DWord) (done : Nat) :
    (mirrorCommit s slot state genC genF done).mem = s.mem := by
  unfold mirrorCommit
  try dsimp only
  (repeat' (split <;> try dsimp only)) <;> simp_all

@[simp] theorem verifyResult_wf (s : State) (c : Cmd) (slot : Nat) (values : List Word) (hm : s.mem.wf = true) :
    (verifyResult s c slot values).mem.wf = true := by
  unfold verifyResult
  try dsimp only
  (repeat' (split <;> try dsimp only)) <;> simp_all (maxDischargeDepth := 12)

@[simp] theorem restoreAnswer_wf (s : State) (c : Cmd) (slot : Nat) (state : Nat) (genC : DWord) (genF : DWord) (done : Nat) (image : Bytes) (hm : s.mem.wf = true) :
    (restoreAnswer s c slot state genC genF done image).mem.wf = true := by
  unfold restoreAnswer
  try dsimp only
  (repeat' (split <;> try dsimp only)) <;> simp_all (maxDischargeDepth := 12)

@[simp] theorem hearSize_wf (s : State) (slot : Nat) (src : Nat) (images : List Nat) (hm : s.mem.wf = true) :
    (hearSize s slot src images).mem.wf = true := by
  unfold hearSize
  try dsimp only
  (repeat' (split <;> try dsimp only)) <;> simp_all (maxDischargeDepth := 12)

@[simp] theorem mirrorHear_wf (s : State) (h : Header) (msg : MirrorMsg) (hm : s.mem.wf = true) :
    (mirrorHear s h msg).mem.wf = true := by
  unfold mirrorHear
  try dsimp only
  (repeat' (split <;> try dsimp only)) <;> simp_all (maxDischargeDepth := 12)

/-! ## Machine/Contain.lean -/

@[simp] theorem domainsOff_mem (s : State) (l : List Nat) :
    (domainsOff s l).mem = s.mem := rfl

@[simp] theorem stacksSleep_wf (s : State) (l : List Nat) (hm : s.mem.wf = true) :
    (stacksSleep s l).mem.wf = true := by
  simp_all (maxDischargeDepth := 12) [stacksSleep]

@[simp] theorem raiseKirq_mem (s : State) :
    (raiseKirq s).mem = s.mem := by
  unfold raiseKirq
  try dsimp only
  (repeat' (split <;> try dsimp only)) <;> simp_all

@[simp] theorem enterSafe_wf (s : State) (stage : Nat) (hm : s.mem.wf = true) :
    (enterSafe s stage).mem.wf = true := by
  simp_all (maxDischargeDepth := 12) [enterSafe]

@[simp] theorem endReruns_wf (s : State) (hm : s.mem.wf = true) :
    (endReruns s).mem.wf = true := by
  simp_all (maxDischargeDepth := 12) [endReruns]

@[simp] theorem jobFails_wf (s : State) (lost : List Nat) (observed : Option Nat) (hm : s.mem.wf = true) :
    (jobFails s lost observed).mem.wf = true := by
  unfold jobFails
  try dsimp only
  (repeat' (split <;> try dsimp only)) <;> simp_all (maxDischargeDepth := 12)

@[simp] theorem jobFailsAll_wf (s : State) (hm : s.mem.wf = true) :
    (jobFailsAll s).mem.wf = true := by
  simp_all (maxDischargeDepth := 12) [jobFailsAll]

@[simp] theorem stopCmd_wf (s : State) (c : Cmd) (hm : s.mem.wf = true) :
    (stopCmd s c).mem.wf = true := by
  unfold stopCmd
  try dsimp only
  (repeat' (split <;> try dsimp only)) <;> simp_all (maxDischargeDepth := 12)

@[simp] theorem stopCmds_wf (l0 : List Cmd) (s : State) (hm : s.mem.wf = true) :
    (stopCmds l0 s).mem.wf = true := by
  induction l0 generalizing s with
  | nil => simp_all (maxDischargeDepth := 12) [stopCmds]
  | cons a t ih =>
    simp only [stopCmds]
    (repeat' (split <;> try dsimp only)) <;> simp_all (maxDischargeDepth := 12)

@[simp] theorem endOnLast_wf (s : State) (d : Nat) (l : Nat) (phys : Nat) (hm : s.mem.wf = true) :
    (endOnLast s d l phys).mem.wf = true := by
  simp_all (maxDischargeDepth := 12) [endOnLast]

@[simp] theorem retireMere_wf (s : State) (phys : Nat) (hm : s.mem.wf = true) :
    (retireMere s phys).mem.wf = true := by
  unfold retireMere
  try dsimp only
  (repeat' (split <;> try dsimp only)) <;> simp_all (maxDischargeDepth := 12)

@[simp] theorem retireMeres_wf (l0 : List Nat) (s : State) (hm : s.mem.wf = true) :
    (retireMeres l0 s).mem.wf = true := by
  induction l0 generalizing s with
  | nil => simp_all (maxDischargeDepth := 12) [retireMeres]
  | cons a t ih =>
    simp only [retireMeres]
    (repeat' (split <;> try dsimp only)) <;> simp_all (maxDischargeDepth := 12)

@[simp] theorem killOn_wf (s : State) (l : List Nat) (hm : s.mem.wf = true) :
    (killOn s l).mem.wf = true := by
  simp_all (maxDischargeDepth := 12) [killOn]

@[simp] theorem portsGone_wf (l0 : List Nat) (s : State) (hm : s.mem.wf = true) :
    (portsGone l0 s).mem.wf = true := by
  induction l0 generalizing s with
  | nil => simp_all (maxDischargeDepth := 12) [portsGone]
  | cons a t ih =>
    simp only [portsGone]
    (repeat' (split <;> try dsimp only)) <;> simp_all (maxDischargeDepth := 12)

@[simp] theorem markLost_mem (s : State) (l : List Nat) :
    (markLost s l).mem = s.mem := by
  simp [markLost]

@[simp] theorem takeDie_wf (s : State) (d : Nat) (hm : s.mem.wf = true) :
    (takeDie s d).mem.wf = true := by
  unfold takeDie
  try dsimp only
  (repeat' (split <;> try dsimp only)) <;> simp_all (maxDischargeDepth := 12)

@[simp] theorem logSite_mem (s : State) (e : ErrorSite) (flags : Nat) (cause : Nat) :
    (logSite s e flags cause).mem = s.mem := by
  unfold logSite
  try dsimp only
  (repeat' (split <;> try dsimp only)) <;> simp_all

@[simp] theorem countLevel_mem (s : State) (l : Nat) :
    (countLevel s l).mem = s.mem := by
  simp [countLevel]

@[simp] theorem handleModule_wf (s : State) (hm : s.mem.wf = true) :
    (handleModule s).mem.wf = true := by
  simp_all (maxDischargeDepth := 12) [handleModule]

@[simp] theorem handleSite_wf (s : State) (e : ErrorSite) (hm : s.mem.wf = true) :
    (handleSite s e).mem.wf = true := by
  unfold handleSite
  try dsimp only
  (repeat' (split <;> try dsimp only)) <;> simp_all (maxDischargeDepth := 12)

@[simp] theorem startHandling_wf (s : State) (e : ErrorSite) (seq : Nat) (hm : s.mem.wf = true) :
    (startHandling s e seq).mem.wf = true := by
  simp_all (maxDischargeDepth := 12) [startHandling]

@[simp] theorem escalateTo_wf (s : State) (b : Contained) (e : ErrorSite) (hm : s.mem.wf = true) :
    (escalateTo s b e).mem.wf = true := by
  simp_all (maxDischargeDepth := 12) [escalateTo]

@[simp] theorem bothLost_wf (s : State) (hm : s.mem.wf = true) :
    (bothLost s).mem.wf = true := by
  unfold bothLost
  try dsimp only
  (repeat' (split <;> try dsimp only)) <;> simp_all (maxDischargeDepth := 12)

@[simp] theorem containError_wf (s : State) (e : ErrorSite) (hm : s.mem.wf = true) :
    (containError s e).mem.wf = true := by
  unfold containError
  try dsimp only
  (repeat' (split <;> try dsimp only)) <;> simp_all (maxDischargeDepth := 12)

@[simp] theorem countSramUnc_mem (s : State) (e : ErrorSite) :
    (countSramUnc s e).mem = s.mem := by
  unfold countSramUnc
  try dsimp only
  (repeat' (split <;> try dsimp only)) <;> simp_all

@[simp] theorem rerunCmds_mem (s : State) :
    (rerunCmds s).mem = s.mem := rfl

@[simp] theorem rscrubSet_mem (s : State) (v : Word) :
    (rscrubSet s v).mem = s.mem := by
  unfold rscrubSet
  try dsimp only
  (repeat' (split <;> try dsimp only)) <;> simp_all

@[simp] theorem relWrite_mem (s : State) (off : Nat) (v : Word) :
    (relWrite s off v).mem = s.mem := by
  unfold relWrite
  try dsimp only
  (repeat' (split <;> try dsimp only)) <;> simp_all

/-! ## Machine/Power.lean -/

@[simp] theorem railShort_wf (s : State) (c : Nat) (hm : s.mem.wf = true) :
    (railShort s c).mem.wf = true := by
  unfold railShort
  try dsimp only
  (repeat' (split <;> try dsimp only)) <;> simp_all (maxDischargeDepth := 12)

@[simp] theorem droopEvent_wf (s : State) (c : Nat) (hm : s.mem.wf = true) :
    (droopEvent s c).mem.wf = true := by
  unfold droopEvent
  try dsimp only
  (repeat' (split <;> try dsimp only)) <;> simp_all (maxDischargeDepth := 12)

@[simp] theorem cpmStep_wf (s : State) (c : Nat) (m : Margin) (hm : s.mem.wf = true) :
    (cpmStep s c m).mem.wf = true := by
  unfold cpmStep
  try dsimp only
  (repeat' (split <;> try dsimp only)) <;> simp_all (maxDischargeDepth := 12)

@[simp] theorem clusterReads_mem (s : State) (n : Nat) (r : Int) :
    (clusterReads s n r).mem = s.mem := by
  unfold clusterReads
  try dsimp only
  (repeat' (split <;> try dsimp only)) <;> simp_all

@[simp] theorem thermalTrip_wf (s : State) (die : Nat) (unit : Nat) (info : Bytes) (onK : Bool) (hm : s.mem.wf = true) :
    (thermalTrip s die unit info onK).mem.wf = true := by
  unfold thermalTrip
  try dsimp only
  (repeat' (split <;> try dsimp only)) <;> simp_all (maxDischargeDepth := 12)

@[simp] theorem darkTrip_mem (s : State) (die : Nat) (unit : Nat) (info : Bytes) :
    (darkTrip s die unit info).mem = s.mem := by
  simp [darkTrip]

@[simp] theorem tripNow_wf (s : State) (die : Nat) (unit : Nat) (info : Bytes) (onK : Bool) (hm : s.mem.wf = true) :
    (tripNow s die unit info onK).mem.wf = true := by
  unfold tripNow
  try dsimp only
  (repeat' (split <;> try dsimp only)) <;> simp_all (maxDischargeDepth := 12)

@[simp] theorem sensorTrip_wf (s : State) (n : Nat) (r : Int) (hm : s.mem.wf = true) :
    (sensorTrip s n r).mem.wf = true := by
  unfold sensorTrip
  try dsimp only
  (repeat' (split <;> try dsimp only)) <;> simp_all (maxDischargeDepth := 12)

@[simp] theorem sensorAlarm_mem (s : State) (n : Nat) (r : Int) :
    (sensorAlarm s n r).mem = s.mem := rfl

@[simp] theorem remapHot_mem (d : Nat) (temp : Nat → Int) (n : Int) (sum : Int) (l0 : List Nat) (s : State) :
    (remapHot d temp n sum l0 s).mem = s.mem := by
  induction l0 generalizing s with
  | nil => simp [remapHot]
  | cons a t ih =>
    simp only [remapHot]
    (repeat' (split <;> try dsimp only)) <;> simp_all

@[simp] theorem setFiller_mem (s : State) (on : List Nat) :
    (setFiller s on).mem = s.mem := by
  unfold setFiller
  refine foldl_mem _ _ _ (fun s a => ?_)
  dsimp only
  split <;> rfl

@[simp] theorem weirSample_mem (s : State) (demand : Nat) (power : Nat) (volts : Nat) (amps : Nat) (fillerJ : Nat) (short : Bool) :
    (weirSample s demand power volts amps fillerJ short).mem = s.mem := by
  unfold weirSample
  try dsimp only
  (repeat' (split <;> try dsimp only)) <;> simp_all

@[simp] theorem startRamp_mem (s : State) (l : List Nat) :
    (startRamp s l).mem = s.mem := by
  simp [startRamp]

@[simp] theorem setCap_mem (s : State) (w : Nat) :
    (setCap s w).mem = s.mem := by
  unfold setCap
  try dsimp only
  (repeat' (split <;> try dsimp only)) <;> simp_all

@[simp] theorem wctrlSet_mem (s : State) (v : Word) :
    (wctrlSet s v).mem = s.mem := by
  unfold wctrlSet
  try dsimp only
  (repeat' (split <;> try dsimp only)) <;> simp_all

@[simp] theorem pctrlSet_mem (s : State) (v : Word) :
    (pctrlSet s v).mem = s.mem := rfl

@[simp] theorem powerWrite_mem (s : State) (off : Nat) (v : Word) :
    (powerWrite s off v).mem = s.mem := by
  unfold powerWrite
  try dsimp only
  (repeat' (split <;> try dsimp only)) <;> simp_all

/-! ## Machine/Hbm.lean -/

@[simp] theorem noteCmd_mem (s : State) (cid : Nat) (note : Nat) :
    (noteCmd s cid note).mem = s.mem := by
  unfold noteCmd
  try dsimp only
  (repeat' (split <;> try dsimp only)) <;> simp_all

@[simp] theorem patchBlock_wf (s : State) (c : Cmd) (b : Nat) (data : Bytes) (hm : s.mem.wf = true) :
    (patchBlock s c b data).mem.wf = true := by
  unfold patchBlock
  dsimp only
  generalize List.range 4 = l
  generalize hp : (s, data) = p
  have h1 : p.1.mem.wf = true := by rw [← hp]; exact hm
  clear hp
  induction l generalizing p with
  | nil => exact h1
  | cons i t ih =>
    rw [List.foldl_cons]
    refine ih _ ?_
    dsimp only
    split
    · exact h1
    · exact hbmWrite_wf _ _ _ h1

@[simp] theorem adjustScale_mem (s : State) (c : Cmd) (bad : Bool) :
    (adjustScale s c bad).mem = s.mem := by
  unfold adjustScale
  try dsimp only
  (repeat' (split <;> try dsimp only)) <;> simp_all

@[simp] theorem tornEnd_wf (s : State) (c : Cmd) (e : Err) (hm : s.mem.wf = true) :
    (tornEnd s c e).mem.wf = true := by
  simp_all (maxDischargeDepth := 12) [tornEnd]

@[simp] theorem sectorFails_wf (s : State) (stack : Nat) (frame : Nat) (mirror : Option Bytes) (user : SectorUser) (hm : s.mem.wf = true) :
    (sectorFails s stack frame mirror user).mem.wf = true := by
  unfold sectorFails
  try dsimp only
  (repeat' (split <;> try dsimp only)) <;> simp_all (maxDischargeDepth := 12)

@[simp] theorem sectorsFail_wf (stack : Nat) (frame : Nat) (mirror : Option Bytes) (l0 : List SectorUser) (s : State) (hm : s.mem.wf = true) :
    (sectorsFail stack frame mirror l0 s).mem.wf = true := by
  induction l0 generalizing s with
  | nil => simp_all (maxDischargeDepth := 12) [sectorsFail]
  | cons a t ih =>
    simp only [sectorsFail]
    (repeat' (split <;> try dsimp only)) <;> simp_all (maxDischargeDepth := 12)

@[simp] theorem noteUsers_mem (l0 : List SectorUser) (s : State) :
    (noteUsers l0 s).mem = s.mem := by
  induction l0 generalizing s with
  | nil => simp [noteUsers]
  | cons a t ih =>
    simp only [noteUsers]
    (repeat' (split <;> try dsimp only)) <;> simp_all

@[simp] theorem sectorFor_wf (s : State) (users : List SectorUser) (mirror : Option Bytes) (addr : Nat) (k : Sector) (hm : s.mem.wf = true) :
    (sectorFor s users mirror addr k).mem.wf = true := by
  unfold sectorFor
  try dsimp only
  (repeat' (split <;> try dsimp only)) <;> simp_all (maxDischargeDepth := 12)

@[simp] theorem flitFailsHbm_wf (s : State) (resend : Nat) (read : Option (List SectorUser × Option Bytes × Nat × Sector)) (hm : s.mem.wf = true) :
    (flitFailsHbm s resend read).mem.wf = true := by
  unfold flitFailsHbm
  try dsimp only
  (repeat' (split <;> try dsimp only)) <;> simp_all (maxDischargeDepth := 12)

@[simp] theorem stackTemp_wf (s : State) (n : Nat) (t : Int) (hm : s.mem.wf = true) :
    (stackTemp s n t).mem.wf = true := by
  unfold stackTemp
  try dsimp only
  (repeat' (split <;> try dsimp only)) <;> simp_all (maxDischargeDepth := 12)

@[simp] theorem scrubOn_wf (s : State) (n : Nat) (last : Bool) (hm : s.mem.wf = true) :
    (scrubOn s n last).mem.wf = true := by
  unfold scrubOn
  try dsimp only
  (repeat' (split <;> try dsimp only)) <;> simp_all (maxDischargeDepth := 12)

@[simp] theorem scrubRead_wf (s : State) (n : Nat) (off : Nat) (o : ScrubOutcome) (hm : s.mem.wf = true) :
    (scrubRead s n off o).mem.wf = true := by
  simp_all (maxDischargeDepth := 12) [scrubRead]

@[simp] theorem setQuota_wf (s : State) (q : Nat) (v : Word) (hm : s.mem.wf = true) :
    (setQuota s q v).mem.wf = true := by
  simp_all (maxDischargeDepth := 12) [setQuota]

@[simp] theorem clearThrottle_wf (s : State) (v : Word) (hm : s.mem.wf = true) :
    (clearThrottle s v).mem.wf = true := by
  unfold clearThrottle
  refine foldl_wf _ _ _ hm (fun s a h1 => ?_)
  dsimp only
  split
  · exact setStackS_wf _ _ _ h1
  · exact h1

@[simp] theorem memWrite_wf (s : State) (off : Nat) (v : Word) (hm : s.mem.wf = true) :
    (memWrite s off v).mem.wf = true := by
  unfold memWrite
  try dsimp only
  (repeat' (split <;> try dsimp only)) <;> simp_all (maxDischargeDepth := 12)

/-! ## Machine/Security.lean -/

@[simp] theorem sigFail_mem (s : State) (typ : Nat) :
    (sigFail s typ).1.mem = s.mem := by
  simp [sigFail]

@[simp] theorem storePending_mem (s : State) (i : Image) :
    (storePending s i).mem = s.mem := by
  simp [storePending]

@[simp] theorem storeImage_mem (s : State) (host : HostRead) (downgrade : Bool) (floor : Nat → Nat) :
    (storeImage s host downgrade floor).1.mem = s.mem := by
  unfold storeImage
  try dsimp only
  (repeat' (split <;> try dsimp only)) <;> simp_all

@[simp] theorem runFwDowngrade_mem (s : State) (u1 : Cmd) (host : HostRead) :
    (runFwDowngrade s u1 host).1.mem = s.mem := by
  simp [runFwDowngrade]

@[simp] theorem runKeyRotate_mem (s : State) (c : Cmd) :
    (runKeyRotate s c).1.mem = s.mem := by
  unfold runKeyRotate
  try dsimp only
  (repeat' (split <;> try dsimp only)) <;> simp_all

@[simp] theorem runDebugUnlock_mem (s : State) (u1 : Cmd) (host : HostRead) :
    (runDebugUnlock s u1 host).1.mem = s.mem := by
  unfold runDebugUnlock
  try dsimp only
  (repeat' (split <;> try dsimp only)) <;> simp_all

@[simp] theorem runSpareOverride_mem (s : State) (c : Cmd) :
    (runSpareOverride s c).1.mem = s.mem := by
  unfold runSpareOverride
  try dsimp only
  (repeat' (split <;> try dsimp only)) <;> simp_all

@[simp] theorem runFuseWrite_mem (s : State) (c : Cmd) :
    (runFuseWrite s c).1.mem = s.mem := by
  unfold runFuseWrite
  try dsimp only
  (repeat' (split <;> try dsimp only)) <;> simp_all

@[simp] theorem privileged_wf (s : State) (c : Cmd) (r : State × Err) (hm : s.mem.wf = true) (hr : r.1.mem.wf = true) :
    (privileged s c r).1.mem.wf = true := by
  unfold privileged
  split
  · exact hr
  · exact hm

@[simp] theorem adminEnd_wf (c : Cmd) (r : State × Err) (hm : r.1.mem.wf = true) :
    (adminEnd c r).mem.wf = true := by
  simp_all (maxDischargeDepth := 12) [adminEnd]

@[simp] theorem jumperOut_mem (s : State) :
    (jumperOut s).mem = s.mem := by
  simp [jumperOut]

@[simp] theorem sealOpen_mem (s : State) :
    (sealOpen s).mem = s.mem := by
  unfold sealOpen
  try dsimp only
  (repeat' (split <;> try dsimp only)) <;> simp_all

@[simp] theorem refuseWrite_mem (s : State) :
    (refuseWrite s).mem = s.mem := by
  simp [refuseWrite]

@[simp] theorem jumperIgnoreSet_mem (s : State) (on : Bool) :
    (jumperIgnoreSet s on).mem = s.mem := by
  unfold jumperIgnoreSet
  try dsimp only
  (repeat' (split <;> try dsimp only)) <;> simp_all

@[simp] theorem secWrite_mem (s : State) (off : Nat) (v : Word) :
    (secWrite s off v).mem = s.mem := by
  unfold secWrite
  try dsimp only
  (repeat' (split <;> try dsimp only)) <;> simp_all

/-! ## Machine/Admin.lean -/

@[simp] theorem runTelemetryRead_mem (s : State) (c : Cmd) :
    (runTelemetryRead s c).1.mem = s.mem := by
  simp [runTelemetryRead]

@[simp] theorem runPowerCap_mem (s : State) (c : Cmd) :
    (runPowerCap s c).1.mem = s.mem := by
  simp [runPowerCap]

@[simp] theorem runQuotaSet_wf (s : State) (c : Cmd) (hm : s.mem.wf = true) :
    (runQuotaSet s c).1.mem.wf = true := by
  simp_all (maxDischargeDepth := 12) [runQuotaSet]

@[simp] theorem runErrlogRead_mem (s : State) (c : Cmd) :
    (runErrlogRead s c).1.mem = s.mem := by
  unfold runErrlogRead
  try dsimp only
  (repeat' (split <;> try dsimp only)) <;> simp_all

@[simp] theorem runFwUpdate_mem (s : State) (u1 : Cmd) (host : HostRead) :
    (runFwUpdate s u1 host).1.mem = s.mem := by
  simp [runFwUpdate]

@[simp] theorem runAttest_mem (s : State) (c : Cmd) :
    (runAttest s c).1.mem = s.mem := by
  simp [runAttest]

/-! ## Machine/Background.lean -/

@[simp] theorem sramScrub_wf (s : State) (t : ScrubTarget) (o : ScrubOutcome) (hm : s.mem.wf = true) :
    (sramScrub s t o).mem.wf = true := by
  unfold sramScrub
  try dsimp only
  (repeat' (split <;> try dsimp only)) <;> simp_all (maxDischargeDepth := 12)

/-! ## Machine/Compress.lean -/

@[simp] theorem countShort_mem (s : State) (c : Cmd) :
    (countShort s c).mem = s.mem := by
  unfold countShort
  try dsimp only
  (repeat' (split <;> try dsimp only)) <;> simp_all

@[simp] theorem firstFetch_wf (s : State) (seen : List (Nat × Byte)) (hm : s.mem.wf = true) :
    (firstFetch s seen).mem.wf = true := by
  unfold firstFetch
  show (seen.foldl (fun (m : Memory) p => m.write p.1 [p.2]) s.mem).wf = true
  generalize s.mem = m at hm
  induction seen generalizing m with
  | nil => exact hm
  | cons p t ih => exact ih _ (Memory.wf_write m p.1 [p.2] hm)

@[simp] theorem retryGood_mem (s : State) (c : Cmd) (desc : Nat) (block : Option Nat) :
    (retryGood s c desc block).mem = s.mem := by
  simp [retryGood]

@[simp] theorem checkBlock_wf (s : State) (c : Cmd) (desc : Nat) (block : Option Nat) (seen : List (Nat × Byte)) (hm : s.mem.wf = true) :
    (checkBlock s c desc block seen).mem.wf = true := by
  unfold checkBlock
  try dsimp only
  (repeat' (split <;> try dsimp only)) <;> simp_all (maxDischargeDepth := 12)

/-! ## Machine/Eddy.lean -/

@[simp] theorem storeEddy_mem (s : State) (e : Eddy) :
    (storeEddy s e).mem = s.mem := by
  simp [storeEddy]

@[simp] theorem dropEddy_mem (s : State) (cid : Nat) :
    (dropEddy s cid).mem = s.mem := by
  simp [dropEddy]

@[simp] theorem eddySend_wf (s : State) (c : Cmd) (m : TxMsg) (k : State → State) (hm : s.mem.wf = true) (hfk : ∀ (x0 : State), x0.mem.wf = true → (k x0).mem.wf = true) :
    (eddySend s c m k).mem.wf = true := by
  unfold eddySend
  split
  · rename_i s1 h1
    exact hfk s1 (by rw [sendTx_mem _ _ _ _ h1]; exact hm)
  · simp_all

@[simp] theorem eddyEnd_wf (s : State) (c : Cmd) (e : Eddy) (hm : s.mem.wf = true) :
    (eddyEnd s c e).mem.wf = true := by
  unfold eddyEnd
  try dsimp only
  (repeat' (split <;> try dsimp only)) <;> simp_all (maxDischargeDepth := 12)

@[simp] theorem sendAcc_wf (s : State) (c : Cmd) (e : Eddy) (origin : Nat) (hops : Nat) (acc : List Word) (k : State → State) (hm : s.mem.wf = true) (hfk : ∀ (x0 : State), x0.mem.wf = true → (k x0).mem.wf = true) :
    (sendAcc s c e origin hops acc k).mem.wf = true := by
  unfold sendAcc
  try dsimp only
  (repeat' (split <;> try dsimp only)) <;> simp_all (maxDischargeDepth := 12)

@[simp] theorem combineParts_wf (l0 : Nat) (s : State) (l2 : Cmd) (l3 : Eddy) (hm : s.mem.wf = true) :
    (combineParts l0 s l2 l3).mem.wf = true := by
  induction l0 generalizing s l2 l3 with
  | zero => simp_all (maxDischargeDepth := 12) [combineParts]
  | succ n ih =>
    simp only [combineParts]
    (repeat' (split <;> try dsimp only)) <;> simp_all (maxDischargeDepth := 12)

@[simp] theorem placeBlock_wf (s : State) (c : Cmd) (e : Eddy) (origin : Nat) (hops : Nat) (data : Bytes) (hm : s.mem.wf = true) :
    (placeBlock s c e origin hops data).mem.wf = true := by
  unfold placeBlock
  try dsimp only
  (repeat' (split <;> try dsimp only)) <;> simp_all (maxDischargeDepth := 12)

@[simp] theorem takeBlock_wf (s : State) (c : Cmd) (e : Eddy) (origin : Nat) (hops : Nat) (data : Bytes) (hm : s.mem.wf = true) :
    (takeBlock s c e origin hops data).mem.wf = true := by
  unfold takeBlock
  try dsimp only
  (repeat' (split <;> try dsimp only)) <;> simp_all (maxDischargeDepth := 12)

@[simp] theorem eddyTake_wf (s : State) (c : Cmd) (e : Eddy) (h : Header) (payload : Bytes) (hm : s.mem.wf = true) :
    (eddyTake s c e h payload).mem.wf = true := by
  unfold eddyTake
  try dsimp only
  (repeat' (split <;> try dsimp only)) <;> simp_all (maxDischargeDepth := 12)

@[simp] theorem offerRing_wf (cid : Nat) (l0 : List (Header × Bytes)) (s : State) (hm : s.mem.wf = true) :
    (offerRing cid l0 s).mem.wf = true := by
  induction l0 generalizing s with
  | nil => simp_all (maxDischargeDepth := 12) [offerRing]
  | cons a t ih =>
    simp only [offerRing]
    (repeat' (split <;> try dsimp only)) <;> simp_all (maxDischargeDepth := 12)

@[simp] theorem startRing_wf (s : State) (c : Cmd) (hm : s.mem.wf = true) :
    (startRing s c).mem.wf = true := by
  unfold startRing
  try dsimp only
  (repeat' (split <;> try dsimp only)) <;> simp_all (maxDischargeDepth := 12)

@[simp] theorem ringStart_wf (op : Nat) (cid : Nat) (s : State) (hm : s.mem.wf = true) :
    (ringStart op cid s).mem.wf = true := by
  unfold ringStart
  (repeat' (split <;> try dsimp only)) <;>
    first
    | (simp_all (maxDischargeDepth := 12); done)
    | (refine onWork_wf _ _ _ _ hm (fun c => ?_)
       (repeat' (split <;> try dsimp only)) <;> simp_all (maxDischargeDepth := 12))

@[simp] theorem ringMessage_wf (h : Header) (payload : Bytes) (s : State) (hm : s.mem.wf = true) :
    (ringMessage h payload s).mem.wf = true := by
  unfold ringMessage
  refine onMessage_wf _ _ _ _ hm (fun x hx => ?_)
  split
  · exact eddyTake_wf _ _ _ _ _ hx
  · simpa using hx

@[simp] theorem serveWaiting_wf (s : State) (c : Cmd) (cid : Nat) (j : Nat) (hm : s.mem.wf = true) :
    (serveWaiting s c cid j).mem.wf = true := by
  unfold serveWaiting
  try dsimp only
  (repeat' (split <;> try dsimp only)) <;> simp_all (maxDischargeDepth := 12)

/-! ## Machine/Guard.lean -/

@[simp] theorem guardCommit_mem (s : State) (d : TagDelta) :
    (guardCommit s d).mem = s.mem := by
  unfold guardCommit
  try dsimp only
  (repeat' (split <;> try dsimp only)) <;> simp_all

@[simp] theorem countMove_mem (s : State) (t : Nat) (up : Bool) (down : Bool) :
    (countMove s t up down).mem = s.mem := by
  simp [countMove]

@[simp] theorem evaluateTag_mem (s : State) (t : Nat) :
    (evaluateTag s t).mem = s.mem := by
  unfold evaluateTag
  try dsimp only
  (repeat' (split <;> try dsimp only)) <;> simp_all

@[simp] theorem evaluateTags_mem (l0 : List Nat) (s : State) :
    (evaluateTags l0 s).mem = s.mem := by
  induction l0 generalizing s with
  | nil => simp [evaluateTags]
  | cons a t ih =>
    simp only [evaluateTags]
    (repeat' (split <;> try dsimp only)) <;> simp_all

@[simp] theorem guardEvaluate_mem (s : State) (step : Nat) :
    (guardEvaluate s step).mem = s.mem := by
  simp [guardEvaluate]

@[simp] theorem guardReset_mem (s : State) :
    (guardReset s).mem = s.mem := by
  simp [guardReset]

@[simp] theorem guardWrite_mem (s : State) (off : Nat) (v : Word) :
    (guardWrite s off v).mem = s.mem := by
  unfold guardWrite
  try dsimp only
  (repeat' (split <;> try dsimp only)) <;> simp_all

/-! ## Machine/JobCtl.lean -/

@[simp] theorem zeroMeres_mem (s : State) :
    (zeroMeres s).mem = s.mem := by
  simp [zeroMeres]

@[simp] theorem loadJob_wf (s : State) (c : Cmd) (hm : s.mem.wf = true) :
    (loadJob s c).mem.wf = true := by
  simp_all (maxDischargeDepth := 12) [loadJob]

@[simp] theorem endJobKill_wf (s : State) (hm : s.mem.wf = true) :
    (endJobKill s).mem.wf = true := by
  simp_all (maxDischargeDepth := 12) [endJobKill]

@[simp] theorem disableJobQueues_mem (s : State) :
    (disableJobQueues s).mem = s.mem := rfl

@[simp] theorem endJobFinish_wf (s : State) (keep : Bool) (hm : s.mem.wf = true) :
    (endJobFinish s keep).mem.wf = true := by
  have h1 : (closeStreams (List.range 16) (zeroMeres (disableJobQueues s))).mem.wf = true := by simp [hm]
  unfold endJobFinish
  dsimp only
  split
  · exact h1
  · exact Memory.wf_wipeJob _ (unmapAll_wf _ h1)

@[simp] theorem saveToArea_wf (s : State) (hm : s.mem.wf = true) :
    (saveToArea s).mem.wf = true := by
  simp_all (maxDischargeDepth := 12) [saveToArea]

@[simp] theorem suspendStart_wf (s : State) (hm : s.mem.wf = true) :
    (suspendStart s).mem.wf = true := by
  simp_all (maxDischargeDepth := 12) [suspendStart]

@[simp] theorem resumeCmds_mem (s : State) :
    (resumeCmds s).mem = s.mem := rfl

/-! ## Machine/Phase.lean -/

@[simp] theorem installPhase_mem (s : State) (c : Cmd) :
    (installPhase s c).mem = s.mem := by
  simp [installPhase]

@[simp] theorem beginStep_mem (s : State) (n : Nat) :
    (beginStep s n).mem = s.mem := by
  simp [beginStep]

/-! ## Machine/Pipe.lean -/

@[simp] theorem takeCredit_mem (s : State) (c : Cmd) :
    (takeCredit s c).mem = s.mem := by
  simp [takeCredit]

@[simp] theorem pipeSend_wf (s : State) (c : Cmd) (hm : s.mem.wf = true) :
    (pipeSend s c).mem.wf = true := by
  unfold pipeSend
  dsimp only
  (repeat' split) <;> first
  | exact hm
  | (rename_i h1; simpa [sendTx_mem _ _ _ _ h1] using hm)
  | (simp_all; done)

@[simp] theorem landEntry_wf (s : State) (h : Header) (payload : Bytes) (cfg : Nat × Nat × Bool) (hm : s.mem.wf = true) :
    (landEntry s h payload cfg).mem.wf = true := by
  unfold landEntry
  try dsimp only
  (repeat' (split <;> try dsimp only)) <;> simp_all (maxDischargeDepth := 12)

@[simp] theorem offerEntries_wf (pq : Nat) (l0 : List (Header × Bytes)) (s : State) (hm : s.mem.wf = true) :
    (offerEntries pq l0 s).mem.wf = true := by
  induction l0 generalizing s with
  | nil => simp_all (maxDischargeDepth := 12) [offerEntries]
  | cons a t ih =>
    simp only [offerEntries]
    (repeat' (split <;> try dsimp only)) <;> simp_all (maxDischargeDepth := 12)

@[simp] theorem withEntry_wf (s : State) (d : Desc) (b : Bytes) (hm : s.mem.wf = true) :
    (withEntry s d b).mem.wf = true := by
  unfold withEntry
  show ((recvWrites d b).foldl (fun (m : Memory) w => m.write w.1 w.2) s.mem).wf = true
  generalize s.mem = m at hm
  generalize recvWrites d b = l
  induction l generalizing m with
  | nil => exact hm
  | cons p t ih => exact ih _ (Memory.wf_write m p.1 p.2 hm)

@[simp] theorem pipeRecv_wf (s : State) (c : Cmd) (hm : s.mem.wf = true) :
    (pipeRecv s c).mem.wf = true := by
  unfold pipeRecv
  try dsimp only
  (repeat' (split <;> try dsimp only)) <;> simp_all (maxDischargeDepth := 12)

@[simp] theorem sendCredit_mem (s : State) (pq : Nat) (peer : Nat) (laxis : Nat) (epoch : Nat) :
    (sendCredit s pq peer laxis epoch).mem = s.mem := by
  simp [sendCredit]

@[simp] theorem signalToken_mem (s : State) (n : Nat) :
    (signalToken s n).mem = s.mem := by
  unfold signalToken
  try dsimp only
  (repeat' (split <;> try dsimp only)) <;> simp_all

/-! ## Machine/CmdProc.lean -/

@[simp] theorem ringDoorbell_mem (s : State) (q : Nat) (w : Word) :
    (ringDoorbell s q w).mem = s.mem := by
  unfold ringDoorbell
  try dsimp only
  (repeat' (split <;> try dsimp only)) <;> simp_all

@[simp] theorem enableQueue_mem (s : State) (q : Nat) :
    (enableQueue s q).mem = s.mem := by
  unfold enableQueue
  try dsimp only
  (repeat' (split <;> try dsimp only)) <;> simp_all

@[simp] theorem disableQueue_mem (s : State) (q : Nat) :
    (disableQueue s q).mem = s.mem := by
  unfold disableQueue
  try dsimp only
  (repeat' (split <;> try dsimp only)) <;> simp_all

@[simp] theorem pauseQueue_mem (s : State) (q : Nat) (on : Bool) :
    (pauseQueue s q on).mem = s.mem := by
  simp [pauseQueue]

@[simp] theorem expireWait_wf (s : State) (q : Nat) (hm : s.mem.wf = true) :
    (expireWait s q).mem.wf = true := by
  unfold expireWait
  try dsimp only
  (repeat' (split <;> try dsimp only)) <;> simp_all (maxDischargeDepth := 12)

@[simp] theorem expireUpdate_wf (s : State) (q : Nat) (hm : s.mem.wf = true) :
    (expireUpdate s q).mem.wf = true := by
  unfold expireUpdate
  try dsimp only
  (repeat' (split <;> try dsimp only)) <;> simp_all (maxDischargeDepth := 12)

@[simp] theorem retestWait_wf (s : State) (cid : Nat) (hm : s.mem.wf = true) :
    (retestWait s cid).mem.wf = true := by
  unfold retestWait
  try dsimp only
  (repeat' (split <;> try dsimp only)) <;> simp_all (maxDischargeDepth := 12)

@[simp] theorem retestWaits_wf (l0 : List Nat) (s : State) (hm : s.mem.wf = true) :
    (retestWaits l0 s).mem.wf = true := by
  induction l0 generalizing s with
  | nil => simp_all (maxDischargeDepth := 12) [retestWaits]
  | cons a t ih =>
    simp only [retestWaits]
    (repeat' (split <;> try dsimp only)) <;> simp_all (maxDischargeDepth := 12)

@[simp] theorem setTimeout_wf (s : State) (q : Nat) (w : Word) (hm : s.mem.wf = true) :
    (setTimeout s q w).mem.wf = true := by
  simp_all (maxDischargeDepth := 12) [setTimeout]

@[simp] theorem setRhead_mem (s : State) (q : Nat) (w : Word) :
    (setRhead s q w).mem = s.mem := by
  simp [setRhead]

@[simp] theorem queueWrite_wf (s : State) (q : Nat) (off : Nat) (w : Word) (hm : s.mem.wf = true) :
    (queueWrite s q off w).mem.wf = true := by
  unfold queueWrite
  try dsimp only
  (repeat' (split <;> try dsimp only)) <;> simp_all (maxDischargeDepth := 12)

@[simp] theorem sectorOutcome_wf (s : State) (a : Nat) (k : Sector) (seen : Bool) (hm : s.mem.wf = true) :
    (sectorOutcome s a k seen).mem.wf = true := by
  unfold sectorOutcome
  try dsimp only
  (repeat' (split <;> try dsimp only)) <;> simp_all (maxDischargeDepth := 12)

@[simp] theorem rejectPacket_wf (s : State) (c : Cmd) (e : Err) (hm : s.mem.wf = true) :
    (rejectPacket s c e).mem.wf = true := by
  simp_all (maxDischargeDepth := 12) [rejectPacket]

@[simp] theorem extFails_wf (s : State) (b : Bytes) (c : Cmd) (hm : s.mem.wf = true) :
    (extFails s b c).mem.wf = true := by
  unfold extFails
  try dsimp only
  (repeat' (split <;> try dsimp only)) <;> simp_all (maxDischargeDepth := 12)

@[simp] theorem takePacket_wf (s : State) (q : Nat) (slot : Word) (b : Bytes) (zeros : Bool) (note : Nat) (ext : Sector) (hm : s.mem.wf = true) :
    (takePacket s q slot b zeros note ext).mem.wf = true := by
  unfold takePacket
  try dsimp only
  (repeat' (split <;> try dsimp only)) <;> simp_all (maxDischargeDepth := 12)

@[simp] theorem fetchFails_wf (s : State) (q : Nat) (slot : Word) (a : Nat) (hm : s.mem.wf = true) :
    (fetchFails s q slot a).mem.wf = true := by
  unfold fetchFails
  try dsimp only
  (repeat' (split <;> try dsimp only)) <;> simp_all (maxDischargeDepth := 12)

@[simp] theorem fetchPacket_wf (s : State) (q : Nat) (host : HostRead) (hbm : Sector) (ext : Sector) (hm : s.mem.wf = true) :
    (fetchPacket s q host hbm ext).mem.wf = true := by
  unfold fetchPacket
  try dsimp only
  (repeat' (split <;> try dsimp only)) <;> simp_all (maxDischargeDepth := 12)

@[simp] theorem takeSeats_mem (c : Cmd) (l0 : List Nat) (s : State) :
    (takeSeats c l0 s).mem = s.mem := by
  induction l0 generalizing s with
  | nil => simp [takeSeats]
  | cons a t ih =>
    simp only [takeSeats]
    (repeat' (split <;> try dsimp only)) <;> simp_all

@[simp] theorem launch_wf (s : State) (c : Cmd) (hm : s.mem.wf = true) :
    (launch s c).mem.wf = true := by
  unfold launch
  try dsimp only
  (repeat' (split <;> try dsimp only)) <;> simp_all (maxDischargeDepth := 12)

@[simp] theorem dispatchCmd_wf (s : State) (c : Cmd) (hm : s.mem.wf = true) :
    (dispatchCmd s c).mem.wf = true := by
  unfold dispatchCmd
  try dsimp only
  (repeat' (split <;> try dsimp only)) <;> simp_all (maxDischargeDepth := 12)

@[simp] theorem dispatchNext_wf (s : State) (q : Nat) (hm : s.mem.wf = true) :
    (dispatchNext s q).mem.wf = true := by
  unfold dispatchNext
  try dsimp only
  (repeat' (split <;> try dsimp only)) <;> simp_all (maxDischargeDepth := 12)

@[simp] theorem springIdle_mem (s : State) :
    (springIdle s).mem = s.mem := by
  unfold springIdle
  try dsimp only
  (repeat' (split <;> try dsimp only)) <;> simp_all

@[simp] theorem flipCur_wf (s : State) (id : Nat) (hm : s.mem.wf = true) :
    (flipCur s id).mem.wf = true := by
  simp_all (maxDischargeDepth := 12) [flipCur]

@[simp] theorem enterVerdict_mem (s : State) (nonfinite : Bool) (excluded : Bool) (backup : Bool) (final : Bool) (offender : Nat) (count : Nat) (mine : Bool) :
    (enterVerdict s nonfinite excluded backup final offender count mine).mem = s.mem := by
  simp [enterVerdict]

@[simp] theorem applyEffect_wf (s : State) (c : Cmd) (e : Effect) (hm : s.mem.wf = true) :
    (applyEffect s c e).mem.wf = true := by
  unfold applyEffect
  try dsimp only
  (repeat' (split <;> try dsimp only)) <;> simp_all (maxDischargeDepth := 12)

@[simp] theorem applyEffects_wf (c : Cmd) (l0 : List Effect) (s : State) (hm : s.mem.wf = true) :
    (applyEffects c l0 s).mem.wf = true := by
  induction l0 generalizing s with
  | nil => simp_all (maxDischargeDepth := 12) [applyEffects]
  | cons a t ih =>
    simp only [applyEffects]
    (repeat' (split <;> try dsimp only)) <;> simp_all (maxDischargeDepth := 12)

@[simp] theorem holdCommit_wf (s : State) (c : Cmd) (r : Result) (hm : s.mem.wf = true) :
    (holdCommit s c r).mem.wf = true := by
  simp_all (maxDischargeDepth := 12) [holdCommit]

@[simp] theorem commitEffects_wf (s : State) (c : Cmd) (r : Result) (hm : s.mem.wf = true) :
    (commitEffects s c r).mem.wf = true := by
  unfold commitEffects
  try dsimp only
  (repeat' (split <;> try dsimp only)) <;> simp_all (maxDischargeDepth := 12)

@[simp] theorem commitCmd_wf (s : State) (c : Cmd) (r : Result) (hm : s.mem.wf = true) :
    (commitCmd s c r).mem.wf = true := by
  simp_all (maxDischargeDepth := 12) [commitCmd]

@[simp] theorem writeReply_wf (s : State) (q : Nat) (r : Reply) (rest : List Reply) (hm : s.mem.wf = true) :
    (writeReply s q r rest).mem.wf = true := by
  unfold writeReply
  try dsimp only
  (repeat' (split <;> try dsimp only)) <;> simp_all (maxDischargeDepth := 12)

@[simp] theorem tryReply_wf (s : State) (q : Nat) (hbm : Sector) (hm : s.mem.wf = true) :
    (tryReply s q hbm).mem.wf = true := by
  unfold tryReply
  try dsimp only
  (repeat' (split <;> try dsimp only)) <;> simp_all (maxDischargeDepth := 12)

/-! ## Machine/Meres.lean -/

@[simp] theorem sliceLoad_mem (s : State) (c : Cmd) (mere : Nat) (region : Nat) (n : Nat) :
    (sliceLoad s c mere region n).mem = s.mem := by
  unfold sliceLoad
  try dsimp only
  (repeat' (split <;> try dsimp only)) <;> simp_all

@[simp] theorem startOn_mem (s : State) (cid : Nat) (phys : Nat) :
    (startOn s cid phys).mem = s.mem := by
  simp [startOn]

@[simp] theorem startAll_mem (cid : Nat) (l0 : List Nat) (s : State) :
    (startAll cid l0 s).mem = s.mem := by
  induction l0 generalizing s with
  | nil => simp [startAll]
  | cons a t ih =>
    simp only [startAll]
    (repeat' (split <;> try dsimp only)) <;> simp_all

@[simp] theorem stalled_mem (s : State) (mere : Nat) :
    (stalled s mere).mem = s.mem := by
  simp [stalled]

@[simp] theorem corrected_mem (s : State) (fixed : Nat) :
    (corrected s fixed).mem = s.mem := by
  simp [corrected]

@[simp] theorem sliceDone_mem (s : State) (c : Cmd) (mere : Nat) (array : Bool) (tile : Nat) (slice : Nat) (fixed : Nat) :
    (sliceDone s c mere array tile slice fixed).mem = s.mem := by
  unfold sliceDone
  try dsimp only
  (repeat' (split <;> try dsimp only)) <;> simp_all

@[simp] theorem combineAdd_mem (s : State) (c : Cmd) (mere : Nat) (sender : Nat) (array : Bool) (tile : Nat) (fixed : Nat) :
    (combineAdd s c mere sender array tile fixed).mem = s.mem := by
  unfold combineAdd
  try dsimp only
  (repeat' (split <;> try dsimp only)) <;> simp_all

@[simp] theorem haloIn_mem (s : State) (c : Cmd) (mere : Nat) (sender : Nat) (fixed : Nat) :
    (haloIn s c mere sender fixed).mem = s.mem := by
  unfold haloIn
  try dsimp only
  (repeat' (split <;> try dsimp only)) <;> simp_all

@[simp] theorem drainBlock_mem (s : State) (c : Cmd) (mere : Nat) (array : Bool) (tile : Nat) (block : Nat) (fixed : Nat) :
    (drainBlock s c mere array tile block fixed).mem = s.mem := by
  unfold drainBlock
  try dsimp only
  (repeat' (split <;> try dsimp only)) <;> simp_all

/-! ## Machine/Package.lean -/

@[simp] theorem bundleDown_wf (s : State) (b : Nat) (hm : s.mem.wf = true) :
    (bundleDown s b).mem.wf = true := by
  unfold bundleDown
  try dsimp only
  (repeat' (split <;> try dsimp only)) <;> simp_all (maxDischargeDepth := 12)

@[simp] theorem retirePosition_wf (s : State) (b : Nat) (p : Nat) (hm : s.mem.wf = true) :
    (retirePosition s b p).mem.wf = true := by
  unfold retirePosition
  try dsimp only
  (repeat' (split <;> try dsimp only)) <;> simp_all (maxDischargeDepth := 12)

@[simp] theorem flitFails_wf (s : State) (b : Nat) (lane : Nat) (farEnd : Bool) (seq : Nat) (retrainOk : Bool) (hm : s.mem.wf = true) :
    (flitFails s b lane farEnd seq retrainOk).mem.wf = true := by
  unfold flitFails
  try dsimp only
  (repeat' (split <;> try dsimp only)) <;> simp_all (maxDischargeDepth := 12)

@[simp] theorem logMaps_mem (s : State) (b : Nat) :
    (logMaps s b).mem = s.mem := by
  unfold logMaps
  try dsimp only
  (repeat' (split <;> try dsimp only)) <;> simp_all

@[simp] theorem trainBundles_mem (bad : List (Nat × Nat)) (l0 : List Nat) (s : State) :
    (trainBundles bad l0 s).mem = s.mem := by
  induction l0 generalizing s with
  | nil => simp [trainBundles]
  | cons a t ih =>
    simp only [trainBundles]
    (repeat' (split <;> try dsimp only)) <;> simp_all

@[simp] theorem checkIdentities_mem (found : List (Nat × Bytes)) (l : List Nat) (s : State) :
    (checkIdentities found l s).1.mem = s.mem := rfl

@[simp] theorem repairStack_wf (s : State) (n : Nat) (hm : s.mem.wf = true) :
    (repairStack s n).mem.wf = true := by
  simp_all (maxDischargeDepth := 12) [repairStack]

@[simp] theorem foundRow_wf (s : State) (n : Nat) (key : Nat) (hm : s.mem.wf = true) :
    (foundRow s n key).1.mem.wf = true := by
  unfold foundRow
  try dsimp only
  (repeat' (split <;> try dsimp only)) <;> simp_all (maxDischargeDepth := 12)

@[simp] theorem foundRows_wf (n : Nat) (l0 : List Nat) (s : State) (hm : s.mem.wf = true) :
    (foundRows n l0 s).1.mem.wf = true := by
  induction l0 generalizing s with
  | nil => simp_all (maxDischargeDepth := 12) [foundRows]
  | cons a t ih =>
    simp only [foundRows]
    (repeat' (split <;> try dsimp only)) <;> simp_all (maxDischargeDepth := 12)

@[simp] theorem qualifyStack_wf (found : List (Nat × Bytes)) (bad : List Nat) (rows : List (Nat × Nat)) (n : Nat) (s : State) (hm : s.mem.wf = true) :
    (qualifyStack found bad rows n s).1.mem.wf = true := by
  simp_all (maxDischargeDepth := 12) [qualifyStack]

@[simp] theorem qualifyStacks_wf (found : List (Nat × Bytes)) (bad : List Nat) (rows : List (Nat × Nat)) (l0 : List Nat) (s : State) (hm : s.mem.wf = true) :
    (qualifyStacks found bad rows l0 s).1.mem.wf = true := by
  induction l0 generalizing s with
  | nil => simp_all (maxDischargeDepth := 12) [qualifyStacks]
  | cons a t ih =>
    simp only [qualifyStacks]
    (repeat' (split <;> try dsimp only)) <;> simp_all (maxDischargeDepth := 12)

@[simp] theorem trainCourse_mem (bad : List (Nat × Nat)) (found : List (Nat × Bytes)) (l0 : List (List Nat × List Nat)) (s : State) :
    (trainCourse bad found l0 s).1.mem = s.mem := by
  induction l0 generalizing s with
  | nil => simp [trainCourse]
  | cons a t ih =>
    simp only [trainCourse]
    (repeat' (split <;> try dsimp only)) <;> simp_all

@[simp] theorem cycleDomains_mem (s : State) (l : List Nat) :
    (cycleDomains s l).mem = s.mem := by
  simp [cycleDomains]

@[simp] theorem rejoinBegin_mem (s : State) (d : Nat) :
    (rejoinBegin s d).mem = s.mem := by
  simp [rejoinBegin]

@[simp] theorem rejoinFailed_wf (s : State) (d : Nat) (step : Nat) (abandoned : Bool) (hm : s.mem.wf = true) :
    (rejoinFailed s d step abandoned).mem.wf = true := by
  unfold rejoinFailed
  try dsimp only
  (repeat' (split <;> try dsimp only)) <;> simp_all (maxDischargeDepth := 12)

@[simp] theorem rejoinDone_wf (s : State) (d : Nat) (hm : s.mem.wf = true) :
    (rejoinDone s d).mem.wf = true := by
  unfold rejoinDone
  try dsimp only
  (repeat' (split <;> try dsimp only)) <;> simp_all (maxDischargeDepth := 12)

@[simp] theorem rejoinSteps_wf (s : State) (d : Nat) (rep : RejoinReport) (hm : s.mem.wf = true) :
    (rejoinSteps s d rep).mem.wf = true := by
  unfold rejoinSteps
  try dsimp only
  (repeat' (split <;> try dsimp only)) <;> simp_all (maxDischargeDepth := 12)

@[simp] theorem rejoinAttempt_wf (s : State) (d : Nat) (l0 : Option RejoinReport) (hm : s.mem.wf = true) :
    (rejoinAttempt s d l0).mem.wf = true := by
  unfold rejoinAttempt
  try dsimp only
  (repeat' (split <;> try dsimp only)) <;> simp_all (maxDischargeDepth := 12)

@[simp] theorem dieWrite_mem (s : State) (off : Nat) (v : Word) :
    (dieWrite s off v).mem = s.mem := by
  unfold dieWrite
  try dsimp only
  (repeat' (split <;> try dsimp only)) <;> simp_all

/-! ## Machine/Streams.lean -/

@[simp] theorem arrive_wf (est : List (Nat × Nat)) (n : Nat) (l0 : List HbmRequest) (s : State) (hm : s.mem.wf = true) :
    (arrive est n l0 s).mem.wf = true := by
  induction l0 generalizing s with
  | nil => simp_all (maxDischargeDepth := 12) [arrive]
  | cons a t ih =>
    simp only [arrive]
    (repeat' (split <;> try dsimp only)) <;> simp_all (maxDischargeDepth := 12)

@[simp] theorem windowStart_wf (s : State) (n : Nat) (hm : s.mem.wf = true) :
    (windowStart s n).mem.wf = true := by
  unfold windowStart
  try dsimp only
  (repeat' (split <;> try dsimp only)) <;> simp_all (maxDischargeDepth := 12)

@[simp] theorem passTime_wf (s : State) (n : Nat) (gap : Nat) (hm : s.mem.wf = true) :
    (passTime s n gap).mem.wf = true := by
  simp_all (maxDischargeDepth := 12) [passTime]

@[simp] theorem slotGrant_wf (s0 : State) (n : Nat) (gap : Nat) (background : Bool) (arrivals : List HbmRequest) (est : List (Nat × Nat)) (hm : s0.mem.wf = true) :
    (slotGrant s0 n gap background arrivals est).mem.wf = true := by
  unfold slotGrant
  try dsimp only
  (repeat' (split <;> try dsimp only)) <;> simp_all (maxDischargeDepth := 12)

@[simp] theorem sshareSet_mem (s : State) (d : Nat) (v : Word) :
    (sshareSet s d v).mem = s.mem := by
  unfold sshareSet
  try dsimp only
  (repeat' (split <;> try dsimp only)) <;> simp_all

@[simp] theorem streamWrite_mem (s : State) (d : Nat) (off : Nat) (v : Word) :
    (streamWrite s d off v).mem = s.mem := by
  unfold streamWrite
  try dsimp only
  (repeat' (split <;> try dsimp only)) <;> simp_all

/-! ## Machine/Regs.lean -/

@[simp] theorem portWrite_wf (s : State) (p : Nat) (off : Nat) (w : Word) (hm : s.mem.wf = true) :
    (portWrite s p off w).mem.wf = true := by
  unfold portWrite
  try dsimp only
  (repeat' (split <;> try dsimp only)) <;> simp_all (maxDischargeDepth := 12)

@[simp] theorem bar0Write_wf (s : State) (off : Nat) (w : Word) (hm : s.mem.wf = true) :
    (bar0Write s off w).mem.wf = true := by
  unfold bar0Write
  try dsimp only
  (repeat' (split <;> try dsimp only)) <;> simp_all (maxDischargeDepth := 12)

@[simp] theorem mailboxIn_mem (s : State) (v : DWord) :
    (mailboxIn s v).mem = s.mem := by
  simp [mailboxIn]

@[simp] theorem wideSet_mem (s : State) (off : Nat) (v : DWord) :
    (wideSet s off v).mem = s.mem := by
  unfold wideSet
  try dsimp only
  (repeat' (split <;> try dsimp only)) <;> simp_all

@[simp] theorem wideUpper_mem (s : State) (off : Nat) (w : Word) :
    (wideUpper s off w).mem = s.mem := by
  simp [wideUpper]

@[simp] theorem writeWord_wf (s : State) (off : Nat) (w : Word) (hm : s.mem.wf = true) :
    (writeWord s off w).mem.wf = true := by
  unfold writeWord
  try dsimp only
  (repeat' (split <;> try dsimp only)) <;> simp_all (maxDischargeDepth := 12)

@[simp] theorem writeBar0_wf (s : State) (off : Nat) (size : Nat) (v : DWord) (hm : s.mem.wf = true) :
    (writeBar0 s off size v).mem.wf = true := by
  unfold writeBar0
  try dsimp only
  (repeat' (split <;> try dsimp only)) <;> simp_all (maxDischargeDepth := 12)

/-! ## Machine/Host.lean -/

@[simp] theorem outsideWrite_wf (s : State) (a : Nat) (b : Bytes) (hbm : Sector) (hm : s.mem.wf = true) :
    (outsideWrite s a b hbm).1.mem.wf = true := by
  unfold outsideWrite
  try dsimp only
  (repeat' (split <;> try dsimp only)) <;> simp_all (maxDischargeDepth := 12)

@[simp] theorem outsideRead_wf (s : State) (a : Nat) (n : Nat) (hbm : Sector) (hm : s.mem.wf = true) :
    (outsideRead s a n hbm).1.mem.wf = true := by
  unfold outsideRead
  try dsimp only
  (repeat' (split <;> try dsimp only)) <;> simp_all (maxDischargeDepth := 12)

@[simp] theorem countAperr_mem (s : State) :
    (countAperr s).mem = s.mem := by
  simp [countAperr]

@[simp] theorem viaMiss_mem (s : State) (l0 : Via) :
    (viaMiss s l0).mem = s.mem := by
  unfold viaMiss
  try dsimp only
  (repeat' (split <;> try dsimp only)) <;> simp_all

@[simp] theorem apertureRead_wf (s : State) (via : Via) (off : Nat) (len : Nat) (hbm : Sector) (hm : s.mem.wf = true) :
    (apertureRead s via off len hbm).mem.wf = true := by
  unfold apertureRead
  have h1 := outsideRead_wf s (viaAddr s off via) len hbm hm
  try dsimp only
  (repeat' (split <;> try dsimp only)) <;> simp_all (maxDischargeDepth := 12)

@[simp] theorem configWrite_mem (s : State) (off : Nat) (w : Word) :
    (configWrite s off w).mem = s.mem := by
  unfold configWrite
  try dsimp only
  (repeat' (split <;> try dsimp only)) <;> simp_all

@[simp] theorem configRequest_mem (s : State) (off : Nat) (write : Option Word) :
    (configRequest s off write).mem = s.mem := by
  unfold configRequest
  try dsimp only
  (repeat' (split <;> try dsimp only)) <;> simp_all

@[simp] theorem dpFail_mem (s : State) (e : Nat) :
    (dpFail s e).mem = s.mem := by
  simp [dpFail]

@[simp] theorem dpNext_mem (s : State) :
    (dpNext s).mem = s.mem := by
  unfold dpNext
  try dsimp only
  (repeat' (split <;> try dsimp only)) <;> simp_all

@[simp] theorem dpRead_wf (s : State) (hbm : Sector) (hm : s.mem.wf = true) :
    (dpRead s hbm).1.mem.wf = true := by
  unfold dpRead
  have h1 := outsideRead_wf s (dpAt s) 4 hbm hm
  try dsimp only
  (repeat' (split <;> try dsimp only)) <;> simp_all (maxDischargeDepth := 12)

@[simp] theorem dpWrite_wf (s : State) (w : Word) (hbm : Sector) (hm : s.mem.wf = true) :
    (dpWrite s w hbm).1.mem.wf = true := by
  unfold dpWrite
  have h1 := outsideWrite_wf s (dpAt s) (toLe 4 w.toNat) hbm hm
  try dsimp only
  (repeat' (split <;> try dsimp only)) <;> simp_all (maxDischargeDepth := 12)

@[simp] theorem dpCtrlWrite_mem (s : State) (w : Word) :
    (dpCtrlWrite s w).mem = s.mem := rfl

/-! ## Machine/Mgmt.lean -/

@[simp] theorem setMgtLink_mem (s : State) (p : Nat) (up : Bool) (rate : Nat) :
    (setMgtLink s p up rate).mem = s.mem := by
  unfold setMgtLink
  try dsimp only
  (repeat' (split <;> try dsimp only)) <;> simp_all

@[simp] theorem networkFrame_mem (s : State) (p : Nat) (f : NetFrame) :
    (networkFrame s p f).mem = s.mem := by
  unfold networkFrame
  try dsimp only
  (repeat' (split <;> try dsimp only)) <;> simp_all

@[simp] theorem discstatWrite_mem (s : State) (w : Word) :
    (discstatWrite s w).mem = s.mem := by
  simp [discstatWrite]

@[simp] theorem dpLoad_mem (s : State) (a : DWord) :
    (dpLoad s a).mem = s.mem := by
  simp [dpLoad]

@[simp] theorem dpHalfWrite_mem (s : State) (high : Bool) (w : Word) :
    (dpHalfWrite s high w).mem = s.mem := by
  unfold dpHalfWrite
  try dsimp only
  (repeat' (split <;> try dsimp only)) <;> simp_all

@[simp] theorem dpRegRead_wf (s : State) (off : Nat) (len : Nat) (hbm : Sector) (hm : s.mem.wf = true) :
    (dpRegRead s off len hbm).1.mem.wf = true := by
  unfold dpRegRead
  have h1 := dpRead_wf s hbm hm
  try dsimp only
  (repeat' (split <;> try dsimp only)) <;> simp_all (maxDischargeDepth := 12)

@[simp] theorem dpRegWrite_wf (s : State) (off : Nat) (b : Bytes) (hbm : Sector) (hm : s.mem.wf = true) :
    (dpRegWrite s off b hbm).1.mem.wf = true := by
  unfold dpRegWrite
  have h1 := dpWrite_wf s (BitVec.ofNat 32 (leNat b)) hbm hm
  try dsimp only
  (repeat' (split <;> try dsimp only)) <;> simp_all (maxDischargeDepth := 12)

@[simp] theorem burstRead_wf (l0 : Nat) (s : State) (l2 : Sector) (hm : s.mem.wf = true) :
    (burstRead l0 s l2).1.mem.wf = true := by
  induction l0 generalizing s l2 with
  | zero => simpa [burstRead] using hm
  | succ n ih =>
    have h1 := dpRead_wf s l2 hm
    simp only [burstRead]
    split <;> rename_i h2 <;> rw [h2] at h1
    · exact ih _ _ h1
    · exact h1

@[simp] theorem burstWrite_wf (l0 : Nat) (s : State) (l2 : Bytes) (l3 : Sector) (hm : s.mem.wf = true) :
    (burstWrite l0 s l2 l3).1.mem.wf = true := by
  induction l0 generalizing s l2 l3 with
  | zero => simpa [burstWrite] using hm
  | succ n ih =>
    have h1 := dpWrite_wf s (BitVec.ofNat 32 (field l2 0 4)) l3 hm
    simp only [burstWrite]
    split <;> rename_i h2 <;> rw [h2] at h1
    · exact ih _ _ _ h1
    · exact h1

@[simp] theorem burstLoad_mem (s : State) (a : Nat) (n : Nat) :
    (burstLoad s a n).mem = s.mem := by
  simp [burstLoad]

@[simp] theorem serveBurstRead_wf (s : State) (b : Bytes) (hbm : Sector) (hm : s.mem.wf = true) :
    (serveBurstRead s b hbm).1.mem.wf = true := by
  unfold serveBurstRead
  try dsimp only
  (repeat' (split <;> try dsimp only)) <;> simp_all (maxDischargeDepth := 12)

@[simp] theorem serveBurstWrite_wf (s : State) (b : Bytes) (hbm : Sector) (hm : s.mem.wf = true) :
    (serveBurstWrite s b hbm).1.mem.wf = true := by
  unfold serveBurstWrite
  try dsimp only
  (repeat' (split <;> try dsimp only)) <;> simp_all (maxDischargeDepth := 12)

@[simp] theorem serveRegisterRead_wf (s : State) (b : Bytes) (hbm : Sector) (hm : s.mem.wf = true) :
    (serveRegisterRead s b hbm).1.mem.wf = true := by
  unfold serveRegisterRead
  have h1 := dpRegRead_wf s (field b 0x10 8) (dgLength b) hbm hm
  try dsimp only
  (repeat' (split <;> try dsimp only)) <;> simp_all (maxDischargeDepth := 12)

@[simp] theorem serveRegisterWrite_wf (s : State) (b : Bytes) (hbm : Sector) (hm : s.mem.wf = true) :
    (serveRegisterWrite s b hbm).1.mem.wf = true := by
  unfold serveRegisterWrite
  try dsimp only
  (repeat' (split <;> try dsimp only)) <;> simp_all (maxDischargeDepth := 12)

@[simp] theorem runManagement_wf (s : State) (c : Cmd) (host : HostRead) (hm : s.mem.wf = true) :
    (runManagement s c host).1.mem.wf = true := by
  unfold runManagement
  try dsimp only
  (repeat' (split <;> try dsimp only)) <;> simp_all (maxDischargeDepth := 12)

@[simp] theorem runPacket_wf (s : State) (b : Bytes) (host : HostRead) (hm : s.mem.wf = true) :
    (runPacket s b host).1.mem.wf = true := by
  unfold runPacket
  try dsimp only
  (repeat' (split <;> try dsimp only)) <;> simp_all (maxDischargeDepth := 12)

@[simp] theorem serveCommand_wf (s : State) (b : Bytes) (host : HostRead) (hm : s.mem.wf = true) :
    (serveCommand s b host).1.mem.wf = true := by
  unfold serveCommand
  try dsimp only
  (repeat' (split <;> try dsimp only)) <;> simp_all (maxDischargeDepth := 12)

@[simp] theorem datagram_wf (s : State) (p : Nat) (op : Nat) (b : Bytes) (serve : State → Served) (hm : s.mem.wf = true) (hfserve : ∀ (x0 : State), x0.mem.wf = true → (serve x0).1.mem.wf = true) :
    (datagram s p op b serve).mem.wf = true := by
  unfold datagram
  try dsimp only
  (repeat' (split <;> try dsimp only)) <;> simp_all (maxDischargeDepth := 12)

@[simp] theorem smbWord_mem (v : Nat) (s : State) :
    (smbWord v s).mem = s.mem := by
  simp [smbWord]

@[simp] theorem smbBlock_mem (v : Nat) (s : State) :
    (smbBlock v s).mem = s.mem := by
  simp [smbBlock]

/-! ## Machine/Startup.lean -/

@[simp] theorem resetDies_wf (s : State) (hm : s.mem.wf = true) :
    (resetDies s).mem.wf = true := by
  simp_all (maxDischargeDepth := 12) [resetDies]

@[simp] theorem allOff_wf (s : State) (hm : s.mem.wf = true) :
    (allOff s).mem.wf = true := by
  simp_all (maxDischargeDepth := 12) [allOff]

@[simp] theorem powerOn_wf (s : State) (straps : Nat) (hm : s.mem.wf = true) :
    (powerOn s straps).mem.wf = true := by
  simp_all (maxDischargeDepth := 12) [powerOn]

@[simp] theorem logImage_mem (s : State) (t : Nat) (check : Nat) (bank : Nat) :
    (logImage s t check bank).mem = s.mem := by
  simp [logImage]

@[simp] theorem runImage_mem (s : State) (t : Nat) (i : Option Image) (spare : Bool) :
    (runImage s t i spare).mem = s.mem := rfl

@[simp] theorem bootType_mem (s : State) (rep : StartReport) (t : Nat) :
    (bootType s rep t).1.mem = s.mem := by
  unfold bootType
  try dsimp only
  (repeat' (split <;> try dsimp only)) <;> simp_all

@[simp] theorem activateType_mem (s : State) (t : Nat) :
    (activateType s t).mem = s.mem := by
  unfold activateType
  try dsimp only
  (repeat' (split <;> try dsimp only)) <;> simp_all

@[simp] theorem activateImages_mem (s : State) :
    (activateImages s).mem = s.mem := by
  simp [activateImages]

@[simp] theorem endNoFirmware_mem (s : State) (code : Nat) :
    (endNoFirmware s code).mem = s.mem := by
  simp [endNoFirmware]

@[simp] theorem endSafe_wf (s : State) (code : Nat) (hm : s.mem.wf = true) :
    (endSafe s code).mem.wf = true := by
  simp_all (maxDischargeDepth := 12) [endSafe]

@[simp] theorem endpointUp_mem (s : State) :
    (endpointUp s).mem = s.mem := rfl

@[simp] theorem domainsOn_mem (s : State) (l : List Nat) :
    (domainsOn s l).mem = s.mem := by
  simp [domainsOn]

@[simp] theorem discoveryStep_mem (rep : StartReport) (k : Nat) (s : State) :
    (discoveryStep rep k s).1.mem = s.mem := by
  unfold discoveryStep
  try dsimp only
  (repeat' (split <;> try dsimp only)) <;> simp_all

@[simp] theorem discoverySteps_mem (rep : StartReport) (l0 : List Nat) (s : State) :
    (discoverySteps rep l0 s).1.mem = s.mem := by
  induction l0 generalizing s with
  | nil => simp [discoverySteps]
  | cons a t ih =>
    simp only [discoverySteps]
    (repeat' (split <;> try dsimp only)) <;> simp_all

@[simp] theorem discover_mem (s : State) (rep : StartReport) :
    (discover s rep).1.mem = s.mem := by
  unfold discover
  try dsimp only
  (repeat' (split <;> try dsimp only)) <;> simp_all

@[simp] theorem qualify_wf (s : State) (rep : StartReport) (hm : s.mem.wf = true) :
    (qualify s rep).1.mem.wf = true := by
  simp_all (maxDischargeDepth := 12) [qualify]

@[simp] theorem failMere_mem (s : State) (p : Nat) :
    (failMere s p).mem = s.mem := by
  simp [failMere]

@[simp] theorem placeSpares_mem (l0 : List Nat) (s : State) :
    (placeSpares l0 s).mem = s.mem := by
  induction l0 generalizing s with
  | nil => simp [placeSpares]
  | cons a t ih =>
    simp only [placeSpares]
    (repeat' (split <;> try dsimp only)) <;> simp_all

@[simp] theorem clusterStart_mem (s : State) (c : Nat) :
    (clusterStart s c).mem = s.mem := by
  simp [clusterStart]

@[simp] theorem testMeres_mem (s : State) (rep : StartReport) :
    (testMeres s rep).1.mem = s.mem := by
  simp [testMeres]

@[simp] theorem failPort_mem (s : State) (p : Nat) :
    (failPort s p).mem = s.mem := by
  simp [failPort]

@[simp] theorem testPorts_mem (s : State) (rep : StartReport) :
    (testPorts s rep).1.mem = s.mem := by
  simp [testPorts]

@[simp] theorem becomeReady_mem (s : State) (rep : StartReport) :
    (becomeReady s rep).mem = s.mem := by
  unfold becomeReady
  try dsimp only
  (repeat' (split <;> try dsimp only)) <;> simp_all

@[simp] theorem startCores_wf (s : State) (rep : StartReport) (hm : s.mem.wf = true) :
    (startCores s rep).mem.wf = true := by
  unfold startCores
  try dsimp only
  (repeat' (split <;> try dsimp only)) <;> simp_all (maxDischargeDepth := 12)

@[simp] theorem startUnits_wf (s : State) (rep : StartReport) (hm : s.mem.wf = true) :
    (startUnits s rep).mem.wf = true := by
  unfold startUnits
  try dsimp only
  (repeat' (split <;> try dsimp only)) <;> simp_all (maxDischargeDepth := 12)

@[simp] theorem startDies_wf (s : State) (rep : StartReport) (hm : s.mem.wf = true) :
    (startDies s rep).mem.wf = true := by
  unfold startDies
  try dsimp only
  (repeat' (split <;> try dsimp only)) <;> simp_all (maxDischargeDepth := 12)

@[simp] theorem startUp_wf (s : State) (rep : StartReport) (hm : s.mem.wf = true) :
    (startUp s rep).mem.wf = true := by
  unfold startUp
  try dsimp only
  (repeat' (split <;> try dsimp only)) <;> simp_all (maxDischargeDepth := 12)

@[simp] theorem tryStart_wf (s : State) (rep : StartReport) (hm : s.mem.wf = true) :
    (tryStart s rep).mem.wf = true := by
  unfold tryStart
  try dsimp only
  (repeat' (split <;> try dsimp only)) <;> simp_all (maxDischargeDepth := 12)

/-! ## Machine/Pins.lean -/

@[simp] theorem inputLost_wf (s : State) (volts : Nat) (hm : s.mem.wf = true) :
    (inputLost s volts).mem.wf = true := by
  simp_all (maxDischargeDepth := 12) [inputLost]

@[simp] theorem powerBad_wf (s : State) (hm : s.mem.wf = true) :
    (powerBad s).mem.wf = true := by
  simp_all (maxDischargeDepth := 12) [powerBad]

@[simp] theorem dropHostReplies_mem (s : State) :
    (dropHostReplies s).mem = s.mem := rfl

@[simp] theorem perstFinish_wf (s : State) (hm : s.mem.wf = true) :
    (perstFinish s).mem.wf = true := by
  unfold perstFinish
  try dsimp only
  (repeat' (split <;> try dsimp only)) <;> simp_all (maxDischargeDepth := 12)

@[simp] theorem endpointReset_wf (s : State) (hm : s.mem.wf = true) :
    (endpointReset s).mem.wf = true := by
  unfold endpointReset
  try dsimp only
  (repeat' (split <;> try dsimp only)) <;> simp_all (maxDischargeDepth := 12)

@[simp] theorem inputTrip_wf (s : State) (hm : s.mem.wf = true) :
    (inputTrip s).mem.wf = true := by
  simp_all (maxDischargeDepth := 12) [inputTrip]

@[simp] theorem takenFor_wf (s : State) (idx : Nat) (hm : s.mem.wf = true) :
    (takenFor s idx).mem.wf = true := by
  unfold takenFor
  try dsimp only
  (repeat' (split <;> try dsimp only)) <;> simp_all (maxDischargeDepth := 12)

@[simp] theorem lose25_wf (s : State) (hm : s.mem.wf = true) :
    (lose25 s).mem.wf = true := by
  simp_all (maxDischargeDepth := 12) [lose25]

@[simp] theorem logReference_mem (s : State) (which : Nat) :
    (logReference s which).mem = s.mem := by
  simp [logReference]

@[simp] theorem referenceLost_wf (s : State) (which : Nat) (hm : s.mem.wf = true) :
    (referenceLost s which).mem.wf = true := by
  unfold referenceLost
  try dsimp only
  (repeat' (split <;> try dsimp only)) <;> simp_all (maxDischargeDepth := 12)

/-! ## Machine/Tick.lean -/

@[simp] theorem tick_wf (s : State) (hm : s.mem.wf = true) :
    (tick s).mem.wf = true := by
  unfold tick
  try dsimp only
  (repeat' (split <;> try dsimp only)) <;> simp_all (maxDischargeDepth := 12)

end Sys2Proof.Machine
end

