-- ==== Sys2Proof/Laws/Queue.lean ====
section
/-! SUPPORT. No operation of the machine touches the queue of waiting commands. One lemma for each operation that answers a
state, file by file. -/

namespace Sys2Proof.Machine

/-- A fold of a step that leaves the queue leaves it. -/
@[simp] theorem foldl_pending {α : Type} (f : State → α → State) (l : List α) (s : State)
    (hf : ∀ s a, (f s a).pending = s.pending) : (l.foldl f s).pending = s.pending := by
  induction l generalizing s with
  | nil => rfl
  | cons a t ih => rw [List.foldl_cons, ih, hf]

/-! ## Machine/Ops.lean -/

@[simp] theorem capSync_pending (old : State) (new : State) :
    (capSync old new).pending = new.pending := by
  unfold capSync
  try dsimp only
  (repeat' (split <;> try dsimp only)) <;> simp_all

@[simp] theorem logAdd_pending (s : State) (kind : Nat) (level : Nat) (die : Nat) (unit : Nat) (eflags : Nat) (status : Nat) (detail : Nat) (cause : Nat) (info : Bytes) :
    (logAdd s kind level die unit eflags status detail cause info).pending = s.pending := by
  unfold logAdd
  try dsimp only
  (repeat' (split <;> try dsimp only)) <;> simp_all

@[simp] theorem logNote_pending (s : State) (kind : Nat) (die : Nat) (unit : Nat) (info : Bytes) :
    (logNote s kind die unit info).pending = s.pending := by
  simp [logNote]

/-! ## Machine/Repair.lean -/

@[simp] theorem flagStack_pending (s : State) (n : Nat) :
    (flagStack s n).pending = s.pending := by
  unfold flagStack
  try dsimp only
  (repeat' (split <;> try dsimp only)) <;> simp_all

@[simp] theorem retireFrame_pending (s : State) (n : Nat) (f : Nat) :
    (retireFrame s n f).pending = s.pending := by
  unfold retireFrame
  try dsimp only
  (repeat' (split <;> try dsimp only)) <;> simp_all

@[simp] theorem markFrame_pending (s : State) (n : Nat) (f : Nat) :
    (markFrame s n f).pending = s.pending := by
  unfold markFrame
  try dsimp only
  (repeat' (split <;> try dsimp only)) <;> simp_all

@[simp] theorem markFrames_pending (n : Nat) (l0 : List Nat) (s : State) :
    (markFrames n l0 s).pending = s.pending := by
  induction l0 generalizing s with
  | nil => simp [markFrames]
  | cons a t ih =>
    simp only [markFrames]
    (repeat' (split <;> try dsimp only)) <;> simp_all

@[simp] theorem spentBank_pending (s : State) (n : Nat) (bank : Nat) :
    (spentBank s n bank).pending = s.pending := by
  unfold spentBank
  try dsimp only
  (repeat' (split <;> try dsimp only)) <;> simp_all

@[simp] theorem repairRow_pending (s : State) (n : Nat) (r : Nat × Nat) :
    (repairRow s n r).pending = s.pending := by
  unfold repairRow
  try dsimp only
  (repeat' (split <;> try dsimp only)) <;> simp_all

@[simp] theorem repairRows_pending (n : Nat) (l0 : List (Nat × Nat)) (s : State) :
    (repairRows n l0 s).pending = s.pending := by
  induction l0 generalizing s with
  | nil => simp [repairRows]
  | cons a t ih =>
    simp only [repairRows]
    (repeat' (split <;> try dsimp only)) <;> simp_all

@[simp] theorem leaveFrame_pending (s : State) (n : Nat) (f : Nat) :
    (leaveFrame s n f).pending = s.pending := by
  unfold leaveFrame
  try dsimp only
  (repeat' (split <;> try dsimp only)) <;> simp_all

@[simp] theorem rowFails_pending (s : State) (n : Nat) (frame : Nat) (row : Nat) (bank : Nat) :
    (rowFails s n frame row bank).pending = s.pending := by
  unfold rowFails
  try dsimp only
  (repeat' (split <;> try dsimp only)) <;> simp_all

@[simp] theorem rowError_pending (s : State) (n : Nat) (frame : Nat) (row : Nat) (bank : Nat) :
    (rowError s n frame row bank).pending = s.pending := by
  unfold rowError
  try dsimp only
  (repeat' (split <;> try dsimp only)) <;> simp_all

@[simp] theorem logUncorrectable_pending (s : State) (n : Nat) (frame : Nat) (addr : Nat) (scrub : Bool) (status : Nat) (detail : Nat) :
    (logUncorrectable s n frame addr scrub status detail).pending = s.pending := by
  simp [logUncorrectable]

@[simp] theorem sectorRead_pending (s : State) (n : Nat) (frame : Nat) (off : Nat) (k : Sector) (scrub : Bool) (status : Nat) (detail : Nat) :
    (sectorRead s n frame off k scrub status detail).pending = s.pending := by
  unfold sectorRead
  try dsimp only
  (repeat' (split <;> try dsimp only)) <;> simp_all

@[simp] theorem leaveFrames_pending (l0 : List (Nat × Nat)) (s : State) :
    (leaveFrames l0 s).pending = s.pending := by
  induction l0 generalizing s with
  | nil => simp [leaveFrames]
  | cons a t ih =>
    simp only [leaveFrames]
    (repeat' (split <;> try dsimp only)) <;> simp_all

@[simp] theorem unmapSpans_pending (s : State) (w : Nat) (first : Nat) (count : Nat) :
    (unmapSpans s w first count).pending = s.pending := by
  simp [unmapSpans]

@[simp] theorem mapSpans_pending (s : State) (w : Nat) (first : Nat) (owner : Nat) (frames : List (List Nat)) :
    (mapSpans s w first owner frames).pending = s.pending := by
  simp [mapSpans]

@[simp] theorem unmapAll_pending (s : State) :
    (unmapAll s).pending = s.pending := by
  simp [unmapAll]

/-! ## Machine/Flags.lean -/

@[simp] theorem addTokens_pending (s : State) (q : Nat) (n : Nat) (k : Nat) :
    (addTokens s q n k).pending = s.pending := by
  unfold addTokens
  try dsimp only
  (repeat' (split <;> try dsimp only)) <;> simp_all

@[simp] theorem poison_pending (s : State) (n : Nat) :
    (poison s n).pending = s.pending := by
  unfold poison
  try dsimp only
  (repeat' (split <;> try dsimp only)) <;> simp_all

@[simp] theorem takeTokens_pending (s : State) (l0 : List Nat) :
    (takeTokens s l0).pending = s.pending := by
  induction l0 generalizing s with
  | nil => simp [takeTokens]
  | cons a t ih =>
    simp only [takeTokens]
    (repeat' (split <;> try dsimp only)) <;> simp_all

@[simp] theorem returnTokens_pending (s : State) (q : Nat) (l0 : List Nat) :
    (returnTokens s q l0).pending = s.pending := by
  induction l0 generalizing s with
  | nil => simp [returnTokens]
  | cons a t ih =>
    simp only [returnTokens]
    (repeat' (split <;> try dsimp only)) <;> simp_all

@[simp] theorem tokenAct_pending (s : State) (c : Cmd) (e : Err) :
    (tokenAct s c e).pending = s.pending := by
  unfold tokenAct
  try dsimp only
  (repeat' (split <;> try dsimp only)) <;> simp_all

@[simp] theorem endClaims_pending (s : State) (c : Cmd) (kept : Bool) :
    (endClaims s c kept).pending = s.pending := by
  unfold endClaims
  try dsimp only
  (repeat' (split <;> try dsimp only)) <;> simp_all

@[simp] theorem replyAct_pending (s : State) (c : Cmd) (e : Err) (work : Nat) :
    (replyAct s c e work).pending = s.pending := by
  unfold replyAct
  try dsimp only
  (repeat' (split <;> try dsimp only)) <;> simp_all

@[simp] theorem finishOne_pending (s : State) (c : Cmd) (e : Err) (work : Nat) :
    (finishOne s c e work).pending = s.pending := by
  simp [finishOne]

@[simp] theorem sweep_pending (l0 : Nat) (s : State) :
    (sweep l0 s).pending = s.pending := by
  induction l0 generalizing s with
  | zero => simp [sweep]
  | succ n ih =>
    simp only [sweep]
    (repeat' (split <;> try dsimp only)) <;> simp_all

@[simp] theorem settle_pending (s : State) :
    (settle s).pending = s.pending := by
  simp [settle]

@[simp] theorem complete_pending (s : State) (c : Cmd) (e : Err) (work : Nat) :
    (complete s c e work).pending = s.pending := by
  simp [complete]

@[simp] theorem finishAll_pending (l0 : List (Cmd × Err)) (s : State) :
    (finishAll l0 s).pending = s.pending := by
  induction l0 generalizing s with
  | nil => simp [finishAll]
  | cons a t ih =>
    simp only [finishAll]
    (repeat' (split <;> try dsimp only)) <;> simp_all

@[simp] theorem tearMaster_pending (s : State) (c : Cmd) :
    (tearMaster s c).pending = s.pending := by
  unfold tearMaster
  try dsimp only
  (repeat' (split <;> try dsimp only)) <;> simp_all

@[simp] theorem tearAll_pending (l0 : List Cmd) (s : State) :
    (tearAll l0 s).pending = s.pending := by
  induction l0 generalizing s with
  | nil => simp [tearAll]
  | cons a t ih =>
    simp only [tearAll]
    (repeat' (split <;> try dsimp only)) <;> simp_all

@[simp] theorem failJob_pending (s : State) (stuck : Cmd → Bool) (observed : Option Nat) :
    (failJob s stuck observed).pending = s.pending := by
  unfold failJob
  try dsimp only
  (repeat' (split <;> try dsimp only)) <;> simp_all

/-! ## Machine/Operands.lean -/

@[simp] theorem countZip_pending (s : State) (die : Nat) (z : ZipStats) :
    (countZip s die z).pending = s.pending := by
  unfold countZip
  try dsimp only
  (repeat' (split <;> try dsimp only)) <;> simp_all

@[simp] theorem countEscapes_pending (s : State) (die : Nat) (esc : Nat) (spill : Nat) :
    (countEscapes s die esc spill).pending = s.pending := by
  simp [countEscapes]

@[simp] theorem countDamage_pending (s : State) (die : Nat) :
    (countDamage s die).pending = s.pending := by
  simp [countDamage]

@[simp] theorem claimAll_pending (s : State) (cid : Nat) (rs : List (Nat × Nat)) :
    (claimAll s cid rs).pending = s.pending := by
  unfold claimAll
  try dsimp only
  (repeat' (split <;> try dsimp only)) <;> simp_all

@[simp] theorem forgetAll_pending (l0 : List (Nat × Nat)) (s : State) :
    (forgetAll l0 s).pending = s.pending := by
  induction l0 generalizing s with
  | nil => simp [forgetAll]
  | cons a t ih =>
    simp only [forgetAll]
    (repeat' (split <;> try dsimp only)) <;> simp_all

@[simp] theorem ownView_pending (s : State) (cid : Nat) :
    (ownView s cid).pending = s.pending := by
  simp [ownView]

@[simp] theorem finishWork_pending (s : State) (c : Cmd) (r : Result) :
    (finishWork s c r).pending = s.pending := by
  unfold finishWork
  try dsimp only
  (repeat' (split <;> try dsimp only)) <;> simp_all

/-! ## Machine/Tiling.lean -/

@[simp] theorem countZips_pending (s : State) (l0 : List (Nat × ZipStats)) :
    (countZips s l0).pending = s.pending := by
  induction l0 generalizing s with
  | nil => simp [countZips]
  | cons a t ih =>
    simp only [countZips]
    (repeat' (split <;> try dsimp only)) <;> simp_all

@[simp] theorem applyRun_pending (s : State) (c : Cmd) (r : Run) :
    (applyRun s c r).pending = s.pending := by
  unfold applyRun
  try dsimp only
  (repeat' (split <;> try dsimp only)) <;> simp_all

@[simp] theorem onWork_pending (s : State) (cid : Nat) (ops : List Nat) (f : Cmd → State) (hff : ∀ (x0 : Cmd), (f x0).pending = s.pending) :
    (onWork s cid ops f).pending = s.pending := by
  unfold onWork
  try dsimp only
  (repeat' (split <;> try dsimp only)) <;> simp_all

@[simp] theorem onRun_pending (s : State) (cid : Nat) (ops : List Nat) (issue : State → Cmd → Option Err) (run : State → Cmd → Run) :
    (onRun s cid ops issue run).pending = s.pending := by
  unfold onRun
  refine onWork_pending _ _ _ _ (fun c => ?_)
  (repeat' (split <;> try dsimp only)) <;> simp_all

/-! ## Machine/Move.lean -/

@[simp] theorem pickFrames_pending (s : State) (cid : Nat) (r : Run) :
    (pickFrames s cid r).pending = s.pending := by
  unfold pickFrames
  try dsimp only
  (repeat' (split <;> try dsimp only)) <;> simp_all

/-! ## Machine/Ingest.lean -/

@[simp] theorem openIngest_pending (s : State) (st : Nat) (cfg : Bytes) (src : Nat) (rsv : Nat) (dict : Nat) (pos : DWord) (epoch : Word) (seed : Word) :
    (openIngest s st cfg src rsv dict pos epoch seed).pending = s.pending := by
  simp [openIngest]

@[simp] theorem closeIngest_pending (s : State) (st : Nat) :
    (closeIngest s st).pending = s.pending := by
  simp [closeIngest]

@[simp] theorem releaseSlot_pending (s : State) (st : Nat) (slot : Nat) :
    (releaseSlot s st slot).pending = s.pending := by
  simp [releaseSlot]

@[simp] theorem seekIngest_pending (s : State) (st : Nat) (pos : DWord) (epoch : Word) (rsv : Option DWord) :
    (seekIngest s st pos epoch rsv).pending = s.pending := by
  unfold seekIngest
  try dsimp only
  (repeat' (split <;> try dsimp only)) <;> simp_all

@[simp] theorem failBatch_pending (s : State) (st : Nat) (e : Err) :
    (failBatch s st e).pending = s.pending := by
  unfold failBatch
  try dsimp only
  (repeat' (split <;> try dsimp only)) <;> simp_all

@[simp] theorem meanStep_pending (s : State) (f : LaneField) (m : Media) (cycles : Nat) :
    (meanStep s f m cycles).pending = s.pending := by
  unfold meanStep
  try dsimp only
  (repeat' (split <;> try dsimp only)) <;> simp_all

@[simp] theorem putAll_pending (l0 : List (Nat × Bytes)) (s : State) :
    (putAll l0 s).pending = s.pending := by
  induction l0 generalizing s with
  | nil => simp [putAll]
  | cons a t ih =>
    simp only [putAll]
    (repeat' (split <;> try dsimp only)) <;> simp_all

@[simp] theorem countSat_pending (s : State) (n : Nat) :
    (countSat s n).pending = s.pending := by
  unfold countSat
  try dsimp only
  (repeat' (split <;> try dsimp only)) <;> simp_all

@[simp] theorem batchDone_pending (s : State) (c : Cmd) (notes : Nat) (work : Nat) :
    (batchDone s c notes work).pending = s.pending := by
  unfold batchDone
  try dsimp only
  (repeat' (split <;> try dsimp only)) <;> simp_all

@[simp] theorem commitBatch_pending (s : State) (stream : Nat) (g : Ingest) (a : Assembly) (c : Cmd) :
    (commitBatch s stream g a c).pending = s.pending := by
  unfold commitBatch
  try dsimp only
  (repeat' (split <;> try dsimp only)) <;> simp_all

@[simp] theorem sdshareSet_pending (s : State) (stream : Nat) (v : Word) :
    (sdshareSet s stream v).pending = s.pending := by
  unfold sdshareSet
  try dsimp only
  (repeat' (split <;> try dsimp only)) <;> simp_all

@[simp] theorem tailSet_pending (s : State) (stream : Nat) (reserve : Bool) (v : Word) :
    (tailSet s stream reserve v).pending = s.pending := by
  unfold tailSet
  try dsimp only
  (repeat' (split <;> try dsimp only)) <;> simp_all

@[simp] theorem discardAll_pending (s : State) :
    (discardAll s).pending = s.pending := by
  simp [discardAll]

@[simp] theorem closeStreams_pending (l0 : List Nat) (s : State) :
    (closeStreams l0 s).pending = s.pending := by
  induction l0 generalizing s with
  | nil => simp [closeStreams]
  | cons a t ih =>
    simp only [closeStreams]
    (repeat' (split <;> try dsimp only)) <;> simp_all

@[simp] theorem springLoad_pending (s : State) :
    (springLoad s).pending = s.pending := by
  simp [springLoad]

@[simp] theorem springWrite_pending (s : State) (off : Nat) (v : Word) :
    (springWrite s off v).pending = s.pending := by
  unfold springWrite
  try dsimp only
  (repeat' (split <;> try dsimp only)) <;> simp_all

/-! ## Machine/Links.lean -/

@[simp] theorem enqueueMsg_pending (s : State) (p : Nat) (m : TxMsg) :
    (enqueueMsg s p m).pending = s.pending := by
  simp [enqueueMsg]

/-- A message queued leaves the queue of commands. -/
theorem sendTx_pending (s s1 : State) (d : Nat) (m : TxMsg) (h : sendTx s d m = some s1) : s1.pending = s.pending := by
  simp only [sendTx, Option.map_eq_some_iff] at h
  obtain ⟨p, -, rfl⟩ := h
  simp

/-- A message queued, or another state in its place. -/
@[simp] theorem sendTx_getD_pending (s s1 : State) (d : Nat) (m : TxMsg) (h : s1.pending = s.pending) :
    ((sendTx s d m).getD s1).pending = s.pending := by
  cases h1 : sendTx s d m with
  | none => exact h
  | some t => exact sendTx_pending s t d m h1

@[simp] theorem sendAll_pending (d : Nat) (l0 : List TxMsg) (s : State) :
    (sendAll d l0 s).1.pending = s.pending := by
  induction l0 generalizing s with
  | nil => simp [sendAll]
  | cons a t ih =>
    simp only [sendAll]
    split
    · rename_i s1 h1
      rw [ih, sendTx_pending s s1 d a h1]
    · rfl

/-- Messages queued one after the other, each from the state so far, and counted. -/
theorem foldSend_pending {α : Type} (d : Nat) (f : State × Nat → α → TxMsg) (l : List α) (p : State × Nat) :
    (l.foldl (fun (a : State × Nat) b => match sendTx a.1 d (f a b) with
      | some s1 => (s1, a.2 + 1)
      | none => a) p).1.pending = p.1.pending := by
  induction l generalizing p with
  | nil => rfl
  | cons b t ih =>
    rw [List.foldl_cons, ih]
    split
    · rename_i h2; exact sendTx_pending _ _ _ _ h2
    · rfl

@[simp] theorem lostBlock_pending (s : State) (m : TxMsg) :
    (lostBlock s m).pending = s.pending := by
  unfold lostBlock
  try dsimp only
  (repeat' (split <;> try dsimp only)) <;> simp_all

@[simp] theorem rerouteMsg_pending (p : Nat) (s : State) (m : TxMsg) :
    (rerouteMsg p s m).pending = s.pending := by
  unfold rerouteMsg
  split
  · exact sendTx_pending _ _ _ _ (by assumption)
  · (repeat' split) <;> simp

@[simp] theorem portLost_pending (s : State) (p : Nat) :
    (portLost s p).pending = s.pending := by
  simp [portLost]

@[simp] theorem portDown_pending (s : State) (p : Nat) (cause : Nat) :
    (portDown s p cause).pending = s.pending := by
  simp [portDown]

@[simp] theorem portsDown_pending (cause : Nat) (l0 : List Nat) (s : State) :
    (portsDown cause l0 s).pending = s.pending := by
  induction l0 generalizing s with
  | nil => simp [portsDown]
  | cons a t ih =>
    simp only [portsDown]
    (repeat' (split <;> try dsimp only)) <;> simp_all

@[simp] theorem lastingFailure_pending (s : State) (p : Nat) (l : Nat) :
    (lastingFailure s p l).pending = s.pending := by
  unfold lastingFailure
  try dsimp only
  (repeat' (split <;> try dsimp only)) <;> simp_all

@[simp] theorem failLane_pending (s : State) (p : Nat) (l : Nat) (retrainOk : Bool) :
    (failLane s p l retrainOk).pending = s.pending := by
  unfold failLane
  try dsimp only
  (repeat' (split <;> try dsimp only)) <;> simp_all

@[simp] theorem retrainPort_pending (s : State) (p : Nat) :
    (retrainPort s p).pending = s.pending := by
  unfold retrainPort
  try dsimp only
  (repeat' (split <;> try dsimp only)) <;> simp_all

@[simp] theorem portEnable_pending (s : State) (p : Nat) :
    (portEnable s p).pending = s.pending := by
  unfold portEnable
  try dsimp only
  (repeat' (split <;> try dsimp only)) <;> simp_all

@[simp] theorem portDisable_pending (s : State) (p : Nat) :
    (portDisable s p).pending = s.pending := by
  unfold portDisable
  try dsimp only
  (repeat' (split <;> try dsimp only)) <;> simp_all

@[simp] theorem genCapWrite_pending (s : State) (p : Nat) (n : Nat) :
    (genCapWrite s p n).pending = s.pending := by
  unfold genCapWrite
  try dsimp only
  (repeat' (split <;> try dsimp only)) <;> simp_all

@[simp] theorem outFlit_pending (s : State) (p : Nat) (v : Port) (b : Bytes) :
    (outFlit s p v b).pending = s.pending := by
  simp [outFlit]

@[simp] theorem sendNew_pending (s : State) (p : Nat) (v : Port) (typ : Nat) (cls : Nat) (len : Nat) (msg : Nat) (frag : Nat) (payload : Bytes) :
    (sendNew s p v typ cls len msg frag payload).pending = s.pending := by
  simp [sendNew]

@[simp] theorem sendFragment_pending (s : State) (p : Nat) (v : Port) (m : TxMsg) :
    (sendFragment s p v m).pending = s.pending := by
  unfold sendFragment
  try dsimp only
  (repeat' (split <;> try dsimp only)) <;> simp_all

@[simp] theorem flitSlot_pending (s : State) (p : Nat) :
    (flitSlot s p).pending = s.pending := by
  unfold flitSlot
  try dsimp only
  (repeat' (split <;> try dsimp only)) <;> simp_all

@[simp] theorem rewind_pending (s : State) (p : Nat) (v : Port) (retrainOk : Bool) :
    (rewind s p v retrainOk).pending = s.pending := by
  unfold rewind
  try dsimp only
  (repeat' (split <;> try dsimp only)) <;> simp_all

@[simp] theorem onNak_pending (s : State) (p : Nat) (v : Port) (ack : Nat) :
    (onNak s p v ack).pending = s.pending := by
  unfold onNak
  try dsimp only
  (repeat' (split <;> try dsimp only)) <;> simp_all

@[simp] theorem deliverMsg_pending (s : State) (p : Nat) (cls : Nat) (data : Bytes) :
    (deliverMsg s p cls data).pending = s.pending := by
  unfold deliverMsg
  dsimp only
  split
  · rfl
  · split
    · exact sendTx_getD_pending _ _ _ _ rfl
    · rfl

@[simp] theorem takeFlit_pending (s : State) (p : Nat) (v : Port) (b : Bytes) :
    (takeFlit s p v b).pending = s.pending := by
  unfold takeFlit
  try dsimp only
  (repeat' (split <;> try dsimp only)) <;> simp_all

@[simp] theorem badFlit_pending (s : State) (p : Nat) :
    (badFlit s p).pending = s.pending := by
  unfold badFlit
  try dsimp only
  (repeat' (split <;> try dsimp only)) <;> simp_all

@[simp] theorem goodFlit_pending (s : State) (p : Nat) (b : Bytes) :
    (goodFlit s p b).pending = s.pending := by
  unfold goodFlit
  try dsimp only
  (repeat' (split <;> try dsimp only)) <;> simp_all

@[simp] theorem landMirrors_pending (s : State) :
    (landMirrors s).pending = s.pending := rfl

/-! ## Machine/Basin.lean -/

@[simp] theorem storeColl_pending (s : State) (co : Coll) :
    (storeColl s co).pending = s.pending := by
  simp [storeColl]

@[simp] theorem dropColl_pending (s : State) (co : Coll) :
    (dropColl s co).pending = s.pending := by
  simp [dropColl]

@[simp] theorem failColl_pending (s : State) (c : Cmd) (co : Coll) (e : Err) :
    (failColl s c co e).pending = s.pending := by
  unfold failColl
  try dsimp only
  (repeat' (split <;> try dsimp only)) <;> simp_all

@[simp] theorem endReduction_pending (s : State) (c : Cmd) (co : Coll) (off : Nat) (low : Nat) :
    (endReduction s c co off low).pending = s.pending := by
  unfold endReduction
  try dsimp only
  (repeat' (split <;> try dsimp only)) <;> simp_all

@[simp] theorem offerKept_pending (s : State) (c : Cmd) (co : Coll) : (offerKept s c co).1.pending = s.pending := rfl

@[simp] theorem sendFor_pending (s : State) (c : Cmd) (co : Coll) (ms : List TxMsg) :
    (sendFor s c co ms).state.pending = s.pending := by
  unfold sendFor
  have h1 : (sendAll 0 ms s).1.pending = s.pending := sendAll_pending 0 ms s
  split <;> rename_i h2 <;> rw [h2] at h1 <;> simp_all

@[simp] theorem closeRound_pending (s : State) (c : Cmd) (co : Coll) : (closeRound s c co).state.pending = s.pending := by
  unfold closeRound
  dsimp only
  (repeat' split) <;> simp_all

@[simp] theorem reduceStage_pending (s : State) (c : Cmd) (co : Coll) : (reduceStage s c co).state.pending = s.pending := by
  unfold reduceStage
  dsimp only
  split
  · rfl
  · (repeat' split) <;> rw [sendFor_pending]

@[simp] theorem gatherStage_pending (s : State) (c : Cmd) (co : Coll) : (gatherStage s c co).state.pending = s.pending := by
  unfold gatherStage
  dsimp only
  split
  · rfl
  · split
    · simp
    · rw [sendFor_pending]

@[simp] theorem collTurn_pending (s : State) (c : Cmd) (co : Coll) : (collTurn s c co).state.pending = s.pending := by
  unfold collTurn
  (repeat' split) <;> simp_all

@[simp] theorem collRun_pending (n : Nat) (s : State) (c : Cmd) (co : Coll) : (collRun n s c co).pending = s.pending := by
  induction n generalizing s co with
  | zero => simp [collRun]
  | succ n ih =>
    have h1 := collTurn_pending s c co
    simp only [collRun]
    split <;> rename_i h2 <;> rw [h2] at h1 <;> simp_all

@[simp] theorem runColl_pending (s : State) (c : Cmd) (co : Coll) :
    (runColl s c co).pending = s.pending := by
  simp [runColl]

@[simp] theorem standbyCheck_pending (s : State) (c : Cmd) (co : Coll) :
    (standbyCheck s c co).pending = s.pending := by
  unfold standbyCheck
  try dsimp only
  (repeat' (split <;> try dsimp only)) <;> simp_all

@[simp] theorem heardFrom_pending (s : State) (c : Cmd) (co : Coll) (src : Nat) (pull : Bool) :
    (heardFrom s c co src pull).pending = s.pending := by
  unfold heardFrom
  have h1 : (sendAll 0 (copyMsgs s c { co with heard := addTo co.heard src } src) s).1.pending = s.pending := sendAll_pending _ _ _
  dsimp only
  split
  · split <;> rename_i h2 <;> rw [h2] at h1
    · split <;> simp_all
    · simp_all
  · split <;> simp_all

@[simp] theorem unkeep_pending (s : State) (h : Header) (payload : Bytes) :
    (unkeep s h payload).pending = s.pending := by
  simp [unkeep]

@[simp] theorem keepMsg_pending (s : State) (h : Header) (payload : Bytes) :
    (keepMsg s h payload).pending = s.pending := by
  simp [keepMsg]

@[simp] theorem onMessage_pending (s : State) (h : Header) (payload : Bytes) (f : State → State) (hff : ∀ (x0 : State), (f x0).pending = x0.pending) :
    (onMessage s h payload f).pending = s.pending := by
  unfold onMessage
  try dsimp only
  (repeat' (split <;> try dsimp only)) <;> simp_all

@[simp] theorem offerShort_pending (cid : Nat) (l0 : List (Header × Bytes)) (s : State) :
    (offerShort cid l0 s).pending = s.pending := by
  induction l0 generalizing s with
  | nil => simp [offerShort]
  | cons a t ih =>
    simp only [offerShort]
    (repeat' (split <;> try dsimp only)) <;> simp_all

@[simp] theorem startColl_pending (s : State) (c : Cmd) :
    (startColl s c).pending = s.pending := by
  unfold startColl
  have h1 := sendFor_pending s c (newColl s c) (firstMsgs s c (newColl s c))
  dsimp only
  split
  · rfl
  · split
    · simp
    · split
      · simp
      · split <;> rename_i h2 <;> rw [h2] at h1 <;> simp_all

@[simp] theorem collStart_pending (op : Nat) (cid : Nat) (s : State) :
    (collStart op cid s).pending = s.pending := by
  unfold collStart
  refine onWork_pending _ _ _ _ (fun c => ?_)
  (repeat' (split <;> try dsimp only)) <;> simp_all

@[simp] theorem collMessage_pending (h : Header) (payload : Bytes) (s : State) :
    (collMessage h payload s).pending = s.pending := by
  unfold collMessage
  refine onMessage_pending _ _ _ _ (fun c => ?_)
  (repeat' (split <;> try dsimp only)) <;> simp_all

/-! ## Machine/Update.lean -/

@[simp] theorem sendBlocks_pending (slot : Nat) (mr : Mirror) (c : Cmd) (gen : Nat) (first : Nat) (n : Nat) (d1 : Desc) (d2 : Desc) (es : List NewElem) (s : State) :
    (sendBlocks slot mr c gen first n d1 d2 es s).1.pending = s.pending := by
  exact foldSend_pending 0 _ _ _

@[simp] theorem fillMirror_pending (s : State) (c : Cmd) (gen : Nat) (e : Nat) (d1 : Desc) (d2 : Desc) (es : List NewElem) :
    (fillMirror s c gen e d1 d2 es).pending = s.pending := by
  unfold fillMirror
  try dsimp only
  (repeat' (split <;> try dsimp only)) <;> simp_all

@[simp] theorem offerHigh_pending (s : State) (c : Cmd) (a : Nat) (b : Bytes) :
    (offerHigh s c a b).pending = s.pending := by
  simp [offerHigh]

@[simp] theorem updateOffered_pending (s : State) (c : Cmd) :
    (updateOffered s c).pending = s.pending := by
  simp [updateOffered]

@[simp] theorem updateRun_pending (s : State) (c : Cmd) :
    (updateRun s c).pending = s.pending := by
  unfold updateRun
  try dsimp only
  (repeat' (split <;> try dsimp only)) <;> simp_all

@[simp] theorem updateTurn_pending (ops : List Nat) (cid : Nat) (s : State) :
    (updateTurn ops cid s).pending = s.pending := by
  unfold updateTurn
  refine onWork_pending _ _ _ _ (fun c => ?_)
  (repeat' (split <;> try dsimp only)) <;> simp_all

/-! ## Machine/Mirrors.lean -/

@[simp] theorem setMirror_pending (s : State) (k : Nat) (v : Mirror) :
    (setMirror s k v).pending = s.pending := by
  simp [setMirror]

@[simp] theorem dropMirror_pending (s : State) (k : Nat) :
    (dropMirror s k).pending = s.pending := by
  simp [dropMirror]

@[simp] theorem storeHost_pending (s : State) (slot : Nat) (mr : Mirror) :
    (storeHost s slot mr).pending = s.pending := by
  unfold storeHost
  try dsimp only
  (repeat' (split <;> try dsimp only)) <;> simp_all

@[simp] theorem sendLoose_pending (s : State) (m : TxMsg) :
    (sendLoose s m).pending = s.pending := by
  simp [sendLoose]

@[simp] theorem sendOrLose_pending (s : State) (c : Cmd) (m : TxMsg) :
    (sendOrLose s c m).pending = s.pending := by
  unfold sendOrLose
  split
  · exact sendTx_pending _ _ _ _ (by assumption)
  · simp

@[simp] theorem mirrorConfigEnd_pending (s : State) (c : Cmd) (slot : Nat) :
    (mirrorConfigEnd s c slot).pending = s.pending := by
  unfold mirrorConfigEnd
  try dsimp only
  (repeat' (split <;> try dsimp only)) <;> simp_all

@[simp] theorem mirrorConfigRun_pending (s : State) (c : Cmd) :
    (mirrorConfigRun s c).pending = s.pending := by
  unfold mirrorConfigRun
  try dsimp only
  (repeat' (split <;> try dsimp only)) <;> simp_all

@[simp] theorem fillWhole_pending (s : State) (c : Cmd) (slot : Nat) :
    (fillWhole s c slot).pending = s.pending := by
  refine (mirrorConfigEnd_pending _ _ _).trans ?_
  exact foldSend_pending 0 (fun (a : State × Nat) b => { mirrorMsg a.1 c.phase (getMirror s slot).laxis (getMirror s slot).partner slot 0 none [] with
      data := classHeader (getMirror s slot).partner (ownRank s) (BitVec.ofNat 32 slot) (BitVec.ofNat 32 b) ++
        toLe 8 (readDesc s (c.arg 0x10 2)).generation ++
        localBlock s (readDesc s (c.arg 0x10 2)) (descOr s (c.arg 0x12 2)) (descOr s (c.arg 0x14 2)) b }) _ _

@[simp] theorem answerSize_pending (s : State) (slot : Nat) (mr : Mirror) :
    (answerSize s slot mr).pending = s.pending := by
  unfold answerSize
  try dsimp only
  (repeat' (split <;> try dsimp only)) <;> simp_all

@[simp] theorem configureHost_pending (s : State) (slot : Nat) (partner : Nat) (laxis : Nat) (desc : Nat) :
    (configureHost s slot partner laxis desc).pending = s.pending := by
  unfold configureHost
  try dsimp only
  (repeat' (split <;> try dsimp only)) <;> simp_all

@[simp] theorem removeMirror_pending (s : State) (slot : Nat) :
    (removeMirror s slot).pending = s.pending := by
  unfold removeMirror
  try dsimp only
  (repeat' (split <;> try dsimp only)) <;> simp_all

@[simp] theorem writeShares_pending (base : Nat) (images : List Nat) (b : Nat) (l0 : List Nat) (l1 : Bytes) (s : State) :
    (writeShares base images b l0 l1 s).pending = s.pending := by
  induction l0 generalizing l1 s with
  | nil => simp [writeShares]
  | cons a t ih =>
    simp only [writeShares]
    (repeat' (split <;> try dsimp only)) <;> simp_all

@[simp] theorem landBlock_pending (s : State) (slot : Nat) (mr0 : Mirror) (b : Nat) (gen : Nat) (data : Bytes) :
    (landBlock s slot mr0 b gen data).pending = s.pending := by
  unfold landBlock
  try dsimp only
  (repeat' (split <;> try dsimp only)) <;> simp_all

@[simp] theorem breakMirror_pending (s : State) (slot : Nat) :
    (breakMirror s slot).pending = s.pending := by
  simp [breakMirror]

@[simp] theorem mirrorCommit_pending (s : State) (slot : Nat) (state : Nat) (genC : DWord) (genF : DWord) (done : Nat) :
    (mirrorCommit s slot state genC genF done).pending = s.pending := by
  unfold mirrorCommit
  try dsimp only
  (repeat' (split <;> try dsimp only)) <;> simp_all

@[simp] theorem verifyResult_pending (s : State) (c : Cmd) (slot : Nat) (values : List Word) :
    (verifyResult s c slot values).pending = s.pending := by
  unfold verifyResult
  try dsimp only
  (repeat' (split <;> try dsimp only)) <;> simp_all

@[simp] theorem restoreAnswer_pending (s : State) (c : Cmd) (slot : Nat) (state : Nat) (genC : DWord) (genF : DWord) (done : Nat) (image : Bytes) :
    (restoreAnswer s c slot state genC genF done image).pending = s.pending := by
  unfold restoreAnswer
  try dsimp only
  (repeat' (split <;> try dsimp only)) <;> simp_all

@[simp] theorem hearSize_pending (s : State) (slot : Nat) (src : Nat) (images : List Nat) :
    (hearSize s slot src images).pending = s.pending := by
  unfold hearSize
  try dsimp only
  (repeat' (split <;> try dsimp only)) <;> simp_all

@[simp] theorem mirrorHear_pending (s : State) (h : Header) (msg : MirrorMsg) :
    (mirrorHear s h msg).pending = s.pending := by
  unfold mirrorHear
  try dsimp only
  (repeat' (split <;> try dsimp only)) <;> simp_all

/-! ## Machine/Contain.lean -/

@[simp] theorem domainsOff_pending (s : State) (l : List Nat) :
    (domainsOff s l).pending = s.pending := rfl

@[simp] theorem stacksSleep_pending (s : State) (l : List Nat) :
    (stacksSleep s l).pending = s.pending := by
  simp [stacksSleep]

@[simp] theorem raiseKirq_pending (s : State) :
    (raiseKirq s).pending = s.pending := by
  unfold raiseKirq
  try dsimp only
  (repeat' (split <;> try dsimp only)) <;> simp_all

@[simp] theorem enterSafe_pending (s : State) (stage : Nat) :
    (enterSafe s stage).pending = s.pending := by
  simp [enterSafe]

@[simp] theorem endReruns_pending (s : State) :
    (endReruns s).pending = s.pending := by
  simp [endReruns]

@[simp] theorem jobFails_pending (s : State) (lost : List Nat) (observed : Option Nat) :
    (jobFails s lost observed).pending = s.pending := by
  unfold jobFails
  try dsimp only
  (repeat' (split <;> try dsimp only)) <;> simp_all

@[simp] theorem jobFailsAll_pending (s : State) :
    (jobFailsAll s).pending = s.pending := by
  simp [jobFailsAll]

@[simp] theorem stopCmd_pending (s : State) (c : Cmd) :
    (stopCmd s c).pending = s.pending := by
  unfold stopCmd
  try dsimp only
  (repeat' (split <;> try dsimp only)) <;> simp_all

@[simp] theorem stopCmds_pending (l0 : List Cmd) (s : State) :
    (stopCmds l0 s).pending = s.pending := by
  induction l0 generalizing s with
  | nil => simp [stopCmds]
  | cons a t ih =>
    simp only [stopCmds]
    (repeat' (split <;> try dsimp only)) <;> simp_all

@[simp] theorem endOnLast_pending (s : State) (d : Nat) (l : Nat) (phys : Nat) :
    (endOnLast s d l phys).pending = s.pending := by
  simp [endOnLast]

@[simp] theorem retireMere_pending (s : State) (phys : Nat) :
    (retireMere s phys).pending = s.pending := by
  unfold retireMere
  try dsimp only
  (repeat' (split <;> try dsimp only)) <;> simp_all

@[simp] theorem retireMeres_pending (l0 : List Nat) (s : State) :
    (retireMeres l0 s).pending = s.pending := by
  induction l0 generalizing s with
  | nil => simp [retireMeres]
  | cons a t ih =>
    simp only [retireMeres]
    (repeat' (split <;> try dsimp only)) <;> simp_all

@[simp] theorem killOn_pending (s : State) (l : List Nat) :
    (killOn s l).pending = s.pending := by
  simp [killOn]

@[simp] theorem portsGone_pending (l0 : List Nat) (s : State) :
    (portsGone l0 s).pending = s.pending := by
  induction l0 generalizing s with
  | nil => simp [portsGone]
  | cons a t ih =>
    simp only [portsGone]
    (repeat' (split <;> try dsimp only)) <;> simp_all

@[simp] theorem markLost_pending (s : State) (l : List Nat) :
    (markLost s l).pending = s.pending := by
  simp [markLost]

@[simp] theorem takeDie_pending (s : State) (d : Nat) :
    (takeDie s d).pending = s.pending := by
  unfold takeDie
  try dsimp only
  (repeat' (split <;> try dsimp only)) <;> simp_all

@[simp] theorem logSite_pending (s : State) (e : ErrorSite) (flags : Nat) (cause : Nat) :
    (logSite s e flags cause).pending = s.pending := by
  unfold logSite
  try dsimp only
  (repeat' (split <;> try dsimp only)) <;> simp_all

@[simp] theorem countLevel_pending (s : State) (l : Nat) :
    (countLevel s l).pending = s.pending := by
  simp [countLevel]

@[simp] theorem handleModule_pending (s : State) :
    (handleModule s).pending = s.pending := by
  simp [handleModule]

@[simp] theorem handleSite_pending (s : State) (e : ErrorSite) :
    (handleSite s e).pending = s.pending := by
  unfold handleSite
  try dsimp only
  (repeat' (split <;> try dsimp only)) <;> simp_all

@[simp] theorem startHandling_pending (s : State) (e : ErrorSite) (seq : Nat) :
    (startHandling s e seq).pending = s.pending := by
  simp [startHandling]

@[simp] theorem escalateTo_pending (s : State) (b : Contained) (e : ErrorSite) :
    (escalateTo s b e).pending = s.pending := by
  simp [escalateTo]

@[simp] theorem bothLost_pending (s : State) :
    (bothLost s).pending = s.pending := by
  unfold bothLost
  try dsimp only
  (repeat' (split <;> try dsimp only)) <;> simp_all

@[simp] theorem containError_pending (s : State) (e : ErrorSite) :
    (containError s e).pending = s.pending := by
  unfold containError
  try dsimp only
  (repeat' (split <;> try dsimp only)) <;> simp_all

@[simp] theorem countSramUnc_pending (s : State) (e : ErrorSite) :
    (countSramUnc s e).pending = s.pending := by
  unfold countSramUnc
  try dsimp only
  (repeat' (split <;> try dsimp only)) <;> simp_all

@[simp] theorem rerunCmds_pending (s : State) :
    (rerunCmds s).pending = s.pending := rfl

@[simp] theorem rscrubSet_pending (s : State) (v : Word) :
    (rscrubSet s v).pending = s.pending := by
  unfold rscrubSet
  try dsimp only
  (repeat' (split <;> try dsimp only)) <;> simp_all

@[simp] theorem relWrite_pending (s : State) (off : Nat) (v : Word) :
    (relWrite s off v).pending = s.pending := by
  unfold relWrite
  try dsimp only
  (repeat' (split <;> try dsimp only)) <;> simp_all

/-! ## Machine/Power.lean -/

@[simp] theorem railShort_pending (s : State) (c : Nat) :
    (railShort s c).pending = s.pending := by
  unfold railShort
  try dsimp only
  (repeat' (split <;> try dsimp only)) <;> simp_all

@[simp] theorem droopEvent_pending (s : State) (c : Nat) :
    (droopEvent s c).pending = s.pending := by
  unfold droopEvent
  try dsimp only
  (repeat' (split <;> try dsimp only)) <;> simp_all

@[simp] theorem cpmStep_pending (s : State) (c : Nat) (m : Margin) :
    (cpmStep s c m).pending = s.pending := by
  unfold cpmStep
  try dsimp only
  (repeat' (split <;> try dsimp only)) <;> simp_all

@[simp] theorem clusterReads_pending (s : State) (n : Nat) (r : Int) :
    (clusterReads s n r).pending = s.pending := by
  unfold clusterReads
  try dsimp only
  (repeat' (split <;> try dsimp only)) <;> simp_all

@[simp] theorem thermalTrip_pending (s : State) (die : Nat) (unit : Nat) (info : Bytes) (onK : Bool) :
    (thermalTrip s die unit info onK).pending = s.pending := by
  unfold thermalTrip
  try dsimp only
  (repeat' (split <;> try dsimp only)) <;> simp_all

@[simp] theorem darkTrip_pending (s : State) (die : Nat) (unit : Nat) (info : Bytes) :
    (darkTrip s die unit info).pending = s.pending := by
  simp [darkTrip]

@[simp] theorem tripNow_pending (s : State) (die : Nat) (unit : Nat) (info : Bytes) (onK : Bool) :
    (tripNow s die unit info onK).pending = s.pending := by
  unfold tripNow
  try dsimp only
  (repeat' (split <;> try dsimp only)) <;> simp_all

@[simp] theorem sensorTrip_pending (s : State) (n : Nat) (r : Int) :
    (sensorTrip s n r).pending = s.pending := by
  unfold sensorTrip
  try dsimp only
  (repeat' (split <;> try dsimp only)) <;> simp_all

@[simp] theorem sensorAlarm_pending (s : State) (n : Nat) (r : Int) :
    (sensorAlarm s n r).pending = s.pending := rfl

@[simp] theorem remapHot_pending (d : Nat) (temp : Nat → Int) (n : Int) (sum : Int) (l0 : List Nat) (s : State) :
    (remapHot d temp n sum l0 s).pending = s.pending := by
  induction l0 generalizing s with
  | nil => simp [remapHot]
  | cons a t ih =>
    simp only [remapHot]
    (repeat' (split <;> try dsimp only)) <;> simp_all

@[simp] theorem setFiller_pending (s : State) (on : List Nat) :
    (setFiller s on).pending = s.pending := by
  unfold setFiller
  refine foldl_pending _ _ _ (fun s a => ?_)
  dsimp only
  split <;> rfl

@[simp] theorem weirSample_pending (s : State) (demand : Nat) (power : Nat) (volts : Nat) (amps : Nat) (fillerJ : Nat) (short : Bool) :
    (weirSample s demand power volts amps fillerJ short).pending = s.pending := by
  unfold weirSample
  try dsimp only
  (repeat' (split <;> try dsimp only)) <;> simp_all

@[simp] theorem startRamp_pending (s : State) (l : List Nat) :
    (startRamp s l).pending = s.pending := by
  simp [startRamp]

@[simp] theorem setCap_pending (s : State) (w : Nat) :
    (setCap s w).pending = s.pending := by
  unfold setCap
  try dsimp only
  (repeat' (split <;> try dsimp only)) <;> simp_all

@[simp] theorem wctrlSet_pending (s : State) (v : Word) :
    (wctrlSet s v).pending = s.pending := by
  unfold wctrlSet
  try dsimp only
  (repeat' (split <;> try dsimp only)) <;> simp_all

@[simp] theorem pctrlSet_pending (s : State) (v : Word) :
    (pctrlSet s v).pending = s.pending := rfl

@[simp] theorem powerWrite_pending (s : State) (off : Nat) (v : Word) :
    (powerWrite s off v).pending = s.pending := by
  unfold powerWrite
  try dsimp only
  (repeat' (split <;> try dsimp only)) <;> simp_all

/-! ## Machine/Hbm.lean -/

@[simp] theorem noteCmd_pending (s : State) (cid : Nat) (note : Nat) :
    (noteCmd s cid note).pending = s.pending := by
  unfold noteCmd
  try dsimp only
  (repeat' (split <;> try dsimp only)) <;> simp_all

@[simp] theorem patchBlock_pending (s : State) (c : Cmd) (b : Nat) (data : Bytes) :
    (patchBlock s c b data).pending = s.pending := by
  unfold patchBlock
  dsimp only
  generalize List.range 4 = l
  generalize hp : (s, data) = p
  have h1 : p.1.pending = s.pending := by rw [← hp]
  clear hp
  induction l generalizing p with
  | nil => exact h1
  | cons i t ih =>
    rw [List.foldl_cons]
    refine ih _ ?_
    dsimp only
    split <;> exact h1

@[simp] theorem adjustScale_pending (s : State) (c : Cmd) (bad : Bool) :
    (adjustScale s c bad).pending = s.pending := by
  unfold adjustScale
  try dsimp only
  (repeat' (split <;> try dsimp only)) <;> simp_all

@[simp] theorem tornEnd_pending (s : State) (c : Cmd) (e : Err) :
    (tornEnd s c e).pending = s.pending := by
  simp [tornEnd]

@[simp] theorem sectorFails_pending (s : State) (stack : Nat) (frame : Nat) (mirror : Option Bytes) (user : SectorUser) :
    (sectorFails s stack frame mirror user).pending = s.pending := by
  unfold sectorFails
  try dsimp only
  (repeat' (split <;> try dsimp only)) <;> simp_all

@[simp] theorem sectorsFail_pending (stack : Nat) (frame : Nat) (mirror : Option Bytes) (l0 : List SectorUser) (s : State) :
    (sectorsFail stack frame mirror l0 s).pending = s.pending := by
  induction l0 generalizing s with
  | nil => simp [sectorsFail]
  | cons a t ih =>
    simp only [sectorsFail]
    (repeat' (split <;> try dsimp only)) <;> simp_all

@[simp] theorem noteUsers_pending (l0 : List SectorUser) (s : State) :
    (noteUsers l0 s).pending = s.pending := by
  induction l0 generalizing s with
  | nil => simp [noteUsers]
  | cons a t ih =>
    simp only [noteUsers]
    (repeat' (split <;> try dsimp only)) <;> simp_all

@[simp] theorem sectorFor_pending (s : State) (users : List SectorUser) (mirror : Option Bytes) (addr : Nat) (k : Sector) :
    (sectorFor s users mirror addr k).pending = s.pending := by
  unfold sectorFor
  try dsimp only
  (repeat' (split <;> try dsimp only)) <;> simp_all

@[simp] theorem flitFailsHbm_pending (s : State) (resend : Nat) (read : Option (List SectorUser × Option Bytes × Nat × Sector)) :
    (flitFailsHbm s resend read).pending = s.pending := by
  unfold flitFailsHbm
  try dsimp only
  (repeat' (split <;> try dsimp only)) <;> simp_all

@[simp] theorem stackTemp_pending (s : State) (n : Nat) (t : Int) :
    (stackTemp s n t).pending = s.pending := by
  unfold stackTemp
  try dsimp only
  (repeat' (split <;> try dsimp only)) <;> simp_all

@[simp] theorem scrubOn_pending (s : State) (n : Nat) (last : Bool) :
    (scrubOn s n last).pending = s.pending := by
  unfold scrubOn
  try dsimp only
  (repeat' (split <;> try dsimp only)) <;> simp_all

@[simp] theorem scrubRead_pending (s : State) (n : Nat) (off : Nat) (o : ScrubOutcome) :
    (scrubRead s n off o).pending = s.pending := by
  simp [scrubRead]

@[simp] theorem setQuota_pending (s : State) (q : Nat) (v : Word) :
    (setQuota s q v).pending = s.pending := by
  simp [setQuota]

@[simp] theorem clearThrottle_pending (s : State) (v : Word) :
    (clearThrottle s v).pending = s.pending := by
  unfold clearThrottle
  refine foldl_pending _ _ _ (fun s a => ?_)
  dsimp only
  split <;> rfl

@[simp] theorem memWrite_pending (s : State) (off : Nat) (v : Word) :
    (memWrite s off v).pending = s.pending := by
  unfold memWrite
  try dsimp only
  (repeat' (split <;> try dsimp only)) <;> simp_all

/-! ## Machine/Security.lean -/

@[simp] theorem sigFail_pending (s : State) (typ : Nat) :
    (sigFail s typ).1.pending = s.pending := by
  simp [sigFail]

@[simp] theorem storePending_pending (s : State) (i : Image) :
    (storePending s i).pending = s.pending := by
  simp [storePending]

@[simp] theorem storeImage_pending (s : State) (host : HostRead) (downgrade : Bool) (floor : Nat → Nat) :
    (storeImage s host downgrade floor).1.pending = s.pending := by
  unfold storeImage
  try dsimp only
  (repeat' (split <;> try dsimp only)) <;> simp_all

@[simp] theorem runFwDowngrade_pending (s : State) (u1 : Cmd) (host : HostRead) :
    (runFwDowngrade s u1 host).1.pending = s.pending := by
  simp [runFwDowngrade]

@[simp] theorem runKeyRotate_pending (s : State) (c : Cmd) :
    (runKeyRotate s c).1.pending = s.pending := by
  unfold runKeyRotate
  try dsimp only
  (repeat' (split <;> try dsimp only)) <;> simp_all

@[simp] theorem runDebugUnlock_pending (s : State) (u1 : Cmd) (host : HostRead) :
    (runDebugUnlock s u1 host).1.pending = s.pending := by
  unfold runDebugUnlock
  try dsimp only
  (repeat' (split <;> try dsimp only)) <;> simp_all

@[simp] theorem runSpareOverride_pending (s : State) (c : Cmd) :
    (runSpareOverride s c).1.pending = s.pending := by
  unfold runSpareOverride
  try dsimp only
  (repeat' (split <;> try dsimp only)) <;> simp_all

@[simp] theorem runFuseWrite_pending (s : State) (c : Cmd) :
    (runFuseWrite s c).1.pending = s.pending := by
  unfold runFuseWrite
  try dsimp only
  (repeat' (split <;> try dsimp only)) <;> simp_all

@[simp] theorem privileged_pending (s : State) (c : Cmd) (r : State × Err) (hr : r.1.pending = s.pending) :
    (privileged s c r).1.pending = s.pending := by
  unfold privileged
  split
  · exact hr
  · rfl

@[simp] theorem adminEnd_pending (c : Cmd) (r : State × Err) :
    (adminEnd c r).pending = r.1.pending := by
  simp [adminEnd]

@[simp] theorem jumperOut_pending (s : State) :
    (jumperOut s).pending = s.pending := by
  simp [jumperOut]

@[simp] theorem sealOpen_pending (s : State) :
    (sealOpen s).pending = s.pending := by
  unfold sealOpen
  try dsimp only
  (repeat' (split <;> try dsimp only)) <;> simp_all

@[simp] theorem refuseWrite_pending (s : State) :
    (refuseWrite s).pending = s.pending := by
  simp [refuseWrite]

@[simp] theorem jumperIgnoreSet_pending (s : State) (on : Bool) :
    (jumperIgnoreSet s on).pending = s.pending := by
  unfold jumperIgnoreSet
  try dsimp only
  (repeat' (split <;> try dsimp only)) <;> simp_all

@[simp] theorem secWrite_pending (s : State) (off : Nat) (v : Word) :
    (secWrite s off v).pending = s.pending := by
  unfold secWrite
  try dsimp only
  (repeat' (split <;> try dsimp only)) <;> simp_all

/-! ## Machine/Admin.lean -/

@[simp] theorem runTelemetryRead_pending (s : State) (c : Cmd) :
    (runTelemetryRead s c).1.pending = s.pending := by
  simp [runTelemetryRead]

@[simp] theorem runPowerCap_pending (s : State) (c : Cmd) :
    (runPowerCap s c).1.pending = s.pending := by
  simp [runPowerCap]

@[simp] theorem runQuotaSet_pending (s : State) (c : Cmd) :
    (runQuotaSet s c).1.pending = s.pending := by
  simp [runQuotaSet]

@[simp] theorem runErrlogRead_pending (s : State) (c : Cmd) :
    (runErrlogRead s c).1.pending = s.pending := by
  unfold runErrlogRead
  try dsimp only
  (repeat' (split <;> try dsimp only)) <;> simp_all

@[simp] theorem runFwUpdate_pending (s : State) (u1 : Cmd) (host : HostRead) :
    (runFwUpdate s u1 host).1.pending = s.pending := by
  simp [runFwUpdate]

@[simp] theorem runAttest_pending (s : State) (c : Cmd) :
    (runAttest s c).1.pending = s.pending := by
  simp [runAttest]

/-! ## Machine/Background.lean -/

@[simp] theorem sramScrub_pending (s : State) (t : ScrubTarget) (o : ScrubOutcome) :
    (sramScrub s t o).pending = s.pending := by
  unfold sramScrub
  try dsimp only
  (repeat' (split <;> try dsimp only)) <;> simp_all

/-! ## Machine/Compress.lean -/

@[simp] theorem countShort_pending (s : State) (c : Cmd) :
    (countShort s c).pending = s.pending := by
  unfold countShort
  try dsimp only
  (repeat' (split <;> try dsimp only)) <;> simp_all

@[simp] theorem firstFetch_pending (s : State) (seen : List (Nat × Byte)) :
    (firstFetch s seen).pending = s.pending := by
  simp [firstFetch]

@[simp] theorem retryGood_pending (s : State) (c : Cmd) (desc : Nat) (block : Option Nat) :
    (retryGood s c desc block).pending = s.pending := by
  simp [retryGood]

@[simp] theorem checkBlock_pending (s : State) (c : Cmd) (desc : Nat) (block : Option Nat) (seen : List (Nat × Byte)) :
    (checkBlock s c desc block seen).pending = s.pending := by
  unfold checkBlock
  try dsimp only
  (repeat' (split <;> try dsimp only)) <;> simp_all

/-! ## Machine/Eddy.lean -/

@[simp] theorem storeEddy_pending (s : State) (e : Eddy) :
    (storeEddy s e).pending = s.pending := by
  simp [storeEddy]

@[simp] theorem dropEddy_pending (s : State) (cid : Nat) :
    (dropEddy s cid).pending = s.pending := by
  simp [dropEddy]

@[simp] theorem eddySend_pending (s : State) (c : Cmd) (m : TxMsg) (k : State → State) (hfk : ∀ (x0 : State), (k x0).pending = x0.pending) :
    (eddySend s c m k).pending = s.pending := by
  unfold eddySend
  split
  · rename_i s1 h1
    rw [hfk s1, sendTx_pending _ _ _ _ h1]
  · simp

@[simp] theorem eddyEnd_pending (s : State) (c : Cmd) (e : Eddy) :
    (eddyEnd s c e).pending = s.pending := by
  unfold eddyEnd
  try dsimp only
  (repeat' (split <;> try dsimp only)) <;> simp_all

@[simp] theorem sendAcc_pending (s : State) (c : Cmd) (e : Eddy) (origin : Nat) (hops : Nat) (acc : List Word) (k : State → State) (hfk : ∀ (x0 : State), (k x0).pending = x0.pending) :
    (sendAcc s c e origin hops acc k).pending = s.pending := by
  unfold sendAcc
  try dsimp only
  (repeat' (split <;> try dsimp only)) <;> simp_all

@[simp] theorem combineParts_pending (l0 : Nat) (s : State) (l2 : Cmd) (l3 : Eddy) :
    (combineParts l0 s l2 l3).pending = s.pending := by
  induction l0 generalizing s l2 l3 with
  | zero => simp [combineParts]
  | succ n ih =>
    simp only [combineParts]
    (repeat' (split <;> try dsimp only)) <;> simp_all

@[simp] theorem placeBlock_pending (s : State) (c : Cmd) (e : Eddy) (origin : Nat) (hops : Nat) (data : Bytes) :
    (placeBlock s c e origin hops data).pending = s.pending := by
  unfold placeBlock
  try dsimp only
  (repeat' (split <;> try dsimp only)) <;> simp_all

@[simp] theorem takeBlock_pending (s : State) (c : Cmd) (e : Eddy) (origin : Nat) (hops : Nat) (data : Bytes) :
    (takeBlock s c e origin hops data).pending = s.pending := by
  unfold takeBlock
  try dsimp only
  (repeat' (split <;> try dsimp only)) <;> simp_all

@[simp] theorem eddyTake_pending (s : State) (c : Cmd) (e : Eddy) (h : Header) (payload : Bytes) :
    (eddyTake s c e h payload).pending = s.pending := by
  unfold eddyTake
  try dsimp only
  (repeat' (split <;> try dsimp only)) <;> simp_all

@[simp] theorem offerRing_pending (cid : Nat) (l0 : List (Header × Bytes)) (s : State) :
    (offerRing cid l0 s).pending = s.pending := by
  induction l0 generalizing s with
  | nil => simp [offerRing]
  | cons a t ih =>
    simp only [offerRing]
    (repeat' (split <;> try dsimp only)) <;> simp_all

@[simp] theorem startRing_pending (s : State) (c : Cmd) :
    (startRing s c).pending = s.pending := by
  unfold startRing
  try dsimp only
  (repeat' (split <;> try dsimp only)) <;> simp_all

@[simp] theorem ringStart_pending (op : Nat) (cid : Nat) (s : State) :
    (ringStart op cid s).pending = s.pending := by
  unfold ringStart
  refine onWork_pending _ _ _ _ (fun c => ?_)
  (repeat' (split <;> try dsimp only)) <;> simp_all

@[simp] theorem ringMessage_pending (h : Header) (payload : Bytes) (s : State) :
    (ringMessage h payload s).pending = s.pending := by
  unfold ringMessage
  refine onMessage_pending _ _ _ _ (fun c => ?_)
  (repeat' (split <;> try dsimp only)) <;> simp_all

@[simp] theorem serveWaiting_pending (s : State) (c : Cmd) (cid : Nat) (j : Nat) :
    (serveWaiting s c cid j).pending = s.pending := by
  unfold serveWaiting
  try dsimp only
  (repeat' (split <;> try dsimp only)) <;> simp_all

/-! ## Machine/Guard.lean -/

@[simp] theorem guardCommit_pending (s : State) (d : TagDelta) :
    (guardCommit s d).pending = s.pending := by
  unfold guardCommit
  try dsimp only
  (repeat' (split <;> try dsimp only)) <;> simp_all

@[simp] theorem countMove_pending (s : State) (t : Nat) (up : Bool) (down : Bool) :
    (countMove s t up down).pending = s.pending := by
  simp [countMove]

@[simp] theorem evaluateTag_pending (s : State) (t : Nat) :
    (evaluateTag s t).pending = s.pending := by
  unfold evaluateTag
  try dsimp only
  (repeat' (split <;> try dsimp only)) <;> simp_all

@[simp] theorem evaluateTags_pending (l0 : List Nat) (s : State) :
    (evaluateTags l0 s).pending = s.pending := by
  induction l0 generalizing s with
  | nil => simp [evaluateTags]
  | cons a t ih =>
    simp only [evaluateTags]
    (repeat' (split <;> try dsimp only)) <;> simp_all

@[simp] theorem guardEvaluate_pending (s : State) (step : Nat) :
    (guardEvaluate s step).pending = s.pending := by
  simp [guardEvaluate]

@[simp] theorem guardReset_pending (s : State) :
    (guardReset s).pending = s.pending := by
  simp [guardReset]

@[simp] theorem guardWrite_pending (s : State) (off : Nat) (v : Word) :
    (guardWrite s off v).pending = s.pending := by
  unfold guardWrite
  try dsimp only
  (repeat' (split <;> try dsimp only)) <;> simp_all

/-! ## Machine/JobCtl.lean -/

@[simp] theorem zeroMeres_pending (s : State) :
    (zeroMeres s).pending = s.pending := by
  simp [zeroMeres]

@[simp] theorem loadJob_pending (s : State) (c : Cmd) :
    (loadJob s c).pending = s.pending := by
  simp [loadJob]

@[simp] theorem endJobKill_pending (s : State) :
    (endJobKill s).pending = s.pending := by
  simp [endJobKill]

@[simp] theorem disableJobQueues_pending (s : State) :
    (disableJobQueues s).pending = s.pending := rfl

@[simp] theorem endJobFinish_pending (s : State) (keep : Bool) :
    (endJobFinish s keep).pending = s.pending := by
  unfold endJobFinish
  try dsimp only
  (repeat' (split <;> try dsimp only)) <;> simp_all

@[simp] theorem saveToArea_pending (s : State) :
    (saveToArea s).pending = s.pending := by
  simp [saveToArea]

@[simp] theorem suspendStart_pending (s : State) :
    (suspendStart s).pending = s.pending := by
  simp [suspendStart]

@[simp] theorem resumeCmds_pending (s : State) :
    (resumeCmds s).pending = s.pending := rfl

/-! ## Machine/Phase.lean -/

@[simp] theorem installPhase_pending (s : State) (c : Cmd) :
    (installPhase s c).pending = s.pending := by
  simp [installPhase]

@[simp] theorem beginStep_pending (s : State) (n : Nat) :
    (beginStep s n).pending = s.pending := by
  simp [beginStep]

/-! ## Machine/Pipe.lean -/

@[simp] theorem takeCredit_pending (s : State) (c : Cmd) :
    (takeCredit s c).pending = s.pending := by
  simp [takeCredit]

@[simp] theorem pipeSend_pending (s : State) (c : Cmd) :
    (pipeSend s c).pending = s.pending := by
  unfold pipeSend
  dsimp only
  (repeat' split) <;> first
  | rfl
  | (rename_i h1; simp [sendTx_pending _ _ _ _ h1]; done)
  | (simp; done)

@[simp] theorem landEntry_pending (s : State) (h : Header) (payload : Bytes) (cfg : Nat × Nat × Bool) :
    (landEntry s h payload cfg).pending = s.pending := by
  unfold landEntry
  try dsimp only
  (repeat' (split <;> try dsimp only)) <;> simp_all

@[simp] theorem offerEntries_pending (pq : Nat) (l0 : List (Header × Bytes)) (s : State) :
    (offerEntries pq l0 s).pending = s.pending := by
  induction l0 generalizing s with
  | nil => simp [offerEntries]
  | cons a t ih =>
    simp only [offerEntries]
    (repeat' (split <;> try dsimp only)) <;> simp_all

@[simp] theorem withEntry_pending (s : State) (d : Desc) (b : Bytes) :
    (withEntry s d b).pending = s.pending := by
  simp [withEntry]

@[simp] theorem pipeRecv_pending (s : State) (c : Cmd) :
    (pipeRecv s c).pending = s.pending := by
  unfold pipeRecv
  try dsimp only
  (repeat' (split <;> try dsimp only)) <;> simp_all

@[simp] theorem sendCredit_pending (s : State) (pq : Nat) (peer : Nat) (laxis : Nat) (epoch : Nat) :
    (sendCredit s pq peer laxis epoch).pending = s.pending := by
  simp [sendCredit]

@[simp] theorem signalToken_pending (s : State) (n : Nat) :
    (signalToken s n).pending = s.pending := by
  unfold signalToken
  try dsimp only
  (repeat' (split <;> try dsimp only)) <;> simp_all

/-! ## Machine/CmdProc.lean -/

@[simp] theorem ringDoorbell_pending (s : State) (q : Nat) (w : Word) :
    (ringDoorbell s q w).pending = s.pending := by
  unfold ringDoorbell
  try dsimp only
  (repeat' (split <;> try dsimp only)) <;> simp_all

@[simp] theorem enableQueue_pending (s : State) (q : Nat) :
    (enableQueue s q).pending = s.pending := by
  unfold enableQueue
  try dsimp only
  (repeat' (split <;> try dsimp only)) <;> simp_all

@[simp] theorem disableQueue_pending (s : State) (q : Nat) :
    (disableQueue s q).pending = s.pending := by
  unfold disableQueue
  try dsimp only
  (repeat' (split <;> try dsimp only)) <;> simp_all

@[simp] theorem pauseQueue_pending (s : State) (q : Nat) (on : Bool) :
    (pauseQueue s q on).pending = s.pending := by
  simp [pauseQueue]

@[simp] theorem expireWait_pending (s : State) (q : Nat) :
    (expireWait s q).pending = s.pending := by
  unfold expireWait
  try dsimp only
  (repeat' (split <;> try dsimp only)) <;> simp_all

@[simp] theorem expireUpdate_pending (s : State) (q : Nat) :
    (expireUpdate s q).pending = s.pending := by
  unfold expireUpdate
  try dsimp only
  (repeat' (split <;> try dsimp only)) <;> simp_all

@[simp] theorem retestWait_pending (s : State) (cid : Nat) :
    (retestWait s cid).pending = s.pending := by
  unfold retestWait
  try dsimp only
  (repeat' (split <;> try dsimp only)) <;> simp_all

@[simp] theorem retestWaits_pending (l0 : List Nat) (s : State) :
    (retestWaits l0 s).pending = s.pending := by
  induction l0 generalizing s with
  | nil => simp [retestWaits]
  | cons a t ih =>
    simp only [retestWaits]
    (repeat' (split <;> try dsimp only)) <;> simp_all

@[simp] theorem setTimeout_pending (s : State) (q : Nat) (w : Word) :
    (setTimeout s q w).pending = s.pending := by
  simp [setTimeout]

@[simp] theorem setRhead_pending (s : State) (q : Nat) (w : Word) :
    (setRhead s q w).pending = s.pending := by
  simp [setRhead]

@[simp] theorem queueWrite_pending (s : State) (q : Nat) (off : Nat) (w : Word) :
    (queueWrite s q off w).pending = s.pending := by
  unfold queueWrite
  try dsimp only
  (repeat' (split <;> try dsimp only)) <;> simp_all

@[simp] theorem sectorOutcome_pending (s : State) (a : Nat) (k : Sector) (seen : Bool) :
    (sectorOutcome s a k seen).pending = s.pending := by
  unfold sectorOutcome
  try dsimp only
  (repeat' (split <;> try dsimp only)) <;> simp_all

@[simp] theorem rejectPacket_pending (s : State) (c : Cmd) (e : Err) :
    (rejectPacket s c e).pending = s.pending := by
  simp [rejectPacket]

@[simp] theorem extFails_pending (s : State) (b : Bytes) (c : Cmd) :
    (extFails s b c).pending = s.pending := by
  unfold extFails
  try dsimp only
  (repeat' (split <;> try dsimp only)) <;> simp_all

@[simp] theorem takePacket_pending (s : State) (q : Nat) (slot : Word) (b : Bytes) (zeros : Bool) (note : Nat) (ext : Sector) :
    (takePacket s q slot b zeros note ext).pending = s.pending := by
  unfold takePacket
  try dsimp only
  (repeat' (split <;> try dsimp only)) <;> simp_all

@[simp] theorem fetchFails_pending (s : State) (q : Nat) (slot : Word) (a : Nat) :
    (fetchFails s q slot a).pending = s.pending := by
  unfold fetchFails
  try dsimp only
  (repeat' (split <;> try dsimp only)) <;> simp_all

@[simp] theorem fetchPacket_pending (s : State) (q : Nat) (host : HostRead) (hbm : Sector) (ext : Sector) :
    (fetchPacket s q host hbm ext).pending = s.pending := by
  unfold fetchPacket
  try dsimp only
  (repeat' (split <;> try dsimp only)) <;> simp_all

@[simp] theorem takeSeats_pending (c : Cmd) (l0 : List Nat) (s : State) :
    (takeSeats c l0 s).pending = s.pending := by
  induction l0 generalizing s with
  | nil => simp [takeSeats]
  | cons a t ih =>
    simp only [takeSeats]
    (repeat' (split <;> try dsimp only)) <;> simp_all

@[simp] theorem launch_pending (s : State) (c : Cmd) :
    (launch s c).pending = s.pending := by
  unfold launch
  try dsimp only
  (repeat' (split <;> try dsimp only)) <;> simp_all

@[simp] theorem dispatchCmd_pending (s : State) (c : Cmd) :
    (dispatchCmd s c).pending = s.pending := by
  unfold dispatchCmd
  try dsimp only
  (repeat' (split <;> try dsimp only)) <;> simp_all

@[simp] theorem dispatchNext_pending (s : State) (q : Nat) :
    (dispatchNext s q).pending = s.pending := by
  unfold dispatchNext
  try dsimp only
  (repeat' (split <;> try dsimp only)) <;> simp_all

@[simp] theorem springIdle_pending (s : State) :
    (springIdle s).pending = s.pending := by
  unfold springIdle
  try dsimp only
  (repeat' (split <;> try dsimp only)) <;> simp_all

@[simp] theorem flipCur_pending (s : State) (id : Nat) :
    (flipCur s id).pending = s.pending := by
  simp [flipCur]

@[simp] theorem enterVerdict_pending (s : State) (nonfinite : Bool) (excluded : Bool) (backup : Bool) (final : Bool) (offender : Nat) (count : Nat) (mine : Bool) :
    (enterVerdict s nonfinite excluded backup final offender count mine).pending = s.pending := by
  simp [enterVerdict]

@[simp] theorem applyEffect_pending (s : State) (c : Cmd) (e : Effect) :
    (applyEffect s c e).pending = s.pending := by
  unfold applyEffect
  try dsimp only
  (repeat' (split <;> try dsimp only)) <;> simp_all

@[simp] theorem applyEffects_pending (c : Cmd) (l0 : List Effect) (s : State) :
    (applyEffects c l0 s).pending = s.pending := by
  induction l0 generalizing s with
  | nil => simp [applyEffects]
  | cons a t ih =>
    simp only [applyEffects]
    (repeat' (split <;> try dsimp only)) <;> simp_all

@[simp] theorem holdCommit_pending (s : State) (c : Cmd) (r : Result) :
    (holdCommit s c r).pending = s.pending := by
  simp [holdCommit]

@[simp] theorem commitEffects_pending (s : State) (c : Cmd) (r : Result) :
    (commitEffects s c r).pending = s.pending := by
  unfold commitEffects
  try dsimp only
  (repeat' (split <;> try dsimp only)) <;> simp_all

@[simp] theorem commitCmd_pending (s : State) (c : Cmd) (r : Result) :
    (commitCmd s c r).pending = s.pending := by
  simp [commitCmd]

@[simp] theorem writeReply_pending (s : State) (q : Nat) (r : Reply) (rest : List Reply) :
    (writeReply s q r rest).pending = s.pending := by
  unfold writeReply
  try dsimp only
  (repeat' (split <;> try dsimp only)) <;> simp_all

@[simp] theorem tryReply_pending (s : State) (q : Nat) (hbm : Sector) :
    (tryReply s q hbm).pending = s.pending := by
  unfold tryReply
  try dsimp only
  (repeat' (split <;> try dsimp only)) <;> simp_all

/-! ## Machine/Meres.lean -/

@[simp] theorem sliceLoad_pending (s : State) (c : Cmd) (mere : Nat) (region : Nat) (n : Nat) :
    (sliceLoad s c mere region n).pending = s.pending := by
  unfold sliceLoad
  try dsimp only
  (repeat' (split <;> try dsimp only)) <;> simp_all

@[simp] theorem startOn_pending (s : State) (cid : Nat) (phys : Nat) :
    (startOn s cid phys).pending = s.pending := by
  simp [startOn]

@[simp] theorem startAll_pending (cid : Nat) (l0 : List Nat) (s : State) :
    (startAll cid l0 s).pending = s.pending := by
  induction l0 generalizing s with
  | nil => simp [startAll]
  | cons a t ih =>
    simp only [startAll]
    (repeat' (split <;> try dsimp only)) <;> simp_all

@[simp] theorem stalled_pending (s : State) (mere : Nat) :
    (stalled s mere).pending = s.pending := by
  simp [stalled]

@[simp] theorem corrected_pending (s : State) (fixed : Nat) :
    (corrected s fixed).pending = s.pending := by
  simp [corrected]

@[simp] theorem sliceDone_pending (s : State) (c : Cmd) (mere : Nat) (array : Bool) (tile : Nat) (slice : Nat) (fixed : Nat) :
    (sliceDone s c mere array tile slice fixed).pending = s.pending := by
  unfold sliceDone
  try dsimp only
  (repeat' (split <;> try dsimp only)) <;> simp_all

@[simp] theorem combineAdd_pending (s : State) (c : Cmd) (mere : Nat) (sender : Nat) (array : Bool) (tile : Nat) (fixed : Nat) :
    (combineAdd s c mere sender array tile fixed).pending = s.pending := by
  unfold combineAdd
  try dsimp only
  (repeat' (split <;> try dsimp only)) <;> simp_all

@[simp] theorem haloIn_pending (s : State) (c : Cmd) (mere : Nat) (sender : Nat) (fixed : Nat) :
    (haloIn s c mere sender fixed).pending = s.pending := by
  unfold haloIn
  try dsimp only
  (repeat' (split <;> try dsimp only)) <;> simp_all

@[simp] theorem drainBlock_pending (s : State) (c : Cmd) (mere : Nat) (array : Bool) (tile : Nat) (block : Nat) (fixed : Nat) :
    (drainBlock s c mere array tile block fixed).pending = s.pending := by
  unfold drainBlock
  try dsimp only
  (repeat' (split <;> try dsimp only)) <;> simp_all

/-! ## Machine/Package.lean -/

@[simp] theorem bundleDown_pending (s : State) (b : Nat) :
    (bundleDown s b).pending = s.pending := by
  unfold bundleDown
  try dsimp only
  (repeat' (split <;> try dsimp only)) <;> simp_all

@[simp] theorem retirePosition_pending (s : State) (b : Nat) (p : Nat) :
    (retirePosition s b p).pending = s.pending := by
  unfold retirePosition
  try dsimp only
  (repeat' (split <;> try dsimp only)) <;> simp_all

@[simp] theorem flitFails_pending (s : State) (b : Nat) (lane : Nat) (farEnd : Bool) (seq : Nat) (retrainOk : Bool) :
    (flitFails s b lane farEnd seq retrainOk).pending = s.pending := by
  unfold flitFails
  try dsimp only
  (repeat' (split <;> try dsimp only)) <;> simp_all

@[simp] theorem logMaps_pending (s : State) (b : Nat) :
    (logMaps s b).pending = s.pending := by
  unfold logMaps
  try dsimp only
  (repeat' (split <;> try dsimp only)) <;> simp_all

@[simp] theorem trainBundles_pending (bad : List (Nat × Nat)) (l0 : List Nat) (s : State) :
    (trainBundles bad l0 s).pending = s.pending := by
  induction l0 generalizing s with
  | nil => simp [trainBundles]
  | cons a t ih =>
    simp only [trainBundles]
    (repeat' (split <;> try dsimp only)) <;> simp_all

@[simp] theorem checkIdentities_pending (found : List (Nat × Bytes)) (l : List Nat) (s : State) :
    (checkIdentities found l s).1.pending = s.pending := rfl

@[simp] theorem repairStack_pending (s : State) (n : Nat) :
    (repairStack s n).pending = s.pending := by
  simp [repairStack]

@[simp] theorem foundRow_pending (s : State) (n : Nat) (key : Nat) :
    (foundRow s n key).1.pending = s.pending := by
  unfold foundRow
  try dsimp only
  (repeat' (split <;> try dsimp only)) <;> simp_all

@[simp] theorem foundRows_pending (n : Nat) (l0 : List Nat) (s : State) :
    (foundRows n l0 s).1.pending = s.pending := by
  induction l0 generalizing s with
  | nil => simp [foundRows]
  | cons a t ih =>
    simp only [foundRows]
    (repeat' (split <;> try dsimp only)) <;> simp_all

@[simp] theorem qualifyStack_pending (found : List (Nat × Bytes)) (bad : List Nat) (rows : List (Nat × Nat)) (n : Nat) (s : State) :
    (qualifyStack found bad rows n s).1.pending = s.pending := by
  simp [qualifyStack]

@[simp] theorem qualifyStacks_pending (found : List (Nat × Bytes)) (bad : List Nat) (rows : List (Nat × Nat)) (l0 : List Nat) (s : State) :
    (qualifyStacks found bad rows l0 s).1.pending = s.pending := by
  induction l0 generalizing s with
  | nil => simp [qualifyStacks]
  | cons a t ih =>
    simp only [qualifyStacks]
    (repeat' (split <;> try dsimp only)) <;> simp_all

@[simp] theorem trainCourse_pending (bad : List (Nat × Nat)) (found : List (Nat × Bytes)) (l0 : List (List Nat × List Nat)) (s : State) :
    (trainCourse bad found l0 s).1.pending = s.pending := by
  induction l0 generalizing s with
  | nil => simp [trainCourse]
  | cons a t ih =>
    simp only [trainCourse]
    (repeat' (split <;> try dsimp only)) <;> simp_all

@[simp] theorem cycleDomains_pending (s : State) (l : List Nat) :
    (cycleDomains s l).pending = s.pending := by
  simp [cycleDomains]

@[simp] theorem rejoinBegin_pending (s : State) (d : Nat) :
    (rejoinBegin s d).pending = s.pending := by
  simp [rejoinBegin]

@[simp] theorem rejoinFailed_pending (s : State) (d : Nat) (step : Nat) (abandoned : Bool) :
    (rejoinFailed s d step abandoned).pending = s.pending := by
  unfold rejoinFailed
  try dsimp only
  (repeat' (split <;> try dsimp only)) <;> simp_all

@[simp] theorem rejoinDone_pending (s : State) (d : Nat) :
    (rejoinDone s d).pending = s.pending := by
  unfold rejoinDone
  try dsimp only
  (repeat' (split <;> try dsimp only)) <;> simp_all

@[simp] theorem rejoinSteps_pending (s : State) (d : Nat) (rep : RejoinReport) :
    (rejoinSteps s d rep).pending = s.pending := by
  unfold rejoinSteps
  try dsimp only
  (repeat' (split <;> try dsimp only)) <;> simp_all

@[simp] theorem rejoinAttempt_pending (s : State) (d : Nat) (l0 : Option RejoinReport) :
    (rejoinAttempt s d l0).pending = s.pending := by
  unfold rejoinAttempt
  try dsimp only
  (repeat' (split <;> try dsimp only)) <;> simp_all

@[simp] theorem dieWrite_pending (s : State) (off : Nat) (v : Word) :
    (dieWrite s off v).pending = s.pending := by
  unfold dieWrite
  try dsimp only
  (repeat' (split <;> try dsimp only)) <;> simp_all

/-! ## Machine/Streams.lean -/

@[simp] theorem arrive_pending (est : List (Nat × Nat)) (n : Nat) (l0 : List HbmRequest) (s : State) :
    (arrive est n l0 s).pending = s.pending := by
  induction l0 generalizing s with
  | nil => simp [arrive]
  | cons a t ih =>
    simp only [arrive]
    (repeat' (split <;> try dsimp only)) <;> simp_all

@[simp] theorem windowStart_pending (s : State) (n : Nat) :
    (windowStart s n).pending = s.pending := by
  unfold windowStart
  try dsimp only
  (repeat' (split <;> try dsimp only)) <;> simp_all

@[simp] theorem passTime_pending (s : State) (n : Nat) (gap : Nat) :
    (passTime s n gap).pending = s.pending := by
  simp [passTime]

@[simp] theorem slotGrant_pending (s0 : State) (n : Nat) (gap : Nat) (background : Bool) (arrivals : List HbmRequest) (est : List (Nat × Nat)) :
    (slotGrant s0 n gap background arrivals est).pending = s0.pending := by
  unfold slotGrant
  try dsimp only
  (repeat' (split <;> try dsimp only)) <;> simp_all

@[simp] theorem sshareSet_pending (s : State) (d : Nat) (v : Word) :
    (sshareSet s d v).pending = s.pending := by
  unfold sshareSet
  try dsimp only
  (repeat' (split <;> try dsimp only)) <;> simp_all

@[simp] theorem streamWrite_pending (s : State) (d : Nat) (off : Nat) (v : Word) :
    (streamWrite s d off v).pending = s.pending := by
  unfold streamWrite
  try dsimp only
  (repeat' (split <;> try dsimp only)) <;> simp_all

/-! ## Machine/Regs.lean -/

@[simp] theorem portWrite_pending (s : State) (p : Nat) (off : Nat) (w : Word) :
    (portWrite s p off w).pending = s.pending := by
  unfold portWrite
  try dsimp only
  (repeat' (split <;> try dsimp only)) <;> simp_all

@[simp] theorem bar0Write_pending (s : State) (off : Nat) (w : Word) :
    (bar0Write s off w).pending = s.pending := by
  unfold bar0Write
  try dsimp only
  (repeat' (split <;> try dsimp only)) <;> simp_all

@[simp] theorem mailboxIn_pending (s : State) (v : DWord) :
    (mailboxIn s v).pending = s.pending := by
  simp [mailboxIn]

@[simp] theorem wideSet_pending (s : State) (off : Nat) (v : DWord) :
    (wideSet s off v).pending = s.pending := by
  unfold wideSet
  try dsimp only
  (repeat' (split <;> try dsimp only)) <;> simp_all

@[simp] theorem wideUpper_pending (s : State) (off : Nat) (w : Word) :
    (wideUpper s off w).pending = s.pending := by
  simp [wideUpper]

@[simp] theorem writeWord_pending (s : State) (off : Nat) (w : Word) :
    (writeWord s off w).pending = s.pending := by
  unfold writeWord
  try dsimp only
  (repeat' (split <;> try dsimp only)) <;> simp_all

@[simp] theorem writeBar0_pending (s : State) (off : Nat) (size : Nat) (v : DWord) :
    (writeBar0 s off size v).pending = s.pending := by
  unfold writeBar0
  try dsimp only
  (repeat' (split <;> try dsimp only)) <;> simp_all

/-! ## Machine/Host.lean -/

@[simp] theorem outsideWrite_pending (s : State) (a : Nat) (b : Bytes) (hbm : Sector) :
    (outsideWrite s a b hbm).1.pending = s.pending := by
  unfold outsideWrite
  try dsimp only
  (repeat' (split <;> try dsimp only)) <;> simp_all

@[simp] theorem outsideRead_pending (s : State) (a : Nat) (n : Nat) (hbm : Sector) :
    (outsideRead s a n hbm).1.pending = s.pending := by
  unfold outsideRead
  try dsimp only
  (repeat' (split <;> try dsimp only)) <;> simp_all

@[simp] theorem countAperr_pending (s : State) :
    (countAperr s).pending = s.pending := by
  simp [countAperr]

@[simp] theorem viaMiss_pending (s : State) (l0 : Via) :
    (viaMiss s l0).pending = s.pending := by
  unfold viaMiss
  try dsimp only
  (repeat' (split <;> try dsimp only)) <;> simp_all

@[simp] theorem apertureRead_pending (s : State) (via : Via) (off : Nat) (len : Nat) (hbm : Sector) :
    (apertureRead s via off len hbm).pending = s.pending := by
  unfold apertureRead
  have h1 := outsideRead_pending s (viaAddr s off via) len hbm
  try dsimp only
  (repeat' (split <;> try dsimp only)) <;> simp_all

@[simp] theorem configWrite_pending (s : State) (off : Nat) (w : Word) :
    (configWrite s off w).pending = s.pending := by
  unfold configWrite
  try dsimp only
  (repeat' (split <;> try dsimp only)) <;> simp_all

@[simp] theorem configRequest_pending (s : State) (off : Nat) (write : Option Word) :
    (configRequest s off write).pending = s.pending := by
  unfold configRequest
  try dsimp only
  (repeat' (split <;> try dsimp only)) <;> simp_all

@[simp] theorem dpFail_pending (s : State) (e : Nat) :
    (dpFail s e).pending = s.pending := by
  simp [dpFail]

@[simp] theorem dpNext_pending (s : State) :
    (dpNext s).pending = s.pending := by
  unfold dpNext
  try dsimp only
  (repeat' (split <;> try dsimp only)) <;> simp_all

@[simp] theorem dpRead_pending (s : State) (hbm : Sector) :
    (dpRead s hbm).1.pending = s.pending := by
  unfold dpRead
  have h1 := outsideRead_pending s (dpAt s) 4 hbm
  try dsimp only
  (repeat' (split <;> try dsimp only)) <;> simp_all

@[simp] theorem dpWrite_pending (s : State) (w : Word) (hbm : Sector) :
    (dpWrite s w hbm).1.pending = s.pending := by
  unfold dpWrite
  have h1 := outsideWrite_pending s (dpAt s) (toLe 4 w.toNat) hbm
  try dsimp only
  (repeat' (split <;> try dsimp only)) <;> simp_all

@[simp] theorem dpCtrlWrite_pending (s : State) (w : Word) :
    (dpCtrlWrite s w).pending = s.pending := rfl

/-! ## Machine/Mgmt.lean -/

@[simp] theorem setMgtLink_pending (s : State) (p : Nat) (up : Bool) (rate : Nat) :
    (setMgtLink s p up rate).pending = s.pending := by
  unfold setMgtLink
  try dsimp only
  (repeat' (split <;> try dsimp only)) <;> simp_all

@[simp] theorem networkFrame_pending (s : State) (p : Nat) (f : NetFrame) :
    (networkFrame s p f).pending = s.pending := by
  unfold networkFrame
  try dsimp only
  (repeat' (split <;> try dsimp only)) <;> simp_all

@[simp] theorem discstatWrite_pending (s : State) (w : Word) :
    (discstatWrite s w).pending = s.pending := by
  simp [discstatWrite]

@[simp] theorem dpLoad_pending (s : State) (a : DWord) :
    (dpLoad s a).pending = s.pending := by
  simp [dpLoad]

@[simp] theorem dpHalfWrite_pending (s : State) (high : Bool) (w : Word) :
    (dpHalfWrite s high w).pending = s.pending := by
  unfold dpHalfWrite
  try dsimp only
  (repeat' (split <;> try dsimp only)) <;> simp_all

@[simp] theorem dpRegRead_pending (s : State) (off : Nat) (len : Nat) (hbm : Sector) :
    (dpRegRead s off len hbm).1.pending = s.pending := by
  unfold dpRegRead
  have h1 := dpRead_pending s hbm
  try dsimp only
  (repeat' (split <;> try dsimp only)) <;> simp_all

@[simp] theorem dpRegWrite_pending (s : State) (off : Nat) (b : Bytes) (hbm : Sector) :
    (dpRegWrite s off b hbm).1.pending = s.pending := by
  unfold dpRegWrite
  have h1 := dpWrite_pending s (BitVec.ofNat 32 (leNat b)) hbm
  try dsimp only
  (repeat' (split <;> try dsimp only)) <;> simp_all

@[simp] theorem burstRead_pending (l0 : Nat) (s : State) (l2 : Sector) :
    (burstRead l0 s l2).1.pending = s.pending := by
  induction l0 generalizing s l2 with
  | zero => simp [burstRead]
  | succ n ih =>
    have h1 := dpRead_pending s l2
    simp only [burstRead]
    split <;> rename_i h2 <;> rw [h2] at h1 <;> simp_all

@[simp] theorem burstWrite_pending (l0 : Nat) (s : State) (l2 : Bytes) (l3 : Sector) :
    (burstWrite l0 s l2 l3).1.pending = s.pending := by
  induction l0 generalizing s l2 l3 with
  | zero => simp [burstWrite]
  | succ n ih =>
    have h1 := dpWrite_pending s (BitVec.ofNat 32 (field l2 0 4)) l3
    simp only [burstWrite]
    split <;> rename_i h2 <;> rw [h2] at h1 <;> simp_all

@[simp] theorem burstLoad_pending (s : State) (a : Nat) (n : Nat) :
    (burstLoad s a n).pending = s.pending := by
  simp [burstLoad]

@[simp] theorem serveBurstRead_pending (s : State) (b : Bytes) (hbm : Sector) :
    (serveBurstRead s b hbm).1.pending = s.pending := by
  unfold serveBurstRead
  try dsimp only
  (repeat' (split <;> try dsimp only)) <;> simp_all

@[simp] theorem serveBurstWrite_pending (s : State) (b : Bytes) (hbm : Sector) :
    (serveBurstWrite s b hbm).1.pending = s.pending := by
  unfold serveBurstWrite
  try dsimp only
  (repeat' (split <;> try dsimp only)) <;> simp_all

@[simp] theorem serveRegisterRead_pending (s : State) (b : Bytes) (hbm : Sector) :
    (serveRegisterRead s b hbm).1.pending = s.pending := by
  unfold serveRegisterRead
  have h1 := dpRegRead_pending s (field b 0x10 8) (dgLength b) hbm
  try dsimp only
  (repeat' (split <;> try dsimp only)) <;> simp_all

@[simp] theorem serveRegisterWrite_pending (s : State) (b : Bytes) (hbm : Sector) :
    (serveRegisterWrite s b hbm).1.pending = s.pending := by
  unfold serveRegisterWrite
  try dsimp only
  (repeat' (split <;> try dsimp only)) <;> simp_all

@[simp] theorem runManagement_pending (s : State) (c : Cmd) (host : HostRead) :
    (runManagement s c host).1.pending = s.pending := by
  unfold runManagement
  try dsimp only
  (repeat' (split <;> try dsimp only)) <;> simp_all

@[simp] theorem runPacket_pending (s : State) (b : Bytes) (host : HostRead) :
    (runPacket s b host).1.pending = s.pending := by
  unfold runPacket
  try dsimp only
  (repeat' (split <;> try dsimp only)) <;> simp_all

@[simp] theorem serveCommand_pending (s : State) (b : Bytes) (host : HostRead) :
    (serveCommand s b host).1.pending = s.pending := by
  unfold serveCommand
  try dsimp only
  (repeat' (split <;> try dsimp only)) <;> simp_all

@[simp] theorem datagram_pending (s : State) (p : Nat) (op : Nat) (b : Bytes) (serve : State → Served) (hfserve : ∀ (x0 : State), (serve x0).1.pending = x0.pending) :
    (datagram s p op b serve).pending = s.pending := by
  unfold datagram
  try dsimp only
  (repeat' (split <;> try dsimp only)) <;> simp_all

@[simp] theorem smbWord_pending (v : Nat) (s : State) :
    (smbWord v s).pending = s.pending := by
  simp [smbWord]

@[simp] theorem smbBlock_pending (v : Nat) (s : State) :
    (smbBlock v s).pending = s.pending := by
  simp [smbBlock]

/-! ## Machine/Startup.lean -/

@[simp] theorem resetDies_pending (s : State) :
    (resetDies s).pending = s.pending := by
  simp [resetDies]

@[simp] theorem allOff_pending (s : State) :
    (allOff s).pending = s.pending := by
  simp [allOff]

@[simp] theorem powerOn_pending (s : State) (straps : Nat) :
    (powerOn s straps).pending = s.pending := by
  simp [powerOn]

@[simp] theorem logImage_pending (s : State) (t : Nat) (check : Nat) (bank : Nat) :
    (logImage s t check bank).pending = s.pending := by
  simp [logImage]

@[simp] theorem runImage_pending (s : State) (t : Nat) (i : Option Image) (spare : Bool) :
    (runImage s t i spare).pending = s.pending := rfl

@[simp] theorem bootType_pending (s : State) (rep : StartReport) (t : Nat) :
    (bootType s rep t).1.pending = s.pending := by
  unfold bootType
  try dsimp only
  (repeat' (split <;> try dsimp only)) <;> simp_all

@[simp] theorem activateType_pending (s : State) (t : Nat) :
    (activateType s t).pending = s.pending := by
  unfold activateType
  try dsimp only
  (repeat' (split <;> try dsimp only)) <;> simp_all

@[simp] theorem activateImages_pending (s : State) :
    (activateImages s).pending = s.pending := by
  simp [activateImages]

@[simp] theorem endNoFirmware_pending (s : State) (code : Nat) :
    (endNoFirmware s code).pending = s.pending := by
  simp [endNoFirmware]

@[simp] theorem endSafe_pending (s : State) (code : Nat) :
    (endSafe s code).pending = s.pending := by
  simp [endSafe]

@[simp] theorem endpointUp_pending (s : State) :
    (endpointUp s).pending = s.pending := rfl

@[simp] theorem domainsOn_pending (s : State) (l : List Nat) :
    (domainsOn s l).pending = s.pending := by
  simp [domainsOn]

@[simp] theorem discoveryStep_pending (rep : StartReport) (k : Nat) (s : State) :
    (discoveryStep rep k s).1.pending = s.pending := by
  unfold discoveryStep
  try dsimp only
  (repeat' (split <;> try dsimp only)) <;> simp_all

@[simp] theorem discoverySteps_pending (rep : StartReport) (l0 : List Nat) (s : State) :
    (discoverySteps rep l0 s).1.pending = s.pending := by
  induction l0 generalizing s with
  | nil => simp [discoverySteps]
  | cons a t ih =>
    simp only [discoverySteps]
    (repeat' (split <;> try dsimp only)) <;> simp_all

@[simp] theorem discover_pending (s : State) (rep : StartReport) :
    (discover s rep).1.pending = s.pending := by
  unfold discover
  try dsimp only
  (repeat' (split <;> try dsimp only)) <;> simp_all

@[simp] theorem qualify_pending (s : State) (rep : StartReport) :
    (qualify s rep).1.pending = s.pending := by
  simp [qualify]

@[simp] theorem failMere_pending (s : State) (p : Nat) :
    (failMere s p).pending = s.pending := by
  simp [failMere]

@[simp] theorem placeSpares_pending (l0 : List Nat) (s : State) :
    (placeSpares l0 s).pending = s.pending := by
  induction l0 generalizing s with
  | nil => simp [placeSpares]
  | cons a t ih =>
    simp only [placeSpares]
    (repeat' (split <;> try dsimp only)) <;> simp_all

@[simp] theorem clusterStart_pending (s : State) (c : Nat) :
    (clusterStart s c).pending = s.pending := by
  simp [clusterStart]

@[simp] theorem testMeres_pending (s : State) (rep : StartReport) :
    (testMeres s rep).1.pending = s.pending := by
  simp [testMeres]

@[simp] theorem failPort_pending (s : State) (p : Nat) :
    (failPort s p).pending = s.pending := by
  simp [failPort]

@[simp] theorem testPorts_pending (s : State) (rep : StartReport) :
    (testPorts s rep).1.pending = s.pending := by
  simp [testPorts]

@[simp] theorem becomeReady_pending (s : State) (rep : StartReport) :
    (becomeReady s rep).pending = s.pending := by
  unfold becomeReady
  try dsimp only
  (repeat' (split <;> try dsimp only)) <;> simp_all

@[simp] theorem startCores_pending (s : State) (rep : StartReport) :
    (startCores s rep).pending = s.pending := by
  unfold startCores
  try dsimp only
  (repeat' (split <;> try dsimp only)) <;> simp_all

@[simp] theorem startUnits_pending (s : State) (rep : StartReport) :
    (startUnits s rep).pending = s.pending := by
  unfold startUnits
  try dsimp only
  (repeat' (split <;> try dsimp only)) <;> simp_all

@[simp] theorem startDies_pending (s : State) (rep : StartReport) :
    (startDies s rep).pending = s.pending := by
  unfold startDies
  try dsimp only
  (repeat' (split <;> try dsimp only)) <;> simp_all

@[simp] theorem startUp_pending (s : State) (rep : StartReport) :
    (startUp s rep).pending = s.pending := by
  unfold startUp
  try dsimp only
  (repeat' (split <;> try dsimp only)) <;> simp_all

@[simp] theorem tryStart_pending (s : State) (rep : StartReport) :
    (tryStart s rep).pending = s.pending := by
  unfold tryStart
  try dsimp only
  (repeat' (split <;> try dsimp only)) <;> simp_all

/-! ## Machine/Pins.lean -/

@[simp] theorem inputLost_pending (s : State) (volts : Nat) :
    (inputLost s volts).pending = s.pending := by
  simp [inputLost]

@[simp] theorem powerBad_pending (s : State) :
    (powerBad s).pending = s.pending := by
  simp [powerBad]

@[simp] theorem dropHostReplies_pending (s : State) :
    (dropHostReplies s).pending = s.pending := rfl

@[simp] theorem perstFinish_pending (s : State) :
    (perstFinish s).pending = s.pending := by
  unfold perstFinish
  try dsimp only
  (repeat' (split <;> try dsimp only)) <;> simp_all

@[simp] theorem endpointReset_pending (s : State) :
    (endpointReset s).pending = s.pending := by
  unfold endpointReset
  try dsimp only
  (repeat' (split <;> try dsimp only)) <;> simp_all

@[simp] theorem inputTrip_pending (s : State) :
    (inputTrip s).pending = s.pending := by
  simp [inputTrip]

@[simp] theorem takenFor_pending (s : State) (idx : Nat) :
    (takenFor s idx).pending = s.pending := by
  unfold takenFor
  try dsimp only
  (repeat' (split <;> try dsimp only)) <;> simp_all

@[simp] theorem lose25_pending (s : State) :
    (lose25 s).pending = s.pending := by
  simp [lose25]

@[simp] theorem logReference_pending (s : State) (which : Nat) :
    (logReference s which).pending = s.pending := by
  simp [logReference]

@[simp] theorem referenceLost_pending (s : State) (which : Nat) :
    (referenceLost s which).pending = s.pending := by
  unfold referenceLost
  try dsimp only
  (repeat' (split <;> try dsimp only)) <;> simp_all

/-! ## Machine/Tick.lean -/

@[simp] theorem tick_pending (s : State) :
    (tick s).pending = s.pending := by
  unfold tick
  try dsimp only
  (repeat' (split <;> try dsimp only)) <;> simp_all

end Sys2Proof.Machine
end

