-- ==== Sys2Proof/Laws/Secure.lean ====
section
/-! SUPPORT. The operations that leave the security engine as it is, file by file. -/

namespace Sys2Proof.Machine

/-- A fold of a step that leaves the security engine leaves it. -/
@[simp] theorem foldl_sec {α : Type} (f : State → α → State) (l : List α) (s : State)
    (hf : ∀ s a, (f s a).sec = s.sec) : (l.foldl f s).sec = s.sec := by
  induction l generalizing s with
  | nil => rfl
  | cons a t ih => rw [List.foldl_cons, ih, hf]

/-! ## Machine/Ops.lean -/

@[simp] theorem capSync_sec (old : State) (new : State) :
    (capSync old new).sec = new.sec := by
  unfold capSync
  try dsimp only
  (repeat' (split <;> try dsimp only)) <;> simp_all

@[simp] theorem logAdd_sec (s : State) (kind : Nat) (level : Nat) (die : Nat) (unit : Nat) (eflags : Nat) (status : Nat) (detail : Nat) (cause : Nat) (info : Bytes) :
    (logAdd s kind level die unit eflags status detail cause info).sec = s.sec := by
  unfold logAdd
  try dsimp only
  (repeat' (split <;> try dsimp only)) <;> simp_all

@[simp] theorem logNote_sec (s : State) (kind : Nat) (die : Nat) (unit : Nat) (info : Bytes) :
    (logNote s kind die unit info).sec = s.sec := by
  simp [logNote]

/-! ## Machine/Repair.lean -/

@[simp] theorem flagStack_sec (s : State) (n : Nat) :
    (flagStack s n).sec = s.sec := by
  unfold flagStack
  try dsimp only
  (repeat' (split <;> try dsimp only)) <;> simp_all

@[simp] theorem retireFrame_sec (s : State) (n : Nat) (f : Nat) :
    (retireFrame s n f).sec = s.sec := by
  unfold retireFrame
  try dsimp only
  (repeat' (split <;> try dsimp only)) <;> simp_all

@[simp] theorem markFrame_sec (s : State) (n : Nat) (f : Nat) :
    (markFrame s n f).sec = s.sec := by
  unfold markFrame
  try dsimp only
  (repeat' (split <;> try dsimp only)) <;> simp_all

@[simp] theorem markFrames_sec (n : Nat) (l0 : List Nat) (s : State) :
    (markFrames n l0 s).sec = s.sec := by
  induction l0 generalizing s with
  | nil => simp [markFrames]
  | cons a t ih =>
    simp only [markFrames]
    (repeat' (split <;> try dsimp only)) <;> simp_all

@[simp] theorem spentBank_sec (s : State) (n : Nat) (bank : Nat) :
    (spentBank s n bank).sec = s.sec := by
  unfold spentBank
  try dsimp only
  (repeat' (split <;> try dsimp only)) <;> simp_all

@[simp] theorem repairRow_sec (s : State) (n : Nat) (r : Nat × Nat) :
    (repairRow s n r).sec = s.sec := by
  unfold repairRow
  try dsimp only
  (repeat' (split <;> try dsimp only)) <;> simp_all

@[simp] theorem repairRows_sec (n : Nat) (l0 : List (Nat × Nat)) (s : State) :
    (repairRows n l0 s).sec = s.sec := by
  induction l0 generalizing s with
  | nil => simp [repairRows]
  | cons a t ih =>
    simp only [repairRows]
    (repeat' (split <;> try dsimp only)) <;> simp_all

@[simp] theorem leaveFrame_sec (s : State) (n : Nat) (f : Nat) :
    (leaveFrame s n f).sec = s.sec := by
  unfold leaveFrame
  try dsimp only
  (repeat' (split <;> try dsimp only)) <;> simp_all

@[simp] theorem rowFails_sec (s : State) (n : Nat) (frame : Nat) (row : Nat) (bank : Nat) :
    (rowFails s n frame row bank).sec = s.sec := by
  unfold rowFails
  try dsimp only
  (repeat' (split <;> try dsimp only)) <;> simp_all

@[simp] theorem rowError_sec (s : State) (n : Nat) (frame : Nat) (row : Nat) (bank : Nat) :
    (rowError s n frame row bank).sec = s.sec := by
  unfold rowError
  try dsimp only
  (repeat' (split <;> try dsimp only)) <;> simp_all

@[simp] theorem logUncorrectable_sec (s : State) (n : Nat) (frame : Nat) (addr : Nat) (scrub : Bool) (status : Nat) (detail : Nat) :
    (logUncorrectable s n frame addr scrub status detail).sec = s.sec := by
  simp [logUncorrectable]

@[simp] theorem sectorRead_sec (s : State) (n : Nat) (frame : Nat) (off : Nat) (k : Sector) (scrub : Bool) (status : Nat) (detail : Nat) :
    (sectorRead s n frame off k scrub status detail).sec = s.sec := by
  unfold sectorRead
  try dsimp only
  (repeat' (split <;> try dsimp only)) <;> simp_all

@[simp] theorem leaveFrames_sec (l0 : List (Nat × Nat)) (s : State) :
    (leaveFrames l0 s).sec = s.sec := by
  induction l0 generalizing s with
  | nil => simp [leaveFrames]
  | cons a t ih =>
    simp only [leaveFrames]
    (repeat' (split <;> try dsimp only)) <;> simp_all

@[simp] theorem unmapSpans_sec (s : State) (w : Nat) (first : Nat) (count : Nat) :
    (unmapSpans s w first count).sec = s.sec := by
  simp [unmapSpans]

@[simp] theorem mapSpans_sec (s : State) (w : Nat) (first : Nat) (owner : Nat) (frames : List (List Nat)) :
    (mapSpans s w first owner frames).sec = s.sec := by
  simp [mapSpans]

@[simp] theorem unmapAll_sec (s : State) :
    (unmapAll s).sec = s.sec := by
  simp [unmapAll]

/-! ## Machine/Flags.lean -/

@[simp] theorem addTokens_sec (s : State) (q : Nat) (n : Nat) (k : Nat) :
    (addTokens s q n k).sec = s.sec := by
  unfold addTokens
  try dsimp only
  (repeat' (split <;> try dsimp only)) <;> simp_all

@[simp] theorem poison_sec (s : State) (n : Nat) :
    (poison s n).sec = s.sec := by
  unfold poison
  try dsimp only
  (repeat' (split <;> try dsimp only)) <;> simp_all

@[simp] theorem takeTokens_sec (s : State) (l0 : List Nat) :
    (takeTokens s l0).sec = s.sec := by
  induction l0 generalizing s with
  | nil => simp [takeTokens]
  | cons a t ih =>
    simp only [takeTokens]
    (repeat' (split <;> try dsimp only)) <;> simp_all

@[simp] theorem returnTokens_sec (s : State) (q : Nat) (l0 : List Nat) :
    (returnTokens s q l0).sec = s.sec := by
  induction l0 generalizing s with
  | nil => simp [returnTokens]
  | cons a t ih =>
    simp only [returnTokens]
    (repeat' (split <;> try dsimp only)) <;> simp_all

@[simp] theorem tokenAct_sec (s : State) (c : Cmd) (e : Err) :
    (tokenAct s c e).sec = s.sec := by
  unfold tokenAct
  try dsimp only
  (repeat' (split <;> try dsimp only)) <;> simp_all

@[simp] theorem endClaims_sec (s : State) (c : Cmd) (kept : Bool) :
    (endClaims s c kept).sec = s.sec := by
  unfold endClaims
  try dsimp only
  (repeat' (split <;> try dsimp only)) <;> simp_all

@[simp] theorem replyAct_sec (s : State) (c : Cmd) (e : Err) (work : Nat) :
    (replyAct s c e work).sec = s.sec := by
  unfold replyAct
  try dsimp only
  (repeat' (split <;> try dsimp only)) <;> simp_all

@[simp] theorem finishOne_sec (s : State) (c : Cmd) (e : Err) (work : Nat) :
    (finishOne s c e work).sec = s.sec := by
  simp [finishOne]

@[simp] theorem sweep_sec (l0 : Nat) (s : State) :
    (sweep l0 s).sec = s.sec := by
  induction l0 generalizing s with
  | zero => simp [sweep]
  | succ n ih =>
    simp only [sweep]
    (repeat' (split <;> try dsimp only)) <;> simp_all

@[simp] theorem settle_sec (s : State) :
    (settle s).sec = s.sec := by
  simp [settle]

@[simp] theorem complete_sec (s : State) (c : Cmd) (e : Err) (work : Nat) :
    (complete s c e work).sec = s.sec := by
  simp [complete]

@[simp] theorem finishAll_sec (l0 : List (Cmd × Err)) (s : State) :
    (finishAll l0 s).sec = s.sec := by
  induction l0 generalizing s with
  | nil => simp [finishAll]
  | cons a t ih =>
    simp only [finishAll]
    (repeat' (split <;> try dsimp only)) <;> simp_all

@[simp] theorem tearMaster_sec (s : State) (c : Cmd) :
    (tearMaster s c).sec = s.sec := by
  unfold tearMaster
  try dsimp only
  (repeat' (split <;> try dsimp only)) <;> simp_all

@[simp] theorem tearAll_sec (l0 : List Cmd) (s : State) :
    (tearAll l0 s).sec = s.sec := by
  induction l0 generalizing s with
  | nil => simp [tearAll]
  | cons a t ih =>
    simp only [tearAll]
    (repeat' (split <;> try dsimp only)) <;> simp_all

@[simp] theorem failJob_sec (s : State) (stuck : Cmd → Bool) (observed : Option Nat) :
    (failJob s stuck observed).sec = s.sec := by
  unfold failJob
  try dsimp only
  (repeat' (split <;> try dsimp only)) <;> simp_all

/-! ## Machine/Operands.lean -/

@[simp] theorem countZip_sec (s : State) (die : Nat) (z : ZipStats) :
    (countZip s die z).sec = s.sec := by
  unfold countZip
  try dsimp only
  (repeat' (split <;> try dsimp only)) <;> simp_all

@[simp] theorem countEscapes_sec (s : State) (die : Nat) (esc : Nat) (spill : Nat) :
    (countEscapes s die esc spill).sec = s.sec := by
  simp [countEscapes]

@[simp] theorem countDamage_sec (s : State) (die : Nat) :
    (countDamage s die).sec = s.sec := by
  simp [countDamage]

@[simp] theorem claimAll_sec (s : State) (cid : Nat) (rs : List (Nat × Nat)) :
    (claimAll s cid rs).sec = s.sec := by
  unfold claimAll
  try dsimp only
  (repeat' (split <;> try dsimp only)) <;> simp_all

@[simp] theorem forgetAll_sec (l0 : List (Nat × Nat)) (s : State) :
    (forgetAll l0 s).sec = s.sec := by
  induction l0 generalizing s with
  | nil => simp [forgetAll]
  | cons a t ih =>
    simp only [forgetAll]
    (repeat' (split <;> try dsimp only)) <;> simp_all

@[simp] theorem ownView_sec (s : State) (cid : Nat) :
    (ownView s cid).sec = s.sec := by
  simp [ownView]

@[simp] theorem finishWork_sec (s : State) (c : Cmd) (r : Result) :
    (finishWork s c r).sec = s.sec := by
  unfold finishWork
  try dsimp only
  (repeat' (split <;> try dsimp only)) <;> simp_all

/-! ## Machine/Tiling.lean -/

@[simp] theorem countZips_sec (s : State) (l0 : List (Nat × ZipStats)) :
    (countZips s l0).sec = s.sec := by
  induction l0 generalizing s with
  | nil => simp [countZips]
  | cons a t ih =>
    simp only [countZips]
    (repeat' (split <;> try dsimp only)) <;> simp_all

@[simp] theorem applyRun_sec (s : State) (c : Cmd) (r : Run) :
    (applyRun s c r).sec = s.sec := by
  unfold applyRun
  try dsimp only
  (repeat' (split <;> try dsimp only)) <;> simp_all

@[simp] theorem onWork_sec (s : State) (cid : Nat) (ops : List Nat) (f : Cmd → State) (hff : ∀ (x0 : Cmd), (f x0).sec = s.sec) :
    (onWork s cid ops f).sec = s.sec := by
  unfold onWork
  try dsimp only
  (repeat' (split <;> try dsimp only)) <;> simp_all

@[simp] theorem onRun_sec (s : State) (cid : Nat) (ops : List Nat) (issue : State → Cmd → Option Err) (run : State → Cmd → Run) :
    (onRun s cid ops issue run).sec = s.sec := by
  unfold onRun
  refine onWork_sec _ _ _ _ (fun c => ?_)
  (repeat' (split <;> try dsimp only)) <;> simp_all

/-! ## Machine/Move.lean -/

@[simp] theorem pickFrames_sec (s : State) (cid : Nat) (r : Run) :
    (pickFrames s cid r).sec = s.sec := by
  unfold pickFrames
  try dsimp only
  (repeat' (split <;> try dsimp only)) <;> simp_all

/-! ## Machine/Ingest.lean -/

@[simp] theorem openIngest_sec (s : State) (st : Nat) (cfg : Bytes) (src : Nat) (rsv : Nat) (dict : Nat) (pos : DWord) (epoch : Word) (seed : Word) :
    (openIngest s st cfg src rsv dict pos epoch seed).sec = s.sec := by
  simp [openIngest]

@[simp] theorem closeIngest_sec (s : State) (st : Nat) :
    (closeIngest s st).sec = s.sec := by
  simp [closeIngest]

@[simp] theorem releaseSlot_sec (s : State) (st : Nat) (slot : Nat) :
    (releaseSlot s st slot).sec = s.sec := by
  simp [releaseSlot]

@[simp] theorem seekIngest_sec (s : State) (st : Nat) (pos : DWord) (epoch : Word) (rsv : Option DWord) :
    (seekIngest s st pos epoch rsv).sec = s.sec := by
  unfold seekIngest
  try dsimp only
  (repeat' (split <;> try dsimp only)) <;> simp_all

@[simp] theorem failBatch_sec (s : State) (st : Nat) (e : Err) :
    (failBatch s st e).sec = s.sec := by
  unfold failBatch
  try dsimp only
  (repeat' (split <;> try dsimp only)) <;> simp_all

@[simp] theorem meanStep_sec (s : State) (f : LaneField) (m : Media) (cycles : Nat) :
    (meanStep s f m cycles).sec = s.sec := by
  unfold meanStep
  try dsimp only
  (repeat' (split <;> try dsimp only)) <;> simp_all

@[simp] theorem putAll_sec (l0 : List (Nat × Bytes)) (s : State) :
    (putAll l0 s).sec = s.sec := by
  induction l0 generalizing s with
  | nil => simp [putAll]
  | cons a t ih =>
    simp only [putAll]
    (repeat' (split <;> try dsimp only)) <;> simp_all

@[simp] theorem countSat_sec (s : State) (n : Nat) :
    (countSat s n).sec = s.sec := by
  unfold countSat
  try dsimp only
  (repeat' (split <;> try dsimp only)) <;> simp_all

@[simp] theorem batchDone_sec (s : State) (c : Cmd) (notes : Nat) (work : Nat) :
    (batchDone s c notes work).sec = s.sec := by
  unfold batchDone
  try dsimp only
  (repeat' (split <;> try dsimp only)) <;> simp_all

@[simp] theorem commitBatch_sec (s : State) (stream : Nat) (g : Ingest) (a : Assembly) (c : Cmd) :
    (commitBatch s stream g a c).sec = s.sec := by
  unfold commitBatch
  try dsimp only
  (repeat' (split <;> try dsimp only)) <;> simp_all

@[simp] theorem sdshareSet_sec (s : State) (stream : Nat) (v : Word) :
    (sdshareSet s stream v).sec = s.sec := by
  unfold sdshareSet
  try dsimp only
  (repeat' (split <;> try dsimp only)) <;> simp_all

@[simp] theorem tailSet_sec (s : State) (stream : Nat) (reserve : Bool) (v : Word) :
    (tailSet s stream reserve v).sec = s.sec := by
  unfold tailSet
  try dsimp only
  (repeat' (split <;> try dsimp only)) <;> simp_all

@[simp] theorem discardAll_sec (s : State) :
    (discardAll s).sec = s.sec := by
  simp [discardAll]

@[simp] theorem closeStreams_sec (l0 : List Nat) (s : State) :
    (closeStreams l0 s).sec = s.sec := by
  induction l0 generalizing s with
  | nil => simp [closeStreams]
  | cons a t ih =>
    simp only [closeStreams]
    (repeat' (split <;> try dsimp only)) <;> simp_all

@[simp] theorem springLoad_sec (s : State) :
    (springLoad s).sec = s.sec := by
  simp [springLoad]

@[simp] theorem springWrite_sec (s : State) (off : Nat) (v : Word) :
    (springWrite s off v).sec = s.sec := by
  unfold springWrite
  try dsimp only
  (repeat' (split <;> try dsimp only)) <;> simp_all

/-! ## Machine/Links.lean -/

@[simp] theorem enqueueMsg_sec (s : State) (p : Nat) (m : TxMsg) :
    (enqueueMsg s p m).sec = s.sec := by
  simp [enqueueMsg]

/-- A message queued leaves the security engine. -/
theorem sendTx_sec (s s1 : State) (d : Nat) (m : TxMsg) (h : sendTx s d m = some s1) : s1.sec = s.sec := by
  simp only [sendTx, Option.map_eq_some_iff] at h
  obtain ⟨p, -, rfl⟩ := h
  simp

/-- A message queued, or another state in its place. -/
@[simp] theorem sendTx_getD_sec (s s1 : State) (d : Nat) (m : TxMsg) (h : s1.sec = s.sec) :
    ((sendTx s d m).getD s1).sec = s.sec := by
  cases h1 : sendTx s d m with
  | none => exact h
  | some t => exact sendTx_sec s t d m h1

@[simp] theorem sendAll_sec (d : Nat) (l0 : List TxMsg) (s : State) :
    (sendAll d l0 s).1.sec = s.sec := by
  induction l0 generalizing s with
  | nil => simp [sendAll]
  | cons a t ih =>
    simp only [sendAll]
    split
    · rename_i s1 h1
      rw [ih, sendTx_sec s s1 d a h1]
    · rfl

/-- Messages queued one after the other, each from the state so far, and counted. -/
theorem foldSend_sec {α : Type} (d : Nat) (f : State × Nat → α → TxMsg) (l : List α) (p : State × Nat) :
    (l.foldl (fun (a : State × Nat) b => match sendTx a.1 d (f a b) with
      | some s1 => (s1, a.2 + 1)
      | none => a) p).1.sec = p.1.sec := by
  induction l generalizing p with
  | nil => rfl
  | cons b t ih =>
    rw [List.foldl_cons, ih]
    split
    · rename_i h2; exact sendTx_sec _ _ _ _ h2
    · rfl

@[simp] theorem lostBlock_sec (s : State) (m : TxMsg) :
    (lostBlock s m).sec = s.sec := by
  unfold lostBlock
  try dsimp only
  (repeat' (split <;> try dsimp only)) <;> simp_all

@[simp] theorem rerouteMsg_sec (p : Nat) (s : State) (m : TxMsg) :
    (rerouteMsg p s m).sec = s.sec := by
  unfold rerouteMsg
  split
  · exact sendTx_sec _ _ _ _ (by assumption)
  · (repeat' split) <;> simp

@[simp] theorem portLost_sec (s : State) (p : Nat) :
    (portLost s p).sec = s.sec := by
  simp [portLost]

@[simp] theorem portDown_sec (s : State) (p : Nat) (cause : Nat) :
    (portDown s p cause).sec = s.sec := by
  simp [portDown]

@[simp] theorem portsDown_sec (cause : Nat) (l0 : List Nat) (s : State) :
    (portsDown cause l0 s).sec = s.sec := by
  induction l0 generalizing s with
  | nil => simp [portsDown]
  | cons a t ih =>
    simp only [portsDown]
    (repeat' (split <;> try dsimp only)) <;> simp_all

@[simp] theorem lastingFailure_sec (s : State) (p : Nat) (l : Nat) :
    (lastingFailure s p l).sec = s.sec := by
  unfold lastingFailure
  try dsimp only
  (repeat' (split <;> try dsimp only)) <;> simp_all

@[simp] theorem failLane_sec (s : State) (p : Nat) (l : Nat) (retrainOk : Bool) :
    (failLane s p l retrainOk).sec = s.sec := by
  unfold failLane
  try dsimp only
  (repeat' (split <;> try dsimp only)) <;> simp_all

@[simp] theorem retrainPort_sec (s : State) (p : Nat) :
    (retrainPort s p).sec = s.sec := by
  unfold retrainPort
  try dsimp only
  (repeat' (split <;> try dsimp only)) <;> simp_all

@[simp] theorem portEnable_sec (s : State) (p : Nat) :
    (portEnable s p).sec = s.sec := by
  unfold portEnable
  try dsimp only
  (repeat' (split <;> try dsimp only)) <;> simp_all

@[simp] theorem portDisable_sec (s : State) (p : Nat) :
    (portDisable s p).sec = s.sec := by
  unfold portDisable
  try dsimp only
  (repeat' (split <;> try dsimp only)) <;> simp_all

@[simp] theorem genCapWrite_sec (s : State) (p : Nat) (n : Nat) :
    (genCapWrite s p n).sec = s.sec := by
  unfold genCapWrite
  try dsimp only
  (repeat' (split <;> try dsimp only)) <;> simp_all

@[simp] theorem outFlit_sec (s : State) (p : Nat) (v : Port) (b : Bytes) :
    (outFlit s p v b).sec = s.sec := by
  simp [outFlit]

@[simp] theorem sendNew_sec (s : State) (p : Nat) (v : Port) (typ : Nat) (cls : Nat) (len : Nat) (msg : Nat) (frag : Nat) (payload : Bytes) :
    (sendNew s p v typ cls len msg frag payload).sec = s.sec := by
  simp [sendNew]

@[simp] theorem sendFragment_sec (s : State) (p : Nat) (v : Port) (m : TxMsg) :
    (sendFragment s p v m).sec = s.sec := by
  unfold sendFragment
  try dsimp only
  (repeat' (split <;> try dsimp only)) <;> simp_all

@[simp] theorem flitSlot_sec (s : State) (p : Nat) :
    (flitSlot s p).sec = s.sec := by
  unfold flitSlot
  try dsimp only
  (repeat' (split <;> try dsimp only)) <;> simp_all

@[simp] theorem rewind_sec (s : State) (p : Nat) (v : Port) (retrainOk : Bool) :
    (rewind s p v retrainOk).sec = s.sec := by
  unfold rewind
  try dsimp only
  (repeat' (split <;> try dsimp only)) <;> simp_all

@[simp] theorem onNak_sec (s : State) (p : Nat) (v : Port) (ack : Nat) :
    (onNak s p v ack).sec = s.sec := by
  unfold onNak
  try dsimp only
  (repeat' (split <;> try dsimp only)) <;> simp_all

@[simp] theorem deliverMsg_sec (s : State) (p : Nat) (cls : Nat) (data : Bytes) :
    (deliverMsg s p cls data).sec = s.sec := by
  unfold deliverMsg
  dsimp only
  split
  · rfl
  · split
    · exact sendTx_getD_sec _ _ _ _ rfl
    · rfl

@[simp] theorem takeFlit_sec (s : State) (p : Nat) (v : Port) (b : Bytes) :
    (takeFlit s p v b).sec = s.sec := by
  unfold takeFlit
  try dsimp only
  (repeat' (split <;> try dsimp only)) <;> simp_all

@[simp] theorem badFlit_sec (s : State) (p : Nat) :
    (badFlit s p).sec = s.sec := by
  unfold badFlit
  try dsimp only
  (repeat' (split <;> try dsimp only)) <;> simp_all

@[simp] theorem goodFlit_sec (s : State) (p : Nat) (b : Bytes) :
    (goodFlit s p b).sec = s.sec := by
  unfold goodFlit
  try dsimp only
  (repeat' (split <;> try dsimp only)) <;> simp_all

@[simp] theorem landMirrors_sec (s : State) :
    (landMirrors s).sec = s.sec := rfl

/-! ## Machine/Basin.lean -/

@[simp] theorem storeColl_sec (s : State) (co : Coll) :
    (storeColl s co).sec = s.sec := by
  simp [storeColl]

@[simp] theorem dropColl_sec (s : State) (co : Coll) :
    (dropColl s co).sec = s.sec := by
  simp [dropColl]

@[simp] theorem failColl_sec (s : State) (c : Cmd) (co : Coll) (e : Err) :
    (failColl s c co e).sec = s.sec := by
  unfold failColl
  try dsimp only
  (repeat' (split <;> try dsimp only)) <;> simp_all

@[simp] theorem endReduction_sec (s : State) (c : Cmd) (co : Coll) (off : Nat) (low : Nat) :
    (endReduction s c co off low).sec = s.sec := by
  unfold endReduction
  try dsimp only
  (repeat' (split <;> try dsimp only)) <;> simp_all

@[simp] theorem offerKept_sec (s : State) (c : Cmd) (co : Coll) : (offerKept s c co).1.sec = s.sec := rfl

@[simp] theorem sendFor_sec (s : State) (c : Cmd) (co : Coll) (ms : List TxMsg) :
    (sendFor s c co ms).state.sec = s.sec := by
  unfold sendFor
  have h1 : (sendAll 0 ms s).1.sec = s.sec := sendAll_sec 0 ms s
  split <;> rename_i h2 <;> rw [h2] at h1 <;> simp_all

@[simp] theorem closeRound_sec (s : State) (c : Cmd) (co : Coll) : (closeRound s c co).state.sec = s.sec := by
  unfold closeRound
  dsimp only
  (repeat' split) <;> simp_all

@[simp] theorem reduceStage_sec (s : State) (c : Cmd) (co : Coll) : (reduceStage s c co).state.sec = s.sec := by
  unfold reduceStage
  dsimp only
  split
  · rfl
  · (repeat' split) <;> rw [sendFor_sec]

@[simp] theorem gatherStage_sec (s : State) (c : Cmd) (co : Coll) : (gatherStage s c co).state.sec = s.sec := by
  unfold gatherStage
  dsimp only
  split
  · rfl
  · split
    · simp
    · rw [sendFor_sec]

@[simp] theorem collTurn_sec (s : State) (c : Cmd) (co : Coll) : (collTurn s c co).state.sec = s.sec := by
  unfold collTurn
  (repeat' split) <;> simp_all

@[simp] theorem collRun_sec (n : Nat) (s : State) (c : Cmd) (co : Coll) : (collRun n s c co).sec = s.sec := by
  induction n generalizing s co with
  | zero => simp [collRun]
  | succ n ih =>
    have h1 := collTurn_sec s c co
    simp only [collRun]
    split <;> rename_i h2 <;> rw [h2] at h1 <;> simp_all

@[simp] theorem runColl_sec (s : State) (c : Cmd) (co : Coll) :
    (runColl s c co).sec = s.sec := by
  simp [runColl]

@[simp] theorem standbyCheck_sec (s : State) (c : Cmd) (co : Coll) :
    (standbyCheck s c co).sec = s.sec := by
  unfold standbyCheck
  try dsimp only
  (repeat' (split <;> try dsimp only)) <;> simp_all

@[simp] theorem heardFrom_sec (s : State) (c : Cmd) (co : Coll) (src : Nat) (pull : Bool) :
    (heardFrom s c co src pull).sec = s.sec := by
  unfold heardFrom
  have h1 : (sendAll 0 (copyMsgs s c { co with heard := addTo co.heard src } src) s).1.sec = s.sec := sendAll_sec _ _ _
  dsimp only
  split
  · split <;> rename_i h2 <;> rw [h2] at h1
    · split <;> simp_all
    · simp_all
  · split <;> simp_all

@[simp] theorem unkeep_sec (s : State) (h : Header) (payload : Bytes) :
    (unkeep s h payload).sec = s.sec := by
  simp [unkeep]

@[simp] theorem keepMsg_sec (s : State) (h : Header) (payload : Bytes) :
    (keepMsg s h payload).sec = s.sec := by
  simp [keepMsg]

@[simp] theorem onMessage_sec (s : State) (h : Header) (payload : Bytes) (f : State → State) (hff : ∀ (x0 : State), (f x0).sec = x0.sec) :
    (onMessage s h payload f).sec = s.sec := by
  unfold onMessage
  try dsimp only
  (repeat' (split <;> try dsimp only)) <;> simp_all

@[simp] theorem offerShort_sec (cid : Nat) (l0 : List (Header × Bytes)) (s : State) :
    (offerShort cid l0 s).sec = s.sec := by
  induction l0 generalizing s with
  | nil => simp [offerShort]
  | cons a t ih =>
    simp only [offerShort]
    (repeat' (split <;> try dsimp only)) <;> simp_all

@[simp] theorem startColl_sec (s : State) (c : Cmd) :
    (startColl s c).sec = s.sec := by
  unfold startColl
  have h1 := sendFor_sec s c (newColl s c) (firstMsgs s c (newColl s c))
  dsimp only
  split
  · rfl
  · split
    · simp
    · split
      · simp
      · split <;> rename_i h2 <;> rw [h2] at h1 <;> simp_all

@[simp] theorem collStart_sec (op : Nat) (cid : Nat) (s : State) :
    (collStart op cid s).sec = s.sec := by
  unfold collStart
  refine onWork_sec _ _ _ _ (fun c => ?_)
  (repeat' (split <;> try dsimp only)) <;> simp_all

@[simp] theorem collMessage_sec (h : Header) (payload : Bytes) (s : State) :
    (collMessage h payload s).sec = s.sec := by
  unfold collMessage
  refine onMessage_sec _ _ _ _ (fun c => ?_)
  (repeat' (split <;> try dsimp only)) <;> simp_all

/-! ## Machine/Update.lean -/

@[simp] theorem sendBlocks_sec (slot : Nat) (mr : Mirror) (c : Cmd) (gen : Nat) (first : Nat) (n : Nat) (d1 : Desc) (d2 : Desc) (es : List NewElem) (s : State) :
    (sendBlocks slot mr c gen first n d1 d2 es s).1.sec = s.sec := by
  exact foldSend_sec 0 _ _ _

@[simp] theorem fillMirror_sec (s : State) (c : Cmd) (gen : Nat) (e : Nat) (d1 : Desc) (d2 : Desc) (es : List NewElem) :
    (fillMirror s c gen e d1 d2 es).sec = s.sec := by
  unfold fillMirror
  try dsimp only
  (repeat' (split <;> try dsimp only)) <;> simp_all

@[simp] theorem offerHigh_sec (s : State) (c : Cmd) (a : Nat) (b : Bytes) :
    (offerHigh s c a b).sec = s.sec := by
  simp [offerHigh]

@[simp] theorem updateOffered_sec (s : State) (c : Cmd) :
    (updateOffered s c).sec = s.sec := by
  simp [updateOffered]

@[simp] theorem updateRun_sec (s : State) (c : Cmd) :
    (updateRun s c).sec = s.sec := by
  unfold updateRun
  try dsimp only
  (repeat' (split <;> try dsimp only)) <;> simp_all

@[simp] theorem updateTurn_sec (ops : List Nat) (cid : Nat) (s : State) :
    (updateTurn ops cid s).sec = s.sec := by
  unfold updateTurn
  refine onWork_sec _ _ _ _ (fun c => ?_)
  (repeat' (split <;> try dsimp only)) <;> simp_all

/-! ## Machine/Mirrors.lean -/

@[simp] theorem setMirror_sec (s : State) (k : Nat) (v : Mirror) :
    (setMirror s k v).sec = s.sec := by
  simp [setMirror]

@[simp] theorem dropMirror_sec (s : State) (k : Nat) :
    (dropMirror s k).sec = s.sec := by
  simp [dropMirror]

@[simp] theorem storeHost_sec (s : State) (slot : Nat) (mr : Mirror) :
    (storeHost s slot mr).sec = s.sec := by
  unfold storeHost
  try dsimp only
  (repeat' (split <;> try dsimp only)) <;> simp_all

@[simp] theorem sendLoose_sec (s : State) (m : TxMsg) :
    (sendLoose s m).sec = s.sec := by
  simp [sendLoose]

@[simp] theorem sendOrLose_sec (s : State) (c : Cmd) (m : TxMsg) :
    (sendOrLose s c m).sec = s.sec := by
  unfold sendOrLose
  split
  · exact sendTx_sec _ _ _ _ (by assumption)
  · simp

@[simp] theorem mirrorConfigEnd_sec (s : State) (c : Cmd) (slot : Nat) :
    (mirrorConfigEnd s c slot).sec = s.sec := by
  unfold mirrorConfigEnd
  try dsimp only
  (repeat' (split <;> try dsimp only)) <;> simp_all

@[simp] theorem mirrorConfigRun_sec (s : State) (c : Cmd) :
    (mirrorConfigRun s c).sec = s.sec := by
  unfold mirrorConfigRun
  try dsimp only
  (repeat' (split <;> try dsimp only)) <;> simp_all

@[simp] theorem fillWhole_sec (s : State) (c : Cmd) (slot : Nat) :
    (fillWhole s c slot).sec = s.sec := by
  refine (mirrorConfigEnd_sec _ _ _).trans ?_
  exact foldSend_sec 0 (fun (a : State × Nat) b => { mirrorMsg a.1 c.phase (getMirror s slot).laxis (getMirror s slot).partner slot 0 none [] with
      data := classHeader (getMirror s slot).partner (ownRank s) (BitVec.ofNat 32 slot) (BitVec.ofNat 32 b) ++
        toLe 8 (readDesc s (c.arg 0x10 2)).generation ++
        localBlock s (readDesc s (c.arg 0x10 2)) (descOr s (c.arg 0x12 2)) (descOr s (c.arg 0x14 2)) b }) _ _

@[simp] theorem answerSize_sec (s : State) (slot : Nat) (mr : Mirror) :
    (answerSize s slot mr).sec = s.sec := by
  unfold answerSize
  try dsimp only
  (repeat' (split <;> try dsimp only)) <;> simp_all

@[simp] theorem configureHost_sec (s : State) (slot : Nat) (partner : Nat) (laxis : Nat) (desc : Nat) :
    (configureHost s slot partner laxis desc).sec = s.sec := by
  unfold configureHost
  try dsimp only
  (repeat' (split <;> try dsimp only)) <;> simp_all

@[simp] theorem removeMirror_sec (s : State) (slot : Nat) :
    (removeMirror s slot).sec = s.sec := by
  unfold removeMirror
  try dsimp only
  (repeat' (split <;> try dsimp only)) <;> simp_all

@[simp] theorem writeShares_sec (base : Nat) (images : List Nat) (b : Nat) (l0 : List Nat) (l1 : Bytes) (s : State) :
    (writeShares base images b l0 l1 s).sec = s.sec := by
  induction l0 generalizing l1 s with
  | nil => simp [writeShares]
  | cons a t ih =>
    simp only [writeShares]
    (repeat' (split <;> try dsimp only)) <;> simp_all

@[simp] theorem landBlock_sec (s : State) (slot : Nat) (mr0 : Mirror) (b : Nat) (gen : Nat) (data : Bytes) :
    (landBlock s slot mr0 b gen data).sec = s.sec := by
  unfold landBlock
  try dsimp only
  (repeat' (split <;> try dsimp only)) <;> simp_all

@[simp] theorem breakMirror_sec (s : State) (slot : Nat) :
    (breakMirror s slot).sec = s.sec := by
  simp [breakMirror]

@[simp] theorem mirrorCommit_sec (s : State) (slot : Nat) (state : Nat) (genC : DWord) (genF : DWord) (done : Nat) :
    (mirrorCommit s slot state genC genF done).sec = s.sec := by
  unfold mirrorCommit
  try dsimp only
  (repeat' (split <;> try dsimp only)) <;> simp_all

@[simp] theorem verifyResult_sec (s : State) (c : Cmd) (slot : Nat) (values : List Word) :
    (verifyResult s c slot values).sec = s.sec := by
  unfold verifyResult
  try dsimp only
  (repeat' (split <;> try dsimp only)) <;> simp_all

@[simp] theorem restoreAnswer_sec (s : State) (c : Cmd) (slot : Nat) (state : Nat) (genC : DWord) (genF : DWord) (done : Nat) (image : Bytes) :
    (restoreAnswer s c slot state genC genF done image).sec = s.sec := by
  unfold restoreAnswer
  try dsimp only
  (repeat' (split <;> try dsimp only)) <;> simp_all

@[simp] theorem hearSize_sec (s : State) (slot : Nat) (src : Nat) (images : List Nat) :
    (hearSize s slot src images).sec = s.sec := by
  unfold hearSize
  try dsimp only
  (repeat' (split <;> try dsimp only)) <;> simp_all

@[simp] theorem mirrorHear_sec (s : State) (h : Header) (msg : MirrorMsg) :
    (mirrorHear s h msg).sec = s.sec := by
  unfold mirrorHear
  try dsimp only
  (repeat' (split <;> try dsimp only)) <;> simp_all

/-! ## Machine/Contain.lean -/

@[simp] theorem domainsOff_sec (s : State) (l : List Nat) :
    (domainsOff s l).sec = s.sec := rfl

@[simp] theorem stacksSleep_sec (s : State) (l : List Nat) :
    (stacksSleep s l).sec = s.sec := by
  simp [stacksSleep]

@[simp] theorem raiseKirq_sec (s : State) :
    (raiseKirq s).sec = s.sec := by
  unfold raiseKirq
  try dsimp only
  (repeat' (split <;> try dsimp only)) <;> simp_all

@[simp] theorem enterSafe_sec (s : State) (stage : Nat) :
    (enterSafe s stage).sec = s.sec := by
  simp [enterSafe]

@[simp] theorem endReruns_sec (s : State) :
    (endReruns s).sec = s.sec := by
  simp [endReruns]

@[simp] theorem jobFails_sec (s : State) (lost : List Nat) (observed : Option Nat) :
    (jobFails s lost observed).sec = s.sec := by
  unfold jobFails
  try dsimp only
  (repeat' (split <;> try dsimp only)) <;> simp_all

@[simp] theorem jobFailsAll_sec (s : State) :
    (jobFailsAll s).sec = s.sec := by
  simp [jobFailsAll]

@[simp] theorem stopCmd_sec (s : State) (c : Cmd) :
    (stopCmd s c).sec = s.sec := by
  unfold stopCmd
  try dsimp only
  (repeat' (split <;> try dsimp only)) <;> simp_all

@[simp] theorem stopCmds_sec (l0 : List Cmd) (s : State) :
    (stopCmds l0 s).sec = s.sec := by
  induction l0 generalizing s with
  | nil => simp [stopCmds]
  | cons a t ih =>
    simp only [stopCmds]
    (repeat' (split <;> try dsimp only)) <;> simp_all

@[simp] theorem endOnLast_sec (s : State) (d : Nat) (l : Nat) (phys : Nat) :
    (endOnLast s d l phys).sec = s.sec := by
  simp [endOnLast]

@[simp] theorem retireMere_sec (s : State) (phys : Nat) :
    (retireMere s phys).sec = s.sec := by
  unfold retireMere
  try dsimp only
  (repeat' (split <;> try dsimp only)) <;> simp_all

@[simp] theorem retireMeres_sec (l0 : List Nat) (s : State) :
    (retireMeres l0 s).sec = s.sec := by
  induction l0 generalizing s with
  | nil => simp [retireMeres]
  | cons a t ih =>
    simp only [retireMeres]
    (repeat' (split <;> try dsimp only)) <;> simp_all

@[simp] theorem killOn_sec (s : State) (l : List Nat) :
    (killOn s l).sec = s.sec := by
  simp [killOn]

@[simp] theorem portsGone_sec (l0 : List Nat) (s : State) :
    (portsGone l0 s).sec = s.sec := by
  induction l0 generalizing s with
  | nil => simp [portsGone]
  | cons a t ih =>
    simp only [portsGone]
    (repeat' (split <;> try dsimp only)) <;> simp_all

@[simp] theorem markLost_sec (s : State) (l : List Nat) :
    (markLost s l).sec = s.sec := by
  simp [markLost]

@[simp] theorem takeDie_sec (s : State) (d : Nat) :
    (takeDie s d).sec = s.sec := by
  unfold takeDie
  try dsimp only
  (repeat' (split <;> try dsimp only)) <;> simp_all

@[simp] theorem logSite_sec (s : State) (e : ErrorSite) (flags : Nat) (cause : Nat) :
    (logSite s e flags cause).sec = s.sec := by
  unfold logSite
  try dsimp only
  (repeat' (split <;> try dsimp only)) <;> simp_all

@[simp] theorem countLevel_sec (s : State) (l : Nat) :
    (countLevel s l).sec = s.sec := by
  simp [countLevel]

@[simp] theorem handleModule_sec (s : State) :
    (handleModule s).sec = s.sec := by
  simp [handleModule]

@[simp] theorem handleSite_sec (s : State) (e : ErrorSite) :
    (handleSite s e).sec = s.sec := by
  unfold handleSite
  try dsimp only
  (repeat' (split <;> try dsimp only)) <;> simp_all

@[simp] theorem startHandling_sec (s : State) (e : ErrorSite) (seq : Nat) :
    (startHandling s e seq).sec = s.sec := by
  simp [startHandling]

@[simp] theorem escalateTo_sec (s : State) (b : Contained) (e : ErrorSite) :
    (escalateTo s b e).sec = s.sec := by
  simp [escalateTo]

@[simp] theorem bothLost_sec (s : State) :
    (bothLost s).sec = s.sec := by
  unfold bothLost
  try dsimp only
  (repeat' (split <;> try dsimp only)) <;> simp_all

@[simp] theorem containError_sec (s : State) (e : ErrorSite) :
    (containError s e).sec = s.sec := by
  unfold containError
  try dsimp only
  (repeat' (split <;> try dsimp only)) <;> simp_all

@[simp] theorem countSramUnc_sec (s : State) (e : ErrorSite) :
    (countSramUnc s e).sec = s.sec := by
  unfold countSramUnc
  try dsimp only
  (repeat' (split <;> try dsimp only)) <;> simp_all

@[simp] theorem rerunCmds_sec (s : State) :
    (rerunCmds s).sec = s.sec := rfl

@[simp] theorem rscrubSet_sec (s : State) (v : Word) :
    (rscrubSet s v).sec = s.sec := by
  unfold rscrubSet
  try dsimp only
  (repeat' (split <;> try dsimp only)) <;> simp_all

@[simp] theorem relWrite_sec (s : State) (off : Nat) (v : Word) :
    (relWrite s off v).sec = s.sec := by
  unfold relWrite
  try dsimp only
  (repeat' (split <;> try dsimp only)) <;> simp_all

/-! ## Machine/Power.lean -/

@[simp] theorem railShort_sec (s : State) (c : Nat) :
    (railShort s c).sec = s.sec := by
  unfold railShort
  try dsimp only
  (repeat' (split <;> try dsimp only)) <;> simp_all

@[simp] theorem droopEvent_sec (s : State) (c : Nat) :
    (droopEvent s c).sec = s.sec := by
  unfold droopEvent
  try dsimp only
  (repeat' (split <;> try dsimp only)) <;> simp_all

@[simp] theorem cpmStep_sec (s : State) (c : Nat) (m : Margin) :
    (cpmStep s c m).sec = s.sec := by
  unfold cpmStep
  try dsimp only
  (repeat' (split <;> try dsimp only)) <;> simp_all

@[simp] theorem clusterReads_sec (s : State) (n : Nat) (r : Int) :
    (clusterReads s n r).sec = s.sec := by
  unfold clusterReads
  try dsimp only
  (repeat' (split <;> try dsimp only)) <;> simp_all

@[simp] theorem thermalTrip_sec (s : State) (die : Nat) (unit : Nat) (info : Bytes) (onK : Bool) :
    (thermalTrip s die unit info onK).sec = s.sec := by
  unfold thermalTrip
  try dsimp only
  (repeat' (split <;> try dsimp only)) <;> simp_all

@[simp] theorem darkTrip_sec (s : State) (die : Nat) (unit : Nat) (info : Bytes) :
    (darkTrip s die unit info).sec = s.sec := by
  simp [darkTrip]

@[simp] theorem tripNow_sec (s : State) (die : Nat) (unit : Nat) (info : Bytes) (onK : Bool) :
    (tripNow s die unit info onK).sec = s.sec := by
  unfold tripNow
  try dsimp only
  (repeat' (split <;> try dsimp only)) <;> simp_all

@[simp] theorem sensorTrip_sec (s : State) (n : Nat) (r : Int) :
    (sensorTrip s n r).sec = s.sec := by
  unfold sensorTrip
  try dsimp only
  (repeat' (split <;> try dsimp only)) <;> simp_all

@[simp] theorem sensorAlarm_sec (s : State) (n : Nat) (r : Int) :
    (sensorAlarm s n r).sec = s.sec := rfl

@[simp] theorem remapHot_sec (d : Nat) (temp : Nat → Int) (n : Int) (sum : Int) (l0 : List Nat) (s : State) :
    (remapHot d temp n sum l0 s).sec = s.sec := by
  induction l0 generalizing s with
  | nil => simp [remapHot]
  | cons a t ih =>
    simp only [remapHot]
    (repeat' (split <;> try dsimp only)) <;> simp_all

@[simp] theorem setFiller_sec (s : State) (on : List Nat) :
    (setFiller s on).sec = s.sec := by
  unfold setFiller
  refine foldl_sec _ _ _ (fun s a => ?_)
  dsimp only
  split <;> rfl

@[simp] theorem weirSample_sec (s : State) (demand : Nat) (power : Nat) (volts : Nat) (amps : Nat) (fillerJ : Nat) (short : Bool) :
    (weirSample s demand power volts amps fillerJ short).sec = s.sec := by
  unfold weirSample
  try dsimp only
  (repeat' (split <;> try dsimp only)) <;> simp_all

@[simp] theorem startRamp_sec (s : State) (l : List Nat) :
    (startRamp s l).sec = s.sec := by
  simp [startRamp]

@[simp] theorem setCap_sec (s : State) (w : Nat) :
    (setCap s w).sec = s.sec := by
  unfold setCap
  try dsimp only
  (repeat' (split <;> try dsimp only)) <;> simp_all

@[simp] theorem wctrlSet_sec (s : State) (v : Word) :
    (wctrlSet s v).sec = s.sec := by
  unfold wctrlSet
  try dsimp only
  (repeat' (split <;> try dsimp only)) <;> simp_all

@[simp] theorem pctrlSet_sec (s : State) (v : Word) :
    (pctrlSet s v).sec = s.sec := rfl

@[simp] theorem powerWrite_sec (s : State) (off : Nat) (v : Word) :
    (powerWrite s off v).sec = s.sec := by
  unfold powerWrite
  try dsimp only
  (repeat' (split <;> try dsimp only)) <;> simp_all

/-! ## Machine/Hbm.lean -/

@[simp] theorem noteCmd_sec (s : State) (cid : Nat) (note : Nat) :
    (noteCmd s cid note).sec = s.sec := by
  unfold noteCmd
  try dsimp only
  (repeat' (split <;> try dsimp only)) <;> simp_all

@[simp] theorem patchBlock_sec (s : State) (c : Cmd) (b : Nat) (data : Bytes) :
    (patchBlock s c b data).sec = s.sec := by
  unfold patchBlock
  dsimp only
  generalize List.range 4 = l
  generalize hp : (s, data) = p
  have h1 : p.1.sec = s.sec := by rw [← hp]
  clear hp
  induction l generalizing p with
  | nil => exact h1
  | cons i t ih =>
    rw [List.foldl_cons]
    refine ih _ ?_
    dsimp only
    split <;> exact h1

@[simp] theorem adjustScale_sec (s : State) (c : Cmd) (bad : Bool) :
    (adjustScale s c bad).sec = s.sec := by
  unfold adjustScale
  try dsimp only
  (repeat' (split <;> try dsimp only)) <;> simp_all

@[simp] theorem tornEnd_sec (s : State) (c : Cmd) (e : Err) :
    (tornEnd s c e).sec = s.sec := by
  simp [tornEnd]

@[simp] theorem sectorFails_sec (s : State) (stack : Nat) (frame : Nat) (mirror : Option Bytes) (user : SectorUser) :
    (sectorFails s stack frame mirror user).sec = s.sec := by
  unfold sectorFails
  try dsimp only
  (repeat' (split <;> try dsimp only)) <;> simp_all

@[simp] theorem sectorsFail_sec (stack : Nat) (frame : Nat) (mirror : Option Bytes) (l0 : List SectorUser) (s : State) :
    (sectorsFail stack frame mirror l0 s).sec = s.sec := by
  induction l0 generalizing s with
  | nil => simp [sectorsFail]
  | cons a t ih =>
    simp only [sectorsFail]
    (repeat' (split <;> try dsimp only)) <;> simp_all

@[simp] theorem noteUsers_sec (l0 : List SectorUser) (s : State) :
    (noteUsers l0 s).sec = s.sec := by
  induction l0 generalizing s with
  | nil => simp [noteUsers]
  | cons a t ih =>
    simp only [noteUsers]
    (repeat' (split <;> try dsimp only)) <;> simp_all

@[simp] theorem sectorFor_sec (s : State) (users : List SectorUser) (mirror : Option Bytes) (addr : Nat) (k : Sector) :
    (sectorFor s users mirror addr k).sec = s.sec := by
  unfold sectorFor
  try dsimp only
  (repeat' (split <;> try dsimp only)) <;> simp_all

@[simp] theorem flitFailsHbm_sec (s : State) (resend : Nat) (read : Option (List SectorUser × Option Bytes × Nat × Sector)) :
    (flitFailsHbm s resend read).sec = s.sec := by
  unfold flitFailsHbm
  try dsimp only
  (repeat' (split <;> try dsimp only)) <;> simp_all

@[simp] theorem stackTemp_sec (s : State) (n : Nat) (t : Int) :
    (stackTemp s n t).sec = s.sec := by
  unfold stackTemp
  try dsimp only
  (repeat' (split <;> try dsimp only)) <;> simp_all

@[simp] theorem scrubOn_sec (s : State) (n : Nat) (last : Bool) :
    (scrubOn s n last).sec = s.sec := by
  unfold scrubOn
  try dsimp only
  (repeat' (split <;> try dsimp only)) <;> simp_all

@[simp] theorem scrubRead_sec (s : State) (n : Nat) (off : Nat) (o : ScrubOutcome) :
    (scrubRead s n off o).sec = s.sec := by
  simp [scrubRead]

@[simp] theorem setQuota_sec (s : State) (q : Nat) (v : Word) :
    (setQuota s q v).sec = s.sec := by
  simp [setQuota]

@[simp] theorem clearThrottle_sec (s : State) (v : Word) :
    (clearThrottle s v).sec = s.sec := by
  unfold clearThrottle
  refine foldl_sec _ _ _ (fun s a => ?_)
  dsimp only
  split <;> rfl

@[simp] theorem memWrite_sec (s : State) (off : Nat) (v : Word) :
    (memWrite s off v).sec = s.sec := by
  unfold memWrite
  try dsimp only
  (repeat' (split <;> try dsimp only)) <;> simp_all

/-! ## Machine/Security.lean -/

@[simp] theorem runSpareOverride_sec (s : State) (c : Cmd) :
    (runSpareOverride s c).1.sec = s.sec := by
  unfold runSpareOverride
  try dsimp only
  (repeat' (split <;> try dsimp only)) <;> simp_all

@[simp] theorem privileged_sec (s : State) (c : Cmd) (r : State × Err) (hr : r.1.sec = s.sec) :
    (privileged s c r).1.sec = s.sec := by
  unfold privileged
  split
  · exact hr
  · rfl

@[simp] theorem adminEnd_sec (c : Cmd) (r : State × Err) :
    (adminEnd c r).sec = r.1.sec := by
  simp [adminEnd]

@[simp] theorem refuseWrite_sec (s : State) :
    (refuseWrite s).sec = s.sec := by
  simp [refuseWrite]

/-! ## Machine/Admin.lean -/

@[simp] theorem runTelemetryRead_sec (s : State) (c : Cmd) :
    (runTelemetryRead s c).1.sec = s.sec := by
  simp [runTelemetryRead]

@[simp] theorem runPowerCap_sec (s : State) (c : Cmd) :
    (runPowerCap s c).1.sec = s.sec := by
  simp [runPowerCap]

@[simp] theorem runQuotaSet_sec (s : State) (c : Cmd) :
    (runQuotaSet s c).1.sec = s.sec := by
  simp [runQuotaSet]

@[simp] theorem runErrlogRead_sec (s : State) (c : Cmd) :
    (runErrlogRead s c).1.sec = s.sec := by
  unfold runErrlogRead
  try dsimp only
  (repeat' (split <;> try dsimp only)) <;> simp_all

@[simp] theorem runAttest_sec (s : State) (c : Cmd) :
    (runAttest s c).1.sec = s.sec := by
  simp [runAttest]

/-! ## Machine/Background.lean -/

@[simp] theorem sramScrub_sec (s : State) (t : ScrubTarget) (o : ScrubOutcome) :
    (sramScrub s t o).sec = s.sec := by
  unfold sramScrub
  try dsimp only
  (repeat' (split <;> try dsimp only)) <;> simp_all

/-! ## Machine/Compress.lean -/

@[simp] theorem countShort_sec (s : State) (c : Cmd) :
    (countShort s c).sec = s.sec := by
  unfold countShort
  try dsimp only
  (repeat' (split <;> try dsimp only)) <;> simp_all

@[simp] theorem firstFetch_sec (s : State) (seen : List (Nat × Byte)) :
    (firstFetch s seen).sec = s.sec := by
  simp [firstFetch]

@[simp] theorem retryGood_sec (s : State) (c : Cmd) (desc : Nat) (block : Option Nat) :
    (retryGood s c desc block).sec = s.sec := by
  simp [retryGood]

@[simp] theorem checkBlock_sec (s : State) (c : Cmd) (desc : Nat) (block : Option Nat) (seen : List (Nat × Byte)) :
    (checkBlock s c desc block seen).sec = s.sec := by
  unfold checkBlock
  try dsimp only
  (repeat' (split <;> try dsimp only)) <;> simp_all

/-! ## Machine/Eddy.lean -/

@[simp] theorem storeEddy_sec (s : State) (e : Eddy) :
    (storeEddy s e).sec = s.sec := by
  simp [storeEddy]

@[simp] theorem dropEddy_sec (s : State) (cid : Nat) :
    (dropEddy s cid).sec = s.sec := by
  simp [dropEddy]

@[simp] theorem eddySend_sec (s : State) (c : Cmd) (m : TxMsg) (k : State → State) (hfk : ∀ (x0 : State), (k x0).sec = x0.sec) :
    (eddySend s c m k).sec = s.sec := by
  unfold eddySend
  split
  · rename_i s1 h1
    rw [hfk s1, sendTx_sec _ _ _ _ h1]
  · simp

@[simp] theorem eddyEnd_sec (s : State) (c : Cmd) (e : Eddy) :
    (eddyEnd s c e).sec = s.sec := by
  unfold eddyEnd
  try dsimp only
  (repeat' (split <;> try dsimp only)) <;> simp_all

@[simp] theorem sendAcc_sec (s : State) (c : Cmd) (e : Eddy) (origin : Nat) (hops : Nat) (acc : List Word) (k : State → State) (hfk : ∀ (x0 : State), (k x0).sec = x0.sec) :
    (sendAcc s c e origin hops acc k).sec = s.sec := by
  unfold sendAcc
  try dsimp only
  (repeat' (split <;> try dsimp only)) <;> simp_all

@[simp] theorem combineParts_sec (l0 : Nat) (s : State) (l2 : Cmd) (l3 : Eddy) :
    (combineParts l0 s l2 l3).sec = s.sec := by
  induction l0 generalizing s l2 l3 with
  | zero => simp [combineParts]
  | succ n ih =>
    simp only [combineParts]
    (repeat' (split <;> try dsimp only)) <;> simp_all

@[simp] theorem placeBlock_sec (s : State) (c : Cmd) (e : Eddy) (origin : Nat) (hops : Nat) (data : Bytes) :
    (placeBlock s c e origin hops data).sec = s.sec := by
  unfold placeBlock
  try dsimp only
  (repeat' (split <;> try dsimp only)) <;> simp_all

@[simp] theorem takeBlock_sec (s : State) (c : Cmd) (e : Eddy) (origin : Nat) (hops : Nat) (data : Bytes) :
    (takeBlock s c e origin hops data).sec = s.sec := by
  unfold takeBlock
  try dsimp only
  (repeat' (split <;> try dsimp only)) <;> simp_all

@[simp] theorem eddyTake_sec (s : State) (c : Cmd) (e : Eddy) (h : Header) (payload : Bytes) :
    (eddyTake s c e h payload).sec = s.sec := by
  unfold eddyTake
  try dsimp only
  (repeat' (split <;> try dsimp only)) <;> simp_all

@[simp] theorem offerRing_sec (cid : Nat) (l0 : List (Header × Bytes)) (s : State) :
    (offerRing cid l0 s).sec = s.sec := by
  induction l0 generalizing s with
  | nil => simp [offerRing]
  | cons a t ih =>
    simp only [offerRing]
    (repeat' (split <;> try dsimp only)) <;> simp_all

@[simp] theorem startRing_sec (s : State) (c : Cmd) :
    (startRing s c).sec = s.sec := by
  unfold startRing
  try dsimp only
  (repeat' (split <;> try dsimp only)) <;> simp_all

@[simp] theorem ringStart_sec (op : Nat) (cid : Nat) (s : State) :
    (ringStart op cid s).sec = s.sec := by
  unfold ringStart
  refine onWork_sec _ _ _ _ (fun c => ?_)
  (repeat' (split <;> try dsimp only)) <;> simp_all

@[simp] theorem ringMessage_sec (h : Header) (payload : Bytes) (s : State) :
    (ringMessage h payload s).sec = s.sec := by
  unfold ringMessage
  refine onMessage_sec _ _ _ _ (fun c => ?_)
  (repeat' (split <;> try dsimp only)) <;> simp_all

@[simp] theorem serveWaiting_sec (s : State) (c : Cmd) (cid : Nat) (j : Nat) :
    (serveWaiting s c cid j).sec = s.sec := by
  unfold serveWaiting
  try dsimp only
  (repeat' (split <;> try dsimp only)) <;> simp_all

/-! ## Machine/Guard.lean -/

@[simp] theorem guardCommit_sec (s : State) (d : TagDelta) :
    (guardCommit s d).sec = s.sec := by
  unfold guardCommit
  try dsimp only
  (repeat' (split <;> try dsimp only)) <;> simp_all

@[simp] theorem countMove_sec (s : State) (t : Nat) (up : Bool) (down : Bool) :
    (countMove s t up down).sec = s.sec := by
  simp [countMove]

@[simp] theorem evaluateTag_sec (s : State) (t : Nat) :
    (evaluateTag s t).sec = s.sec := by
  unfold evaluateTag
  try dsimp only
  (repeat' (split <;> try dsimp only)) <;> simp_all

@[simp] theorem evaluateTags_sec (l0 : List Nat) (s : State) :
    (evaluateTags l0 s).sec = s.sec := by
  induction l0 generalizing s with
  | nil => simp [evaluateTags]
  | cons a t ih =>
    simp only [evaluateTags]
    (repeat' (split <;> try dsimp only)) <;> simp_all

@[simp] theorem guardEvaluate_sec (s : State) (step : Nat) :
    (guardEvaluate s step).sec = s.sec := by
  simp [guardEvaluate]

@[simp] theorem guardReset_sec (s : State) :
    (guardReset s).sec = s.sec := by
  simp [guardReset]

@[simp] theorem guardWrite_sec (s : State) (off : Nat) (v : Word) :
    (guardWrite s off v).sec = s.sec := by
  unfold guardWrite
  try dsimp only
  (repeat' (split <;> try dsimp only)) <;> simp_all

/-! ## Machine/JobCtl.lean -/

@[simp] theorem zeroMeres_sec (s : State) :
    (zeroMeres s).sec = s.sec := by
  simp [zeroMeres]

@[simp] theorem loadJob_sec (s : State) (c : Cmd) :
    (loadJob s c).sec = s.sec := by
  simp [loadJob]

@[simp] theorem endJobKill_sec (s : State) :
    (endJobKill s).sec = s.sec := by
  simp [endJobKill]

@[simp] theorem disableJobQueues_sec (s : State) :
    (disableJobQueues s).sec = s.sec := rfl

@[simp] theorem endJobFinish_sec (s : State) (keep : Bool) :
    (endJobFinish s keep).sec = s.sec := by
  unfold endJobFinish
  try dsimp only
  (repeat' (split <;> try dsimp only)) <;> simp_all

@[simp] theorem saveToArea_sec (s : State) :
    (saveToArea s).sec = s.sec := by
  simp [saveToArea]

@[simp] theorem suspendStart_sec (s : State) :
    (suspendStart s).sec = s.sec := by
  simp [suspendStart]

@[simp] theorem resumeCmds_sec (s : State) :
    (resumeCmds s).sec = s.sec := rfl

/-! ## Machine/Phase.lean -/

@[simp] theorem installPhase_sec (s : State) (c : Cmd) :
    (installPhase s c).sec = s.sec := by
  simp [installPhase]

@[simp] theorem beginStep_sec (s : State) (n : Nat) :
    (beginStep s n).sec = s.sec := by
  simp [beginStep]

/-! ## Machine/Pipe.lean -/

@[simp] theorem takeCredit_sec (s : State) (c : Cmd) :
    (takeCredit s c).sec = s.sec := by
  simp [takeCredit]

@[simp] theorem pipeSend_sec (s : State) (c : Cmd) :
    (pipeSend s c).sec = s.sec := by
  unfold pipeSend
  dsimp only
  (repeat' split) <;> first
  | rfl
  | (rename_i h1; simp [sendTx_sec _ _ _ _ h1]; done)
  | (simp; done)

@[simp] theorem landEntry_sec (s : State) (h : Header) (payload : Bytes) (cfg : Nat × Nat × Bool) :
    (landEntry s h payload cfg).sec = s.sec := by
  unfold landEntry
  try dsimp only
  (repeat' (split <;> try dsimp only)) <;> simp_all

@[simp] theorem offerEntries_sec (pq : Nat) (l0 : List (Header × Bytes)) (s : State) :
    (offerEntries pq l0 s).sec = s.sec := by
  induction l0 generalizing s with
  | nil => simp [offerEntries]
  | cons a t ih =>
    simp only [offerEntries]
    (repeat' (split <;> try dsimp only)) <;> simp_all

@[simp] theorem withEntry_sec (s : State) (d : Desc) (b : Bytes) :
    (withEntry s d b).sec = s.sec := by
  simp [withEntry]

@[simp] theorem pipeRecv_sec (s : State) (c : Cmd) :
    (pipeRecv s c).sec = s.sec := by
  unfold pipeRecv
  try dsimp only
  (repeat' (split <;> try dsimp only)) <;> simp_all

@[simp] theorem sendCredit_sec (s : State) (pq : Nat) (peer : Nat) (laxis : Nat) (epoch : Nat) :
    (sendCredit s pq peer laxis epoch).sec = s.sec := by
  simp [sendCredit]

@[simp] theorem signalToken_sec (s : State) (n : Nat) :
    (signalToken s n).sec = s.sec := by
  unfold signalToken
  try dsimp only
  (repeat' (split <;> try dsimp only)) <;> simp_all

/-! ## Machine/CmdProc.lean -/

@[simp] theorem ringDoorbell_sec (s : State) (q : Nat) (w : Word) :
    (ringDoorbell s q w).sec = s.sec := by
  unfold ringDoorbell
  try dsimp only
  (repeat' (split <;> try dsimp only)) <;> simp_all

@[simp] theorem enableQueue_sec (s : State) (q : Nat) :
    (enableQueue s q).sec = s.sec := by
  unfold enableQueue
  try dsimp only
  (repeat' (split <;> try dsimp only)) <;> simp_all

@[simp] theorem disableQueue_sec (s : State) (q : Nat) :
    (disableQueue s q).sec = s.sec := by
  unfold disableQueue
  try dsimp only
  (repeat' (split <;> try dsimp only)) <;> simp_all

@[simp] theorem pauseQueue_sec (s : State) (q : Nat) (on : Bool) :
    (pauseQueue s q on).sec = s.sec := by
  simp [pauseQueue]

@[simp] theorem expireWait_sec (s : State) (q : Nat) :
    (expireWait s q).sec = s.sec := by
  unfold expireWait
  try dsimp only
  (repeat' (split <;> try dsimp only)) <;> simp_all

@[simp] theorem expireUpdate_sec (s : State) (q : Nat) :
    (expireUpdate s q).sec = s.sec := by
  unfold expireUpdate
  try dsimp only
  (repeat' (split <;> try dsimp only)) <;> simp_all

@[simp] theorem retestWait_sec (s : State) (cid : Nat) :
    (retestWait s cid).sec = s.sec := by
  unfold retestWait
  try dsimp only
  (repeat' (split <;> try dsimp only)) <;> simp_all

@[simp] theorem retestWaits_sec (l0 : List Nat) (s : State) :
    (retestWaits l0 s).sec = s.sec := by
  induction l0 generalizing s with
  | nil => simp [retestWaits]
  | cons a t ih =>
    simp only [retestWaits]
    (repeat' (split <;> try dsimp only)) <;> simp_all

@[simp] theorem setTimeout_sec (s : State) (q : Nat) (w : Word) :
    (setTimeout s q w).sec = s.sec := by
  simp [setTimeout]

@[simp] theorem setRhead_sec (s : State) (q : Nat) (w : Word) :
    (setRhead s q w).sec = s.sec := by
  simp [setRhead]

@[simp] theorem queueWrite_sec (s : State) (q : Nat) (off : Nat) (w : Word) :
    (queueWrite s q off w).sec = s.sec := by
  unfold queueWrite
  try dsimp only
  (repeat' (split <;> try dsimp only)) <;> simp_all

@[simp] theorem sectorOutcome_sec (s : State) (a : Nat) (k : Sector) (seen : Bool) :
    (sectorOutcome s a k seen).sec = s.sec := by
  unfold sectorOutcome
  try dsimp only
  (repeat' (split <;> try dsimp only)) <;> simp_all

@[simp] theorem rejectPacket_sec (s : State) (c : Cmd) (e : Err) :
    (rejectPacket s c e).sec = s.sec := by
  simp [rejectPacket]

@[simp] theorem extFails_sec (s : State) (b : Bytes) (c : Cmd) :
    (extFails s b c).sec = s.sec := by
  unfold extFails
  try dsimp only
  (repeat' (split <;> try dsimp only)) <;> simp_all

@[simp] theorem takePacket_sec (s : State) (q : Nat) (slot : Word) (b : Bytes) (zeros : Bool) (note : Nat) (ext : Sector) :
    (takePacket s q slot b zeros note ext).sec = s.sec := by
  unfold takePacket
  try dsimp only
  (repeat' (split <;> try dsimp only)) <;> simp_all

@[simp] theorem fetchFails_sec (s : State) (q : Nat) (slot : Word) (a : Nat) :
    (fetchFails s q slot a).sec = s.sec := by
  unfold fetchFails
  try dsimp only
  (repeat' (split <;> try dsimp only)) <;> simp_all

@[simp] theorem fetchPacket_sec (s : State) (q : Nat) (host : HostRead) (hbm : Sector) (ext : Sector) :
    (fetchPacket s q host hbm ext).sec = s.sec := by
  unfold fetchPacket
  try dsimp only
  (repeat' (split <;> try dsimp only)) <;> simp_all

@[simp] theorem takeSeats_sec (c : Cmd) (l0 : List Nat) (s : State) :
    (takeSeats c l0 s).sec = s.sec := by
  induction l0 generalizing s with
  | nil => simp [takeSeats]
  | cons a t ih =>
    simp only [takeSeats]
    (repeat' (split <;> try dsimp only)) <;> simp_all

@[simp] theorem launch_sec (s : State) (c : Cmd) :
    (launch s c).sec = s.sec := by
  unfold launch
  try dsimp only
  (repeat' (split <;> try dsimp only)) <;> simp_all

@[simp] theorem dispatchCmd_sec (s : State) (c : Cmd) :
    (dispatchCmd s c).sec = s.sec := by
  unfold dispatchCmd
  try dsimp only
  (repeat' (split <;> try dsimp only)) <;> simp_all

@[simp] theorem dispatchNext_sec (s : State) (q : Nat) :
    (dispatchNext s q).sec = s.sec := by
  unfold dispatchNext
  try dsimp only
  (repeat' (split <;> try dsimp only)) <;> simp_all

@[simp] theorem springIdle_sec (s : State) :
    (springIdle s).sec = s.sec := by
  unfold springIdle
  try dsimp only
  (repeat' (split <;> try dsimp only)) <;> simp_all

@[simp] theorem flipCur_sec (s : State) (id : Nat) :
    (flipCur s id).sec = s.sec := by
  simp [flipCur]

@[simp] theorem enterVerdict_sec (s : State) (nonfinite : Bool) (excluded : Bool) (backup : Bool) (final : Bool) (offender : Nat) (count : Nat) (mine : Bool) :
    (enterVerdict s nonfinite excluded backup final offender count mine).sec = s.sec := by
  simp [enterVerdict]

@[simp] theorem applyEffect_sec (s : State) (c : Cmd) (e : Effect) :
    (applyEffect s c e).sec = s.sec := by
  unfold applyEffect
  try dsimp only
  (repeat' (split <;> try dsimp only)) <;> simp_all

@[simp] theorem applyEffects_sec (c : Cmd) (l0 : List Effect) (s : State) :
    (applyEffects c l0 s).sec = s.sec := by
  induction l0 generalizing s with
  | nil => simp [applyEffects]
  | cons a t ih =>
    simp only [applyEffects]
    (repeat' (split <;> try dsimp only)) <;> simp_all

@[simp] theorem holdCommit_sec (s : State) (c : Cmd) (r : Result) :
    (holdCommit s c r).sec = s.sec := by
  simp [holdCommit]

@[simp] theorem commitEffects_sec (s : State) (c : Cmd) (r : Result) :
    (commitEffects s c r).sec = s.sec := by
  unfold commitEffects
  try dsimp only
  (repeat' (split <;> try dsimp only)) <;> simp_all

@[simp] theorem commitCmd_sec (s : State) (c : Cmd) (r : Result) :
    (commitCmd s c r).sec = s.sec := by
  simp [commitCmd]

@[simp] theorem writeReply_sec (s : State) (q : Nat) (r : Reply) (rest : List Reply) :
    (writeReply s q r rest).sec = s.sec := by
  unfold writeReply
  try dsimp only
  (repeat' (split <;> try dsimp only)) <;> simp_all

@[simp] theorem tryReply_sec (s : State) (q : Nat) (hbm : Sector) :
    (tryReply s q hbm).sec = s.sec := by
  unfold tryReply
  try dsimp only
  (repeat' (split <;> try dsimp only)) <;> simp_all

/-! ## Machine/Meres.lean -/

@[simp] theorem sliceLoad_sec (s : State) (c : Cmd) (mere : Nat) (region : Nat) (n : Nat) :
    (sliceLoad s c mere region n).sec = s.sec := by
  unfold sliceLoad
  try dsimp only
  (repeat' (split <;> try dsimp only)) <;> simp_all

@[simp] theorem startOn_sec (s : State) (cid : Nat) (phys : Nat) :
    (startOn s cid phys).sec = s.sec := by
  simp [startOn]

@[simp] theorem startAll_sec (cid : Nat) (l0 : List Nat) (s : State) :
    (startAll cid l0 s).sec = s.sec := by
  induction l0 generalizing s with
  | nil => simp [startAll]
  | cons a t ih =>
    simp only [startAll]
    (repeat' (split <;> try dsimp only)) <;> simp_all

@[simp] theorem stalled_sec (s : State) (mere : Nat) :
    (stalled s mere).sec = s.sec := by
  simp [stalled]

@[simp] theorem corrected_sec (s : State) (fixed : Nat) :
    (corrected s fixed).sec = s.sec := by
  simp [corrected]

@[simp] theorem sliceDone_sec (s : State) (c : Cmd) (mere : Nat) (array : Bool) (tile : Nat) (slice : Nat) (fixed : Nat) :
    (sliceDone s c mere array tile slice fixed).sec = s.sec := by
  unfold sliceDone
  try dsimp only
  (repeat' (split <;> try dsimp only)) <;> simp_all

@[simp] theorem combineAdd_sec (s : State) (c : Cmd) (mere : Nat) (sender : Nat) (array : Bool) (tile : Nat) (fixed : Nat) :
    (combineAdd s c mere sender array tile fixed).sec = s.sec := by
  unfold combineAdd
  try dsimp only
  (repeat' (split <;> try dsimp only)) <;> simp_all

@[simp] theorem haloIn_sec (s : State) (c : Cmd) (mere : Nat) (sender : Nat) (fixed : Nat) :
    (haloIn s c mere sender fixed).sec = s.sec := by
  unfold haloIn
  try dsimp only
  (repeat' (split <;> try dsimp only)) <;> simp_all

@[simp] theorem drainBlock_sec (s : State) (c : Cmd) (mere : Nat) (array : Bool) (tile : Nat) (block : Nat) (fixed : Nat) :
    (drainBlock s c mere array tile block fixed).sec = s.sec := by
  unfold drainBlock
  try dsimp only
  (repeat' (split <;> try dsimp only)) <;> simp_all

/-! ## Machine/Package.lean -/

@[simp] theorem bundleDown_sec (s : State) (b : Nat) :
    (bundleDown s b).sec = s.sec := by
  unfold bundleDown
  try dsimp only
  (repeat' (split <;> try dsimp only)) <;> simp_all

@[simp] theorem retirePosition_sec (s : State) (b : Nat) (p : Nat) :
    (retirePosition s b p).sec = s.sec := by
  unfold retirePosition
  try dsimp only
  (repeat' (split <;> try dsimp only)) <;> simp_all

@[simp] theorem flitFails_sec (s : State) (b : Nat) (lane : Nat) (farEnd : Bool) (seq : Nat) (retrainOk : Bool) :
    (flitFails s b lane farEnd seq retrainOk).sec = s.sec := by
  unfold flitFails
  try dsimp only
  (repeat' (split <;> try dsimp only)) <;> simp_all

@[simp] theorem logMaps_sec (s : State) (b : Nat) :
    (logMaps s b).sec = s.sec := by
  unfold logMaps
  try dsimp only
  (repeat' (split <;> try dsimp only)) <;> simp_all

@[simp] theorem trainBundles_sec (bad : List (Nat × Nat)) (l0 : List Nat) (s : State) :
    (trainBundles bad l0 s).sec = s.sec := by
  induction l0 generalizing s with
  | nil => simp [trainBundles]
  | cons a t ih =>
    simp only [trainBundles]
    (repeat' (split <;> try dsimp only)) <;> simp_all

@[simp] theorem checkIdentities_sec (found : List (Nat × Bytes)) (l : List Nat) (s : State) :
    (checkIdentities found l s).1.sec = s.sec := rfl

@[simp] theorem repairStack_sec (s : State) (n : Nat) :
    (repairStack s n).sec = s.sec := by
  simp [repairStack]

@[simp] theorem foundRow_sec (s : State) (n : Nat) (key : Nat) :
    (foundRow s n key).1.sec = s.sec := by
  unfold foundRow
  try dsimp only
  (repeat' (split <;> try dsimp only)) <;> simp_all

@[simp] theorem foundRows_sec (n : Nat) (l0 : List Nat) (s : State) :
    (foundRows n l0 s).1.sec = s.sec := by
  induction l0 generalizing s with
  | nil => simp [foundRows]
  | cons a t ih =>
    simp only [foundRows]
    (repeat' (split <;> try dsimp only)) <;> simp_all

@[simp] theorem qualifyStack_sec (found : List (Nat × Bytes)) (bad : List Nat) (rows : List (Nat × Nat)) (n : Nat) (s : State) :
    (qualifyStack found bad rows n s).1.sec = s.sec := by
  simp [qualifyStack]

@[simp] theorem qualifyStacks_sec (found : List (Nat × Bytes)) (bad : List Nat) (rows : List (Nat × Nat)) (l0 : List Nat) (s : State) :
    (qualifyStacks found bad rows l0 s).1.sec = s.sec := by
  induction l0 generalizing s with
  | nil => simp [qualifyStacks]
  | cons a t ih =>
    simp only [qualifyStacks]
    (repeat' (split <;> try dsimp only)) <;> simp_all

@[simp] theorem trainCourse_sec (bad : List (Nat × Nat)) (found : List (Nat × Bytes)) (l0 : List (List Nat × List Nat)) (s : State) :
    (trainCourse bad found l0 s).1.sec = s.sec := by
  induction l0 generalizing s with
  | nil => simp [trainCourse]
  | cons a t ih =>
    simp only [trainCourse]
    (repeat' (split <;> try dsimp only)) <;> simp_all

@[simp] theorem cycleDomains_sec (s : State) (l : List Nat) :
    (cycleDomains s l).sec = s.sec := by
  simp [cycleDomains]

@[simp] theorem rejoinBegin_sec (s : State) (d : Nat) :
    (rejoinBegin s d).sec = s.sec := by
  simp [rejoinBegin]

@[simp] theorem rejoinFailed_sec (s : State) (d : Nat) (step : Nat) (abandoned : Bool) :
    (rejoinFailed s d step abandoned).sec = s.sec := by
  unfold rejoinFailed
  try dsimp only
  (repeat' (split <;> try dsimp only)) <;> simp_all

@[simp] theorem rejoinDone_sec (s : State) (d : Nat) :
    (rejoinDone s d).sec = s.sec := by
  unfold rejoinDone
  try dsimp only
  (repeat' (split <;> try dsimp only)) <;> simp_all

@[simp] theorem rejoinSteps_sec (s : State) (d : Nat) (rep : RejoinReport) :
    (rejoinSteps s d rep).sec = s.sec := by
  unfold rejoinSteps
  try dsimp only
  (repeat' (split <;> try dsimp only)) <;> simp_all

@[simp] theorem rejoinAttempt_sec (s : State) (d : Nat) (l0 : Option RejoinReport) :
    (rejoinAttempt s d l0).sec = s.sec := by
  unfold rejoinAttempt
  try dsimp only
  (repeat' (split <;> try dsimp only)) <;> simp_all

@[simp] theorem dieWrite_sec (s : State) (off : Nat) (v : Word) :
    (dieWrite s off v).sec = s.sec := by
  unfold dieWrite
  try dsimp only
  (repeat' (split <;> try dsimp only)) <;> simp_all

/-! ## Machine/Streams.lean -/

@[simp] theorem arrive_sec (est : List (Nat × Nat)) (n : Nat) (l0 : List HbmRequest) (s : State) :
    (arrive est n l0 s).sec = s.sec := by
  induction l0 generalizing s with
  | nil => simp [arrive]
  | cons a t ih =>
    simp only [arrive]
    (repeat' (split <;> try dsimp only)) <;> simp_all

@[simp] theorem windowStart_sec (s : State) (n : Nat) :
    (windowStart s n).sec = s.sec := by
  unfold windowStart
  try dsimp only
  (repeat' (split <;> try dsimp only)) <;> simp_all

@[simp] theorem passTime_sec (s : State) (n : Nat) (gap : Nat) :
    (passTime s n gap).sec = s.sec := by
  simp [passTime]

@[simp] theorem slotGrant_sec (s0 : State) (n : Nat) (gap : Nat) (background : Bool) (arrivals : List HbmRequest) (est : List (Nat × Nat)) :
    (slotGrant s0 n gap background arrivals est).sec = s0.sec := by
  unfold slotGrant
  try dsimp only
  (repeat' (split <;> try dsimp only)) <;> simp_all

@[simp] theorem sshareSet_sec (s : State) (d : Nat) (v : Word) :
    (sshareSet s d v).sec = s.sec := by
  unfold sshareSet
  try dsimp only
  (repeat' (split <;> try dsimp only)) <;> simp_all

@[simp] theorem streamWrite_sec (s : State) (d : Nat) (off : Nat) (v : Word) :
    (streamWrite s d off v).sec = s.sec := by
  unfold streamWrite
  try dsimp only
  (repeat' (split <;> try dsimp only)) <;> simp_all

/-! ## Machine/Regs.lean -/

@[simp] theorem portWrite_sec (s : State) (p : Nat) (off : Nat) (w : Word) :
    (portWrite s p off w).sec = s.sec := by
  unfold portWrite
  try dsimp only
  (repeat' (split <;> try dsimp only)) <;> simp_all

@[simp] theorem mailboxIn_sec (s : State) (v : DWord) :
    (mailboxIn s v).sec = s.sec := by
  simp [mailboxIn]

@[simp] theorem wideSet_sec (s : State) (off : Nat) (v : DWord) :
    (wideSet s off v).sec = s.sec := by
  unfold wideSet
  try dsimp only
  (repeat' (split <;> try dsimp only)) <;> simp_all

@[simp] theorem wideUpper_sec (s : State) (off : Nat) (w : Word) :
    (wideUpper s off w).sec = s.sec := by
  simp [wideUpper]

/-! ## Machine/Host.lean -/

@[simp] theorem outsideWrite_sec (s : State) (a : Nat) (b : Bytes) (hbm : Sector) :
    (outsideWrite s a b hbm).1.sec = s.sec := by
  unfold outsideWrite
  try dsimp only
  (repeat' (split <;> try dsimp only)) <;> simp_all

@[simp] theorem outsideRead_sec (s : State) (a : Nat) (n : Nat) (hbm : Sector) :
    (outsideRead s a n hbm).1.sec = s.sec := by
  unfold outsideRead
  try dsimp only
  (repeat' (split <;> try dsimp only)) <;> simp_all

@[simp] theorem countAperr_sec (s : State) :
    (countAperr s).sec = s.sec := by
  simp [countAperr]

@[simp] theorem viaMiss_sec (s : State) (l0 : Via) :
    (viaMiss s l0).sec = s.sec := by
  unfold viaMiss
  try dsimp only
  (repeat' (split <;> try dsimp only)) <;> simp_all

@[simp] theorem apertureRead_sec (s : State) (via : Via) (off : Nat) (len : Nat) (hbm : Sector) :
    (apertureRead s via off len hbm).sec = s.sec := by
  unfold apertureRead
  have h1 := outsideRead_sec s (viaAddr s off via) len hbm
  try dsimp only
  (repeat' (split <;> try dsimp only)) <;> simp_all

@[simp] theorem configWrite_sec (s : State) (off : Nat) (w : Word) :
    (configWrite s off w).sec = s.sec := by
  unfold configWrite
  try dsimp only
  (repeat' (split <;> try dsimp only)) <;> simp_all

@[simp] theorem configRequest_sec (s : State) (off : Nat) (write : Option Word) :
    (configRequest s off write).sec = s.sec := by
  unfold configRequest
  try dsimp only
  (repeat' (split <;> try dsimp only)) <;> simp_all

@[simp] theorem dpFail_sec (s : State) (e : Nat) :
    (dpFail s e).sec = s.sec := by
  simp [dpFail]

@[simp] theorem dpNext_sec (s : State) :
    (dpNext s).sec = s.sec := by
  unfold dpNext
  try dsimp only
  (repeat' (split <;> try dsimp only)) <;> simp_all

@[simp] theorem dpRead_sec (s : State) (hbm : Sector) :
    (dpRead s hbm).1.sec = s.sec := by
  unfold dpRead
  have h1 := outsideRead_sec s (dpAt s) 4 hbm
  try dsimp only
  (repeat' (split <;> try dsimp only)) <;> simp_all

@[simp] theorem dpCtrlWrite_sec (s : State) (w : Word) :
    (dpCtrlWrite s w).sec = s.sec := rfl

/-! ## Machine/Mgmt.lean -/

@[simp] theorem setMgtLink_sec (s : State) (p : Nat) (up : Bool) (rate : Nat) :
    (setMgtLink s p up rate).sec = s.sec := by
  unfold setMgtLink
  try dsimp only
  (repeat' (split <;> try dsimp only)) <;> simp_all

@[simp] theorem networkFrame_sec (s : State) (p : Nat) (f : NetFrame) :
    (networkFrame s p f).sec = s.sec := by
  unfold networkFrame
  try dsimp only
  (repeat' (split <;> try dsimp only)) <;> simp_all

@[simp] theorem discstatWrite_sec (s : State) (w : Word) :
    (discstatWrite s w).sec = s.sec := by
  simp [discstatWrite]

@[simp] theorem dpLoad_sec (s : State) (a : DWord) :
    (dpLoad s a).sec = s.sec := by
  simp [dpLoad]

@[simp] theorem dpHalfWrite_sec (s : State) (high : Bool) (w : Word) :
    (dpHalfWrite s high w).sec = s.sec := by
  unfold dpHalfWrite
  try dsimp only
  (repeat' (split <;> try dsimp only)) <;> simp_all

@[simp] theorem dpRegRead_sec (s : State) (off : Nat) (len : Nat) (hbm : Sector) :
    (dpRegRead s off len hbm).1.sec = s.sec := by
  unfold dpRegRead
  have h1 := dpRead_sec s hbm
  try dsimp only
  (repeat' (split <;> try dsimp only)) <;> simp_all

@[simp] theorem burstRead_sec (l0 : Nat) (s : State) (l2 : Sector) :
    (burstRead l0 s l2).1.sec = s.sec := by
  induction l0 generalizing s l2 with
  | zero => simp [burstRead]
  | succ n ih =>
    have h1 := dpRead_sec s l2
    simp only [burstRead]
    split <;> rename_i h2 <;> rw [h2] at h1 <;> simp_all

@[simp] theorem burstLoad_sec (s : State) (a : Nat) (n : Nat) :
    (burstLoad s a n).sec = s.sec := by
  simp [burstLoad]

@[simp] theorem serveBurstRead_sec (s : State) (b : Bytes) (hbm : Sector) :
    (serveBurstRead s b hbm).1.sec = s.sec := by
  unfold serveBurstRead
  try dsimp only
  (repeat' (split <;> try dsimp only)) <;> simp_all

@[simp] theorem serveRegisterRead_sec (s : State) (b : Bytes) (hbm : Sector) :
    (serveRegisterRead s b hbm).1.sec = s.sec := by
  unfold serveRegisterRead
  have h1 := dpRegRead_sec s (field b 0x10 8) (dgLength b) hbm
  try dsimp only
  (repeat' (split <;> try dsimp only)) <;> simp_all

@[simp] theorem datagram_sec (s : State) (p : Nat) (op : Nat) (b : Bytes) (serve : State → Served) (hfserve : ∀ (x0 : State), (serve x0).1.sec = x0.sec) :
    (datagram s p op b serve).sec = s.sec := by
  unfold datagram
  try dsimp only
  (repeat' (split <;> try dsimp only)) <;> simp_all

@[simp] theorem smbWord_sec (v : Nat) (s : State) :
    (smbWord v s).sec = s.sec := by
  simp [smbWord]

@[simp] theorem smbBlock_sec (v : Nat) (s : State) :
    (smbBlock v s).sec = s.sec := by
  simp [smbBlock]

/-! ## Machine/Startup.lean -/

@[simp] theorem logImage_sec (s : State) (t : Nat) (check : Nat) (bank : Nat) :
    (logImage s t check bank).sec = s.sec := by
  simp [logImage]

@[simp] theorem endNoFirmware_sec (s : State) (code : Nat) :
    (endNoFirmware s code).sec = s.sec := by
  simp [endNoFirmware]

@[simp] theorem endSafe_sec (s : State) (code : Nat) :
    (endSafe s code).sec = s.sec := by
  simp [endSafe]

@[simp] theorem domainsOn_sec (s : State) (l : List Nat) :
    (domainsOn s l).sec = s.sec := by
  simp [domainsOn]

@[simp] theorem discoveryStep_sec (rep : StartReport) (k : Nat) (s : State) :
    (discoveryStep rep k s).1.sec = s.sec := by
  unfold discoveryStep
  try dsimp only
  (repeat' (split <;> try dsimp only)) <;> simp_all

@[simp] theorem discoverySteps_sec (rep : StartReport) (l0 : List Nat) (s : State) :
    (discoverySteps rep l0 s).1.sec = s.sec := by
  induction l0 generalizing s with
  | nil => simp [discoverySteps]
  | cons a t ih =>
    simp only [discoverySteps]
    (repeat' (split <;> try dsimp only)) <;> simp_all

@[simp] theorem discover_sec (s : State) (rep : StartReport) :
    (discover s rep).1.sec = s.sec := by
  unfold discover
  try dsimp only
  (repeat' (split <;> try dsimp only)) <;> simp_all

@[simp] theorem qualify_sec (s : State) (rep : StartReport) :
    (qualify s rep).1.sec = s.sec := by
  simp [qualify]

@[simp] theorem failMere_sec (s : State) (p : Nat) :
    (failMere s p).sec = s.sec := by
  simp [failMere]

@[simp] theorem placeSpares_sec (l0 : List Nat) (s : State) :
    (placeSpares l0 s).sec = s.sec := by
  induction l0 generalizing s with
  | nil => simp [placeSpares]
  | cons a t ih =>
    simp only [placeSpares]
    (repeat' (split <;> try dsimp only)) <;> simp_all

@[simp] theorem clusterStart_sec (s : State) (c : Nat) :
    (clusterStart s c).sec = s.sec := by
  simp [clusterStart]

@[simp] theorem testMeres_sec (s : State) (rep : StartReport) :
    (testMeres s rep).1.sec = s.sec := by
  simp [testMeres]

@[simp] theorem failPort_sec (s : State) (p : Nat) :
    (failPort s p).sec = s.sec := by
  simp [failPort]

@[simp] theorem testPorts_sec (s : State) (rep : StartReport) :
    (testPorts s rep).1.sec = s.sec := by
  simp [testPorts]

/-! ## Machine/Pins.lean -/

@[simp] theorem dropHostReplies_sec (s : State) :
    (dropHostReplies s).sec = s.sec := rfl

@[simp] theorem perstFinish_sec (s : State) :
    (perstFinish s).sec = s.sec := by
  unfold perstFinish
  try dsimp only
  (repeat' (split <;> try dsimp only)) <;> simp_all

@[simp] theorem endpointReset_sec (s : State) :
    (endpointReset s).sec = s.sec := by
  unfold endpointReset
  try dsimp only
  (repeat' (split <;> try dsimp only)) <;> simp_all

@[simp] theorem inputTrip_sec (s : State) :
    (inputTrip s).sec = s.sec := by
  simp [inputTrip]

@[simp] theorem lose25_sec (s : State) :
    (lose25 s).sec = s.sec := by
  simp [lose25]

@[simp] theorem logReference_sec (s : State) (which : Nat) :
    (logReference s which).sec = s.sec := by
  simp [logReference]

@[simp] theorem referenceLost_sec (s : State) (which : Nat) :
    (referenceLost s which).sec = s.sec := by
  unfold referenceLost
  try dsimp only
  (repeat' (split <;> try dsimp only)) <;> simp_all

/-! ## The fuses -/

/-- The fuses of the security engine: the seal, the jumper, the revoked slots, the fused floors (R370, R377, R379). -/
def Security.fuses (x : Security) : Bool × Bool × List Nat × Map Nat := (x.sealFuse, x.jumperFused, x.revoked, x.floors)

@[simp] theorem Security.fuses_fold (x : Security) : (x.sealFuse, x.jumperFused, x.revoked, x.floors) = x.fuses := rfl

@[simp] theorem Security.fuses_mk (a : List Nat) (b c d e : Bool) (w : Nat) (p q r : Bool) (f g : Map Nat) (n : Nat) (x : Map Banks)
    (y : Map Image) (z : Bool) (k : Nat) (u v : Bytes) :
    (Security.mk a b c d e w p q r f g n x y z k u v).fuses = (b, d, a, f) := rfl

@[simp] theorem sigFail_fuses (s : State) (typ : Nat) :
    (sigFail s typ).1.sec.fuses = s.sec.fuses := by
  simp [sigFail]

@[simp] theorem storePending_fuses (s : State) (i : Image) :
    (storePending s i).sec.fuses = s.sec.fuses := by
  simp [storePending]

@[simp] theorem storeImage_fuses (s : State) (host : HostRead) (downgrade : Bool) (floor : Nat → Nat) :
    (storeImage s host downgrade floor).1.sec.fuses = s.sec.fuses := by
  unfold storeImage
  try dsimp only
  (repeat' (split <;> try dsimp only)) <;> simp_all

@[simp] theorem runFwDowngrade_fuses (s : State) (u1 : Cmd) (host : HostRead) :
    (runFwDowngrade s u1 host).1.sec.fuses = s.sec.fuses := by
  simp [runFwDowngrade]

@[simp] theorem runDebugUnlock_fuses (s : State) (u1 : Cmd) (host : HostRead) :
    (runDebugUnlock s u1 host).1.sec.fuses = s.sec.fuses := by
  unfold runDebugUnlock
  try dsimp only
  (repeat' (split <;> try dsimp only)) <;> simp_all

@[simp] theorem jumperOut_fuses (s : State) :
    (jumperOut s).sec.fuses = s.sec.fuses := by
  simp [jumperOut]

@[simp] theorem jumperIgnoreSet_fuses (s : State) (on : Bool) :
    (jumperIgnoreSet s on).sec.fuses = s.sec.fuses := by
  unfold jumperIgnoreSet
  try dsimp only
  (repeat' (split <;> try dsimp only)) <;> simp_all

@[simp] theorem secWrite_fuses (s : State) (off : Nat) (v : Word) :
    (secWrite s off v).sec.fuses = s.sec.fuses := by
  unfold secWrite
  try dsimp only
  (repeat' (split <;> try dsimp only)) <;> simp_all

@[simp] theorem runFwUpdate_fuses (s : State) (u1 : Cmd) (host : HostRead) :
    (runFwUpdate s u1 host).1.sec.fuses = s.sec.fuses := by
  simp [runFwUpdate]

@[simp] theorem bar0Write_fuses (s : State) (off : Nat) (w : Word) :
    (bar0Write s off w).sec.fuses = s.sec.fuses := by
  unfold bar0Write
  try dsimp only
  (repeat' (split <;> try dsimp only)) <;> simp_all

@[simp] theorem writeWord_fuses (s : State) (off : Nat) (w : Word) :
    (writeWord s off w).sec.fuses = s.sec.fuses := by
  unfold writeWord
  try dsimp only
  (repeat' (split <;> try dsimp only)) <;> simp_all

@[simp] theorem writeBar0_fuses (s : State) (off : Nat) (size : Nat) (v : DWord) :
    (writeBar0 s off size v).sec.fuses = s.sec.fuses := by
  unfold writeBar0
  try dsimp only
  (repeat' (split <;> try dsimp only)) <;> simp_all

@[simp] theorem dpWrite_fuses (s : State) (w : Word) (hbm : Sector) :
    (dpWrite s w hbm).1.sec.fuses = s.sec.fuses := by
  unfold dpWrite
  have h1 := outsideWrite_sec s (dpAt s) (toLe 4 w.toNat) hbm
  try dsimp only
  (repeat' (split <;> try dsimp only)) <;> simp_all

@[simp] theorem dpRegWrite_fuses (s : State) (off : Nat) (b : Bytes) (hbm : Sector) :
    (dpRegWrite s off b hbm).1.sec.fuses = s.sec.fuses := by
  unfold dpRegWrite
  have h1 := dpWrite_fuses s (BitVec.ofNat 32 (leNat b)) hbm
  try dsimp only
  (repeat' (split <;> try dsimp only)) <;> simp_all

@[simp] theorem burstWrite_fuses (l0 : Nat) (s : State) (l2 : Bytes) (l3 : Sector) :
    (burstWrite l0 s l2 l3).1.sec.fuses = s.sec.fuses := by
  induction l0 generalizing s l2 l3 with
  | zero => simp [burstWrite]
  | succ n ih =>
    have h1 := dpWrite_fuses s (BitVec.ofNat 32 (field l2 0 4)) l3
    simp only [burstWrite]
    split <;> rename_i h2 <;> rw [h2] at h1 <;> simp_all

@[simp] theorem serveBurstWrite_fuses (s : State) (b : Bytes) (hbm : Sector) :
    (serveBurstWrite s b hbm).1.sec.fuses = s.sec.fuses := by
  unfold serveBurstWrite
  try dsimp only
  (repeat' (split <;> try dsimp only)) <;> simp_all

@[simp] theorem serveRegisterWrite_fuses (s : State) (b : Bytes) (hbm : Sector) :
    (serveRegisterWrite s b hbm).1.sec.fuses = s.sec.fuses := by
  unfold serveRegisterWrite
  try dsimp only
  (repeat' (split <;> try dsimp only)) <;> simp_all

@[simp] theorem resetDies_fuses (s : State) :
    (resetDies s).sec.fuses = s.sec.fuses := by
  simp [resetDies]

@[simp] theorem allOff_fuses (s : State) :
    (allOff s).sec.fuses = s.sec.fuses := by
  simp [allOff]

@[simp] theorem powerOn_fuses (s : State) (straps : Nat) :
    (powerOn s straps).sec.fuses = s.sec.fuses := by
  simp [powerOn]

@[simp] theorem runImage_fuses (s : State) (t : Nat) (i : Option Image) (spare : Bool) :
    (runImage s t i spare).sec.fuses = s.sec.fuses := by
  unfold runImage
  try dsimp only
  (repeat' (split <;> try dsimp only)) <;> simp_all

@[simp] theorem bootType_fuses (s : State) (rep : StartReport) (t : Nat) :
    (bootType s rep t).1.sec.fuses = s.sec.fuses := by
  unfold bootType
  try dsimp only
  (repeat' (split <;> try dsimp only)) <;> simp_all

@[simp] theorem activateType_fuses (s : State) (t : Nat) :
    (activateType s t).sec.fuses = s.sec.fuses := by
  unfold activateType
  try dsimp only
  (repeat' (split <;> try dsimp only)) <;> simp_all

@[simp] theorem activateImages_fuses (s : State) :
    (activateImages s).sec.fuses = s.sec.fuses := by
  simp [activateImages]

@[simp] theorem endpointUp_fuses (s : State) :
    (endpointUp s).sec.fuses = s.sec.fuses := by
  unfold endpointUp
  try dsimp only
  (repeat' (split <;> try dsimp only)) <;> simp_all

@[simp] theorem becomeReady_fuses (s : State) (rep : StartReport) :
    (becomeReady s rep).sec.fuses = s.sec.fuses := by
  unfold becomeReady
  try dsimp only
  (repeat' (split <;> try dsimp only)) <;> simp_all

@[simp] theorem startCores_fuses (s : State) (rep : StartReport) :
    (startCores s rep).sec.fuses = s.sec.fuses := by
  unfold startCores
  try dsimp only
  (repeat' (split <;> try dsimp only)) <;> simp_all

@[simp] theorem startUnits_fuses (s : State) (rep : StartReport) :
    (startUnits s rep).sec.fuses = s.sec.fuses := by
  unfold startUnits
  try dsimp only
  (repeat' (split <;> try dsimp only)) <;> simp_all

@[simp] theorem startDies_fuses (s : State) (rep : StartReport) :
    (startDies s rep).sec.fuses = s.sec.fuses := by
  unfold startDies
  try dsimp only
  (repeat' (split <;> try dsimp only)) <;> simp_all

@[simp] theorem startUp_fuses (s : State) (rep : StartReport) :
    (startUp s rep).sec.fuses = s.sec.fuses := by
  unfold startUp
  try dsimp only
  (repeat' (split <;> try dsimp only)) <;> simp_all

@[simp] theorem tryStart_fuses (s : State) (rep : StartReport) :
    (tryStart s rep).sec.fuses = s.sec.fuses := by
  unfold tryStart
  try dsimp only
  (repeat' (split <;> try dsimp only)) <;> simp_all

@[simp] theorem inputLost_fuses (s : State) (volts : Nat) :
    (inputLost s volts).sec.fuses = s.sec.fuses := by
  simp [inputLost]

@[simp] theorem powerBad_fuses (s : State) :
    (powerBad s).sec.fuses = s.sec.fuses := by
  simp [powerBad]

@[simp] theorem tick_fuses (s : State) :
    (tick s).sec.fuses = s.sec.fuses := by
  unfold tick
  try dsimp only
  (repeat' (split <;> try dsimp only)) <;> simp_all

theorem FusesKept.of_fuses {a b : Security} (h : b.fuses = a.fuses) : FusesKept a b := by
  simp only [Security.fuses, Prod.mk.injEq] at h
  obtain ⟨h1, h2, h3, h4⟩ := h
  exact ⟨by rw [h1]; exact id, by rw [h2]; exact id, fun k _ hk => by rw [h3]; exact hk, fun t => by rw [h4]⟩

theorem FusesKept.of_sec {a b : Security} (h : b = a) : FusesKept a b := .of_fuses (by rw [h])

theorem FusesKept.trans {a b c : Security} (h : FusesKept a b) (g : FusesKept b c) : FusesKept a c :=
  ⟨fun x => g.seal_ (h.seal_ x), fun x => g.jumper_ (h.jumper_ x), fun k hk x => g.keys_ k hk (h.keys_ k hk x),
   fun t => (h.floors_ t).trans (g.floors_ t)⟩

/-- The broken seal burns its fuse. -/
theorem sealOpen_kept (s : State) : FusesKept s.sec (sealOpen s).sec := by
  unfold sealOpen
  dsimp only
  split
  · exact .of_sec rfl
  · exact .trans (b := { s.sec with sealFuse := true }) ⟨fun _ => rfl, id, fun _ _ h => h, fun _ => le_refl _⟩ (.of_sec (by simp))

/-- KEY_ROTATE keeps every revoked slot. -/
theorem runKeyRotate_kept (s : State) (c : Cmd) : FusesKept s.sec (runKeyRotate s c).1.sec := by
  unfold runKeyRotate
  dsimp only
  split
  · exact .of_sec rfl
  · split
    · exact .of_sec rfl
    · refine ⟨id, id, fun k hk h => ?_, fun _ => le_refl _⟩
      simp only [List.mem_filter, List.mem_range]
      exact ⟨hk, by simp [h]⟩

/-- FUSE_WRITE only raises a floor. -/
theorem runFuseWrite_kept (s : State) (c : Cmd) : FusesKept s.sec (runFuseWrite s c).1.sec := by
  unfold runFuseWrite
  dsimp only
  split
  · exact ⟨id, fun _ => rfl, fun _ _ h => h, fun _ => le_refl _⟩
  · split
    · exact .of_sec rfl
    · rename_i h
      refine ⟨id, id, fun _ _ h => h, fun t => ?_⟩
      simp only [not_or, not_le, fusedFloor] at h
      by_cases ht : t = c.arg 0x11 1
      · subst ht
        simp only [mget_mput_same]
        omega
      · simp [mget_mput_ne, ht]

/-- An input taken as invalid. -/
theorem takenFor_kept (s : State) (idx : Nat) : FusesKept s.sec (takenFor s idx).sec := by
  unfold takenFor
  repeat' split
  all_goals first
    | exact sealOpen_kept s
    | exact .of_fuses (by simp)

/-- A command that presence allows, or not. -/
theorem privileged_kept (s : State) (c : Cmd) (r : State × Err) (h : FusesKept s.sec r.1.sec) :
    FusesKept s.sec (privileged s c r).1.sec := by
  unfold privileged
  split
  · exact h
  · exact .of_sec rfl

/-- A command of the groups 0x0E and 0x0F. -/
theorem runManagement_kept (s : State) (c : Cmd) (host : HostRead) : FusesKept s.sec (runManagement s c host).1.sec := by
  unfold runManagement
  split
  · exact privileged_kept _ _ _ (.of_fuses (by simp))
  · exact privileged_kept _ _ _ (runKeyRotate_kept s c)
  · exact privileged_kept _ _ _ (.of_fuses (by simp))
  · exact privileged_kept _ _ _ (.of_fuses (by simp))
  · exact privileged_kept _ _ _ (runFuseWrite_kept s c)
  all_goals exact .of_fuses (by simp)

/-- A management packet. -/
theorem runPacket_kept (s : State) (b : Bytes) (host : HostRead) : FusesKept s.sec (runPacket s b host).1.sec := by
  unfold runPacket
  dsimp only
  repeat' split
  all_goals first
    | exact runManagement_kept _ _ _
    | exact .of_sec rfl

/-- Op 5. -/
theorem serveCommand_kept (s : State) (b : Bytes) (host : HostRead) : FusesKept s.sec (serveCommand s b host).1.sec := by
  unfold serveCommand
  dsimp only
  split
  · exact runPacket_kept _ _ _
  · exact .of_sec rfl

end Sys2Proof.Machine
end

