-- ==== Sys2Proof/Tests/Slice0.lean ====
section
/-! SUPPORT. Tests: ill-formed commands that the check refuses, one small test of a value the manual states for each family,
and for each statement a state and operands that meet its hypotheses, clause by clause. -/

namespace Sys2Proof.Tests

open Sys2Proof.Machine

set_option Elab.async false

/-! ## Small states -/

/-- A module that runs, with a job of 64 queues, the link up, span 0 of window 0 mapped, and descriptors at 0x1000. -/
def live : State :=
  { State.reset with
    ctl := { Control.reset with kstate := 1, stage := 7, linkUp := true, endpointOn := true, powerGood := true }
    power := { Power.reset with domains := List.range 96 }
    dies := { Dies.reset with states := [(0, 1), (1, 1), (2, 1), (3, 1), (4, 1), (5, 1)] }
    job := { Job.reset with loaded := true, descCount := 64, descTable := 0x1000, queues := 64, counters := 100, meresPerDie := 128 }
    mem := { Memory.reset with
      spans0 := [(0, { owner := 0, frames := [0, 0, 0, 0, 0, 0, 0, 0] })]
      hstacks := (List.range 8).map (fun n => (n, { Stack.reset with present := true })) } }

/-- The same module without a job. -/
def bare : State := { live with job := Job.reset }

/-- Fields laid into a string of `n` zero bytes: offset, size, value. -/
def lay (n : Nat) (l : List (Nat × Nat × Nat)) : Bytes :=
  l.foldl (fun b e => patch b e.1 (toLe e.2.1 e.2.2)) (List.replicate n 0)

/-- A descriptor of one plane: base, half_bytes, planned extents, format, dflags. -/
def descOf (base half : Nat) (plan : List Nat) (fmt dflags : Nat) : Bytes :=
  toLe 8 base ++ toLe 8 half ++ (plan ++ List.replicate (4 - plan.length) 0).flatMap (toLe 4) ++ toLe 1 fmt ++ toLe 1 dflags ++
    toLe 1 plan.length ++ List.replicate 29 0

/-- A state with descriptor `id` written. -/
def desc (s : State) (id : Nat) (b : Bytes) : State := hbmWrite s (descAddr s id) b

/-- A command of queue `q`, dispatched, its parameters by packet offset. -/
def cmdOf (q op : Nat) (l : List (Nat × Nat × Nat)) : Cmd :=
  { cid := 7, q := q, slot := 0, version := 2, opcode := op, flags := 0, tag := 0x11, waits := [0, 0, 0, 0], signal := 9,
    sigInc := 0, params := lay 48 (l.map (fun e => (e.1 - 0x10, e.2))), ext := [], waitUs := 0, stage := .dispatched,
    rerun := false, started := true, order := 0, since := 0, begun := 0, step := 0, phase := 0, evalNo := 0, scale := 0, norm := 0,
    notes := 0, batches := 0, holds := false, refetched := [],
    result := none }

/-- A state with that command in flight. -/
def runs (s : State) (c : Cmd) : State := { s with cmds := s.cmds ++ [c] }

/-- Queue `q` enabled with a ring of 64 slots. -/
def ring (s : State) (q : Nat) : State :=
  setQueue s q { Queue.reset with enable := true, sQcfg := 6#32, sQbase := 0x10000#64, sRbase := 0x20000#64, qtail := 3#32 }

theorem dispatched_of (s : State) (cid op : Nat) (c : Cmd) (h : findCmd s cid = some c) (hs : c.stage = .dispatched)
    (ho : c.opcode = op) : Dispatched s cid op c := ⟨h, hs, ho⟩


/-- What a check that passes answers. -/
def passed {α : Type} (d : α) : Except Err α → α
  | .ok x => x
  | .error _ => d

/-- The error of a check that fails. -/
def failure {α : Type} : Except Err α → Err
  | .ok _ => (0, 0)
  | .error e => e

/-- Descriptors: 1, 2 and 4 BF16, 3 and 5 FP32, each one element under one row; 6 an empty drain program; 7 FP32 in two halves. -/
def tens : State :=
  let s := desc live 1 (descOf 0x10000 64 [1, 1] 1 0)
  let s := desc s 2 (descOf 0x11000 64 [1, 1] 1 0)
  let s := desc s 3 (descOf 0x12000 64 [1, 1] 0 0)
  let s := desc s 4 (descOf 0x13000 64 [1, 1] 1 0)
  let s := desc s 5 (descOf 0x14000 64 [1, 1] 0 0)
  let s := desc s 6 (descOf 0x15000 64 [1, 1] 0 0)
  hbmWrite (hbmWrite s 0x10000 [0x80#8, 0x3F#8]) 0x11000 [0x00#8, 0x40#8]

/-- A region word at an offset of the extended block: base, pitch, rows, flags. -/
def region (off base pitch rows flags : Nat) : List (Nat × Nat × Nat) :=
  [(off, 4, base), (off + 8, 2, pitch), (off + 0xC, 2, rows), (off + 0xE, 1, flags)]

/-- The region words of a tiling section: two operands, the second twice, and two staging regions. -/
def regions : List (Nat × Nat × Nat) :=
  region 0x10 0 8 64 1 ++ region 0x20 0x20000 8 64 1 ++ region 0x30 0x40000 8 64 1 ++ region 0x40 0x60000 4 128 0 ++
    region 0x50 0x70000 4 128 0

/-- An array command over descriptors `a`, `b` and `o`, all extents 1, one Mere. -/
def array (op a b o len : Nat) (ext more : List (Nat × Nat × Nat)) : Cmd :=
  { cmdOf 0 op ([(0x10, 2, a), (0x12, 2, b), (0x14, 2, o), (0x18, 1, 1), (0x19, 1, 1), (0x1A, 1, 0), (0x1C, 4, 1), (0x20, 4, 1),
      (0x24, 4, 1), (0x2B, 1, 1)] ++ more) with flags := 1, ext := lay len (regions ++ ext) }

/-- MATMUL of one element. -/
def mm : Cmd := array 0x0101 1 2 3 192 [] []

/-- MATMUL_BWD of one element: both products. -/
def mmBwd : Cmd := array 0x0102 1 2 3 256 [(0xC0, 2, 4), (0xC2, 1, 1)] [(0x16, 2, 5)]

/-- The window fields of a one-dimensional window of one position. -/
def window : List (Nat × Nat × Nat) :=
  [(0xC0, 1, 1), (0xC2, 2, 1), (0xC4, 2, 1), (0xC6, 1, 1), (0xC7, 1, 1), (0xC8, 2, 1), (0xCA, 2, 1), (0xCC, 1, 1), (0xCD, 1, 1),
    (0xCE, 1, 1), (0xDC, 2, 1)]

/-- CONV of one position. -/
def conv1 : Cmd := array 0x0103 1 2 3 256 (window ++ [(0xDA, 2, 1)]) []

/-- POOL of one position. -/
def pool1 : Cmd := array 0x0104 1 0 3 256 window []

/-- VECTOR over one element with an empty program. -/
def vec1 : Cmd := cmdOf 0 0x0105 [(0x10, 2, 1), (0x12, 2, 3), (0x14, 2, 6), (0x1C, 4, 1)]

/-- STATS SUMSQ over one element. -/
def stats1 : Cmd := cmdOf 0 0x0106 [(0x10, 2, 1), (0x12, 2, 3), (0x18, 4, 1)]

/-- ATTN_BLOCK forward over one query and one key: the outputs in two halves. -/
def attnState : State :=
  let s := desc live 1 (descOf 0x10000 128 [64, 1] 1 0)
  let s := desc s 2 (descOf 0x11000 128 [64, 1] 1 0)
  let s := desc s 3 (descOf 0x12000 128 [64, 1] 1 0)
  let s := desc s 4 (descOf 0x13000 256 [64, 1] 0 1)
  desc s 5 (descOf 0x14000 64 [2, 1] 0 1)

/-- The command over it, no key in reach. -/
def attn1 : Cmd :=
  cmdOf 0 0x0107 [(0x10, 2, 1), (0x12, 2, 2), (0x14, 2, 3), (0x16, 2, 4), (0x18, 2, 5), (0x20, 4, 1), (0x24, 4, 0), (0x28, 2, 64)]

/-! ## Ill-formed commands -/

/-- None of a list of commands is well-formed. -/
def refused (l : List Instr) : Bool := l.all (fun i => !i.wf)

/-- Queues are 0 to 64. -/
theorem test_wf_queue : refused [.packetFetch 65 .failed ⟨.clean, .clean⟩, .commandDispatch 65, .tokenWaitTimeout 65, .replyWrite 65 .clean,
    .replyRetry 65 .clean, .queueDoorbell 65 0, .queueEnable 65, .queueDisable 65, .queuePause 65 true, .qtimeoutWrite 65 0,
    .rheadUpdate 65 0] = true ∧ (Instr.queueDoorbell 64 0).wf = true := by
  decide

/-- Register accesses are 4 or 8 bytes, aligned; tags 1 to 255; gen_cap two bits. -/
theorem test_wf_register : refused [.registerWrite .host 0 2 0, .registerWrite .host 4 8 0, .registerWrite .host 2 4 0,
    .guardConfigWrite .host 0 .tcfg 0, .guardConfigWrite .host 256 .tcfg 0, .sshareWrite .host 2 0, .genCapWrite .host 0 4] = true ∧
    (Instr.registerWrite .host 8 8 0).wf = true ∧ (Instr.guardConfigWrite .host 255 .tlim 0).wf = true := by
  decide

/-- Streams are 0 to 15, and an output has a number below 16. -/
theorem test_wf_stream : refused [.sdshareWrite .host 16 0, .sourceTailWrite .host 16 false 0, .batchAssemblyStart 16, .recordRead 16,
    .fieldDecodeDone 16 0 0 (.bad 3) 0, .fieldDecodeDone 0 0 16 (.bad 3) 0, .decodeBudgetExpiry 16 0 0, .decodeBudgetExpiry 0 0 16,
    .batchDeadline 16, .batchCommit 16, .reserveRefill 16 []] = true ∧ (Instr.batchCommit 15).wf = true := by
  decide

/-- What a training attempt of no peer reports. -/
def noPeer : TrainReport :=
  { peer := false, peerGen := 0, peerCap := 0, peerMap := [], peerSerial := 0, peerPart := 0, peerPort := 0, badLanes := [],
    stepsInBound := true }

/-- Ports are 0 to 23, their lanes 0 to 9, their coefficients four. -/
theorem test_wf_port : refused [.portRetrain .host 24, .portEnable .host 24, .portDisable .host 24, .genCapWrite .host 24 1,
    .portTrainingAttempt 24 noPeer, .portTrainingRetry 24, .linkFlitSend 24, .linkFlitReceive 24 [], .replayTimeout 24 true,
    .portSilenceTimeout 24, .laneFailure 24 0 true, .laneFailure 0 10 true, .fecWindowEnd 24, .eqAdapt 24 [], .eqRequest 24 0 0 true,
    .eqRequest 0 10 0 true, .eqRequest 0 0 4 true, .portPhaseSwitch 24] = true ∧ (Instr.laneFailure 23 9 true).wf = true := by
  decide

/-- Bundles are 0 to 6 of 68 lanes; dies that rejoin 0 to 4. -/
theorem test_wf_bundle : refused [.bundleFlitCrcFail 7 ⟨0, true, 0⟩ true, .bundleFlitCrcFail 0 ⟨68, true, 0⟩ true, .bundleWindowEnd 7, .bundleLivenessSend 7 true,
    .bundleLivenessTimeout 7, .rejoinAttempt 5 none, .rejoinRetryTimer 5] = true ∧
    (Instr.bundleFlitCrcFail 6 ⟨67, true, 0⟩ true).wf = true := by
  decide

/-- Physical Meres are 0 to 271. -/
theorem test_wf_mere : refused [.sliceLoadDone 0 272 0 0, .mereStart 272, .arraySliceDone 0 272 ⟨false, 0⟩ 0 0,
    .drainOutputBlock 0 272 ⟨false, 0⟩ 0 0, .stagedBlockWriteback 272 false, .combineReceive 0 272 0 ⟨false, 0⟩ 0,
    .combineReceive 0 0 272 ⟨false, 0⟩ 0, .haloReceive 0 272 0 0, .haloReceive 0 0 272 0] = true ∧ (Instr.mereStart 271).wf = true := by
  decide

/-- Clusters are 0 to 67, sensors 0 to 151, domains 0 to 95, stacks 0 to 7; a placement has 34 temperatures. -/
theorem test_wf_units : refused [.thermalLimitStep 68, .cpmCheck 68 .ample, .droopHoldExpiry 68 true, .frequencyStep 68,
    .monitorRecalibration 68, .ageingMeasurement 68 0, .thermalTrip 152 0 true, .junctionSensorRead 152 0, .sensorCalibration 152 0,
    .domainRampDone 96, .placementRemap 2 (List.replicate 34 0), .placementRemap 0 (List.replicate 33 0), .hbmSlotGrant 8 0 false [] [],
    .hbmFlitCrcFail 8 0 none, .stackTempReport 8 0, .hbmScrubRead 8 0 false .clean false,
    .hbmScrubRead 0 0x200000 false .clean false] = true ∧
    (Instr.placementRemap 1 (List.replicate 34 0)).wf = true := by
  decide

/-- Inputs are 0 to 6, reference clocks three, management ports two. -/
theorem test_wf_pins : refused [.inputGlitch 7, .inputInvalid 7, .referenceLost 3, .mgmtBurstRead 2 [] .clean, .mgmtBurstWrite 2 [] .clean,
    .mgmtRegisterRead 2 [] .clean, .mgmtRegisterWrite 2 [] .clean, .mgmtCommand 2 [] .failed, .mgtRateSearch 2, .mgtLinkUp 2,
    .mgtLinkDown 2, .mgmtNetworkFrame 2 .other] = true ∧ (Instr.inputGlitch 6).wf = true ∧ (Instr.referenceLost 2).wf = true := by
  decide

/-- A header of a class that does not exist. -/
def sixth : Header := { cls := 6, dst := 0, src := 0, id := 0, spec := 0 }

/-- Message classes are 0 to 5, mirror slots 0 to 255. -/
theorem test_wf_message : refused [.basinInputReceive sixth [], .closeWordReceive sixth [], .pullRequestReceive sixth [],
    .releaseWordReceive sixth [], .gatheredPieceReceive sixth [], .eddyBlockArrive sixth [], .eddyAccumulatorArrive sixth [],
    .pipeEntryArrive sixth [], .pipeCreditReceive sixth, .pipeEntryAcknowledge sixth true, .shortMessageReceive sixth [],
    .mirrorBlockReceive sixth [], .mirrorMessageReceive sixth .remove, .mirrorBreakTimeout 256] = true ∧
    (Instr.mirrorBreakTimeout 255).wf = true := by
  decide

/-- Scrub targets and error sites name units that exist. -/
theorem test_wf_site : refused [.sramScrub (.longLived 6) .clean, .sramScrub (.mere 272 false) .clean, .containedError (.mere 272 0),
    .containedError (.cluster 2 0 0), .containedError (.cluster 0 34 0), .containedError (.die 6 0 0)] = true ∧
    (Instr.containedError (.cluster 1 33 0)).wf = true ∧ (Instr.sramScrub (.mere 271 true) .clean).wf = true := by
  decide

/-- A unit that does not exist ends in the fault of that name. -/
theorem test_no_such_unit : exec (.portEnable .host 24) State.reset = .fault (.noSuchUnit "port" 24) := by rfl

/-! ## States and operands that meet the hypotheses of the statements -/

/-- A NOP packet of version 2, with a counter to signal. -/
def nopPacket : Bytes := lay 64 [(0, 2, 0x0708), (3, 1, 2), (4, 4, 0x55), (0xE, 2, 9)]

/-- A module with queue 0 enabled and a NOP waiting, which names counter 5 twice. -/
def waiting : State :=
  runs (setCounter (ring live 0) 5 { count := 2#16, poison := false })
    { cmdOf 0 0x0708 [] with stage := .fetched, waits := [5, 0, 5, 0] }

/-- The waiting command. -/
def waiter : Cmd := { cmdOf 0 0x0708 [] with stage := .fetched, waits := [5, 0, 5, 0] }

/-- A command whose work is done, with one write to make. -/
def done : Cmd := { cmdOf 0 0x0203 [] with stage := .executed, result := some (succeeded 0 [.write 0x5000 [1#8, 2#8]]) }

/-- A reply that waits. -/
def aReply : Reply :=
  { tag := 1, status := 0, detail := 0, opcode := 0x0708, rerun := false, seq := 0, step := 0, work := 0, elapsed := 0, irq := true }

/-- Queue 1 with a reply ring in device memory (R30) and a reply to write. -/
def hbmRing (held : Bool) : State :=
  setQueue live 1 { Queue.reset with enable := true, sQcfg := 0x40000006#32, sRbase := 0x20000#64, replies := [aReply], heldReply := held }

/-- Queue 0 of a module that runs, its ring in device memory. -/
def hbmQueue (b : Bytes) : State :=
  setQueue (hbmWrite live 0x10000 b) 0 { Queue.reset with enable := true, sQcfg := 0x80000006#32, sQbase := 0x10000#64, qtail := 3#32 }

/-- A MATMUL packet of version 2 whose pointer names an extended block. -/
def extPacket : Bytes := lay 16 [(0, 2, 0x0101), (2, 1, 1), (3, 1, 2)] ++ patch mm.params 0x28 (toLe 8 0x40000)

/-- Queue 0 of a module with that block in place. -/
def extQueue : State := ring (hbmWrite tens 0x40000 (patch mm.ext 0 (toLe 4 192))) 0

/-- Nine Meres of C0 retired. -/
def fewMeres : State := (List.range 9).foldl (fun s n => setMere s n { Mere.reset with retired := true }) (ring live 63)

/-- A command for Mere 127. -/
def lastMere : Cmd := { cmdOf 63 0x0107 [(0x30, 1, 127)] with stage := .fetched }

theorem witness_StepRunsTheFrontCommand :
    ∃ (c : Instr) (rest : List Instr) (s : State), s.pending = c :: rest :=
  ⟨.nop 1, [], { live with pending := [.nop 1] }, by decide +kernel⟩

theorem witness_IdleStepPassesOneMicrosecond :
    (∃ (s : State), s.pending = [] ∧ 95 ∉ s.power.domains) ∧
    (∃ (s : State), s.pending = [] ∧ 95 ∈ s.power.domains ∧ s.job.perstEnd = false) :=
  ⟨⟨{ live with power := { Power.reset with domains := [] } }, by decide +kernel⟩,
  ⟨live, by decide +kernel⟩⟩

theorem witness_EveryStepKeepsMemoryCanonical :
    ∃ (s t : State), Safe s ∧ step s = .next t :=
  ⟨live, tick live, by decide +kernel, rfl⟩

theorem witness_CommandsKeepTheQueue :
    ∃ (i : Instr) (s t : State), exec i s = .next t :=
  ⟨.nop 1, live, live, rfl⟩

theorem witness_EveryWellFormedCommandAnswers :
    ∃ (i : Instr), i.wf = true :=
  ⟨.queueDoorbell 64 0, by decide +kernel⟩

theorem witness_FusesNeverRecover :
    ∃ (s t : State), step s = .next t :=
  ⟨live, tick live, rfl⟩

theorem witness_NumbersRoundAndSumAsStated :
    ∃ (fmt code : Nat), fmt < 7 ∧ code < 2 ^ fwidth fmt ∧ decodeElem fmt code ≠ .nan :=
  ⟨6, 15, by decide +kernel⟩

theorem witness_DoorbellTakenOrOverrun :
    (∃ (s : State) (q : Nat) (w : Word) (n : Nat), q ≤ 64 ∧ barsUp s = true ∧ n = bits (if (getQueue s q).enable then
      (getQueue s q).sQcfg else (getQueue s q).qcfg).toNat 4 0 ∧ w = (getQueue s q).qtail) ∧
    (∃ (s : State) (q : Nat) (w : Word) (n : Nat), q ≤ 64 ∧ barsUp s = true ∧ n = bits (if (getQueue s q).enable then
      (getQueue s q).sQcfg else (getQueue s q).qcfg).toNat 4 0 ∧ w ≠ (getQueue s q).qtail ∧ 6 ≤ n ∧ n ≤ 16 ∧ (w -
      (getQueue s q).qhead).toNat ≤ 2 ^ n) ∧
    (∃ (s : State) (q : Nat) (w : Word) (n : Nat), q ≤ 64 ∧ barsUp s = true ∧ n = bits (if (getQueue s q).enable then
      (getQueue s q).sQcfg else (getQueue s q).qcfg).toNat 4 0 ∧ w ≠ (getQueue s q).qtail ∧ (n < 6 ∨ 16 < n ∨ 2 ^ n < (w -
      (getQueue s q).qhead).toNat)) :=
  ⟨⟨ring live 64, 64, 3, 6, by decide +kernel⟩,
  ⟨ring live 64, 64, 64, 6, by decide +kernel⟩,
  ⟨ring live 64, 64, 65, 6, by decide +kernel⟩⟩

theorem witness_QueueControlTakesEffect :
    (∃ (s : State) (q : Nat), q ≤ 64 ∧ barsUp s = true ∧ (getQueue s q).enable = false ∧ 6 ≤ bits (getQueue s
      q).qcfg.toNat 4 0 ∧ bits (getQueue s q).qcfg.toNat 4 0 ≤ 16 ∧ ((getQueue s q).qtail - (getQueue s q).qhead).toNat ≤
      2 ^ bits (getQueue s q).qcfg.toNat 4 0 ∧ (bit (getQueue s q).qcfg.toNat 31 = true ∨ 4096 ≤ (getQueue s
      q).qbase.toNat) ∧ (bit (getQueue s q).qcfg.toNat 30 = true ∨ 4096 ≤ (getQueue s q).rbase.toNat)) ∧
    (∃ (s : State) (q : Nat), q ≤ 64 ∧ barsUp s = true ∧ (getQueue s q).enable = false ∧ (bits (getQueue s q).qcfg.toNat 4
      0 < 6 ∨ 16 < bits (getQueue s q).qcfg.toNat 4 0 ∨ 2 ^ bits (getQueue s q).qcfg.toNat 4 0 < ((getQueue s q).qtail -
      (getQueue s q).qhead).toNat ∨ (bit (getQueue s q).qcfg.toNat 31 = false ∧ (getQueue s q).qbase.toNat < 4096) ∨ (bit
      (getQueue s q).qcfg.toNat 30 = false ∧ (getQueue s q).rbase.toNat < 4096))) ∧
    (∃ (s : State) (q : Nat), q ≤ 64 ∧ barsUp s = true ∧ dispatchedOf s q = 0) ∧
    (∃ (s : State) (q : Nat), q ≤ 64 ∧ barsUp s = true ∧ dispatchedOf s q ≠ 0) ∧
    (∃ (s : State) (q : Nat), q ≤ 64 ∧ barsUp s = true ∧ s.cmds = []) :=
  ⟨⟨(setQueue live 64 { Queue.reset with qcfg := 16#32, qbase := 4096#64, rbase := 4096#64, qtail := 65536#32 }), 64,
    by decide +kernel⟩,
  ⟨(setQueue live 0 { Queue.reset with qcfg := 16#32, qbase := 4096#64, rbase := 4095#64, qtail := 65536#32 }), 0,
    by decide +kernel⟩,
  ⟨live, 64, by decide +kernel⟩,
  ⟨runs live (cmdOf 63 0x0203 []), 63, by decide +kernel⟩,
  ⟨live, 0, by decide +kernel⟩⟩

theorem witness_PacketFetchTakesOrRejects :
    (∃ (s : State) (q : Nat) (b : Bytes) (d : Cmd), q ≤ 64 ∧ canFetch s q = true ∧ bit (getQueue s q).sQcfg.toNat 31 =
      false ∧ b.length = 64 ∧ (slotCmd s q b).isExt = false ∧ packetCheck (pastHead s q) b (slotCmd s q b) = .ok d) ∧
    (∃ (s : State) (q : Nat) (b : Bytes) (d : Cmd), q ≤ 64 ∧ canFetch s q = true ∧ bit (getQueue s q).sQcfg.toNat 31 =
      false ∧ b.length = 64 ∧ readsExt (pastHead s q) (slotCmd s q b) = true ∧ packetCheck (pastHead s q) b (slotCmd s q
      b) = .ok d) ∧
    (∃ (s : State) (q : Nat) (b : Bytes) (n f o : Nat), q ≤ 64 ∧ canFetch s q = true ∧ bit (getQueue s q).sQcfg.toNat 31 =
      false ∧ b.length = 64 ∧ readsExt (pastHead s q) (slotCmd s q b) = true ∧ headerError (pastHead s q) b (slotCmd s q
      b) = none ∧ opcodePacket (pastHead s q) (slotCmd s q b) = none ∧ s.mem.translate ((slotCmd s q b).arg 0x38 8) = some
      (n, f, o)) ∧
    (∃ (s : State) (q : Nat) (d : Cmd) (a : Nat), q ≤ 64 ∧ canFetch s q = true ∧ bit (getQueue s q).sQcfg.toNat 31 = true
      ∧ a = (getQueue s q).sQbase.toNat / 4096 * 4096 + (getQueue s q).qhead.toNat % (getQueue s q).slots * 64 ∧
      s.mem.mappedRange a 64 = true ∧ packetCheck (pastHead s q) (s.mem.readN a 64) (slotCmd s q (s.mem.readN a 64)) = .ok
      d) ∧
    (∃ (s : State) (q : Nat) (b : Bytes) (e : Err), q ≤ 64 ∧ canFetch s q = true ∧ bit (getQueue s q).sQcfg.toNat 31 =
      false ∧ b.length = 64 ∧ packetCheck (pastHead s q) b (slotCmd s q b) = .error e) :=
  ⟨⟨ring live 0, 0, nopPacket, passed waiter (packetCheck (pastHead (ring live 0) 0) nopPacket (slotCmd (ring live 0) 0
    nopPacket)), by decide +kernel⟩,
  ⟨extQueue, 0, extPacket, passed waiter (packetCheck (pastHead extQueue 0) extPacket (slotCmd extQueue 0 extPacket)),
    by decide +kernel⟩,
  ⟨extQueue, 0, extPacket, 0, 0, 0x8000, by decide +kernel⟩,
  ⟨hbmQueue nopPacket, 0, passed waiter (packetCheck (pastHead (hbmQueue nopPacket) 0) nopPacket (slotCmd (hbmQueue
    nopPacket) 0 nopPacket)), 0x10000, by decide +kernel⟩,
  ⟨ring live 63, 63, lay 64 [(0, 2, 0x0709), (3, 1, 2)], (0x10, 0x10709), by decide +kernel⟩⟩

theorem witness_DispatchTakesTokensOrTimesOut_1 :
    (∃ (s : State) (q : Nat) (c : Cmd), q ≤ 64 ∧ queueState s q = 1 ∧ kRuns s = true ∧ (q < 64 → jobEnding s = false) ∧
      poisonedHead s = none ∧ candidate s q = some c ∧ findCmd s c.cid = some c ∧ (onSpring c.opcode = true → springUp s =
      true) ∧ domainsNeeded s c = [] ∧ lostMere s c = none ∧ seatsFree s c = true ∧ outranked s c = false ∧ opcodeIssue s
      (stampCmd s c) = none) ∧
    (∃ (s : State) (q : Nat) (c : Cmd) (e : Err), q ≤ 64 ∧ queueState s q = 1 ∧ kRuns s = true ∧ (q < 64 → jobEnding s =
      false) ∧ poisonedHead s = none ∧ candidate s q = some c ∧ (onSpring c.opcode = true → springUp s = true) ∧
      domainsNeeded s c = [] ∧ lostMere s c = none ∧ seatsFree s c = true ∧ outranked s c = false ∧ opcodeIssue s
      (stampCmd s c) = some e) ∧
    (∃ (s : State) (q : Nat) (c : Cmd) (l : Nat), q ≤ 64 ∧ queueState s q = 1 ∧ kRuns s = true ∧ (q < 64 → jobEnding s =
      false) ∧ poisonedHead s = none ∧ candidate s q = some c ∧ (onSpring c.opcode = true → springUp s = true) ∧
      domainsNeeded s c = [] ∧ lostMere s c = some l) ∧
    (∃ (s : State) (q : Nat) (c : Cmd) (n : Nat), q < 64 ∧ s.cmds = [c] ∧ c.q = q ∧ c.stage = .fetched ∧ queueState s q =
      1 ∧ firstPoisoned s c.waits = some n) :=
  ⟨⟨waiting, 0, waiter, by decide +kernel⟩,
  ⟨runs (ring live 63) { cmdOf 63 0x0101 [] with stage := .fetched }, 63, { cmdOf 63 0x0101 [] with stage := .fetched },
    (opcodeIssue live { cmdOf 63 0x0101 [] with stage := .fetched }).getD (0, 0), by decide +kernel⟩,
  ⟨runs fewMeres lastMere, 63, lastMere, 127, by decide +kernel⟩,
  ⟨setCounter waiting 5 { count := 0#16, poison := true }, 0, waiter, 5, by decide +kernel⟩⟩

theorem witness_DispatchTakesTokensOrTimesOut_2 :
    (∃ (s : State) (q : Nat) (c : Cmd) (n : Nat), q ≤ 64 ∧ poisonedHead s = none ∧ queueState s q = 1 ∧ oldest s q = some
      c ∧ firstShort s c.waits = some n ∧ firstPoisoned s c.waits = none ∧ bits (getQueue s q).qtimeout.toNat 19 0 ≠ 0 ∧
      1000 * bits (getQueue s q).qtimeout.toNat 19 0 ≤ c.waitUs ∧ (∀ x ∈ s.cmds, isUpdate x.opcode = false)) ∧
    (∃ (s : State) (q : Nat) (c : Cmd), q ≤ 64 ∧ poisonedHead s = none ∧ oldest s q = some c ∧ (bits (getQueue s
      q).qtimeout.toNat 19 0 = 0 ∨ c.waitUs < 1000 * bits (getQueue s q).qtimeout.toNat 19 0) ∧ (∀ x ∈ s.cmds, isUpdate
      x.opcode = false)) ∧
    (∃ (s : State) (q : Nat) (w : Word) (c : Cmd) (n : Nat), q ≤ 64 ∧ barsUp s = true ∧ s.cmds = [c] ∧ c.q = q ∧ c.stage =
      .fetched ∧ firstShort s c.waits = some n ∧ firstPoisoned s c.waits = none ∧ bits w.toNat 19 0 ≠ 0 ∧ 1000 * bits
      w.toNat 19 0 ≤ c.waitUs) ∧
    (∃ (s : State) (q : Nat) (c : Cmd), q ≤ 64 ∧ s.cmds = [c] ∧ c.q = q ∧ c.stage = .dispatched ∧ isUpdate c.opcode = true
      ∧ s.peers.final = false ∧ bits (getQueue s q).qtimeout.toNat 19 0 ≠ 0 ∧ 1000 * bits (getQueue s q).qtimeout.toNat 19
      0 ≤ microsOn s c.timeDie - c.since) :=
  ⟨⟨setCounter (setQueue { waiting with cmds := [{ waiter with waitUs := 1000 }] } 0
    { Queue.reset with enable := true, sQcfg := 6#32, qtimeout := 1#32 }) 5 { count := 1#16, poison := false }, 0,
    { waiter with waitUs := 1000 }, 5, by decide +kernel⟩,
  ⟨setQueue { waiting with cmds := [{ waiter with waitUs := 999 }] } 0
    { Queue.reset with enable := true, sQcfg := 6#32, qtimeout := 1#32 }, 0, { waiter with waitUs := 999 },
    by decide +kernel⟩,
  ⟨setCounter { waiting with cmds := [{ waiter with waitUs := 1000 }] } 5 { count := 1#16, poison := false }, 0, 1#32,
    { waiter with waitUs := 1000 }, 5, by decide +kernel⟩,
  ⟨setQueue { live with cmds := [cmdOf 0 0x0501 []], time := { live.time with aon := 1000000, die := [(0, 25000)] } } 0
    { Queue.reset with enable := true, sQcfg := 6#32, qtimeout := 1#32 }, 0, cmdOf 0 0x0501 [], by decide +kernel⟩⟩

theorem witness_CommitAppliesSignalsReplies :
    (∃ (s : State) (cid : Nat) (c : Cmd) (r : Result) (a : Nat) (b : Bytes), Safe s ∧ findCmd s cid = some c ∧ c.stage =
      .executed ∧ c.result = some r ∧ s.ctl.noMainClock = false ∧ r.effects = [.write a b] ∧ (∀ u ∈ s.mem.claims, u.cid ≠
      cid → u.start + u.len ≤ a ∨ a + b.length ≤ u.start)) ∧
    (∃ (s : State) (cid : Nat) (c : Cmd) (r : Result) (a : Nat) (b : Bytes), findCmd s cid = some c ∧ c.stage = .executed
      ∧ c.result = some r ∧ s.ctl.noMainClock = true ∧ r.effects = [.write a b]) :=
  ⟨⟨runs live done, 7, done, succeeded 0 [.write 0x5000 [1#8, 2#8]], 0x5000, [1#8, 2#8], by decide +kernel⟩,
  ⟨runs { live with ctl := { live.ctl with noMainClock := true } } done, 7, done, succeeded 0 [.write 0x5000 [1#8, 2#8]],
    0x5000, [1#8, 2#8], by decide +kernel⟩⟩

theorem witness_ReplyGoesToItsSlot :
    (∃ (s : State) (q : Nat) (r : Reply) (rest : List Reply), q ≤ 64 ∧ ringFull s q = false ∧ s.ctl.noMainClock = false ∧
      bit (getQueue s q).sQcfg.toNat 30 = false ∧ s.ctl.linkUp = true ∧ (getQueue s q).replies = r :: rest) ∧
    (∃ (s : State) (q : Nat) (hbm : Sector) (r : Reply) (rest : List Reply) (a : Nat), Safe s ∧ q ≤ 64 ∧ ringFull s q =
      false ∧ s.ctl.noMainClock = false ∧ bit (getQueue s q).sQcfg.toNat 30 = true ∧ (getQueue s q).replies = r :: rest ∧
      a = ringBase (getQueue s q).sRbase + (getQueue s q).rtail.toNat % (getQueue s q).slots * 32 ∧ hbm ≠ .uncorrectable ∧
      (∀ x, a ≤ x → x < a + 32 → claimAt s.mem.claims x = none)) ∧
    (∃ (s : State) (q : Nat), q ≤ 64 ∧ ringFull s q = true) ∧
    (∃ (s : State) (q : Nat) (hbm : Sector) (r : Reply) (rest : List Reply) (a : Nat), Safe s ∧ q ≤ 64 ∧ (getQueue s
      q).heldReply = true ∧ s.ctl.noMainClock = false ∧ bit (getQueue s q).sQcfg.toNat 30 = true ∧ (getQueue s q).replies
      = r :: rest ∧ a = ringBase (getQueue s q).sRbase + (getQueue s q).rtail.toNat % (getQueue s q).slots * 32 ∧
      s.mem.mappedRange a 32 = true ∧ hbm ≠ .uncorrectable ∧ (∀ x, a ≤ x → x < a + 32 → claimAt s.mem.claims x = none)) :=
  ⟨⟨setQueue live 0 { Queue.reset with sQcfg := 6#32, sRbase := 0x20000#64, rtail := 63#32, replies := [aReply] }, 0,
    aReply, [], by decide +kernel⟩,
  ⟨hbmRing false, 1, .clean, aReply, [], 0x20000, by decide +kernel, by decide +kernel, by decide +kernel,
    by decide +kernel, by decide +kernel, by decide +kernel, by decide +kernel, by decide +kernel, fun _ _ _ => rfl⟩,
  ⟨setQueue live 0 { Queue.reset with sQcfg := 6#32, rtail := 64#32 }, 0, by decide +kernel⟩,
  ⟨hbmRing true, 1, .corrected, aReply, [], 0x20000, by decide +kernel, by decide +kernel, by decide +kernel,
    by decide +kernel, by decide +kernel, by decide +kernel, by decide +kernel, by decide +kernel, by decide +kernel, fun _
    _ _ => rfl⟩⟩

/-- A state whose Mere 0 runs a command. -/
def atWork (s : State) (c : Cmd) : State := setMere (runs s c) 0 { Mere.reset with running := some 7 }

/-- Some command of an opcode runs, passes its checks and answers a status that signals, or one that does not. -/
def Works (op : Nat) (issue : State → Cmd → Option Err) (run : State → Cmd → Run) (good : Bool) : Prop :=
  ∃ (s : State) (cid : Nat) (c : Cmd), Running s cid op c ∧ issue (ownView s cid) c = none ∧
    signals (run (ownView s cid) c).result.status = good

/-- Some command of an opcode fails its checks. -/
def Checked (op : Nat) (issue : State → Cmd → Option Err) : Prop :=
  ∃ (s : State) (cid : Nat) (c : Cmd) (e : Err), Running s cid op c ∧ issue (ownView s cid) c = some e ∧ signals e.1 = false

/-- Some command of an opcode waits for its Mere. -/
def Waits (op : Nat) : Prop := ∃ (s : State) (cid : Nat) (c : Cmd), Dispatched s cid op c ∧ hasMeres s c = false

/-- ATTN_BLOCK forward over one query and one key. -/
def attn2 : Cmd := { attn1 with params := patch attn1.params 0x14 [1#8] }

/-- The operands with a first tensor that claims to be compressed and has no metadata. -/
def hollow (s : State) (plan : List Nat) : State := desc s 1 (patch (descOf 0x10000 4096 plan 1 4) 0x30 (toLe 8 0x30000))

theorem witness_ComputeCommandsReachTheirCommit_1 :
    Works 0x0101 matmulIssue matmulRun true ∧ Works 0x0102 bwdIssue bwdRun true ∧ Works 0x0103 winIssue winRun true ∧
      Works 0x0104 winIssue winRun true ∧ Works 0x0105 vectorIssue vectorRun true ∧ Works 0x0106 statsIssue statsRun
      true ∧ Works 0x0107 attnIssue attnRun true :=
  ⟨⟨atWork tens mm, 7, mm, by decide +kernel⟩,
⟨atWork tens mmBwd, 7, mmBwd, by decide +kernel⟩,
⟨atWork tens conv1, 7, conv1, by decide +kernel⟩,
⟨atWork tens pool1, 7, pool1, by decide +kernel⟩,
⟨atWork tens vec1, 7, vec1, by decide +kernel⟩,
⟨atWork tens stats1, 7, stats1, by decide +kernel⟩,
⟨atWork attnState attn1, 7, attn1, by decide +kernel⟩⟩

theorem witness_ComputeCommandsReachTheirCommit_2 :
    Checked 0x0101 matmulIssue ∧ Checked 0x0102 bwdIssue ∧ Checked 0x0103 winIssue ∧ Checked 0x0104 winIssue ∧ Checked
      0x0105 vectorIssue ∧ Checked 0x0106 statsIssue ∧ Checked 0x0107 attnIssue :=
  ⟨⟨atWork tens ({ mm with flags := 0 }), 7, { mm with flags := 0 }, (matmulIssue tens ({ mm with flags := 0 })).getD (0, 0), by decide +kernel⟩,
⟨atWork tens ({ mmBwd with flags := 0 }), 7, { mmBwd with flags := 0 }, (bwdIssue tens ({ mmBwd with flags := 0 })).getD (0, 0), by decide +kernel⟩,
⟨atWork tens ({ conv1 with ext := lay 256 regions }), 7, { conv1 with ext := lay 256 regions }, (winIssue tens ({ conv1 with ext := lay 256 regions })).getD (0, 0), by decide +kernel⟩,
⟨atWork tens ({ pool1 with ext := lay 256 regions }), 7, { pool1 with ext := lay 256 regions }, (winIssue tens ({ pool1 with ext := lay 256 regions })).getD (0, 0), by decide +kernel⟩,
⟨atWork tens (cmdOf 0 0x0105 [(0x10, 2, 1), (0x12, 2, 3), (0x14, 2, 6), (0x1C, 4, 2)]), 7, cmdOf 0 0x0105 [(0x10, 2, 1), (0x12, 2, 3), (0x14, 2, 6), (0x1C, 4, 2)], (vectorIssue tens (cmdOf 0 0x0105 [(0x10, 2, 1), (0x12, 2, 3), (0x14, 2, 6), (0x1C, 4, 2)])).getD (0, 0), by decide +kernel⟩,
⟨atWork tens (cmdOf 0 0x0106 [(0x10, 2, 1), (0x12, 2, 3), (0x18, 4, 2)]), 7, cmdOf 0 0x0106 [(0x10, 2, 1), (0x12, 2, 3), (0x18, 4, 2)], (statsIssue tens (cmdOf 0 0x0106 [(0x10, 2, 1), (0x12, 2, 3), (0x18, 4, 2)])).getD (0, 0), by decide +kernel⟩,
⟨atWork attnState (cmdOf 0 0x0107 [(0x10, 2, 1), (0x12, 2, 2), (0x14, 2, 3), (0x16, 2, 4), (0x18, 2, 5), (0x20, 4, 2), (0x28, 2, 64)]), 7, cmdOf 0 0x0107 [(0x10, 2, 1), (0x12, 2, 2), (0x14, 2, 3), (0x16, 2, 4), (0x18, 2, 5), (0x20, 4, 2), (0x28, 2, 64)], (attnIssue attnState (cmdOf 0 0x0107 [(0x10, 2, 1), (0x12, 2, 2), (0x14, 2, 3), (0x16, 2, 4), (0x18, 2, 5), (0x20, 4, 2), (0x28, 2, 64)])).getD (0, 0), by decide +kernel⟩⟩

theorem witness_ComputeCommandsReachTheirCommit_3 :
    Waits 0x0101 ∧ Waits 0x0102 ∧ Waits 0x0103 ∧ Waits 0x0104 ∧ Waits 0x0105 ∧ Waits 0x0106 ∧ Waits 0x0107 :=
  ⟨⟨runs tens mm, 7, mm, by decide +kernel⟩,
⟨runs tens mmBwd, 7, mmBwd, by decide +kernel⟩,
⟨runs tens conv1, 7, conv1, by decide +kernel⟩,
⟨runs tens pool1, 7, pool1, by decide +kernel⟩,
⟨runs tens vec1, 7, vec1, by decide +kernel⟩,
⟨runs tens stats1, 7, stats1, by decide +kernel⟩,
⟨runs attnState attn1, 7, attn1, by decide +kernel⟩⟩

theorem witness_ComputeCommandsReachTheirCommit_4 :
    Works 0x0101 matmulIssue matmulRun false ∧ Works 0x0102 bwdIssue bwdRun false ∧ Works 0x0103 winIssue winRun false ∧
      Works 0x0104 winIssue winRun false ∧ Works 0x0105 vectorIssue vectorRun false ∧ Works 0x0106 statsIssue statsRun
      false ∧ Works 0x0107 attnIssue attnRun false :=
  ⟨⟨atWork (hollow tens [1, 1]) mm, 7, mm, by decide +kernel⟩,
⟨atWork (hollow tens [1, 1]) mmBwd, 7, mmBwd, by decide +kernel⟩,
⟨atWork (hollow tens [1, 1]) conv1, 7, conv1, by decide +kernel⟩,
⟨atWork (hollow tens [1, 1]) pool1, 7, pool1, by decide +kernel⟩,
⟨atWork (hollow tens [1, 1]) vec1, 7, vec1, by decide +kernel⟩,
⟨atWork (hollow tens [1, 1]) stats1, 7, stats1, by decide +kernel⟩,
⟨atWork (hollow attnState [64, 1]) attn2, 7, attn2, by decide +kernel⟩⟩

/-- MATMUL of one element with a tile of 33 blocks. -/
def mmLarge : Cmd :=
  { mm with params := lay 48 [(0, 2, 1), (2, 2, 2), (4, 2, 3), (8, 1, 1), (9, 1, 1), (0xC, 4, 1), (0x10, 4, 1), (0x14, 4, 1),
      (0x18, 2, 322), (0x1B, 1, 1)] }

/-- FILL of the last 4 bytes of descriptor 3. -/
def fill1 : Cmd := cmdOf 0 0x0203 [(0x10, 2, 3), (0x14, 4, 0x01020304), (0x18, 8, 60), (0x20, 8, 4)]

/-- COPY of two rows of 8 bytes from descriptor 1 to descriptor 3. -/
def copy1 (rows : Nat) : Cmd := cmdOf 0 0x0201 [(0x10, 2, 1), (0x12, 2, 3), (0x14, 4, rows), (0x28, 4, 8), (0x2C, 4, 16), (0x30, 4, 16)]

/-- HOST_COPY of the 64 bytes of descriptor 3; `dir` 1 is toward the host. -/
def hostCopy1 (dir : Nat) : Cmd := cmdOf 0 0x0202 [(0x10, 8, 0x1000), (0x18, 2, 3), (0x1A, 1, dir), (0x28, 8, 64)]

/-- Descriptors 1, FP32 of 64 bytes, 2, the same compressed, its metadata at 0x30000, and 3, the same again. -/
def zips : State :=
  let s := desc { live with ctl := { live.ctl with busMaster := true } } 1 (descOf 0x10000 64 [16, 1] 0 0)
  let s := desc s 2 (patch (descOf 0x20000 4096 [16, 1] 0 4) 0x30 (toLe 8 0x30000))
  desc s 3 (descOf 0x11000 64 [16, 1] 0 0)

/-- COMPRESS of one block by zero runs. -/
def zip1 : Cmd := cmdOf 0 0x0204 [(0x10, 2, 1), (0x12, 2, 2), (0x14, 1, 1), (0x20, 8, 4096)]

/-- The state with the compressed tensor in place, as that command stores it: 64 zeros and its metadata. -/
def zipped : State :=
  hbmWrite (hbmWrite zips 0x20000 (List.replicate 64 0)) 0x30000 (lay 80 [(0, 4, 0x5A444C46), (4, 1, 1), (5, 1, 1), (7, 1, 4), (8, 2, 64),
    (16, 1, 1), (20, 1, 64), (40, 4, 0x912200AE), (75, 1, 1), (76, 4, 0x03C8EB67)])

/-- DECOMPRESS of it. -/
def unzip1 : Cmd := cmdOf 0 0x0205 [(0x10, 2, 2), (0x12, 2, 3)]

/-- Descriptor 1 over the second span of the window, 2 over the first, of one byte. -/
def spans : State := desc (desc live 1 (descOf 0x1000000 1 [1] 3 0)) 2 (descOf 0 1 [1] 3 0)

/-- ALLOC or FREE of descriptor `d`. -/
def alloc1 (op d : Nat) : Cmd := { cmdOf 0 op [(0x10, 2, d)] with order := 5 }

/-- One dispatched before it. -/
def allocFirst : Cmd := { cmdOf 1 0x0208 [(0x10, 2, 1)] with cid := 6, order := 4 }

/-- Descriptor 1 a master of one element, 2 its gradient; the host reachable. -/
def master : State :=
  desc (desc { live with ctl := { live.ctl with busMaster := true } } 1 (descOf 0x10000 64 [1, 1] 1 8)) 2 (descOf 0x11000 64 [1, 1] 1 0)

/-- An update of it. -/
def update1 (op : Nat) : Cmd := cmdOf 0 op [(0x10, 2, 1), (0x12, 2, 2)]

/-- SNAPSHOT or RESTORE of it at the host. -/
def check1 (op : Nat) : Cmd := cmdOf 0 op [(0x10, 2, 1), (0x16, 1, 1), (0x18, 8, 0x1000), (0x20, 8, 0x10000)]

/-- UPDATE_ADAM with its constants, at its dispatch. -/
def adamCmd : Cmd :=
  { cmdOf 0 0x0502 [(0x18, 4, 0x3A800000), (0x1C, 4, 0x3F600000), (0x20, 4, 0x3F7E0000), (0x24, 4, 0x3D800000), (0x28, 4, 0x3D800000),
      (0x2C, 4, 1), (0x31, 1, 6), (0x34, 4, 0x3F800000)] with
    scale := 0x44800000#32, norm := 0x4A800000#32 }

/-- A verdict. -/
def verdict (nonfinite : Bool) : State := { master with peers := { Peers.reset with final := true, nonfinite := nonfinite } }

/-- Descriptors as `tens` lays them, of 512 bytes, the host reachable. -/
def hostTens : State := { tens with ctl := { tens.ctl with busMaster := true } }

/-- COMPRESS of one block with no room for its escapes: 64 bytes that do not compress. -/
def hard : State := hbmWrite zips 0x10000 ((List.range 64).map (fun n => BitVec.ofNat 8 (37 * n + 11)))

/-- ALLOC or FREE with an explicit length of 0. -/
def alloc0 (op d : Nat) : Cmd := { alloc1 op d with params := patch (alloc1 op d).params 2 [0#8] }

/-- No span mapped, and descriptor 1 over one span more than the frames of a stack. -/
def empty : State := desc { live with mem := { live.mem with spans0 := [] } } 1 (descOf 0 0x7BE1000000 [1] 3 0)

/-- ALLOC of all of it. -/
def allocAll : Cmd := cmdOf 0 0x0208 [(0x10, 2, 1)]

/-- A queue with a ring in the first span. -/
def ringed : State := setQueue spans 5 { Queue.reset with enable := true, sQcfg := 0x80000006#32, sQbase := 0x10000#64 }

/-- A module whose master has a mirror slot. -/
def slotted (state tx : Nat) : State :=
  let s := setMirror master 3 { Mirror.reset with source := true, partner := 1, desc := 1, state := state, images := [2, 2, 0, 0] }
  { s with peers := { s.peers with route := some (lay 256 [(4, 4, 2), (8, 2, 2), (0x20, 1, 1), (0x40, 1, tx)]) } }

/-- The same with port 0 up. -/
def portedSlot : State :=
  setPort (slotted 1 255) 0 { Port.reset with state := 2, gen := 3, width := 8, planes := List.range 8 }

/-- RESTORE from mirror slot 3. -/
def restore3 : Cmd := cmdOf 0 0x0603 [(0x10, 2, 1), (0x17, 1, 3)]

/-- A state in which it has been taken up. -/
def restoring (s : State) : State := putCmd (runs s restore3) { restore3 with holds := true }

theorem witness_MovesCarryBytesUnchanged_works :
    Works 0x0201 copyIssue copyRun true ∧ Works 0x0202 hostCopyIssue (fun v c => hostCopyRun v c (.data (List.replicate
      64 1#8))) true ∧ Works 0x0202 hostCopyIssue (fun v c => hostCopyRun v c .failed) false ∧ Works 0x0204
      compressIssue compressRun true ∧ Works 0x0205 decompressIssue decompressRun true ∧ Works 0x0205 decompressIssue
      decompressRun false :=
  ⟨⟨runs tens (copy1 2), 7, copy1 2, by decide +kernel⟩,
⟨runs hostTens (hostCopy1 0), 7, hostCopy1 0, by decide +kernel⟩,
⟨runs hostTens (hostCopy1 0), 7, hostCopy1 0, by decide +kernel⟩,
⟨runs zips zip1, 7, zip1, by decide +kernel⟩,
⟨runs zipped unzip1, 7, unzip1, by decide +kernel⟩,
⟨runs zips unzip1, 7, unzip1, by decide +kernel⟩⟩

theorem witness_MovesCarryBytesUnchanged_checked :
    Checked 0x0201 copyIssue ∧ Checked 0x0202 hostCopyIssue ∧ Checked 0x0204 compressIssue ∧ Checked 0x0205
      decompressIssue :=
  ⟨⟨runs tens (copy1 200), 7, copy1 200, (copyIssue tens (copy1 200)).getD (0, 0), by decide +kernel⟩,
⟨runs tens (hostCopy1 0), 7, hostCopy1 0, (hostCopyIssue tens (hostCopy1 0)).getD (0, 0), by decide +kernel⟩,
⟨runs tens zip1, 7, zip1, (compressIssue tens zip1).getD (0, 0), by decide +kernel⟩,
⟨runs tens unzip1, 7, unzip1, (decompressIssue tens unzip1).getD (0, 0), by decide +kernel⟩⟩

theorem witness_UpdatesWaitForTheVerdict_rows :
    (∃ s cid c e, Dispatched s cid 0x0501 c ∧ updateIssue s c = some e) ∧ (∃ s cid c e, Dispatched s cid 0x0502 c ∧
      updateIssue s c = some e) ∧ (∃ s cid c e, Dispatched s cid 0x0503 c ∧ updateIssue s c = some e) ∧ (∃ s cid c,
      Dispatched s cid 0x0501 c ∧ updateIssue s c = none ∧ s.peers.final = false) ∧ (∃ s cid c, Dispatched s cid 0x0502
      c ∧ updateIssue s c = none ∧ s.peers.final = false) ∧ (∃ s cid c, Dispatched s cid 0x0503 c ∧ updateIssue s c =
      none ∧ s.peers.final = false) ∧ (∃ s cid c, Dispatched s cid 0x0501 c ∧ updateIssue s c = none ∧ s.peers.final =
      true ∧ s.peers.nonfinite = true) ∧ (∃ s cid c, Dispatched s cid 0x0501 c ∧ updateIssue s c = none ∧ s.peers.final
      = true ∧ s.peers.nonfinite = false) ∧ (∃ s cid c, Dispatched s cid 0x0502 c ∧ updateIssue s c = none ∧
      s.peers.final = true ∧ s.peers.nonfinite = true) ∧ (∃ s cid c, Dispatched s cid 0x0502 c ∧ updateIssue s c = none
      ∧ s.peers.final = true ∧ s.peers.nonfinite = false) ∧ (∃ s cid c, Dispatched s cid 0x0503 c ∧ updateIssue s c =
      none ∧ s.peers.final = true ∧ s.peers.nonfinite = true) ∧ (∃ s cid c, Dispatched s cid 0x0503 c ∧ updateIssue s c
      = none ∧ s.peers.final = true ∧ s.peers.nonfinite = false) :=
  ⟨⟨runs live (update1 0x0501), 7, update1 0x0501, (updateIssue live (update1 0x0501)).getD (0, 0), by decide +kernel⟩,
⟨runs live (update1 0x0502), 7, update1 0x0502, (updateIssue live (update1 0x0502)).getD (0, 0), by decide +kernel⟩,
⟨runs live (update1 0x0503), 7, update1 0x0503, (updateIssue live (update1 0x0503)).getD (0, 0), by decide +kernel⟩,
⟨runs master (update1 0x0501), 7, update1 0x0501, by decide +kernel⟩,
⟨runs master (update1 0x0502), 7, update1 0x0502, by decide +kernel⟩,
⟨runs master (update1 0x0503), 7, update1 0x0503, by decide +kernel⟩,
⟨runs (verdict true) (update1 0x0501), 7, update1 0x0501, by decide +kernel⟩,
⟨runs (verdict false) (update1 0x0501), 7, update1 0x0501, by decide +kernel⟩,
⟨runs (verdict true) (update1 0x0502), 7, update1 0x0502, by decide +kernel⟩,
⟨runs (verdict false) (update1 0x0502), 7, update1 0x0502, by decide +kernel⟩,
⟨runs (verdict true) (update1 0x0503), 7, update1 0x0503, by decide +kernel⟩,
⟨runs (verdict false) (update1 0x0503), 7, update1 0x0503, by decide +kernel⟩⟩

theorem witness_TarnCheckRejectsLargeTiles :
    (∃ (s : State) (cid u q : Nat) (c : Cmd), Dispatched s cid 0x0101 c ∧ q = (geoOf c).q ∧ u = (if (geoOf c).loop = 2
      then ceilDiv ((geoOf c).pairs (readDesc s (c.arg 0x14 2)).p0) (geoOf c).groups else 1) ∧ matmulIssue s c = none) ∧
    (∃ (s : State) (cid u q : Nat) (c : Cmd), Dispatched s cid 0x0101 c ∧ q = (geoOf c).q ∧ u = (if (geoOf c).loop = 2
      then ceilDiv ((geoOf c).pairs (readDesc s (c.arg 0x14 2)).p0) (geoOf c).groups else 1) ∧ 32 < u * q ∧ tilingCheck c
      192 = none ∧ zeroExtTail c 192 = none ∧ c.arg 0x1C 4 ≤ (readDesc s (c.arg 0x14 2)).rows ∧ c.arg 0x1C 4 ≤ outerPlan
      (readDesc s (c.arg 0x10 2)) (bit (c.arg 0x18 1) 4) ∧ c.arg 0x20 4 ≤ (readDesc s (c.arg 0x14 2)).p0 ∧ c.arg 0x20 4 ≤
      outerPlan (readDesc s (c.arg 0x12 2)) (bit (c.arg 0x19 1) 4) ∧ c.arg 0x24 4 ≤ innerPlan (readDesc s (c.arg 0x10 2))
      (bit (c.arg 0x18 1) 4) ∧ c.arg 0x24 4 ≤ innerPlan (readDesc s (c.arg 0x12 2)) (bit (c.arg 0x19 1) 4) ∧ loopCheck
      (geoOf c) = none) ∧
    (∃ (s : State) (cid u q : Nat) (c : Cmd), Dispatched s cid 0x0101 c ∧ q = (geoOf c).q ∧ u = (if (geoOf c).loop = 2
      then ceilDiv ((geoOf c).pairs (readDesc s (c.arg 0x14 2)).p0) (geoOf c).groups else 1) ∧ 32 < q) :=
  ⟨⟨runs tens mm, 7, 1, 1, mm, by decide +kernel⟩,
  ⟨runs tens mmLarge, 7, 1, 33, mmLarge, by decide +kernel⟩,
  ⟨runs tens mmLarge, 7, 1, 33, mmLarge, by decide +kernel⟩⟩

theorem witness_FillWritesThePattern :
    (∃ (s : State) (cid : Nat) (c : Cmd) (n a : Nat), Safe s ∧ Dispatched s cid 0x0203 c ∧ fillIssue (ownView s cid) c =
      none ∧ s.ctl.noMainClock = false ∧ n = c.arg 0x20 8 ∧ n ≠ 0 ∧ n % 4 = 0 ∧ a = (readDesc (ownView s cid) (c.arg 0x10
      2)).home + c.arg 0x18 8 ∧ (∀ u ∈ s.mem.claims, u.cid ≠ cid → u.start + u.len ≤ a ∨ a + n ≤ u.start)) ∧
    (∃ (s : State) (cid : Nat) (c : Cmd), Dispatched s cid 0x0203 c ∧ fillIssue (ownView s cid) c = none ∧ c.arg 0x20 8 =
      0) ∧
    (∃ (s : State) (cid : Nat) (c : Cmd) (e : Err), Dispatched s cid 0x0203 c ∧ fillIssue (ownView s cid) c = some e ∧
      signals e.1 = false) :=
  ⟨⟨runs tens fill1, 7, fill1, 4, 0x1203C, by decide +kernel⟩,
  ⟨runs tens (cmdOf 0 0x0203 [(0x10, 2, 3)]), 7, cmdOf 0 0x0203 [(0x10, 2, 3)], by decide +kernel⟩,
  ⟨runs tens (cmdOf 0 0x0203 [(0x10, 2, 3), (0x20, 8, 68)]), 7, cmdOf 0 0x0203 [(0x10, 2, 3), (0x20, 8, 68)], (fillIssue
    tens (cmdOf 0 0x0203 [(0x10, 2, 3), (0x20, 8, 68)])).getD (0, 0), by decide +kernel⟩⟩

theorem witness_MovesCarryBytesUnchanged_1 :
    (∃ (s : State) (cid : Nat) (c : Cmd) (v : State) (rows len : Nat), Dispatched s cid 0x0201 c ∧ v = ownView s cid ∧
      copyIssue v c = none ∧ rows = c.arg 0x14 4 ∧ len = c.arg 0x28 4 ∧ rows ≠ 0 ∧ len ≠ 0) ∧
    (∃ (s : State) (cid : Nat) (c : Cmd), Dispatched s cid 0x0201 c ∧ copyIssue (ownView s cid) c = none ∧ (c.arg 0x14 4 =
      0 ∨ c.arg 0x28 4 = 0)) ∧
    (∃ (s : State) (cid : Nat) (c : Cmd) (v : State) (b : Bytes) (n : Nat), Dispatched s cid 0x0202 c ∧ v = ownView s cid
      ∧ hostCopyIssue v c = none ∧ n = c.arg 0x28 8 ∧ n ≠ 0 ∧ c.arg 0x1A 1 = 0 ∧ b.length = n) ∧
    (∃ (s : State) (cid : Nat) (c : Cmd) (v : State) (n : Nat), Dispatched s cid 0x0202 c ∧ v = ownView s cid ∧
      hostCopyIssue v c = none ∧ n = c.arg 0x28 8 ∧ n ≠ 0 ∧ c.arg 0x1A 1 = 1) :=
  ⟨⟨runs tens (copy1 2), 7, copy1 2, ownView (runs tens (copy1 2)) 7, 2, 8, by decide +kernel, rfl, by decide +kernel⟩,
  ⟨runs tens (copy1 0), 7, copy1 0, by decide +kernel⟩,
  ⟨runs hostTens (hostCopy1 0), 7, hostCopy1 0, ownView (runs hostTens (hostCopy1 0)) 7, List.replicate 64 1#8, 64,
    by decide +kernel, rfl, by decide +kernel⟩,
  ⟨runs hostTens (hostCopy1 1), 7, hostCopy1 1, ownView (runs hostTens (hostCopy1 1)) 7, 64, by decide +kernel, rfl,
    by decide +kernel⟩⟩

theorem witness_MovesCarryBytesUnchanged_2 :
    (∃ (s : State) (cid : Nat) (c : Cmd), Dispatched s cid 0x0202 c ∧ hostCopyIssue (ownView s cid) c = none ∧ c.arg 0x28
      8 ≠ 0) ∧
    (∃ (s : State) (cid : Nat) (c : Cmd), Dispatched s cid 0x0202 c ∧ hostCopyIssue (ownView s cid) c = none ∧ c.arg 0x28
      8 = 0) ∧
    (∃ (s : State) (cid : Nat) (c : Cmd) (v : State), Dispatched s cid 0x0204 c ∧ v = ownView s cid ∧ compressIssue v c =
      none ∧ (readDesc v (c.arg 0x10 2)).rawBytes ≠ 0 ∧ 0 < spillShort v c) :=
  ⟨⟨runs hostTens (hostCopy1 1), 7, hostCopy1 1, by decide +kernel⟩,
  ⟨runs hostTens (cmdOf 0 0x0202 [(0x10, 8, 0x1000), (0x18, 2, 3)]), 7, cmdOf 0 0x0202 [(0x10, 8, 0x1000), (0x18, 2, 3)],
    by decide +kernel⟩,
  ⟨runs hard { zip1 with params := patch zip1.params 5 [1#8] }, 7, { zip1 with params := patch zip1.params 5 [1#8] },
    ownView (runs hard { zip1 with params := patch zip1.params 5 [1#8] }) 7, by decide +kernel, rfl, by decide +kernel⟩⟩

theorem witness_AllocTakesFramesFreeUnmaps_1 :
    (∃ (s : State) (cid : Nat) (c : Cmd) (r : Nat × Nat × Nat), Dispatched s cid 0x0208 c ∧ allocTurn s c = true ∧
      allocIssue s c = none ∧ r = spansOf (readDesc s (c.arg 0x10 2)).base (allocLen (readDesc s (c.arg 0x10 2)) c) ∧
      r.2.2 = 0) ∧
    (∃ (s : State) (cid : Nat) (c : Cmd) (r : Nat × Nat × Nat), Dispatched s cid 0x0208 c ∧ allocTurn s c = true ∧
      allocIssue s c = none ∧ r = spansOf (readDesc s (c.arg 0x10 2)).base (allocLen (readDesc s (c.arg 0x10 2)) c) ∧ (∃
      i, i < r.2.2 ∧ mhas (s.mem.spans r.1) (r.2.1 + i) = true)) ∧
    (∃ (s : State) (cid : Nat) (c : Cmd) (r : Nat × Nat × Nat), Dispatched s cid 0x0208 c ∧ allocTurn s c = true ∧
      allocIssue s c = none ∧ r = spansOf (readDesc s (c.arg 0x10 2)).base (allocLen (readDesc s (c.arg 0x10 2)) c) ∧
      r.2.2 ≠ 0 ∧ (∀ i, i < r.2.2 → mhas (s.mem.spans r.1) (r.2.1 + i) = false) ∧ mget 0xFFFFFFFF#32 s.mem.quota c.q ≠
      0xFFFFFFFF#32 ∧ (mget 0xFFFFFFFF#32 s.mem.quota c.q).toNat < s.mem.used c.q + 2 * (r.2.2 * (windowStacks
      r.1).length)) ∧
    (∃ (s : State) (cid : Nat) (c : Cmd) (r : Nat × Nat × Nat) (n k : _), Dispatched s cid 0x0208 c ∧ allocTurn s c = true
      ∧ allocIssue s c = none ∧ r = spansOf (readDesc s (c.arg 0x10 2)).base (allocLen (readDesc s (c.arg 0x10 2)) c) ∧
      r.2.2 ≠ 0 ∧ (∀ i, i < r.2.2 → mhas (s.mem.spans r.1) (r.2.1 + i) = false) ∧ (mget 0xFFFFFFFF#32 s.mem.quota c.q =
      0xFFFFFFFF#32 ∨ s.mem.used c.q + 2 * (r.2.2 * (windowStacks r.1).length) ≤ (mget 0xFFFFFFFF#32 s.mem.quota
      c.q).toNat) ∧ n ∈ windowStacks r.1 ∧ k = r.2.2 - s.mem.freeCount n ∧ 0 < k ∧ (∀ m ∈ windowStacks r.1, r.2.2 -
      s.mem.freeCount m ≤ k)) :=
  ⟨⟨runs spans (alloc1 0x0208 3), 7, alloc1 0x0208 3, (0, 0, 0), by decide +kernel⟩,
  ⟨runs spans (alloc1 0x0208 2), 7, alloc1 0x0208 2, (0, 0, 1), by decide +kernel⟩,
  ⟨runs { spans with mem := { spans.mem with quota := [(0, 16#32)] } } (alloc1 0x0208 1), 7, alloc1 0x0208 1, (0, 1, 1),
    by decide +kernel⟩,
  ⟨runs empty allocAll, 7, allocAll, (0, 0, 31713), 0, 1, by decide +kernel, by decide +kernel, by decide +kernel,
    by decide +kernel, by decide +kernel, fun _ _ => rfl, by decide +kernel⟩⟩

theorem witness_AllocTakesFramesFreeUnmaps_2 :
    (∃ (s : State) (cid : Nat) (c : Cmd) (r : Nat × Nat × Nat), Dispatched s cid 0x0208 c ∧ allocTurn s c = true ∧
      allocIssue s c = none ∧ r = spansOf (readDesc s (c.arg 0x10 2)).base (allocLen (readDesc s (c.arg 0x10 2)) c) ∧
      r.2.2 ≠ 0 ∧ (∀ i, i < r.2.2 → mhas (s.mem.spans r.1) (r.2.1 + i) = false) ∧ (mget 0xFFFFFFFF#32 s.mem.quota c.q =
      0xFFFFFFFF#32 ∨ s.mem.used c.q + 2 * (r.2.2 * (windowStacks r.1).length) ≤ (mget 0xFFFFFFFF#32 s.mem.quota
      c.q).toNat) ∧ (∀ n ∈ windowStacks r.1, r.2.2 ≤ s.mem.freeCount n)) ∧
    (∃ (s : State) (cid : Nat) (c : Cmd) (r : Nat × Nat × Nat), Dispatched s cid 0x0209 c ∧ allocTurn s c = true ∧
      allocIssue s c = none ∧ r = spansOf (readDesc s (c.arg 0x10 2)).base (allocLen (readDesc s (c.arg 0x10 2)) c) ∧
      r.2.2 = 0) ∧
    (∃ (s : State) (cid : Nat) (c : Cmd) (r : Nat × Nat × Nat), Dispatched s cid 0x0209 c ∧ allocTurn s c = true ∧
      allocIssue s c = none ∧ r = spansOf (readDesc s (c.arg 0x10 2)).base (allocLen (readDesc s (c.arg 0x10 2)) c) ∧ (∃
      i, i < r.2.2 ∧ mhas (s.mem.spans r.1) (r.2.1 + i) = false)) ∧
    (∃ (s : State) (cid : Nat) (c : Cmd) (r : Nat × Nat × Nat), Dispatched s cid 0x0209 c ∧ allocTurn s c = true ∧
      allocIssue s c = none ∧ r = spansOf (readDesc s (c.arg 0x10 2)).base (allocLen (readDesc s (c.arg 0x10 2)) c) ∧
      r.2.2 ≠ 0 ∧ (∀ i, i < r.2.2 → mhas (s.mem.spans r.1) (r.2.1 + i) = true) ∧ holdsRing s ((readDesc s (c.arg 0x10
      2)).base, r.2.2 * spanSize r.1) = true) :=
  ⟨⟨runs spans (alloc1 0x0208 1), 7, alloc1 0x0208 1, (0, 1, 1), by decide +kernel⟩,
  ⟨runs spans (alloc1 0x0209 3), 7, alloc1 0x0209 3, (0, 0, 0), by decide +kernel⟩,
  ⟨runs spans (alloc1 0x0209 1), 7, alloc1 0x0209 1, (0, 1, 1), by decide +kernel⟩,
  ⟨runs ringed (alloc1 0x0209 2), 7, alloc1 0x0209 2, (0, 0, 1), by decide +kernel⟩⟩

theorem witness_AllocTakesFramesFreeUnmaps_3 :
    (∃ (s : State) (cid : Nat) (c : Cmd) (r : Nat × Nat × Nat), Dispatched s cid 0x0209 c ∧ allocTurn s c = true ∧
      allocIssue s c = none ∧ r = spansOf (readDesc s (c.arg 0x10 2)).base (allocLen (readDesc s (c.arg 0x10 2)) c) ∧
      r.2.2 ≠ 0 ∧ (∀ i, i < r.2.2 → mhas (s.mem.spans r.1) (r.2.1 + i) = true) ∧ holdsRing s ((readDesc s (c.arg 0x10
      2)).base, r.2.2 * spanSize r.1) = false) ∧
    (∃ (s : State) (cid : Nat) (c : Cmd) (e : Err), allocIssue s c = some e ∧ allocTurn s c = true ∧ Dispatched s cid
      0x0208 c) ∧
    (∃ (s : State) (cid : Nat) (c : Cmd) (e : Err), allocIssue s c = some e ∧ allocTurn s c = true ∧ Dispatched s cid
      0x0209 c) ∧
    (∃ (s : State) (cid : Nat) (c : Cmd), allocTurn s c = false ∧ Dispatched s cid 0x0208 c) :=
  ⟨⟨runs spans (alloc1 0x0209 2), 7, alloc1 0x0209 2, (0, 0, 1), by decide +kernel⟩,
  ⟨runs tens (alloc1 0x0208 1), 7, alloc1 0x0208 1, badParam 0x18 2, by decide +kernel⟩,
  ⟨runs tens (alloc1 0x0209 1), 7, alloc1 0x0209 1, badParam 0x18 2, by decide +kernel⟩,
  ⟨runs (runs spans allocFirst) (alloc1 0x0208 1), 7, alloc1 0x0208 1, by decide +kernel⟩⟩

theorem witness_AllocTakesFramesFreeUnmaps_4 :
    (∃ (s : State) (cid : Nat) (c : Cmd), allocTurn s c = false ∧ Dispatched s cid 0x0209 c) ∧
    (∃ (s : State) (cid : Nat) (c : Cmd) (w first q : Nat) (frames : List (List Nat)), findCmd s cid = some c ∧ c.stage =
      .executed ∧ s.ctl.noMainClock = false ∧ w < 3 ∧ c.result = some (succeeded 0 [.mapSpans w first q frames])) ∧
    (∃ (s : State) (cid : Nat) (c : Cmd) (w first n : Nat), findCmd s cid = some c ∧ c.stage = .executed ∧
      s.ctl.noMainClock = false ∧ w < 3 ∧ c.result = some (succeeded 0 [.unmapSpans w first n])) :=
  ⟨⟨runs (runs spans allocFirst) (alloc1 0x0209 2), 7, alloc1 0x0209 2, by decide +kernel⟩,
  ⟨runs live { done with result := some (succeeded 0 [.mapSpans 0 1 0 [[1, 1, 1, 1, 1, 1, 1, 1]]]) }, 7,
    { done with result := some (succeeded 0 [.mapSpans 0 1 0 [[1, 1, 1, 1, 1, 1, 1, 1]]]) }, 0, 1, 0, [[1, 1, 1, 1, 1, 1, 1,
    1]], by decide +kernel⟩,
  ⟨runs live { done with result := some (succeeded 0 [.unmapSpans 2 0 1]) }, 7,
    { done with result := some (succeeded 0 [.unmapSpans 2 0 1]) }, 2, 0, 1, by decide +kernel⟩⟩

theorem witness_SettingCommandsReachTheirCommit_1 :
    (∃ (s : State) (cid : Nat) (c : Cmd) (n : Nat), Dispatched s cid 0x0707 c ∧ s.ctl.noMainClock = false ∧ n = c.arg 0x10
      2 ∧ c.signal ≠ n) ∧
    (∃ (s : State) (cid : Nat) (c : Cmd), Dispatched s cid 0x0708 c) ∧
    (∃ (s : State) (cid : Nat) (c : Cmd), Dispatched s cid 0x0504 c) ∧
    (∃ (s : State) (cid : Nat) (c : Cmd), Dispatched s cid 0x0703 c ∧ (∀ e ∈ s.ports, e.2.oldPhase = false)) :=
  ⟨⟨runs live (cmdOf 0 0x0707 [(0x10, 2, 100), (0x12, 2, 0xFFFF), (0x14, 1, 1)]), 7, cmdOf 0 0x0707 [(0x10, 2, 100), (0x12,
    2, 0xFFFF), (0x14, 1, 1)], 100, by decide +kernel⟩,
  ⟨runs live (cmdOf 0 0x0708 []), 7, cmdOf 0 0x0708 [], by decide +kernel⟩,
  ⟨runs live (cmdOf 0 0x0504 []), 7, cmdOf 0 0x0504 [], by decide +kernel⟩,
  ⟨runs (setPort live 23 Port.reset) (cmdOf 0 0x0703 []), 7, cmdOf 0 0x0703 [], by decide +kernel⟩⟩

theorem witness_SettingCommandsReachTheirCommit_2 :
    (∃ (s : State) (cid : Nat) (c : Cmd) (e : Nat × Port), Dispatched s cid 0x0703 c ∧ e ∈ s.ports ∧ e.2.oldPhase = true)
      ∧
    (∃ (s : State) (cid : Nat) (c : Cmd), Dispatched s cid 0x0704 c ∧ c.arg 0x10 6 ≠ s.job.step ∧ fenceOpen s c = false) ∧
    (∃ (s : State) (cid : Nat) (c x : Cmd), Dispatched s cid 0x0704 c ∧ c.arg 0x10 6 ≠ s.job.step ∧ x ∈ s.cmds ∧
      x.inFlight = true ∧ x.order < c.order ∧ namesTag x = true) ∧
    (∃ (s : State) (cid : Nat) (c : Cmd), Dispatched s cid 0x0704 c ∧ c.arg 0x10 6 = s.job.step) :=
  ⟨⟨runs (setPort live 23 { Port.reset with oldPhase := true }) (cmdOf 0 0x0703 []), 7, cmdOf 0 0x0703 [], (23,
    { Port.reset with oldPhase := true }), by decide +kernel⟩,
  ⟨runs live (cmdOf 0 0x0704 [(0x10, 6, 1)]), 7, cmdOf 0 0x0704 [(0x10, 6, 1)], by decide +kernel⟩,
  ⟨runs (runs live { cmdOf 1 0x0101 [(0x32, 1, 5)] with cid := 6 }) { cmdOf 0 0x0704 [(0x10, 6, 1)] with order := 9 }, 7,
    { cmdOf 0 0x0704 [(0x10, 6, 1)] with order := 9 }, { cmdOf 1 0x0101 [(0x32, 1, 5)] with cid := 6 }, by decide +kernel⟩,
  ⟨runs live (cmdOf 0 0x0704 []), 7, cmdOf 0 0x0704 [], by decide +kernel⟩⟩

theorem witness_SettingCommandsReachTheirCommit_3 :
    (∃ (s : State) (cid : Nat) (c : Cmd), Dispatched s cid 0x0602 c ∧ checkpointIssue s c = none ∧ isTorn (readDesc s
      (c.arg 0x10 2)) = false) ∧
    (∃ (s : State) (cid : Nat) (c : Cmd), Dispatched s cid 0x0602 c ∧ checkpointIssue s c = none ∧ isTorn (readDesc s
      (c.arg 0x10 2)) = true) ∧
    (∃ (s : State) (cid : Nat) (c : Cmd) (b : Bytes), Dispatched s cid 0x0603 c ∧ checkpointIssue s c = none ∧ c.arg 0x16
      1 = 1 ∧ hostImageGood b (blocksOf (cmdImages s c)) = true) ∧
    (∃ (s : State) (cid : Nat) (c : Cmd) (b : Bytes), Dispatched s cid 0x0603 c ∧ checkpointIssue s c = none ∧ c.arg 0x16
      1 = 1 ∧ hostImageGood b (blocksOf (cmdImages s c)) = false) :=
  ⟨⟨runs master (check1 0x0602), 7, check1 0x0602, by decide +kernel⟩,
  ⟨runs (hbmWrite master (descAddr master 1 + 0x28) (List.replicate 8 0xFF#8)) (check1 0x0602), 7, check1 0x0602,
    by decide +kernel⟩,
  ⟨runs master (check1 0x0603), 7, check1 0x0603, mirrorHeader 1 0 0 1 5 5 0 1, by decide +kernel⟩,
  ⟨runs master (check1 0x0603), 7, check1 0x0603, [], by decide +kernel⟩⟩

theorem witness_SettingCommandsReachTheirCommit_4 :
    (∃ (s : State) (cid : Nat) (c : Cmd) (mr : Mirror), Dispatched s cid 0x0603 c ∧ checkpointIssue s c = none ∧ c.arg
      0x16 1 = 0 ∧ mr = getMirror s (c.arg 0x17 1) ∧ (mr.source = false ∨ mr.desc ≠ c.arg 0x10 2 ∨ mr.state = 3 ∨ mr.state
      = 0)) ∧
    (∃ (s : State) (cid : Nat) (c : Cmd) (mr : Mirror) (m : TxMsg) (u : State) (t : _), Dispatched s cid 0x0603 c ∧
      checkpointIssue s c = none ∧ c.arg 0x16 1 = 0 ∧ mr = getMirror s (c.arg 0x17 1) ∧ mr.source = true ∧ mr.desc = c.arg
      0x10 2 ∧ mr.state ≠ 3 ∧ mr.state ≠ 0 ∧ c.holds = false ∧ u = putCmd s { c with holds := true } ∧ m = mirrorMsg s
      c.phase mr.laxis mr.partner (c.arg 0x17 1) 6 (some cid) [] ∧ sendTx u 0 m = some t) ∧
    (∃ (s : State) (cid : Nat) (c : Cmd) (mr : Mirror) (m : TxMsg) (u : State), Dispatched s cid 0x0603 c ∧
      checkpointIssue s c = none ∧ c.arg 0x16 1 = 0 ∧ mr = getMirror s (c.arg 0x17 1) ∧ mr.source = true ∧ mr.desc = c.arg
      0x10 2 ∧ mr.state ≠ 3 ∧ mr.state ≠ 0 ∧ c.holds = false ∧ u = putCmd s { c with holds := true } ∧ m = mirrorMsg s
      c.phase mr.laxis mr.partner (c.arg 0x17 1) 6 (some cid) [] ∧ sendTx u 0 m = none) ∧
    (∃ (s : State) (cid : Nat) (c : Cmd) (e : Err), checkpointIssue s c = some e ∧ signals e.1 = false ∧ Dispatched s cid
      0x0602 c) :=
  ⟨⟨runs (slotted 0 255) restore3, 7, restore3, getMirror (slotted 0 255) 3, by decide +kernel⟩,
  ⟨runs portedSlot restore3, 7, restore3, getMirror portedSlot 3, mirrorMsg portedSlot 0 0 1 3 6 (some 7) [], restoring
    portedSlot, ((sendTx (restoring portedSlot) 0 (mirrorMsg portedSlot 0 0 1 3 6 (some 7) [])).get (by decide +kernel)),
    by decide +kernel, by decide +kernel, by decide +kernel, by decide +kernel, by decide +kernel, by decide +kernel,
    by decide +kernel, by decide +kernel, by decide +kernel, rfl, rfl, (Option.some_get _).symm⟩,
  ⟨runs (slotted 1 0) restore3, 7, restore3, getMirror (slotted 1 0) 3, mirrorMsg (slotted 1 0) 0 0 1 3 6 (some 7) [],
    restoring (slotted 1 0), by decide +kernel, by decide +kernel, by decide +kernel, by decide +kernel, by decide +kernel,
    by decide +kernel, by decide +kernel, by decide +kernel, by decide +kernel, rfl, by decide +kernel⟩,
  ⟨runs live (check1 0x0602), 7, check1 0x0602, (checkpointIssue live (check1 0x0602)).getD (0, 0), by decide +kernel⟩⟩

theorem witness_SettingCommandsReachTheirCommit_5 :
    ∃ (s : State) (cid : Nat) (c : Cmd) (e : Err), checkpointIssue s c = some e ∧ signals e.1 = false ∧ Dispatched s cid
      0x0603 c :=
  ⟨runs live (check1 0x0603), 7, check1 0x0603, (checkpointIssue live (check1 0x0603)).getD (0, 0), by decide +kernel⟩

theorem witness_UpdatesWaitForTheVerdict :
    (∃ (s : State) (c : Cmd) (r : Result) (d : Desc) (slot mr : _), r = updateResult s c ∧ d = readDesc s (c.arg 0x10 2) ∧
      mirrorOf s d.id = some (slot, mr)) ∧
    (∃ (s : State) (k : UpdateK) (dm dg d1 d2 : Desc) (i : Nat) (old x : Elem), old.w = masterAt s.mem dm i ∧ old.m = (if
      d1.id = 0 then 0 else widenedAt s.mem d1 i) ∧ old.v = (if d2.id = 0 then 0 else widenedAt s.mem d2 i) ∧ x =
      updateElem k old (widenedAt s.mem dg i) ∧ isFinite x.w = false) ∧
    (∃ (s : State) (k : UpdateK) (dm dg d1 d2 : Desc) (i : Nat) (old x : Elem), old.w = masterAt s.mem dm i ∧ old.m = (if
      d1.id = 0 then 0 else widenedAt s.mem d1 i) ∧ old.v = (if d2.id = 0 then 0 else widenedAt s.mem d2 i) ∧ x =
      updateElem k old (widenedAt s.mem dg i) ∧ isFinite x.w = true ∧ d1.id = 0 ∧ d2.id = 0) :=
  ⟨⟨setMirror master 3 { Mirror.reset with source := true, partner := 1, desc := 1, state := 1 }, update1 0x0501,
    updateResult (setMirror master 3 { Mirror.reset with source := true, partner := 1, desc := 1, state := 1 }) (update1
    0x0501), readDesc master 1, 3, { Mirror.reset with source := true, partner := 1, desc := 1, state := 1 }, rfl,
    by decide +kernel⟩,
  ⟨hbmWrite master 0x10000 [0xFF#8, 0x7F#8], updateConsts (update1 0x0501), readDesc master 1, readDesc master 2, readDesc
    master 0, readDesc master 0, 0, { w := 0x7FFF0000#32, m := 0, v := 0 }, updateElem (updateConsts (update1 0x0501))
    { w := 0x7FFF0000#32, m := 0, v := 0 } 0, by decide +kernel⟩,
  ⟨master, updateConsts adamCmd, readDesc master 1, readDesc master 2, readDesc master 0, readDesc master 0, 0,
    { w := 0, m := 0, v := 0 }, updateElem (updateConsts adamCmd) { w := 0, m := 0, v := 0 } 0, by decide +kernel⟩⟩

/-- A module without memory stacks that hold anything: capacity 0. -/
def dieless : State := { bare with dies := { Dies.reset with states := [(0, 1), (1, 0), (4, 1), (5, 1)] } }

/-- LOAD_JOB of 16 Meres on each die. -/
def load1 (bytes : Nat) : Cmd := cmdOf 64 0x0701 [(0x10, 4, 5), (0x14, 2, 16), (0x20, 8, bytes)]

/-- An admin command. -/
def admin1 (op : Nat) : Cmd := cmdOf 64 op []

/-- A job that has been suspended. -/
def halted : State := { live with job := { live.job with suspended := true } }

/-- A failed job. -/
def broken : State := { live with job := { live.job with failed := true } }

/-- A run-class command of queue 63 in flight. -/
def copying : Cmd := { cmdOf 63 0x0207 [] with cid := 6 }

/-- The module in presence, without a job, with image type 1 stored at security version 9 under key slot 2. -/
def present : State :=
  { bare with
    sec := { Security.reset with
      windowUs := 1
      banks := [(1, { active := some { typ := 1, keySlot := 2, version := 0, svn := 9, measure := [], downgrade := false }
                      other := none, pending := false })]
      floors := [(1, 3)], storedFloors := [(1, 4)] }
    ctl := { bare.ctl with serial := 5#64 } }

/-- An image of type 1 and security version `svn` with an empty body. -/
def image (svn : Nat) : Bytes := lay 4096 [(0, 4, 0x46444C46), (4, 1, 1), (5, 1, 1), (0x10, 4, svn)]

/-- A debug token for the module of serial number 5. -/
def debugToken : Bytes := lay 4096 [(0, 4, 0x46444C46), (4, 1, 1), (5, 1, 0x10), (0x40, 8, 5)]

/-- What the signature and digest functions, which have no body (log 11), must answer for bytes signed under slot 0. -/
def Genuine (b : Bytes) : Prop :=
  slice (Config.shake256 (slice b 0x580 1793)) 0 32 = slice (Config.keyDigest 0) 0 32 ∧
  Config.falconVerify (slice b 0x580 1793) (slice b 0 0x80) (slice b 0x80 1280) = true ∧
  slice b 0x20 32 = slice (Config.shake256 (slice b 4096 (field b 0x18 8))) 0 32

theorem genuine_passes (s : State) (b : Bytes) (h : Genuine b) (hh : imageHeader b = true) (hk : field b 6 1 = 0)
    (hr : s.sec.revoked = []) (hs : field b 0x40 8 = 0 ∨ field b 0x40 8 = s.ctl.serial.toNat) : imageFault s b = none := by
  have h1 : imageKey s b = true := by simp [imageKey, hk, h.1, hr]
  have h3 : ¬ (field b 0x40 8 ≠ 0 ∧ field b 0x40 8 ≠ s.ctl.serial.toNat) := by
    rcases hs with hs | hs <;> simp [hs]
  simp only [imageFault, hh, h1, h.2.1, h.2.2, Bool.not_true, Bool.false_eq_true, if_false, ne_eq, not_true_eq_false]
  exact if_neg h3

/-- A command that a SUSPEND has stopped. -/
def stopped : Cmd := { copying with stage := .stopped }

/-- SPARE_OVERRIDE of position `p` of link `n`: kind 1 a bundle, kind 2 a port; `op` 1 adds. -/
def spare1 (kind n p op : Nat) : Cmd := cmdOf 64 0x0E04 [(0x10, 1, kind), (0x11, 1, n), (0x12, 1, p), (0x13, 1, op)]

/-- FUSE_WRITE. -/
def fuse1 (kind x v : Nat) : Cmd := cmdOf 64 0x0E05 [(0x10, 1, kind), (0x11, 1, x), (0x12, 1, v)]

/-- KEY_ROTATE to slot `k`. -/
def rotate1 (k : Nat) : Cmd := cmdOf 64 0x0E02 [(0x10, 1, k)]

/-- Positions that the permanent lane maps leave out. -/
def mapped : State := setBundle (setPort present 23 { Port.reset with nonVolatile := [9] }) 6 { Bundle.reset with nonVolatile := [67] }

/-- A debug token for every module. -/
def freeToken : Bytes := lay 4096 [(0, 4, 0x46444C46), (4, 1, 1), (5, 1, 0x10)]

/-- An END_JOB or SUSPEND taken up. -/
def takenUp (s : State) (c : Cmd) : State := putCmd s { c with holds := true }

/-- The images pass their checks where the functions without a body answer so. -/
theorem witness_ManagementCommandsTakeEffect_images (hg : Genuine (image 3)) (hg4 : Genuine (image 4)) :
    (∃ s cid c, Dispatched s cid 0x0F05 c) ∧ (∃ s cid c, Dispatched s cid 0x0E01 c ∧ presence s = true) ∧ (∃ (s : State)
      (b : Bytes), imageFault s b ≠ none ∨ field b 5 1 = 0x10) ∧ (∃ s b, imageFault s b = none ∧ field b 5 1 ≠ 0x10 ∧
      field b 0x10 4 < storedFloor s (field b 5 1)) ∧ (∃ s b, imageFault s b = none ∧ field b 5 1 ≠ 0x10 ∧ storedFloor s
      (field b 5 1) ≤ field b 0x10 4) ∧ (∃ s b, imageFault s b = none ∧ field b 5 1 ≠ 0x10 ∧ fusedFloor s (field b 5 1)
      ≤ field b 0x10 4) :=
  ⟨⟨runs present (admin1 0x0F05), 7, admin1 0x0F05, by decide +kernel⟩,
⟨runs present (admin1 0x0E01), 7, admin1 0x0E01, by decide +kernel⟩,
⟨live, [], by decide +kernel⟩,
⟨runs present (admin1 0x0F05), image 3, genuine_passes (runs present (admin1 0x0F05)) (image 3) hg (by decide +kernel) (by decide +kernel) rfl (.inl (by decide +kernel)), by decide +kernel⟩,
⟨runs present (admin1 0x0F05), image 4, genuine_passes (runs present (admin1 0x0F05)) (image 4) hg4 (by decide +kernel) (by decide +kernel) rfl (.inl (by decide +kernel)), by decide +kernel⟩,
⟨runs present (admin1 0x0E01), image 3, genuine_passes (runs present (admin1 0x0E01)) (image 3) hg (by decide +kernel) (by decide +kernel) rfl (.inl (by decide +kernel)), by decide +kernel⟩⟩

theorem witness_JobsAreLoadedSuspendedEnded_1 :
    (∃ (s : State) (cid : Nat) (c : Cmd), Dispatched s cid 0x0701 c ∧ (s.job.loaded = true ∨ s.ctl.kstate = 2)) ∧
    (∃ (s : State) (cid : Nat) (c : Cmd), Dispatched s cid 0x0701 c ∧ s.job.loaded = false ∧ s.ctl.kstate ≠ 2 ∧
      meresExposed s 0 < c.arg 0x14 2) ∧
    (∃ (s : State) (cid : Nat) (c : Cmd), Dispatched s cid 0x0701 c ∧ s.job.loaded = false ∧ s.ctl.kstate ≠ 2 ∧ c.arg 0x14
      2 ≤ meresExposed s 0 ∧ meresExposed s 1 < c.arg 0x14 2) ∧
    (∃ (s : State) (cid : Nat) (c : Cmd), Dispatched s cid 0x0701 c ∧ s.job.loaded = false ∧ s.ctl.kstate ≠ 2 ∧ c.arg 0x14
      2 ≤ meresExposed s 0 ∧ c.arg 0x14 2 ≤ meresExposed s 1 ∧ hbmAllocatable s < c.arg 0x20 8) :=
  ⟨⟨runs live (load1 0), 7, load1 0, by decide +kernel⟩,
  ⟨runs { dieless with dies := { Dies.reset with states := [(0, 2)] } } (load1 0), 7, load1 0, by decide +kernel⟩,
  ⟨runs { dieless with dies := { Dies.reset with states := [(1, 3)] } } (load1 0), 7, load1 0, by decide +kernel⟩,
  ⟨runs bare (load1 532039073793), 7, load1 532039073793, by decide +kernel⟩⟩

theorem witness_JobsAreLoadedSuspendedEnded_2 :
    (∃ (s : State) (cid : Nat) (c : Cmd), Dispatched s cid 0x0701 c ∧ s.job.loaded = false ∧ s.ctl.kstate ≠ 2 ∧ c.arg 0x14
      2 ≤ meresExposed s 0 ∧ c.arg 0x14 2 ≤ meresExposed s 1 ∧ c.arg 0x20 8 ≤ hbmAllocatable s) ∧
    (∃ (s : State) (cid : Nat) (c : Cmd), Dispatched s cid 0x0702 c ∧ s.job.loaded = false) ∧
    (∃ (s u : State) (cid : Nat) (c x : Cmd), Dispatched s cid 0x0702 c ∧ s.job.loaded = true ∧ u = (if c.holds then s
      else putCmd (endJobKill s) { c with holds := true }) ∧ c.holds = false ∧ x.q < 64 ∧ x ∈ u.cmds) ∧
    (∃ (s u : State) (cid : Nat) (c : Cmd), Dispatched s cid 0x0702 c ∧ s.job.loaded = true ∧ u = (if c.holds then s else
      putCmd (endJobKill s) { c with holds := true }) ∧ ((∃ x ∈ u.cmds, x.q < 64) ∨ (∃ e ∈ u.queues, e.1 < 64 ∧
      e.2.replies ≠ []))) :=
  ⟨⟨runs bare (load1 532039073792), 7, load1 532039073792, by decide +kernel⟩,
  ⟨runs bare (admin1 0x0702), 7, admin1 0x0702, by decide +kernel⟩,
  ⟨runs (runs live copying) (admin1 0x0702), takenUp (endJobKill (runs (runs live copying) (admin1 0x0702))) (admin1
    0x0702), 7, admin1 0x0702, copying, by decide +kernel, by decide +kernel, rfl, by decide +kernel⟩,
  ⟨runs (runs live copying) (admin1 0x0702), takenUp (endJobKill (runs (runs live copying) (admin1 0x0702))) (admin1
    0x0702), 7, admin1 0x0702, by decide +kernel, by decide +kernel, rfl, by decide +kernel⟩⟩

theorem witness_JobsAreLoadedSuspendedEnded_3 :
    (∃ (s u : State) (cid : Nat) (c : Cmd), Dispatched s cid 0x0702 c ∧ s.job.loaded = true ∧ u = (if c.holds then s else
      putCmd (endJobKill s) { c with holds := true }) ∧ (∀ x ∈ u.cmds, 64 ≤ x.q) ∧ (∀ e ∈ u.queues, e.1 < 64 → e.2.replies
      = [])) ∧
    (∃ (s : State) (cid : Nat) (c : Cmd), (s.job.loaded = false ∨ s.job.failed = true) ∧ Dispatched s cid 0x0705 c) ∧
    (∃ (s : State) (cid : Nat) (c : Cmd), (s.job.loaded = false ∨ s.job.failed = true) ∧ Dispatched s cid 0x0706 c) ∧
    (∃ (s : State) (cid : Nat) (c : Cmd), s.job.loaded = true ∧ s.job.failed = false ∧ Dispatched s cid 0x0705 c ∧
      s.job.suspended = true ∧ c.holds = false) :=
  ⟨⟨runs live (admin1 0x0702), takenUp (endJobKill (runs live (admin1 0x0702))) (admin1 0x0702), 7, admin1 0x0702,
    by decide +kernel, by decide +kernel, rfl, by decide +kernel⟩,
  ⟨runs broken (admin1 0x0705), 7, admin1 0x0705, by decide +kernel⟩,
  ⟨runs bare (admin1 0x0706), 7, admin1 0x0706, by decide +kernel⟩,
  ⟨runs halted (admin1 0x0705), 7, admin1 0x0705, by decide +kernel⟩⟩

theorem witness_JobsAreLoadedSuspendedEnded_4 :
    (∃ (s : State) (cid : Nat) (c : Cmd), s.job.loaded = true ∧ s.job.failed = false ∧ Dispatched s cid 0x0706 c ∧
      s.job.suspended = false) ∧
    (∃ (s : State) (cid : Nat) (c : Cmd), s.job.loaded = true ∧ s.job.failed = false ∧ Dispatched s cid 0x0706 c ∧
      s.job.suspended = true) ∧
    (∃ (s : State) (x : Cmd), x ∈ s.cmds ∧ x.stage = .stopped ∧ x.cid ∉ s.rel.toRerun) ∧
    (∃ (s u : State) (cid : Nat) (c : Cmd), Dispatched s cid 0x0705 c ∧ s.job.loaded = true ∧ s.job.failed = false ∧
      s.job.suspended = c.holds ∧ u = (if c.holds then s else putCmd (suspendStart s) { c with holds := true }) ∧ (∃ x ∈
      u.cmds, x.q < 64 ∧ x.inFlight = true)) :=
  ⟨⟨runs live (admin1 0x0706), 7, admin1 0x0706, by decide +kernel⟩,
  ⟨runs halted (admin1 0x0706), 7, admin1 0x0706, by decide +kernel⟩,
  ⟨runs live stopped, stopped, by decide +kernel⟩,
  ⟨runs (runs live copying) (admin1 0x0705), takenUp (suspendStart (runs (runs live copying) (admin1 0x0705))) (admin1
    0x0705), 7, admin1 0x0705, by decide +kernel, by decide +kernel, by decide +kernel, by decide +kernel, rfl,
    by decide +kernel⟩⟩

theorem witness_JobsAreLoadedSuspendedEnded_5 :
    ∃ (s u : State) (cid : Nat) (c : Cmd), Dispatched s cid 0x0705 c ∧ s.job.loaded = true ∧ s.job.failed = false ∧
      s.job.suspended = c.holds ∧ u = (if c.holds then s else putCmd (suspendStart s) { c with holds := true }) ∧ (∀ x ∈
      u.cmds, x.q < 64 → x.inFlight = false) :=
  ⟨runs live (admin1 0x0705), takenUp (suspendStart (runs live (admin1 0x0705))) (admin1 0x0705), 7, admin1 0x0705,
    by decide +kernel, by decide +kernel, by decide +kernel, by decide +kernel, rfl, by decide +kernel⟩

theorem witness_ManagementCommandsTakeEffect :
    (∃ (s : State) (cid : Nat) (c : Cmd), Dispatched s cid 0x0F01 c) ∧
    (∃ (s : State) (cid : Nat) (c : Cmd) (w : Nat), Dispatched s cid 0x0F02 c ∧ w = c.arg 0x10 2) ∧
    (∃ (s : State) (cid : Nat) (c : Cmd), Dispatched s cid 0x0F03 c) ∧
    (∃ (s : State) (cid : Nat) (c : Cmd) (b : Bytes), Dispatched s cid 0x0F04 c ∧ b = (heldEntries s (c.arg 0x20 4) (c.arg
      0x24 2)).flatMap logBytes) ∧
    (∃ (s : State) (cid : Nat) (c : Cmd), Dispatched s cid 0x0F06 c) :=
  ⟨⟨runs live (admin1 0x0F01), 7, admin1 0x0F01, by decide +kernel⟩,
  ⟨runs live (cmdOf 64 0x0F02 [(0x10, 2, 3000)]), 7, cmdOf 64 0x0F02 [(0x10, 2, 3000)], 3000, by decide +kernel⟩,
  ⟨runs live (admin1 0x0F03), 7, admin1 0x0F03, by decide +kernel⟩,
  ⟨runs live (admin1 0x0F04), 7, admin1 0x0F04, [], by decide +kernel⟩,
  ⟨runs live (admin1 0x0F06), 7, admin1 0x0F06, by decide +kernel⟩⟩

/-- The debug tokens pass their checks where the functions without a body answer so. -/
theorem witness_PrivilegeNeedsPresence_1 (hg : Genuine debugToken) (hf : Genuine freeToken) :
    (∃ (s : State) (cid : Nat) (c : Cmd), s.sec.windowUs = 0 ∧ (s.sec.jumper = false ∨ s.sec.jumperIgnore = true ∨
      s.sec.jumperFused = true) ∧ Dispatched s cid 0x0E01 c) ∧
    (∃ (s : State) (cid : Nat) (c : Cmd), s.sec.windowUs = 0 ∧ (s.sec.jumper = false ∨ s.sec.jumperIgnore = true ∨
      s.sec.jumperFused = true) ∧ Dispatched s cid 0x0E02 c) ∧
    (∃ (s : State) (cid : Nat) (c : Cmd), s.sec.windowUs = 0 ∧ (s.sec.jumper = false ∨ s.sec.jumperIgnore = true ∨
      s.sec.jumperFused = true) ∧ Dispatched s cid 0x0E03 c) ∧
    (∃ (s : State) (cid : Nat) (c : Cmd), s.sec.windowUs = 0 ∧ (s.sec.jumper = false ∨ s.sec.jumperIgnore = true ∨
      s.sec.jumperFused = true) ∧ Dispatched s cid 0x0E04 c) :=
  ⟨⟨runs bare (admin1 0x0E01), 7, admin1 0x0E01, by decide +kernel⟩,
  ⟨runs bare (admin1 0x0E02), 7, admin1 0x0E02, by decide +kernel⟩,
  ⟨runs bare (admin1 0x0E03), 7, admin1 0x0E03, by decide +kernel⟩,
  ⟨runs bare (admin1 0x0E04), 7, admin1 0x0E04, by decide +kernel⟩⟩

/-- The debug tokens pass their checks where the functions without a body answer so. -/
theorem witness_PrivilegeNeedsPresence_2 (hg : Genuine debugToken) (hf : Genuine freeToken) :
    (∃ (s : State) (cid : Nat) (c : Cmd), s.sec.windowUs = 0 ∧ (s.sec.jumper = false ∨ s.sec.jumperIgnore = true ∨
      s.sec.jumperFused = true) ∧ Dispatched s cid 0x0E05 c) ∧
    (∃ (s : State) (cid : Nat) (c : Cmd) (k : Nat), Dispatched s cid 0x0E02 c ∧ presence s = true ∧ k = c.arg 0x10 1 ∧ k ≤
      lowestSlot s) ∧
    (∃ (s : State) (cid : Nat) (c : Cmd) (k : Nat) (e : Nat × Banks) (x : Image), Dispatched s cid 0x0E02 c ∧ presence s =
      true ∧ k = c.arg 0x10 1 ∧ lowestSlot s < k ∧ e ∈ s.sec.banks ∧ (e.2.active = some x ∨ e.2.pending = true ∧ e.2.other
      = some x) ∧ x.keySlot < k) ∧
    (∃ (s : State) (cid : Nat) (c : Cmd) (k : Nat), Dispatched s cid 0x0E02 c ∧ presence s = true ∧ k = c.arg 0x10 1 ∧
      lowestSlot s < k ∧ (∀ e ∈ s.sec.banks, (∀ x, e.2.active = some x → k ≤ x.keySlot) ∧ (e.2.pending = true → ∀ x,
      e.2.other = some x → k ≤ x.keySlot))) :=
  ⟨⟨runs bare (admin1 0x0E05), 7, admin1 0x0E05, by decide +kernel⟩,
  ⟨runs present (rotate1 0), 7, rotate1 0, 0, by decide +kernel⟩,
  ⟨runs present (rotate1 3), 7, rotate1 3, 3, present.sec.banks.headD (0, Banks.reset),
    { typ := 1, keySlot := 2, version := 0, svn := 9, measure := [], downgrade := false }, by decide +kernel⟩,
  ⟨runs present (rotate1 2), 7, rotate1 2, 2, by decide +kernel, by decide +kernel, by decide +kernel, by decide +kernel, by
    intro e he; cases he with | head => exact ⟨fun x hx => by cases hx; decide, fun h => by cases h⟩ | tail _ h => cases h⟩⟩

/-- The debug tokens pass their checks where the functions without a body answer so. -/
theorem witness_PrivilegeNeedsPresence_3 (hg : Genuine debugToken) (hf : Genuine freeToken) :
    (∃ (s : State) (cid : Nat) (c : Cmd), Dispatched s cid 0x0E03 c ∧ presence s = true ∧ s.job.loaded = true) ∧
    (∃ (s : State) (cid : Nat) (c : Cmd) (host : HostRead), Dispatched s cid 0x0E03 c ∧ presence s = true ∧ s.job.loaded =
      false ∧ host = .failed) ∧
    (∃ (s : State) (cid : Nat) (c : Cmd) (host : HostRead) (b : _), Dispatched s cid 0x0E03 c ∧ presence s = true ∧
      s.job.loaded = false ∧ host = .data b ∧ (imageFault s b ≠ none ∨ field b 5 1 ≠ 0x10)) ∧
    (∃ (s : State) (cid : Nat) (c : Cmd) (host : HostRead) (b : _), Dispatched s cid 0x0E03 c ∧ presence s = true ∧
      s.job.loaded = false ∧ host = .data b ∧ imageFault s b = none ∧ field b 5 1 = 0x10 ∧ field b 0x40 8 = 0) :=
  ⟨⟨runs { live with sec := present.sec } (admin1 0x0E03), 7, admin1 0x0E03, by decide +kernel⟩,
  ⟨runs present (admin1 0x0E03), 7, admin1 0x0E03, .failed, by decide +kernel⟩,
  ⟨runs present (admin1 0x0E03), 7, admin1 0x0E03, .data [], [], by decide +kernel⟩,
  ⟨runs present (admin1 0x0E03), 7, admin1 0x0E03, .data freeToken, freeToken, by decide +kernel, by decide +kernel,
    by decide +kernel, rfl, genuine_passes (runs present (admin1 0x0E03)) freeToken hf (by decide +kernel)
    (by decide +kernel) rfl (.inl (by decide +kernel)), by decide +kernel⟩⟩

/-- The debug tokens pass their checks where the functions without a body answer so. -/
theorem witness_PrivilegeNeedsPresence_4 (hg : Genuine debugToken) (hf : Genuine freeToken) :
    (∃ (s : State) (cid : Nat) (c : Cmd) (host : HostRead) (b : _), Dispatched s cid 0x0E03 c ∧ presence s = true ∧
      s.job.loaded = false ∧ host = .data b ∧ imageFault s b = none ∧ field b 5 1 = 0x10 ∧ field b 0x40 8 ≠ 0) ∧
    (∃ (s : State) (cid : Nat) (c : Cmd) (p : Nat), Dispatched s cid 0x0E04 c ∧ presence s = true ∧ p = c.arg 0x12 1 ∧
      c.arg 0x10 1 = 1 ∧ (c.arg 0x13 1 = 1 ↔ p ∉ (getBundle s (c.arg 0x11 1)).nonVolatile)) ∧
    (∃ (s : State) (cid : Nat) (c : Cmd) (p : Nat), Dispatched s cid 0x0E04 c ∧ presence s = true ∧ p = c.arg 0x12 1 ∧
      c.arg 0x10 1 = 1 ∧ (c.arg 0x13 1 = 1 ↔ p ∈ (getBundle s (c.arg 0x11 1)).nonVolatile)) ∧
    (∃ (s : State) (cid : Nat) (c : Cmd) (p : Nat), Dispatched s cid 0x0E04 c ∧ presence s = true ∧ p = c.arg 0x12 1 ∧
      c.arg 0x10 1 = 2 ∧ (c.arg 0x13 1 = 1 ↔ p ∉ (getPort s (c.arg 0x11 1)).nonVolatile)) :=
  ⟨⟨runs present (admin1 0x0E03), 7, admin1 0x0E03, .data debugToken, debugToken, by decide +kernel, by decide +kernel,
    by decide +kernel, rfl, genuine_passes (runs present (admin1 0x0E03)) debugToken hg (by decide +kernel)
    (by decide +kernel) rfl (.inr (by decide +kernel)), by decide +kernel⟩,
  ⟨runs present (spare1 1 6 67 1), 7, spare1 1 6 67 1, 67, by decide +kernel⟩,
  ⟨runs mapped (spare1 1 6 67 1), 7, spare1 1 6 67 1, 67, by decide +kernel⟩,
  ⟨runs present (spare1 2 23 9 1), 7, spare1 2 23 9 1, 9, by decide +kernel⟩⟩

/-- The debug tokens pass their checks where the functions without a body answer so. -/
theorem witness_PrivilegeNeedsPresence_5 (hg : Genuine debugToken) (hf : Genuine freeToken) :
    (∃ (s : State) (cid : Nat) (c : Cmd) (p : Nat), Dispatched s cid 0x0E04 c ∧ presence s = true ∧ p = c.arg 0x12 1 ∧
      c.arg 0x10 1 = 2 ∧ (c.arg 0x13 1 = 1 ↔ p ∈ (getPort s (c.arg 0x11 1)).nonVolatile)) ∧
    (∃ (s : State) (cid : Nat) (c : Cmd) (x v : Nat), Dispatched s cid 0x0E05 c ∧ presence s = true ∧ x = c.arg 0x11 1 ∧ v
      = c.arg 0x12 1 ∧ c.arg 0x10 1 = 2) ∧
    (∃ (s : State) (cid : Nat) (c : Cmd) (x v : Nat), Dispatched s cid 0x0E05 c ∧ presence s = true ∧ x = c.arg 0x11 1 ∧ v
      = c.arg 0x12 1 ∧ c.arg 0x10 1 = 1 ∧ (v ≤ fusedFloor s x ∨ 63 < v ∨ (banksOf s x).active = none ∨ (∃ y, (banksOf s
      x).active = some y ∧ y.svn < v)) ∧ 0 < v) ∧
    (∃ (s : State) (cid : Nat) (c : Cmd) (x v : Nat), Dispatched s cid 0x0E05 c ∧ presence s = true ∧ x = c.arg 0x11 1 ∧ v
      = c.arg 0x12 1 ∧ c.arg 0x10 1 = 1 ∧ fusedFloor s x < v ∧ v ≤ 63 ∧ (∃ y, (banksOf s x).active = some y ∧ v ≤ y.svn)) :=
  ⟨⟨runs mapped (spare1 2 23 9 1), 7, spare1 2 23 9 1, 9, by decide +kernel⟩,
  ⟨runs present (fuse1 2 0 0), 7, fuse1 2 0 0, 0, 0, by decide +kernel⟩,
  ⟨runs present (fuse1 1 1 3), 7, fuse1 1 1 3, 1, 3, by decide +kernel, by decide +kernel, by decide +kernel,
    by decide +kernel, by decide +kernel, .inl (by decide +kernel), by decide +kernel⟩,
  ⟨runs present (fuse1 1 1 9), 7, fuse1 1 1 9, 1, 9, by decide +kernel, by decide +kernel, by decide +kernel,
    by decide +kernel, by decide +kernel, by decide +kernel, by decide +kernel, ⟨_, rfl, by decide +kernel⟩⟩⟩

/-- The data port at an address. -/
def portAt (s : State) (a : DWord) : State := { s with mgmt := { s.mgmt with dpAddr := a } }

/-- The controller with link on port 1, the active one. -/
def managed : State := { live with mgmt := { Mgmt.reset with active := 1, link1 := true } }

/-- A datagram: op, sequence number 1, length, address. -/
def datagram (op len addr : Nat) (data : Bytes) : Bytes :=
  toLe 4 0x51444C46 ++ toLe 1 op ++ toLe 1 0 ++ toLe 2 len ++ toLe 4 1 ++ toLe 4 0 ++ toLe 8 addr ++ data

/-- A command datagram of an opcode outside groups 0x0E and 0x0F. -/
def strangeCommand : Bytes := datagram 5 64 0 (lay 64 [(0, 2, 0x0701), (3, 1, 2)])

theorem witness_ConfigurationWritesTakeEffect_1 :
    (∃ (s : State) (src : Source) (tag : Nat), sourceUp s src = true ∧ 1 ≤ tag ∧ tag ≤ 255) ∧
    (∃ (s : State) (src : Source) (d : Nat), sourceUp s src = true ∧ d < 2) ∧
    (∃ (s : State) (src : Source) (n : Nat), sourceUp s src = true ∧ dieState s 4 = 1 ∧ n < 16) ∧
    (∃ (s : State), sourceUp s .cores = true) :=
  ⟨⟨live, .host, 255, by decide +kernel⟩,
  ⟨live, .dataPort, 1, by decide +kernel⟩,
  ⟨live, .cores, 15, by decide +kernel⟩,
  ⟨live, by decide +kernel⟩⟩

theorem witness_ConfigurationWritesTakeEffect_2 :
    (∃ (s : State) (src : Source), sourceUp s src = true ∧ presence s = true) ∧
    (∃ (s : State) (src : Source), sourceUp s src = true ∧ presence s = false) :=
  ⟨⟨present, .host, by decide +kernel⟩,
  ⟨bare, .dataPort, by decide +kernel⟩⟩

theorem witness_RegisterWritesFollowTheirAccessCode_1 :
    (∃ (src : Source) (off : Nat), src ≠ .hostMsix ∧ off < 0x100 ∧ off % 4 = 0) ∧
    (∃ (s : State) (src : Source), sourceUp s src = true) ∧
    (∃ (s : State) (q : Nat), q ≤ 64 ∧ barsUp s = true) ∧
    (∃ (s : State) (src : Source), sourceUp s src = true) :=
  ⟨⟨.host, 0xFC, by decide +kernel⟩,
  ⟨live, .cores, by decide +kernel⟩,
  ⟨live, 64, by decide +kernel⟩,
  ⟨live, .dataPort, by decide +kernel⟩⟩

theorem witness_RegisterWritesFollowTheirAccessCode_2 :
    (∃ (s : State) (off : Nat), barsUp s = true ∧ off % 4 = 0 ∧ off < 0x4000) ∧
    (∃ (s : State) (off : Nat), barsUp s = true ∧ off % 4 = 0 ∧ 0x4000 ≤ off) :=
  ⟨⟨live, 0x3FFC, by decide +kernel⟩,
  ⟨live, 0x4000, by decide +kernel⟩⟩

theorem witness_ApertureReadsAndWritesMemory_1 :
    (∃ (s : State) (off n a : Nat) (hbm : Sector), barsUp s = true ∧ a = s.ctl.apbase.toNat / 2 ^ 32 * 2 ^ 32 + off % 2 ^
      32 ∧ reachable s a n = true ∧ hbm ≠ .uncorrectable) ∧
    (∃ (s : State) (off n a : Nat), barsUp s = true ∧ a = s.ctl.apbase.toNat / 2 ^ 32 * 2 ^ 32 + off % 2 ^ 32 ∧
      s.mem.mappedRange a n = false) ∧
    (∃ (s : State) (off a : Nat) (b : Bytes) (hbm : Sector), barsUp s = true ∧ a = s.ctl.apbase.toNat / 2 ^ 32 * 2 ^ 32 +
      off % 2 ^ 32 ∧ Safe s ∧ reachable s a b.length = true ∧ (∀ x, a ≤ x → x < a + b.length → claimAt s.mem.claims x =
      none) ∧ (hbm ≠ .uncorrectable ∨ a % 64 = 0 ∧ b.length % 64 = 0)) ∧
    (∃ (s : State) (off a : Nat) (b : Bytes), barsUp s = true ∧ a = s.ctl.apbase.toNat / 2 ^ 32 * 2 ^ 32 + off % 2 ^ 32 ∧
      reachable s a b.length = true ∧ (a % 64 ≠ 0 ∨ b.length % 64 ≠ 0)) :=
  ⟨⟨live, 0xFFFFFC, 4, 0xFFFFFC, .corrected, by decide +kernel⟩,
  ⟨{ live with ctl := { live.ctl with apbase := 0x100000001#64 } }, 0xFFFFFFFC, 4, 0x1FFFFFFFC, by decide +kernel⟩,
  ⟨live, 0, 0, [1#8, 2#8], .clean, by decide +kernel, by decide +kernel, by decide +kernel, by decide +kernel, fun _ _ _ =>
    rfl, by decide +kernel⟩,
  ⟨live, 0xFFFFFF, 0xFFFFFF, [1#8], by decide +kernel⟩⟩

theorem witness_ApertureReadsAndWritesMemory_2 :
    (∃ (s : State) (off a : Nat) (b : Bytes), barsUp s = true ∧ a = s.ctl.apbase.toNat / 2 ^ 32 * 2 ^ 32 + off % 2 ^ 32 ∧
      s.mem.mappedRange a b.length = false) ∧
    (∃ (s : State) (a n : Nat) (b : Bytes), sourceUp s .cores = true ∧ s.job.loaded = true ∧ reachable s a n = true ∧ Safe
      s ∧ b.length = n ∧ (∀ x, a ≤ x → x < a + n → claimAt s.mem.claims x = none)) ∧
    (∃ (s : State) (off n : Nat) (b : Bytes), sourceUp s .cores = true ∧ off + n ≤ coreSize ∧ (∀ k, k < 8 → (s.mem.stack
      k).present = true ∧ (s.mem.stack k).selfRefresh = false) ∧ Safe s ∧ b.length = n ∧ (∀ x, coreBase + off ≤ x → x <
      coreBase + off + n → claimAt s.mem.claims x = none)) ∧
    (∃ (s : State) (via : Via) (off n : Nat) (b : Bytes), via ≠ .aperture ∧ sourceUp s .cores = true ∧ viaReach s (viaAddr
      s off via) n via = false ∧ b.length = n) :=
  ⟨⟨live, 0xFFFFFF, 0xFFFFFF, [1#8, 2#8], by decide +kernel⟩,
  ⟨live, 0xFFFFFE, 2, [1#8, 2#8], by decide +kernel, by decide +kernel, by decide +kernel, by decide +kernel,
    by decide +kernel, fun _ _ _ => rfl⟩,
  ⟨live, 0x3FFFFFFFF, 1, [1#8], by decide +kernel, by decide +kernel, by decide +kernel, by decide +kernel,
    by decide +kernel, fun _ _ _ => rfl⟩,
  ⟨bare, .coreJob, 0, 1, [1#8], by decide +kernel⟩⟩

theorem witness_ApertureReadsAndWritesMemory_3 :
    ∃ (s : State) (via : Via), viaUp s via = false :=
  ⟨{ live with ctl := { live.ctl with noMainClock := true } }, .coreWindow, by decide +kernel⟩

theorem witness_EndpointAndDataPortAnswer_1 :
    (∃ (s : State), s.ctl.noMainClock = false ∧ s.ctl.perst = true) ∧
    (∃ (s : State), s.ctl.noMainClock = false ∧ s.ctl.perst = false ∧ s.ctl.endpointOn = false) ∧
    (∃ (s : State), s.ctl.noMainClock = false ∧ s.ctl.perst = false ∧ s.ctl.endpointOn = true) ∧
    (∃ (s : State), s.ctl.noMainClock = false ∧ s.ctl.perst = false ∧ s.ctl.endpointOn = true) :=
  ⟨⟨{ live with ctl := { live.ctl with perst := true } }, by decide +kernel⟩,
  ⟨{ live with ctl := { live.ctl with endpointOn := false } }, by decide +kernel⟩,
  ⟨live, by decide +kernel⟩,
  ⟨live, by decide +kernel⟩⟩

theorem witness_EndpointAndDataPortAnswer_2 :
    (∃ (s : State) (a : Nat), s.mgmt.dpAddr.toNat = a ∧ a % 4 = 0 ∧ a < 0x100000 ∧ s.ctl.noFirmware = false ∧ 94 ∈
      s.power.domains ∧ 0x10000 ≤ a ∧ a < 0x10000 + 65 * 0x40) ∧
    (∃ (s : State) (a : Nat), s.mgmt.dpAddr.toNat = a ∧ a % 4 = 0 ∧ a < 0x100000 ∧ s.ctl.noFirmware = false ∧ 94 ∈
      s.power.domains ∧ (a < 0x10000 ∨ 0x10000 + 65 * 0x40 ≤ a)) ∧
    (∃ (s : State) (a : Nat), s.mgmt.dpAddr.toNat = 2 ^ 60 + a ∧ a % 4 = 0 ∧ a < 2 ^ 60 - 4 ∧ s.ctl.noFirmware = false ∧
      94 ∈ s.power.domains ∧ (s.job.loaded = false ∨ s.mem.mappedRange a 4 = false)) ∧
    (∃ (s : State) (a : Nat), s.mgmt.dpAddr.toNat = 2 ^ 60 + a ∧ a % 4 = 0 ∧ a < 2 ^ 60 - 4 ∧ s.ctl.noFirmware = false ∧
      94 ∈ s.power.domains ∧ Safe s ∧ s.job.loaded = true ∧ s.ctl.kstate ≠ 2 ∧ reachable s a 4 = true ∧ (∀ x, a ≤ x → x <
      a + 4 → claimAt s.mem.claims x = none)) :=
  ⟨⟨portAt live 0x1103C#64, 0x1103C, by decide +kernel⟩,
  ⟨portAt live 0x11040#64, 0x11040, by decide +kernel⟩,
  ⟨portAt bare 0x1FFFFFFFFFFFFFF8#64, 2 ^ 60 - 8, by decide +kernel⟩,
  ⟨portAt live 0x1000000000FFFFFC#64, 0xFFFFFC, by decide +kernel, by decide +kernel, by decide +kernel, by decide +kernel,
    by decide +kernel, by decide +kernel, by decide +kernel, by decide +kernel, by decide +kernel, fun _ _ _ => rfl⟩⟩

theorem witness_EndpointAndDataPortAnswer_3 :
    (∃ (s : State) (a : Nat), s.mgmt.dpAddr.toNat = 2 ^ 61 + a ∧ a % 4 = 0 ∧ a < 14 * 0x20) ∧
    (∃ (s : State) (a : Nat), s.mgmt.dpAddr.toNat = 2 ^ 61 + a ∧ a % 4 = 0 ∧ a < 14 * 0x20) ∧
    (∃ (s : State), s.mgmt.dpAddr.toNat % 4 ≠ 0) :=
  ⟨⟨portAt live 0x20000000000001BC#64, 0x1BC, by decide +kernel⟩,
  ⟨portAt live 0x2000000000000000#64, 0, by decide +kernel⟩,
  ⟨portAt live 3#64, by decide +kernel⟩⟩

theorem witness_ManagementPortsServeDatagrams_1 :
    (∃ (s : State) (p : Nat) (b : Bytes), p < 2 ∧ mgtAnswers s p = true ∧ dgOk b = true ∧ field b 4 1 = 1) ∧
    (∃ (s : State) (p : Nat) (b : Bytes), p < 2 ∧ mgtAnswers s p = true ∧ dgOk b = true ∧ field b 4 1 = 2) ∧
    (∃ (s : State) (p : Nat) (b : Bytes), p < 2 ∧ mgtAnswers s p = true ∧ dgOk b = true ∧ field b 4 1 = 3) ∧
    (∃ (s : State) (p : Nat) (b : Bytes), p < 2 ∧ mgtAnswers s p = true ∧ dgOk b = true ∧ field b 4 1 = 4) :=
  ⟨⟨managed, 1, datagram 1 4 0x1000000000000000 [], by decide +kernel⟩,
  ⟨managed, 1, datagram 2 4 0x1000000000000000 [0, 0, 0, 0], by decide +kernel⟩,
  ⟨managed, 1, datagram 3 4 0x104 [], by decide +kernel⟩,
  ⟨managed, 1, datagram 4 4 0x104 [0, 0, 0, 0], by decide +kernel⟩⟩

theorem witness_ManagementPortsServeDatagrams_2 :
    (∃ (s : State) (p : Nat) (b : Bytes), p < 2 ∧ mgtAnswers s p = true ∧ dgOk b = true ∧ field b 4 1 = 5) ∧
    (∃ (s : State) (p : Nat) (b : Bytes) (hbm : Sector) (host : HostRead) (i : Instr), p < 2 ∧ (i = .mgmtBurstRead p b hbm
      ∨ i = .mgmtBurstWrite p b hbm ∨ i = .mgmtRegisterRead p b hbm ∨ i = .mgmtRegisterWrite p b hbm ∨ i = .mgmtCommand p
      b host) ∧ (95 ∉ s.power.domains ∨ p ≠ s.mgmt.active ∨ mgtLink s p = false)) ∧
    (∃ (s : State) (p : Nat) (b : Bytes) (hbm : Sector) (host : HostRead) (i : Instr), p < 2 ∧ (i = .mgmtBurstRead p b hbm
      ∨ i = .mgmtBurstWrite p b hbm ∨ i = .mgmtRegisterRead p b hbm ∨ i = .mgmtRegisterWrite p b hbm ∨ i = .mgmtCommand p
      b host) ∧ mgtAnswers s p = true ∧ dgOk b = false) ∧
    (∃ (b : Bytes), 4096 < field b 0x10 8 % 4096 + field b 6 2) :=
  ⟨⟨managed, 1, strangeCommand, by decide +kernel⟩,
  ⟨managed, 0, [], .clean, .failed, .mgmtBurstRead 0 [] .clean, by decide +kernel, .inl rfl, by decide +kernel⟩,
  ⟨managed, 1, [], .clean, .failed, .mgmtBurstWrite 1 [] .clean, by decide +kernel, .inr (.inl rfl), by decide +kernel⟩,
  ⟨datagram 1 8 0xFFC [], by decide +kernel⟩⟩

theorem witness_ManagementPortsServeDatagrams_3 :
    (∃ (s s1 : State) (b : Bytes) (hbm : Sector) (w : Word), field b 0x10 8 % 4096 + 4 ≤ 4096 ∧ field b 6 2 = 4 ∧ dpRead
      { s with mgmt := { s.mgmt with dpAddr := BitVec.ofNat 64 (field b 0x10 8), count := 4 } } hbm = (s1, some w)) ∧
    (∃ (s : State) (b : Bytes), s.ctl.noFirmware = false ∧ field b 0x10 8 = 0 ∧ field b 6 2 = 8) ∧
    (∃ (s : State) (b : Bytes), s.ctl.noFirmware = false ∧ field b 0x10 8 = 0xC ∧ field b 6 2 = 4) ∧
    (∃ (s : State) (b : Bytes), s.ctl.noFirmware = false ∧ field b 0x10 8 = 0 ∧ b.length = 0x20) :=
  ⟨⟨managed, (dpRead (portAt managed 0x104#64) .clean).1, datagram 3 4 0x104 [], .clean, BitVec.ofNat 32 (bar0Word managed
    0x104), by decide +kernel, by decide +kernel, Prod.ext rfl (by decide +kernel)⟩,
  ⟨managed, datagram 3 8 0 [], by decide +kernel⟩,
  ⟨managed, datagram 3 4 0xC [], by decide +kernel⟩,
  ⟨managed, datagram 4 8 0 [0, 0, 0, 0, 0, 0, 0, 0], by decide +kernel⟩⟩

theorem witness_ManagementPortsServeDatagrams_4 :
    (∃ (s : State) (b : Bytes) (host : HostRead) (r : Served), r = serveCommand s b host ∧ kRuns s = true ∧ field b 0x1B 1
      = 2 ∧ field b 0x19 1 ≠ 0x0E ∧ field b 0x19 1 ≠ 0x0F ∧ b.length = 0x58) ∧
    (∃ (s : State) (p : Nat), p < 2 ∧ mgtLink s p = false) ∧
    (∃ (s : State) (p : Nat), p < 2 ∧ mgtLink s p = true) ∧
    (∃ (s : State), s.mgmt.active < 2 ∧ mgtLink s s.mgmt.active = false ∧ mgtLink s (1 - s.mgmt.active) = true) :=
  ⟨⟨managed, strangeCommand, .failed, serveCommand managed strangeCommand .failed, rfl, by decide +kernel⟩,
  ⟨managed, 0, by decide +kernel⟩,
  ⟨managed, 1, by decide +kernel⟩,
  ⟨{ live with mgmt := { Mgmt.reset with link1 := true } }, by decide +kernel⟩⟩

theorem witness_ManagementPortsServeDatagrams_5 :
    (∃ (s : State), s.mgmt.active < 2 ∧ (mgtLink s s.mgmt.active = true ∨ mgtLink s (1 - s.mgmt.active) = false)) ∧
    (∃ (s : State) (p : Nat), p < 2 ∧ mgtAnswers s p = false) :=
  ⟨⟨managed, by decide +kernel⟩,
  ⟨managed, 0, by decide +kernel⟩⟩

theorem witness_SidebandAnswersItsCommands :
    (∃ (s : State) (pec high : Bool) (w : Option Word) (hbm : Sector) (i : Instr), (pec = false ∨ 95 ∉ s.power.domains) ∧
      (i = .statusWord pec ∨ i = .clearFaults pec ∨ i = .readVin pec ∨ i = .readIin pec ∨ i = .readPin pec ∨ i =
      .smbusDpAddr pec high w ∨ i = .smbusDpData pec w hbm ∨ i = .smbusDpCtrl pec w ∨ i = .smbusDiscstat pec w ∨ i =
      .smbusDiscglitch pec high)) ∧
    (∃ (s s1 : State) (v : Word) (hbm : Sector), 95 ∈ s.power.domains ∧ dpRead s hbm = (s1, some v)) ∧
    (∃ (s s1 : State) (hbm : Sector), 95 ∈ s.power.domains ∧ dpRead s hbm = (s1, none)) ∧
    (∃ (s : State) (v : Word) (w : Option Word), 95 ∈ s.power.domains ∧ w = some v) :=
  ⟨⟨live, false, true, none, .clean, .smbusDiscglitch false true, by decide +kernel, .inr (.inr (.inr (.inr (.inr (.inr
    (.inr (.inr (.inr rfl))))))))⟩,
  ⟨portAt live 0x104#64, (dpRead (portAt live 0x104#64) .clean).1, BitVec.ofNat 32 (bar0Word live 0x104), .clean,
    by decide +kernel, Prod.ext rfl (by decide +kernel)⟩,
  ⟨portAt live 0x100000#64, (dpRead (portAt live 0x100000#64) .clean).1, .clean, by decide +kernel, Prod.ext rfl
    (by decide +kernel)⟩,
  ⟨live, 5#32, some 5#32, by decide +kernel⟩⟩

theorem witness_InputsPresenceAndSeal_1 :
    (∃ (s : State), 95 ∈ s.power.domains ∧ s.sec.stuck = false) ∧
    (∃ (s : State), 95 ∈ s.power.domains ∧ s.sec.stuck = true) ∧
    (∃ (s : State), 95 ∉ s.power.domains) ∧
    (∃ (s : State), s.sec.pressed = true) :=
  ⟨⟨live, by decide +kernel⟩,
  ⟨{ live with sec := { Security.reset with stuck := true } }, by decide +kernel⟩,
  ⟨{ live with power := { live.power with domains := [] } }, by decide +kernel⟩,
  ⟨{ live with sec := { Security.reset with pressed := true } }, by decide +kernel⟩⟩

theorem witness_InputsPresenceAndSeal_2 :
    (∃ (s : State), s.sec.pressed = false) ∧
    (∃ (s : State), s.sec.jumper = true) ∧
    (∃ (s : State), s.sec.jumper = false) ∧
    (∃ (s : State), 95 ∉ s.power.domains) :=
  ⟨⟨live, by decide +kernel⟩,
  ⟨{ live with sec := { Security.reset with jumper := true } }, by decide +kernel⟩,
  ⟨live, by decide +kernel⟩,
  ⟨{ live with power := { live.power with domains := [94] } }, by decide +kernel⟩⟩

theorem witness_InputsPresenceAndSeal_3 :
    (∃ (i : Nat), i < 7) ∧
    (∃ (i : Nat), (i = 1 ∨ i = 2 ∨ i = 4)) ∧
    (∃ (i : Nat), 7 ≤ i) ∧
    (∃ (s : State), s.ctl.perst = false) :=
  ⟨⟨6, by decide +kernel⟩,
  ⟨4, by decide +kernel⟩,
  ⟨7, by decide +kernel⟩,
  ⟨live, by decide +kernel⟩⟩

theorem witness_InputsPresenceAndSeal_4 :
    (∃ (s : State), s.ctl.mrst = false) ∧
    (∃ (s : State), s.ctl.perst = true) ∧
    (∃ (s : State), s.ctl.mrst = true) :=
  ⟨⟨live, by decide +kernel⟩,
  ⟨{ live with ctl := { live.ctl with perst := true } }, by decide +kernel⟩,
  ⟨{ live with ctl := { live.ctl with mrst := true } }, by decide +kernel⟩⟩

/-- The start-up report of a module on which nothing is wrong. -/
def healthy : StartReport :=
  { failStage := none, badMeres := [], badPorts := [], badPositions := [], discoveryStep := none, identities := [], badStacks := [],
    pidle := 700, pmin := 1500, cool := true, pendingFails := [], activeFails := [], repairedRows := [] }

/-- A powered module whose start-up has not begun, with a stored image of each type. -/
def fresh : State :=
  let i (t : Nat) : Banks :=
    { active := some { typ := t, keySlot := 0, version := 0, svn := 1, measure := [], downgrade := false }, other := none, pending := false }
  { State.reset with sec := { Security.reset with banks := [(1, i 1), (2, i 2), (3, i 3), (4, i 4)], floors := [(1, 1)] } }

theorem fresh_images (k : Nat) (h1 : 1 ≤ k) (h4 : k ≤ 4) : (banksOf fresh k).pending = false ∧
    ∃ x, (banksOf fresh k).active = some x ∧ fusedFloor fresh k ≤ x.svn := by
  obtain rfl | rfl | rfl | rfl : k = 1 ∨ k = 2 ∨ k = 3 ∨ k = 4 := by omega
  all_goals exact ⟨rfl, _, rfl, by decide⟩

/-- The same with PWRGD asserted. -/
def good : State := { fresh with ctl := { fresh.ctl with powerGood := true } }

/-- Start-up waits, fails at a step, or finds nothing wrong: what the clauses of `StartsUp` ask of a state and its report. -/
theorem witness_StartUpBecomesReadyOrStops :
    (95 ∈ fresh.power.domains ∧ notStarted fresh = true ∧ mayStart fresh healthy = false) ∧
    (95 ∈ good.power.domains ∧ notStarted good = true ∧ mayStart good healthy = true) ∧
    (∀ k, 1 ≤ k → k ≤ 7 → mayStart good { healthy with failStage := some k } = true) ∧
    (∀ k, 1 ≤ k → k ≤ 4 → (banksOf good k).pending = false ∧ ∃ x, (banksOf good k).active = some x ∧ fusedFloor good k ≤ x.svn) ∧
    (good.dies = Dies.reset ∧ good.mem.hstacks = [] ∧ good.compute.meres = []) ∧ (∀ p, (getPort good p).loopFail = false) :=
  ⟨by decide +kernel, by decide +kernel, fun _ _ _ => rfl, fresh_images, by decide +kernel, fun _ => rfl⟩

/-- A cluster with given temperatures. -/
def warm (t0 t1 : Int) : Cluster := { Cluster.reset with temp0 := t0, temp1 := t1 }

/-- Cluster 67 with a record. -/
def clustered (v : Cluster) : State := setCluster live 67 v

/-- A module that has tripped once at sensor `n`. -/
def tripped (n : Nat) (v : Power) : State := { live with power := { v with sensorTrips := [n] } }

/-- The module after a thermal trip. -/
def safe8 : State := { tripped 136 { live.power with tripped := true } with ctl := { live.ctl with kstate := 2, stage := 8 } }

/-- MATMUL over two Meres that split K. -/
def mmPair : Cmd := array 0x0101 1 2 3 192 [] [(0x24, 4, 2), (0x2B, 1, 2), (0x31, 1, 1)]

/-- A seat of command 7. -/
def seat (landed : Bool) : Seat := { cid := 7, landed := landed, skip := 0 }

/-- A state with command `c` in flight and physical Mere `p` in a state of its own. -/
def onMere (c : Cmd) (p : Nat) (m : Mere) : State := setMere (runs tens c) p m

/-- The pair command landed on Mere 0, and on Mere 1 where `both`. -/
def paired (both : Bool) : State := setMere (onMere mmPair 0 { Mere.reset with waiting := [seat true] }) 1 { Mere.reset with waiting := [seat both] }

/-- Both of its members done with the tile, or neither. -/
def summed (steps : Nat) : State :=
  setMere (onMere mmPair 0 { Mere.reset with running := some 7, stepsA := steps }) 1 { Mere.reset with running := some 7, stepsA := steps }

/-- CONV in two stripes on two Meres, a kernel of two rows: the second takes a halo row of the first. -/
def convHalo : Cmd :=
  array 0x0103 1 2 3 256 (window ++ [(0xC0, 1, 2), (0xDA, 2, 1), (0xC1, 1, 16), (0xC4, 2, 2), (0xCF, 1, 1), (0xD8, 2, 2)]) [(0x31, 1, 1)]

/-- Its tensors, and its first stripe loaded or not. -/
def striped (loads : List (Nat × Nat)) : State :=
  let s := desc (desc tens 1 (descOf 0x10000 64 [1, 1, 5, 1] 1 0)) 3 (descOf 0x12000 64 [1, 1, 4, 1] 0 0)
  setMere (setMere (runs s convHalo) 0 { Mere.reset with running := some 7, landedSlices := loads }) 1 { Mere.reset with running := some 7 }

/-- Two frames of it, one load landed on Mere 0, where it waits. -/
def convTwice : Cmd := { convHalo with params := patch convHalo.params 0xC [2#8] }

/-- That state. -/
def twice : State :=
  setMere (runs (striped []) { convTwice with cid := 8 }) 0 { Mere.reset with waiting := [{ seat true with cid := 8 }], landedSlices := [(8, 0)] }

/-- The halo that Mere 1 waits for. -/
def haloOf (s : State) : Nat × Fill := (nextHalo (getMere s 1) 7 (courseAt s convHalo 1)).getD (0, { operand := 0, rows := [] })

/-- Mere 0 running command 7 with array A's tile done and `n` staged blocks. -/
def drained (n : Nat) : State :=
  onMere mm 0 { Mere.reset with
    running := some 7, stepsA := 1, stagedA := List.replicate n { cid := 7, tile := 0, block := 0, data := [] } }

/-- Mere 0 running command 7, its slices landed. -/
def sliced (n : Nat) : State :=
  onMere mm 0 { Mere.reset with running := some 7, stepsA := n, landedSlices := [(7, 0), (7, 1)] }

/-- A load of region `r` of a command's course on Mere 0. -/
def loadAt (s : State) (c : Cmd) (r : Nat) : Nat × Fill := ((loadsOf (courseAt s c 0) r)[0]?).getD (0, { operand := 0, rows := [] })

/-- The part of array A in a command's first step on Mere 0. -/
def part0 (s : State) (c : Cmd) : Machine.Part :=
  (((courseAt s c 0)[0]?).bind (fun x => x.part false)).getD { tile := 0, slice := 0, first := 0, count := 0, last := true }

theorem witness_PerstResetsTheEndpoint :
    (∃ (s : State), s.ctl.perst = false ∧ s.ctl.endpointOn = true) ∧
    (∃ (s : State), s.ctl.perst = false ∧ s.ctl.endpointOn = false) ∧
    (∃ (s : State), s.ctl.perst = true) :=
  ⟨⟨live, by decide +kernel⟩,
  ⟨{ live with ctl := { live.ctl with endpointOn := false } }, by decide +kernel⟩,
  ⟨{ live with ctl := { live.ctl with perst := true } }, by decide +kernel⟩⟩

theorem witness_ResetsLeaveTheAlwaysOnDomain :
    (∃ (s : State) (volts straps : Nat) (i : Instr), (i = .mrstAssert ∨ i = .inputFault volts ∨ (i = .pwrgdDeassert ∧
      s.ctl.powerGood = true) ∨ i = .powerOn straps)) ∧
    (∃ (s : State), s.ctl.powerGood = true) ∧
    (∃ (s : State), s.ctl.powerGood = false) :=
  ⟨⟨live, 29999, 5, .pwrgdDeassert, .inr (.inr (.inl ⟨rfl, rfl⟩))⟩,
  ⟨live, by decide +kernel⟩,
  ⟨State.reset, by decide +kernel⟩⟩

theorem witness_LostClocksStopWhatTheyFeed :
    (∃ (s : State), s.ctl.endpointOn = true ∧ s.ctl.linkUp = true ∧ s.job.loaded = false) ∧
    (∃ (s : State), 94 ∈ s.power.domains) :=
  ⟨⟨bare, by decide +kernel⟩,
  ⟨live, by decide +kernel⟩⟩

theorem witness_ThermalTripsAtTheSecondReading_1 :
    (∃ (s : State) (n : Nat) (r : Int), n < 152 ∧ (r < 1760 ∨ n ∉ s.power.sensorTrips)) ∧
    (∃ (s : State) (n : Nat) (r : Int) (onK : Bool), n < 152 ∧ 1760 ≤ r ∧ n ∈ s.power.sensorTrips ∧ 94 ∈ s.power.domains ∧
      (s.power.tripped = false ∨ s.ctl.kstate ≠ 2 ∨ s.ctl.stage ≠ 8 ∨ onK = true ∨ 148 ≤ n)) ∧
    (∃ (s : State) (n : Nat) (r : Int) (onK : Bool), n < 152 ∧ 1760 ≤ r ∧ n ∈ s.power.sensorTrips ∧ 94 ∈ s.power.domains ∧
      s.power.tripped = true ∧ s.ctl.kstate = 2 ∧ s.ctl.stage = 8 ∧ onK = false ∧ n < 148) ∧
    (∃ (s : State) (n : Nat) (r : Int), n < 152 ∧ 1760 ≤ r ∧ n ∈ s.power.sensorTrips ∧ 94 ∉ s.power.domains ∧
      s.power.thermOut = true) :=
  ⟨⟨live, 151, 1760, by decide +kernel⟩,
  ⟨tripped 136 live.power, 136, 1760, false, by decide +kernel⟩,
  ⟨safe8, 136, 1760, false, by decide +kernel⟩,
  ⟨tripped 0 { Power.reset with domains := [95], thermOut := true }, 0, 1760, by decide +kernel⟩⟩

theorem witness_ThermalTripsAtTheSecondReading_2 :
    (∃ (s : State) (n : Nat) (r : Int), n < 152 ∧ 1760 ≤ r ∧ n ∈ s.power.sensorTrips ∧ 94 ∉ s.power.domains ∧
      s.power.thermOut = false) ∧
    (∃ (n : Nat) (r : Int), n < 152 ∧ r < 1760) ∧
    (∃ (s : State) (n : Nat) (r : Int), n < 152 ∧ 1760 ≤ r ∧ n ∉ s.power.sensorTrips) ∧
    (∃ (s : State) (n : Nat) (r : Int), n < 152 ∧ 1760 ≤ r ∧ n ∈ s.power.sensorTrips ∧ 94 ∈ s.power.domains ∧
      s.power.tripped = false) :=
  ⟨⟨tripped 151 { Power.reset with domains := [95] }, 151, 1760, by decide +kernel⟩,
  ⟨136, 1759, by decide +kernel⟩,
  ⟨live, 151, 1760, by decide +kernel⟩,
  ⟨tripped 136 live.power, 136, 1760, by decide +kernel⟩⟩

theorem witness_ThermalTripsAtTheSecondReading_3 :
    (∃ (s : State), 3 ∉ s.pins.level ∧ 94 ∈ s.power.domains ∧ s.power.tripped = false) ∧
    (∃ (s : State), 3 ∉ s.pins.level ∧ 94 ∉ s.power.domains) ∧
    (∃ (s : State), 3 ∈ s.pins.level) :=
  ⟨⟨live, by decide +kernel⟩,
  ⟨{ live with power := Power.reset }, by decide +kernel⟩,
  ⟨{ live with pins := { Pins.reset with level := [3] } }, by decide +kernel⟩⟩

theorem witness_ClustersThrottleWithHysteresis :
    (∃ (s : State) (n : Nat) (r : Int) (v : Cluster), n < 136 ∧ r < 1600 ∧ n % 2 = 0 ∧ v = getCluster s (n / 2) ∧ v.temp1
      < 1600) ∧
    (∃ (s : State) (n : Nat) (r : Int) (v : Cluster), n < 136 ∧ 1600 ≤ r ∧ r < 1648 ∧ n % 2 = 1 ∧ v = getCluster s (n / 2)
      ∧ v.throttling = false) ∧
    (∃ (s : State) (c : Nat) (v : Cluster), c < 68 ∧ v = getCluster s c ∧ 1600 ≤ max v.temp0 v.temp1) ∧
    (∃ (s : State) (c : Nat) (v : Cluster), c < 68 ∧ v = getCluster s c ∧ max v.temp0 v.temp1 < 1552) ∧
    (∃ (s : State) (c : Nat) (v : Cluster), c < 68 ∧ v = getCluster s c ∧ 1552 ≤ max v.temp0 v.temp1 ∧ max v.temp0 v.temp1
      < 1600) :=
  ⟨⟨clustered (warm 0 1599), 134, 1599, warm 0 1599, by decide +kernel⟩,
  ⟨clustered (warm 0 0), 135, 1600, warm 0 0, by decide +kernel⟩,
  ⟨clustered (warm 0 1600), 67, warm 0 1600, by decide +kernel⟩,
  ⟨clustered (warm 1551 0), 67, warm 1551 0, by decide +kernel⟩,
  ⟨clustered (warm 1552 1599), 67, warm 1552 1599, by decide +kernel⟩⟩

theorem witness_RailsAndDroopsFollowTheMonitors_1 :
    (∃ (s : State) (c : Nat) (v : Cluster), c < 68 ∧ clusterOn s c = true ∧ v = getCluster s c ∧ v.railMv < 900) ∧
    (∃ (s : State) (c : Nat) (v : Cluster), c < 68 ∧ clusterOn s c = true ∧ v = getCluster s c ∧ 900 ≤ v.railMv ∧ 600 <
      v.fcap) ∧
    (∃ (s : State) (c : Nat) (v : Cluster), c < 68 ∧ clusterOn s c = true ∧ v = getCluster s c ∧ 900 ≤ v.railMv ∧ v.fcap ≤
      600) ∧
    (∃ (s : State) (c : Nat) (v : Cluster), c < 68 ∧ clusterOn s c = true ∧ v = getCluster s c ∧ v.droops ≠ 1023) :=
  ⟨⟨clustered { Cluster.reset with railMv := 899 }, 67, { Cluster.reset with railMv := 899 }, by decide +kernel⟩,
  ⟨clustered { Cluster.reset with railMv := 900, fcap := 625 }, 67, { Cluster.reset with railMv := 900, fcap := 625 },
    by decide +kernel⟩,
  ⟨clustered { Cluster.reset with railMv := 900, fcap := 600 }, 67, { Cluster.reset with railMv := 900, fcap := 600 },
    by decide +kernel⟩,
  ⟨clustered { Cluster.reset with droops := 1022 }, 67, { Cluster.reset with droops := 1022 }, by decide +kernel⟩⟩

theorem witness_RailsAndDroopsFollowTheMonitors_2 :
    (∃ (s : State) (c : Nat) (v : Cluster), c < 68 ∧ clusterOn s c = true ∧ v = getCluster s c ∧ v.droops = 1023) ∧
    (∃ (s : State) (c : Nat) (v : Cluster), c < 68 ∧ v = getCluster s c ∧ v.doubled = true ∧ v.droops ≠ 1023) ∧
    (∃ (s : State) (c : Nat) (v : Cluster), c < 68 ∧ v = getCluster s c ∧ v.doubled = false) ∧
    (∃ (s : State) (c : Nat), c < 68 ∧ clusterOn s c = false) :=
  ⟨⟨clustered { Cluster.reset with droops := 1023 }, 67, { Cluster.reset with droops := 1023 }, by decide +kernel⟩,
  ⟨clustered { Cluster.reset with doubled := true, droops := 1022 }, 67,
    { Cluster.reset with doubled := true, droops := 1022 }, by decide +kernel⟩,
  ⟨clustered Cluster.reset, 67, Cluster.reset, by decide +kernel⟩,
  ⟨State.reset, 0, by decide +kernel⟩⟩

theorem witness_PowerLoopsStepTowardTheirLimits_1 :
    (∃ (s : State) (c low : Nat) (v : Cluster), c < 68 ∧ v = getCluster s c ∧ low = min (freqTarget s) (min v.fcap (min
      v.thermal (min v.weir (if capDuty s < 32 then 600 else 1200)))) ∧ clusterOn s c = false) ∧
    (∃ (s : State) (c low : Nat) (v : Cluster), c < 68 ∧ v = getCluster s c ∧ low = min (freqTarget s) (min v.fcap (min
      v.thermal (min v.weir (if capDuty s < 32 then 600 else 1200)))) ∧ clusterOn s c = true) ∧
    (∃ (s : State) (up dn : Nat) (w : Word), w = s.power.pendWctrl.getD s.power.wctrl ∧ up = w.toNat / 2 ^ 10 % 2048 ∧ dn
      = w.toNat / 2 ^ 21) ∧
    (∃ (s : State), s.power.means.length ≤ 255) :=
  ⟨⟨State.reset, 0, min (freqTarget State.reset) (min 1200 (min 1200 (min 1200 (if capDuty State.reset < 32 then 600 else
    1200)))), Cluster.reset, by decide +kernel⟩,
  ⟨clustered { Cluster.reset with freq := 600, thermal := 600 }, 67, min (freqTarget live) (min 1200 (min 600 (min 1200 (if
    capDuty live < 32 then 600 else 1200)))), { Cluster.reset with freq := 600, thermal := 600 }, by decide +kernel⟩,
  ⟨live, 100, 100, 0x0C8191E0#32, by decide +kernel⟩,
  ⟨{ live with power := { live.power with means := List.replicate 255 0 } }, by decide +kernel⟩⟩

theorem witness_PowerLoopsStepTowardTheirLimits_2 :
    (∃ (s : State) (d : Nat), d < 96 ∧ d ∈ s.power.ramping) ∧
    (∃ (s : State) (d : Nat), d < 96 ∧ d ∉ s.power.ramping) ∧
    (∃ (s : State) (d : Nat), d < 2 ∧ bit s.power.pctrl.toNat 12 = false) ∧
    (∃ (s : State) (d : Nat), d < 2 ∧ dieState s d ≠ 1) :=
  ⟨⟨{ live with power := { live.power with ramping := [95] } }, 95, by decide +kernel⟩,
  ⟨live, 0, by decide +kernel⟩,
  ⟨{ live with power := { live.power with pctrl := 0x3E8#32 } }, 1, by decide +kernel⟩,
  ⟨{ live with dies := Dies.reset }, 1, by decide +kernel⟩⟩

theorem witness_MeresRunLandedCommandsInOrder_1 :
    (∃ (s : State) (cid p region n : Nat) (c : Cmd) (k : List Step) (g : Region) (e : Nat × Fill), p < 272 ∧ findCmd s cid
      = some c ∧ c.inFlight = true ∧ k = courseAt (ownView s c.cid) c p ∧ n = (getMere s p).landed c.cid region ∧ (loadsOf
      k region)[n]? = some e ∧ g = operandRegion c region ∧ (getMere s p).seats c.cid = true ∧ mayLoad (getMere s p) c.cid
      k region n = true) ∧
    (∃ (s : State) (cid p region n : Nat) (c : Cmd) (k : List Step) (g : Region) (e : Nat × Fill), p < 272 ∧ findCmd s cid
      = some c ∧ c.inFlight = true ∧ k = courseAt (ownView s c.cid) c p ∧ n = (getMere s p).landed c.cid region ∧ (loadsOf
      k region)[n]? = some e ∧ g = operandRegion c region ∧ ((getMere s p).seats c.cid = false ∨ mayLoad (getMere s p)
      c.cid k region n = false)) ∧
    (∃ (s : State) (cid p region n : Nat) (c : Cmd) (k : List Step) (g : Region) (e : Nat × Fill) (x : _), p < 272 ∧
      findCmd s cid = some c ∧ c.inFlight = true ∧ k = courseAt (ownView s c.cid) c p ∧ n = (getMere s p).landed c.cid
      region ∧ (loadsOf k region)[n]? = some e ∧ g = operandRegion c region ∧ x ≠ n) ∧
    (∃ (s : State) (cid p region n : Nat) (c : Cmd) (k : List Step) (g : Region) (e : Nat × Fill), p < 272 ∧ findCmd s cid
      = some c ∧ c.inFlight = true ∧ k = courseAt (ownView s c.cid) c p ∧ n = (getMere s p).landed c.cid region ∧ (loadsOf
      k region)[n]? = some e ∧ g = operandRegion c region ∧ (getMere s p).running ≠ some c.cid ∧ 0 < n) :=
  ⟨⟨onMere mm 0 { Mere.reset with waiting := [seat false] }, 7, 0, 0, 0, mm, courseAt (onMere mm 0 Mere.reset) mm 0,
    operandRegion mm 0, loadAt (onMere mm 0 Mere.reset) mm 0, by decide +kernel⟩,
  ⟨onMere mm 0 Mere.reset, 7, 0, 1, 0, mm, courseAt (onMere mm 0 Mere.reset) mm 0, operandRegion mm 1, loadAt (onMere mm 0
    Mere.reset) mm 1, by decide +kernel⟩,
  ⟨onMere mm 0 Mere.reset, 7, 0, 1, 0, mm, courseAt (onMere mm 0 Mere.reset) mm 0, operandRegion mm 1, loadAt (onMere mm 0
    Mere.reset) mm 1, 1, by decide +kernel⟩,
  ⟨twice, 8, 0, 0, 1, { convTwice with cid := 8 }, courseAt twice convTwice 0, operandRegion convTwice 0, ((loadsOf
    (courseAt twice convTwice 0) 0)[1]?).getD (0, { operand := 0, rows := [] }), by decide +kernel⟩⟩

theorem witness_MeresRunLandedCommandsInOrder_2 :
    (∃ (s : State) (p : Nat) (pre post : List Seat) (w : Seat) (m : Mere), p < 272 ∧ m = getMere s p ∧ m.running = none ∧
      m.waiting = pre ++ w :: post ∧ (∀ x ∈ pre, x.skip < 4 ∧ x.cid ≠ w.cid) ∧ ((4 ≤ w.skip ∧ w.landed = true ∧ seatGang s
      w = false) ∨ ((∀ x ∈ w :: post, x.skip < 4) ∧ m.first = some w.cid) ∨ ((∀ x ∈ w :: post, x.skip < 4) ∧ m.first =
      none ∧ (∀ x ∈ pre, x.landed = false ∨ seatGang s x = true) ∧ w.landed = true ∧ seatGang s w = false))) ∧
    (∃ (s : State) (p : Nat), p < 272 ∧ (getMere s p).running ≠ none) ∧
    (∃ (s : State) (p : Nat), p < 272 ∧ (∀ x ∈ (getMere s p).waiting, x.landed = false) ∧ (getMere s p).first = none) ∧
    (∃ (s : State) (p : Nat) (pre w post : _), p < 272 ∧ (getMere s p).waiting = pre ++ w :: post ∧ (∀ x ∈ pre, x.skip <
      4) ∧ 4 ≤ w.skip ∧ (w.landed = false ∨ seatGang s w = true)) :=
  ⟨⟨onMere mm 271
    { Mere.reset with waiting := [{ seat false with cid := 6, skip := 3 }, seat true, { seat true with cid := 8 }] }, 271,
    [{ seat false with cid := 6, skip := 3 }], [{ seat true with cid := 8 }], seat true,
    { Mere.reset with waiting := [{ seat false with cid := 6, skip := 3 }, seat true, { seat true with cid := 8 }] },
    by decide +kernel⟩,
  ⟨onMere mm 0 { Mere.reset with running := some 7 }, 0, by decide +kernel⟩,
  ⟨onMere mm 271 { Mere.reset with waiting := [seat false] }, 271, by decide +kernel⟩,
  ⟨onMere mm 271 { Mere.reset with waiting := [seat true, { seat false with skip := 4 }] }, 271, [seat true],
    { seat false with skip := 4 }, [], by decide +kernel⟩⟩

theorem witness_MeresRunLandedCommandsInOrder_3 :
    (∃ (s : State) (cid : Nat) (c : Cmd), findCmd s cid = some c ∧ isGang c = true ∧ c.inFlight = true ∧ (∀ p ∈ mereSet s
      c, gangReady s cid p = true)) ∧
    (∃ (s : State) (cid : Nat) (c : Cmd), findCmd s cid = some c ∧ isGang c = true ∧ c.inFlight = true ∧ (∃ p ∈ mereSet s
      c, gangReady s cid p = false)) ∧
    (∃ (s : State) (cid p sender tile i j : Nat) (array : Bool) (c : Cmd) (w : ArrayWork) (m f : Mere) (v : State), p <
      272 ∧ sender < 272 ∧ findCmd s cid = some c ∧ c.inFlight = true ∧ m = getMere s p ∧ f = getMere s sender ∧ v =
      ownView s c.cid ∧ indexOf s c p = some i ∧ indexOf s c sender = some j ∧ arrayWork v c array tile = some w ∧
      m.running = some c.cid ∧ f.running = some c.cid ∧ isSplit c array = true ∧ (groupMember c i).1 = (groupMember c j).1
      ∧ (senders (groupMember c i).2 (geoOf c).parts)[m.received array tile]? = some (groupMember c j).2 ∧ tileDone m
      (courseAt v c p) array tile = true ∧ tileDone f (courseAt v c sender) array tile = true ∧ combinedAll c f array tile
      (groupMember c j).2 = true) ∧
    (∃ (s : State) (cid p sender tile i j : Nat) (array : Bool) (c : Cmd) (w : ArrayWork) (m f : Mere) (v : State), p <
      272 ∧ sender < 272 ∧ findCmd s cid = some c ∧ c.inFlight = true ∧ m = getMere s p ∧ f = getMere s sender ∧ v =
      ownView s c.cid ∧ indexOf s c p = some i ∧ indexOf s c sender = some j ∧ arrayWork v c array tile = some w ∧
      (m.running ≠ some c.cid ∨ f.running ≠ some c.cid ∨ tileDone m (courseAt v c p) array tile = false ∨ tileDone f
      (courseAt v c sender) array tile = false ∨ (senders (groupMember c i).2 (geoOf c).parts)[m.received array tile]? ≠
      some (groupMember c j).2)) :=
  ⟨⟨paired true, 7, mmPair, by decide +kernel⟩,
  ⟨paired false, 7, mmPair, by decide +kernel⟩,
  ⟨summed 1, 7, 0, 1, 0, 0, 1, false, mmPair, (arrayWork (ownView (summed 1) 7) mmPair false 0).get (by decide +kernel),
    getMere (summed 1) 0, getMere (summed 1) 1, ownView (summed 1) 7, by decide +kernel, by decide +kernel,
    by decide +kernel, by decide +kernel, by decide +kernel, by decide +kernel, rfl, by decide +kernel, by decide +kernel,
    (Option.some_get _).symm, by decide +kernel⟩,
  ⟨summed 0, 7, 0, 1, 0, 0, 1, false, mmPair, (arrayWork (ownView (summed 0) 7) mmPair false 0).get (by decide +kernel),
    getMere (summed 0) 0, getMere (summed 0) 1, ownView (summed 0) 7, by decide +kernel, by decide +kernel,
    by decide +kernel, by decide +kernel, by decide +kernel, by decide +kernel, rfl, by decide +kernel, by decide +kernel,
    (Option.some_get _).symm, by decide +kernel⟩⟩

theorem witness_MeresRunLandedCommandsInOrder_4 :
    (∃ (s : State) (cid p sender i j : Nat) (c : Cmd) (h : Nat × Fill) (m f : Mere) (v : State), p < 272 ∧ sender < 272 ∧
      findCmd s cid = some c ∧ c.inFlight = true ∧ (c.opcode = 0x0103 ∨ c.opcode = 0x0104) ∧ m = getMere s p ∧ f = getMere
      s sender ∧ v = ownView s c.cid ∧ nextHalo m c.cid (courseAt v c p) = some h ∧ indexOf s c p = some i ∧ indexOf s c
      sender = some j ∧ m.seats c.cid = true ∧ f.seats c.cid = true ∧ mayLoad m c.cid (courseAt v c p) 0 h.1 = true ∧
      mereDie p = mereDie sender ∧ (groupMember c i).2 = (groupMember c j).2 ∧ holdsRows f c.cid (courseAt v c sender) h.2
      (if p = sender then h.1 else f.landed c.cid 0) = true) ∧
    (∃ (s : State) (cid p sender i j : Nat) (c : Cmd) (h : Nat × Fill) (m f : Mere) (v : State), p < 272 ∧ sender < 272 ∧
      findCmd s cid = some c ∧ c.inFlight = true ∧ (c.opcode = 0x0103 ∨ c.opcode = 0x0104) ∧ m = getMere s p ∧ f = getMere
      s sender ∧ v = ownView s c.cid ∧ nextHalo m c.cid (courseAt v c p) = some h ∧ indexOf s c p = some i ∧ indexOf s c
      sender = some j ∧ (mereDie p ≠ mereDie sender ∨ (groupMember c i).2 ≠ (groupMember c j).2 ∨ holdsRows f c.cid
      (courseAt v c sender) h.2 (if p = sender then h.1 else f.landed c.cid 0) = false)) ∧
    (∃ (s : State) (cid p tile block i : Nat) (array : Bool) (c : Cmd) (w : ArrayWork) (m : Mere) (v : State), p < 272 ∧
      findCmd s cid = some c ∧ c.inFlight = true ∧ c.onVectors = false ∧ m = getMere s p ∧ v = ownView s c.cid ∧ indexOf s
      c p = some i ∧ arrayWork v c array tile = some w ∧ m.running = some c.cid ∧ tileDone m (courseAt v c p) array tile =
      true ∧ (isSplit c array = true → (groupMember c i).2 = 0 ∧ combinedAll c m array tile 0 = true) ∧ block ∈ w.held ∧
      (tile, block) ∉ m.drained array ∧ (m.staged array).length < 2) ∧
    (∃ (s : State) (cid p tile block i : Nat) (array : Bool) (c : Cmd) (w : ArrayWork) (m : Mere) (v : State), p < 272 ∧
      findCmd s cid = some c ∧ c.inFlight = true ∧ c.onVectors = false ∧ m = getMere s p ∧ v = ownView s c.cid ∧ indexOf s
      c p = some i ∧ arrayWork v c array tile = some w ∧ (m.running ≠ some c.cid ∨ tileDone m (courseAt v c p) array tile
      = false ∨ block ∉ w.held ∨ (tile, block) ∈ m.drained array ∨ 2 ≤ (m.staged array).length)) :=
  ⟨⟨striped [(7, 0)], 7, 1, 0, 1, 0, convHalo, haloOf (striped []), getMere (striped [(7, 0)]) 1, getMere (striped [(7, 0)])
    0, ownView (striped [(7, 0)]) 7, by decide +kernel, by decide +kernel, by decide +kernel, by decide +kernel,
    by decide +kernel, by decide +kernel, by decide +kernel, rfl, by decide +kernel⟩,
  ⟨striped [], 7, 1, 0, 1, 0, convHalo, haloOf (striped []), getMere (striped []) 1, getMere (striped []) 0, ownView
    (striped []) 7, by decide +kernel, by decide +kernel, by decide +kernel, by decide +kernel, by decide +kernel,
    by decide +kernel, by decide +kernel, rfl, by decide +kernel⟩,
  ⟨drained 1, 7, 0, 0, 0, 0, false, mm, (arrayWork (ownView (drained 1) 7) mm false 0).get (by decide +kernel), getMere
    (drained 1) 0, ownView (drained 1) 7, by decide +kernel, by decide +kernel, by decide +kernel, by decide +kernel,
    by decide +kernel, rfl, by decide +kernel, (Option.some_get _).symm, by decide +kernel⟩,
  ⟨drained 2, 7, 0, 0, 0, 0, false, mm, (arrayWork (ownView (drained 2) 7) mm false 0).get (by decide +kernel), getMere
    (drained 2) 0, ownView (drained 2) 7, by decide +kernel, by decide +kernel, by decide +kernel, by decide +kernel,
    by decide +kernel, rfl, by decide +kernel, (Option.some_get _).symm, by decide +kernel⟩⟩

theorem witness_ArraysTakeTheirPartsInOrder :
    (∃ (s : State) (cid p n : Nat) (array : Bool) (c : Cmd) (k : List Step) (m : Mere), p < 272 ∧ findCmd s cid = some c ∧
      c.inFlight = true ∧ 0x0101 ≤ c.opcode ∧ c.opcode ≤ 0x0107 ∧ m = getMere s p ∧ k = courseAt (ownView s c.cid) c p ∧ n
      = nextPart k array (m.steps array) ∧ (k[n]?).bind (fun x => x.part array) = none) ∧
    (∃ (s : State) (cid p n : Nat) (array : Bool) (c : Cmd) (k : List Step) (m : Mere), p < 272 ∧ findCmd s cid = some c ∧
      c.inFlight = true ∧ 0x0101 ≤ c.opcode ∧ c.opcode ≤ 0x0107 ∧ m = getMere s p ∧ k = courseAt (ownView s c.cid) c p ∧ n
      = nextPart k array (m.steps array) ∧ m.running ≠ some c.cid) ∧
    (∃ (s : State) (cid p tile slice n : Nat) (array : Bool) (c : Cmd) (k : List Step) (m : Mere) (x : _), p < 272 ∧
      findCmd s cid = some c ∧ c.inFlight = true ∧ 0x0101 ≤ c.opcode ∧ c.opcode ≤ 0x0107 ∧ m = getMere s p ∧ k = courseAt
      (ownView s c.cid) c p ∧ n = nextPart k array (m.steps array) ∧ (k[n]?).bind (fun x => x.part array) = some x ∧
      (x.tile ≠ tile ∨ x.slice ≠ slice ∨ partReady (ownView s c.cid) c m k array n x = false ∨ (c.onVectors = true ∧ 2 ≤
      m.stagedA.length))) ∧
    (∃ (s : State) (cid p tile slice n : Nat) (array : Bool) (c : Cmd) (k : List Step) (m : Mere) (x : _), p < 272 ∧
      findCmd s cid = some c ∧ c.inFlight = true ∧ 0x0101 ≤ c.opcode ∧ c.opcode ≤ 0x0107 ∧ m = getMere s p ∧ k = courseAt
      (ownView s c.cid) c p ∧ n = nextPart k array (m.steps array) ∧ (k[n]?).bind (fun x => x.part array) = some x ∧
      m.running = some c.cid ∧ x.tile = tile ∧ x.slice = slice ∧ partReady (ownView s c.cid) c m k array n x = true ∧
      (c.onVectors = true → m.stagedA.length < 2)) :=
  ⟨⟨sliced 1, 7, 0, 1, false, mm, courseAt (sliced 1) mm 0, getMere (sliced 1) 0, by decide +kernel⟩,
  ⟨onMere mm 0 Mere.reset, 7, 0, 0, false, mm, courseAt (sliced 0) mm 0, Mere.reset, by decide +kernel⟩,
  ⟨sliced 0, 7, 0, 5, 0, 0, false, mm, courseAt (sliced 0) mm 0, getMere (sliced 0) 0, part0 (sliced 0) mm,
    by decide +kernel⟩,
  ⟨sliced 0, 7, 0, 0, 0, 0, false, mm, courseAt (sliced 0) mm 0, getMere (sliced 0) 0, part0 (sliced 0) mm,
    by decide +kernel⟩⟩

/-- Stack 7 with a record of its own. -/
def stacked (k : Stack) : State := setStackS live 7 k

/-- The compressed tensor with its header broken. -/
def broken0 : State := hbmWrite zipped 0x30000 [0#8]

/-- Bundle 6 with a record of its own. -/
def bundled (v : Bundle) : State := setBundle live 6 v

/-- A bundle at full width on its first 64 lanes. -/
def wide : Bundle := { Bundle.reset with state := 1, inUse := List.range 64 }

/-- A rejoin report. -/
def rejoin (step : Option Nat) : RejoinReport := 
  { failStep := step, badPositions := [], partnerLost := false, identities := [], badStacks := [], repairedRows := [] }

/-- The module with die `d` in state `v`. -/
def dieless1 (d v : Nat) : State := setDie live d v

/-- Die 0 waiting to try again. -/
def retrying : State := let s := setDie live 0 2; { s with dies := { s.dies with waitingRetry := [0] } }

/-- An error of Mere 5 in containment. -/
def contained : State := { live with rel := { live.rel with handling := some { site := .mere 5 3, level := 0, seq := 1 } } }

/-- An error of Mere 5 in containment at a level, with others that wait. -/
def containing (level : Nat) (pend : List Contained) : State :=
  { live with rel := { live.rel with handling := some { site := .mere 5 3, level := level, seq := 1 }, pend := pend } }

/-- Its descriptor. -/
def zipDesc : Desc :=
  { id := 2, base := 0x20000, half := 4096, plan := [16, 1, 0, 0], fmt := 0, dflags := 4, dims := 2, generation := 0, cmeta := 0x30000 }

/-- DECOMPRESS that has fetched its block again. -/
def unzipTwice : Cmd := { unzip1 with refetched := [(2, some 0)] }

/-- The identity record of S, its die's serial number 0. -/
def recordS : Bytes :=
  let b := lay 28 [(0, 1, 3), (2, 1, 0x42), (3, 1, 1)]
  b ++ toLe 4 (crc32c b)

/-- The identity record of K, its die's serial number 0. -/
def recordK : Bytes :=
  let b := lay 28 [(0, 1, 4), (2, 1, 0x42), (3, 1, 1)]
  b ++ toLe 4 (crc32c b)

/-- The module with S rejoining and K's record as it was found. -/
def springless : State := let s := dieless1 4 3; { s with dies := { s.dies with found := [(5, recordK)] } }

/-- A waiting error of a die. -/
def waitingError : Contained := { site := .die 1 3 255, level := 2, seq := 2 }

/-- A read burst of two sectors of Mere 0's prefetch at stack 7. -/
def burst : Burst :=
  { die := 1, engine := 140, stream := 140, cls := 0, isWrite := false, first := 62, count := 1, served := 0, queued := 0, deadline := 9 }

/-- A read request of it. -/
def request (st : HbmStream) (first count : Nat) : HbmRequest :=
  { die := 1, engine := 7, stream := st, isWrite := false, first := first, count := count }

/-- A command that is dispatched beside it. -/
def other : Cmd := { cmdOf 1 0x0501 [(0x10, 2, 1)] with cid := 8 }

theorem witness_StackSlotsAreGrantedByClass_1 :
    (∃ (s : State) (n : Nat) (k : Stack), n < 8 ∧ k = s.mem.stack n ∧ k.slotNo ≠ 0 ∧ k.level < 3 ∧ k.queue = []) ∧
    (∃ (s : State) (n : Nat) (k : Stack) (b : _), n < 8 ∧ k = s.mem.stack n ∧ k.slotNo ≠ 0 ∧ k.level < 3 ∧ k.queue = [b] ∧
      b.cls < 3) ∧
    (∃ (s : State) (n : Nat) (k : Stack) (b : _), n < 8 ∧ k = s.mem.stack n ∧ k.slotNo ≠ 0 ∧ k.level < 3 ∧ b ∈ k.queue ∧
      (∀ x ∈ k.queue, x.cls = 0) ∧ (∀ x ∈ k.queue, x ≠ b → b.deadline < x.deadline ∨ (b.deadline = x.deadline ∧ b.engine <
      x.engine))) ∧
    (∃ (s : State) (n : Nat) (k : Stack), n < 8 ∧ k = s.mem.stack n ∧ k.slotNo ≠ 0 ∧ k.level = 3 ∧ 2048 ≤ k.usedBack +
      k.usedRead + k.usedWrite + k.usedRemote) :=
  ⟨⟨stacked ({ Stack.reset with present := true, slotNo := 4095, usedBack := 15 }), 7,
    { Stack.reset with present := true, slotNo := 4095, usedBack := 15 }, by decide +kernel⟩,
  ⟨stacked ({ Stack.reset with present := true, slotNo := 4095, level := 2, queue := [burst] }), 7,
    { Stack.reset with present := true, slotNo := 4095, level := 2, queue := [burst] }, burst, by decide +kernel⟩,
  ⟨stacked ({ Stack.reset with present := true, slotNo := 4095, queue := [{ burst with deadline := 10 }, burst] }), 7,
    { Stack.reset with present := true, slotNo := 4095, queue := [{ burst with deadline := 10 }, burst] }, burst,
    by decide +kernel⟩,
  ⟨stacked ({ Stack.reset with present := true, slotNo := 4095, level := 3, usedBack := 16, usedRead := 2032 }), 7,
    { Stack.reset with present := true, slotNo := 4095, level := 3, usedBack := 16, usedRead := 2032 }, by decide +kernel⟩⟩

theorem witness_StackSlotsAreGrantedByClass_2 :
    (∃ (s : State) (n : Nat), n < 8 ∧ (s.mem.stack n).slotNo = 0) ∧
    (∃ (s : State) (n gap : Nat) (k : Stack) (b : Burst) (r : HbmRequest), n < 8 ∧ k = s.mem.stack n ∧ k.slotNo ≠ 0 ∧
      k.usedBack < 16 ∧ k.queue = [b] ∧ 0 < r.count ∧ r.die = b.die ∧ k.clock + gap ≤ b.queued + 32 ∧ reqRank r = b.engine
      ∧ reqStream r = b.stream ∧ reqClass r n = b.cls ∧ r.isWrite = b.isWrite ∧ r.first = b.first + b.count ∧ (b.first -
      b.served) / 64 = (r.first + r.count - 1) / 64 ∧ b.served + b.count + r.count ≤ 32) ∧
    (∃ (s : State) (n gap : Nat) (k : Stack) (b : Burst) (r : HbmRequest), n < 8 ∧ k = s.mem.stack n ∧ k.slotNo ≠ 0 ∧
      k.usedBack < 16 ∧ k.queue = [b] ∧ 0 < r.count ∧ r.die = b.die ∧ k.clock + gap ≤ b.queued + 32 ∧ reqRank r ≠ b.engine
      ∧ b.isWrite = false ∧ r.isWrite = false ∧ b.first ≤ r.first ∧ r.first + r.count ≤ b.first + b.count) ∧
    (∃ (s : State) (n gap : Nat) (k : Stack) (b : Burst) (r : HbmRequest), n < 8 ∧ k = s.mem.stack n ∧ k.slotNo ≠ 0 ∧
      k.usedBack < 16 ∧ k.queue = [b] ∧ 0 < r.count ∧ r.die = b.die ∧ k.clock + gap ≤ b.queued + 32 ∧ reqRank r ≠ b.engine
      ∧ (b.isWrite = true ∨ r.isWrite = true ∨ r.first < b.first ∨ b.first + b.count < r.first + r.count)) :=
  ⟨⟨live, 7, by decide +kernel⟩,
  ⟨stacked ({ Stack.reset with present := true, slotNo := 4095, queue := [burst] }), 7, 32,
    { Stack.reset with present := true, slotNo := 4095, queue := [burst] }, burst, request (.prefetch 140 0) 63 1,
    by decide +kernel⟩,
  ⟨stacked ({ Stack.reset with present := true, slotNo := 4095, queue := [burst] }), 7, 0,
    { Stack.reset with present := true, slotNo := 4095, queue := [burst] }, burst, request (.prefetch 141 0) 62 1,
    by decide +kernel⟩,
  ⟨stacked ({ Stack.reset with present := true, slotNo := 4095, queue := [burst] }), 7, 0,
    { Stack.reset with present := true, slotNo := 4095, queue := [burst] }, burst, request (.prefetch 141 0) 61 2,
    by decide +kernel⟩⟩

theorem witness_StackSlotsAreGrantedByClass_3 :
    ∃ (s : State) (n : Nat) (k : Stack) (r : HbmRequest), n < 8 ∧ k = s.mem.stack n ∧ k.slotNo ≠ 0 ∧ k.usedBack < 16 ∧
      k.queue = [] ∧ 0 < r.count ∧ r.stream = .read :=
  ⟨stacked ({ Stack.reset with present := true, slotNo := 4095, queue := [] }), 7,
    { Stack.reset with present := true, slotNo := 4095, queue := [] }, request .read 5 1, by decide +kernel⟩

theorem witness_DamagedReadsAreRetriedThenFail_1 :
    (∃ (s : State) (a : Nat), s.mem.translate a = none) ∧
    (∃ (s : State) (cid a n f o : Nat) (c : Cmd) (cid2 c2 : _), s.mem.translate a = some (n, f, o) ∧ findCmd s cid = some
      c ∧ c.inFlight = true ∧ findCmd s cid2 = some c2 ∧ c2.inFlight = true) ∧
    (∃ (s : State) (cid a n f o : Nat) (c : Cmd), s.mem.translate a = some (n, f, o) ∧ findCmd s cid = some c ∧ c.inFlight
      = true ∧ isUpdate c.opcode = true) :=
  ⟨⟨live, 0x80000000, by decide +kernel⟩,
  ⟨runs (runs live (cmdOf 0 0x0101 [])) other, 7, 0x10000, 0, 0, 0x2000, cmdOf 0 0x0101 [], 8, other, by decide +kernel⟩,
  ⟨runs live other, 8, 0x10000, 0, 0, 0x2000, other, by decide +kernel⟩⟩

theorem witness_DamagedReadsAreRetriedThenFail_2 :
    (∃ (n k : Nat), n < 8 ∧ k ≤ 3) ∧
    (∃ (n k : Nat), n < 8 ∧ 3 < k) ∧
    (∃ (s : State) (cid desc : Nat) (c : Cmd) (d : Desc), findCmd s cid = some c ∧ c.stage = .dispatched ∧ d = readDesc s
      desc ∧ d.compressed = true ∧ 1 ≤ desc ∧ desc ≤ s.job.descCount ∧ desc ∉ decodedBy s c) :=
  ⟨⟨7, 3, by decide +kernel⟩,
  ⟨7, 4, by decide +kernel⟩,
  ⟨runs zipped (cmdOf 0 0x0203 [(0x10, 2, 3)]), 7, 2, cmdOf 0 0x0203 [(0x10, 2, 3)], zipDesc, by decide +kernel⟩⟩

theorem witness_DamagedReadsAreRetriedThenFail_3 :
    (∃ (s : State) (cid desc : Nat) (block : Option Nat) (seen : List (Nat × Byte)) (c : Cmd) (d : Desc), findCmd s cid =
      some c ∧ c.stage = .dispatched ∧ d = readDesc s desc ∧ d.compressed = true ∧ 1 ≤ desc ∧ desc ≤ s.job.descCount ∧
      blockCause (firstFetch s seen) d (crcOnly c) block = none) ∧
    (∃ (s : State) (cid desc : Nat) (block : Option Nat) (seen : List (Nat × Byte)) (c : Cmd) (d : Desc) (first : Nat),
      findCmd s cid = some c ∧ c.stage = .dispatched ∧ d = readDesc s desc ∧ d.compressed = true ∧ 1 ≤ desc ∧ desc ≤
      s.job.descCount ∧ desc ∈ decodedBy s c ∧ blockCause (firstFetch s seen) d (crcOnly c) block = some first ∧ (desc,
      block) ∉ c.refetched ∧ blockCause s d (crcOnly c) block = none) ∧
    (∃ (s : State) (cid desc : Nat) (block : Option Nat) (seen : List (Nat × Byte)) (c : Cmd) (d : Desc) (first cause :
      Nat), findCmd s cid = some c ∧ c.stage = .dispatched ∧ d = readDesc s desc ∧ d.compressed = true ∧ 1 ≤ desc ∧ desc ≤
      s.job.descCount ∧ desc ∈ decodedBy s c ∧ blockCause (firstFetch s seen) d (crcOnly c) block = some first ∧ (desc,
      block) ∉ c.refetched ∧ blockCause s d (crcOnly c) block = some cause) :=
  ⟨⟨runs zipped unzip1, 7, 2, some 0, [], unzip1, zipDesc, by decide +kernel⟩,
  ⟨runs zipped unzip1, 7, 2, some 0, [(0x30000, 0)], unzip1, zipDesc, 2, by decide +kernel⟩,
  ⟨runs broken0 unzip1, 7, 2, some 0, [], unzip1, zipDesc, 2, 2, by decide +kernel⟩⟩

theorem witness_DamagedReadsAreRetriedThenFail_4 :
    ∃ (s : State) (cid desc : Nat) (block : Option Nat) (seen : List (Nat × Byte)) (c : Cmd) (d : Desc) (first : Nat),
      findCmd s cid = some c ∧ c.stage = .dispatched ∧ d = readDesc s desc ∧ d.compressed = true ∧ 1 ≤ desc ∧ desc ≤
      s.job.descCount ∧ desc ∈ decodedBy s c ∧ blockCause (firstFetch s seen) d (crcOnly c) block = some first ∧ (desc,
      block) ∈ c.refetched :=
  ⟨runs broken0 unzipTwice, 7, 2, some 0, [], unzipTwice, zipDesc, 2, by decide +kernel⟩

theorem witness_StacksAndServicesReport_1 :
    (∃ (s : State) (n : Nat) (x : Int) (k : Stack), n < 8 ∧ k = s.mem.stack n ∧ x < 110 * 16) ∧
    (∃ (s : State) (n : Nat) (x : Int), n < 8 ∧ 110 * 16 ≤ x ∧ (s.mem.stack n).tripOnce = false) ∧
    (∃ (s : State) (n : Nat) (x : Int), n < 8 ∧ 110 * 16 ≤ x ∧ (s.mem.stack n).tripOnce = true ∧ 94 ∈ s.power.domains ∧
      s.power.tripped = false) ∧
    (∃ (s : State) (n : Nat), n < 8 ∧ ((s.mem.stack n).present = false ∨ (s.mem.stack n).selfRefresh = true ∨ bit
      s.rel.rscrub.toNat 8 = false)) :=
  ⟨⟨live, 7, 1759, live.mem.stack 7, by decide +kernel⟩,
  ⟨live, 7, 1760, by decide +kernel⟩,
  ⟨stacked { Stack.reset with tripOnce := true }, 7, 1760, by decide +kernel⟩,
  ⟨State.reset, 7, by decide +kernel⟩⟩

theorem witness_StacksAndServicesReport_2 :
    (∃ (s : State) (n : Nat) (k : Stack), n < 8 ∧ k = s.mem.stack n ∧ k.present = true ∧ k.selfRefresh = false ∧ bit
      s.rel.rscrub.toNat 8 = true ∧ k.scrubFrame < 32767 ∧ k.scrubFrame + 1 ∉ k.retired ∧ k.scrubFrame + 1 ∉
      k.volatileRetired) ∧
    (∃ (s : State) (n : Nat) (k : Stack), n < 8 ∧ k = s.mem.stack n ∧ k.present = true ∧ k.selfRefresh = false ∧ bit
      s.rel.rscrub.toNat 8 = true ∧ k.scrubFrame = 32767) ∧
    (∃ (s : State) (tg : ScrubTarget), targetOk tg = true ∧ scrubReaches s tg = true) ∧
    (∃ (s : State) (tg : ScrubTarget), targetOk tg = true ∧ scrubReaches s tg = false) :=
  ⟨⟨{ stacked { Stack.reset with present := true } with rel := { live.rel with rscrub := 0x118#32 } }, 7,
    { Stack.reset with present := true }, by decide +kernel⟩,
  ⟨{ stacked { Stack.reset with present := true, scrubFrame := 32767 } with rel := { live.rel with rscrub := 0x118#32 } },
    7, { Stack.reset with present := true, scrubFrame := 32767 }, by decide +kernel⟩,
  ⟨live, .mere 271 true, by decide +kernel⟩,
  ⟨State.reset, .mere 271 true, by decide +kernel⟩⟩

theorem witness_StacksAndServicesReport_3 :
    (∃ (n : Nat), n < 152) ∧
    (∃ (s : State) (c : Nat) (v : Cluster), c < 68 ∧ v = getCluster s c ∧ clusterOn s c = true) ∧
    (∃ (s : State) (c : Nat) (v : Cluster), c < 68 ∧ v = getCluster s c ∧ clusterOn s c = false) :=
  ⟨⟨151, by decide +kernel⟩,
  ⟨live, 67, getCluster live 67, by decide +kernel⟩,
  ⟨State.reset, 67, getCluster State.reset 67, by decide +kernel⟩⟩

theorem witness_BundlesReplayBlameAndGoDown_1 :
    (∃ (s : State) (b lane p : Nat) (v : Bundle), b < 7 ∧ lane < 68 ∧ v = getBundle s b ∧ p = v.inUse.getD lane 68 ∧
      v.carries = false) ∧
    (∃ (s : State) (b lane p : Nat) (v : Bundle), b < 7 ∧ lane < 68 ∧ v = getBundle s b ∧ p = v.inUse.getD lane 68 ∧
      v.carries = true ∧ v.failSeq = none ∧ mget 0 v.blame p < 7) ∧
    (∃ (s : State) (b lane seq p : Nat) (far : Bool) (v : Bundle), b < 7 ∧ lane < 68 ∧ v = getBundle s b ∧ p =
      v.inUse.getD lane 68 ∧ v.carries = true ∧ v.failSeq = some (far, seq % 256) ∧ v.inRow < 7 ∧ mget 0 v.blame p < 7) ∧
    (∃ (s : State) (b lane seq p : Nat) (far : Bool) (v : Bundle), b < 7 ∧ lane < 68 ∧ v = getBundle s b ∧ p =
      v.inUse.getD lane 68 ∧ v.carries = true ∧ v.failSeq = some (far, seq % 256) ∧ v.inRow = 7 ∧ mget 0 v.blame p < 7) :=
  ⟨⟨bundled Bundle.reset, 6, 67, 68, Bundle.reset, by decide +kernel⟩,
  ⟨bundled { wide with blame := [(63, 6)] }, 6, 63, 63, { wide with blame := [(63, 6)] }, by decide +kernel⟩,
  ⟨bundled { wide with inRow := 6, failSeq := some (true, 255) }, 6, 0, 255, 0, true,
    { wide with inRow := 6, failSeq := some (true, 255) }, by decide +kernel⟩,
  ⟨bundled { wide with inRow := 7, failSeq := some (true, 0) }, 6, 0, 256, 0, true,
    { wide with inRow := 7, failSeq := some (true, 0) }, by decide +kernel⟩⟩

theorem witness_BundlesReplayBlameAndGoDown_2 :
    (∃ (s : State) (b lane p : Nat) (v : Bundle), b < 7 ∧ lane < 68 ∧ v = getBundle s b ∧ p = v.inUse.getD lane 68 ∧
      v.carries = true ∧ p < 68 ∧ v.failSeq = none ∧ mget 0 v.blame p = 7) ∧
    (∃ (s : State) (b lane p : Nat) (far : Bool) (v : Bundle), b < 7 ∧ lane < 68 ∧ v = getBundle s b ∧ p = v.inUse.getD
      lane 68 ∧ v.carries = true ∧ dieState s (senderOf b far) ≠ 2) ∧
    (∃ (s : State) (b lane p : Nat) (far : Bool) (v : Bundle), b < 7 ∧ lane < 68 ∧ v = getBundle s b ∧ p = v.inUse.getD
      lane 68 ∧ v.carries = true ∧ dieState s (senderOf b far) = 2) ∧
    (∃ (s : State) (b lane p : Nat) (v : Bundle), b < 7 ∧ lane < 68 ∧ v = getBundle s b ∧ p = v.inUse.getD lane 68 ∧
      v.carries = true ∧ (v.idleNear = 65536 ∨ v.idleFar = 65536)) :=
  ⟨⟨bundled { wide with cycle := [64, 65, 66, 67], blame := [(0, 7)] }, 6, 0, 0,
    { wide with cycle := [64, 65, 66, 67], blame := [(0, 7)] }, by decide +kernel⟩,
  ⟨bundled wide, 6, 0, 0, false, wide, by decide +kernel⟩,
  ⟨setDie (bundled wide) (senderOf 6 false) 2, 6, 0, 0, false, wide, by decide +kernel⟩,
  ⟨bundled { wide with idleNear := 65536 }, 6, 0, 0, { wide with idleNear := 65536 }, by decide +kernel⟩⟩

theorem witness_BundlesReplayBlameAndGoDown_3 :
    ∃ (s : State) (b lane p : Nat) (v : Bundle), b < 7 ∧ lane < 68 ∧ v = getBundle s b ∧ p = v.inUse.getD lane 68 ∧
      v.idleNear ≠ 65536 ∧ v.idleFar ≠ 65536 :=
  ⟨bundled { wide with idleNear := 65535 }, 6, 0, 0, { wide with idleNear := 65535 }, by decide +kernel⟩

theorem witness_LostDiesRejoin_1 :
    (∃ (s : State) (d : Nat), d < 5 ∧ dieState s d = 2 ∧ d ∉ s.dies.givenUp ∧ d ∉ s.dies.waitingRetry) ∧
    (∃ (s : State) (d : Nat), d < 5 ∧ (dieState s d ≠ 2 ∨ d ∈ s.dies.givenUp ∨ d ∈ s.dies.waitingRetry)) ∧
    (∃ (s : State) (d : Nat) (rep : RejoinReport) (r q : State × Bool), d < 5 ∧ r = trainCourse rep.badPositions
      rep.identities (rejoinCourse d) s ∧ q = qualifyStacks rep.identities rep.badStacks rep.repairedRows (dieStacks d)
      r.1 ∧ dieState s d ≠ 3) ∧
    (∃ (s : State) (d : Nat) (rep : RejoinReport) (r q : State × Bool), d < 5 ∧ r = trainCourse rep.badPositions
      rep.identities (rejoinCourse d) s ∧ q = qualifyStacks rep.identities rep.badStacks rep.repairedRows (dieStacks d)
      r.1 ∧ dieState s d = 3 ∧ rep.partnerLost = false ∧ partnerGone s d = false ∧ rep.failStep = none ∧ r.2 = true ∧ q.2
      = true) :=
  ⟨⟨dieless1 4 2, 4, by decide +kernel⟩,
  ⟨live, 4, by decide +kernel⟩,
  ⟨live, 4, rejoin none, trainCourse [] [] (rejoinCourse 4) live, qualifyStacks [] [] [] (dieStacks 4) (trainCourse [] []
    (rejoinCourse 4) live).1, by decide +kernel, rfl, rfl, by decide +kernel⟩,
  ⟨springless, 4, { rejoin none with identities := [(4, recordS)] }, trainCourse [] [(4, recordS)] (rejoinCourse 4)
    springless, qualifyStacks [(4, recordS)] [] [] (dieStacks 4) (trainCourse [] [(4, recordS)] (rejoinCourse 4)
    springless).1, by decide +kernel, rfl, rfl, by decide +kernel⟩⟩

theorem witness_LostDiesRejoin_2 :
    (∃ (s : State) (d : Nat) (rep : RejoinReport) (r q : State × Bool), d < 5 ∧ r = trainCourse rep.badPositions
      rep.identities (rejoinCourse d) s ∧ q = qualifyStacks rep.identities rep.badStacks rep.repairedRows (dieStacks d)
      r.1 ∧ dieState s d = 3 ∧ (rep.partnerLost = true ∨ partnerGone s d = true ∨ rep.failStep ≠ none ∨ r.2 = false ∨ q.2
      = false)) ∧
    (∃ (s : State) (d : Nat), d < 5 ∧ d ∈ s.dies.waitingRetry ∧ dieState s d = 2 ∧ partnerGone s d = false) ∧
    (∃ (s : State) (d : Nat), d < 5 ∧ (d ∉ s.dies.waitingRetry ∨ partnerGone s d = true)) ∧
    (∃ (s : State), dieState s 4 = 1) :=
  ⟨⟨dieless1 4 3, 4, rejoin (some 2), trainCourse [] [] (rejoinCourse 4) (dieless1 4 3), qualifyStacks [] [] [] (dieStacks
    4) (trainCourse [] [] (rejoinCourse 4) (dieless1 4 3)).1, by decide +kernel, rfl, rfl, by decide +kernel⟩,
  ⟨retrying, 0, by decide +kernel⟩,
  ⟨live, 4, by decide +kernel⟩,
  ⟨live, by decide +kernel⟩⟩

theorem witness_LostDiesRejoin_3 :
    ∃ (s : State), dieState s 4 ≠ 1 :=
  ⟨dieless1 4 2, by decide +kernel⟩

theorem witness_ErrorsAreContainedAtTheirLevel_1 :
    (∃ (s : State) (p src : Nat), p < 272 ∧ src ≠ 1 ∧ src ≠ 2 ∧ s.rel.handling = none ∧ (getMere s p).retired = false) ∧
    (∃ (s : State) (d c : Nat), d < 2 ∧ c < 34 ∧ s.rel.handling = none) ∧
    (∃ (s : State) (d u : Nat), 2 ≤ d ∧ d < 5 ∧ u < 256 ∧ s.rel.handling = none ∧ dieState s 0 = 1) ∧
    (∃ (s : State) (p src src2 q : Nat), p < 272 ∧ q < 272 ∧ p ≠ q ∧ src ≠ 1 ∧ src ≠ 2 ∧ s.rel.pend.length < 32 ∧ (∃ b,
      s.rel.handling = some b ∧ b.site = .mere q src2 ∧ b.level = 0)) :=
  ⟨⟨live, 271, 3, by decide +kernel⟩,
  ⟨live, 1, 33, by decide +kernel⟩,
  ⟨live, 4, 255, by decide +kernel⟩,
  ⟨containing 0 [], 271, 4, 3, 5, by decide +kernel, by decide +kernel, by decide +kernel, by decide +kernel,
    by decide +kernel, by decide +kernel, ⟨_, rfl, rfl, rfl⟩⟩⟩

theorem witness_ErrorsAreContainedAtTheirLevel_2 :
    (∃ (s : State), s.rel.handling = none ∧ s.rel.pend = []) ∧
    (∃ (s : State) (b : Contained), s.rel.handling = some b ∧ b.level < 3 ∧ s.rel.pend = []) ∧
    (∃ (s : State) (b x : Contained) (rest : List Contained), s.rel.handling = some b ∧ b.level < 3 ∧ s.rel.pend = x ::
      rest) ∧
    (∃ (s : State) (b : Contained), s.rel.handling = some b ∧ b.level = 3) :=
  ⟨⟨live, by decide +kernel⟩,
  ⟨containing 2 [], { site := .mere 5 3, level := 2, seq := 1 }, by decide +kernel⟩,
  ⟨containing 2 [waitingError], { site := .mere 5 3, level := 2, seq := 1 }, waitingError, [], by decide +kernel⟩,
  ⟨containing 3 [], { site := .mere 5 3, level := 3, seq := 1 }, by decide +kernel⟩⟩

/-- A port at gen3 on its first eight lanes. -/
def upPort : Port := { Port.reset with state := 2, gen := 3, width := 8, planes := List.range 8 }

/-- Port 23 with a record of its own, 10 s after X1 came up. -/
def ported (v : Port) : State := { setPort live 23 v with time := { live.time with die := [(3, 250000000)] } }

/-- What a partner of cap 2 answers in training. -/
def trainRep : TrainReport :=
  { peer := true, peerGen := 3, peerCap := 2, peerMap := [9], peerSerial := 5#64, peerPart := 1, peerPort := 11, badLanes := [],
    stepsInBound := true }

/-- A message of one fragment of class 4. -/
def message : TxMsg :=
  { cls := 4, phase := 0, laxis := 0, cid := none, level := 0, groups := [[23]], data := List.replicate 16 0, sent := 0, num := none }

/-- A flit that acknowledges flit 1 and carries nothing. -/
def ackFlit : Bytes := buildFlit 0 0 0 0 0 [] 16777217

theorem witness_PortsTrainToTheBestGeneration_1 :
    (∃ (s : State) (p gen : Nat) (rep : TrainReport) (good : List Nat), p < 24 ∧ mayTrain s p = true ∧ rep.peer = true ∧
      rep.stepsInBound = true ∧ trainAt (getPort s p) rep (chosenGen (getPort s p) rep) = some (gen, good)) ∧
    (∃ (s : State) (p : Nat) (rep : TrainReport), p < 24 ∧ mayTrain s p = true ∧ (rep.peer = false ∨ rep.stepsInBound =
      false ∨ trainAt (getPort s p) rep (chosenGen (getPort s p) rep) = none)) ∧
    (∃ (s : State) (p : Nat), p < 24 ∧ mayTrain s p = false) ∧
    (∃ (s : State) (p lane : Nat) (x : Lane), p < 24 ∧ portUp s p = true ∧ x = (getPort s p).lane lane ∧ (x.lastRequest =
      none ∨ (∃ a, x.lastRequest = some a ∧ a + 25000 ≤ portTime s p))) :=
  ⟨⟨live, 23, 2, trainRep, List.range 9, by decide +kernel⟩,
  ⟨live, 0, { trainRep with stepsInBound := false }, by decide +kernel⟩,
  ⟨ported upPort, 23, by decide +kernel⟩,
  ⟨ported { upPort with lanes := [(9, { Lane.reset with lastRequest := some 249975000 })] }, 23, 9,
    { Lane.reset with lastRequest := some 249975000 }, by decide +kernel, by decide +kernel, by decide +kernel, .inr
    ⟨249975000, by decide +kernel, by decide +kernel⟩⟩⟩

theorem witness_PortsTrainToTheBestGeneration_2 :
    (∃ (s : State) (p lane a : Nat), p < 24 ∧ ((getPort s p).lane lane).lastRequest = some a ∧ portTime s p < a + 25000) ∧
    (∃ (s : State) (p : Nat), p < 24 ∧ portUp s p = false) :=
  ⟨⟨ported { upPort with lanes := [(9, { Lane.reset with lastRequest := some 249975001 })] }, 23, 9, 249975001,
    by decide +kernel⟩,
  ⟨live, 23, by decide +kernel⟩⟩

theorem witness_PortControlsTakeEffect_1 :
    (∃ (s : State) (src : Source) (p : Nat) (v : Port), sourceUp s src = true ∧ p < 24 ∧ v = getPort s p ∧ v.enable =
      false) ∧
    (∃ (s : State) (src : Source) (p : Nat) (v : Port), sourceUp s src = true ∧ p < 24 ∧ v = getPort s p ∧ v.enable = true
      ∧ v.state = 0) ∧
    (∃ (s : State) (src : Source) (p : Nat) (v : Port), sourceUp s src = true ∧ p < 24 ∧ v = getPort s p ∧ v.enable = true
      ∧ v.state ≠ 0) ∧
    (∃ (s : State) (src : Source) (p : Nat) (v : Port), sourceUp s src = true ∧ p < 24 ∧ v = getPort s p ∧ (v.enable =
      false ∨ v.loopFail = true ∨ dieState s (linkDie p) ≠ 1)) :=
  ⟨⟨ported { Port.reset with enable := false }, .dataPort, 23, { Port.reset with enable := false }, by decide +kernel⟩,
  ⟨live, .dataPort, 23, Port.reset, by decide +kernel⟩,
  ⟨ported upPort, .cores, 23, upPort, by decide +kernel⟩,
  ⟨ported { Port.reset with enable := false }, .dataPort, 23, { Port.reset with enable := false }, by decide +kernel⟩⟩

theorem witness_PortControlsTakeEffect_2 :
    (∃ (s : State) (src : Source) (p : Nat) (v : Port) (n : _), sourceUp s src = true ∧ p < 24 ∧ v = getPort s p ∧ 1 ≤ n ∧
      n ≤ 3 ∧ (v.state < 2 ∨ v.gen ≤ n)) ∧
    (∃ (s : State) (src : Source) (p : Nat) (v : Port) (n : _), sourceUp s src = true ∧ p < 24 ∧ v = getPort s p ∧ 1 ≤ n ∧
      n ≤ 3 ∧ 2 ≤ v.state ∧ n < v.gen ∧ v.enable = true ∧ v.loopFail = false ∧ dieState s (linkDie p) = 1) :=
  ⟨⟨ported upPort, .dataPort, 23, upPort, 3, by decide +kernel⟩,
  ⟨ported upPort, .dataPort, 23, upPort, 2, by decide +kernel⟩⟩

theorem witness_FlitsAreSentAcceptedAndReplayed_1 :
    (∃ (s : State) (p : Nat) (v : Port), p < 24 ∧ v = getPort s p ∧ v.state = 2 ∧ v.resendFrom = none ∧ v.replay.length <
      512 ∧ (∀ e ∈ v.owed, e.2 = 0) ∧ v.txQueue = []) ∧
    (∃ (s : State) (p : Nat) (v : Port), p < 24 ∧ v = getPort s p ∧ v.state = 2 ∧ v.resendFrom = none ∧ 512 ≤
      v.replay.length) ∧
    (∃ (s : State) (p : Nat) (v : Port) (m : _), p < 24 ∧ v = getPort s p ∧ v.state = 2 ∧ v.resendFrom = none ∧
      v.replay.length < 512 ∧ (∀ e ∈ v.owed, e.2 = 0) ∧ nextMsg s p v = some m) ∧
    (∃ (s : State) (p q : Nat) (b : Bytes) (v : Port) (rest : List (Nat × Bytes)), p < 24 ∧ v = getPort s p ∧ v.state = 2
      ∧ v.replay = (q, b) :: rest ∧ v.resendFrom = some q) :=
  ⟨⟨ported upPort, 23, upPort, by decide +kernel⟩,
  ⟨ported { upPort with replay := List.replicate 512 (0, []) }, 23, { upPort with replay := List.replicate 512 (0, []) },
    by decide +kernel⟩,
  ⟨ported { upPort with txQueue := [message] }, 23, { upPort with txQueue := [message] }, message, by decide +kernel⟩,
  ⟨ported { upPort with replay := [(5, [1#8])], resendFrom := some 5 }, 23, 5, [1#8],
    { upPort with replay := [(5, [1#8])], resendFrom := some 5 }, [], by decide +kernel⟩⟩

theorem witness_FlitsAreSentAcceptedAndReplayed_2 :
    (∃ (s : State) (p : Nat) (flit : Bytes), p < 24 ∧ (getPort s p).state = 2 ∧ flitGood flit = false ∧ (getPort s p).gen
      ≠ 1) ∧
    (∃ (s : State) (p : Nat) (flit : Bytes), p < 24 ∧ (getPort s p).state = 2 ∧ flitGood flit = false ∧ (getPort s p).gen
      = 1) ∧
    (∃ (s : State) (p w : Nat) (flit : Bytes) (v : Port), p < 24 ∧ v = getPort s p ∧ v.state = 2 ∧ flitGood flit = true ∧
      w = field flit 0xF8 4 ∧ bit w 24 = false ∧ bit w 25 = false ∧ field flit 0 1 ≠ 0 ∧ w % 4096 ≠ v.expect) ∧
    (∃ (s : State) (p w : Nat) (flit : Bytes) (v : Port), p < 24 ∧ v = getPort s p ∧ v.state = 2 ∧ flitGood flit = true ∧
      w = field flit 0xF8 4 ∧ bit w 24 = false ∧ bit w 25 = false ∧ field flit 0 1 ≠ 0 ∧ w % 4096 = v.expect) :=
  ⟨⟨ported upPort, 23, [], by decide +kernel⟩,
  ⟨ported { upPort with gen := 1 }, 23, [], by decide +kernel⟩,
  ⟨ported upPort, 23, 4095, buildFlit 1 0 16 0 0 [] 4095, upPort, by decide +kernel⟩,
  ⟨ported { upPort with expect := 4095 }, 23, 4095, buildFlit 1 0 16 0 0 [] 4095, { upPort with expect := 4095 },
    by decide +kernel⟩⟩

theorem witness_FlitsAreSentAcceptedAndReplayed_3 :
    (∃ (s : State) (p w : Nat) (flit : Bytes), p < 24 ∧ (getPort s p).state = 2 ∧ flitGood flit = true ∧ w = field flit
      0xF8 4 ∧ bit w 24 = true ∧ bit w 25 = false ∧ field flit 0 1 = 0) ∧
    (∃ (s : State) (p : Nat), p < 24 ∧ (getPort s p).state ≠ 2) ∧
    (∃ (s : State) (p : Nat), p < 24 ∧ (getPort s p).state ≠ 2) ∧
    (∃ (s : State) (p : Nat) (v : Port) (e : Nat × Bytes) (rest : List (Nat × Bytes)), p < 24 ∧ v = getPort s p ∧ v.state
      = 2 ∧ v.replay = e :: rest ∧ v.resends < 16) :=
  ⟨⟨ported upPort, 23, 16777217, ackFlit, by decide +kernel⟩,
  ⟨live, 23, by decide +kernel⟩,
  ⟨live, 0, by decide +kernel⟩,
  ⟨ported { upPort with replay := [(5, [1#8])], resends := 15 }, 23, { upPort with replay := [(5, [1#8])], resends := 15 },
    (5, [1#8]), [], by decide +kernel⟩⟩

theorem witness_FlitsAreSentAcceptedAndReplayed_4 :
    ∃ (s : State) (p : Nat) (v : Port) (e : Nat × Bytes) (rest : List (Nat × Bytes)), p < 24 ∧ v = getPort s p ∧ v.state =
      2 ∧ v.replay = e :: rest ∧ 16 ≤ v.resends :=
  ⟨ported { upPort with replay := [(5, [1#8])], resends := 16 }, 23, { upPort with replay := [(5, [1#8])], resends := 16 },
    (5, [1#8]), [], by decide +kernel⟩

theorem witness_LanesFailOverOrThePortGoesDown_1 :
    (∃ (s : State) (p l : Nat) (v : Port) (x : Lane), p < 24 ∧ v = getPort s p ∧ portUp s p = true ∧ l ∈ v.planes ∧ x =
      v.lane l ∧ (x.lastTransient = none ∨ ∃ a, x.lastTransient = some a ∧ a + 250000000 ≤ portTime s p)) ∧
    (∃ (s : State) (p l n : Nat) (ok : Bool) (v : Port), p < 24 ∧ v = getPort s p ∧ portUp s p = true ∧ l ∈ v.planes ∧
      v.width ≠ 4 ∧ (ok = false ∨ ∃ a, (v.lane l).lastTransient = some a ∧ portTime s p < a + 250000000) ∧ n < 10 ∧ n ≠ l
      ∧ n ∉ v.fused ∧ n ∉ v.nonVolatile ∧ (v.lane n).retired = false ∧ n ∉ v.excluded ∧ n ∉ v.planes ∧ (∀ y, y < 10 → y ≠
      l → y ∉ v.fused → y ∉ v.nonVolatile → (v.lane y).retired = false → y ∉ v.excluded → y ∉ v.planes → n ≤ y)) ∧
    (∃ (s : State) (p l : Nat) (ok : Bool) (v : Port), p < 24 ∧ v = getPort s p ∧ portUp s p = true ∧ l ∈ v.planes ∧
      v.width ≠ 4 ∧ (ok = false ∨ ∃ a, (v.lane l).lastTransient = some a ∧ portTime s p < a + 250000000) ∧ (∀ y, y < 10 →
      y ≠ l → y ∈ v.planes ∨ y ∈ v.fused ∨ y ∈ v.nonVolatile ∨ (v.lane y).retired = true ∨ y ∈ v.excluded)) ∧
    (∃ (s : State) (p l : Nat) (ok : Bool) (v : Port), p < 24 ∧ v = getPort s p ∧ portUp s p = true ∧ l ∈ v.planes ∧
      v.width = 4 ∧ (ok = false ∨ ∃ a, (v.lane l).lastTransient = some a ∧ portTime s p < a + 250000000)) :=
  ⟨⟨ported { upPort with lanes := [(7, { Lane.reset with lastTransient := some 0 })] }, 23, 7,
    { upPort with lanes := [(7, { Lane.reset with lastTransient := some 0 })] },
    { Lane.reset with lastTransient := some 0 }, by decide +kernel, by decide +kernel, by decide +kernel, by decide +kernel,
    by decide +kernel, .inr ⟨0, by decide +kernel, by decide +kernel⟩⟩,
  ⟨ported { upPort with lanes := [(0, { Lane.reset with lastTransient := some 1 })] }, 23, 0, 8, true,
    { upPort with lanes := [(0, { Lane.reset with lastTransient := some 1 })] }, by decide +kernel, by decide +kernel,
    by decide +kernel, by decide +kernel, by decide +kernel, .inr ⟨1, by decide +kernel, by decide +kernel⟩,
    by decide +kernel, by decide +kernel, by decide +kernel, by decide +kernel, by decide +kernel, by decide +kernel,
    by decide +kernel, (by intro y hy _ _ _ _ _ hp; by_contra h; exact hp (List.mem_range.mpr (by omega)))⟩,
  ⟨ported { upPort with fused := [9], nonVolatile := [8] }, 23, 7, false, { upPort with fused := [9], nonVolatile := [8] },
    by decide +kernel, by decide +kernel, by decide +kernel, by decide +kernel, by decide +kernel, .inl rfl,
    by decide +kernel⟩,
  ⟨ported { upPort with width := 4, planes := List.range 4 }, 23, 3, false,
    { upPort with width := 4, planes := List.range 4 }, by decide +kernel, by decide +kernel, by decide +kernel,
    by decide +kernel, by decide +kernel, .inl rfl⟩⟩

theorem witness_LanesFailOverOrThePortGoesDown_2 :
    (∃ (s : State) (p l : Nat), p < 24 ∧ (portUp s p = false ∨ l ∉ (getPort s p).planes)) ∧
    (∃ (s : State) (p : Nat), p < 24 ∧ portUp s p = false) ∧
    (∃ (s : State) (p : Nat), p < 24 ∧ (getPort s p).oldPhase = true ∧ (∀ m ∈ (getPort s p).txQueue, m.phase = 0 ∨ m.phase
      = s.peers.epoch)) ∧
    (∃ (s : State) (p : Nat), p < 24 ∧ (∃ m ∈ (getPort s p).txQueue, m.phase ≠ 0 ∧ m.phase ≠ s.peers.epoch)) :=
  ⟨⟨ported upPort, 23, 8, by decide +kernel⟩,
  ⟨live, 23, by decide +kernel⟩,
  ⟨ported { upPort with oldPhase := true, txQueue := [message] }, 23, by decide +kernel⟩,
  ⟨ported { upPort with oldPhase := true, txQueue := [{ message with phase := 1 }] }, 23, by decide +kernel⟩⟩

/-- Rank 3 on a ring of two along axis A, which is logical axis 0. -/
def table : Bytes := lay 256 [(4, 4, 3), (8, 2, 2), (0x20, 1, 1), (0x40, 1, 255)]

/-- A module with that route table in force and port 0 up. -/
def linked (s : State) : State := { setPort s 0 upPort with peers := { s.peers with route := some table } }

/-- A header of class `k` from rank 2 to this module. -/
def head (k : Nat) (id spec : Word) : Header := { cls := k, dst := 3, src := 2, id := id, spec := spec }

/-- A source mirror slot of descriptor 1, one block. -/
def sourceSlot (st : Nat) : Mirror := { Mirror.reset with source := true, partner := 2, desc := 1, state := st, nblocks := 1, images := [2, 2, 0, 0] }

/-- The module with descriptor 1 a mirrored master in slot 255. -/
def mirrored (st : Nat) : State := setMirror (linked master) 255 (sourceSlot st)

/-- MIRROR_CONFIG of slot 255. -/
def config1 (role : Nat) : Cmd := cmdOf 0 0x0601 [(0x10, 2, 1), (0x16, 1, role), (0x17, 1, 255), (0x18, 4, 2)]

/-- MIRROR_VERIFY, or RESTORE from the mirror in slot 255. -/
def verify1 (op : Nat) : Cmd := cmdOf 0 op [(0x10, 2, 1), (0x17, 1, if op = 0x0603 then 255 else 0)]

/-- A host slot being filled at generation 7, its region at descriptor 2. -/
def hosted (tag : Nat) : State :=
  hbmWrite (setMirror (linked master) 511 { Mirror.reset with partner := 2, desc := 2, state := 2, genF := 7, nblocks := 1, images := [2, 2, 0, 0] })
    0x11040 (toLe 8 tag)

/-- PIPE_SEND or PIPE_RECV of queue 63, 64 slots, descriptor 1. -/
def piped (op : Nat) : Cmd := cmdOf 0 op [(0x10, 2, 1), (0x12, 1, 63), (0x14, 4, 2), (0x19, 1, 64), (0x1A, 2, if op = 0x0207 then 8 else 0)]

/-- The module with descriptor 1 a mirror being configured, its size told. -/
def told : Cmd := { config1 0 with holds := true }

/-- The same in flight, its mirror in state `st`. -/
def asking (st : Nat) (asked : Bool) : State := setMirror (runs (linked master) told) 255 { sourceSlot st with asked := asked }

/-- A host slot valid at generation 6, of two blocks. -/
def validHost : State :=
  setMirror (linked master) 511 { Mirror.reset with partner := 2, desc := 2, state := 1, genC := 6, nblocks := 2, images := [2, 2, 0, 0] }

/-- PIPE_SEND or PIPE_RECV of the compressed tensor. -/
def pipedZip (op : Nat) : Cmd :=
  cmdOf 0 op [(0x10, 2, 2), (0x12, 1, 63), (0x14, 4, 2), (0x19, 1, 1), (0x1A, 2, if op = 0x0207 then 8 else 0)]

/-- A queue in which entry 65535 waits with its bytes. -/
def arrivedPipe (b : Bytes) : Pipe := { Pipe.reset with nextTake := 65535, entries := [{ src := 2, number := 65535, data := b }] }

/-- Pipeline queue 63 in that state. -/
def arrived (s : State) (b : Bytes) : State := setPipe s 63 (arrivedPipe b)

/-- The compressed tensor of 64 bytes, nothing written, and a slot buffer. -/
def shortZip : State :=
  desc (desc zips 2 (patch (descOf 0x20000 64 [16, 1] 0 4) 0x30 (toLe 8 0x30000))) 8 (descOf 0x40000 0x2000 [0x2000] 3 0)

/-- Descriptor 1 of one byte, and 8 a slot buffer of 64 bytes. -/
def buffers : State := linked (desc (desc live 1 (descOf 0x10000 64 [1] 3 0)) 8 (descOf 0x20000 64 [64] 3 0))

theorem witness_MirrorCommandsAskThePartner_1 :
    (∃ (s : State) (cid slot : Nat) (c : Cmd) (mr : Mirror), Dispatched s cid 0x0601 c ∧ mirrorConfigIssue s c = none ∧
      slot = c.arg 0x17 1 ∧ mr = getMirror s slot ∧ c.arg 0x16 1 = 1) ∧
    (∃ (s : State) (cid slot : Nat) (c : Cmd) (mr : Mirror), Dispatched s cid 0x0601 c ∧ mirrorConfigIssue s c = none ∧
      slot = c.arg 0x17 1 ∧ mr = getMirror s slot ∧ c.arg 0x16 1 = 2) ∧
    (∃ (s : State) (cid slot : Nat) (c : Cmd) (mr : Mirror) (p : _), Dispatched s cid 0x0601 c ∧ mirrorConfigIssue s c =
      none ∧ slot = c.arg 0x17 1 ∧ mr = getMirror s slot ∧ c.arg 0x16 1 = 0 ∧ c.holds = false ∧ choosePort s 0 (groupsFor
      (routeOf s c.phase) (c.arg 0x1C 1) .unknown) = some p) ∧
    (∃ (s : State) (cid slot : Nat) (c : Cmd) (mr : Mirror), Dispatched s cid 0x0601 c ∧ mirrorConfigIssue s c = none ∧
      slot = c.arg 0x17 1 ∧ mr = getMirror s slot ∧ c.arg 0x16 1 = 0 ∧ c.holds = true ∧ mr.asked = false ∧ mr.state = 1) :=
  ⟨⟨runs (linked master) (config1 1), 7, 255, config1 1, Mirror.reset, by decide +kernel⟩,
  ⟨runs (linked master) (config1 2), 7, 255, config1 2, Mirror.reset, by decide +kernel⟩,
  ⟨runs (linked master) (config1 0), 7, 255, config1 0, Mirror.reset, 0, by decide +kernel⟩,
  ⟨asking 1 false, 7, 255, told, { sourceSlot 1 with asked := false }, by decide +kernel⟩⟩

theorem witness_MirrorCommandsAskThePartner_2 :
    (∃ (s : State) (cid slot : Nat) (c : Cmd) (mr : Mirror), Dispatched s cid 0x0601 c ∧ mirrorConfigIssue s c = none ∧
      slot = c.arg 0x17 1 ∧ mr = getMirror s slot ∧ c.arg 0x16 1 = 0 ∧ c.holds = true ∧ mr.asked = false ∧ mr.state = 3) ∧
    (∃ (s : State) (cid slot : Nat) (c : Cmd) (mr : Mirror), Dispatched s cid 0x0601 c ∧ mirrorConfigIssue s c = none ∧
      slot = c.arg 0x17 1 ∧ mr = getMirror s slot ∧ c.arg 0x16 1 = 0 ∧ c.holds = true ∧ (mr.asked = true ∨ mr.state = 2))
      ∧
    (∃ (s : State) (cid : Nat) (c : Cmd), Dispatched s cid 0x0601 c ∧ c.arg 0x16 1 = 0 ∧ (getMirror s (c.arg 0x17
      1)).asked = true) ∧
    (∃ (s : State) (cid : Nat) (c : Cmd), Dispatched s cid 0x0601 c ∧ c.arg 0x16 1 = 0 ∧ (getMirror s (c.arg 0x17
      1)).asked = false) :=
  ⟨⟨asking 3 false, 7, 255, told, { sourceSlot 3 with asked := false }, by decide +kernel⟩,
  ⟨asking 2 true, 7, 255, told, { sourceSlot 2 with asked := true }, by decide +kernel⟩,
  ⟨asking 0 true, 7, told, by decide +kernel⟩,
  ⟨asking 0 false, 7, told, by decide +kernel⟩⟩

theorem witness_MirrorCommandsAskThePartner_3 :
    (∃ (s : State) (cid p slot : Nat) (c : Cmd) (mr : Mirror), Dispatched s cid 0x0604 c ∧ mirrorVerifyIssue s c = none ∧
      mirrorOf s (c.arg 0x10 2) = some (slot, mr) ∧ c.holds = false ∧ choosePort s 0 (groupsFor (routeOf s c.phase)
      mr.laxis .unknown) = some p) ∧
    (∃ (s : State) (cid slot : Nat) (c : Cmd) (mr : Mirror), Dispatched s cid 0x0604 c ∧ mirrorVerifyIssue s c = none ∧
      mirrorOf s (c.arg 0x10 2) = some (slot, mr) ∧ c.holds = true) ∧
    (∃ (s : State) (cid p : Nat) (c : Cmd) (mr : Mirror), Dispatched s cid 0x0603 c ∧ checkpointIssue s c = none ∧ c.arg
      0x16 1 ≠ 1 ∧ mr = getMirror s (c.arg 0x17 1) ∧ mr.source = true ∧ mr.desc = c.arg 0x10 2 ∧ (mr.state = 1 ∨ mr.state
      = 2) ∧ c.holds = false ∧ choosePort s 0 (groupsFor (routeOf s c.phase) mr.laxis .unknown) = some p) ∧
    (∃ (s : State) (cid : Nat) (c : Cmd) (mr : Mirror), Dispatched s cid 0x0603 c ∧ checkpointIssue s c = none ∧ c.arg
      0x16 1 ≠ 1 ∧ mr = getMirror s (c.arg 0x17 1) ∧ (mr.source = false ∨ mr.desc ≠ c.arg 0x10 2 ∨ mr.state = 3 ∨ mr.state
      = 0)) :=
  ⟨⟨runs (mirrored 1) (verify1 0x0604), 7, 0, 255, verify1 0x0604, sourceSlot 1, by decide +kernel⟩,
  ⟨runs (mirrored 1) { verify1 0x0604 with holds := true }, 7, 255, { verify1 0x0604 with holds := true }, sourceSlot 1,
    by decide +kernel⟩,
  ⟨runs (mirrored 2) (verify1 0x0603), 7, 0, verify1 0x0603, sourceSlot 2, by decide +kernel⟩,
  ⟨runs (linked master) (verify1 0x0603), 7, verify1 0x0603, Mirror.reset, by decide +kernel⟩⟩

theorem witness_MirrorMessagesTakeEffect_1 :
    (∃ (s : State) (h : Header) (data : Bytes) (mr : Mirror) (slot : Nat), h.cls = 3 ∧ s.peers.route ≠ none ∧ h.dst =
      ownRank s ∧ slot = h.id.toNat % 256 ∧ mr = getMirror s (256 + slot) ∧ mr.desc ≠ 0 ∧ mr.partner = h.src ∧ mr.state =
      2 ∧ mr.genF.toNat = field data 0 8 ∧ h.spec.toNat < mr.nblocks ∧ leNat (s.mem.readN ((readDesc s mr.desc).base +
      0x40 + 8 * h.spec.toNat) 8) ≠ field data 0 8) ∧
    (∃ (s : State) (h : Header) (data : Bytes) (mr : Mirror) (slot : Nat), h.cls = 3 ∧ s.peers.route ≠ none ∧ h.dst =
      ownRank s ∧ slot = h.id.toNat % 256 ∧ mr = getMirror s (256 + slot) ∧ mr.desc ≠ 0 ∧ mr.partner = h.src ∧ mr.state =
      2 ∧ mr.genF.toNat = field data 0 8 ∧ h.spec.toNat < mr.nblocks ∧ leNat (s.mem.readN ((readDesc s mr.desc).base +
      0x40 + 8 * h.spec.toNat) 8) = field data 0 8) ∧
    (∃ (s : State) (h : Header) (data : Bytes) (mr : Mirror) (slot : Nat), h.cls = 3 ∧ s.peers.route ≠ none ∧ h.dst =
      ownRank s ∧ slot = h.id.toNat % 256 ∧ mr = getMirror s (256 + slot) ∧ mr.desc ≠ 0 ∧ mr.partner = h.src ∧ mr.state =
      1 ∧ mr.genC.toNat ≠ field data 0 8 ∧ h.spec.toNat < mr.nblocks ∧ 1 < mr.nblocks) ∧
    (∃ (s : State) (h : Header), h.cls = 3 ∧ s.peers.route ≠ none ∧ h.dst = ownRank s ∧ ((getMirror s (256 + h.id.toNat %
      256)).desc = 0 ∨ (getMirror s (256 + h.id.toNat % 256)).partner ≠ h.src)) :=
  ⟨⟨hosted 6, head 3 255#32 0, toLe 8 7, getMirror (hosted 6) 511, 255, by decide +kernel⟩,
  ⟨hosted 7, head 3 255#32 0, toLe 8 7, getMirror (hosted 7) 511, 255, by decide +kernel⟩,
  ⟨validHost, head 3 255#32 0, toLe 8 7, getMirror validHost 511, 255, by decide +kernel⟩,
  ⟨linked live, head 3 255#32 0, by decide +kernel⟩⟩

theorem witness_MirrorMessagesTakeEffect_2 :
    (∃ (s : State) (slot : Nat), (getMirror s slot).source = true ∧ (getMirror s slot).state = 2) ∧
    (∃ (s : State) (slot : Nat), ((getMirror s slot).source = false ∨ (getMirror s slot).state ≠ 2)) ∧
    (∃ (s : State) (h : Header), h.cls = 3 ∧ (s.peers.route = none ∨ h.dst ≠ ownRank s)) ∧
    (∃ (s : State) (h : Header) (slot : Nat), h.cls = 3 ∧ s.peers.route ≠ none ∧ h.dst = ownRank s ∧ slot = h.id.toNat %
      256 ∧ (getMirror s (256 + slot)).desc = 0) :=
  ⟨⟨mirrored 2, 255, by decide +kernel⟩,
  ⟨mirrored 1, 255, by decide +kernel⟩,
  ⟨linked live, { head 3 0 0 with dst := 4 }, by decide +kernel⟩,
  ⟨linked live, head 3 255#32 0, 255, by decide +kernel⟩⟩

theorem witness_MirrorMessagesTakeEffect_3 :
    (∃ (s : State) (h : Header) (slot p : Nat) (mr : Mirror), h.cls = 3 ∧ s.peers.route ≠ none ∧ h.dst = ownRank s ∧ slot
      = h.id.toNat % 256 ∧ mr = getMirror s (256 + slot) ∧ mr.desc ≠ 0 ∧ mr.partner = h.src ∧ choosePort s 0 (groupsFor
      (routeOf s s.peers.epoch) mr.laxis .unknown) = some p) ∧
    (∃ (s : State) (h : Header) (c : Cmd) (slot n : Nat), h.cls = 3 ∧ s.peers.route ≠ none ∧ h.dst = ownRank s ∧ slot =
      h.id.toNat % 256 ∧ configOf s slot = some c ∧ 0 < n) ∧
    (∃ (s : State) (h : Header) (c : Cmd) (slot : Nat), h.cls = 3 ∧ s.peers.route ≠ none ∧ h.dst = ownRank s ∧ slot =
      h.id.toNat % 256 ∧ configOf s slot = some c ∧ 0 < (getMirror s slot).nblocks) ∧
    (∃ (s : State) (h : Header) (slot p : Nat) (mr : Mirror), h.cls = 3 ∧ s.peers.route ≠ none ∧ h.dst = ownRank s ∧ slot
      = h.id.toNat % 256 ∧ mr = getMirror s (256 + slot) ∧ mr.desc ≠ 0 ∧ mr.partner = h.src ∧ choosePort s 0 (groupsFor
      (routeOf s s.peers.epoch) mr.laxis .unknown) = some p) :=
  ⟨⟨hosted 7, head 3 255#32 0, 255, 0, getMirror (hosted 7) 511, by decide +kernel⟩,
  ⟨runs (linked master) (config1 0), head 3 255#32 0, config1 0, 255, 1, by decide +kernel⟩,
  ⟨runs (mirrored 2) (config1 0), head 3 255#32 0, config1 0, 255, by decide +kernel⟩,
  ⟨hosted 7, head 3 255#32 0, 255, 0, getMirror (hosted 7) 511, by decide +kernel⟩⟩

theorem witness_MirrorMessagesTakeEffect_4 :
    (∃ (s : State) (h : Header) (values : List Word) (c : Cmd) (slot : Nat), h.cls = 3 ∧ s.peers.route ≠ none ∧ h.dst =
      ownRank s ∧ slot = h.id.toNat % 256 ∧ waiterOf s 0x0604 slot = some c ∧ findCmd s c.cid = some c ∧ values =
      (List.range (getMirror s slot).nblocks).map (fun b => BitVec.ofNat 32 (crc32c (localBlock s (readDesc s (c.arg 0x10
      2)) (descOr s (c.arg 0x12 2)) (descOr s (c.arg 0x14 2)) b)))) ∧
    (∃ (s : State) (h : Header) (values : List Word) (c : Cmd) (slot b : Nat), h.cls = 3 ∧ s.peers.route ≠ none ∧ h.dst =
      ownRank s ∧ slot = h.id.toNat % 256 ∧ waiterOf s 0x0604 slot = some c ∧ b < (getMirror s slot).nblocks ∧ b <
      values.length ∧ (∀ i, i < b → values.getD i 0 = BitVec.ofNat 32 (crc32c (localBlock s (readDesc s (c.arg 0x10 2))
      (descOr s (c.arg 0x12 2)) (descOr s (c.arg 0x14 2)) i))) ∧ values.getD b 0 ≠ BitVec.ofNat 32 (crc32c (localBlock s
      (readDesc s (c.arg 0x10 2)) (descOr s (c.arg 0x12 2)) (descOr s (c.arg 0x14 2)) b))) ∧
    (∃ (s : State) (h : Header) (c : Cmd) (slot : Nat) (st : _), h.cls = 3 ∧ s.peers.route ≠ none ∧ h.dst = ownRank s ∧
      slot = h.id.toNat % 256 ∧ waiterOf s 0x0603 slot = some c ∧ findCmd s c.cid = some c ∧ st ≠ 1 ∧ st ≠ 2) :=
  ⟨⟨runs (mirrored 1) (verify1 0x0604), head 3 255#32 0, _, verify1 0x0604, 255, by decide +kernel, by decide +kernel,
    by decide +kernel, by decide +kernel, by decide +kernel, by decide +kernel, rfl⟩,
  ⟨runs (mirrored 1) (verify1 0x0604), head 3 255#32 0, [0#32], verify1 0x0604, 255, 0, by decide +kernel,
    by decide +kernel, by decide +kernel, by decide +kernel, by decide +kernel, by decide +kernel, by decide +kernel,
    (by intro i hi; omega), by decide +kernel⟩,
  ⟨runs (mirrored 1) (verify1 0x0603), head 3 255#32 0, verify1 0x0603, 255, 3, by decide +kernel⟩⟩

theorem witness_PipelinesAndShortMessages_1 :
    (∃ (s : State) (cid : Nat) (c : Cmd) (v : Pipe) (d : Desc), Dispatched s cid 0x0206 c ∧ pipeIssue s c = none ∧ v =
      getPipe s c.pq ∧ d = readDesc s (c.arg 0x10 2) ∧ (∃ n, (n, c.cid) ∈ v.sent)) ∧
    (∃ (s : State) (cid p : Nat) (c : Cmd) (v : Pipe) (d : Desc), Dispatched s cid 0x0206 c ∧ pipeIssue s c = none ∧ v =
      getPipe s c.pq ∧ d = readDesc s (c.arg 0x10 2) ∧ (∀ e ∈ v.sent, e.2 ≠ c.cid) ∧ (d.compressed = true → crcDamage s d
      = none) ∧ choosePort s 0 (groupsFor (routeOf s c.phase) (c.arg 0x18 1) .unknown) = some p) ∧
    (∃ (s : State) (cid : Nat) (c : Cmd) (v : Pipe) (d : Desc) (x : _), Dispatched s cid 0x0206 c ∧ pipeIssue s c = none ∧
      v = getPipe s c.pq ∧ d = readDesc s (c.arg 0x10 2) ∧ (∀ e ∈ v.sent, e.2 ≠ c.cid) ∧ d.compressed = true ∧ crcDamage s
      d = some x) ∧
    (∃ (s : State) (cid : Nat) (c : Cmd) (d : Desc) (v : Pipe), Dispatched s cid 0x0207 c ∧ pipeIssue s c = none ∧ v =
      getPipe s c.pq ∧ d = readDesc s (c.arg 0x10 2) ∧ nextEntryOf s c.pq = none) :=
  ⟨⟨setPipe (runs buffers (piped 0x0206)) 63 { Pipe.reset with sent := [(0, 7)] }, 7, piped 0x0206,
    { Pipe.reset with sent := [(0, 7)] }, readDesc buffers 1, by decide +kernel, by decide +kernel, by decide +kernel,
    by decide +kernel, ⟨0, by decide +kernel⟩⟩,
  ⟨runs buffers (piped 0x0206), 7, 0, piped 0x0206, Pipe.reset, readDesc buffers 1, by decide +kernel⟩,
  ⟨runs (linked broken0) (pipedZip 0x0206), 7, pipedZip 0x0206, Pipe.reset, readDesc broken0 2, (none, 2),
    by decide +kernel⟩,
  ⟨runs buffers (piped 0x0207), 7, piped 0x0207, readDesc buffers 1, Pipe.reset, by decide +kernel⟩⟩

theorem witness_PipelinesAndShortMessages_2 :
    (∃ (s : State) (cid : Nat) (c : Cmd) (d : Desc) (v : Pipe) (e : _), Dispatched s cid 0x0207 c ∧ pipeIssue s c = none ∧
      v = getPipe s c.pq ∧ d = readDesc s (c.arg 0x10 2) ∧ nextEntryOf s c.pq = some e ∧ e.data ≠ [] ∧ (d.compressed =
      true → crcDamage (withEntry s d e.data) d = none)) ∧
    (∃ (s : State) (cid : Nat) (c : Cmd) (d : Desc) (v : Pipe) (e x : _), Dispatched s cid 0x0207 c ∧ pipeIssue s c = none
      ∧ v = getPipe s c.pq ∧ d = readDesc s (c.arg 0x10 2) ∧ nextEntryOf s c.pq = some e ∧ d.compressed = true ∧ crcDamage
      (withEntry s d e.data) d = some x) ∧
    (∃ (s : State) (h : Header) (data : Bytes) (pq slots buf a : Nat) (fits : Bool), Safe s ∧ h.cls = 2 ∧ bit h.spec.toNat
      24 = false ∧ s.peers.route ≠ none ∧ h.dst = ownRank s ∧ pq = h.id.toNat % 64 ∧ recvConfig s pq data = some (slots,
      buf, fits) ∧ a = (readDesc s buf).home + h.spec.toNat % 65536 % max slots 1 * data.length ∧ bits h.spec.toNat 23 16
      = slots ∧ fits = true ∧ (∀ e ∈ (getPipe s pq).entries, e.number ≠ h.spec.toNat % 65536 ∨ e.src ≠ h.src) ∧ (∀ i, i <
      data.length → claimAt s.mem.claims (a + i) = none)) ∧
    (∃ (s : State) (h : Header) (data : Bytes) (pq slots buf a : Nat) (fits : Bool), Safe s ∧ h.cls = 2 ∧ bit h.spec.toNat
      24 = false ∧ s.peers.route ≠ none ∧ h.dst = ownRank s ∧ pq = h.id.toNat % 64 ∧ recvConfig s pq data = some (slots,
      buf, fits) ∧ a = (readDesc s buf).home + h.spec.toNat % 65536 % max slots 1 * data.length ∧ (bits h.spec.toNat 23 16
      ≠ slots ∨ fits = false)) :=
  ⟨⟨arrived (runs buffers (piped 0x0207)) [5#8], 7, piped 0x0207, readDesc buffers 1, arrivedPipe [5#8],
    { src := 2, number := 65535, data := [5#8] }, by decide +kernel⟩,
  ⟨arrived (runs (linked shortZip) (pipedZip 0x0207)) [], 7, pipedZip 0x0207, readDesc shortZip 2, arrivedPipe [],
    { src := 2, number := 65535, data := [] }, (none, 2), by decide +kernel⟩,
  ⟨runs buffers (piped 0x0207), head 2 63#32 0x40FFFF#32, [5#8], 63, 64, 8, 0x2003F, true, by decide +kernel⟩,
  ⟨runs buffers (piped 0x0207), head 2 63#32 0x40FFFF#32, [], 63, 64, 8, 0x20000, false, by decide +kernel⟩⟩

theorem witness_PipelinesAndShortMessages_3 :
    (∃ (s : State) (h : Header) (data : Bytes), h.cls = 2 ∧ bit h.spec.toNat 24 = false ∧ s.peers.route ≠ none ∧ h.dst =
      ownRank s ∧ recvConfig s (h.id.toNat % 64) data = none) ∧
    (∃ (s : State) (h : Header) (n : Nat), h.cls = 4 ∧ shortKind h.spec = 4 ∧ s.peers.route ≠ none ∧ h.dst = ownRank s ∧
      (getPipe s (h.id.toNat % 64)).credits = some n) ∧
    (∃ (s : State) (h : Header) (pq cid : Nat) (c : Cmd), h.cls = 2 ∧ s.peers.route ≠ none ∧ h.dst = ownRank s ∧ pq =
      h.id.toNat % 64 ∧ (getPipe s pq).sent.find? (fun e => e.1 == h.spec.toNat % 65536) = some (h.spec.toNat % 65536,
      cid) ∧ Dispatched s cid 0x0206 c) ∧
    (∃ (s : State) (h : Header) (l a n p : Nat), h.cls = 4 ∧ shortKind h.spec = 0 ∧ s.peers.route ≠ none ∧ h.dst = ownRank
      s ∧ l = bits h.id.toNat 29 22 ∧ a = h.id.toNat % 2 ^ 22 ∧ n = h.spec.toNat % 4096 ∧ p = physOf s l ∧ l % 128 <
      meresExposed s (l / 128)) :=
  ⟨⟨linked live, head 2 63#32 0x40FFFF#32, [5#8], by decide +kernel⟩,
  ⟨setPipe buffers 63 { Pipe.reset with credits := some 0 }, head 4 63#32 0x4000#32, 0, by decide +kernel⟩,
  ⟨setPipe (runs buffers (piped 0x0206)) 63 { Pipe.reset with credits := some 63, sent := [(65535, 7)] }, head 2 63#32
    0x340FFFF#32, 63, 7, piped 0x0206, by decide +kernel⟩,
  ⟨linked live, head 4 0x3FC00004#32 0xFFF#32, 255, 4, 4095, 263, by decide +kernel⟩⟩

theorem witness_PipelinesAndShortMessages_4 :
    (∃ (s : State) (h : Header) (l a n p : Nat), h.cls = 4 ∧ shortKind h.spec = 0 ∧ s.peers.route ≠ none ∧ h.dst = ownRank
      s ∧ l = bits h.id.toNat 29 22 ∧ a = h.id.toNat % 2 ^ 22 ∧ n = h.spec.toNat % 4096 ∧ p = physOf s l ∧ meresExposed s
      (l / 128) ≤ l % 128) ∧
    (∃ (s : State) (h : Header) (l a n p : Nat) (g : Header), h.cls = 4 ∧ shortKind h.spec = 0 ∧ s.peers.route ≠ none ∧
      h.dst = ownRank s ∧ l = bits h.id.toNat 29 22 ∧ a = h.id.toNat % 2 ^ 22 ∧ n = h.spec.toNat % 4096 ∧ p = physOf s l ∧
      g.cls = 4 ∧ shortKind g.spec = 5) ∧
    (∃ (s : State) (h : Header) (l a n p : Nat) (g : Header), h.cls = 4 ∧ shortKind h.spec = 0 ∧ s.peers.route ≠ none ∧
      h.dst = ownRank s ∧ l = bits h.id.toNat 29 22 ∧ a = h.id.toNat % 2 ^ 22 ∧ n = h.spec.toNat % 4096 ∧ p = physOf s l ∧
      g.cls = 4 ∧ shortKind g.spec = 0 ∧ g.dst ≠ ownRank s) :=
  ⟨⟨linked
    { live with job := { live.job with meresPerDie := 127 } , compute := { live.compute with meres := (List.range 9).map (fun n => (136 + n, { Mere.reset with retired := true })) } },
    head 4 0x3FC00004#32 0xFFF#32, 255, 4, 4095, 263, by decide +kernel⟩,
  ⟨linked live, head 4 0x3FC00004#32 0xFFF#32, 255, 4, 4095, 263, head 4 0 0x5000#32, by decide +kernel⟩,
  ⟨linked live, head 4 0x3FC00004#32 0xFFF#32, 255, 4, 4095, 263, { head 4 0 0 with dst := 4 }, by decide +kernel⟩⟩

/-- Rank `rank` at position `pos` of a ring of `n` along axis A, which is logical axes 0 and 1. -/
def ringTable (rank n pos : Nat) : Bytes := lay 256 [(4, 4, rank), (8, 2, n), (0xE, 2, pos), (0x20, 1, 1), (0x21, 1, 1), (0x40, 1, 255)]

/-- A module under that table with port 0 up. -/
def onRing (s : State) (rank n pos : Nat) : State :=
  { setPort s 0 upPort with peers := { s.peers with route := some (ringTable rank n pos) } }

/-- A header between ranks. -/
def note (k dst src : Nat) (id spec : Word) : Header := { cls := k, dst := dst, src := src, id := id, spec := spec }

/-- Blocks of one element, and slots for them. -/
def blocks : State :=
  let s := desc (desc live 1 (descOf 0x10000 64 [1] 0 0)) 2 (descOf 0x11000 64 [1] 0 0)
  onRing (desc (desc s 3 (descOf 0x12000 64 [2] 0 0)) 4 (descOf 0x13000 64 [2] 0 0)) 3 4 3

/-- KV_RING or KV_RING_BWD on ring 7 with two slots. -/
def ring1 (op : Nat) : Cmd :=
  cmdOf 0 op [(0x10, 2, 1), (0x12, 2, 2), (0x14, 2, 3), (0x16, 2, 4), (0x18, 1, 7), (0x1A, 2, 2), (0x1C, 2, 4094), (0x1E, 2, 10)]

/-- An Eddy command under way. -/
def eddy1 (bwd : Bool) (slots : Map EddySlot) (handled : List Nat) : Eddy :=
  { cid := 7, backward := bwd, ring := 7, axis := 0, size := 4, position := 3, causal := false, slots := slots, handled := handled,
    waiting := [], parts := [], accs := [] }

/-- The module with it. -/
def swirling (op : Nat) (e : Eddy) : State :=
  let s := runs blocks (ring1 op)
  { s with peers := { s.peers with eddies := [e] } }

/-- A port that still sends the block of rank 2. -/
def goingOn : Port :=
  { Port.reset with txQueue := [{ cls := 1, phase := 0, laxis := 0, cid := some 7, level := 0, groups := [], data := lay 16 [(10, 2, 2)], sent := 0, num := none }] }

/-- A slot in use. -/
def slotUsed : Map EddySlot := [(0, { origin := 2, hops := 1, needed := true })]

/-- A rank list of ranks 3, 4 and 5 along axis A, rank 4 with the backup 5; a gradient, a shard, a receive area. -/
def trio (rank pos e : Nat) : State :=
  let l := lay 64 [(0, 4, 3), (4, 1, 1), (5, 1, 1), (8, 2, 3), (0x10, 4, 3), (0x14, 4, 0xFFFFFFFF), (0x20, 4, 4), (0x24, 4, 5), (0x28, 2, 1), (0x30, 4, 5),
    (0x34, 4, 0xFFFFFFFF), (0x38, 2, 2)]
  let s := desc (desc live 1 (descOf 0x10000 64 [1] 1 0)) 2 (descOf 0x11000 2112 [e] 1 0)
  let s := desc (desc s 7 (descOf 0x12000 2048 [1024] 1 0)) 8 (descOf 0x20000 64 [64] 3 0)
  onRing (hbmWrite s 0x20000 l) rank 3 pos

/-- REDUCE_SCATTER or ALL_GATHER over it under id 0x55. -/
def coll1 (op : Nat) : Cmd := cmdOf 0 op [(0x10, 2, 1), (0x12, 2, 2), (0x14, 2, 8), (0x16, 2, if op = 0x0301 then 7 else 0), (0x1C, 4, 0x55)]

/-- The entries of that list. -/
def trioEntries : List RankEntry :=
  [{ rank := 3, backup := 0xFFFFFFFF, coords := [0, 0, 0], lattice := 0 }, { rank := 4, backup := 5, coords := [1, 0, 0], lattice := 0 },
   { rank := 5, backup := 0xFFFFFFFF, coords := [2, 0, 0], lattice := 0 }]

/-- REDUCE_SCATTER at rank 3 before it starts. -/
def reduce0 : State := runs (trio 3 0 1024) (coll1 0x0301)

/-- Its record. -/
def reduceRec : Coll :=
  { cid := 7, collId := 0x55, gather := false, standby := false, entries := trioEntries, dims := [3], axes := 1, index := 0, elems := 1,
    shard := 1024, spanMult := 1, stage := 0, since := 0, held := [0], inputs := [], pulled := [], settled := false, totals := [],
    closes := [], offenders := [], ownBad := false, excluded := none, rescale := false, backupTaken := false, heard := [],
    generation := 0 }

/-- ALL_GATHER of 1,025 elements at rank 5, which holds none of them. -/
def gather0 : State := runs (trio 5 2 1025) (coll1 0x0302)

/-- Its record. -/
def gatherRec : Coll := { reduceRec with gather := true, index := 2, elems := 1025, held := [] }

/-- A group with an up port gives one. -/
theorem bestOf_up (s : State) (d p : Nat) (hu : portUp s p = true) : ∀ g : List Nat, p ∈ g → bestOf s d g ≠ none
  | q :: t, h => by
    unfold bestOf
    cases hb : bestOf s d t with
    | none =>
      have hq : q = p := by
        rcases List.mem_cons.mp h with h | h
        · exact h.symm
        · exact absurd hb (bestOf_up s d p hu t h)
      simp [hq, hu]
    | some x => simp only; split <;> simp

/-- Messages that may each leave by an up port all leave. -/
theorem sendAll_sent (d p : Nat) : ∀ (ms : List TxMsg) (s : State), portUp s p = true →
    (∀ m ∈ ms, ∃ g ∈ m.groups, p ∈ g) → (sendAll d ms s).2 = none
  | [], _, _, _ => rfl
  | m :: t, s, hu, hg => by
    obtain ⟨g, hm, hp⟩ := hg m (List.mem_cons_self ..)
    have hc : ∃ q, choosePort s d m.groups = some q := by
      cases hc : choosePort s d m.groups with
      | some q => exact ⟨q, rfl⟩
      | none => exact absurd (List.findSome?_eq_none_iff.mp hc g hm) (bestOf_up s d p hu g hp)
    obtain ⟨q, hq⟩ := hc
    have hs : sendTx s d m = some (enqueueMsg s q m) := by simp [sendTx, hq]
    simp only [sendAll, hs]
    refine sendAll_sent d p t _ ?_ (fun x hx => hg x (List.mem_cons_of_mem _ hx))
    simp only [portUp, decide_eq_true_eq] at hu ⊢
    rw [show (getPort (enqueueMsg s q m) p).state = (getPort s p).state from ?_]
    · exact hu
    · by_cases h : p = q
      · subst h; rw [enqueueMsg, getPort_setPort_same]
      · rw [enqueueMsg, getPort_setPort_ne _ _ _ _ h]

/-- The short messages to the others leave where port `p` is up on the way to each. -/
theorem shorts_sent (s : State) (c : Cmd) (co : Coll) (p k : Nat) (w : Bytes) (hu : portUp s p = true)
    (hg : ∀ r ∈ co.others, ∃ g ∈ groupsFor (routeOf s c.phase) (c.arg 0x18 1) (co.whereIs r), p ∈ g) :
    (sendAll 0 (co.others.map (fun r => shortMsg s c co k r w)) s).2 = none := by
  refine sendAll_sent 0 p _ s hu (fun m hm => ?_)
  obtain ⟨r, hr, rfl⟩ := List.mem_map.mp hm
  exact hg r hr

/-- A state 1 s after K's clock started. -/
def late (s : State) : State := { s with time := { s.time with aon := 100000000 } }

/-- An empty segment of rank `src`. -/
def input3 (src : Nat) : CollInput :=
  { stage := 0, src := src, segment := 0, backup := false, nonfinite := 0, values := [], generation := 0 }

/-- A state with a collective under way. -/
def gathering (s : State) (co : Coll) : State := { s with peers := { s.peers with colls := [co] } }

/-- An input of rank 4: one segment. -/
def input4 (n gen : Nat) (data : Bytes) : CollInput :=
  { stage := 0, src := 4, segment := n, backup := false, nonfinite := 0, values := wordsIn 2 data, generation := gen }

theorem witness_RingBlocksGoRound_1 :
    (∃ (s : State) (cid op p : Nat) (c : Cmd) (i : Instr) (k v axis size pos : Nat), Dispatched s cid op c ∧ kvRingIssue s
      c = none ∧ (op = 0x0303 ∧ i = .kvRing cid ∧ k = c.arg 0x10 2 ∧ v = c.arg 0x12 2 ∨ op = 0x0304 ∧ i = .kvRingBwd cid ∧
      mget (0, 0) s.peers.ringDescs (c.arg 0x18 1) = (k, v)) ∧ k ≠ 0 ∧ (∀ e ∈ s.peers.eddies, e.cid ≠ cid) ∧ s.peers.inbox
      = [] ∧ c.arg 0x19 1 = 0 ∧ axis = (rtAxes (route s) 1).headD 0 ∧ size = rtDim (route s) axis ∧ pos = rtCoord (route
      s) axis ∧ 2 ≤ size ∧ choosePort s 0 [axisPorts axis true, axisPorts axis false] = some p) ∧
    (∃ (s : State) (h : Header) (c : Cmd) (e : Eddy) (origin hops j other : Nat), h.cls = 1 ∧ bit h.spec.toNat 16 = false
      ∧ s.peers.route ≠ none ∧ h.dst = ownRank s ∧ ringTaker s h = some (c, e) ∧ e.backward = false ∧ origin = h.id.toNat
      / 65536 ∧ hops = h.spec.toNat % 65536 ∧ j = slotOf c hops ∧ origin ∉ e.handled ∧ (∀ w ∈ e.waiting, w.1 ≠ origin) ∧
      (∀ x ∈ e.slots, x.2.origin ≠ origin) ∧ (∀ x ∈ e.parts, x.1 ≠ origin) ∧ other ∈ e.passing ∧ other ≠ origin ∧ other ∉
      e.handled ∧ mhas e.slots j = false ∧ hops = totalHops e.size e.causal origin) ∧
    (∃ (s : State) (h : Header) (c : Cmd) (e : Eddy) (origin hops j other : Nat) (p : _), h.cls = 1 ∧ bit h.spec.toNat 16
      = false ∧ s.peers.route ≠ none ∧ h.dst = ownRank s ∧ ringTaker s h = some (c, e) ∧ e.backward = false ∧ origin =
      h.id.toNat / 65536 ∧ hops = h.spec.toNat % 65536 ∧ j = slotOf c hops ∧ origin ∉ e.handled ∧ (∀ w ∈ e.waiting, w.1 ≠
      origin) ∧ (∀ x ∈ e.slots, x.2.origin ≠ origin) ∧ (∀ x ∈ e.parts, x.1 ≠ origin) ∧ other ∈ e.passing ∧ other ≠ origin
      ∧ other ∉ e.handled ∧ mhas e.slots j = false ∧ hops < totalHops e.size e.causal origin ∧ choosePort s 0 [axisPorts
      e.axis true, axisPorts e.axis false] = some p) ∧
    (∃ (s : State) (h : Header) (c : Cmd) (e : Eddy) (origin hops j other : Nat), h.cls = 1 ∧ bit h.spec.toNat 16 = false
      ∧ s.peers.route ≠ none ∧ h.dst = ownRank s ∧ ringTaker s h = some (c, e) ∧ e.backward = false ∧ origin = h.id.toNat
      / 65536 ∧ hops = h.spec.toNat % 65536 ∧ j = slotOf c hops ∧ origin ∉ e.handled ∧ (∀ w ∈ e.waiting, w.1 ≠ origin) ∧
      (∀ x ∈ e.slots, x.2.origin ≠ origin) ∧ (∀ x ∈ e.parts, x.1 ≠ origin) ∧ other ∈ e.passing ∧ other ≠ origin ∧ other ∉
      e.handled ∧ mhas e.slots j = true) :=
  ⟨⟨runs blocks (ring1 0x0303), 7, 0x0303, 0, ring1 0x0303, .kvRing 7, 1, 2, 0, 4, 3, by decide +kernel, by decide +kernel,
    .inl ⟨rfl, rfl, by decide +kernel, by decide +kernel⟩, by decide +kernel⟩,
  ⟨swirling 0x0303 (eddy1 false [] []), note 1 3 2 7#32 3#32, ring1 0x0303, eddy1 false [] [], 0, 3, 0, 1,
    by decide +kernel⟩,
  ⟨swirling 0x0303 (eddy1 false [] []), note 1 3 2 0x20007#32 1#32, ring1 0x0303, eddy1 false [] [], 2, 1, 0, 1, 0,
    by decide +kernel⟩,
  ⟨swirling 0x0303 (eddy1 false slotUsed []), note 1 3 2 7#32 3#32, ring1 0x0303, eddy1 false slotUsed [], 0, 3, 0, 1,
    by decide +kernel⟩⟩

theorem witness_RingBlocksGoRound_2 :
    (∃ (s : State) (cid slot n : Nat) (c : Cmd) (e : Eddy), eddyOf s cid = some (c, e) ∧ e.backward = false ∧ e.waiting =
      [] ∧ n = c.arg 0x1E 2 + slot ∧ n ≠ 0 ∧ forwarding s cid (mget { origin := 0, hops := 0, needed := false } e.slots
      slot).origin = true) ∧
    (∃ (s : State) (cid slot n : Nat) (c : Cmd) (e : Eddy), eddyOf s cid = some (c, e) ∧ e.backward = false ∧ e.waiting =
      [] ∧ n = c.arg 0x1E 2 + slot ∧ n ≠ 0 ∧ mhas e.slots slot = true ∧ (getCounter s n).count ≠ 0 ∧ forwarding s cid
      (mget { origin := 0, hops := 0, needed := false } e.slots slot).origin = false) ∧
    (∃ (s : State) (cid slot n : Nat) (c : Cmd) (e : Eddy), eddyOf s cid = some (c, e) ∧ e.backward = false ∧ e.waiting =
      [] ∧ n = c.arg 0x1E 2 + slot ∧ n ≠ 0 ∧ (getCounter s n).count = 0) ∧
    (∃ (s : State) (h : Header) (data : Bytes) (c : Cmd) (e : Eddy), h.cls = 1 ∧ bit h.spec.toNat 16 = true ∧
      s.peers.route ≠ none ∧ h.dst = ownRank s ∧ ringTaker s h = some (c, e) ∧ e.backward = true ∧ h.id.toNat / 65536 =
      e.position ∧ e.position ∉ e.handled ∧ e.accs = [] ∧ e.parts = [] ∧ stillSending s e.cid = false ∧ (∀ p ∈ e.passing,
      p ∈ e.handled) ∧ wordBytes (addPartial (wordsIn 4 (data.drop 4)) (partialNow s c)) ≠ []) :=
  ⟨⟨setPort (swirling 0x0303 (eddy1 false slotUsed [])) 0 goingOn, 7, 0, 10, ring1 0x0303, eddy1 false slotUsed [],
    by decide +kernel⟩,
  ⟨setCounter (swirling 0x0303 (eddy1 false slotUsed [])) 10 { count := 1, poison := false }, 7, 0, 10, ring1 0x0303, eddy1
    false slotUsed [], by decide +kernel⟩,
  ⟨swirling 0x0303 (eddy1 false slotUsed []), 7, 0, 10, ring1 0x0303, eddy1 false slotUsed [], by decide +kernel⟩,
  ⟨swirling 0x0304 (eddy1 true [] [0, 1, 2]), note 1 3 2 0x30007#32 0x10000#32, List.replicate 8 0, ring1 0x0304, eddy1 true
    [] [0, 1, 2], by decide +kernel⟩⟩

theorem witness_RingBlocksGoRound_3 :
    (∃ (s : State) (cid : Nat) (c : Cmd) (e : Eddy), s.peers.eddies.find? (fun x => x.cid == cid) = some e ∧ Dispatched s
      cid 0x0303 c ∧ e.backward = false ∧ e.finished = true ∧ stillSending s e.cid = false) ∧
    (∃ (s : State) (cid : Nat) (c : Cmd) (e : Eddy), s.peers.eddies.find? (fun x => x.cid == cid) = some e ∧ Dispatched s
      cid 0x0304 c ∧ e.backward = true ∧ e.finished = true ∧ stillSending s e.cid = false ∧ (∀ a ∈ e.accs, a.1 ≠
      e.position) ∧ wordBytes (partialNow s c) ≠ []) ∧
    (∃ (s : State) (cid : Nat) (c : Cmd) (e : Eddy), s.peers.eddies.find? (fun x => x.cid == cid) = some e ∧ e.finished =
      false ∧ Dispatched s cid 0x0303 c) ∧
    (∃ (s : State) (cid : Nat) (c : Cmd) (e : Eddy), s.peers.eddies.find? (fun x => x.cid == cid) = some e ∧ e.finished =
      false ∧ Dispatched s cid 0x0304 c) :=
  ⟨⟨swirling 0x0303 (eddy1 false [] [0, 1, 2]), 7, ring1 0x0303, eddy1 false [] [0, 1, 2], by decide +kernel⟩,
  ⟨swirling 0x0304 { eddy1 true [] [0, 1, 2] with causal := true }, 7, ring1 0x0304,
    { eddy1 true [] [0, 1, 2] with causal := true }, by decide +kernel⟩,
  ⟨swirling 0x0303 (eddy1 false [] []), 7, ring1 0x0303, eddy1 false [] [], by decide +kernel⟩,
  ⟨swirling 0x0304 (eddy1 true [] []), 7, ring1 0x0304, eddy1 true [] [], by decide +kernel⟩⟩

theorem witness_CollectivesTakeTheirInputs_1 :
    (∃ (s : State) (cid : Nat) (c : Cmd) (co : Coll), collIssue s c = none ∧ (∀ x ∈ s.peers.colls, x.cid ≠ cid) ∧
      s.peers.inbox = [] ∧ co = newColl s c ∧ (sendAll 0 (firstMsgs s c co) s).2 = none ∧ missingRanks s c co co.stage ≠
      [] ∧ Dispatched s cid 0x0301 c ∧ bit (c.arg 0x19 1) 0 = false) ∧
    (∃ (s : State) (cid : Nat) (c : Cmd) (co : Coll), collIssue s c = none ∧ (∀ x ∈ s.peers.colls, x.cid ≠ cid) ∧
      s.peers.inbox = [] ∧ co = newColl s c ∧ (sendAll 0 (firstMsgs s c co) s).2 = none ∧ missingRanks s c co co.stage ≠
      [] ∧ Dispatched s cid 0x0302 c ∧ bit (c.arg 0x19 1) 0 = false ∧ (readDesc s (c.arg 0x10 2)).generation ≠ 2 ^ 64 - 1)
      ∧
    (∃ (s : State) (cid : Nat) (c : Cmd) (e : Err), (∀ x ∈ s.peers.colls, x.cid ≠ cid) ∧ collIssue s c = some e ∧
      Dispatched s cid 0x0301 c) ∧
    (∃ (s : State) (cid : Nat) (c : Cmd) (e : Err), (∀ x ∈ s.peers.colls, x.cid ≠ cid) ∧ collIssue s c = some e ∧
      Dispatched s cid 0x0302 c) :=
  ⟨⟨reduce0, 7, coll1 0x0301, reduceRec, by decide +kernel⟩,
  ⟨gather0, 7, coll1 0x0302, gatherRec, by decide +kernel⟩,
  ⟨runs live (coll1 0x0301), 7, coll1 0x0301, (0x11, 0x600), by decide +kernel⟩,
  ⟨runs live (coll1 0x0302), 7, coll1 0x0302, (0x11, 0x600), by decide +kernel⟩⟩

theorem witness_CollectivesTakeTheirInputs_2 :
    (∃ (s : State) (h : Header) (data : Bytes) (c : Cmd) (co co1 : Coll) (x : CollInput) (k seg : Nat), h.cls = 0 ∧
      s.peers.route ≠ none ∧ h.dst = ownRank s ∧ collById s h.id = some (c, co) ∧ co.collId = h.id ∧ co.standby = false ∧
      co.gather = false ∧ specKind h.spec = 0 ∧ k = co.stageOf (bits h.spec.toNat 17 16) ∧ seg = h.spec.toNat % 65536 ∧
      co.inRing k h.src = true ∧ (∀ y ∈ co.inputs, y.stage = k → y.src = h.src → y.backup = false → y.segment ≠ seg) ∧
      co.settled = false ∧ (k = 0 → co.stage = 0 ∧ co.excluded ≠ some h.src) ∧ co.copyIn (collWidth s c) k h.src = false ∧
      x =
      { stage := k, src := h.src, segment := seg, backup := false, nonfinite := bits h.spec.toNat 29 18, values := wordsIn (collWidth s c) data, generation := 0 }
      ∧ co1 = { co with inputs := co.inputs ++ [x] } ∧ missingRanks s c co1 co.stage ≠ []) ∧
    (∃ (s : State) (h : Header) (data : Bytes) (c : Cmd) (co co1 : Coll) (x : CollInput) (k seg : Nat), h.cls = 0 ∧
      s.peers.route ≠ none ∧ h.dst = ownRank s ∧ collById s h.id = some (c, co) ∧ co.collId = h.id ∧ co.standby = false ∧
      co.gather = false ∧ specKind h.spec = 0 ∧ k = co.stageOf (bits h.spec.toNat 17 16) ∧ seg = h.spec.toNat % 65536 ∧
      co.inRing k h.src = true ∧ (∀ y ∈ co.inputs, y.stage = k → y.src = h.src → y.backup = false → y.segment ≠ seg) ∧
      co.settled = false ∧ (k = 0 → co.stage = 0 ∧ co.excluded ≠ some h.src) ∧ co.copyIn (collWidth s c) k h.src = false ∧
      x =
      { stage := k, src := h.src, segment := seg, backup := false, nonfinite := bits h.spec.toNat 29 18, values := wordsIn (collWidth s c) data, generation := 0 }
      ∧ co1 = { co with inputs := co.inputs ++ [x] } ∧ missingRanks s c co1 co.stage = [] ∧ co.stage + 1 = co.dims.length
      ∧ co.excluded = none ∧ co.closes = [] ∧ (∃ e ∈ co.entries, e.rank ≠ co.own) ∧ s.peers.inbox = [] ∧ (∀ w, (sendAll 0
      (co.others.map (fun r => shortMsg s c co 1 r w)) s).2 = none)) ∧
    (∃ (s : State) (h : Header) (data : Bytes) (c : Cmd) (co co1 : Coll) (x : CollInput) (k seg : Nat), h.cls = 0 ∧
      s.peers.route ≠ none ∧ h.dst = ownRank s ∧ collById s h.id = some (c, co) ∧ co.collId = h.id ∧ co.standby = false ∧
      co.gather = true ∧ specKind h.spec = 1 ∧ k = co.stageOf (bits h.spec.toNat 17 16) ∧ seg = h.spec.toNat % 65536 ∧
      co.inRing k h.src = true ∧ (∀ y ∈ co.inputs, y.stage = k → y.src = h.src → y.backup = false → y.segment ≠ seg) ∧
      co.copyIn (collWidth s c) k h.src = false ∧ x =
      { stage := k, src := h.src, segment := seg, backup := false, nonfinite := bits h.spec.toNat 29 18, values := wordsIn (collWidth s c) (data.drop 8), generation := field data 0 8 }
      ∧ co1 = { co with inputs := co.inputs ++ [x] } ∧ (∀ y ∈ co.inputs, y.generation = co.generation) ∧ co.generation ≠ 2
      ^ 64 - 1 ∧ x.generation = co.generation ∧ missingRanks s c co1 co.stage ≠ []) ∧
    (∃ (s : State) (h : Header) (data : Bytes) (c : Cmd) (co co1 : Coll) (x : CollInput) (k seg : Nat), h.cls = 0 ∧
      s.peers.route ≠ none ∧ h.dst = ownRank s ∧ collById s h.id = some (c, co) ∧ co.collId = h.id ∧ co.standby = false ∧
      co.gather = true ∧ specKind h.spec = 1 ∧ k = co.stageOf (bits h.spec.toNat 17 16) ∧ seg = h.spec.toNat % 65536 ∧
      co.inRing k h.src = true ∧ (∀ y ∈ co.inputs, y.stage = k → y.src = h.src → y.backup = false → y.segment ≠ seg) ∧
      co.copyIn (collWidth s c) k h.src = false ∧ x =
      { stage := k, src := h.src, segment := seg, backup := false, nonfinite := bits h.spec.toNat 29 18, values := wordsIn (collWidth s c) (data.drop 8), generation := field data 0 8 }
      ∧ co1 = { co with inputs := co.inputs ++ [x] } ∧ (∀ y ∈ co.inputs, y.generation = co.generation) ∧ co.generation ≠ 2
      ^ 64 - 1 ∧ x.generation = co.generation ∧ missingRanks s c co1 co.stage = [] ∧ co.stage = 0) :=
  ⟨⟨gathering reduce0 reduceRec, note 0 3 4 0x55#32 0, [0x80#8, 0x3F#8], coll1 0x0301, reduceRec,
    { reduceRec with inputs := [input4 0 0 [0x80#8, 0x3F#8]] }, input4 0 0 [0x80#8, 0x3F#8], 0, 0, by decide +kernel⟩,
  ⟨gathering reduce0 { reduceRec with inputs := [input3 4] }, note 0 3 5 0x55#32 0, [], coll1 0x0301,
    { reduceRec with inputs := [input3 4] }, { reduceRec with inputs := [input3 4, input3 5] }, input3 5, 0, 0,
    by decide +kernel, by decide +kernel, by decide +kernel, by decide +kernel, by decide +kernel, by decide +kernel,
    by decide +kernel, by decide +kernel, by decide +kernel, by decide +kernel, by decide +kernel, by decide +kernel,
    by decide +kernel, by decide +kernel, by decide +kernel, by decide +kernel, by decide +kernel, by decide +kernel,
    by decide +kernel, by decide +kernel, by decide +kernel, by decide +kernel, by decide +kernel, (fun w => shorts_sent _ _
    _ 0 1 w (by decide +kernel) (by decide +kernel))⟩,
  ⟨gathering gather0 gatherRec, note 0 5 4 0x55#32 0x40000000#32, List.replicate 10 0, coll1 0x0302, gatherRec,
    { gatherRec with inputs := [input4 0 0 [0, 0]] }, input4 0 0 [0, 0], 0, 0, by decide +kernel⟩,
  ⟨gathering gather0 { gatherRec with inputs := [input3 3] }, note 0 5 4 0x55#32 0x40000000#32, List.replicate 10 0, coll1
    0x0302, { gatherRec with inputs := [input3 3] }, { gatherRec with inputs := [input3 3, input4 0 0 [0, 0]] }, input4 0 0
    [0, 0], 0, 0, by decide +kernel⟩⟩

theorem witness_CollectivesTakeTheirInputs_3 :
    (∃ (s : State) (h : Header) (data : Bytes) (c : Cmd) (co co1 : Coll) (x : CollInput) (k seg : Nat), h.cls = 0 ∧
      s.peers.route ≠ none ∧ h.dst = ownRank s ∧ collById s h.id = some (c, co) ∧ co.collId = h.id ∧ co.standby = false ∧
      co.gather = true ∧ specKind h.spec = 1 ∧ k = co.stageOf (bits h.spec.toNat 17 16) ∧ seg = h.spec.toNat % 65536 ∧
      co.inRing k h.src = true ∧ (∀ y ∈ co.inputs, y.stage = k → y.src = h.src → y.backup = false → y.segment ≠ seg) ∧
      co.copyIn (collWidth s c) k h.src = false ∧ x =
      { stage := k, src := h.src, segment := seg, backup := false, nonfinite := bits h.spec.toNat 29 18, values := wordsIn (collWidth s c) (data.drop 8), generation := field data 0 8 }
      ∧ co1 = { co with inputs := co.inputs ++ [x] } ∧ (∀ y ∈ co.inputs, y.generation = co.generation) ∧ co.generation ≠ 2
      ^ 64 - 1 ∧ x.generation ≠ co.generation) ∧
    (∃ (s : State) (h : Header) (data : Bytes) (c : Cmd) (co co1 : Coll) (l : List CloseWord), h.cls = 4 ∧ shortKind
      h.spec = 1 ∧ s.peers.route ≠ none ∧ h.dst = ownRank s ∧ collById s h.id = some (c, co) ∧ co.collId = h.id ∧
      co.standby = false ∧ co.gather = false ∧ (∃ e ∈ co.entries, e.rank = h.src) ∧ (∀ w ∈ co.closes, w.src ≠ h.src) ∧
      co.settled = true ∧ co1 = { co with closes := co.closes ++ [closeOf h.src data] } ∧ l = co1.closesInOrder ∧ l.length
      < co.entries.length) ∧
    (∃ (s : State) (h : Header) (data : Bytes) (c : Cmd) (co co1 : Coll) (l : List CloseWord), h.cls = 4 ∧ shortKind
      h.spec = 1 ∧ s.peers.route ≠ none ∧ h.dst = ownRank s ∧ collById s h.id = some (c, co) ∧ co.collId = h.id ∧
      co.standby = false ∧ co.gather = false ∧ (∃ e ∈ co.entries, e.rank = h.src) ∧ (∀ w ∈ co.closes, w.src ≠ h.src) ∧
      co.settled = true ∧ co1 = { co with closes := co.closes ++ [closeOf h.src data] } ∧ l = co1.closesInOrder ∧
      co.entries.length ≤ l.length ∧ (∀ w ∈ l, w.failed = false) ∧ (distinctOff l ≠ 1 ∨ co.excluded ≠ none ∨ s.job.policy
      ≠ 1 ∨ co.size 0 ≤ 1)) ∧
    (∃ (s : State) (h : Header) (data : Bytes) (c : Cmd) (co co1 : Coll) (l : List CloseWord), h.cls = 4 ∧ shortKind
      h.spec = 1 ∧ s.peers.route ≠ none ∧ h.dst = ownRank s ∧ collById s h.id = some (c, co) ∧ co.collId = h.id ∧
      co.standby = false ∧ co.gather = false ∧ (∃ e ∈ co.entries, e.rank = h.src) ∧ (∀ w ∈ co.closes, w.src ≠ h.src) ∧
      co.settled = true ∧ co1 = { co with closes := co.closes ++ [closeOf h.src data] } ∧ l = co1.closesInOrder ∧
      co.entries.length ≤ l.length ∧ (∃ w ∈ l, w.failed = true)) :=
  ⟨⟨gathering gather0 gatherRec, note 0 5 4 0x55#32 0x40000000#32, 1#8 :: List.replicate 9 0, coll1 0x0302, gatherRec,
    { gatherRec with inputs := [input4 0 1 [0, 0]] }, input4 0 1 [0, 0], 0, 0, by decide +kernel⟩,
  ⟨gathering reduce0 { reduceRec with settled := true }, note 4 3 4 0x55#32 0x1000#32, List.replicate 32 0, coll1 0x0301,
    { reduceRec with settled := true }, { reduceRec with settled := true, closes := [closeOf 4 (List.replicate 32 0)] },
    [closeOf 4 (List.replicate 32 0)], by decide +kernel⟩,
  ⟨gathering reduce0
    { reduceRec with settled := true, closes := [closeOf 3 (List.replicate 32 0), closeOf 5 (List.replicate 32 0)] }, note 4
    3 4 0x55#32 0x1000#32, List.replicate 32 0, coll1 0x0301,
    { reduceRec with settled := true, closes := [closeOf 3 (List.replicate 32 0), closeOf 5 (List.replicate 32 0)] },
    { reduceRec with settled := true, closes := [closeOf 3 (List.replicate 32 0), closeOf 5 (List.replicate 32 0), closeOf 4 (List.replicate 32 0)] },
    Coll.closesInOrder
    { reduceRec with settled := true, closes := [closeOf 3 (List.replicate 32 0), closeOf 5 (List.replicate 32 0), closeOf 4 (List.replicate 32 0)] },
    by decide +kernel⟩,
  ⟨gathering reduce0
    { reduceRec with settled := true, closes := [closeOf 3 (List.replicate 32 0), closeOf 5 (List.replicate 32 0)] }, note 4
    3 4 0x55#32 0x1000#32, lay 32 [(12, 4, 1)], coll1 0x0301,
    { reduceRec with settled := true, closes := [closeOf 3 (List.replicate 32 0), closeOf 5 (List.replicate 32 0)] },
    { reduceRec with settled := true, closes := [closeOf 3 (List.replicate 32 0), closeOf 5 (List.replicate 32 0), closeOf 4 (lay 32 [(12, 4, 1)])] },
    Coll.closesInOrder
    { reduceRec with settled := true, closes := [closeOf 3 (List.replicate 32 0), closeOf 5 (List.replicate 32 0), closeOf 4 (lay 32 [(12, 4, 1)])] },
    by decide +kernel⟩⟩

theorem witness_CollectivesTakeTheirInputs_4 :
    (∃ (s : State) (h : Header) (data : Bytes) (t : State), s.peers.route ≠ none ∧ h.dst = ownRank s ∧ collById s h.id =
      none ∧ t = { s with peers := { s.peers with inbox := s.peers.inbox.erase (h, data) ++ [(h, data)] } } ∧ h.cls = 0 ∧
      specKind h.spec ≠ 1) ∧
    (∃ (s : State) (h : Header) (data : Bytes) (t : State), s.peers.route ≠ none ∧ h.dst = ownRank s ∧ collById s h.id =
      none ∧ t = { s with peers := { s.peers with inbox := s.peers.inbox.erase (h, data) ++ [(h, data)] } } ∧ h.cls = 0 ∧
      specKind h.spec = 1) ∧
    (∃ (s : State) (h : Header) (data : Bytes) (t : State), s.peers.route ≠ none ∧ h.dst = ownRank s ∧ collById s h.id =
      none ∧ t = { s with peers := { s.peers with inbox := s.peers.inbox.erase (h, data) ++ [(h, data)] } } ∧ h.cls = 4 ∧
      shortKind h.spec = 1) ∧
    (∃ (s : State) (h : Header) (data : Bytes) (t : State), s.peers.route ≠ none ∧ h.dst = ownRank s ∧ collById s h.id =
      none ∧ t = { s with peers := { s.peers with inbox := s.peers.inbox.erase (h, data) ++ [(h, data)] } } ∧ h.cls = 4 ∧
      shortKind h.spec = 2) :=
  ⟨⟨reduce0, note 0 3 4 0x55#32 0#32, [],
    { reduce0 with peers := { reduce0.peers with inbox := [(note 0 3 4 0x55#32 0#32, [])] } }, by decide +kernel,
    by decide +kernel, by decide +kernel, rfl, by decide +kernel⟩,
  ⟨reduce0, note 0 3 4 0x55#32 0x40000000#32, [],
    { reduce0 with peers := { reduce0.peers with inbox := [(note 0 3 4 0x55#32 0x40000000#32, [])] } }, by decide +kernel,
    by decide +kernel, by decide +kernel, rfl, by decide +kernel⟩,
  ⟨reduce0, note 4 3 4 0x55#32 0x1000#32, [],
    { reduce0 with peers := { reduce0.peers with inbox := [(note 4 3 4 0x55#32 0x1000#32, [])] } }, by decide +kernel,
    by decide +kernel, by decide +kernel, rfl, by decide +kernel⟩,
  ⟨reduce0, note 4 3 4 0x55#32 0x2000#32, [],
    { reduce0 with peers := { reduce0.peers with inbox := [(note 4 3 4 0x55#32 0x2000#32, [])] } }, by decide +kernel,
    by decide +kernel, by decide +kernel, rfl, by decide +kernel⟩⟩

theorem witness_CollectivesTakeTheirInputs_5 :
    (∃ (s : State) (h : Header) (data : Bytes) (t : State), s.peers.route ≠ none ∧ h.dst = ownRank s ∧ collById s h.id =
      none ∧ t = { s with peers := { s.peers with inbox := s.peers.inbox.erase (h, data) ++ [(h, data)] } } ∧ h.cls = 4 ∧
      shortKind h.spec = 3) ∧
    (∃ (s : State) (cid : Nat) (c : Cmd) (co : Coll), collOf s cid = some (c, co) ∧ co.standby = false ∧ windowOver s co
      (w1Of c) = false) ∧
    (∃ (s : State) (cid : Nat) (c : Cmd) (co co1 : Coll) (ps : List (Nat × Nat)), collOf s cid = some (c, co) ∧ co.standby
      = false ∧ windowOver s co (w1Of c) = true ∧ co.settled = false ∧ badGeneration co = none ∧ ps = w1Pulls s c co ∧ co1
      = { co with pulled := co.pulled ++ ps.map (fun p => p.1) } ∧ (sendAll 0 (ps.map (fun p => shortMsg s c co1 2 p.2
      (pullPayload co1 p.1))) s).2 = none ∧ missingRanks s c co1 co.stage ≠ []) ∧
    (∃ (s : State) (cid : Nat) (c : Cmd) (co : Coll), collOf s cid = some (c, co) ∧ co.standby = false ∧ windowOver s co
      (w2Of c) = false) :=
  ⟨⟨reduce0, note 4 3 4 0x55#32 0x3000#32, [],
    { reduce0 with peers := { reduce0.peers with inbox := [(note 4 3 4 0x55#32 0x3000#32, [])] } }, by decide +kernel,
    by decide +kernel, by decide +kernel, rfl, by decide +kernel⟩,
  ⟨gathering reduce0 reduceRec, 7, coll1 0x0301, reduceRec, by decide +kernel⟩,
  ⟨late (gathering reduce0 reduceRec), 7, coll1 0x0301, reduceRec, { reduceRec with pulled := [4] }, [(4, 5)],
    by decide +kernel⟩,
  ⟨gathering reduce0 reduceRec, 7, coll1 0x0301, reduceRec, by decide +kernel⟩⟩

theorem witness_CollectivesTakeTheirInputs_6 :
    (∃ (s : State) (cid : Nat) (c : Cmd) (co : Coll) (r : _), collOf s cid = some (c, co) ∧ co.standby = false ∧
      windowOver s co (w2Of c) = true ∧ co.settled = true ∧ co.others.find? (fun r => !co.closes.any (fun w => w.src ==
      r)) = some r) ∧
    (∃ (s : State) (cid : Nat) (c : Cmd) (co : Coll), collOf s cid = some (c, co) ∧ co.standby = false ∧ windowOver s co
      (w2Of c) = true ∧ co.settled = false ∧ co.excluded ≠ none ∧ co.stage = 0) ∧
    (∃ (s : State) (cid : Nat) (c : Cmd) (co : Coll) (r l : _), collOf s cid = some (c, co) ∧ co.standby = false ∧
      windowOver s co (w2Of c) = true ∧ co.settled = false ∧ (co.excluded = none ∨ co.stage ≠ 0) ∧ missingRanks s c co
      co.stage = r :: l) ∧
    (∃ (s : State) (h : Header) (c : Cmd) (co : Coll), s.peers.route ≠ none ∧ h.dst = ownRank s ∧ h.cls = 4 ∧ collById s
      h.id = some (c, co) ∧ shortKind h.spec = 2 ∧ co.gather = false ∧ co.standby = false ∧ (sendAll 0 (copyMsgs s c
      { co with heard := addTo co.heard h.src } h.src) s).2 = none) :=
  ⟨⟨late (gathering reduce0 { reduceRec with settled := true }), 7, coll1 0x0301, { reduceRec with settled := true }, 4,
    by decide +kernel⟩,
  ⟨late (gathering reduce0 { reduceRec with excluded := some 4 }), 7, coll1 0x0301, { reduceRec with excluded := some 4 },
    by decide +kernel⟩,
  ⟨late (gathering gather0 gatherRec), 7, coll1 0x0302, gatherRec, 3, [4], by decide +kernel⟩,
  ⟨gathering reduce0 reduceRec, note 4 3 5 0x55#32 0x2000#32, coll1 0x0301, reduceRec, by decide +kernel⟩⟩

theorem witness_CollectivesTakeTheirInputs_7 :
    (∃ (s : State) (h : Header) (data : Bytes) (c : Cmd) (co : Coll), s.peers.route ≠ none ∧ h.dst = ownRank s ∧ h.cls = 4
      ∧ collById s h.id = some (c, co) ∧ shortKind h.spec = 2 ∧ co.gather = true ∧ (sendAll 0 (mirrorPiece s co c h.src
      data) s).2 = none) ∧
    (∃ (s : State) (h : Header) (c : Cmd) (co : Coll), s.peers.route ≠ none ∧ h.dst = ownRank s ∧ h.cls = 4 ∧ collById s
      h.id = some (c, co) ∧ shortKind h.spec = 3 ∧ co.standby = false) ∧
    (∃ (s : State) (h : Header) (c : Cmd) (co : Coll), s.peers.route ≠ none ∧ h.dst = ownRank s ∧ h.cls = 4 ∧ collById s
      h.id = some (c, co) ∧ shortKind h.spec = 3 ∧ co.standby = true ∧ (∀ e ∈ co.entries, e.rank = h.src ∨ e.rank ∈
      co.heard)) ∧
    (∃ (s : State) (h : Header) (c : Cmd) (co : Coll), s.peers.route ≠ none ∧ h.dst = ownRank s ∧ h.cls = 4 ∧ collById s
      h.id = some (c, co) ∧ shortKind h.spec = 3 ∧ co.standby = true ∧ (∃ e ∈ co.entries, e.rank ≠ h.src ∧ e.rank ∉
      co.heard)) :=
  ⟨⟨gathering gather0 gatherRec, note 4 5 4 0x55#32 0x2000#32, [], coll1 0x0302, gatherRec, by decide +kernel⟩,
  ⟨gathering reduce0 reduceRec, note 4 3 5 0x55#32 0x3000#32, coll1 0x0301, reduceRec, by decide +kernel⟩,
  ⟨gathering reduce0 { reduceRec with standby := true, heard := [3, 4] }, note 4 3 5 0x55#32 0x3000#32, coll1 0x0301,
    { reduceRec with standby := true, heard := [3, 4] }, by decide +kernel⟩,
  ⟨gathering reduce0 { reduceRec with standby := true }, note 4 3 5 0x55#32 0x3000#32, coll1 0x0301,
    { reduceRec with standby := true }, by decide +kernel⟩⟩

theorem witness_CollectivesTakeTheirInputs_8 :
    (∃ (s : State) (cid : Nat) (c : Cmd) (co : Coll), collOf s cid = some (c, co) ∧ co.standby = true ∧ microsOn s 5 <
      co.since + 2 * w2Of c) ∧
    (∃ (s : State) (cid : Nat) (c : Cmd) (co : Coll) (e : RankEntry), collOf s cid = some (c, co) ∧ co.standby = true ∧
      co.since + 2 * w2Of c ≤ microsOn s 5 ∧ co.entries.find? (fun e => !co.heard.contains e.rank) = some e) :=
  ⟨⟨gathering reduce0 { reduceRec with standby := true }, 7, coll1 0x0301, { reduceRec with standby := true },
    by decide +kernel⟩,
  ⟨late (gathering reduce0 { reduceRec with standby := true }), 7, coll1 0x0301, { reduceRec with standby := true },
    rankEntry reduce0.mem 0x20000 0, by decide +kernel⟩⟩

/-- A stream configuration of one output, a label of one number or sound of one sample, one slot, one queue slot. -/
def config (kind : Nat) : Bytes :=
  lay 128 [(0, 4, 0x49444C46), (4, 1, 1), (6, 1, 1), (7, 1, 1), (8, 4, 1), (0xC, 2, 4095), (0x14, 2, 14), (0x16, 2, 256), (0x18, 2, 15),
    (0x1A, 1, 4), (0x1B, 1, 4), (0x40, 1, kind), (0x42, 1, if kind = 6 then 0 else 1), (0x44, 2, 13), (0x48, 4, 1),
    (0x50, 4, if kind = 6 then 0 else 48000), (0x54, 1, if kind = 6 then 0 else 1), (0x55, 1, if kind = 6 then 0 else 1)]

/-- A record of one field, whole or with a reserved byte set. -/
def recordBytes (kind broken : Nat) : Bytes :=
  let b := lay 56 [(0, 4, 0x53444C46), (4, 2, 1), (6, 2, 1), (8, 8, 64), (0x10, 8, 9), (0x18, 1, broken), (0x20, 2, kind), (0x24, 4, 0x30), (0x28, 4, 4),
    (0x30, 4, 5)]
  b ++ toLe 4 (crc32c b) ++ List.replicate 4 0

/-- Configuration, rings, output, manifest, pool and a record of a field kind. -/
def feedsOf (kind broken : Nat) : State :=
  let s := desc (desc live 10 (descOf 0x20000 128 [128] 3 0)) 11 (descOf 0x21000 512 [512] 3 0)
  let s := desc (desc s 12 (descOf 0x22000 512 [512] 3 0)) 13 (descOf 0x23000 64 [1, 1] 0 0)
  let s := desc (desc s 14 (descOf 0x24000 128 [96] 3 0)) 15 (descOf 0x25000 64 [64] 3 0)
  let s := desc s 16 (descOf 0x26000 64 [64] 3 0)
  let s := hbmWrite (hbmWrite s 0x20000 (config 6)) 0x26000 (recordBytes kind broken)
  hbmWrite (hbmWrite s 0x21000 (lay 32 [(0, 2, 16), (0x10, 8, 64)])) 0x22000 (lay 32 [(0, 2, 16), (0x10, 8, 64)])

/-- The same with a label. -/
def feeds (broken : Nat) : State := feedsOf 6 broken

/-- An empty slot. -/
def slot0 : BatchSlot := freshSlot 9 0

/-- A slot whose sound is in a lane after `n` expiries. -/
def slotLane (n : Nat) : BatchSlot := { slot0 with fields := [{ output := 0, expiries := n, codec := 3, bytes := 100 }] }

/-- A filled slot. -/
def slotDone : BatchSlot := { slot0 with docs := 1, outputs := [(0, [5, 0, 0, 0], [1])], done := true }

/-- A reserve sample. -/
def spare : Sample := { id := 77, outputs := [(0, [6, 0, 0, 0], [1])], profile := 0, truncated := false, sat := 0 }

/-- An open stream. -/
def stream1 (kind : Nat) (slots : Option (List BatchSlot)) (pool : List Sample) : Ingest :=
  { Ingest.reset with
    opened := true, cfg := config kind, src := 11, rsv := 12, srcTail := 1, rsvTail := 1, pool := pool
    asm := slots.map (fun l => { cid := 7, batch := 0, firstPos := 0, rsvTaken := [], slots := l }) }

/-- The batch in assembly with its slots. -/
def asm1 (l : List BatchSlot) : Assembly := { cid := 7, batch := 0, firstPos := 0, rsvTaken := [], slots := l }

/-- INGEST_BATCH of stream 15, `n` batches. -/
def batch1 (n : Nat) : Cmd := cmdOf 0 0x0402 [(0x10, 1, 15), (0x18, 4, n)]

/-- The module with stream 15, and INGEST_BATCH of one batch running. -/
def fed (broken : Nat) (g : Ingest) : State := setIngest (runs (feeds broken) { batch1 1 with holds := true }) 15 g

/-- The same with a record of text. -/
def fedText (broken : Nat) (g : Ingest) : State := setIngest (runs (feedsOf 1 broken) { batch1 1 with holds := true }) 15 g

/-- The same with a record of sound. -/
def fedSound (g : Ingest) : State := setIngest (runs (feedsOf 0x103 0) { batch1 1 with holds := true }) 15 g

/-- The record of sound that the ring holds. -/
def record3 : Record := { id := 9, fields := [{ kind := 3, codec := 1, off := 0x30, len := 4, data := [5, 0, 0, 0] }] }

/-- A stream that packs text. -/
def packing (slots : List BatchSlot) : Ingest := { stream1 1 (some slots) [] with cfg := patch (config 1) 5 [1#8] }

/-- A slot that holds one token. -/
def slotText : BatchSlot := { slot0 with outputs := [(0, [5, 0, 0, 0], [1])] }

/-- The record of text that the ring holds. -/
def record2 : Record := { id := 9, fields := [{ kind := 1, codec := 0, off := 0x30, len := 4, data := [5, 0, 0, 0] }] }

/-- The module without its main clock. -/
def clockless (s : State) : State := { s with ctl := { s.ctl with noMainClock := true } }

/-- The same without anything in memory. -/
def fedBare (g : Ingest) : State := setIngest (runs live { batch1 1 with holds := true }) 15 g

/-- INGEST_OPEN of stream 15. -/
def open1 : Cmd := cmdOf 0 0x0401 [(0x10, 2, 10), (0x12, 2, 11), (0x14, 2, 12), (0x16, 1, 15), (0x17, 1, 255)]

/-- A dictionary of one string in descriptor 1, room for its index in 2. -/
def lexicon : State :=
  let s := desc (desc live 1 (descOf 0x10000 128 [128] 3 0)) 2 (descOf 0x100000 0x100040 [0x100020] 3 0)
  hbmWrite s 0x10000 (lay 81 [(0, 4, 0x54444C46), (4, 4, 1), (8, 4, 1), (0x40, 4, 256), (0x48, 1, 1), (0x50, 1, 0x41)])

/-- The record that the ring holds. -/
def record1 : Record := { id := 9, fields := [{ kind := 6, codec := 0, off := 0x30, len := 4, data := [5, 0, 0, 0] }] }

theorem witness_IngestCommandsTakeEffect_1 :
    (∃ (s : State) (cid : Nat) (c : Cmd), Dispatched s cid 0x0401 c ∧ springUp s = true ∧ ingestOpenIssue s c = none ∧
      signals (ingestOpenRun s c).result.status = true) ∧
    (∃ (s : State) (cid : Nat) (c : Cmd), Dispatched s cid 0x0403 c ∧ ingestReleaseIssue s c = none) ∧
    (∃ (s : State) (cid : Nat) (c : Cmd), Dispatched s cid 0x0404 c ∧ springUp s = true ∧ ingestSeekIssue s c = none) ∧
    (∃ (s : State) (cid : Nat) (c : Cmd), Dispatched s cid 0x0405 c ∧ springUp s = true ∧ dictLoadIssue s c = none ∧
      signals (dictLoadRun s c).result.status = true) :=
  ⟨⟨runs (feeds 0) open1, 7, open1, by decide +kernel⟩,
  ⟨setIngest (runs live (cmdOf 0 0x0403 [(0x10, 1, 15)])) 15 ({ stream1 6 none [] with held := [(0, 0)] }), 7, cmdOf 0
    0x0403 [(0x10, 1, 15)], by decide +kernel⟩,
  ⟨setIngest (runs live (cmdOf 0 0x0404 [(0x10, 1, 15)])) 15 (stream1 6 none []), 7, cmdOf 0 0x0404 [(0x10, 1, 15)],
    by decide +kernel⟩,
  ⟨runs lexicon (cmdOf 0 0x0405 [(0x10, 2, 1), (0x12, 2, 2), (0x14, 1, 3)]), 7, cmdOf 0 0x0405 [(0x10, 2, 1), (0x12, 2, 2),
    (0x14, 1, 3)], by decide +kernel⟩⟩

theorem witness_IngestCommandsTakeEffect_2 :
    (∃ (s : State) (cid : Nat) (c : Cmd), Dispatched s cid 0x0402 c ∧ springUp s = true ∧ ingestBatchIssue s c = none ∧
      c.arg 0x18 4 = 0) ∧
    (∃ (s : State) (cid : Nat) (c : Cmd), Dispatched s cid 0x0402 c ∧ springUp s = true ∧ ingestBatchIssue s c = none ∧
      c.arg 0x18 4 ≠ 0) ∧
    (∃ (s : State) (cid op : Nat) (c : Cmd) (e : Err), Dispatched s cid op c ∧ signals e.1 = false ∧ op = 0x0403 ∧
      ingestReleaseIssue s c = some e) ∧
    (∃ (s : State) (cid op : Nat) (c : Cmd) (e : Err), Dispatched s cid op c ∧ signals e.1 = false ∧ springUp s = true ∧
      op = 0x0401 ∧ ingestOpenIssue s c = some e) :=
  ⟨⟨setIngest (runs (feeds 0) (batch1 0)) 15 (stream1 6 none []), 7, batch1 0, by decide +kernel⟩,
  ⟨setIngest (runs (feeds 0) (batch1 1)) 15 (stream1 6 none []), 7, batch1 1, by decide +kernel⟩,
  ⟨runs live (cmdOf 0 0x0403 [(0x10, 1, 15)]), 7, 0x0403, cmdOf 0 0x0403 [(0x10, 1, 15)], (0x11, 0x600), by decide +kernel⟩,
  ⟨runs live open1, 7, 0x0401, open1, (ingestOpenIssue live open1).getD (0, 0), by decide +kernel⟩⟩

theorem witness_IngestCommandsTakeEffect_3 :
    (∃ (s : State) (cid op : Nat) (c : Cmd) (e : Err), Dispatched s cid op c ∧ signals e.1 = false ∧ springUp s = true ∧
      op = 0x0402 ∧ ingestBatchIssue s c = some e) ∧
    (∃ (s : State) (cid op : Nat) (c : Cmd) (e : Err), Dispatched s cid op c ∧ signals e.1 = false ∧ springUp s = true ∧
      op = 0x0404 ∧ ingestSeekIssue s c = some e) ∧
    (∃ (s : State) (cid op : Nat) (c : Cmd) (e : Err), Dispatched s cid op c ∧ signals e.1 = false ∧ springUp s = true ∧
      op = 0x0405 ∧ dictLoadIssue s c = some e) ∧
    (∃ (s : State), springUp s = false) :=
  ⟨⟨runs live (batch1 0), 7, 0x0402, batch1 0, (0x11, 0x600), by decide +kernel⟩,
  ⟨runs live (cmdOf 0 0x0404 [(0x10, 1, 15)]), 7, 0x0404, cmdOf 0 0x0404 [(0x10, 1, 15)], (0x11, 0x600), by decide +kernel⟩,
  ⟨runs live (cmdOf 0 0x0405 [(0x10, 2, 1), (0x12, 2, 2), (0x14, 1, 3)]), 7, 0x0405, cmdOf 0 0x0405 [(0x10, 2, 1), (0x12, 2,
    2), (0x14, 1, 3)], (dictLoadIssue live (cmdOf 0 0x0405 [(0x10, 2, 1), (0x12, 2, 2), (0x14, 1, 3)])).getD (0, 0),
    by decide +kernel⟩,
  ⟨State.reset, by decide +kernel⟩⟩

theorem witness_BatchesAreAssembledAndCommitted_1 :
    (∃ (s : State) (n j : Nat) (c : Cmd) (g : Ingest), n < 16 ∧ batchCmd s n = some c ∧ springUp s = true ∧ g = getIngest
      s n ∧ g.opened = true ∧ g.asm = none ∧ j = g.batch % max (cQ g.cfg) 1 ∧ mhas g.held j = false) ∧
    (∃ (s : State) (n j : Nat) (c : Cmd) (g : Ingest), n < 16 ∧ batchCmd s n = some c ∧ springUp s = true ∧ g = getIngest
      s n ∧ g.opened = true ∧ g.asm = none ∧ j = g.batch % max (cQ g.cfg) 1 ∧ mhas g.held j = true) ∧
    (∃ (s : State) (n j r m : Nat) (c : Cmd) (g : Ingest) (a : Assembly), Safe s ∧ n < 16 ∧ batchCmd s n = some c ∧
      springUp s = true ∧ g = getIngest s n ∧ g.asm = some a ∧ a.slots.length = cB g.cfg ∧ j = g.batch % max (cQ g.cfg) 1
      ∧ r = field g.cfg 0xC 2 + j ∧ m = (readDesc s (field g.cfg 0x14 2 + j)).base ∧ findCmd s c.cid = some c ∧ (∀ v ∈
      a.slots, v.done = true) ∧ s.ctl.noMainClock = true) ∧
    (∃ (s : State) (n j r m : Nat) (c : Cmd) (g : Ingest) (a : Assembly), Safe s ∧ n < 16 ∧ batchCmd s n = some c ∧
      springUp s = true ∧ g = getIngest s n ∧ g.asm = some a ∧ a.slots.length = cB g.cfg ∧ j = g.batch % max (cQ g.cfg) 1
      ∧ r = field g.cfg 0xC 2 + j ∧ m = (readDesc s (field g.cfg 0x14 2 + j)).base ∧ findCmd s c.cid = some c ∧ (∀ v ∈
      a.slots, v.done = true) ∧ s.ctl.noMainClock = false) :=
  ⟨⟨fedBare (stream1 6 none []), 15, 0, { batch1 1 with holds := true }, stream1 6 none [], by decide +kernel⟩,
  ⟨fedBare ({ stream1 6 none [] with held := [(0, 0)] }), 15, 0, { batch1 1 with holds := true },
    { stream1 6 none [] with held := [(0, 0)] }, by decide +kernel⟩,
  ⟨clockless (fed 0 (stream1 6 (some [slotDone]) [])), 15, 0, 4095, 0x24000, { batch1 1 with holds := true }, stream1 6
    (some [slotDone]) [], asm1 [slotDone], by decide +kernel⟩,
  ⟨fed 0 (stream1 6 (some [slotDone]) []), 15, 0, 4095, 0x24000, { batch1 1 with holds := true }, stream1 6 (some
    [slotDone]) [], asm1 [slotDone], by decide +kernel⟩⟩

theorem witness_BatchesAreAssembledAndCommitted_2 :
    (∃ (s : State) (n j r m : Nat) (c : Cmd) (g : Ingest) (a : Assembly), Safe s ∧ n < 16 ∧ batchCmd s n = some c ∧
      springUp s = true ∧ g = getIngest s n ∧ g.asm = some a ∧ a.slots.length = cB g.cfg ∧ j = g.batch % max (cQ g.cfg) 1
      ∧ r = field g.cfg 0xC 2 + j ∧ m = (readDesc s (field g.cfg 0x14 2 + j)).base ∧ findCmd s c.cid = some c ∧ (∃ v ∈
      a.slots, v.done = false)) ∧
    (∃ (s : State) (n : Nat) (g : Ingest) (a : Assembly), n < 16 ∧ springUp s = true ∧ g = getIngest s n ∧ g.asm = some a
      ∧ (cB g.cfg ≤ a.slots.length ∨ entryReady g.srcTail g.pos = true)) ∧
    (∃ (s : State) (n : Nat) (g : Ingest) (a : Assembly) (c : _), n < 16 ∧ springUp s = true ∧ g = getIngest s n ∧ g.asm =
      some a ∧ a.slots.length < cB g.cfg ∧ entryReady g.srcTail g.pos = false ∧ batchCmd s n = some c) :=
  ⟨⟨fed 0 (stream1 3 (some [slotLane 0]) []), 15, 0, 4095, 0x24000, { batch1 1 with holds := true }, stream1 3 (some
    [slotLane 0]) [], asm1 [slotLane 0], by decide +kernel⟩,
  ⟨fedBare (stream1 3 (some [slotLane 0]) []), 15, stream1 3 (some [slotLane 0]) [], asm1 [slotLane 0], by decide +kernel⟩,
  ⟨fedBare ({ stream1 6 (some []) [] with srcTail := 0 }), 15, { stream1 6 (some []) [] with srcTail := 0 }, asm1 [],
    { batch1 1 with holds := true }, by decide +kernel⟩⟩

theorem witness_RecordsFillTheSlots_1 :
    (∃ (s : State) (n : Nat) (g : Ingest) (a : Assembly) (nx : NextRecord), n < 16 ∧ springUp s = true ∧ g = getIngest s n
      ∧ g.asm = some a ∧ a.slots.length < cB g.cfg ∧ cPacked g.cfg = false ∧ nx = nextRecord s g.src (field g.cfg 0x1A 1)
      g.srcTail g.pos ∧ nx = .empty) ∧
    (∃ (s : State) (n : Nat) (g : Ingest) (a : Assembly) (nx : NextRecord) (r p : _), n < 16 ∧ springUp s = true ∧ g =
      getIngest s n ∧ g.asm = some a ∧ a.slots.length < cB g.cfg ∧ cPacked g.cfg = false ∧ nx = nextRecord s g.src (field
      g.cfg 0x1A 1) g.srcTail g.pos ∧ nx = .good r p ∧ firstFail ((List.range (cOutputs g.cfg)).map (fun i => (i,
      fillOutput s g r i))) = none) ∧
    (∃ (s : State) (n : Nat) (g : Ingest) (a : Assembly) (nx : NextRecord) (reason id p x l : _), n < 16 ∧ springUp s =
      true ∧ g = getIngest s n ∧ g.asm = some a ∧ a.slots.length < cB g.cfg ∧ cPacked g.cfg = false ∧ nx = nextRecord s
      g.src (field g.cfg 0x1A 1) g.srcTail g.pos ∧ nx = .bad reason id p ∧ g.pool = x :: l) ∧
    (∃ (s : State) (n : Nat) (g : Ingest) (a : Assembly) (nx : NextRecord) (reason id p : _), n < 16 ∧ springUp s = true ∧
      g = getIngest s n ∧ g.asm = some a ∧ a.slots.length < cB g.cfg ∧ cPacked g.cfg = false ∧ nx = nextRecord s g.src
      (field g.cfg 0x1A 1) g.srcTail g.pos ∧ nx = .bad reason id p ∧ g.pool = []) :=
  ⟨⟨fedBare ({ stream1 6 (some []) [] with srcTail := 0 }), 15, { stream1 6 (some []) [] with srcTail := 0 }, asm1 [],
    .empty, by decide +kernel⟩,
  ⟨fed 0 (stream1 6 (some []) []), 15, stream1 6 (some []) [], asm1 [], .good record1 (mkPos 1 0), record1, mkPos 1 0,
    by decide +kernel⟩,
  ⟨fed 1 (stream1 6 (some []) [spare]), 15, stream1 6 (some []) [spare], asm1 [], .bad 2 9 (mkPos 1 0), 2, 9, mkPos 1 0,
    spare, [], by decide +kernel⟩,
  ⟨fed 1 (stream1 6 (some []) []), 15, stream1 6 (some []) [], asm1 [], .bad 2 9 (mkPos 1 0), 2, 9, mkPos 1 0,
    by decide +kernel⟩⟩

theorem witness_RecordsFillTheSlots_2 :
    (∃ (s : State) (n : Nat) (g : Ingest) (a : Assembly) (nx : NextRecord) (p k x l : _), n < 16 ∧ springUp s = true ∧ g =
      getIngest s n ∧ g.asm = some a ∧ a.slots.length < cB g.cfg ∧ cPacked g.cfg = false ∧ nx = nextRecord s g.src (field
      g.cfg 0x1A 1) g.srcTail g.pos ∧ nx = .framing p k ∧ g.pool = x :: l) ∧
    (∃ (s : State) (n : Nat) (g : Ingest) (a : Assembly) (nx : NextRecord) (p : _), n < 16 ∧ springUp s = true ∧ g =
      getIngest s n ∧ g.asm = some a ∧ a.slots.length < cB g.cfg ∧ cPacked g.cfg = false ∧ nx = nextRecord s g.src (field
      g.cfg 0x1A 1) g.srcTail g.pos ∧ nx = .skip p) ∧
    (∃ (s : State) (n : Nat) (g : Ingest) (a : Assembly) (nx : NextRecord) (k : Nat × BatchSlot), n < 16 ∧ springUp s =
      true ∧ g = getIngest s n ∧ g.asm = some a ∧ (a.slots.length < cB g.cfg ∨ ∃ v ∈ a.slots, v.done = false) ∧ cPacked
      g.cfg = true ∧ nx = nextRecord s g.src (field g.cfg 0x1A 1) g.srcTail g.pos ∧ k = packingSlot a g.pos ∧ nx = .empty)
      ∧
    (∃ (s : State) (n : Nat) (g : Ingest) (a : Assembly) (nx : NextRecord) (k : Nat × BatchSlot) (r p f l : _), n < 16 ∧
      springUp s = true ∧ g = getIngest s n ∧ g.asm = some a ∧ (a.slots.length < cB g.cfg ∨ ∃ v ∈ a.slots, v.done = false)
      ∧ cPacked g.cfg = true ∧ nx = nextRecord s g.src (field g.cfg 0x1A 1) g.srcTail g.pos ∧ k = packingSlot a g.pos ∧ nx
      = .good r p ∧ r.pick 1 (oe g.cfg 0 1 1) = some f ∧ f.len ≠ 0 ∧ f.codec = 0 ∧ l = wrapped g.cfg (tokenise (dictOf s
      g) f.data) ∧ (l.length ≤ oLen g.cfg 0 - (packed k.2).1.length / 4 ∨ (packed k.2).1.length / 4 = 0)) :=
  ⟨⟨fedBare (stream1 6 (some []) [spare]), 15, stream1 6 (some []) [spare], asm1 [], .framing (mkPos 1 0) 0, mkPos 1 0, 0,
    spare, [], by decide +kernel⟩,
  ⟨fed 0 ({ stream1 6 (some []) [] with pos := 64 }), 15, { stream1 6 (some []) [] with pos := 64 }, asm1 [], .skip (mkPos 1
    0), mkPos 1 0, by decide +kernel⟩,
  ⟨fedBare ({ packing [] with srcTail := 0 }), 15, { packing [] with srcTail := 0 }, asm1 [], .empty, (0, freshSlot
    (BitVec.allOnes 64) 0), by decide +kernel⟩,
  ⟨fedText 0 (packing []), 15, packing [], asm1 [], .good record2 (mkPos 1 0), (0, freshSlot (BitVec.allOnes 64) 0),
    record2, mkPos 1 0, record2.fields.headD { kind := 0, codec := 0, off := 0, len := 0, data := [] }, [0, 5, 0, 0, 0, 0],
    by decide +kernel⟩⟩

theorem witness_RecordsFillTheSlots_3 :
    (∃ (s : State) (n : Nat) (g : Ingest) (a : Assembly) (nx : NextRecord) (k : Nat × BatchSlot) (r p f l : _), n < 16 ∧
      springUp s = true ∧ g = getIngest s n ∧ g.asm = some a ∧ (a.slots.length < cB g.cfg ∨ ∃ v ∈ a.slots, v.done = false)
      ∧ cPacked g.cfg = true ∧ nx = nextRecord s g.src (field g.cfg 0x1A 1) g.srcTail g.pos ∧ k = packingSlot a g.pos ∧ nx
      = .good r p ∧ r.pick 1 (oe g.cfg 0 1 1) = some f ∧ f.len ≠ 0 ∧ f.codec = 0 ∧ l = wrapped g.cfg (tokenise (dictOf s
      g) f.data) ∧ oLen g.cfg 0 - (packed k.2).1.length / 4 < l.length ∧ (packed k.2).1.length / 4 ≠ 0) ∧
    (∃ (s : State) (n : Nat) (g : Ingest) (a : Assembly) (nx : NextRecord) (k : Nat × BatchSlot) (reason id p : _), n < 16
      ∧ springUp s = true ∧ g = getIngest s n ∧ g.asm = some a ∧ (a.slots.length < cB g.cfg ∨ ∃ v ∈ a.slots, v.done =
      false) ∧ cPacked g.cfg = true ∧ nx = nextRecord s g.src (field g.cfg 0x1A 1) g.srcTail g.pos ∧ k = packingSlot a
      g.pos ∧ nx = .bad reason id p) ∧
    (∃ (s : State) (n slot out : Nat) (m : Media) (g : Ingest) (a : Assembly) (v : BatchSlot) (f : LaneField) (r : _), n <
      16 ∧ springUp s = true ∧ g = getIngest s n ∧ laneField g slot out = some (a, v, f) ∧ f.output = out ∧ prepareMedia
      g.cfg out s.freeCtr v.sampleId g.epoch g.seed m = .ok r) ∧
    (∃ (s : State) (n slot out : Nat) (m : Media) (g : Ingest) (a : Assembly) (v : BatchSlot) (f : LaneField) (e x l : _),
      n < 16 ∧ springUp s = true ∧ g = getIngest s n ∧ laneField g slot out = some (a, v, f) ∧ f.output = out ∧
      prepareMedia g.cfg out s.freeCtr v.sampleId g.epoch g.seed m = .error e ∧ a.slots[slot]? = some v ∧ g.pool = x :: l) :=
  ⟨⟨fedText 0 (packing [slotText]), 15, packing [slotText], asm1 [slotText], .good record2 (mkPos 1 0), (0, slotText),
    record2, mkPos 1 0, record2.fields.headD { kind := 0, codec := 0, off := 0, len := 0, data := [] }, [0, 5, 0, 0, 0, 0],
    by decide +kernel⟩,
  ⟨fedText 1 (packing []), 15, packing [], asm1 [], .bad 2 9 (mkPos 1 0), (0, freshSlot (BitVec.allOnes 64) 0), 2, 9, mkPos
    1 0, by decide +kernel⟩,
  ⟨fedBare (stream1 3 (some [slotLane 0]) [spare]), 15, 0, 0, .audio 48000 1 [0x3F800000#32], stream1 3 (some [slotLane 0])
    [spare], asm1 [slotLane 0], slotLane 0, { output := 0, expiries := 0, codec := 3, bytes := 100 }, ([0x80#8, 0x3F#8],
    [1#8], 0), by decide +kernel⟩,
  ⟨fedBare (stream1 3 (some [slotLane 0]) [spare]), 15, 0, 0, .bad 4, stream1 3 (some [slotLane 0]) [spare], asm1 [slotLane
    0], slotLane 0, { output := 0, expiries := 0, codec := 3, bytes := 100 }, 4, spare, [], by decide +kernel⟩⟩

theorem witness_RecordsFillTheSlots_4 :
    (∃ (s : State) (n slot out : Nat) (g : Ingest) (a : Assembly) (v : BatchSlot) (f : LaneField) (b : _), n < 16 ∧
      springUp s = true ∧ g = getIngest s n ∧ laneField g slot out = some (a, v, f) ∧ f.output = out ∧ f.expiries = 0 ∧
      cheapBit f.codec = some b) ∧
    (∃ (s : State) (n slot out : Nat) (g : Ingest) (a : Assembly) (v : BatchSlot) (f : LaneField) (x l : _), n < 16 ∧
      springUp s = true ∧ g = getIngest s n ∧ laneField g slot out = some (a, v, f) ∧ f.output = out ∧ (f.expiries ≠ 0 ∨
      cheapBit f.codec = none) ∧ a.slots[slot]? = some v ∧ g.pool = x :: l) ∧
    (∃ (s : State) (n slot out : Nat) (g : Ingest) (a : Assembly) (v : BatchSlot) (f : LaneField), n < 16 ∧ springUp s =
      true ∧ g = getIngest s n ∧ laneField g slot out = some (a, v, f) ∧ f.output = out ∧ (f.expiries ≠ 0 ∨ cheapBit
      f.codec = none) ∧ a.slots[slot]? = some v ∧ g.pool = []) ∧
    (∃ (s : State) (n : Nat) (g : Ingest) (media : List ReserveField) (r p x : _), n < 16 ∧ springUp s = true ∧ g =
      getIngest s n ∧ g.opened = true ∧ g.rsv ≠ 0 ∧ g.pool.length < field g.cfg 0x16 2 ∧ nextRecord s g.rsv (field g.cfg
      0x1B 1) g.rsvTail g.rsvPos = .good r p ∧ reserveSample s g r media = .ok x) :=
  ⟨⟨fedBare (stream1 3 (some [slotLane 0]) [spare]), 15, 0, 0, stream1 3 (some [slotLane 0]) [spare], asm1 [slotLane 0],
    slotLane 0, { output := 0, expiries := 0, codec := 3, bytes := 100 }, 4, by decide +kernel⟩,
  ⟨fedBare (stream1 3 (some [slotLane 1]) [spare]), 15, 0, 0, stream1 3 (some [slotLane 1]) [spare], asm1 [slotLane 1],
    slotLane 1, { output := 0, expiries := 1, codec := 3, bytes := 100 }, spare, [], by decide +kernel⟩,
  ⟨fedBare (stream1 3 (some [slotLane 1]) []), 15, 0, 0, stream1 3 (some [slotLane 1]) [], asm1 [slotLane 1], slotLane 1,
    { output := 0, expiries := 1, codec := 3, bytes := 100 }, by decide +kernel⟩,
  ⟨fed 0 (stream1 6 none []), 15, stream1 6 none [], [], record1, mkPos 1 0,
    { id := 9, outputs := [(0, [5, 0, 0, 0], [1])], profile := 0, truncated := false, sat := 0 }, by decide +kernel⟩⟩

theorem witness_RecordsFillTheSlots_5 :
    (∃ (s : State) (n : Nat) (g : Ingest) (media : List ReserveField) (r p : _), n < 16 ∧ springUp s = true ∧ g =
      getIngest s n ∧ g.opened = true ∧ g.rsv ≠ 0 ∧ g.pool.length < field g.cfg 0x16 2 ∧ nextRecord s g.rsv (field g.cfg
      0x1B 1) g.rsvTail g.rsvPos = .good r p ∧ reserveSample s g r media = .error 5) ∧
    (∃ (s : State) (n : Nat) (g : Ingest) (reason id p : _), n < 16 ∧ springUp s = true ∧ g = getIngest s n ∧ g.opened =
      true ∧ g.rsv ≠ 0 ∧ g.pool.length < field g.cfg 0x16 2 ∧ nextRecord s g.rsv (field g.cfg 0x1B 1) g.rsvTail g.rsvPos =
      .bad reason id p) ∧
    (∃ (s : State) (n : Nat) (g : Ingest), n < 16 ∧ springUp s = true ∧ g = getIngest s n ∧ g.opened = true ∧ g.rsv ≠ 0 ∧
      g.pool.length < field g.cfg 0x16 2 ∧ nextRecord s g.rsv (field g.cfg 0x1B 1) g.rsvTail g.rsvPos = .empty) :=
  ⟨⟨fedSound (stream1 3 none []), 15, stream1 3 none [], [], record3, mkPos 1 0, by decide +kernel⟩,
  ⟨fed 1 (stream1 6 none []), 15, stream1 6 none [], 2, 9, mkPos 1 0, by decide +kernel⟩,
  ⟨fedBare ({ stream1 6 none [] with rsvTail := 0 }), 15, { stream1 6 none [] with rsvTail := 0 }, by decide +kernel⟩⟩

/-! ## Values that the manual states -/

/-- A finite value `m` over `2 ^ k`. -/
def frac (neg : Bool) (m k : Nat) : Machine.Num := .fin neg m (-(k : Int))

/-- The block of the worked F4 block: its first six elements, and ten of 1/16. -/
def workedBlock : List Machine.Num :=
  [frac false 17 3, frac true 15 4, frac false 1 3, frac false 5 3, frac false 21 4, frac true 3 6] ++ List.replicate 10 (frac false 1 4)

/-- The worked F4 block under R65: tensor exponent, scale and codes. -/
theorem test_f4_block : f4Tensor (Num.ofNat 6) = 0x77 ∧ f4Block (frac false 1 8) workedBlock (List.replicate 16 none) =
    { scale := 0xAC, codes := [0x7, 0xC, 0x1, 0x3, 0x6, 0x8] ++ List.replicate 10 0, sats := 0 } := by
  decide +kernel

/-- The sr() figures under R67: elements 4 and 0 of the same block. -/
theorem test_sr_threshold : (srCode 6 32767 (frac false 7 1)).code = 0x5 ∧ (srCode 6 32768 (frac false 7 1)).code = 0x6 ∧
    (srCode 6 10922 (Machine.Num.div (frac false 17 3) (frac false 3 3))).code = 0x6 ∧
    (srCode 6 10923 (Machine.Num.div (frac false 17 3) (frac false 3 3))).code = 0x7 := by
  decide +kernel

/-- E4M3 saturation (R68): 449 and 464 are none, 465 is; an infinity becomes the NaN code. -/
theorem test_e4m3_saturation : (rneCode 3 (Num.ofNat 449)).sat = false ∧ rneCode 3 (Num.ofNat 464) = { code := 0x7E, sat := false } ∧
    rneCode 3 (Num.ofNat 465) = { code := 0x7E, sat := true } ∧ (rneCode 3 (.inf false)).code = 0x7F := by
  decide +kernel

/-- The products of the worked split of R119: chunk 0 sums to 2^24, each other chunk to 1. -/
def workedProd (k : Nat) : Machine.Num := if k = 0 then Num.ofNat (2 ^ 24) else if k % 32 = 0 then Num.ofNat 1 else Num.ofNat 0

/-- Its totals for the four values of k_split (R105, R106, R118). -/
theorem test_split_totals : [1, 2, 4, 8].map (elementTotal workedProd (Num.ofNat 1) 32 256) =
    [fOfNat 16777216, fOfNat 16777220, fOfNat 16777222, fOfNat 16777222] := by
  decide +kernel

/-- The worked shifted variance (R127). -/
theorem test_meanvar : meanVar ([2001, 2003, 2005, 2007].map (fun n => toF32 (frac false n 1))) false =
    (fOfNat 1002, toF32 (frac false 5 2)) := by
  decide +kernel

/-- The worked delayed scale (R136): the largest of the history. -/
theorem test_delayed_amax : delayedAmax 0 0 [0x40900000#32, 0x40C00000#32, 0x40680000#32, 0x40800000#32] = 0x40C00000#32 := by
  decide +kernel

/-- Tag 37 of the worked evaluation (R141): demote_n 3, threshold 0.1875; `err` over a reference of 1. -/
def tag37 (terr err : Word) (up : Bool) (clean : Nat) : Tag :=
  { Tag.reset with
    tcfg := 0x03260300#32, tthr := 0x3E400000#32, terr := terr, eValid := true, promoted := up, clean := clean, err0 := err
    ref0 := 0x3F800000#32, samples := 1 }

/-- Step 101 (0.15, then 0.26) promotes; step 106 (0.1159, then 0.1) demotes at the third clean step; step 105 does not. -/
theorem test_tag_moves : ((tag37 0x3E19999A#32 0x3D8A71DE#32 false 0).evaluate 0x1000#32).promoted = true ∧
    ((tag37 0x3DED5CFB#32 0x3C23D70A#32 true 2).evaluate 0x1000#32).promoted = false ∧
    ((tag37 0x3E01F213#32 0x3C23D70A#32 true 1).evaluate 0x1000#32).promoted = true := by
  decide +kernel

/-- Its new master and moments. -/
theorem test_adam_element : updateElem (updateConsts adamCmd) { w := 0x3FC00000#32, m := 0, v := 0 } 0x43C00000#32 =
    { w := 0x3FBFE500#32, m := 0x3CC00000#32, v := 0x39900000#32 } := by
  decide +kernel

/-- The worked mapping (R99, R104, R108): parts, tile sizes and pad bytes of two F4 operands of 1,024 positions. -/
theorem test_worked_mapping : partStart 1 96 2 = 48 ∧ (geoOf (cmdOf 0 0x0101 [(0x28, 2, 0x3C67)])).tm = 512 ∧
    (geoOf (cmdOf 0 0x0101 [(0x28, 2, 0x3C67)])).tn = 256 ∧ (geoOf (cmdOf 0 0x0101 [(0x28, 2, 0x3C67)])).tk = 1024 ∧
    2 * opSlice 512 1024 6 false false = 589824 ∧ 4 * opSlice 256 1024 6 false false = 589824 := by
  decide +kernel

/-- The Tarn detail of the worked backward check (R107): 8 resident tiles where 4 fit. -/
theorem test_tarn_detail : tileCapacity 0 8 4 = (0x13, 0x000810) := by decide

/-- The convolution stem: output extents and stripes (R176, R181). -/
theorem test_conv_extents : outExtent 1536 2 (dilated 3 1) 1 = 1536 ∧ 2 * sliceBytes 10 (1538 * 8) 1 false = 492800 ∧
    4 * opSlice 64 128 1 false false = 65536 := by
  decide +kernel

/-- The saved activation (R208-R212): metadata bytes, spill offset, data area. -/
theorem test_zip_sizes : zipMetaBytes 0 10 = 152 ∧ zipSpillOff 32 10 = 20480 ∧ zipDataBytes 1 32 10 2 = 28672 ∧ zipDecl 40000 9 = 3136 := by
  decide +kernel

/-- A segment of it: e[0] = 0x3FA0, low bytes 0x80 to 0xFF, one of them 0xFF; 241 bits (R209). -/
theorem test_zip_segment : (zrSegment 2 ([0xA0#8, 0x3F#8] ++ (List.replicate 31 [0xFF#8, 0x3F#8]).flatten)).length = 241 := by
  decide +kernel

/-- Address 0x0080_0123_4567 with span 2 of window 1 at frame 1,207 of stack H0 (R229). -/
theorem test_translate : ({ Memory.reset with spans1 := [(2, { owner := 0, frames := [1207, 1, 2, 3] })] } : Memory).translate 0x008001234567 =
    some (0, 1207, 0x8D567) := by
  decide +kernel

/-- Port P5 as worked (R273, R274): lane 6 moves to spare 9; with none left lane 1 narrows it to 0, 2, 4, 5. -/
theorem test_lanes :
    (getPort (failLane (setPort live 5 { Port.reset with state := 2, gen := 3, width := 8, planes := [0, 1, 2, 8, 4, 5, 6, 7], lanes := [(3, { Lane.reset with retired := true })] }) 5 6 false) 5).planes =
      [0, 1, 2, 8, 4, 5, 9, 7] ∧
    (getPort (failLane (setPort live 5 { Port.reset with
      state := 2, gen := 3, width := 8, planes := [0, 1, 2, 8, 4, 5, 9, 7]
      lanes := [(3, { Lane.reset with retired := true }), (6, { Lane.reset with retired := true })] }) 5 1 false) 5).planes = [0, 2, 4, 5] := by
  decide +kernel

/-- Stack H5 missing at step 6 (R353, R45): KSTAT, and LOAD_JOB's refusal. -/
theorem test_kstat : kstat { live with ctl := { live.ctl with kstate := 2, stage := 4, selftest := 4 } } = 0x80040004 ∧
    badParam 0 6 = (0x11, 0x000600) := by
  decide +kernel

/-- A packet with opcode 0x0101 rejected at offset 0x18 for reason 2, and a killed wait on counter 9 (R45). -/
theorem test_status_words : badParam 0x18 2 = (0x11, 0x218) ∧ killed 2 9 = (0x41, 0x800009) := by decide +kernel

/-- Saturation of a 16-bit counter (R26). -/
theorem test_counter_saturates :
    getCounter (addTokens (setCounter live 5 { count := 0xFFFE, poison := false }) 0 5 3) 5 = { count := 0xFFFF, poison := false } := by
  decide +kernel

/-- An empty queue idles one microsecond: 100 cycles of the always-on clock. -/
theorem test_tick : (match step live with
    | .next t => decide (t.time.aon = live.time.aon + 100)
    | _ => false) = true := by decide +kernel

/-- The command in front runs: a doorbell of queue 64. -/
theorem test_step_runs : step { live with pending := [.queueDoorbell 64 5#32, .mgtFailover] } =
    exec (.queueDoorbell 64 5#32) { live with pending := [.mgtFailover] } := by
  rfl

end Sys2Proof.Tests
end

section
/-! Register writes: what a write to a register with a row of its own (R147, R198, R310, R320, R353, R381, R400, R415) and a
write to the register map (R7, R8, R348, R351) does, said once for each register, and the two statements on them. -/

namespace Sys2Proof.Machine

/-! ## FP32 words by their fields (R57) -/

/-- A word is finite unless its exponent field is all ones. -/
theorem isFinite_iff (w : Word) : isFinite w = true ↔ w.toNat / 2 ^ 23 % 2 ^ 8 ≠ 255 := by
  simp only [isFinite, f32, decodeElem, mbits, ebits]
  by_cases h255 : w.toNat / 2 ^ 23 % 2 ^ 8 = 255
  · by_cases hm : w.toNat % 2 ^ 23 = 0 <;> simp_all [Num.isFin]
  · by_cases h0 : w.toNat / 2 ^ 23 % 2 ^ 8 = 0 <;> simp_all [Num.isFin]

/-- The sign of a finite word is its top bit. -/
theorem isNeg_f32_of_isFinite {w : Word} (h : isFinite w = true) : (f32 w).isNeg = bit w.toNat 31 := by
  rw [isFinite_iff] at h
  simp only [f32, decodeElem, mbits, ebits]
  by_cases h0 : w.toNat / 2 ^ 23 % 2 ^ 8 = 0 <;> simp_all [Num.isNeg]

/-- A word is a zero of either sign where every bit below the top one is clear. -/
theorem isZero_f32_iff (w : Word) : (f32 w).isZero = true ↔ w.toNat % 2 ^ 31 = 0 := by
  simp only [f32, decodeElem, mbits, ebits]
  by_cases h255 : w.toNat / 2 ^ 23 % 2 ^ 8 = 255
  · by_cases hm : w.toNat % 2 ^ 23 = 0 <;> simp_all [Num.isZero] <;> omega
  · by_cases h0 : w.toNat / 2 ^ 23 % 2 ^ 8 = 0 <;> simp_all [Num.isZero] <;> omega

/-- TINIT takes the codes below infinity and the negative zero (R147). -/
theorem tinit_taken_iff (v : Word) : (isFinite v && !(f32 v).isNeg || (f32 v).isZero) = true ↔
    v.toNat < 0x7F800000 ∨ v = 0x80000000#32 := by
  have hv := v.isLt
  have hneg0 : v = 0x80000000#32 ↔ v.toNat = 0x80000000 := BitVec.toNat_inj.symm
  rw [Bool.or_eq_true, isZero_f32_iff, hneg0]
  by_cases hf : isFinite v = true
  · rw [hf, isNeg_f32_of_isFinite hf]
    rw [isFinite_iff] at hf
    simp only [bit, Bool.true_and, Bool.not_eq_true', beq_eq_false_iff_ne]
    omega
  · rw [isFinite_iff] at hf
    simp only [isFinite_iff, Bool.and_eq_true]
    omega

/-! ## Registers with a row of their own -/

/-- A write to TINIT waits for the next evaluation, or is discarded. -/
theorem Tag.write_tinit (g : Tag) (v : Word) : g.write .tinit v =
    if v.toNat < 0x7F800000 ∨ v = 0x80000000#32 then { g with heldInit := some v } else g := by
  simp only [Tag.write, tinit_taken_iff]

/-- The guard's registers are written through any source that reaches them. -/
theorem exec_guardConfigWrite {s : State} {src : Source} {tag : Nat} (r : GuardReg) (v : Word) (hs : sourceUp s src = true)
    (h1 : 1 ≤ tag) (h2 : tag ≤ 255) :
    exec (.guardConfigWrite src tag r v) s = .next (setTag s tag ((getTag s tag).write r v)) := by
  simp [exec, execGuardConfigWrite, hs, h1, h2]

/-- SSHARE takes three shares whose sum is 256. -/
theorem sshareSet_eq (s : State) (d : Nat) (v : Word) : sshareSet s d v = setStream s d
    (if v.toNat % 256 + v.toNat / 256 % 256 + v.toNat / 65536 % 256 = 256
      then { getStream s d with sshare := v &&& 0xFFFFFF#32 }
      else { getStream s d with shareRefused := true }) := by
  by_cases h : v.toNat % 256 + v.toNat / 256 % 256 + v.toNat / 65536 % 256 = 256 <;> simp [sshareSet, bits, h]

/-- WCTRL's two slews and its floor are in range (R400): its bit fields as quotients. -/
theorem wctrl_inRange_iff (v : Word) :
    (decide (10 ≤ bits v.toNat 31 21 ∧ bits v.toNat 31 21 ≤ 2000) && decide (10 ≤ bits v.toNat 20 10 ∧ bits v.toNat 20 10 ≤ 2000) &&
      decide (bits v.toNat 9 3 ≤ 100)) = true ↔
    10 ≤ v.toNat / 2 ^ 21 ∧ v.toNat / 2 ^ 21 ≤ 2000 ∧ 10 ≤ v.toNat / 2 ^ 10 % 2048 ∧ v.toNat / 2 ^ 10 % 2048 ≤ 2000 ∧
      v.toNat / 8 % 128 ≤ 100 := by
  have htop : v.toNat / 2097152 % 2048 = v.toNat / 2097152 := Nat.mod_eq_of_lt (by have := v.isLt; omega)
  simp only [Bool.and_eq_true, decide_eq_true_eq]
  simp [bits, htop, and_assoc]

/-- WCTRL is taken whole, or refused whole. -/
theorem wctrlSet_eq (s : State) (v : Word) : wctrlSet s v = { s with power :=
    if 10 ≤ v.toNat / 2 ^ 21 ∧ v.toNat / 2 ^ 21 ≤ 2000 ∧ 10 ≤ v.toNat / 2 ^ 10 % 2048 ∧ v.toNat / 2 ^ 10 % 2048 ≤ 2000 ∧
        v.toNat / 8 % 128 ≤ 100
    then { s.power with pendWctrl := some (v &&& 0xFFFFFFF8#32) } else { s.power with wctrlRefused := true } } := by
  simp only [wctrlSet, wctrl_inRange_iff]
  split <;> rfl

/-- The fields of a PCTRL word made of its bit 12 and a target. -/
theorem pctrl_fields (b : Bool) {t : Nat} (ht : t < 2048) :
    bit (BitVec.ofNat 32 (b2n b * 4096 + t)).toNat 12 = b ∧ bits (BitVec.ofNat 32 (b2n b * 4096 + t)).toNat 10 0 = t := by
  cases b <;> simp only [b2n, bit, bits, BitVec.toNat_ofNat, if_true, Bool.false_eq_true, if_false, beq_iff_eq,
    beq_eq_false_iff_ne] <;> omega

/-- PCTRL takes bit 12, and the target rounded down to 25 MHz where it is in range (R400). -/
theorem pctrlSet_eq (s : State) (v : Word) : ∃ p, pctrlSet s v = { s with power := { s.power with pctrl := p } } ∧
    bit p.toNat 12 = bit v.toNat 12 ∧
    bits p.toNat 10 0 = (if 600 ≤ v.toNat % 2048 ∧ v.toNat % 2048 ≤ 1200 then v.toNat % 2048 / 25 * 25
      else bits s.power.pctrl.toNat 10 0) := by
  have hnew : bits v.toNat 10 0 = v.toNat % 2048 := by simp [bits]
  have hold : bits s.power.pctrl.toNat 10 0 < 2048 := Nat.mod_lt _ (by decide)
  have htarget : (if 600 ≤ v.toNat % 2048 ∧ v.toNat % 2048 ≤ 1200 then v.toNat % 2048 / 25 * 25
      else bits s.power.pctrl.toNat 10 0) < 2048 := by split <;> omega
  refine ⟨_, rfl, ?_⟩
  simpa only [hnew, freqTarget] using pctrl_fields (bit v.toNat 12) htarget

/-- RSCRUB takes a period of 1 to 24 (R415). -/
theorem rscrubSet_eq (s : State) (v : Word) : rscrubSet s v = { s with rel := { s.rel with
    rscrub := if 1 ≤ v.toNat % 32 ∧ v.toNat % 32 ≤ 24 then v &&& 0x11F#32 else s.rel.rscrub } } := by
  by_cases h : 1 ≤ v.toNat % 32 ∧ v.toNat % 32 ≤ 24 <;> simp [rscrubSet, bits, h]

/-- A tail register takes any value (R310); the other one keeps its own. -/
theorem tailSet_eq (s : State) (n : Nat) (rsv : Bool) (v : Word) : tailSet s n rsv v = setIngest s n
    { getIngest s n with srcTail := if rsv then (getIngest s n).srcTail else v,
                         rsvTail := if rsv then v else (getIngest s n).rsvTail } := by
  cases rsv <;> rfl

/-- KIRQ's vector goes out where the endpoint is up (R353). -/
theorem raiseKirq_eq (s : State) : raiseKirq s =
    { s with out := s.out ++ (if barsUp s then [.msix (s.ctl.kirq.toNat % 1024)] else []) } := by
  cases h : barsUp s <;> simp [raiseKirq, emit, h]

/-- Settles O25: each register's write is its own rule above, reached through a source that is up. -/
theorem configurationWritesTakeEffect : Obligations.ConfigurationWritesTakeEffect := by
  unfold Obligations.ConfigurationWritesTakeEffect
  refine ⟨?guard, ?sshare, ?spring, ?power, ?hostMailbox, ?coreMailbox, ?security⟩
  case guard =>
    intro s src tag v hs h1 h2
    refine ⟨?_, exec_guardConfigWrite .tlim v hs h1 h2, exec_guardConfigWrite .ttset v hs h1 h2, ?_⟩
    · exact exec_guardConfigWrite .tcfg v hs h1 h2
    · rw [exec_guardConfigWrite .tinit v hs h1 h2, Tag.write_tinit]
  case sshare =>
    intro s src d v hs hd
    simp [exec, execSshareWrite, hs, hd, sshareSet_eq]
  case spring =>
    intro s src n v rsv hs hS hn
    have hup : springUp s = true := by simp [springUp, hS]
    constructor
    · simp [exec, execSdshareWrite, hs, hup, hn, sdshareSet]
    · simp [exec, execSourceTailWrite, hs, hup, hn, tailSet_eq]
  case power =>
    intro s src v hs
    obtain ⟨p, hp, hfields⟩ := pctrlSet_eq s v
    refine ⟨?_, ⟨p, ?_, hfields⟩, ?_⟩
    · simp only [exec, execWctrlWrite, if_pos hs, wctrlSet_eq]
    · simp only [exec, execFreqTargetWrite, if_pos hs, hp]
    · simp only [exec, execRscrubWrite, if_pos hs, rscrubSet_eq]
  case hostMailbox =>
    intro s src v hs
    simp [exec, execHostMailboxWrite, hs, wideSet, mailboxIn, emit]
  case coreMailbox =>
    intro s v hs
    simp only [exec, execCoreMailboxWrite, if_pos hs, raiseKirq_eq]
    rfl
  case security =>
    intro s src on hs
    refine ⟨?_, fun hp => ?_, fun hp => ?_⟩
    · simp [exec, execEndWindow, hs]
    · simp [exec, execJumperIgnoreWrite, hs, jumperIgnoreSet, hp]
    · simp [exec, execJumperIgnoreWrite, hs, jumperIgnoreSet, hp, refuseWrite, satAdd]

/-! ## The register map -/

/-- Where the record does not change, the update count does not. -/
@[simp] theorem capSync_self (s : State) : capSync s s = s := by simp [capSync]

/-- The update count decides no access. -/
theorem Counted.sourceUp_eq {u t : State} (h : Counted u t) (src : Source) : sourceUp t src = sourceUp u src := by
  rw [h]; cases src <;> rfl

/-- BAR4/5 leads to no register of the map. -/
theorem source_ne_hostMsix {s : State} {src : Source} (hs : sourceUp s src = true) : src ≠ .hostMsix := by
  rintro rfl; cases hs

/-- A write through a source that reaches the registers goes to the map, but for a queue register written by another than the
host; the update count follows (R23). -/
theorem exec_registerWrite {s : State} {src : Source} {off : Nat} (size : Nat) (v : DWord) (hs : sourceUp s src = true)
    (hq : src = .host ∨ inQueues off = false) :
    ∃ t, exec (.registerWrite src off size v) s = .next t ∧ Counted (writeBar0 s off size v) t := by
  have hmay : (src == .host || !inQueues off) = true := by rcases hq with rfl | hq <;> simp_all
  refine ⟨_, ?_, capSync_counted s _⟩
  simp [exec, execRegisterWrite, source_ne_hostMsix hs, hs, hmay]

/-- An aligned write of 4 bytes that is no half of an 8-byte register goes to the register at its offset. -/
theorem writeBar0_four {off : Nat} (s : State) (v : DWord) (ha : off % 4 = 0) (h0 : isWide off = false)
    (h4 : isWide (off - 4) = false) : writeBar0 s off 4 v = bar0Write s off (v.setWidth 32) := by
  simp [writeBar0, writeWord, ha, h0, h4]

/-- No queue register and no 8-byte register lies below 0x100. -/
theorem isWide_below {off : Nat} (h : off < 0x100) : isWide off = false := by
  have hq : inQueues off = false := by simp only [inQueues, decide_eq_false_iff_not]; omega
  simp only [isWide, hq, Bool.false_and, Bool.or_false, Bool.or_eq_false_iff, beq_eq_false_iff_ne]
  omega

/-- Nothing below 0x100 is written: the capability record is read-only (R22). -/
theorem bar0Write_below {off : Nat} (s : State) (w : Word) (h : off < 0x100) : bar0Write s off w = s := by
  have hq : ¬ inQueues off = true := by simp only [inQueues, decide_eq_true_eq]; omega
  simp (disch := omega) only [bar0Write, if_neg hq, if_neg]

/-- RSTAT's two flags clear where a one is written (R7). -/
theorem bar0Write_rstat (s : State) (w : Word) : bar0Write s 0xC0000 w = { s with rel := { s.rel with
    overwrote := s.rel.overwrote && !bit w.toNat 1, overflow := s.rel.overflow && !bit w.toNat 0 } } := by
  simp [bar0Write, inQueues, relWrite]

/-- QSTAT's sticky bits clear where a one is written (R7, R29). -/
theorem bar0Write_qstat {q : Nat} (s : State) (w : Word) (hq : q ≤ 64) :
    bar0Write s (0x10000 + 0x40 * q + 0x2C) w = setQueue s q (clearSticky (getQueue s q) w.toNat) := by
  have hin : inQueues (0x10000 + 0x40 * q + 0x2C) = true := by simp only [inQueues, decide_eq_true_eq]; omega
  have hk : 0x10000 + 0x40 * q + 0x2C ≠ 0x120 := by omega
  have hquot : (0x10000 + 0x40 * q + 0x2C - 0x10000) / 0x40 = q := by omega
  have hrem : (0x10000 + 0x40 * q + 0x2C - 0x10000) % 0x40 = 0x2C := by omega
  simp only [bar0Write, if_neg hk, if_pos hin, hquot, hrem]
  rfl

/-- QSTAT and the register before it are no 8-byte registers. -/
theorem isWide_qstat (q : Nat) :
    isWide (0x10000 + 0x40 * q + 0x2C) = false ∧ isWide (0x10000 + 0x40 * q + 0x2C - 4) = false := by
  simp only [isWide, Bool.or_eq_false_iff, Bool.and_eq_false_iff, beq_eq_false_iff_ne]
  omega

/-- The lower half of APBASE waits (R351). -/
theorem writeBar0_apbaseLow (s : State) (lo : Word) : writeBar0 s 0x108 4 (lo.setWidth 64) =
    { s with ctl := { s.ctl with halves := mput s.ctl.halves 0x108 lo } } := by
  simp [writeBar0, writeWord, isWide]

/-- The upper half of APBASE brings both in (R351). -/
theorem writeBar0_apbaseHigh {s : State} {lo : Word} (hi : Word) (hlow : ∀ d, mget d s.ctl.halves 0x108 = lo) :
    writeBar0 s 0x10C 4 (hi.setWidth 64) = { s with ctl := { s.ctl with
      halves := mdel s.ctl.halves 0x108, apbase := BitVec.ofNat 64 (hi.toNat * 2 ^ 32 + lo.toNat) } } := by
  simp [writeBar0, writeWord, isWide, inQueues, wideUpper, wideSet, hlow]

/-- An aligned write of 4 bytes through BAR4/5 (R348) changes at most its word of the MSI-X table. -/
theorem exec_msixWrite {s : State} {off : Nat} (v : DWord) (hs : barsUp s = true) (ha : off % 4 = 0) :
    exec (.registerWrite .hostMsix off 4 v) s = .next (msixPut s off (v.setWidth 32)) := by
  simp [exec, execRegisterWrite, msixWrite, hs, ha]

/-- Settles O26: each place of the map by its rule above; the two halves of APBASE in turn. -/
theorem registerWritesFollowTheirAccessCode : Obligations.RegisterWritesFollowTheirAccessCode := by
  unfold Obligations.RegisterWritesFollowTheirAccessCode
  refine ⟨?record, ?kirq, ?rstat, ?qstat, ?halves, ?whole, ?msix⟩
  case record =>
    intro s src off v hsrc hoff ha
    have hwrite : writeBar0 s off 4 v = s := by
      rw [writeBar0_four s v ha (isWide_below hoff) (isWide_below (by omega)), bar0Write_below s _ hoff]
    simp [exec, execRegisterWrite, hsrc, hwrite]
  case kirq =>
    intro s src v hs
    exact exec_registerWrite (off := 0x120) 4 v hs (.inr rfl)
  case rstat =>
    intro s src v hs
    obtain ⟨t, ht, hc⟩ := exec_registerWrite (off := 0xC0000) 4 v hs (.inr rfl)
    rw [writeBar0_four s v rfl rfl rfl, bar0Write_rstat, BitVec.toNat_setWidth] at hc
    exact ⟨t, ht, hc⟩
  case qstat =>
    intro s q v hq hs
    obtain ⟨t, ht, hc⟩ := exec_registerWrite (src := .host) (off := 0x10000 + 0x40 * q + 0x2C) 4 v hs (.inl rfl)
    obtain ⟨h0, h4⟩ := isWide_qstat q
    rw [writeBar0_four s v (by omega) h0 h4, bar0Write_qstat s _ hq, BitVec.toNat_setWidth] at hc
    exact ⟨t, ht, hc⟩
  case halves =>
    intro s src lo hi hs
    obtain ⟨t, ht, hct⟩ := exec_registerWrite (off := 0x108) 4 (lo.setWidth 64) hs (.inr rfl)
    rw [writeBar0_apbaseLow] at hct
    have hst : sourceUp t src = true := by rw [hct.sourceUp_eq, ← hs]; cases src <;> rfl
    have hlow : ∀ d, mget d t.ctl.halves 0x108 = lo := by intro d; rw [hct]; exact mget_mput_same d _ _ lo
    obtain ⟨u, hu, hcu⟩ := exec_registerWrite (off := 0x10C) 4 (hi.setWidth 64) hst (.inr rfl)
    rw [writeBar0_apbaseHigh hi hlow] at hcu
    have hval : hi.toNat * 2 ^ 32 + lo.toNat < 2 ^ 64 := by have := hi.isLt; have := lo.isLt; omega
    refine ⟨t, u, ht, by rw [hct], hu, ?_, by rw [hcu, hct], by rw [hcu, hct], by rw [hcu, hct]⟩
    rw [hcu]
    exact (BitVec.toNat_ofNat _ _).trans (Nat.mod_eq_of_lt hval)
  case whole =>
    intro s src v hs
    obtain ⟨t, ht, hc⟩ := exec_registerWrite (off := 0x108) 8 v hs (.inr rfl)
    refine ⟨t, ht, ?_⟩
    rw [hc]; rfl
  case msix =>
    intro s off v hs ha
    rw [exec_msixWrite v hs ha]
    exact ⟨fun h => by simp only [msixPut, if_pos h], fun h => by simp only [msixPut, if_neg (Nat.not_lt.mpr h)]⟩

end Sys2Proof.Machine
end

section
/-! The registers of a queue (R29-R32): what a doorbell, QCTRL, RHEAD and QTIMEOUT do, said once for each outcome, and the
statements on them and on reset. -/

namespace Sys2Proof.Machine

/-! ## Reset -/

/-- No address is mapped at reset: every page table is empty. -/
@[simp] theorem Memory.mapped_reset (a : Nat) : Memory.reset.mapped a = false := by
  unfold Memory.mapped
  cases windowOf a with
  | none => rfl
  | some w => simp [Memory.spans, Memory.reset, mhas]

/-- Settles O3: every record reads as its reset record where nothing is listed. -/
theorem resetLeavesTheStatedValues : Obligations.ResetLeavesTheStatedValues := by
  unfold Obligations.ResetLeavesTheStatedValues
  refine ⟨?memory, rfl, rfl, rfl, rfl, Memory.mapped_reset, ?queues, ?registers, ?counters, rfl, ?tags, rfl, rfl, ?streams,
    ?dies, ?ports, rfl, rfl, ?ingest, rfl, rfl, rfl, rfl, rfl, rfl, rfl, rfl⟩
  case memory => exact Memory.wf_reset
  case queues => exact fun _ => rfl
  case registers => exact fun _ => ⟨rfl, rfl, rfl⟩
  case counters => exact fun _ => rfl
  case tags => exact fun _ => ⟨rfl, rfl⟩
  case streams => exact fun _ => rfl
  case dies => exact fun _ => rfl
  case ports => exact fun _ => ⟨rfl, rfl, rfl⟩
  case ingest => exact fun _ => rfl

/-! ## Doorbell (R31) -/

/-- A doorbell passes its test where the size is valid and the tail lies at most one ring ahead of QHEAD. -/
theorem doorbellOk_iff (v : Queue) (n : Nat) (w : Word) :
    doorbellOk v n w = true ↔ 6 ≤ n ∧ n ≤ 16 ∧ (w - v.qhead).toNat ≤ 2 ^ n := by
  simp [doorbellOk, sizeOk, and_assoc]

/-- The size that a doorbell is held against. -/
def Queue.sizeInForce (v : Queue) : Nat := bits (if v.enable then v.sQcfg else v.qcfg).toNat 4 0

/-- The three outcomes of a doorbell. -/
theorem ringDoorbell_eq (s : State) (q : Nat) (w : Word) : ringDoorbell s q w =
    if w = (getQueue s q).qtail then s
    else if doorbellOk (getQueue s q) (getQueue s q).sizeInForce w then setQueue s q { getQueue s q with qtail := w }
    else setQueue s q { getQueue s q with overrun := true } := rfl

/-- A doorbell through a host interface that is up. -/
theorem exec_queueDoorbell {s : State} {q : Nat} (w : Word) (hq : q ≤ 64) (hs : barsUp s = true) :
    exec (.queueDoorbell q w) s = .next (ringDoorbell s q w) := by
  simp [exec, execQueueDoorbell, hq, hs]

/-- Settles O9: the doorbell's test decides between the tail and overrun. -/
theorem doorbellTakenOrOverrun : Obligations.DoorbellTakenOrOverrun := by
  unfold Obligations.DoorbellTakenOrOverrun
  intro s q w n hq hs hn
  have hsize : (getQueue s q).sizeInForce = n := hn.symm
  rw [exec_queueDoorbell w hq hs, ringDoorbell_eq, hsize]
  refine ⟨fun hsame => by rw [if_pos hsame], fun hnew h6 h16 hahead => ?_, fun hnew hbad => ?_⟩
  · rw [if_neg hnew, if_pos ((doorbellOk_iff _ n w).mpr ⟨h6, h16, hahead⟩)]
  · have hfails : ¬ doorbellOk (getQueue s q) n w = true := by rw [doorbellOk_iff]; omega
    rw [if_neg hnew, if_neg hfails]

/-! ## QCTRL, RHEAD and QTIMEOUT (R29, R30, R32) -/

/-- A ring's base is not zero where the register reaches the first bit that counts. -/
theorem ringBase_ne_zero_iff (b : DWord) : (ringBase b != 0) = true ↔ 4096 ≤ b.toNat := by
  simp only [ringBase, bne_iff_ne, ne_eq]
  omega

/-- An enable is accepted where the tail passes the doorbell's test and each ring in host memory has a base. -/
theorem enableOk_iff (v : Queue) : enableOk v = true ↔
    doorbellOk v (bits v.qcfg.toNat 4 0) v.qtail = true ∧ (bit v.qcfg.toNat 31 = true ∨ 4096 ≤ v.qbase.toNat) ∧
      (bit v.qcfg.toNat 30 = true ∨ 4096 ≤ v.rbase.toNat) := by
  simp only [enableOk, sizeLog2, Bool.and_eq_true, Bool.or_eq_true, ringBase_ne_zero_iff, and_assoc]

/-- An enable of a queue that is off. -/
theorem exec_queueEnable {s : State} {q : Nat} (hq : q ≤ 64) (hs : barsUp s = true) (hoff : (getQueue s q).enable = false) :
    exec (.queueEnable q) s = .next (if enableOk (getQueue s q) then setQueue s q { getQueue s q with
        enable := true, sQbase := (getQueue s q).qbase, sQcfg := (getQueue s q).qcfg, sRbase := (getQueue s q).rbase }
      else setQueue s q { getQueue s q with cfgError := true }) := by
  simp [exec, execQueueEnable, enableQueue, hq, hs, hoff]

/-- A disable goes through where nothing of the queue is dispatched and uncommitted. -/
theorem exec_queueDisable {s : State} {q : Nat} (hq : q ≤ 64) (hs : barsUp s = true) :
    exec (.queueDisable q) s =
      .next (if dispatchedOf s q = 0 then setQueue s q { getQueue s q with enable := false } else s) := by
  simp [exec, execQueueDisable, disableQueue, hq, hs]

/-- Where no command is in flight none has waited for the step verdict. -/
theorem expireUpdate_of_nil {s : State} (q : Nat) (h : s.cmds = []) : expireUpdate s q = s := by
  simp [expireUpdate, lateUpdate, h]

/-- Settles O10: each register's own rule; QTIMEOUT finds no command to test. -/
theorem queueControlTakesEffect : Obligations.QueueControlTakesEffect := by
  unfold Obligations.QueueControlTakesEffect
  refine ⟨?enabled, ?refused, ?disabled, ?busy, ?pause, ?rhead, ?qtimeout⟩
  case enabled =>
    intro s q hq hs hoff h6 h16 hahead hbase hrbase
    have hok : enableOk (getQueue s q) = true :=
      (enableOk_iff _).mpr ⟨(doorbellOk_iff _ _ _).mpr ⟨h6, h16, hahead⟩, hbase, hrbase⟩
    rw [exec_queueEnable hq hs hoff, if_pos hok]
  case refused =>
    intro s q hq hs hoff hbad
    have hfails : ¬ enableOk (getQueue s q) = true := by
      rw [enableOk_iff, doorbellOk_iff]
      rintro ⟨⟨h6, h16, hahead⟩, hbase, hrbase⟩
      rcases hbad with h | h | h | ⟨hh, hb⟩ | ⟨hh, hb⟩
      · omega
      · omega
      · omega
      · exact hbase.elim (by simp [hh]) (by omega)
      · exact hrbase.elim (by simp [hh]) (by omega)
    rw [exec_queueEnable hq hs hoff, if_neg hfails]
  case disabled =>
    intro s q hq hs hidle
    rw [exec_queueDisable hq hs, if_pos hidle]
  case busy =>
    intro s q hq hs hbusy
    rw [exec_queueDisable hq hs, if_neg hbusy]
  case pause =>
    intro s q on hq hs
    simp [exec, execQueuePause, pauseQueue, hq, hs]
  case rhead =>
    intro s q w hq hs
    simp [exec, execRheadUpdate, setRhead, hq, hs]
  case qtimeout =>
    intro s q w hq hs hnone
    simp [exec, execQtimeoutWrite, setTimeout, retestWaits, expireUpdate_of_nil, hq, hs, hnone]

end Sys2Proof.Machine
end

section
/-! Replies (R32, R44, R430) and the sectors behind them (R238-R241): what an access to a sector may change, what a reply
writes, and the statement on replies. -/

namespace Sys2Proof.Machine

/-! ## Bytes -/

/-- A number laid into `n` bytes has `n` bytes. -/
@[simp] theorem length_toLe (n v : Nat) : (toLe n v).length = n := by
  induction n generalizing v with
  | zero => rfl
  | succ n ih => simp [toLe, ih]

/-- A read of `n` bytes gives `n` bytes. -/
@[simp] theorem Memory.length_readN (m : Memory) (a n : Nat) : (m.readN a n).length = n := by simp [Memory.readN]

/-- A read is a list of bytes where each byte of it is. -/
theorem Memory.readN_eq (m : Memory) (a : Nat) (b : Bytes) (h : ∀ i, i < b.length → m.read (a + i) = b.getD i 0) :
    m.readN a b.length = b := by
  refine List.ext_getElem (by simp) fun i hi hb => ?_
  simp only [Memory.readN, List.getElem_map, List.getElem_range]
  rw [h i hb, List.getD_eq_getElem b 0 hb]

/-- A write reads back where no command in flight claims it. -/
theorem Memory.readN_write (m : Memory) (a : Nat) (b : Bytes) (h : m.wf = true)
    (hc : ∀ x, a ≤ x → x < a + b.length → claimAt m.claims x = none) : (m.write a b).readN a b.length = b := by
  refine Memory.readN_eq _ a b fun i hi => ?_
  rw [Memory.read_write_inside m a (a + i) b h (hc _ (by omega) (by omega)) (by omega), Nat.add_sub_cancel_left]

/-! ## What an access to a sector may change (R238-R241) -/

/-- An entry in the error log. -/
theorem logAdd_frame (s : State) (kind level die unit fl st dt cause : Nat) (info : Bytes) :
    StackFrame s (logAdd s kind level die unit fl st dt cause info) := by
  unfold logAdd StackFrame
  dsimp only
  split
  · split <;> rfl
  · rfl

/-- A row that becomes failing. -/
theorem rowFails_frame (s : State) (n f row bank : Nat) : StackFrame s (rowFails s n f row bank) := by
  unfold rowFails
  dsimp only
  have hlogged := fun k i => (setStackS_frame s n k).trans (logNote_frame _ 0x11 (8 + n) f i)
  split
  · exact .refl _
  · split
    · split
      · exact hlogged _ _
      · exact (hlogged _ _).trans (repairRow_frame _ _ _)
    · exact (hlogged _ _).trans (markFrame_frame _ _ _)

/-- An error against a row. -/
theorem rowError_frame (s : State) (n f row bank : Nat) : StackFrame s (rowError s n f row bank) := by
  unfold rowError
  dsimp only
  split
  · exact (setStackS_frame _ _ _).trans (rowFails_frame _ _ _ _ _)
  · exact setStackS_frame _ _ _

/-- The memory once a read with outcome `k` has counted (R238, R239). -/
def Memory.counting (m : Memory) : Sector → Memory
  | .clean => m
  | .corrected => { m with mcorr := satAdd 64 m.mcorr 1 }
  | .retried => { m with mretryok := satAdd 32 m.mretryok 1 }
  | .uncorrectable => { m with muncor := satAdd 32 m.muncor 1 }

/-- A sector that is clean counts nowhere. -/
@[simp] theorem Memory.counting_clean (m : Memory) : m.counting .clean = m := rfl

/-- Counting a read changes no byte. -/
@[simp] theorem Memory.read_counting (m : Memory) (k : Sector) (a : Nat) : (m.counting k).read a = m.read a := by cases k <;> rfl

@[simp] theorem Memory.cells_counting (m : Memory) (k : Sector) : (m.counting k).cells = m.cells := by cases k <;> rfl

@[simp] theorem Memory.claims_counting (m : Memory) (k : Sector) : (m.counting k).claims = m.claims := by cases k <;> rfl

@[simp] theorem Memory.wf_counting (m : Memory) (k : Sector) : (m.counting k).wf = m.wf := by cases k <;> rfl

/-- A read of a sector counts; beyond that it touches stacks, repairs and the error log alone. -/
theorem sectorRead_frame (s : State) (n f o : Nat) (k : Sector) (scrub : Bool) (st dt : Nat) :
    StackFrame { s with mem := s.mem.counting k } (sectorRead s n f o k scrub st dt) := by
  cases k with
  | clean => exact .refl _
  | corrected => exact rowError_frame _ _ _ _ _
  | retried => exact rowError_frame _ _ _ _ _
  | uncorrectable => exact (logAdd_frame _ _ _ _ _ _ _ _ _ _).trans (rowFails_frame _ _ _ _ _)

section
variable {s t : State} (h : StackFrame s t)
include h

theorem StackFrame.read_eq (a : Nat) : t.mem.read a = s.mem.read a := by rw [h]; rfl

theorem StackFrame.cells_eq : t.mem.cells = s.mem.cells := by rw [h]

theorem StackFrame.claims_eq : t.mem.claims = s.mem.claims := by rw [h]

theorem StackFrame.wf_eq : t.mem.wf = s.mem.wf := by rw [h]; rfl

theorem StackFrame.queues_eq : t.queues = s.queues := by rw [h]

theorem StackFrame.cmds_eq : t.cmds = s.cmds := by rw [h]

theorem StackFrame.out_eq : t.out = s.out := by rw [h]

theorem StackFrame.getQueue_eq (q : Nat) : getQueue t q = getQueue s q := by rw [getQueue, h.queues_eq]; rfl

end

/-- Where an access of the module's own falls: at a sector, which counts, or nowhere. -/
theorem sectorOutcome_frame (s : State) (a : Nat) (k : Sector) (seen : Bool) :
    StackFrame { s with mem := if (s.mem.place a).isSome then s.mem.counting k else s.mem } (sectorOutcome s a k seen) := by
  unfold sectorOutcome
  cases s.mem.place a with
  | none => exact .refl _
  | some p => exact sectorRead_frame _ _ _ _ _ _ _ _

/-- A sector that is clean leaves everything. -/
@[simp] theorem sectorOutcome_clean (s : State) (a : Nat) (seen : Bool) : sectorOutcome s a .clean seen = s := by
  unfold sectorOutcome
  cases s.mem.place a <;> rfl

section
variable (s : State) (a : Nat) (k : Sector) (seen : Bool)

@[simp] theorem sectorOutcome_read (x : Nat) : (sectorOutcome s a k seen).mem.read x = s.mem.read x := by
  rw [(sectorOutcome_frame s a k seen).read_eq]; dsimp only; split <;> simp

@[simp] theorem sectorOutcome_cells : (sectorOutcome s a k seen).mem.cells = s.mem.cells := by
  rw [(sectorOutcome_frame s a k seen).cells_eq]; dsimp only; split <;> simp

@[simp] theorem sectorOutcome_claims : (sectorOutcome s a k seen).mem.claims = s.mem.claims := by
  rw [(sectorOutcome_frame s a k seen).claims_eq]; dsimp only; split <;> simp

@[simp] theorem sectorOutcome_memWf : (sectorOutcome s a k seen).mem.wf = s.mem.wf := by
  rw [(sectorOutcome_frame s a k seen).wf_eq]; dsimp only; split <;> simp

@[simp] theorem sectorOutcome_cmds : (sectorOutcome s a k seen).cmds = s.cmds := (sectorOutcome_frame s a k seen).cmds_eq

@[simp] theorem sectorOutcome_out : (sectorOutcome s a k seen).out = s.out := (sectorOutcome_frame s a k seen).out_eq

@[simp] theorem sectorOutcome_getQueue (q : Nat) : getQueue (sectorOutcome s a k seen) q = getQueue s q :=
  (sectorOutcome_frame s a k seen).getQueue_eq q

end

/-! ## The update count decides nothing else -/

section
variable {u t : State} (h : Counted u t)
include h

theorem Counted.mem_eq : t.mem = u.mem := by rw [h]

theorem Counted.out_eq : t.out = u.out := by rw [h]

theorem Counted.queues_eq : t.queues = u.queues := by rw [h]

theorem Counted.cmds_eq : t.cmds = u.cmds := by rw [h]

theorem Counted.counters_eq : t.counters = u.counters := by rw [h]

theorem Counted.getQueue_eq (q : Nat) : getQueue t q = getQueue u q := by rw [getQueue, h.queues_eq]; rfl

theorem Counted.findCmd_eq (n : Nat) : findCmd t n = findCmd u n := by rw [findCmd, h.cmds_eq]; rfl

end

/-! ## Replies -/

/-- A reply has 32 bytes (R44). -/
@[simp] theorem length_replyBytes (v : Queue) (q : Nat) (r : Reply) : (replyBytes v q r).length = 32 := by simp [replyBytes]

/-- The queue once its oldest reply has gone. -/
def Queue.replied (v : Queue) (rest : List Reply) : Queue := { v with rtail := v.rtail + 1, replies := rest, heldReply := false }

/-- Where the reply was written RTAIL advances. -/
@[simp] theorem writeReply_getQueue (s : State) (q : Nat) (r : Reply) (rest : List Reply) :
    getQueue (writeReply s q r rest) q = (getQueue s q).replied rest := by
  unfold writeReply
  dsimp only
  split
  · exact getQueue_setQueue_same _ _ _
  · exact getQueue_setQueue_same _ _ _

/-- A reply into HBM writes its slot. -/
theorem writeReply_mem_hbm {s : State} {q : Nat} (r : Reply) (rest : List Reply) (hb : bit (getQueue s q).sQcfg.toNat 30 = true) :
    (writeReply s q r rest).mem = s.mem.write (getQueue s q).replyAddr (replyBytes (getQueue s q) q r) := by
  unfold writeReply
  simp only [hb, if_true]
  split <;> simp [setQueue]

/-- A reply into host memory leaves the module, before its interrupt (R352). -/
theorem writeReply_host {s : State} {q : Nat} (r : Reply) (rest : List Reply) (hb : bit (getQueue s q).sQcfg.toNat 30 = false)
    (hl : s.ctl.linkUp = true) :
    (writeReply s q r rest).mem = s.mem ∧
    (writeReply s q r rest).out = s.out ++ [.hostWrite (getQueue s q).replyAddr (replyBytes (getQueue s q) q r)] ++
      (if r.irq then [.msix (bits (getQueue s q).sQcfg.toNat 25 16)] else []) := by
  cases hirq : r.irq <;> simp [writeReply, hb, hl, hirq, setQueue]

/-- A reply tried into host memory while the link is up. -/
theorem tryReply_host {s : State} {q : Nat} {r : Reply} {rest : List Reply} (hbm : Sector)
    (hr : (getQueue s q).replies = r :: rest) (hb : bit (getQueue s q).sQcfg.toNat 30 = false) (hl : s.ctl.linkUp = true) :
    tryReply s q hbm = writeReply s q r rest := by
  simp [tryReply, hr, hb, hl]

/-- A reply tried into HBM whose sector takes it. -/
theorem tryReply_hbm {s : State} {q : Nat} {hbm : Sector} {r : Reply} {rest : List Reply}
    (hr : (getQueue s q).replies = r :: rest) (hb : bit (getQueue s q).sQcfg.toNat 30 = true) (hk : hbm ≠ .uncorrectable) :
    tryReply s q hbm = writeReply (sectorOutcome s (getQueue s q).replyAddr hbm false) q r rest := by
  cases hbm <;> simp_all [tryReply]

/-- A reply tried into HBM whose sector stays uncorrectable is held (R430). -/
theorem tryReply_held {s : State} {q : Nat} {r : Reply} {rest : List Reply}
    (hr : (getQueue s q).replies = r :: rest) (hb : bit (getQueue s q).sQcfg.toNat 30 = true) :
    tryReply s q .uncorrectable =
      setQueue (sectorOutcome s (getQueue s q).replyAddr .uncorrectable false) q { getQueue s q with heldReply := true } := by
  simp [tryReply, hr, hb]

/-- A reply that its slot in HBM takes reads back there; every byte beside the slot is as before. -/
theorem tryReply_hbm_reads {s t : State} {q : Nat} {hbm : Sector} {r : Reply} {rest : List Reply} {a : Nat} (hsafe : Safe s)
    (hr : (getQueue s q).replies = r :: rest) (hb : bit (getQueue s q).sQcfg.toNat 30 = true) (hk : hbm ≠ .uncorrectable)
    (ha : a = (getQueue s q).replyAddr) (hfree : ∀ x, a ≤ x → x < a + 32 → claimAt s.mem.claims x = none)
    (ht : Counted (tryReply s q hbm) t) :
    t.mem.readN a 32 = replyBytes (getQueue s q) q r ∧
      (∀ x, x < a ∨ a + 32 ≤ x → t.mem.read x = s.mem.read x) ∧ getQueue t q = (getQueue s q).replied rest := by
  rw [tryReply_hbm hr hb hk] at ht
  have hmem : t.mem = (sectorOutcome s a hbm false).mem.write a (replyBytes (getQueue s q) q r) := by
    rw [ht.mem_eq, writeReply_mem_hbm r rest (by simpa using hb)]
    simp [ha]
  have hwf : (sectorOutcome s a hbm false).mem.wf = true := by simpa using hsafe
  refine ⟨?_, fun x hx => ?_, ?_⟩
  · have hread := Memory.readN_write _ a (replyBytes (getQueue s q) q r) hwf (by simpa using hfree)
    rwa [← hmem, length_replyBytes] at hread
  · rw [hmem, Memory.read_write_outside _ _ _ _ hwf (by simpa using hx), sectorOutcome_read]
  · rw [ht.getQueue_eq, writeReply_getQueue, sectorOutcome_getQueue]

/-- REPLY_WRITE with a free slot and K's main clock. -/
theorem exec_replyWrite {s : State} {q : Nat} (hbm : Sector) (hq : q ≤ 64) (hfull : ringFull s q = false)
    (hclk : s.ctl.noMainClock = false) : exec (.replyWrite q hbm) s = .next (capSync s (tryReply s q hbm)) := by
  simp [exec, execReplyWrite, hq, hfull, hclk]

/-- REPLY_RETRY of a held reply. -/
theorem exec_replyRetry {s : State} {q : Nat} (hbm : Sector) (hq : q ≤ 64) (hheld : (getQueue s q).heldReply = true)
    (hclk : s.ctl.noMainClock = false) (hm : s.mem.mappedRange (getQueue s q).replyAddr 32 = true) :
    exec (.replyRetry q hbm) s = .next (capSync s (tryReply s q hbm)) := by
  simp [exec, execReplyRetry, hq, hheld, hclk, hm]

/-- Settles O14: the slot's write by the sector's outcome, the same for the first try and for the retry. -/
theorem replyGoesToItsSlot : Obligations.ReplyGoesToItsSlot := by
  unfold Obligations.ReplyGoesToItsSlot
  refine ⟨?host, ?hbm, ?full, ?held, ?retry⟩
  case host =>
    intro s q hbm r rest hq hfull hclk hb hl hr
    obtain ⟨hmem, hout⟩ := writeReply_host r rest hb hl
    have ht := capSync_counted s (writeReply s q r rest)
    refine ⟨_, by rw [exec_replyWrite hbm hq hfull hclk, tryReply_host hbm hr hb hl], ?_, ?_, ?_⟩
    · rw [ht.out_eq, hout]; rfl
    · rw [ht.getQueue_eq, writeReply_getQueue]; rfl
    · rw [ht.mem_eq, hmem]
  case hbm =>
    intro s q hbm r rest a hsafe hq hfull hclk hb hr ha hk hfree
    exact ⟨_, exec_replyWrite hbm hq hfull hclk, tryReply_hbm_reads hsafe hr hb hk ha hfree (capSync_counted s _)⟩
  case full =>
    intro s q hbm hq hfull
    simp [exec, execReplyWrite, hq, hfull]
  case held =>
    intro s q r rest hq hfull hclk hb hr
    have ht := capSync_counted s (tryReply s q .uncorrectable)
    refine ⟨_, exec_replyWrite .uncorrectable hq hfull hclk, ?_, ?_, ?_⟩
    · rw [ht.getQueue_eq, tryReply_held hr hb, getQueue_setQueue_same]
    · rw [ht.mem_eq, tryReply_held hr hb]; simp [setQueue]
    · rw [ht.out_eq, tryReply_held hr hb]; simp
  case retry =>
    intro s q hbm r rest a hsafe hq hheld hclk hb hr ha hm hk hfree
    have hmapped : s.mem.mappedRange (getQueue s q).replyAddr 32 = true := by rw [← hm, ha]; rfl
    exact ⟨_, exec_replyRetry hbm hq hheld hclk hmapped, tryReply_hbm_reads hsafe hr hb hk ha hfree (capSync_counted s _)⟩

end Sys2Proof.Machine
end

section
/-! Rows of work (R48, R97, R110, R193): what a row that runs its opcode's work under its checks does, said once for all of
them, and the statements on the compute rows and on the bulk moves (R202, R217, R226, R355). -/

namespace Sys2Proof.Machine

/-! ## The work of a row -/

/-- Work that fails ends its command, its reads counted (R223, R227). -/
theorem applyRun_ended (s : State) (c : Cmd) (r : Run) (hr : signals r.result.status = false) :
    ∃ z, Ended { s with compute := { s.compute with zips := z } } (applyRun s c r) c (r.result.status, r.result.detail)
      r.result.work := by
  obtain ⟨z, hz⟩ := countZips_zips r.zip s
  cases hd : r.damage with
  | none =>
    refine ⟨z, ?_⟩
    simp only [applyRun, finishWork, hd, hr, hz]
    exact complete_ended _ _ _ _
  | some d =>
    obtain ⟨y, hy⟩ := countDamage_zips (countZips s r.zip) d
    refine ⟨y, ?_⟩
    simp only [applyRun, finishWork, hd, hr, hy]
    rw [hz]
    exact complete_ended _ _ _ _

/-- A check that fails ends the command (R110). -/
theorem applyRun_fail (s : State) (c : Cmd) (e : Err) (he : signals e.1 = false) : applyRun s c (Run.fail e) = complete s c e 0 := by
  simp [applyRun, Run.fail, Run.plain, failed, countZips, finishWork, he]

/-- A command that waits for a Mere is not in work. -/
theorem working_none {s : State} {cid op : Nat} {c : Cmd} (h : Dispatched s cid op c) (hm : hasMeres s c = false) :
    working s cid [op] = none := by
  simp [working, h.1, hm]

/-- A command in work runs under its checks, as it reads the memory itself. -/
theorem onRun_running {s : State} {cid op : Nat} {c : Cmd} {issue : State → Cmd → Option Err} {run : State → Cmd → Run}
    (h : Running s cid op c) :
    onRun s cid [op] issue run = applyRun s c (checked (issue (ownView s cid) c) (run (ownView s cid) c)) := by
  rw [onRun, onWork_some (working_of h)]

/-- A command of an opcode that needs no Mere is running from its dispatch on. -/
theorem Dispatched.running {s : State} {cid op : Nat} {c : Cmd} (h : Dispatched s cid op c) (ho : onMeres op = false) :
    Running s cid op c := ⟨h, hasMeres_of_off s (h.2.2 ▸ ho)⟩

/-- The command found under its own number. -/
theorem Dispatched.find_self {s : State} {cid op : Nat} {c : Cmd} (h : Dispatched s cid op c) : findCmd s c.cid = some c := by
  rw [findCmd_cid h.1]; exact h.1

/-- With the checks passed and a status that signals, the result waits for the commit. -/
theorem onRun_executed {s : State} {cid op : Nat} {c : Cmd} {issue : State → Cmd → Option Err} {run : State → Cmd → Run}
    (h : Running s cid op c) (hi : issue (ownView s cid) c = none)
    (hr : signals (run (ownView s cid) c).result.status = true) :
    Executed s (onRun s cid [op] issue run) c (run (ownView s cid) c).result := by
  rw [onRun_running h, hi]
  exact applyRun_executed _ _ _ h.1.find_self hr

/-- With the checks passed and a status that does not signal, the command ends with it. -/
theorem onRun_ended {s : State} {cid op : Nat} {c : Cmd} {issue : State → Cmd → Option Err} {run : State → Cmd → Run}
    (h : Running s cid op c) (hi : issue (ownView s cid) c = none)
    (hr : signals (run (ownView s cid) c).result.status = false) :
    ∃ z, Ended { s with compute := { s.compute with zips := z } } (onRun s cid [op] issue run) c
      ((run (ownView s cid) c).result.status, (run (ownView s cid) c).result.detail) (run (ownView s cid) c).result.work := by
  rw [onRun_running h, hi]
  exact applyRun_ended _ _ _ hr

/-- A check that fails ends the command with its status. -/
theorem onRun_checked {s : State} {cid op : Nat} {c : Cmd} {issue : State → Cmd → Option Err} {run : State → Cmd → Run} {e : Err}
    (h : Running s cid op c) (hi : issue (ownView s cid) c = some e) (he : signals e.1 = false) :
    Ended s (onRun s cid [op] issue run) c e 0 := by
  rw [onRun_running h, hi]
  exact applyRun_fail s c e he ▸ complete_ended s c e 0

/-- A row that is `onRun` of its opcode does its work. -/
theorem doesWork_of_onRun {i : Nat → Instr} {op : Nat} {issue : State → Cmd → Option Err} {run : State → Cmd → Run}
    (hexec : ∀ cid s, exec (i cid) s = .next (onRun s cid [op] issue run)) : DoesWork i op issue run := by
  rintro s cid c r rfl
  refine ⟨fun hrun hi hr => ?_, fun hrun hi hr => ?_, fun e hrun hi he => ?_, fun hd hm => ?_⟩
  · exact ⟨_, hexec cid s, onRun_executed hrun hi hr⟩
  · obtain ⟨z, hz⟩ := onRun_ended hrun hi hr
    exact ⟨_, z, hexec cid s, hz⟩
  · exact ⟨_, hexec cid s, onRun_checked hrun hi he⟩
  · rw [hexec, onRun, onWork_none (working_none hd hm)]

/-- Settles O15: each of the seven rows is `onRun` of its opcode. -/
theorem computeCommandsReachTheirCommit : Obligations.ComputeCommandsReachTheirCommit := by
  unfold Obligations.ComputeCommandsReachTheirCommit
  exact ⟨doesWork_of_onRun fun _ _ => rfl, doesWork_of_onRun fun _ _ => rfl, doesWork_of_onRun fun _ _ => rfl,
    doesWork_of_onRun fun _ _ => rfl, doesWork_of_onRun fun _ _ => rfl, doesWork_of_onRun fun _ _ => rfl,
    doesWork_of_onRun fun _ _ => rfl⟩

/-! ## COPY and HOST_COPY (R202, R355) -/

/-- The whole of a list of bytes. -/
theorem slice_whole {b : Bytes} {n : Nat} (h : b.length = n) : slice b 0 n = b := by
  subst h
  simp [slice]

/-- COPY of at least one byte writes its rows. -/
theorem copyRun_rows (v : State) (c : Cmd) (hr : c.arg 0x14 4 ≠ 0) (hl : c.arg 0x28 4 ≠ 0) :
    (copyRun v c).result = succeeded (c.arg 0x14 4 * c.arg 0x28 4 / 1024) ((List.range (c.arg 0x14 4)).map (fun r =>
      .write ((readDesc v (c.arg 0x12 2)).home + c.arg 0x20 8 + r * c.arg 0x30 4)
        (v.mem.readN ((readDesc v (c.arg 0x10 2)).home + c.arg 0x18 8 + r * c.arg 0x2C 4) (c.arg 0x28 4)))) := by
  unfold copyRun
  rw [if_neg (not_or.mpr ⟨hr, hl⟩)]
  rfl

/-- COPY of no byte. -/
theorem copyRun_empty (v : State) (c : Cmd) (h : c.arg 0x14 4 = 0 ∨ c.arg 0x28 4 = 0) : (copyRun v c).result = zeroExtent := by
  unfold copyRun
  rw [if_pos h]
  rfl

/-- HOST_COPY of no byte. -/
theorem hostCopyRun_empty (v : State) (c : Cmd) (host : HostRead) (h : c.arg 0x28 8 = 0) :
    (hostCopyRun v c host).result = zeroExtent := by
  unfold hostCopyRun
  rw [if_pos h]
  rfl

/-- HOST_COPY whose host does not answer. -/
theorem hostCopyRun_failed (v : State) (c : Cmd) (h : c.arg 0x28 8 ≠ 0) :
    hostCopyRun v c .failed = Run.fail (badParam 0x10 2) := by
  unfold hostCopyRun
  rw [if_neg h]

/-- HOST_COPY into device memory. -/
theorem hostCopyRun_in (v : State) (c : Cmd) {b : Bytes} (h : c.arg 0x28 8 ≠ 0) (hdir : c.arg 0x1A 1 = 0)
    (hb : b.length = c.arg 0x28 8) : (hostCopyRun v c (.data b)).result =
      succeeded (c.arg 0x28 8 / 1024) [.write ((readDesc v (c.arg 0x18 2)).home + c.arg 0x20 8) b] := by
  unfold hostCopyRun
  rw [if_neg h]
  simp only [if_pos hdir, slice_whole hb]
  rfl

/-- HOST_COPY out of device memory. -/
theorem hostCopyRun_out (v : State) (c : Cmd) (b : Bytes) (h : c.arg 0x28 8 ≠ 0) (hdir : c.arg 0x1A 1 = 1) :
    (hostCopyRun v c (.data b)).result = succeeded (c.arg 0x28 8 / 1024)
      [.host (c.arg 0x10 8) (v.mem.readN ((readDesc v (c.arg 0x18 2)).home + c.arg 0x20 8) (c.arg 0x28 8))] := by
  unfold hostCopyRun
  rw [if_neg h]
  simp only [hdir, Nat.one_ne_zero, if_false]
  rfl

/-! ## COMPRESS (R217-R219) -/

section
variable (v : State) (c : Cmd) (z : Map Zip)

/-- A descriptor is not read from the compression registers. -/
theorem readDesc_zips (n : Nat) : readDesc { v with compute := { v.compute with zips := z } } n = readDesc v n := rfl

/-- COMPRESS reads nothing of the compression registers. -/
theorem compressIssue_zips : compressIssue { v with compute := { v.compute with zips := z } } c = compressIssue v c := by
  unfold compressIssue
  rw [readDesc_zips v z (c.arg 0x10 2), readDesc_zips v z (c.arg 0x12 2)]
  rfl

theorem compressZip_zips : compressZip { v with compute := { v.compute with zips := z } } c = compressZip v c := by
  unfold compressZip
  rfl

theorem spillShort_zips : spillShort { v with compute := { v.compute with zips := z } } c = spillShort v c := by
  unfold spillShort
  rw [compressZip_zips v c z]

theorem compressRun_zips : compressRun { v with compute := { v.compute with zips := z } } c = compressRun v c := by
  unfold compressRun
  rw [spillShort_zips v c z, compressZip_zips v c z, readDesc_zips v z (c.arg 0x10 2), readDesc_zips v z (c.arg 0x12 2)]

end

/-- A quotient rounded up. -/
theorem ceilDiv_eq (n : Nat) {d : Nat} (hd : 0 < d) : ceilDiv n d = (n + (d - 1)) / d := by
  rw [ceilDiv, if_neg (Nat.ne_of_gt hd), Nat.add_sub_assoc hd]

/-- GiB, rounded up. -/
theorem gib_eq (n : Nat) : gib n = (n + 0x3FFFFFFF) / 0x40000000 := ceilDiv_eq n (by decide)

/-- A pass that ends short of slots counts in the compression registers alone (R218, R227). -/
theorem countShort_zips (s : State) (c : Cmd) : ∃ z, countShort s c = { s with compute := { s.compute with zips := z } } := by
  unfold countShort
  dsimp only
  split
  · exact ⟨_, rfl⟩
  · exact ⟨s.compute.zips, rfl⟩

/-- A COMPRESS that fails a check has made no pass. -/
theorem countShort_checked {s : State} {c : Cmd} {e : Err} (h : compressIssue (ownView s c.cid) c = some e) :
    countShort s c = s := by
  simp [countShort, h]

/-- COMPRESS that wants more slots than it has ends short of them (R219). -/
theorem compressRun_short (v : State) (c : Cmd) (hraw : (readDesc v (c.arg 0x10 2)).rawBytes ≠ 0) (h : 0 < spillShort v c) :
    compressRun v c = Run.fail (capacityShort 2 ((spillShort v c * 4096 + 0x3FFFFFFF) / 0x40000000)) := by
  unfold compressRun
  simp only [if_neg hraw, if_pos h, gib_eq]

/-- COMPRESS on a command in work: the counts of a short pass, then its work as any other row's. -/
theorem exec_compress {s : State} {cid : Nat} {c : Cmd} (h : Running s cid 0x0204 c) :
    exec (.compress cid) s = .next (onRun (countShort s c) cid [0x0204] compressIssue compressRun) := by
  simp [exec, execCompress, working_of h]

/-- COMPRESS does its work: the registers that a short pass counts in are none of its operands. -/
theorem doesWork_compress : DoesWork .compress 0x0204 compressIssue compressRun := by
  rintro s cid c r rfl
  have hoff : onMeres 0x0204 = false := rfl
  have hissue (z : Map Zip) := compressIssue_zips (ownView s cid) c z
  have hrunz (z : Map Zip) := compressRun_zips (ownView s cid) c z
  obtain ⟨z, hz⟩ := countShort_zips s c
  refine ⟨fun hrun hi hr => ?_, fun hrun hi hr => ?_, fun e hrun hi he => ?_, fun hd hm => ?_⟩
  · have hrun' : Running { s with compute := { s.compute with zips := z } } cid 0x0204 c := hrun
    have hex := onRun_executed hrun' ((hissue z).trans hi) ((hrunz z).symm ▸ hr)
    refine ⟨_, exec_compress hrun, ?_⟩
    rw [hz]
    exact .ofZips ⟨z, rfl⟩ (hrunz z ▸ hex)
  · have hrun' : Running { s with compute := { s.compute with zips := z } } cid 0x0204 c := hrun
    obtain ⟨y, hy⟩ := onRun_ended hrun' ((hissue z).trans hi) ((hrunz z).symm ▸ hr)
    refine ⟨_, y, exec_compress hrun, ?_⟩
    rw [hz]
    exact hrunz z ▸ hy
  · have hcid := findCmd_cid hrun.1.1
    refine ⟨_, exec_compress hrun, ?_⟩
    rw [countShort_checked (hcid ▸ hi)]
    exact onRun_checked hrun hi he
  · exact absurd (hd.running hoff).2 (by simp [hm])

/-- Settles O18: each move's run by its own rule above, under the rule of the rows of work. -/
theorem movesCarryBytesUnchanged : Obligations.MovesCarryBytesUnchanged := by
  unfold Obligations.MovesCarryBytesUnchanged
  have hcopy : onMeres 0x0201 = false := rfl
  have hhost : onMeres 0x0202 = false := rfl
  have hzip : onMeres 0x0204 = false := rfl
  refine ⟨?copy, ?copyEmpty, ?hostIn, ?hostOut, ?hostFailed, ?hostEmpty, ?compressShort, doesWork_of_onRun fun _ _ => rfl,
    fun _ => doesWork_of_onRun fun _ _ => rfl, doesWork_compress, doesWork_of_onRun fun _ _ => rfl⟩
  case copy =>
    rintro s cid c v rows len hd rfl hi rfl rfl hrows hlen
    have hrun := copyRun_rows (ownView s cid) c hrows hlen
    exact ⟨_, rfl, hrun ▸ onRun_executed (hd.running hcopy) hi (by rw [hrun]; rfl)⟩
  case copyEmpty =>
    intro s cid c hd hi hempty
    have hrun := copyRun_empty (ownView s cid) c hempty
    exact ⟨_, rfl, hrun ▸ onRun_executed (hd.running hcopy) hi (by rw [hrun]; rfl)⟩
  case hostIn =>
    rintro s cid c v b n hd rfl hi rfl hn hdir hb
    have hrun := hostCopyRun_in (ownView s cid) c hn hdir hb
    exact ⟨_, rfl, hrun ▸ onRun_executed (run := fun v c => hostCopyRun v c (.data b)) (hd.running hhost) hi (by rw [hrun]; rfl)⟩
  case hostOut =>
    rintro s cid c v b n hd rfl hi rfl hn hdir
    have hrun := hostCopyRun_out (ownView s cid) c b hn hdir
    exact ⟨_, rfl, hrun ▸ onRun_executed (run := fun v c => hostCopyRun v c (.data b)) (hd.running hhost) hi (by rw [hrun]; rfl)⟩
  case hostFailed =>
    intro s cid c hd hi hn
    refine ⟨_, rfl, ?_⟩
    rw [onRun_running (run := fun v c => hostCopyRun v c .failed) (hd.running hhost), hi]
    simp only [checked, hostCopyRun_failed _ c hn]
    exact applyRun_fail s c (badParam 0x10 2) rfl ▸ complete_ended s c (badParam 0x10 2) 0
  case hostEmpty =>
    intro s cid c host hd hi hn
    have hrun := hostCopyRun_empty (ownView s cid) c host hn
    exact ⟨_, rfl, hrun ▸ onRun_executed (run := fun v c => hostCopyRun v c host) (hd.running hhost) hi (by rw [hrun]; rfl)⟩
  case compressShort =>
    rintro s cid c v hd rfl hi hraw hshort
    have hrun := compressRun_short (ownView s cid) c hraw hshort
    obtain ⟨t, z, ht, hended⟩ := (doesWork_compress s cid c _ rfl).2.1 (hd.running hzip) hi (by rw [hrun]; rfl)
    rw [hrun] at hended
    exact ⟨t, z, ht, hended⟩

end Sys2Proof.Machine
end

section
/-! Commits (R46, R48, R55, R203, R255): what the commit of a finished command does to memory, counters and commands, said
once, and the statements on the commit, on FILL and on the commands that set what they name. -/

namespace Sys2Proof.Machine

/-! ## What ends with a command's claims -/

@[simp] theorem endClaims_counters (s : State) (c : Cmd) (k : Bool) : (endClaims s c k).counters = s.counters := by
  cases k with
  | true => rfl
  | false =>
    have hframe := leaveFrames_frame (mget [] s.mem.picked c.cid)
      { s with mem := { s.mem.abandon c.cid with picked := mdel (s.mem.abandon c.cid).picked c.cid } }
    simp only [endClaims, Bool.false_eq_true, if_false]
    rw [hframe]

/-- Claims that end at a commit leave every byte but the command's own, which read as they stand. -/
@[simp] theorem endClaims_kept_read (s : State) (c : Cmd) (x : Nat) :
    (endClaims s c true).mem.read x = (s.mem.own c.cid).read x := rfl

@[simp] theorem endClaims_kept_claims (s : State) (c : Cmd) : (endClaims s c true).mem.claims = (s.mem.own c.cid).claims := rfl

/-- Where no claim holds a byte, the end of claims leaves none there. -/
theorem claimAt_own {m : Memory} {x : Nat} (cid : Nat) (h : claimAt m.claims x = none) : claimAt (m.own cid).claims x = none :=
  claimAt_filter _ _ _ h

/-- A byte that no other command claims is claimed by none in the command's own view. -/
theorem claimAt_own_of_others {m : Memory} {cid x : Nat}
    (h : ∀ u ∈ m.claims, u.cid ≠ cid → u.start + u.len ≤ x ∨ x < u.start) : claimAt (m.own cid).claims x = none := by
  have outside : ∀ l : List Claim, (∀ u ∈ l, u.start + u.len ≤ x ∨ x < u.start) → claimAt l x = none := by
    intro l hl
    induction l with
    | nil => rfl
    | cons u t ih =>
      have hu := hl u List.mem_cons_self
      rw [claimAt, if_neg (by omega)]
      exact ih fun v hv => hl v (List.mem_cons_of_mem _ hv)
  refine outside _ fun u hu => ?_
  obtain ⟨hmem, hcid⟩ := List.mem_filter.mp hu
  exact h u hmem (by simpa using hcid)

/-- A byte that no command claims reads the same in every command's own view. -/
theorem Memory.read_own {m : Memory} {x : Nat} (cid : Nat) (h : claimAt m.claims x = none) : (m.own cid).read x = m.read x := by
  unfold Memory.read
  rw [claimAt_own cid h, h]
  rfl

/-! ## The commit -/

/-- The effects of a commit are those of the result, then the command's claims end. -/
@[simp] theorem commitEffects_mem (s : State) (c : Cmd) (r : Result) :
    (commitEffects s c r).mem = (endClaims (applyEffects c r.effects s) c true).mem := by
  unfold commitEffects
  dsimp only
  split <;> exact adjustScale_mem _ _ _

@[simp] theorem commitEffects_cmds (s : State) (c : Cmd) (r : Result) :
    (commitEffects s c r).cmds = (applyEffects c r.effects s).cmds := by
  unfold commitEffects adjustScale
  dsimp only
  split <;> split <;> rfl

@[simp] theorem commitEffects_counters (s : State) (c : Cmd) (r : Result) :
    (commitEffects s c r).counters = (applyEffects c r.effects s).counters := by
  unfold commitEffects adjustScale
  dsimp only
  split <;> split <;> rfl

/-- The command that a commit ends: the one that stood there, with the notes that its own effects left. -/
def committed (s : State) (c : Cmd) (r : Result) : Cmd := (findCmd (commitEffects s c r) c.cid).getD c

/-- It keeps its serial number. -/
@[simp] theorem committed_cid (s : State) (c : Cmd) (r : Result) : (committed s c r).cid = c.cid := by
  unfold committed
  cases h : findCmd (commitEffects s c r) c.cid with
  | none => rfl
  | some d => exact findCmd_cid h

/-- Where the effects leave the commands it is the command itself. -/
theorem committed_eq {s : State} {c : Cmd} {r : Result} (hfind : findCmd s c.cid = some c)
    (hcmds : (applyEffects c r.effects s).cmds = s.cmds) : committed s c r = c := by
  rw [committed, findCmd, commitEffects_cmds, hcmds, ← findCmd, hfind]
  rfl

/-- COMMAND_COMMIT of a command whose work is done, with K's main clock. -/
theorem exec_commandCommit {s : State} {cid : Nat} {c : Cmd} {r : Result} (hfind : findCmd s cid = some c)
    (hstage : c.stage = .executed) (hres : c.result = some r) (hclk : s.ctl.noMainClock = false) :
    exec (.commandCommit cid) s = .next (capSync s (commitCmd s c r)) := by
  simp [exec, execCommandCommit, hfind, hstage, hres, hclk]

/-- The same without K's main clock (R255). -/
theorem exec_commandCommit_held {s : State} {cid : Nat} {c : Cmd} {r : Result} (hfind : findCmd s cid = some c)
    (hstage : c.stage = .executed) (hres : c.result = some r) (hclk : s.ctl.noMainClock = true) :
    exec (.commandCommit cid) s = .next (capSync s (holdCommit s c r)) := by
  simp [exec, execCommandCommit, hfind, hstage, hres, hclk]

/-- A commit ends its command after its effects. -/
theorem commitCmd_ended (s : State) (c : Cmd) (r : Result) :
    Ended (commitEffects s c r) (commitCmd s c r) (committed s c r) (r.status, r.detail) r.work := complete_ended _ _ _ _

/-- A committed command is in flight no more. -/
theorem commitCmd_gone {s t : State} {cid : Nat} {c : Cmd} {r : Result} (hfind : findCmd s cid = some c)
    (ht : Counted (commitCmd s c r) t) : findCmd t cid = none := by
  have hgone := (commitCmd_ended s c r).gone
  rwa [committed_cid, findCmd_cid hfind, ← ht.findCmd_eq] at hgone

/-- A commit that writes one run of bytes: they read back where no other command claims them, and every byte beside them that
nobody claimed is as before. -/
theorem commit_write_reads {s t : State} {cid : Nat} {c : Cmd} {r : Result} {a : Nat} {b : Bytes} (hsafe : Safe s)
    (hfind : findCmd s cid = some c) (heff : r.effects = [.write a b])
    (hothers : ∀ u ∈ s.mem.claims, u.cid ≠ cid → u.start + u.len ≤ a ∨ a + b.length ≤ u.start)
    (ht : Counted (commitCmd s c r) t) :
    t.mem.readN a b.length = b ∧
      (∀ x, x < a ∨ a + b.length ≤ x → claimAt s.mem.claims x = none → t.mem.read x = s.mem.read x) := by
  have hcid := findCmd_cid hfind
  have hread (x : Nat) (hx : claimAt (s.mem.own cid).claims x = none) : t.mem.read x = ((s.mem.own cid).write a b).read x := by
    have hmem : (commitEffects s c r).mem.claims = (s.mem.own cid).claims := by simp [heff, applyEffects, applyEffect, hcid]; rfl
    rw [ht.mem_eq, (commitCmd_ended s c r).bytes x (by rw [hmem]; exact hx), commitEffects_mem, endClaims_kept_read, heff, hcid]
    rfl
  have hwf : (s.mem.own cid).wf = true := Memory.wf_own _ _ hsafe
  have hfree (x : Nat) (h1 : a ≤ x) (h2 : x < a + b.length) : claimAt (s.mem.own cid).claims x = none :=
    claimAt_own_of_others fun u hu hne => by have := hothers u hu hne; omega
  refine ⟨Memory.readN_eq _ _ _ fun i hi => ?_, fun x hx hc => ?_⟩
  · rw [hread _ (hfree _ (by omega) (by omega)), Memory.read_write_inside _ _ _ _ hwf (hfree _ (by omega) (by omega)) (by omega),
      Nat.add_sub_cancel_left]
  · rw [hread x (claimAt_own cid hc), Memory.read_write_outside _ _ _ _ hwf hx, Memory.read_own cid hc]

/-- Settles O13: the effects, then the end of the command; without K's main clock the effects alone. -/
theorem commitAppliesSignalsReplies : Obligations.CommitAppliesSignalsReplies := by
  unfold Obligations.CommitAppliesSignalsReplies
  refine ⟨?ended, ?reads, ?held⟩
  case ended =>
    intro s cid c r hfind hstage hres hclk
    exact ⟨_, commitCmd s c r, _, exec_commandCommit hfind hstage hres hclk, capSync_counted s _, rfl, commitCmd_ended s c r⟩
  case reads =>
    intro s cid c r a b hsafe hfind hstage hres hclk heff hothers
    have ht := capSync_counted s (commitCmd s c r)
    exact ⟨_, exec_commandCommit hfind hstage hres hclk, commitCmd_gone hfind ht, commit_write_reads hsafe hfind heff hothers ht⟩
  case held =>
    intro s cid c r a b hfind hstage hres hclk heff
    have hcid := findCmd_cid hfind
    have hown : holdCommit s c r = putCmd (endClaims (hbmWrite s a b) c true) { c with result := some { r with effects := [] } } := by
      simp [holdCommit, heff, applyEffects, applyEffect]
    refine ⟨_, holdCommit s c r, exec_commandCommit_held hfind hstage hres hclk, capSync_counted s _, ?_, ?_, ?_, ?_⟩
    · have hput := findCmd_putCmd (endClaims (hbmWrite s a b) c true) { c with result := some { r with effects := [] } }
      rw [hown, ← hcid]
      exact hput (by rw [findCmd, endClaims_cmds]; exact Option.isSome_iff_exists.mpr ⟨c, hcid ▸ hfind⟩)
    all_goals rw [hown]; rfl

/-! ## FILL (R203) -/

/-- A byte of a read. -/
theorem Memory.getD_readN (m : Memory) (a : Nat) {i n : Nat} (h : i < n) : (m.readN a n).getD i 0 = m.read (a + i) := by
  rw [List.getD_eq_getElem _ _ (by simpa using h)]
  simp [Memory.readN]

/-- A byte of a number laid into bytes (R5). -/
theorem getD_toLe (n v i : Nat) (h : i < n) : (toLe n v).getD i 0 = BitVec.ofNat 8 (v / 256 ^ i) := by
  induction n generalizing v i with
  | zero => omega
  | succ n ih =>
    cases i with
    | zero => simp [toLe]
    | succ i =>
      rw [toLe, List.getD_cons_succ, ih _ _ (by omega), Nat.div_div_eq_div_mul, Nat.pow_succ']

/-- `k` copies of a word. -/
theorem pattern_succ (w : Word) (k : Nat) : pattern w (4 * (k + 1)) = pattern w (4 * k) ++ toLe 4 w.toNat := by
  simp [pattern, List.range_succ]

@[simp] theorem length_pattern (w : Word) (n : Nat) : (pattern w n).length = 4 * (n / 4) := by simp [pattern, Nat.mul_comm]

/-- A byte of the pattern of FILL: little-endian and repeated. -/
theorem getD_pattern (w : Word) (k i : Nat) (h : i < 4 * k) :
    (pattern w (4 * k)).getD i 0 = BitVec.ofNat 8 (w.toNat / 256 ^ (i % 4)) := by
  induction k with
  | zero => omega
  | succ k ih =>
    rw [pattern_succ]
    by_cases hi : i < 4 * k
    · rw [List.getD_append _ _ _ _ (by simpa using hi), ih hi]
    · rw [List.getD_append_right _ _ _ _ (by simp; omega), length_pattern, getD_toLe _ _ _ (by omega)]
      congr 3
      omega

/-- FILL of at least one byte writes its pattern. -/
theorem fillRun_pattern (v : State) (c : Cmd) (h : c.arg 0x20 8 ≠ 0) : (fillRun v c).result = succeeded (c.arg 0x20 8 / 1024)
    [.write ((readDesc v (c.arg 0x10 2)).home + c.arg 0x18 8) (pattern (c.word 0x14) (c.arg 0x20 8))] := by
  unfold fillRun
  rw [if_neg h]
  rfl

/-- FILL of no byte. -/
theorem fillRun_empty (v : State) (c : Cmd) (h : c.arg 0x20 8 = 0) : (fillRun v c).result = zeroExtent := by
  unfold fillRun
  rw [if_pos h]
  rfl

/-- A command with its work done. -/
def Cmd.finished (c : Cmd) (r : Result) : Cmd := { c with stage := .executed, result := some r }

section
variable {s t : State} {c : Cmd} {r : Result} {cid : Nat} (h : Executed s t c r)
include h

/-- A command whose work is done has changed no byte and no claim. -/
theorem Executed.mem_eq : t.mem = s.mem := by rw [h.rest]

theorem Executed.find_finished (hcid : c.cid = cid) : findCmd t cid = some (c.finished r) := hcid ▸ h.command

/-- Its commit, with K's main clock. -/
theorem Executed.commit (hcid : c.cid = cid) (hclk : s.ctl.noMainClock = false) :
    ∃ u, exec (.commandCommit cid) t = .next u ∧ Counted (commitCmd t (c.finished r) r) u ∧ findCmd u cid = none := by
  have hfind := h.find_finished hcid
  have hu := capSync_counted t (commitCmd t (c.finished r) r)
  exact ⟨_, exec_commandCommit hfind rfl rfl (by rw [h.rest]; exact hclk), hu, commitCmd_gone hfind hu⟩

/-- The commit of a result that writes one run of bytes. -/
theorem Executed.commit_write {a : Nat} {b : Bytes} (hcid : c.cid = cid) (hclk : s.ctl.noMainClock = false) (hsafe : Safe s)
    (heff : r.effects = [.write a b])
    (hothers : ∀ u ∈ s.mem.claims, u.cid ≠ cid → u.start + u.len ≤ a ∨ a + b.length ≤ u.start) :
    ∃ u, exec (.commandCommit cid) t = .next u ∧ findCmd u cid = none ∧ u.mem.readN a b.length = b ∧
      (∀ x, x < a ∨ a + b.length ≤ x → claimAt s.mem.claims x = none → u.mem.read x = s.mem.read x) := by
  obtain ⟨u, hexec, hu, hgone⟩ := h.commit hcid hclk
  have hreads := commit_write_reads (by rw [Safe, h.mem_eq]; exact hsafe) (h.find_finished hcid) heff
    (by rw [h.mem_eq]; exact hothers) hu
  rw [h.mem_eq] at hreads
  exact ⟨u, hexec, hgone, hreads⟩

end

/-- Settles O17: FILL's work as any row's, then its commit as any write's. -/
theorem fillWritesThePattern : Obligations.FillWritesThePattern := by
  unfold Obligations.FillWritesThePattern
  have hoff : onMeres 0x0203 = false := rfl
  refine ⟨?filled, ?empty, ?checked⟩
  case filled =>
    rintro s cid c n a hsafe hd hi hclk rfl hn h4 rfl hothers
    have hrun := fillRun_pattern (ownView s cid) c hn
    have hex : Executed s (onRun s cid [0x0203] fillIssue fillRun) c _ :=
      hrun ▸ onRun_executed (hd.running hoff) hi (by rw [hrun]; rfl)
    have hlen : (pattern (c.word 0x14) (c.arg 0x20 8)).length = c.arg 0x20 8 := by rw [length_pattern]; omega
    have hcid := findCmd_cid hd.1
    obtain ⟨u, hu, hgone, hreads, hrest⟩ := hex.commit_write hcid hclk hsafe rfl (by rw [hlen]; exact hothers)
    rw [hlen] at hreads hrest
    refine ⟨_, u, rfl, hex, hu, hgone, fun i hlt => ?_, hrest⟩
    have hquad : c.arg 0x20 8 = 4 * (c.arg 0x20 8 / 4) := by omega
    rw [← Memory.getD_readN _ _ hlt, hreads, hquad]
    exact getD_pattern _ _ _ (by omega)
  case empty =>
    intro s cid c hd hi hn
    have hrun := fillRun_empty (ownView s cid) c hn
    exact ⟨_, rfl, hrun ▸ onRun_executed (hd.running hoff) hi (by rw [hrun]; rfl)⟩
  case checked =>
    intro s cid c e hd hi he
    exact ⟨_, rfl, onRun_checked (hd.running hoff) hi he⟩

end Sys2Proof.Machine
end

section
/-! Commands that set what they name (R55, R140, R171, R283, R284, R309): what a completion leaves of the counters that it does
not signal, and the statement on NOP, TOKEN_SET, LOSS_SCALE, PHASE, STEP_BEGIN, SNAPSHOT and RESTORE. -/

namespace Sys2Proof.Machine

/-! ## Counters that a completion does not signal (R46) -/

/-- Tokens for one counter leave the others. -/
theorem addTokens_counter_ne {n k : Nat} (s : State) (q m : Nat) (h : k ≠ n) : getCounter (addTokens s q n m) k = getCounter s k := by
  unfold addTokens
  dsimp only
  split
  · rfl
  · split
    · exact getCounter_setCounter_ne _ _ _ _ h
    · exact getCounter_setCounter_ne _ _ _ _ h

/-- Poison on one counter leaves the others. -/
theorem poison_counter_ne {n k : Nat} (s : State) (h : k ≠ n) : getCounter (poison s n) k = getCounter s k := by
  unfold poison
  split
  · rfl
  · exact getCounter_setCounter_ne _ _ _ _ h

/-- The end of a command acts on its signal counter alone. -/
theorem finishOne_counter_ne {k : Nat} (s : State) (c : Cmd) (e : Err) (w : Nat) (h : k ≠ c.signal) :
    getCounter (finishOne s c e w) k = getCounter s k := by
  rw [finishOne, getCounter_replyAct, tokenAct]
  split
  · exact addTokens_counter_ne _ _ _ h
  · exact poison_counter_ne _ h

/-- Every other counter keeps its count, and its poison if it has one; the kills that follow may poison it. -/
theorem complete_counter_ne {k : Nat} (s : State) (c : Cmd) (e : Err) (w : Nat) (h : k ≠ c.signal) :
    (getCounter (complete s c e w) k).count = (getCounter s k).count ∧
      ((getCounter s k).poison = true → (getCounter (complete s c e w) k).poison = true) := by
  rw [← finishOne_counter_ne s c e w h]
  exact sweep_counters _ _ _

/-- The end of the only command in flight is all: no other waits on its poison. -/
theorem complete_of_alone {s : State} {c : Cmd} (e : Err) (w : Nat) (h : ∀ x ∈ s.cmds, x.cid = c.cid) :
    complete s c e w = finishOne s c e w := by
  have hnone : (finishOne s c e w).cmds = [] := by
    rw [finishOne_cmds, List.filter_eq_nil_iff]
    intro x hx
    simp [h x hx]
  rw [complete, settle, hnone]
  rfl

/-! ## Work without checks -/

/-- A result that signals, of a command that needs no Mere, waits for the commit. -/
theorem onWork_finish {s : State} {cid op : Nat} {c : Cmd} (f : Cmd → Result) (h : Dispatched s cid op c) (ho : onMeres op = false)
    (hr : signals (f c).status = true) : Executed s (onWork s cid [op] (fun c => finishWork s c (f c))) c (f c) := by
  rw [onWork_some (working_off h ho)]
  exact finishWork_executed s c (f c) h.find_self hr

/-- A result that waits for the commit: the command stands finished where it stood. -/
theorem finishWork_signals (s : State) (c : Cmd) {r : Result} (hr : signals r.status = true) :
    finishWork s c r = putCmd s (c.finished r) := by
  simp [finishWork, hr, Cmd.finished]

/-- A result that fails ends the command. -/
theorem finishWork_failed (s : State) (c : Cmd) {e : Err} (he : signals e.1 = false) :
    finishWork s c (failed e) = complete s c e 0 := by
  simp [finishWork, failed, he]

/-! ## TOKEN_SET (R55) -/

/-- A field of `n` bytes lies below 256 to the `n`. -/
theorem leNat_lt (b : Bytes) : leNat b < 256 ^ b.length := by
  induction b with
  | nil => simp [leNat]
  | cons x t ih =>
    have hx := x.isLt
    simp only [leNat, List.length_cons, Nat.pow_succ]
    omega

@[simp] theorem length_slice (b : Bytes) (off n : Nat) : (slice b off n).length = n := by
  simp only [slice, List.length_append, List.length_take, List.length_drop, List.length_replicate]
  omega

theorem Cmd.arg_lt (c : Cmd) (off n : Nat) : c.arg off n < 256 ^ n := by
  simpa [Cmd.arg, field] using leNat_lt (slice c.params (off - 0x10) n)

/-- What TOKEN_SET sets at its commit. -/
def tokenSetResult (c : Cmd) : Result :=
  succeeded 0 [.token (c.arg 0x10 2) (BitVec.ofNat 16 (c.arg 0x12 2)) (bit (c.arg 0x14 1) 0)]

/-- The counter that TOKEN_SET names once its effect has happened. -/
def tokenSetCounter (s : State) (c : Cmd) : Counter :=
  { count := BitVec.ofNat 16 (c.arg 0x12 2), poison := (getCounter s (c.arg 0x10 2)).poison && !bit (c.arg 0x14 1) 0 }

/-- TOKEN_SET's command stands finished until its commit. -/
theorem exec_tokenSet {s : State} {cid : Nat} {c : Cmd} (h : Dispatched s cid 0x0707 c) :
    exec (.tokenSet cid) s = .next (putCmd s (c.finished (tokenSetResult c))) := by
  simp only [exec, execTokenSet, onWork_some (working_off h rfl)]
  exact congrArg _ (finishWork_signals s c rfl)

/-- A command whose result signals stands finished until its commit. -/
theorem putCmd_executed {s : State} {c : Cmd} {r : Result} (h : findCmd s c.cid = some c) (hr : signals r.status = true) :
    Executed s (putCmd s (c.finished r)) c r := finishWork_signals s c hr ▸ finishWork_executed s c r h hr

/-- The state once TOKEN_SET's effect has happened, before its own signal and reply. -/
def tokenSetDone (s : State) (c : Cmd) : State :=
  commitEffects (putCmd s (c.finished (tokenSetResult c))) (c.finished (tokenSetResult c)) (tokenSetResult c)

/-- The commit of TOKEN_SET: the counter is set, then the command ends. -/
theorem tokenSet_commitCmd {s : State} {c : Cmd} (h : findCmd s c.cid = some c) :
    commitCmd (putCmd s (c.finished (tokenSetResult c))) (c.finished (tokenSetResult c)) (tokenSetResult c) =
      complete (tokenSetDone s c) (c.finished (tokenSetResult c)) (0, 0) 0 :=
  congrArg (complete _ · _ _) (committed_eq (putCmd_executed h rfl).command rfl)

theorem tokenSetDone_counter (s : State) (c : Cmd) : getCounter (tokenSetDone s c) (c.arg 0x10 2) = tokenSetCounter s c := by
  rw [getCounter, tokenSetDone, commitEffects_counters]
  exact getCounter_setCounter_same _ _ _

theorem tokenSetDone_cmds (s : State) (c : Cmd) :
    (tokenSetDone s c).cmds = (putCmd s (c.finished (tokenSetResult c))).cmds := commitEffects_cmds _ _ _

theorem tokenSetDone_cells (s : State) (c : Cmd) : (tokenSetDone s c).mem.cells = s.mem.cells := by
  rw [tokenSetDone, commitEffects_mem]
  rfl

/-- Where TOKEN_SET is the only command in flight, no other command is left to end after it. -/
theorem tokenSetDone_alone {s : State} {c : Cmd} (h : s.cmds = [c]) :
    ∀ x ∈ (tokenSetDone s c).cmds, x.cid = (c.finished (tokenSetResult c)).cid := by
  rw [tokenSetDone_cmds]
  simp [putCmd, h, Cmd.finished]

/-- The end of a command writes no byte. -/
theorem complete_cells (s : State) (c : Cmd) (e : Err) (w : Nat) : (complete s c e w).mem.cells = s.mem.cells :=
  ((finishOne_frame s c e w).trans (sweep_frame _ _)).1.cells

/-! ## SNAPSHOT and RESTORE (R309) -/

@[simp] theorem length_mirrorHeader (a b c d e f g h : Nat) : (mirrorHeader a b c d e f g h).length = 64 := by simp [mirrorHeader]

/-- SNAPSHOT of a whole master: the region, its header last. -/
theorem snapshotRun_whole (s : State) (c : Cmd) (h : isTorn (readDesc s (c.arg 0x10 2)) = false) :
    ∃ n b, snapshotRun s c = succeeded n [.host (c.arg 0x18 8 + 0x40) (snapshotBody s c), .host (c.arg 0x18 8) b] ∧
      b.length = 64 := by
  unfold snapshotRun
  simp only [h, Bool.false_eq_true, if_false]
  exact ⟨_, _, rfl, length_mirrorHeader _ _ _ _ _ _ _ _⟩

/-- SNAPSHOT of a torn master. -/
theorem snapshotRun_torn (s : State) (c : Cmd) (h : isTorn (readDesc s (c.arg 0x10 2)) = true) :
    snapshotRun s c = failed (shardVersion (c.arg 0x10 2) (readDesc s (c.arg 0x10 2)).generation) := by
  unfold snapshotRun
  simp only [h, if_true]
  rfl

/-- SNAPSHOT on a command in work. -/
theorem exec_snapshot {s : State} {cid : Nat} {c : Cmd} (h : Dispatched s cid 0x0602 c) :
    exec (.snapshot cid) s = .next (applyRun s c (checked (checkpointIssue s c) (Run.plain (snapshotRun s c)))) := by
  simp [exec, execSnapshot, onWork_some (working_off h rfl)]

/-- RESTORE that fails a check. -/
theorem exec_restore_checked {s : State} {cid : Nat} {c : Cmd} {e : Err} (host : HostRead) (h : Dispatched s cid 0x0603 c)
    (hi : checkpointIssue s c = some e) : exec (.restore cid host) s = .next (complete s c e 0) := by
  simp [exec, execRestore, onWork_some (working_off h rfl), hi]

/-- RESTORE from host memory. -/
theorem exec_restore_host {s : State} {cid : Nat} {c : Cmd} (host : HostRead) (h : Dispatched s cid 0x0603 c)
    (hi : checkpointIssue s c = none) (hsrc : c.arg 0x16 1 = 1) :
    exec (.restore cid host) s = .next (finishWork s c (restoreHost s c host)) := by
  simp [exec, execRestore, onWork_some (working_off h rfl), hi, hsrc]

/-- RESTORE from a mirror that does not serve the master. -/
theorem exec_restore_unserved {s : State} {cid : Nat} {c : Cmd} (host : HostRead) (h : Dispatched s cid 0x0603 c)
    (hi : checkpointIssue s c = none) (hsrc : c.arg 0x16 1 = 0)
    (hno : (getMirror s (c.arg 0x17 1)).source = false ∨ (getMirror s (c.arg 0x17 1)).desc ≠ c.arg 0x10 2 ∨
      (getMirror s (c.arg 0x17 1)).state = 3 ∨ (getMirror s (c.arg 0x17 1)).state = 0) :
    exec (.restore cid host) s = .next (complete s c (noMirror s (readDesc s (c.arg 0x10 2))) 0) := by
  simp only [exec, execRestore, onWork_some (working_off h rfl), hi, hsrc, Nat.zero_ne_one, if_false, Bool.not_eq_true', if_pos hno]

/-- RESTORE from the partner that serves the master: it is asked. -/
theorem exec_restore_asks {s : State} {cid : Nat} {c : Cmd} (host : HostRead) (h : Dispatched s cid 0x0603 c)
    (hi : checkpointIssue s c = none) (hsrc : c.arg 0x16 1 = 0) (hown : (getMirror s (c.arg 0x17 1)).source = true)
    (hdesc : (getMirror s (c.arg 0x17 1)).desc = c.arg 0x10 2) (h3 : (getMirror s (c.arg 0x17 1)).state ≠ 3)
    (h0 : (getMirror s (c.arg 0x17 1)).state ≠ 0) (hnew : c.holds = false) :
    exec (.restore cid host) s = .next (sendOrLose (putCmd s { c with holds := true }) c
      (mirrorMsg s c.phase (getMirror s (c.arg 0x17 1)).laxis (getMirror s (c.arg 0x17 1)).partner (c.arg 0x17 1) 6 (some cid) [])) := by
  simp [exec, execRestore, onWork_some (working_off h rfl), hi, hsrc, hown, hdesc, h3, h0, hnew, findCmd_cid h.1]

/-- No mirror: the status never signals. -/
theorem noMirror_fails (s : State) (d : Desc) : signals (noMirror s d).1 = false := by
  unfold noMirror
  split <;> rfl

/-- Settles O20: each command's own result, by the rule of finished work; TOKEN_SET's through its commit. -/
theorem settingCommandsReachTheirCommit : Obligations.SettingCommandsReachTheirCommit := by
  unfold Obligations.SettingCommandsReachTheirCommit
  refine ⟨?tokenSet, ?nop, ?lossScale, ?phase, ?phaseWaits, ?step, ?stepWaits, ?stepSame, ?snapshot, ?torn, ?restored, ?badImage,
    ?noHost, ?unserved, ?asks, ?checked⟩
  case tokenSet =>
    rintro s cid c n hd hclk rfl hne
    have hcid := findCmd_cid hd.1
    have hex := putCmd_executed (r := tokenSetResult c) hd.find_self rfl
    obtain ⟨u, hexec, hu, hgone⟩ := hex.commit hcid hclk
    rw [tokenSet_commitCmd hd.find_self] at hu
    have hother : c.arg 0x10 2 ≠ (c.finished (tokenSetResult c)).signal := Ne.symm hne
    obtain ⟨hcount, hpoison⟩ := complete_counter_ne (tokenSetDone s c) _ (0, 0) 0 hother
    rw [tokenSetDone_counter] at hcount hpoison
    refine ⟨_, u, exec_tokenSet hd, hexec, hgone, ?_, fun hclear halone => ?_, fun hclear hold => ?_, ?_⟩
    · rw [getCounter, hu.counters_eq, ← getCounter, hcount]
      exact Nat.mod_eq_of_lt (c.arg_lt 0x12 2)
    · rw [getCounter, hu.counters_eq, complete_of_alone _ _ (tokenSetDone_alone halone), ← getCounter,
        finishOne_counter_ne _ _ _ _ hother, tokenSetDone_counter]
      simp [tokenSetCounter, hclear]
    · rw [getCounter, hu.counters_eq]
      exact hpoison (by simp [tokenSetCounter, hclear, hold])
    · rw [hu.mem_eq, complete_cells, tokenSetDone_cells]
  case nop =>
    intro s cid c hd
    exact ⟨_, rfl, onWork_finish (fun _ => succeeded 0 []) hd rfl rfl⟩
  case lossScale =>
    intro s cid c hd
    exact ⟨_, rfl, onWork_finish (fun c => succeeded 0 [.lossScale (c.word 0x10) (c.word 0x14) (c.word 0x18) (c.word 0x20)
      (c.word 0x24) (c.arg 0x1C 4)]) hd rfl rfl⟩
  case phase =>
    intro s cid c hd hports
    have hdone : s.ports.any (fun e => e.2.oldPhase) = false := by simpa [List.any_eq_false] using hports
    refine ⟨finishWork s c (succeeded 0 []), ?_, ?_⟩
    · simp only [exec, execPhase, onWork_some (working_off hd rfl), hdone, Bool.false_eq_true, if_false]
    · exact finishWork_executed s c _ hd.find_self rfl
  case phaseWaits =>
    intro s cid c e hd he hold
    have hopen : s.ports.any (fun e => e.2.oldPhase) = true := List.any_eq_true.mpr ⟨e, he, hold⟩
    simp only [exec, execPhase, onWork_some (working_off hd rfl), hopen, if_true]
  case step =>
    intro s cid c hd hnew hfence
    refine ⟨finishWork s c (succeeded 0 [.newStep (c.arg 0x10 6)]), ?_, ?_⟩
    · simp only [exec, execStepBegin, onWork_some (working_off hd rfl), if_neg hnew, hfence, Bool.false_eq_true, if_false]
    · exact finishWork_executed s c _ hd.find_self rfl
  case stepWaits =>
    intro s cid c x hd hnew hx hflight hearlier htag
    have hfence : fenceOpen s c = true := List.any_eq_true.mpr ⟨x, hx, by simp [hflight, hearlier, htag]⟩
    simp only [exec, execStepBegin, onWork_some (working_off hd rfl), if_neg hnew, hfence, if_true]
  case stepSame =>
    intro s cid c hd hsame
    refine ⟨finishWork s c (succeeded 0 []), ?_, ?_⟩
    · simp only [exec, execStepBegin, onWork_some (working_off hd rfl), if_pos hsame]
    · exact finishWork_executed s c _ hd.find_self rfl
  case snapshot =>
    intro s cid c hd hi hwhole
    obtain ⟨n, b, hrun, hb⟩ := snapshotRun_whole s c hwhole
    refine ⟨_, n, b, exec_snapshot hd, ?_, hb⟩
    rw [hi, hrun]
    exact applyRun_executed s c _ hd.find_self rfl
  case torn =>
    intro s cid c hd hi htorn
    refine ⟨_, exec_snapshot hd, ?_⟩
    rw [hi, snapshotRun_torn s c htorn]
    exact applyRun_fail s c (shardVersion _ _) rfl ▸ complete_ended s c _ 0
  case restored =>
    intro s cid c b hd hi hsrc hgood
    refine ⟨_, exec_restore_host (.data b) hd hi hsrc, ?_⟩
    simp only [restoreHost, hgood, if_true]
    exact finishWork_executed s c _ hd.find_self rfl
  case badImage =>
    intro s cid c b hd hi hsrc hbad
    refine ⟨_, exec_restore_host (.data b) hd hi hsrc, ?_⟩
    simp only [restoreHost, hbad, Bool.false_eq_true, if_false, finishWork_failed _ _ (noMirror_fails _ _)]
    exact complete_ended s c _ 0
  case noHost =>
    intro s cid c hd hi hsrc
    refine ⟨_, exec_restore_host .failed hd hi hsrc, ?_⟩
    exact finishWork_failed s c (e := badParam 0x18 2) rfl ▸ complete_ended s c _ 0
  case unserved =>
    rintro s cid c host mr hd hi hsrc rfl hno
    exact ⟨_, exec_restore_unserved host hd hi hsrc hno, complete_ended s c _ 0⟩
  case asks =>
    rintro s cid c host mr m u hd hi hsrc rfl hown hdesc h3 h0 hnew rfl rfl
    rw [exec_restore_asks host hd hi hsrc hown hdesc h3 h0 hnew]
    refine ⟨fun t hsent => ?_, fun hlost => ⟨_, rfl, ?_⟩⟩
    · simp only [sendOrLose, hsent]
    · simp only [sendOrLose, hlost]
      exact complete_ended _ c _ 0
  case checked =>
    intro s cid c host e hi he
    refine ⟨fun hd => ⟨_, exec_snapshot hd, ?_⟩, fun hd => ⟨_, exec_restore_checked host hd hi, complete_ended s c e 0⟩⟩
    rw [hi]
    exact applyRun_fail s c e he ▸ complete_ended s c e 0

end Sys2Proof.Machine
end

section
/-! Packets fetched (R30, R34, R35, R239, R352): what the checks of a packet read, what becomes of a slot, and the statement on
PACKET_FETCH. -/

namespace Sys2Proof.Machine

/-! ## The checks of a packet do not read the notes of its command -/

/-- The packet checks of an opcode pass the notes by. -/
theorem opcodePacket_notes (s : State) (c : Cmd) (k : Nat) : opcodePacket s { c with notes := k } = opcodePacket s c := by
  unfold opcodePacket
  dsimp only
  split <;> rfl

/-- The checks of the body pass the notes by. -/
theorem bodyError_notes (s : State) (b : Bytes) (c : Cmd) (k : Nat) (x : Except Err Bytes) :
    bodyError s b { c with notes := k } x = bodyError s b c x := by
  unfold bodyError
  cases x with
  | error e => simp only [opcodePacket_notes]
  | ok x =>
    have hext : opcodePacket s { { c with notes := k } with ext := x } = opcodePacket s { c with ext := x } :=
      opcodePacket_notes s { c with ext := x } k
    simp only [hext]
    rfl

/-- A packet that passes is the same command with whatever notes its reads left. -/
theorem packetCheck_notes {s : State} {b : Bytes} {c d : Cmd} (k : Nat) (h : packetCheck s b c = .ok d) :
    packetCheck s b { c with notes := k } = .ok { d with notes := k } := by
  have hhead : headerError s b { c with notes := k } = headerError s b c := rfl
  have hext : extBlock s { c with notes := k } = extBlock s c := rfl
  rw [packetCheck, hhead, hext, bodyError_notes]
  rw [packetCheck] at h
  split at h
  · cases h
  · split at h
    · cases h
    · obtain rfl := Except.ok.inj h
      rfl
    · cases h

/-! ## The command of a slot -/

/-- A packet read without a retry leaves no note (R39). -/
@[simp] theorem parsePacket_notes (s : State) (q : Nat) (slot : Word) (b : Bytes) :
    { parsePacket s q slot b with notes := 0 } = parsePacket s q slot b := by
  unfold parsePacket
  dsimp only
  repeat' split
  all_goals rfl

/-- A packet belongs to the queue that it was fetched from. -/
theorem parsePacket_q (s : State) (q : Nat) (slot : Word) (b : Bytes) : (parsePacket s q slot b).q = q := by
  unfold parsePacket
  dsimp only
  repeat' split
  all_goals rfl

/-- A packet without an extended block has none to read (R34). -/
theorem readsExt_of_not_isExt {s : State} {c : Cmd} (h : c.isExt = false) : readsExt s c = false := by
  simp [readsExt, extBlock, h]

/-! ## What becomes of a slot -/

section
variable {s : State} {q : Nat} {slot : Word} {b : Bytes} {ext : Sector}

/-- A packet whose checks pass joins the commands in flight; its extended block, where it has one, was read at once. -/
theorem takePacket_taken {d : Cmd} (hext : readsExt s (parsePacket s q slot b) = false ∨ ext = .clean)
    (h : packetCheck s b (parsePacket s q slot b) = .ok d) :
    takePacket s q slot b false 0 ext = { s with cmds := s.cmds ++ [d], nextCid := s.nextCid + 1 } := by
  rcases hext with hx | rfl
  · simp [takePacket, hx, h]
  · simp [takePacket, retryNote, h]

/-- A packet whose checks fail is rejected (R35). -/
theorem takePacket_rejected {e : Err} (h : packetCheck s b (parsePacket s q slot b) = .error e) :
    takePacket s q slot b false 0 .clean = rejectPacket s (parsePacket s q slot b) e := by
  simp [takePacket, retryNote, h]

/-- A packet whose extended block was read on its retry joins with note bit 4 (R239). -/
theorem takePacket_retried {d : Cmd} (hext : readsExt s (parsePacket s q slot b) = true)
    (h : packetCheck s b (parsePacket s q slot b) = .ok d) :
    (takePacket s q slot b false 0 .retried).cmds = s.cmds ++ [{ d with notes := 0x10 }] := by
  simp [takePacket, hext, retryNote, packetCheck_notes 0x10 h]

/-- A packet whose extended block stays uncorrectable fails, where what was read before the block is good (R239). -/
theorem takePacket_extFails {n f o : Nat} (hext : readsExt s (parsePacket s q slot b) = true)
    (hhead : headerError s b (parsePacket s q slot b) = none) (hop : opcodePacket s (parsePacket s q slot b) = none)
    (hat : s.mem.translate ((parsePacket s q slot b).arg 0x38 8) = some (n, f, o)) :
    takePacket s q slot b false 0 .uncorrectable =
      complete (sectorOutcome s ((parsePacket s q slot b).arg 0x38 8) .uncorrectable true) (parsePacket s q slot b)
        (memUncorrectable n f false) 0 := by
  unfold takePacket
  simp only [parsePacket_notes, hext, extFails, hhead, hop, hat]
  rfl

end

/-- A slot that could not be read is rejected as one without opcode (R231, R352). -/
theorem takePacket_unread (s : State) (q : Nat) (slot : Word) (b : Bytes) (ext : Sector) :
    takePacket s q slot b true 0 ext = rejectPacket s (parsePacket s q slot b) (badOpcode 0 1) := by
  unfold takePacket
  simp only [parsePacket_notes]
  rfl

/-- A rejected packet ends in the state with QHEAD past it and bad_packet set (R29, R35). -/
theorem rejectPacket_ended (s : State) (q : Nat) (b : Bytes) (e : Err) :
    Ended (pastBad s q) (rejectPacket (pastHead s q) (slotCmd s q b) e) (slotCmd s q b) e 0 := by
  rw [rejectPacket, slotCmd, parsePacket_q]
  exact complete_ended _ _ _ _

/-! ## Uncorrectable sectors that a command reads -/

/-- A page of HBM lies below the cores' memory. -/
theorem Memory.place_of_translate {m : Memory} {a n f o : Nat} (h : m.translate a = some (n, f, o)) : m.place a = some (n, f, o) := by
  have hlow : ¬ coreBase ≤ a := by
    intro hcore
    have hnone : windowOf a = none := by
      simp only [windowOf, coreBase] at hcore ⊢
      rw [if_neg (by omega), if_neg (by omega), if_neg (by omega)]
    simp [Memory.translate, hnone] at h
  rw [Memory.place, if_neg hlow, h]

/-- The error that names a stack and a page (R45, R239). -/
theorem memUncorrectable_whole (n f : Nat) : memUncorrectable n f false = (0x20, n + f * 8) := by simp [memUncorrectable, b2n]

/-- A sector that stays uncorrectable counts in MUNCOR (R239). -/
theorem sectorOutcome_muncor {s : State} {a n f o : Nat} (h : s.mem.translate a = some (n, f, o)) (seen : Bool) :
    (sectorOutcome s a .uncorrectable seen).mem.muncor = min (s.mem.muncor + 1) 0xFFFFFFFF := by
  simp only [sectorOutcome, Memory.place_of_translate h]
  rw [sectorRead_frame]
  rfl

/-! ## PACKET_FETCH -/

section
variable {s : State} {q : Nat} (k : FetchSectors) (hq : q ≤ 64) (hf : canFetch s q = true)
include hq hf

/-- A packet from host memory (R30). -/
theorem exec_packetFetch_data {b : Bytes} (hring : bit (getQueue s q).sQcfg.toNat 31 = false) (hlen : b.length = 64) :
    exec (.packetFetch q (.data b) k) s = .next (capSync s (takePacket (pastHead s q) q (getQueue s q).qhead b false 0 k.ext)) := by
  simp [exec, execPacketFetch, hq, hf, fetchPacket, hring, slice_whole hlen, pastHead]

/-- A slot that the host did not deliver (R352). -/
theorem exec_packetFetch_failed (hring : bit (getQueue s q).sQcfg.toNat 31 = false) :
    exec (.packetFetch q .failed k) s =
      .next (capSync s (rejectPacket (pastHead s q) (slotCmd s q (List.replicate 64 0)) (badOpcode 0 1))) := by
  simp [exec, execPacketFetch, hq, hf, fetchPacket, hring, takePacket_unread, pastHead, slotCmd]

/-- A packet from a ring in HBM, read without an error (R30, R231). -/
theorem exec_packetFetch_hbm (host : HostRead) {a : Nat} (hring : bit (getQueue s q).sQcfg.toNat 31 = true)
    (ha : a = (getQueue s q).sQbase.toNat / 4096 * 4096 + (getQueue s q).qhead.toNat % (getQueue s q).slots * 64)
    (hmap : s.mem.mappedRange a 64 = true) :
    exec (.packetFetch q host ⟨.clean, .clean⟩) s =
      .next (capSync s (takePacket (pastHead s q) q (getQueue s q).qhead (s.mem.readN a 64) false 0 .clean)) := by
  have hbase : ringBase (getQueue s q).sQbase + (getQueue s q).qhead.toNat % (getQueue s q).slots * 64 = a := ha.symm
  simp [exec, execPacketFetch, hq, hf, fetchPacket, hring, hbase, hmap, retryNote, pastHead]

end

/-- Settles O11: the slot is read, its packet checked, and it joins the commands or ends. -/
theorem packetFetchTakesOrRejects : Obligations.PacketFetchTakesOrRejects := by
  unfold Obligations.PacketFetchTakesOrRejects
  refine ⟨?taken, ?plain, ?retried, ?uncorrectable, ?hbm, ?rejected, ?failed⟩
  case taken =>
    intro s q b hbm d hq hf hring hlen hok
    have htake := takePacket_taken (ext := .clean) (.inr rfl) hok
    exact ⟨_, exec_packetFetch_data _ hq hf hring hlen, htake ▸ capSync_counted _ _⟩
  case plain =>
    intro s q b hbm ext d hq hf hring hlen hext hok
    have htake := takePacket_taken (ext := ext) (.inl (readsExt_of_not_isExt hext)) hok
    exact ⟨_, exec_packetFetch_data _ hq hf hring hlen, htake ▸ capSync_counted _ _⟩
  case retried =>
    intro s q b hbm d hq hf hring hlen hext hok
    refine ⟨_, exec_packetFetch_data _ hq hf hring hlen, ?_⟩
    rw [(capSync_counted _ _).cmds_eq]
    exact takePacket_retried hext hok
  case uncorrectable =>
    intro s q b hbm n f o hq hf hring hlen hext hhead hop hat
    refine ⟨_, _, sectorOutcome (pastHead s q) ((slotCmd s q b).arg 0x38 8) .uncorrectable true,
      exec_packetFetch_data _ hq hf hring hlen, capSync_counted _ _, sectorOutcome_cmds ..,
      sectorOutcome_muncor (s := pastHead s q) hat true, ?_⟩
    rw [takePacket_extFails hext hhead hop hat, memUncorrectable_whole]
    exact complete_ended _ _ _ _
  case hbm =>
    intro s q host d a hq hf hring ha hmap hok
    have htake := takePacket_taken (ext := .clean) (.inr rfl) hok
    exact ⟨_, exec_packetFetch_hbm hq hf host hring ha hmap, htake ▸ capSync_counted _ _⟩
  case rejected =>
    intro s q b hbm e hq hf hring hlen herr
    refine ⟨_, _, exec_packetFetch_data _ hq hf hring hlen, capSync_counted _ _, ?_⟩
    rw [takePacket_rejected herr]
    exact rejectPacket_ended s q b e
  case failed =>
    intro s q hbm ext hq hf hring
    exact ⟨_, _, exec_packetFetch_failed _ hq hf hring, capSync_counted _ _, rejectPacket_ended s q _ _⟩

end Sys2Proof.Machine
end

section
/-! Damage on the read paths (R201, R222, R223, R238, R239, R49): what a read of a sector counts and leaves, what it does to the
commands that it served, the check of a compressed block, and the statement on damaged reads. -/

namespace Sys2Proof.Machine

/-! ## Commands that a completion leaves -/

/-- The end of a command drops it alone. -/
theorem findCmd_finishOne (s : State) (c : Cmd) (e : Err) (w n : Nat) :
    findCmd (finishOne s c e w) n = if n = c.cid then none else findCmd s n := by
  rw [findCmd, finishOne_cmds, List.find?_filter]
  split
  case isTrue h => simp [h]
  case isFalse h =>
    unfold findCmd
    congr 1
    funext x
    by_cases hx : x.cid = n <;> simp [hx, h]

/-- A command that is left after an end stood before it. -/
theorem findCmd_of_finishOne {s : State} {c x : Cmd} {e : Err} {w n : Nat} (h : findCmd (finishOne s c e w) n = some x) :
    findCmd s n = some x := by
  rw [findCmd_finishOne] at h
  split at h
  · cases h
  · exact h

/-- A command that is left after the kills stood before them. -/
theorem findCmd_of_sweep {k : Nat} {s : State} {x : Cmd} {n : Nat} (h : findCmd (sweep k s) n = some x) : findCmd s n = some x := by
  induction k generalizing s with
  | zero => exact h
  | succ k ih =>
    simp only [sweep] at h
    split at h
    · exact findCmd_of_finishOne (ih h)
    · exact h

/-- A command that is left after a completion stood before it. -/
theorem findCmd_of_complete {s : State} {c x : Cmd} {e : Err} {w n : Nat} (h : findCmd (complete s c e w) n = some x) :
    findCmd s n = some x :=
  findCmd_of_finishOne (findCmd_of_sweep h)

/-- No completion brings a command back. -/
theorem findCmd_complete_none {s : State} {c : Cmd} (e : Err) (w : Nat) {n : Nat} (h : findCmd s n = none) :
    findCmd (complete s c e w) n = none := by
  rw [Option.eq_none_iff_forall_ne_some] at h ⊢
  exact fun x hx => h x (findCmd_of_complete hx)

/-- A completed command is gone. -/
theorem findCmd_complete_self (s : State) (c : Cmd) (e : Err) (w : Nat) : findCmd (complete s c e w) c.cid = none :=
  (complete_ended s c e w).gone

/-! ## Notes -/

/-- A note joins the notes of the command that it is for. -/
theorem noteCmd_eq {s : State} {cid : Nat} {c : Cmd} (k : Nat) (h : findCmd s cid = some c) :
    noteCmd s cid k = putCmd s { c with notes := c.notes ||| k } := by simp [noteCmd, h]

/-- A noted command carries the note. -/
theorem findCmd_noteCmd {s : State} {cid : Nat} {c : Cmd} (k : Nat) (h : findCmd s cid = some c) :
    findCmd (noteCmd s cid k) cid = some { c with notes := c.notes ||| k } := by
  obtain rfl := findCmd_cid h
  rw [noteCmd_eq k h]
  exact findCmd_putCmd s { c with notes := c.notes ||| k } (by simp [h])

/-! ## The read of a sector (R238, R239) -/

/-- The command or unit that a read tells of a failure. -/
def seenError (s : State) (users : List SectorUser) (n f : Nat) : Err :=
  if users.any (fun u => (readerOf s u).isSome) then memUncorrectable n f false else okStatus

/-- The state once a sector that some users want has been read, before any of them learns of it. -/
def sectorSeen (s : State) (users : List SectorUser) (n f o : Nat) (k : Sector) : State :=
  sectorRead s n f o k false (seenError s users n f).1 (seenError s users n f).2

section
variable (s : State) (users : List SectorUser) (n f o : Nat) (k : Sector)

/-- A read of a sector counts; beyond that it touches stacks, repairs and the error log alone. -/
theorem sectorSeen_frame : StackFrame { s with mem := s.mem.counting k } (sectorSeen s users n f o k) := sectorRead_frame ..

@[simp] theorem sectorSeen_read (x : Nat) : (sectorSeen s users n f o k).mem.read x = s.mem.read x := by
  rw [(sectorSeen_frame s users n f o k).read_eq]
  simp

@[simp] theorem sectorSeen_claims : (sectorSeen s users n f o k).mem.claims = s.mem.claims := by
  rw [(sectorSeen_frame s users n f o k).claims_eq]
  simp

@[simp] theorem sectorSeen_cmds : (sectorSeen s users n f o k).cmds = s.cmds := (sectorSeen_frame s users n f o k).cmds_eq

@[simp] theorem sectorSeen_queues : (sectorSeen s users n f o k).queues = s.queues := (sectorSeen_frame s users n f o k).queues_eq

@[simp] theorem sectorSeen_counters : (sectorSeen s users n f o k).counters = s.counters := by
  rw [sectorSeen_frame s users n f o k]

@[simp] theorem sectorSeen_findCmd (cid : Nat) : findCmd (sectorSeen s users n f o k) cid = findCmd s cid := by
  rw [findCmd, sectorSeen_cmds]
  rfl

/-- The counts of corrected, retried and lost sectors (R243). -/
theorem sectorSeen_counts :
    (sectorSeen s users n f o k).mem.mcorr = (s.mem.counting k).mcorr ∧
      (sectorSeen s users n f o k).mem.mretryok = (s.mem.counting k).mretryok ∧
      (sectorSeen s users n f o k).mem.muncor = (s.mem.counting k).muncor := by
  rw [sectorSeen_frame s users n f o k]
  exact ⟨rfl, rfl, rfl⟩

end

section
variable {s : State} {a n f o : Nat} (h : s.mem.translate a = some (n, f, o)) (users : List SectorUser) (mir : Option Bytes)
include h

/-- A sector delivered counts and no more. -/
theorem sectorFor_delivered {k : Sector} (hk : k = .clean ∨ k = .corrected) :
    sectorFor s users mir a k = sectorSeen s users n f o k := by
  rcases hk with rfl | rfl <;> simp [sectorFor, h, sectorSeen, seenError]

/-- A sector good on its retry is noted for its users. -/
theorem sectorFor_retried : sectorFor s users mir a .retried = noteUsers users (sectorSeen s users n f o .retried) := by
  simp [sectorFor, h, sectorSeen, seenError]

/-- A sector lost fails its users. -/
theorem sectorFor_uncorrectable :
    sectorFor s users mir a .uncorrectable = sectorsFail n f mir users (sectorSeen s users n f o .uncorrectable) := by
  simp [sectorFor, h, sectorSeen, seenError]

end

/-- HBM_UNCORRECTABLE_READ is the read of its sector. -/
theorem exec_hbmUncorrectableRead (user : SectorUser) (shared : List SectorUser) (a : Nat) (o : Sector) (mir : Option Bytes) (s : State) :
    exec (.hbmUncorrectableRead user shared a o mir) s = .next (capSync s (sectorFor s (user :: shared) mir a o)) := rfl

/-- HBM_FLIT_CRC_FAIL on a stack that the module has. -/
theorem exec_hbmFlitCrcFail {s : State} {n : Nat} (k : Nat) (r : Option (List SectorUser × Option Bytes × Nat × Sector)) (hn : n < 8) :
    exec (.hbmFlitCrcFail n k r) s = .next (capSync s (flitFailsHbm s k r)) := by simp [exec, execHbmFlitCrcFail, hn]

/-! ## What a lost sector does to its users -/

section
variable {s : State} {cid : Nat} {c : Cmd} (n f : Nat) (h : findCmd s cid = some c) (hc : c.inFlight = true)
include h hc

/-- A command in flight ends with MEM_UNCORRECTABLE (R239). -/
theorem sectorFails_command (mir : Option Bytes) : sectorFails s n f mir (.command cid) = complete s c (0x20, n + f * 8) 0 := by
  simp [sectorFails, h, hc, memUncorrectable_whole]

/-- A command that a lost sector served is gone. -/
theorem sectorFails_command_gone (mir : Option Bytes) : findCmd (sectorFails s n f mir (.command cid)) cid = none := by
  rw [sectorFails_command n f h hc, ← findCmd_cid h]
  exact findCmd_complete_self _ _ _ _

/-- An update whose state block the mirror gives back goes on with note bit 9 (R49). -/
theorem sectorFails_mirrored (b : Nat) (d : Bytes) (hup : isUpdate c.opcode = true) :
    sectorFails s n f (some d) (.stateBlock cid b) = noteCmd (patchBlock s c b d) cid 0x200 := by
  simp [sectorFails, h, hc, hup]

/-- An update whose state block is lost ends with its master torn (R49). -/
theorem sectorFails_torn (b : Nat) (hup : isUpdate c.opcode = true) :
    findCmd (sectorFails s n f none (.stateBlock cid b)) cid = none := by
  obtain rfl := findCmd_cid h
  simp [sectorFails, h, hc, hup, tornEnd, findCmd_complete_self]

end

/-- A lost sector brings no command back. -/
theorem sectorFails_command_none {s : State} {cid x : Nat} (n f : Nat) (mir : Option Bytes) (h : findCmd s x = none) :
    findCmd (sectorFails s n f mir (.command cid)) x = none := by
  simp only [sectorFails]
  split
  · split
    · exact findCmd_complete_none _ _ h
    · exact h
  · exact h

/-- A command that waits for a lost sector is gone, whether the failure of another reader took it already or not. -/
theorem sectorFails_second_gone {s : State} {c d : Cmd} {cid : Nat} (e : Err) (w n f : Nat) (mir : Option Bytes)
    (h : findCmd s cid = some d) (hd : d.inFlight = true) :
    findCmd (sectorFails (complete s c e w) n f mir (.command cid)) cid = none := by
  cases hleft : findCmd (complete s c e w) cid with
  | none => exact sectorFails_command_none n f mir hleft
  | some x =>
    obtain rfl : d = x := Option.some.inj (h.symm.trans (findCmd_of_complete hleft))
    exact sectorFails_command_gone n f hleft hd mir

/-- The mirror's bytes are written to memory; no command is touched (R49). -/
@[simp] theorem patchBlock_cmds (s : State) (c : Cmd) (b : Nat) (d : Bytes) : (patchBlock s c b d).cmds = s.cmds := by
  unfold patchBlock
  refine List.foldlRecOn (motive := fun p : State × Bytes => p.1.cmds = s.cmds) _ _ rfl ?_
  intro p hp i _
  dsimp only
  split
  · exact hp
  · exact hp

@[simp] theorem patchBlock_findCmd (s : State) (c : Cmd) (b : Nat) (d : Bytes) (x : Nat) :
    findCmd (patchBlock s c b d) x = findCmd s x := by
  rw [findCmd, patchBlock_cmds]
  rfl

/-! ## The check of a compressed block (R222, R223) -/

section
variable {s : State} {cid desc : Nat} {block : Option Nat} {seen : List (Nat × Byte)} {c : Cmd} (h : findCmd s cid = some c)
include h

/-- A descriptor that the command does not read is not checked. -/
theorem exec_blockDecode_unread (hd : desc ∉ decodedBy s c) : exec (.compressedBlockDecode cid desc block seen) s = .next s := by
  simp [exec, execCompressedBlockDecode, h, hd]

/-- A block of a compressed descriptor that the command reads is checked. -/
theorem exec_blockDecode (hs : c.stage = .dispatched) (hz : (readDesc s desc).compressed = true) (hd : desc ∈ decodedBy s c)
    (h1 : 1 ≤ desc) (h2 : desc ≤ s.job.descCount) :
    exec (.compressedBlockDecode cid desc block seen) s = .next (checkBlock s c desc block seen) := by
  simp [exec, execCompressedBlockDecode, h, hs, hz, hd, h1, h2]

end

section
variable {s : State} {c : Cmd} {desc : Nat} {block : Option Nat} {seen : List (Nat × Byte)}

/-- A good block changes nothing. -/
theorem checkBlock_good (h : blockCause (firstFetch s seen) (readDesc s desc) (crcOnly c) block = none) :
    checkBlock s c desc block seen = s := by
  unfold checkBlock
  simp only [h]

section
variable {first : Nat} (h : blockCause (firstFetch s seen) (readDesc s desc) (crcOnly c) block = some first)
include h

/-- A block that passes at its re-fetch. -/
theorem checkBlock_retried (hnew : (desc, block) ∉ c.refetched) (hgood : blockCause s (readDesc s desc) (crcOnly c) block = none) :
    checkBlock s c desc block seen = retryGood s c desc block := by
  unfold checkBlock
  simp only [h, List.contains_iff_mem, hnew, hgood]
  rfl

/-- A block that fails at its re-fetch too. -/
theorem checkBlock_failed {cause : Nat} (hnew : (desc, block) ∉ c.refetched)
    (hbad : blockCause s (readDesc s desc) (crcOnly c) block = some cause) :
    checkBlock s c desc block seen = complete (countDamage s (decodeDie s c)) c (streamDamaged cause (block.getD 0xFFFF)) 0 := by
  unfold checkBlock
  simp only [h, List.contains_iff_mem, hnew, hbad]
  rfl

/-- A block that has had its re-fetch. -/
theorem checkBlock_again (hold : (desc, block) ∈ c.refetched) :
    checkBlock s c desc block seen = complete (countDamage s (decodeDie s c)) c (streamDamaged first (block.getD 0xFFFF)) 0 := by
  unfold checkBlock
  simp only [h, List.contains_iff_mem, hold]
  rfl

end
end

/-- The command of a block that passed at its re-fetch carries note bit 4 (R223). -/
theorem retryGood_command {s : State} {c : Cmd} (desc : Nat) (block : Option Nat) (h : findCmd s c.cid = some c) :
    findCmd (retryGood s c desc block) c.cid =
      some { c with notes := c.notes ||| 0x10, refetched := (desc, block) :: c.refetched } := by
  have hfind : findCmd (setZip s (decodeDie s c) { getZip s (decodeDie s c) with
      zretry := satAdd 32 (getZip s (decodeDie s c)).zretry 1 }) c.cid = some c := h
  exact findCmd_putCmd _ { c with notes := c.notes ||| 0x10, refetched := (desc, block) :: c.refetched } (by simp [hfind])

/-- ZRETRY counts it. -/
theorem retryGood_zretry (s : State) (c : Cmd) (desc : Nat) (block : Option Nat) :
    (getZip (retryGood s c desc block) (decodeDie s c)).zretry = min ((getZip s (decodeDie s c)).zretry + 1) 0xFFFFFFFF := by
  have hzip : ∀ (t : State) (x : Cmd) (n : Nat), getZip (putCmd t x) n = getZip t n := fun _ _ _ => rfl
  simp [retryGood, hzip, satAdd]

/-! ## The statement -/

/-- Settles O44: a read of a sector counts and then tells its users; a block is checked, re-fetched once, and fails. -/
theorem damagedReadsAreRetriedThenFail : Obligations.DamagedReadsAreRetriedThenFail := by
  unfold Obligations.DamagedReadsAreRetriedThenFail
  refine ⟨?nowhere, ?delivered, ?command, ?flit, ?block⟩
  case nowhere =>
    intro s user shared mir a o h
    have hsame : sectorFor s (user :: shared) mir a o = s := by simp [sectorFor, h]
    rw [exec_hbmUncorrectableRead, hsame, capSync_self]
  case delivered =>
    intro s user shared mir a n f o h
    constructor
    · have hsame : sectorFor s (user :: shared) mir a .clean = s := sectorFor_delivered h _ _ (.inl rfl)
      rw [exec_hbmUncorrectableRead, hsame, capSync_self]
    · have hk := capSync_counted s (sectorFor s (user :: shared) mir a .corrected)
      refine ⟨_, exec_hbmUncorrectableRead .., ?_⟩
      rw [hk.mem_eq, hk.cmds_eq, hk.queues_eq, sectorFor_delivered h _ _ (.inr rfl)]
      exact ⟨(sectorSeen_counts ..).1, by simp, by simp, by simp⟩
  case command =>
    intro s cid a n f o c mir h hfind hc
    have hseen (users : List SectorUser) (k : Sector) : findCmd (sectorSeen s users n f o k) cid = some c := by simpa using hfind
    refine ⟨?_, ?_, ?_, ?_⟩
    · have hk := capSync_counted s (sectorFor s [.command cid] mir a .retried)
      have hnote : sectorFor s [.command cid] mir a .retried = noteCmd (sectorSeen s [.command cid] n f o .retried) cid 0x10 := by
        rw [sectorFor_retried h]
        rfl
      refine ⟨_, exec_hbmUncorrectableRead .., ?_⟩
      rw [hk.mem_eq, hk.queues_eq, hk.findCmd_eq, hnote]
      refine ⟨?_, findCmd_noteCmd _ (hseen _ _), by simp, by simp [noteCmd_eq _ (hseen _ _)]⟩
      rw [noteCmd_mem]
      exact (sectorSeen_counts ..).2.1
    · have hk := capSync_counted s (sectorFor s [.command cid] mir a .uncorrectable)
      have hend : sectorFor s [.command cid] mir a .uncorrectable =
          complete (sectorSeen s [.command cid] n f o .uncorrectable) c (0x20, n + f * 8) 0 := by
        rw [sectorFor_uncorrectable h]
        exact sectorFails_command n f (hseen _ _) hc mir
      have hended := complete_ended (sectorSeen s [.command cid] n f o .uncorrectable) c (0x20, n + f * 8) 0
      rw [← hend] at hended
      refine ⟨_, _, _, exec_hbmUncorrectableRead .., hk, hended, (sectorSeen_counts ..).2.2, by simp, by simp, by simp, fun x => ?_⟩
      by_cases hx : claimAt s.mem.claims x = none
      · left
        rw [hk.mem_eq, hended.bytes x (by simpa using hx), sectorSeen_read]
      · exact .inr hx
    · intro cid2 c2 hfind2 hc2
      have hk := capSync_counted s (sectorFor s [.command cid, .command cid2] mir a .uncorrectable)
      have hend : sectorFor s [.command cid, .command cid2] mir a .uncorrectable =
          sectorFails (complete (sectorSeen s [.command cid, .command cid2] n f o .uncorrectable) c (0x20, n + f * 8) 0) n f mir
            (.command cid2) := by
        rw [sectorFor_uncorrectable h, ← sectorFails_command n f (hseen _ _) hc mir]
        rfl
      refine ⟨_, exec_hbmUncorrectableRead .., ?_⟩
      rw [hk.findCmd_eq, hk.findCmd_eq, hend]
      refine ⟨sectorFails_command_none n f mir ?_, sectorFails_second_gone _ _ n f mir (by simpa using hfind2) hc2⟩
      rw [← findCmd_cid hfind]
      exact findCmd_complete_self _ _ _ _
    · intro b d hup
      constructor
      · have hk := capSync_counted s (sectorFor s [.stateBlock cid b] (some d) a .uncorrectable)
        have hend : sectorFor s [.stateBlock cid b] (some d) a .uncorrectable =
            noteCmd (patchBlock (sectorSeen s [.stateBlock cid b] n f o .uncorrectable) c b d) cid 0x200 := by
          rw [sectorFor_uncorrectable h]
          exact sectorFails_mirrored n f (hseen _ _) hc b d hup
        refine ⟨_, exec_hbmUncorrectableRead .., ?_⟩
        rw [hk.findCmd_eq, hend]
        exact findCmd_noteCmd _ (by simpa using hfind)
      · have hk := capSync_counted s (sectorFor s [.stateBlock cid b] none a .uncorrectable)
        refine ⟨_, exec_hbmUncorrectableRead .., ?_⟩
        rw [hk.findCmd_eq, sectorFor_uncorrectable h]
        exact sectorFails_torn n f (hseen _ _) hc b hup
  case flit =>
    intro s n k hn
    refine ⟨⟨_, exec_hbmFlitCrcFail k none hn, capSync_counted _ _⟩, fun users mir a o hk => ?_, fun user shared mir a o hk => ?_⟩
    · have hagain : flitFailsHbm s k (some (users, mir, a, o)) = flitFailsHbm s k none := by simp [flitFailsHbm, hk]
      exact ⟨_, exec_hbmFlitCrcFail k _ hn, hagain ▸ capSync_counted _ _⟩
    · rw [exec_hbmFlitCrcFail k _ hn, exec_hbmUncorrectableRead, flitFailsHbm]
      simp only [Nat.not_le.mpr hk, if_false]
  case block =>
    rintro s cid desc block seen c d hfind hs rfl hz h1 h2
    obtain rfl := findCmd_cid hfind
    refine ⟨exec_blockDecode_unread hfind, fun hgood => ?_, fun first hd hfirst => ⟨fun hnew hgood => ?_, fun cause hnew hbad => ?_,
      fun hold => ?_⟩⟩
    · by_cases hd : desc ∈ decodedBy s c
      · rw [exec_blockDecode hfind hs hz hd h1 h2, checkBlock_good hgood]
      · exact exec_blockDecode_unread hfind hd
    · refine ⟨_, exec_blockDecode hfind hs hz hd h1 h2, ?_⟩
      rw [checkBlock_retried hfirst hnew hgood]
      exact ⟨retryGood_command desc block hfind, retryGood_zretry s c desc block, rfl, rfl⟩
    · exact ⟨_, exec_blockDecode hfind hs hz hd h1 h2, checkBlock_failed hfirst hnew hbad ▸ complete_ended _ _ _ _⟩
    · exact ⟨_, exec_blockDecode hfind hs hz hd h1 h2, checkBlock_again hfirst hold ▸ complete_ended _ _ _ _⟩

end Sys2Proof.Machine
end

section
/-! Dispatch and time-outs (R46, R47, R48, R56, R295): what a dispatch takes, claims and leaves, when a wait has reached its limit,
and the statement on both. -/

namespace Sys2Proof.Machine

/-! ## Tokens (R46) -/

/-- Each wait field counts for one. -/
theorem needed_cons (m n : Nat) (t : List Nat) : needed (m :: t) n = (if m = n then 1 else 0) + needed t n := by
  simp only [needed, List.filter_cons]
  split <;> simp_all [Nat.add_comm]

/-- With no counter short every counter holds what the command names it for. -/
theorem needed_le_of_firstShort {s : State} {waits : List Nat} {n : Nat} (h : firstShort s waits = none) (hn : n ≠ 0) :
    needed waits n ≤ (getCounter s n).count.toNat := by
  by_cases hmem : n ∈ waits
  case pos =>
    have hlong := List.find?_eq_none.mp h n hmem
    simpa [hn] using hlong
  case neg =>
    have hzero : needed waits n = 0 := by
      rw [needed, List.length_eq_zero_iff, List.filter_eq_nil_iff]
      rintro m hm heq
      exact hmem (of_decide_eq_true heq ▸ hm)
    omega

/-- The decrements of a dispatch touch the counters alone. -/
theorem takeTokens_frame (s : State) (waits : List Nat) : takeTokens s waits = { s with counters := (takeTokens s waits).counters } := by
  induction waits generalizing s with
  | nil => rfl
  | cons m t ih =>
    simp only [takeTokens]
    split
    · exact ih s
    · rw [ih (setCounter s m _)]
      rfl

/-- A counter loses one for each time it is named; its poison stays. -/
theorem takeTokens_counter {s : State} {waits : List Nat} {n : Nat} (hn : n ≠ 0)
    (h : needed waits n ≤ (getCounter s n).count.toNat) :
    (getCounter (takeTokens s waits) n).count.toNat = (getCounter s n).count.toNat - needed waits n ∧
      (getCounter (takeTokens s waits) n).poison = (getCounter s n).poison := by
  induction waits generalizing s with
  | nil => exact ⟨rfl, rfl⟩
  | cons m t ih =>
    rw [needed_cons] at h ⊢
    simp only [takeTokens]
    split
    case isTrue hm =>
      rw [if_neg (by omega : ¬ m = n), Nat.zero_add] at h ⊢
      exact ih h
    case isFalse hm =>
      have hself := getCounter_setCounter s m n { getCounter s m with count := (getCounter s m).count - 1 }
      by_cases heq : m = n
      case pos =>
        subst heq
        rw [if_pos rfl] at hself h ⊢
        have hdec : ((getCounter s m).count - 1).toNat = (getCounter s m).count.toNat - 1 := by bv_omega
        have hrest := ih (s := setCounter s m { getCounter s m with count := (getCounter s m).count - 1 })
          (by rw [hself]; dsimp only; omega)
        rw [hself] at hrest
        dsimp only at hrest
        exact ⟨by omega, hrest.2⟩
      case neg =>
        rw [if_neg (Ne.symm heq)] at hself
        rw [if_neg heq, Nat.zero_add] at h ⊢
        rw [← hself] at h ⊢
        exact ih h

/-! ## What a launch takes (R46, R193, R283, R305) -/

/-- The seats of a dispatch touch the Meres alone. -/
theorem takeSeats_frame (c : Cmd) (l : List Nat) (s : State) :
    takeSeats c l s = { s with compute := { s.compute with meres := (takeSeats c l s).compute.meres } } := by
  induction l generalizing s with
  | nil => rfl
  | cons m t ih =>
    rw [takeSeats, ih]
    rfl

/-- The rotation past the queue of a command that takes a count. -/
def turned (s : State) (c : Cmd) : State :=
  if c.q < 64 ∧ c.waits.any (· != 0) then { s with compute := { s.compute with turn := (c.q + 1) % 64 } } else s

/-- The state once a command has its tokens and its seats. -/
def seated (s : State) (c : Cmd) : State := takeSeats c c.meres (takeTokens (turned s c) c.waits)

/-- The state once it has its credit, or its table, too. -/
def equipped (s : State) (c : Cmd) : State :=
  let s1 := if c.opcode = 0x0206 then takeCredit (seated s c) c else seated s c
  if c.opcode = 0x0703 then installPhase s1 c else s1

/-- A command as its dispatch leaves it. -/
def launched (s : State) (c : Cmd) : Cmd :=
  { c with
    stage := .dispatched, started := true, since := microsOn s c.timeDie, begun := microsOn s 5, order := (equipped s c).nextCid,
    phase := (equipped s c).peers.epoch, scale := s.update.lscur, norm := mget 0 s.update.normq (c.arg 0x30 1) }

/-- A launch: what the command takes, then its record, then its claims. -/
theorem launch_eq (s : State) (c : Cmd) : launch s c =
    claimAll (putCmd { equipped s c with nextCid := (equipped s c).nextCid + 1 } (launched s c)) c.cid (targets s c) := rfl

section
variable (s : State) (c : Cmd)

/-- The rotation touches the turn alone. -/
theorem turned_eq : turned s c = { s with compute := { s.compute with
    turn := if c.q < 64 ∧ c.waits.any (· != 0) then (c.q + 1) % 64 else s.compute.turn } } := by
  unfold turned
  split <;> rfl

/-- Tokens, seats and the turn: nothing else differs. -/
theorem seated_eq : seated s c = { s with
    counters := (takeTokens (turned s c) c.waits).counters
    compute := { s.compute with
      meres := (seated s c).compute.meres
      turn := if c.q < 64 ∧ c.waits.any (· != 0) then (c.q + 1) % 64 else s.compute.turn } } := by
  obtain ⟨k, hk⟩ : ∃ k, takeTokens (turned s c) c.waits = { turned s c with counters := k } := ⟨_, takeTokens_frame _ _⟩
  obtain ⟨m, hm⟩ : ∃ m, takeSeats c c.meres { turned s c with counters := k } =
      { turned s c with counters := k, compute := { (turned s c).compute with meres := m } } := ⟨_, takeSeats_frame _ _ _⟩
  rw [seated, hk, hm, turned_eq]

/-- A credit or a table leaves the commands, the counters and the compute dies. -/
theorem equipped_keeps : (equipped s c).cmds = s.cmds ∧ (equipped s c).counters = (takeTokens (turned s c) c.waits).counters ∧
    (equipped s c).compute.turn = (if c.q < 64 ∧ c.waits.any (· != 0) then (c.q + 1) % 64 else s.compute.turn) := by
  have hseat : (equipped s c).cmds = (seated s c).cmds ∧ (equipped s c).counters = (seated s c).counters ∧
      (equipped s c).compute = (seated s c).compute := by
    unfold equipped
    dsimp only
    repeat' split
    all_goals exact ⟨rfl, rfl, rfl⟩
  obtain ⟨hcmds, hctr, hcomp⟩ := hseat
  rw [hcmds, hctr, hcomp, seated_eq]
  exact ⟨rfl, rfl, rfl⟩

end

section
variable {s : State} {c : Cmd}

/-- A command that is neither PIPE_SEND nor PHASE takes tokens and seats. -/
theorem equipped_plain (h1 : c.opcode ≠ 0x0206) (h2 : c.opcode ≠ 0x0703) : equipped s c = seated s c := by
  simp [equipped, h1, h2]

/-- PIPE_SEND takes one credit (R305). -/
theorem equipped_credits (h : c.opcode = 0x0206) : (getPipe (equipped s c) c.pq).credits = some (creditsOf s c - 1) := by
  have hpipe : (getPipe (seated s c) c.pq).credits = (getPipe s c.pq).credits := by
    rw [seated_eq]
    rfl
  simp [equipped, h, takeCredit, creditsOf, hpipe]

/-- PHASE installs its table; the ports switch to it one by one (R283). -/
theorem equipped_phase (h : c.opcode = 0x0703) : (equipped s c).peers.phase = c.arg 0x10 1 ∧
    (equipped s c).peers.switching = some c.cid ∧ (equipped s c).peers.oldRoute = s.peers.route := by
  have hroute : (seated s c).peers.route = s.peers.route := by rw [seated_eq]
  simp [equipped, h, installPhase, hroute]

end

/-! ## What a launch claims (R48) -/

section
variable (m : Memory) (cid k : Nat) {rs : List (Nat × Nat)} {a : Nat}

/-- A byte inside a new claim belongs to it. -/
theorem claimAt_claim_inside (h : Inside rs a) : ∃ u, claimAt (m.claim cid k rs).claims a = some u ∧ u.serial = k ∧ u.fresh = [] := by
  simp only [Memory.claim]
  induction rs with
  | nil => obtain ⟨r, hr, -⟩ := h; cases hr
  | cons r t ih =>
    rw [List.map_cons, List.cons_append, claimAt]
    split
    case isTrue => exact ⟨_, rfl, rfl, rfl⟩
    case isFalse hout =>
      obtain ⟨x, hx, hin⟩ := h
      rcases List.mem_cons.mp hx with rfl | ht
      · exact absurd hin hout
      · exact ih ⟨x, ht, hin⟩

/-- A byte outside the new claims belongs to whom it belonged to. -/
theorem claimAt_claim_outside (h : Outside rs a) : claimAt (m.claim cid k rs).claims a = claimAt m.claims a := by
  simp only [Memory.claim]
  induction rs with
  | nil => rfl
  | cons r t ih =>
    have hr := h r List.mem_cons_self
    rw [List.map_cons, List.cons_append, claimAt, if_neg (by dsimp only; omega)]
    exact ih fun x hx => h x (List.mem_cons_of_mem _ hx)

/-- What a command in flight will write is undefined (R48). -/
theorem Memory.read_claim_inside (h : Inside rs a) : ∃ n, (m.claim cid k rs).read a = Config.freeByte n a := by
  obtain ⟨u, hu, -, hfresh⟩ := claimAt_claim_inside m cid k h
  unfold Memory.read
  split
  case h_1 n _ => exact ⟨n, rfl⟩
  case h_2 => exact ⟨u.serial, by simp [hu, Claim.byte, hfresh]⟩

/-- What it will not write reads as before. -/
theorem Memory.read_claim_outside (h : Outside rs a) : (m.claim cid k rs).read a = m.read a := by
  unfold Memory.read
  rw [claimAt_claim_outside m cid k h]
  rfl

end

/-- Claims and their serial number: nothing else differs. -/
theorem claimAll_frame (s : State) (cid : Nat) (rs : List (Nat × Nat)) : claimAll s cid rs = { s with
    mem := { s.mem with claims := (claimAll s cid rs).mem.claims }, freeCtr := (claimAll s cid rs).freeCtr } := by
  unfold claimAll
  split <;> rfl

/-- The claims are those of the ranges; with no range there is none to make. -/
theorem claimAll_mem (s : State) (cid : Nat) (rs : List (Nat × Nat)) : (claimAll s cid rs).mem = s.mem.claim cid s.freeCtr rs := by
  unfold claimAll
  split
  case isTrue h => rw [List.isEmpty_iff.mp h]; rfl
  case isFalse => rfl

/-! ## The launch of a command -/

section
variable {s : State} {c : Cmd}

/-- What a launch keeps of what the command was equipped with. -/
theorem launch_frame (s : State) (c : Cmd) : (launch s c).counters = (equipped s c).counters ∧
    (launch s c).compute = (equipped s c).compute ∧ (launch s c).peers = (equipped s c).peers := by
  rw [launch_eq, claimAll_frame]
  exact ⟨rfl, rfl, rfl⟩

/-- The command of a launch is in flight. -/
theorem launch_findCmd (h : (findCmd s c.cid).isSome = true) : findCmd (launch s c) c.cid = some (launched s c) := by
  have hfind : findCmd { equipped s c with nextCid := (equipped s c).nextCid + 1 } c.cid = findCmd s c.cid := by
    rw [findCmd, (equipped_keeps s c).1]
    rfl
  rw [launch_eq, claimAll_frame]
  exact findCmd_putCmd _ (launched s c) (by rw [← h, ← hfind]; rfl)

/-- Each counter loses one for each time the command names it. -/
theorem launch_counter {n : Nat} (hfree : firstShort s c.waits = none) (hn : n ≠ 0) :
    (getCounter (launch s c) n).count.toNat = (getCounter s n).count.toNat - needed c.waits n ∧
      (getCounter (launch s c) n).poison = (getCounter s n).poison := by
  have hturn (k : Nat) : getCounter (turned s c) k = getCounter s k := by rw [turned_eq]; rfl
  have hctr : getCounter (launch s c) n = getCounter (takeTokens (turned s c) c.waits) n := by
    rw [getCounter, (launch_frame s c).1, (equipped_keeps s c).2.1]
    rfl
  have hneed : needed c.waits n ≤ (getCounter (turned s c) n).count.toNat := hturn n ▸ needed_le_of_firstShort hfree hn
  rw [hctr, ← hturn n]
  exact takeTokens_counter hn hneed

/-- The rotation moves past the queue of a command that takes a count. -/
theorem launch_turn (s : State) (c : Cmd) :
    (launch s c).compute.turn = if c.q < 64 ∧ c.waits.any (· != 0) then (c.q + 1) % 64 else s.compute.turn := by
  rw [(launch_frame s c).2.1, (equipped_keeps s c).2.2]

/-- A launch of a command that is neither PIPE_SEND nor PHASE: commands, counters, claims, seats and the turn alone differ. -/
theorem launch_rest (h1 : c.opcode ≠ 0x0206) (h2 : c.opcode ≠ 0x0703) : launch s c = { s with
    cmds := (launch s c).cmds, counters := (launch s c).counters, nextCid := (launch s c).nextCid, freeCtr := (launch s c).freeCtr
    mem := { s.mem with claims := (launch s c).mem.claims }
    compute := { s.compute with meres := (launch s c).compute.meres, turn := (launch s c).compute.turn } } := by
  rw [launch_eq, equipped_plain h1 h2, claimAll_frame, seated_eq]
  rfl

/-- The memory of such a launch: the command's claims are made. -/
theorem launch_mem (h1 : c.opcode ≠ 0x0206) (h2 : c.opcode ≠ 0x0703) :
    ∃ k, (launch s c).mem = s.mem.claim c.cid k (targets s c) := by
  rw [launch_eq, equipped_plain h1 h2, claimAll_mem, seated_eq]
  exact ⟨_, rfl⟩

end

end Sys2Proof.Machine
end

section
/-! COMMAND_DISPATCH, TOKEN_WAIT_TIMEOUT and the write of QTIMEOUT (R30, R46, R56, R295): which command they take and what becomes
of it, and the statement on them. -/

namespace Sys2Proof.Machine

/-! ## The command that a queue offers (R46) -/

/-- The oldest waiting command of a queue belongs to it. -/
theorem oldest_q {s : State} {q : Nat} {c : Cmd} (h : oldest s q = some c) : c.q = q := by
  have hc := List.find?_some h
  simp only [Bool.and_eq_true, beq_iff_eq] at hc
  exact hc.1

/-- A candidate is not held back. -/
theorem held_of_candidate {s : State} {q : Nat} {c : Cmd} (h : candidate s q = some c) : held s c = false := by
  unfold candidate at h
  split at h
  case isTrue =>
    have hc := List.find?_some h
    simp only [Bool.and_eq_true, Bool.not_eq_true'] at hc
    exact hc.2
  case isFalse =>
    split at h
    · split at h
      · cases h
      · next hfree =>
        obtain rfl := Option.some.inj h
        simpa using hfree
    · cases h

/-- A candidate has its tokens. -/
theorem firstShort_of_candidate {s : State} {q : Nat} {c : Cmd} (h : candidate s q = some c) : firstShort s c.waits = none := by
  have hheld := held_of_candidate h
  simp only [held, Bool.or_eq_false_iff, Option.isSome_eq_false_iff, Option.isNone_iff_eq_none] at hheld
  exact hheld.1.2

/-- A queue with no command offers none. -/
theorem candidate_of_nil {s : State} (q : Nat) (h : s.cmds = []) : candidate s q = none := by
  simp [candidate, oldest, h]

/-! ## Poison at the head (R46) -/

/-- With no poisoned head nothing is killed. -/
theorem settle_of_unpoisoned {s : State} (h : poisonedHead s = none) : settle s = s := by
  rw [settle]
  cases s.cmds.length with
  | zero => rfl
  | succ n => simp [sweep, h]

/-- A single command is the oldest of its own queue alone. -/
theorem oldest_single {s : State} {c x : Cmd} {q : Nat} (hone : s.cmds = [c]) (h : oldest s q = some x) : x = c ∧ c.q = q := by
  have hx := List.mem_of_find?_eq_some h
  rw [hone, List.mem_singleton] at hx
  subst hx
  exact ⟨rfl, oldest_q h⟩

/-- The single command of a running queue, poisoned. -/
theorem poisonedHead_single {s : State} {c : Cmd} {n : Nat} (hone : s.cmds = [c]) (hq : c.q < 64) (hst : c.stage = .fetched)
    (hrun : queueState s c.q = 1) (hp : firstPoisoned s c.waits = some n) : poisonedHead s = some (c, n) := by
  have hold : oldest s c.q = some c := by simp [oldest, hone, hst]
  cases h : poisonedHead s with
  | none =>
    have hnone := List.findSome?_eq_none_iff.mp h c.q (List.mem_range.mpr hq)
    simp [hrun, hold, hp] at hnone
  | some p =>
    obtain ⟨q, -, hat⟩ := List.exists_of_findSome?_eq_some h
    split at hat
    · split at hat
      · next x hx =>
        obtain ⟨rfl, rfl⟩ := oldest_single hone hx
        simpa [hp, eq_comm] using hat
      · cases hat
    · cases hat

/-- The end of a single command leaves none. -/
theorem complete_single {s : State} {c : Cmd} (e : Err) (w : Nat) (hone : s.cmds = [c]) : (complete s c e w).cmds = [] := by
  rw [complete_of_alone _ _ (by simp [hone]), finishOne_cmds, hone]
  simp

/-- A single command that has been dispatched waits on no poison. -/
theorem poisonedHead_of_dispatched {s : State} {c : Cmd} (hone : s.cmds = [c]) (hst : c.stage = .dispatched) : poisonedHead s = none := by
  refine List.findSome?_eq_none_iff.mpr fun q _ => ?_
  simp [oldest, hone, hst]

/-! ## COMMAND_DISPATCH -/

/-- A command's stamp changes the guard states and the step that it keeps, no more. -/
theorem stampCmd_eq (s : State) (c : Cmd) : stampCmd s c = { c with
    evalNo := if c.started then c.evalNo else s.guard.geval, step := if c.started then c.step else s.job.step } := by
  unfold stampCmd
  split <;> rfl

section
variable {s : State} {q : Nat} {c : Cmd}

/-- A running queue of a running K dispatches its candidate. -/
theorem exec_commandDispatch (hq : q ≤ 64) (hrun : queueState s q = 1) (hk : kRuns s = true) (hend : q < 64 → jobEnding s = false)
    (hp : poisonedHead s = none) (hc : candidate s q = some c) : exec (.commandDispatch q) s = .next (dispatchCmd s c) := by
  have hjob : (decide (q < 64) && jobEnding s) = false := by
    rw [Bool.and_eq_false_iff, decide_eq_false_iff_not, or_iff_not_imp_left, not_not]
    exact hend
  simp [exec, execCommandDispatch, dispatchNext, settle_of_unpoisoned hp, hq, hrun, hk, hjob, hc]

/-- S is up where the command needs it. -/
theorem springUp_of (h : onSpring c.opcode = true → springUp s = true) : (onSpring c.opcode && !springUp s) = false := by
  cases hs : onSpring c.opcode with
  | false => rfl
  | true => simp [h hs]

section
variable (hspring : onSpring c.opcode = true → springUp s = true) (hdom : domainsNeeded s c = [])
include hspring hdom

/-- A Mere that is no longer exposed ends its command (R56). -/
theorem dispatchCmd_lost {l : Nat} (hl : lostMere s c = some l) : dispatchCmd s c = complete s c (0x11, 0x230) 0 := by
  simp [dispatchCmd, springUp_of hspring, hdom, hl, badParam]

section
variable (hl : lostMere s c = none) (hseat : seatsFree s c = true) (hout : outranked s c = false)
include hl hseat hout

/-- A failing issue check ends its command (R110). -/
theorem dispatchCmd_checked {e : Err} (he : opcodeIssue s (stampCmd s c) = some e) : dispatchCmd s c = complete s c e 0 := by
  simp [dispatchCmd, springUp_of hspring, hdom, hl, hseat, hout, he]

/-- A command whose checks pass is launched. -/
theorem dispatchCmd_launched (he : opcodeIssue s (stampCmd s c) = none) : dispatchCmd s c = launch s (stampCmd s c) := by
  simp [dispatchCmd, springUp_of hspring, hdom, hl, hseat, hout, he]

end
end

/-- A single poisoned command is killed, and nothing is left to dispatch. -/
theorem exec_commandDispatch_poisoned {n : Nat} (hone : s.cmds = [c]) (hq : c.q < 64) (hst : c.stage = .fetched)
    (hrun : queueState s c.q = 1) (hp : firstPoisoned s c.waits = some n) :
    exec (.commandDispatch c.q) s = .next (complete s c (0x41, 0x400000 + n) 0) := by
  have hsettle : settle s = complete s c (0x41, 0x400000 + n) 0 := by
    rw [complete_of_alone _ _ (by simp [hone]), settle, hone]
    simp [sweep, poisonedHead_single hone hq hst hrun hp, killed]
  simp [exec, execCommandDispatch, dispatchNext, hsettle, hq.le, candidate_of_nil _ (complete_single _ _ hone)]

end

/-! ## Time-outs (R30, R46, R295) -/

/-- The limit of a queue in ms (R29). -/
theorem Queue.waitMs_eq (v : Queue) : v.waitMs = bits v.qtimeout.toNat 19 0 := by simp [Queue.waitMs, bits]

/-- The limit that a write of QTIMEOUT sets. -/
theorem bits_qtimeout (w : Word) : bits (w &&& 0xFFFFF#32).toNat 19 0 = bits w.toNat 19 0 := by
  have hmask : (w &&& 0xFFFFF#32).toNat = w.toNat % 2 ^ 20 := Nat.and_two_pow_sub_one_eq_mod w.toNat 20
  simp [hmask, bits]

/-- A wait has reached its limit where there is one. -/
theorem timeUp_iff (v : Queue) (us : Nat) :
    v.timeUp us = true ↔ bits v.qtimeout.toNat 19 0 ≠ 0 ∧ 1000 * bits v.qtimeout.toNat 19 0 ≤ us := by
  simp [Queue.timeUp, Queue.waitMs_eq]

/-- What is left after the kills stood before them. -/
theorem mem_of_mem_sweep {k : Nat} {s : State} {x : Cmd} (h : x ∈ (sweep k s).cmds) : x ∈ s.cmds := by
  induction k generalizing s with
  | zero => exact h
  | succ k ih =>
    simp only [sweep] at h
    split at h
    · have hx := ih h
      rw [finishOne_cmds] at hx
      exact List.mem_of_mem_filter hx
    · exact h

/-- What is left after a completion stood before it. -/
theorem mem_of_mem_complete {s : State} {c x : Cmd} {e : Err} {w : Nat} (h : x ∈ (complete s c e w).cmds) : x ∈ s.cmds := by
  have hx := mem_of_mem_sweep h
  rw [finishOne_cmds] at hx
  exact List.mem_of_mem_filter hx

/-- With no update in flight none waits for the verdict. -/
theorem expireUpdate_of_none {s : State} (q : Nat) (h : ∀ x ∈ s.cmds, isUpdate x.opcode = false) : expireUpdate s q = s := by
  have hlate : lateUpdate s q = none := List.find?_eq_none.mpr fun x hx => by simp [h x hx]
  rw [expireUpdate, hlate]

/-- TOKEN_WAIT_TIMEOUT where nothing is poisoned. -/
theorem exec_tokenWaitTimeout {s : State} {q : Nat} (hq : q ≤ 64) (hp : poisonedHead s = none) :
    exec (.tokenWaitTimeout q) s = .next (expireUpdate (expireWait s q) q) := by
  simp [exec, execTokenWaitTimeout, settle_of_unpoisoned hp, hq]

section
variable {s : State} {q : Nat} {c : Cmd} (hold : oldest s q = some c)
include hold

/-- The oldest command of a running queue whose wait has reached the limit ends with TIMEOUT (R46). -/
theorem expireWait_late {n : Nat} (hrun : queueState s q = 1) (hshort : firstShort s c.waits = some n)
    (hpois : firstPoisoned s c.waits = none) (htime : (getQueue s q).timeUp c.waitUs = true) :
    expireWait s q = complete s c (0x42, n) 0 := by
  simp [expireWait, hold, hshort, hrun, hpois, htime, timedOut]

/-- Before that nothing happens. -/
theorem expireWait_early (htime : (getQueue s q).timeUp c.waitUs = false) : expireWait s q = s := by
  simp only [expireWait, hold, htime]
  split
  · simp
  · rfl

end

/-- A write of QTIMEOUT through a host interface that is up. -/
theorem exec_qtimeoutWrite {s : State} {q : Nat} (w : Word) (hq : q ≤ 64) (hs : barsUp s = true) :
    exec (.qtimeoutWrite q w) s = .next (setTimeout s q w) := by
  simp [exec, execQtimeoutWrite, hq, hs]

/-- A waiting command whose wait has reached the limit ends at its test (R30). -/
theorem retestWait_late {s : State} {c : Cmd} {n : Nat} (hfind : findCmd s c.cid = some c) (hst : c.stage = .fetched)
    (hshort : firstShort s c.waits = some n) (hpois : firstPoisoned s c.waits = none)
    (htime : (getQueue s c.q).timeUp c.waitUs = true) : retestWait s c.cid = complete s c (0x42, n) 0 := by
  simp [retestWait, hfind, hshort, hpois, hst, htime, timedOut]

/-- The test of a queue with a single command is that command's. -/
theorem retest_single {s t : State} {c : Cmd} (hone : s.cmds = [c]) (hend : retestWait s c.cid = t) (hnone : t.cmds = []) :
    expireUpdate (retestWaits ((s.cmds.filter (fun x => x.q == c.q)).map (·.cid)) s) c.q = t := by
  have hall : (s.cmds.filter (fun x => x.q == c.q)).map (·.cid) = [c.cid] := by simp [hone]
  rw [hall, retestWaits, retestWaits, hend, expireUpdate_of_nil _ hnone]

/-- A write of QTIMEOUT ends the single command that has waited as long (R30). -/
theorem setTimeout_late {s : State} {w : Word} {c : Cmd} {n : Nat} (hone : s.cmds = [c]) (hst : c.stage = .fetched)
    (hshort : firstShort s c.waits = some n) (hpois : firstPoisoned s c.waits = none)
    (htime : ({ getQueue s c.q with qtimeout := w &&& 0xFFFFF#32 } : Queue).timeUp c.waitUs = true) :
    setTimeout s c.q w = complete (setQueue s c.q { getQueue s c.q with qtimeout := w &&& 0xFFFFF#32 }) c (0x42, n) 0 :=
  retest_single hone (retestWait_late (by simp [findCmd, hone]) hst hshort hpois (by simpa using htime)) (complete_single _ _ hone)

/-- The single update command that has waited for the verdict up to the limit ends with TIMEOUT (R295). -/
theorem expireUpdate_late {s : State} {c : Cmd} (hone : s.cmds = [c]) (hst : c.stage = .dispatched) (hup : isUpdate c.opcode = true)
    (hfinal : s.peers.final = false) (htime : (getQueue s c.q).timeUp (microsOn s c.timeDie - c.since) = true) :
    expireUpdate s c.q = complete s c (0x42, 0) 0 := by
  have hlate : lateUpdate s c.q = some c := by simp [lateUpdate, hone, hst, hup, hfinal, htime]
  rw [expireUpdate, hlate]
  rfl

/-! ## The statement -/

/-- Settles O12: the candidate is launched or ends, and a wait that has reached its limit ends. -/
theorem dispatchTakesTokensOrTimesOut : Obligations.DispatchTakesTokensOrTimesOut := by
  unfold Obligations.DispatchTakesTokensOrTimesOut
  refine ⟨?launched, ?checked, ?lost, ?poisoned, ?late, ?early, ?retested, ?update⟩
  case launched =>
    intro s q c hq hrun hk hend hp hc hfind hspring hdom hl hseat hout hok
    have hexec := exec_commandDispatch hq hrun hk hend hp hc
    rw [dispatchCmd_launched hspring hdom hl hseat hout hok] at hexec
    have hstamp := stampCmd_eq s c
    generalize stampCmd s c = d at hexec hstamp ⊢
    have hcid : d.cid = c.cid := by rw [hstamp]
    have hwaits : d.waits = c.waits := by rw [hstamp]
    have hop : d.opcode = c.opcode := by rw [hstamp]
    have hqd : d.q = c.q := by rw [hstamp]
    have hpq : d.pq = c.pq := by rw [hstamp]; rfl
    have hcred : creditsOf s d = creditsOf s c := by rw [hstamp]; rfl
    have harg : d.arg 0x10 1 = c.arg 0x10 1 := by rw [hstamp]; rfl
    have htime : d.timeDie = c.timeDie := by rw [hstamp]; rfl
    have hfree := firstShort_of_candidate hc
    have hturn := launch_turn s d
    have hfound : findCmd (launch s d) d.cid = some (launched s d) := launch_findCmd (by rw [hcid, hfind]; rfl)
    simp only [hqd, hwaits] at hturn
    refine ⟨_, launched s d, hexec, hcid ▸ hfound, rfl, rfl, congrArg (microsOn s) htime, rfl, ?_, ?_, fun n hn => ?_, hturn, fun h => ?_,
      fun h => ?_, fun h1 h2 => ?_⟩
    · simp [launched, hstamp]
    · simp [launched, hstamp]
    · rw [← hwaits]
      exact launch_counter (hwaits ▸ hfree) hn
    · rw [getPipe, (launch_frame s d).2.2, ← hpq, ← hcred]
      exact equipped_credits (hop.trans h)
    · rw [(launch_frame s d).2.2, ← hcid, ← harg]
      exact equipped_phase (hop.trans h)
    · rw [← hop] at h1 h2
      obtain ⟨k, hmem⟩ := launch_mem (s := s) h1 h2
      rw [hmem]
      exact ⟨fun a ha => Memory.read_claim_inside _ _ _ ha, fun a ha => Memory.read_claim_outside _ _ _ ha, hmem ▸ launch_rest h1 h2⟩
  case checked =>
    intro s q c e hq hrun hk hend hp hc hspring hdom hl hseat hout he
    refine ⟨_, exec_commandDispatch hq hrun hk hend hp hc, ?_⟩
    rw [dispatchCmd_checked hspring hdom hl hseat hout he]
    exact complete_ended _ _ _ _
  case lost =>
    intro s q c l hq hrun hk hend hp hc hspring hdom hl
    refine ⟨_, exec_commandDispatch hq hrun hk hend hp hc, ?_⟩
    rw [dispatchCmd_lost hspring hdom hl]
    exact complete_ended _ _ _ _
  case poisoned =>
    rintro s q c n hq hone rfl hst hrun hp
    exact ⟨_, exec_commandDispatch_poisoned hone hq hst hrun hp, complete_ended _ _ _ _⟩
  case late =>
    intro s q c n hq hp hrun hold hshort hpois hlim hwait hups
    have hlate := expireWait_late hold hrun hshort hpois ((timeUp_iff _ _).mpr ⟨hlim, hwait⟩)
    refine ⟨_, exec_tokenWaitTimeout hq hp, ?_⟩
    rw [hlate, expireUpdate_of_none q fun x hx => hups x (mem_of_mem_complete hx)]
    exact complete_ended _ _ _ _
  case early =>
    intro s q c hq hp hold hlim hups
    have htime : (getQueue s q).timeUp c.waitUs = false := by
      rw [← Bool.not_eq_true, timeUp_iff]
      omega
    rw [exec_tokenWaitTimeout hq hp, expireWait_early hold htime, expireUpdate_of_none q hups]
  case retested =>
    rintro s q w c n hq hbars hone rfl hst hshort hpois hlim hwait
    have htime : ({ getQueue s c.q with qtimeout := w &&& 0xFFFFF#32 } : Queue).timeUp c.waitUs = true := by
      rw [timeUp_iff, bits_qtimeout]
      exact ⟨hlim, hwait⟩
    refine ⟨_, exec_qtimeoutWrite w hq hbars, ?_⟩
    rw [setTimeout_late hone hst hshort hpois htime]
    exact complete_ended _ _ _ _
  case update =>
    rintro s q c hq hone rfl hst hup hfinal hlim hwait
    have hnone : expireWait s c.q = s := by simp [expireWait, oldest, hone, hst]
    refine ⟨_, exec_tokenWaitTimeout hq (poisonedHead_of_dispatched hone hst), ?_⟩
    rw [hnone, expireUpdate_late hone hst hup hfinal ((timeUp_iff _ _).mpr ⟨hlim, hwait⟩)]
    exact complete_ended _ _ _ _

end Sys2Proof.Machine
end

section
/-! Numbers and sums (R57, R58, R60, R66, R106, R126): the fields of a code and the value they give, what rounding keeps, the
lanes of the vector engine, the combining tree of a split reduction, and the statement on them. -/

namespace Sys2Proof.Machine

/-! ## The fields of a code (R57, R58) -/

/-- The mantissa field. -/
def mantField (fmt code : Nat) : Nat := code % 2 ^ mbits fmt

/-- The exponent field. -/
def expField (fmt code : Nat) : Nat := code / 2 ^ mbits fmt % 2 ^ ebits fmt

/-- The code without its sign bit. -/
def magField (fmt code : Nat) : Nat := code % 2 ^ (ebits fmt + mbits fmt)

/-- The sign bit. -/
def signField (fmt code : Nat) : Bool := bit code (mbits fmt + ebits fmt)

/-- The whole-number significand of a finite code: the leading one is implied but for subnormal values. -/
def significand (fmt code : Nat) : Nat :=
  if expField fmt code = 0 then mantField fmt code else mantField fmt code + 2 ^ mbits fmt

/-- The exponent of the significand's last place. -/
def placeExp (fmt code : Nat) : Int :=
  if expField fmt code = 0 then fqmin fmt else fqmin fmt + expField fmt code - 1

theorem mantField_lt (fmt code : Nat) : mantField fmt code < 2 ^ mbits fmt := Nat.mod_lt _ (Nat.two_pow_pos _)

theorem expField_lt (fmt code : Nat) : expField fmt code < 2 ^ ebits fmt := Nat.mod_lt _ (Nat.two_pow_pos _)

theorem magField_lt (fmt code : Nat) : magField fmt code < 2 ^ (ebits fmt + mbits fmt) := Nat.mod_lt _ (Nat.two_pow_pos _)

theorem magField_eq (fmt code : Nat) : magField fmt code = expField fmt code * 2 ^ mbits fmt + mantField fmt code := by
  rw [magField, Nat.add_comm, Nat.pow_add, Nat.mod_mul, Nat.mul_comm, Nat.add_comm]
  rfl

/-- A code is its sign bit over its magnitude. -/
theorem signBit_add_magField {fmt code : Nat} (hfmt : fmt < 7) (hcode : code < 2 ^ fwidth fmt) :
    signBit fmt (signField fmt code) + magField fmt code = code := by
  have htop : code / 2 ^ (ebits fmt + mbits fmt) < 2 := by
    rw [fwidth, if_neg (by omega), Nat.add_assoc, Nat.add_comm, Nat.pow_succ] at hcode
    exact Nat.div_lt_of_lt_mul hcode
  have hsplit := Nat.div_add_mod code (2 ^ (ebits fmt + mbits fmt))
  rw [signField, bit, Nat.add_comm (mbits fmt), Nat.mod_eq_of_lt htop, magField]
  obtain h0 | h1 := Nat.le_one_iff_eq_zero_or_eq_one.mp (Nat.le_of_lt_succ htop)
  · simpa [h0, signBit] using hsplit
  · simpa [h1, signBit] using hsplit

/-! ## The value of a code by its fields -/

/-- The formats with infinities have them right above the greatest finite value, at the last exponent. -/
theorem infCode_eq {fmt : Nat} (hform : fmt ≤ 2 ∨ fmt = 4) :
    infCode fmt = (2 ^ ebits fmt - 1) * 2 ^ mbits fmt ∧ infCode fmt = maxCode fmt + 1 := by
  obtain h | rfl := hform
  · interval_cases fmt <;> exact ⟨rfl, rfl⟩
  · exact ⟨rfl, rfl⟩

/-- A code is an infinity or a NaN at the last exponent of a format that has infinities, or the NaN of format 3, or finite. -/
theorem decodeElem_eq (fmt code : Nat) : decodeElem fmt code =
    if (fmt ≤ 2 ∨ fmt = 4) ∧ expField fmt code = 2 ^ ebits fmt - 1 then
      if mantField fmt code = 0 then .inf (signField fmt code) else .nan
    else if fmt = 3 ∧ code % 128 = 127 then .nan
    else .fin (signField fmt code) (significand fmt code) (placeExp fmt code) := by
  have hvalue : Num.fin (signField fmt code) (significand fmt code) (placeExp fmt code) =
      if expField fmt code = 0 then .fin (signField fmt code) (mantField fmt code) (fqmin fmt)
      else .fin (signField fmt code) (mantField fmt code + 2 ^ mbits fmt) (fqmin fmt + expField fmt code - 1) := by
    by_cases h0 : expField fmt code = 0 <;> simp only [significand, placeExp, h0, if_true, if_false]
  rw [hvalue]
  by_cases hform : fmt ≤ 2 ∨ fmt = 4
  · have h3 : fmt ≠ 3 := by omega
    simp only [hform, h3, true_and, false_and, if_false]
    exact if_pos hform
  · simp only [hform, false_and, if_false]
    exact if_neg hform

/-- A code is finite where it is neither at the last exponent of a format with infinities nor the NaN of format 3. -/
theorem isFin_decodeElem_iff (fmt code : Nat) : (decodeElem fmt code).isFin = true ↔
    ¬ ((fmt ≤ 2 ∨ fmt = 4) ∧ expField fmt code = 2 ^ ebits fmt - 1) ∧ ¬ (fmt = 3 ∧ code % 128 = 127) := by
  rw [decodeElem_eq]
  split_ifs <;> simp_all [Num.isFin]

/-- The value of a finite code has the code's sign, significand and place. -/
theorem decodeElem_of_isFin {fmt code : Nat} (h : (decodeElem fmt code).isFin = true) :
    decodeElem fmt code = .fin (signField fmt code) (significand fmt code) (placeExp fmt code) := by
  obtain ⟨hlast, hnan⟩ := (isFin_decodeElem_iff fmt code).mp h
  rw [decodeElem_eq, if_neg hlast, if_neg hnan]

/-- A finite code lies at or below the greatest one. -/
theorem magField_le_maxCode {fmt code : Nat} (hfmt : fmt < 7) (h : (decodeElem fmt code).isFin = true) :
    magField fmt code ≤ maxCode fmt := by
  have hlt := magField_lt fmt code
  obtain ⟨hlast, hnan⟩ := (isFin_decodeElem_iff fmt code).mp h
  by_cases hform : fmt ≤ 2 ∨ fmt = 4
  · have hexp : expField fmt code ≠ 2 ^ ebits fmt - 1 := fun hexp => hlast ⟨hform, hexp⟩
    obtain ⟨hinf, hmax⟩ := infCode_eq hform
    have hbelow : (expField fmt code + 1) * 2 ^ mbits fmt ≤ (2 ^ ebits fmt - 1) * 2 ^ mbits fmt :=
      Nat.mul_le_mul_right _ (by have := expField_lt fmt code; omega)
    have hmant := mantField_lt fmt code
    rw [Nat.add_mul] at hbelow
    rw [magField_eq]
    omega
  · obtain rfl | rfl | rfl : fmt = 3 ∨ fmt = 5 ∨ fmt = 6 := by omega
    · have h127 : code % 128 ≠ 127 := fun hc => hnan ⟨rfl, hc⟩
      exact Nat.le_of_lt_succ (lt_of_le_of_ne (Nat.le_of_lt_succ hlt) h127)
    · exact Nat.le_of_lt_succ hlt
    · exact Nat.le_of_lt_succ hlt

/-- An infinity has the sign of its code and the one magnitude that its format gives it. -/
theorem decodeElem_eq_inf {fmt code : Nat} {n : Bool} (h : decodeElem fmt code = .inf n) :
    (fmt ≤ 2 ∨ fmt = 4) ∧ n = signField fmt code ∧ magField fmt code = infCode fmt := by
  rw [decodeElem_eq] at h
  split_ifs at h with hexp hmant
  obtain ⟨hform, hexp⟩ := hexp
  exact ⟨hform, (Num.inf.inj h).symm, by rw [magField_eq, hexp, hmant, (infCode_eq hform).1, Nat.add_zero]⟩

/-! ## Rounding keeps what its format holds (R66) -/

/-- A significand of at most `p + 1` bits is kept where it fills them, or where its last place is the least one. -/
theorem rndMag_of_fits {p m : Nat} {qmin e : Int} (hm : m < 2 ^ (p + 1)) (he : qmin ≤ e) (hplace : 2 ^ p ≤ m ∨ e = qmin) :
    rndMag (p + 1) qmin m e = (m, e) := by
  by_cases h0 : m = 0
  · have hpow := Nat.two_pow_pos p
    obtain rfl : e = qmin := hplace.resolve_left (by omega)
    simp [rndMag, h0]
  · have hlast : lastPlace (p + 1) qmin m e = e := by
      have hle := (Nat.log2_lt h0).mpr hm
      rw [lastPlace]
      obtain hfull | hmin := hplace
      · have hge := (Nat.le_log2 h0).mpr hfull
        omega
      · omega
    simp [rndMag, h0, hlast]

/-- Rounding keeps the value of a finite code. -/
theorem rndMag_significand (fmt code : Nat) :
    rndMag (mbits fmt + 1) (fqmin fmt) (significand fmt code) (placeExp fmt code) = (significand fmt code, placeExp fmt code) := by
  have hm := mantField_lt fmt code
  by_cases h0 : expField fmt code = 0
  · simp only [significand, placeExp, h0, if_pos]
    exact rndMag_of_fits (by omega) le_rfl (.inr rfl)
  · simp only [significand, placeExp, h0, if_false]
    exact rndMag_of_fits (by omega) (by omega) (.inl (by omega))

/-- The magnitude code of a finite code's value is the code's own. -/
theorem magCode_significand (fmt code : Nat) : magCode fmt (significand fmt code) (placeExp fmt code) = magField fmt code := by
  have hm := mantField_lt fmt code
  rw [magField_eq]
  by_cases h0 : expField fmt code = 0
  · simp [significand, magCode, h0, hm]
  · have hexp : (fqmin fmt + expField fmt code - 1 - fqmin fmt + 1).toNat = expField fmt code := by omega
    have hhigh : ¬ mantField fmt code + 2 ^ mbits fmt < 2 ^ mbits fmt := by omega
    have htop : mantField fmt code + 2 ^ mbits fmt < 2 ^ (mbits fmt + 1) := by omega
    simp only [significand, placeExp, magCode, h0, if_false, if_neg hhigh, if_pos htop, hexp, Nat.add_sub_cancel]

/-- A value of a format converts to its own code (R60, R66). -/
theorem rneCode_decodeElem {fmt code : Nat} (hfmt : fmt < 7) (hcode : code < 2 ^ fwidth fmt) (hnan : decodeElem fmt code ≠ .nan) :
    rneCode fmt (decodeElem fmt code) = { code := code, sat := false } := by
  have hself := signBit_add_magField hfmt hcode
  cases h : decodeElem fmt code with
  | nan => exact absurd h hnan
  | inf n =>
    obtain ⟨hform, rfl, hmag⟩ := decodeElem_eq_inf h
    simp only [rneCode, if_pos hform, ← hmag, hself]
  | fin n m e =>
    have hfin : (decodeElem fmt code).isFin = true := by rw [h]; rfl
    rw [← h, decodeElem_of_isFin hfin]
    simp only [rneCode, rndMag_significand, magCode_significand, if_pos (magField_le_maxCode hfmt hfin), hself]

/-! ## The lanes of the vector engine (R126) -/

/-- Lane `l` takes its elements from the whole list in order: those at positions congruent to it. -/
theorem foldl_laneElems (f : Word → Word → Word) (xs : List Word) (l : Nat) (a : Word) : (laneElems xs l).foldl f a =
    (List.range xs.length).foldl (fun a i => if i % 256 = l then f a (xs.getD i 0) else a) a := by
  have hxs : xs = (List.range xs.length).map (fun i => xs.getD i 0) :=
    List.ext_getElem (by simp) fun i h _ => by simp [h]
  have hzip : xs.zip (List.range xs.length) = (List.range xs.length).map (fun i => (xs.getD i 0, i)) := by
    conv_lhs => rw [hxs]
    simpa using List.zip_map' (f := fun i => xs.getD i 0) (g := id) (l := List.range xs.length)
  simp [laneElems, hzip, List.filter_map, List.foldl_map, List.foldl_filter]

/-- A lane's value before the folds. -/
theorem lanes_getD (f : Word → Word → Word) (xs : List Word) {l : Nat} (h : l < 256) :
    (lanes f xs).getD l 0 = (List.range xs.length).foldl (fun a i => if i % 256 = l then f a (xs.getD i 0) else a) 0 := by
  rw [← foldl_laneElems]
  simp [lanes, h]

/-- A fold adds the lane half the width above. -/
theorem foldLanes_getD {h l : Nat} (xs : List Word) (hl : l < h) :
    (foldLanes h xs).getD l 0 = fadd (xs.getD l 0) (xs.getD (l + h) 0) := by
  simp [foldLanes, hl]

/-- The lanes after the first `k` folds. -/
def foldedLanes (xs : List Word) : Nat → List Word
  | 0 => xs
  | k + 1 => foldLanes (128 / 2 ^ k) (foldedLanes xs k)

/-- Eight folds leave one lane. -/
theorem foldAll_eq (xs : List Word) : foldAll xs = (foldedLanes xs 8).getD 0 0 := rfl

/-! ## The combining tree (R106) -/

theorem length_combineLevel (d : Nat) (t : List Word) : (combineLevel d t).length = t.length := by simp [combineLevel]

/-- A level of the tree brings part `j + d` into part `j`, for every second of the parts still in play. -/
theorem getElem_combineLevel (d : Nat) (t : List Word) (j : Nat) (h : j < (combineLevel d t).length) :
    (combineLevel d t)[j] = if j % (2 * d) = 0 ∧ j + d < t.length then fadd (t.getD j 0) (t.getD (j + d) 0) else t.getD j 0 := by
  simp [combineLevel]

/-- Six parts combine in three levels: neighbours, then pairs, then the last pair. -/
theorem combineTree_six (p0 p1 p2 p3 p4 p5 : Word) :
    combineTree [p0, p1, p2, p3, p4, p5] = fadd (fadd (fadd p0 p1) (fadd p2 p3)) (fadd p4 p5) := by
  simp [combineTree, getElem_combineLevel, length_combineLevel]

/-- Settles O8: a code's value keeps its fields through the rounding; the lanes are those of the successive folds; the tree goes
level by level. -/
theorem numbersRoundAndSumAsStated : Obligations.NumbersRoundAndSumAsStated := by
  refine ⟨fun fmt code hfmt hcode hnan => rneCode_decodeElem hfmt hcode hnan, fun xs => ?_, combineTree_six⟩
  refine ⟨fun k l => (foldedLanes (lanes (fun a x => ffma x x a) xs) k).getD l 0, fun l hl => ?_, fun k l _ hl => ?_, ?_⟩
  · exact lanes_getD _ xs hl
  · exact foldLanes_getD _ hl
  · exact foldAll_eq _

end Sys2Proof.Machine
end

section
/-! Events on one Mere (R80, R92, R118, R190, R192, R196): what such an event leaves as it was, the parts that an array takes,
and the statement on them. -/

namespace Sys2Proof.Machine

/-! ## An event on one Mere -/

/-- Mere `p` becomes `m` and the corrections of the event's reads are counted (R80); the other Meres, the commands, the queues
and device memory are as before. -/
structure MereEvent (s t : State) (p fixed : Nat) (m : Mere) : Prop where
  self : getMere t p = m
  others : ∀ y, y ≠ p → getMere t y = getMere s y
  fixed : t.rel.rsramcor = min (s.rel.rsramcor + fixed) 0xFFFFFFFF
  mem : t.mem = s.mem
  cmds : t.cmds = s.cmds
  queues : t.queues = s.queues

section
variable (s : State) (p fixed : Nat) (m : Mere)

/-- A Mere replaced, its array held for a while. -/
theorem mereEvent_stalled : MereEvent s (corrected (stalled (setMere s p m) p) fixed) p fixed m :=
  ⟨getMere_setMere_same s p m, fun y h => getMere_setMere_ne s p y m h, rfl, rfl, rfl, rfl⟩

/-- A Mere replaced, a free value taken. -/
theorem mereEvent_tickFree : MereEvent s (corrected (tickFree (setMere s p m)) fixed) p fixed m :=
  ⟨getMere_setMere_same s p m, fun y h => getMere_setMere_ne s p y m h, rfl, rfl, rfl, rfl⟩

end

/-! ## The part of a step (R118, R192) -/

/-- A Mere with the work of a part done: the output of a run staged, or the chunks of a slice promoted into the array's half of
the Tarn. -/
def partWork (s : State) (c : Cmd) (m : Mere) (k : List Step) (array : Bool) (n tile : Nat) (x : Part) : Mere :=
  if c.onVectors then stageRun s c m n x
  else match arrayWork (ownView s c.cid) c array tile with
  | none => m
  | some w =>
    let upd := promotePart (ownView s c.cid) c w (padOperands (ownView s c.cid) c m.pad k array n) (m.tau w.tau) x (placeOf k array w tile)
    if array then { m with tarnB := upd m.tarnB } else { m with tarnA := upd m.tarnA }

/-- A Mere with array `array` past step `n`. -/
def Mere.pastStep (m : Mere) (array : Bool) (n : Nat) : Mere :=
  if array then { m with stepsB := n + 1 } else { m with stepsA := n + 1 }

section
variable (m : Mere) (array : Bool) (n : Nat)

@[simp] theorem Mere.steps_pastStep : (m.pastStep array n).steps array = n + 1 := by cases array <;> rfl
@[simp] theorem Mere.steps_pastStep_not : (m.pastStep array n).steps (!array) = m.steps (!array) := by cases array <;> rfl
@[simp] theorem Mere.tarnA_pastStep : (m.pastStep array n).tarnA = m.tarnA := by cases array <;> rfl
@[simp] theorem Mere.tarnB_pastStep : (m.pastStep array n).tarnB = m.tarnB := by cases array <;> rfl
@[simp] theorem Mere.stagedA_pastStep : (m.pastStep array n).stagedA = m.stagedA := by cases array <;> rfl

end

/-- The output of a run goes to the staging area alone. -/
theorem stageRun_frame (s : State) (c : Cmd) (m : Mere) (n : Nat) (x : Part) :
    stageRun s c m n x = { m with pad := (stageRun s c m n x).pad, stagedA := (stageRun s c m n x).stagedA } := by
  simp only [stageRun]
  split <;> rfl

/-- A run that writes anything stages one more block. -/
theorem length_stagedA_stageRun {s : State} {c : Cmd} (m : Mere) (n : Nat) {x : Part} (h : runRanges s c x ≠ []) :
    (stageRun s c m n x).stagedA.length = m.stagedA.length + 1 := by
  simp [stageRun, h]

section
variable {s : State} {c : Cmd} {m : Mere} {k : List Step} {array : Bool} {n tile : Nat} {x : Part}

/-- A part of VECTOR or STATS stages its output. -/
theorem partWork_onVectors (h : c.onVectors = true) : partWork s c m k array n tile x = stageRun s c m n x := if_pos h

/-- A part of an array command on a tile promotes its chunks. -/
theorem partWork_tile {w : ArrayWork} (h : c.onVectors = false) (hw : arrayWork (ownView s c.cid) c array tile = some w) :
    (if array then (partWork s c m k array n tile x).tarnB else (partWork s c m k array n tile x).tarnA) =
      promotePart (ownView s c.cid) c w (padOperands (ownView s c.cid) c m.pad k array n) (m.tau w.tau) x (placeOf k array w tile)
        (if array then m.tarnB else m.tarnA) := by
  cases array <;> simp [partWork, h, hw]

/-- A part leaves the other half of the Tarn and the count of steps. -/
theorem partWork_frame : (if array then (partWork s c m k array n tile x).tarnA = m.tarnA
      else (partWork s c m k array n tile x).tarnB = m.tarnB) ∧
    ∀ a, (partWork s c m k array n tile x).steps a = m.steps a := by
  by_cases hvec : c.onVectors = true
  case pos =>
    rw [partWork_onVectors hvec, stageRun_frame]
    exact ⟨by split <;> rfl, fun _ => rfl⟩
  case neg =>
    simp only [partWork, if_neg hvec]
    cases arrayWork (ownView s c.cid) c array tile with
    | none => exact ⟨by split <;> rfl, fun _ => rfl⟩
    | some w => cases array <;> exact ⟨rfl, fun _ => rfl⟩

end

/-! ## ARRAY_SLICE_DONE -/

section
variable {s : State} {c : Cmd} {p tile slice fixed n : Nat} {array : Bool} {k : List Step} {x : Part}

/-- No part is left on the array. -/
theorem sliceDone_none (hk : k = courseAt (ownView s c.cid) c p) (hn : n = nextPart k array ((getMere s p).steps array))
    (hx : (k[n]?).bind (fun x => x.part array) = none) : sliceDone s c p array tile slice fixed = s := by
  subst hk hn
  simp only [sliceDone, hx]

/-- The next part is taken where it is the one named, the Mere runs the command, and loads and places are ready. -/
theorem sliceDone_some (hk : k = courseAt (ownView s c.cid) c p) (hn : n = nextPart k array ((getMere s p).steps array))
    (hx : (k[n]?).bind (fun x => x.part array) = some x) : sliceDone s c p array tile slice fixed =
      if (getMere s p).running = some c.cid ∧ x.tile = tile ∧ x.slice = slice ∧
          partReady (ownView s c.cid) c (getMere s p) k array n x = true ∧
          (c.onVectors = true → (getMere s p).stagedA.length < 2) then
        corrected (stalled (setMere s p ((partWork s c (getMere s p) k array n tile x).pastStep array n)) p) fixed
      else s := by
  subst hk hn
  simp only [sliceDone, hx]
  refine if_congr ?_ rfl rfl
  cases c.onVectors <;> simp [and_assoc]

end

/-- ARRAY_SLICE_DONE of an array command in flight. -/
theorem exec_arraySliceDone {s : State} {cid p : Nat} {c : Cmd} (tile slice fixed : Nat) (array : Bool) (hp : p < 272)
    (hfind : findCmd s cid = some c) (hflight : c.inFlight = true) (hlo : 0x0101 ≤ c.opcode) (hhi : c.opcode ≤ 0x0107) :
    exec (.arraySliceDone cid p ⟨array, tile⟩ slice fixed) s = .next (sliceDone s c p array tile slice fixed) := by
  simp [exec, execArraySliceDone, hp, hfind, hflight, hlo, hhi]

/-- Settles O42: the one step of the course that may be taken is taken, and leaves what a Mere's event leaves. -/
theorem arraysTakeTheirPartsInOrder : Obligations.ArraysTakeTheirPartsInOrder := by
  unfold Obligations.ArraysTakeTheirPartsInOrder
  intro s cid p tile slice fixed n array c k m hp hfind hflight hlo hhi hm hk hn
  rw [exec_arraySliceDone tile slice fixed array hp hfind hflight hlo hhi]
  subst hm
  refine ⟨fun hx => ?none, fun hrun => ?idle, fun x hx => ⟨fun hbad => ?refused, fun hrun htile hslice hready hroom => ?taken⟩⟩
  case none => rw [sliceDone_none hk hn hx]
  case idle =>
    cases hx : (k[n]?).bind (fun x => x.part array) with
    | none => rw [sliceDone_none hk hn hx]
    | some x => rw [sliceDone_some hk hn hx, if_neg fun h => hrun h.1]
  case refused =>
    rw [sliceDone_some hk hn hx, if_neg]
    rintro ⟨-, htile, hslice, hready, hroom⟩
    rcases hbad with h | h | h | ⟨hvec, hfull⟩
    · exact h htile
    · exact h hslice
    · simp [hready] at h
    · exact absurd (hroom hvec) (by omega)
  case taken =>
    rw [sliceDone_some hk hn hx, if_pos ⟨hrun, htile, hslice, hready, hroom⟩]
    obtain ⟨hself, hothers, hfixed, hmem, hcmds, hqueues⟩ := mereEvent_stalled s p fixed
      ((partWork s c (getMere s p) k array n tile x).pastStep array n)
    obtain ⟨hhalf, hsteps⟩ := partWork_frame (s := s) (c := c) (m := getMere s p) (k := k) (array := array) (n := n)
      (tile := tile) (x := x)
    refine ⟨_, rfl, ?_⟩
    rw [hself]
    refine ⟨by simp, by simp [hsteps], by simpa using hhalf, fun w hmat hw => ?_, fun hvec hout => ?_, hfixed, hothers, hmem,
      hcmds, hqueues⟩
    · simpa using partWork_tile hmat hw
    · simpa [partWork_onVectors hvec] using length_stagedA_stageRun _ n hout

end Sys2Proof.Machine
end

section
/-! Loads and seats (R84, R85, R190, R193-R195): what a load lays into the scratchpad, which waiting command a free Mere starts,
and what a start leaves. -/

namespace Sys2Proof.Machine

/-! ## Loads in plane form (R84, R85) -/

/-- Writes to a map at other keys leave a record. -/
theorem mget_foldl_mput_ne {α β : Type} (d : α) (key : β → Nat) (val : Map α → β → α) (l : List β) (m : Map α) {a : Nat}
    (h : ∀ e ∈ l, key e ≠ a) : mget d (l.foldl (fun t e => mput t (key e) (val t e)) m) a = mget d m a := by
  induction l generalizing m with
  | nil => rfl
  | cons e t ih =>
    rw [List.foldl_cons, ih _ fun x hx => h x (List.mem_cons_of_mem _ hx), mget_mput_ne _ _ _ _ _ (h e List.mem_cons_self).symm]

/-- Bytes laid in a scratchpad leave those before and after them. -/
theorem mget_padPut_outside (d : Byte) (pad : Map Byte) {b a : Nat} {bs : Bytes} (h : a < b ∨ b + bs.length ≤ a) :
    mget d (padPut pad b bs) a = mget d pad a := by
  refine mget_foldl_mput_ne d (fun e : Nat × Byte => b + e.1) (fun _ e => e.2) _ _ fun e he => ?_
  have hlt := List.mem_range.mp (List.of_mem_zip he).1
  omega

/-- Byte `a` lies in no row of buffer `b` of a region, neither in its code plane nor in its scale plane. -/
def Region.OffRows (g : Region) (b a : Nat) : Prop :=
  ∀ r, r < g.rows → ¬(g.rowAt b r ≤ a ∧ a < g.rowAt b r + 64 * g.pitch) ∧
    ¬(g.scaleRowAt b r ≤ a ∧ a < g.scaleRowAt b r + 64 * g.scalePitch)

/-- A load stays within the rows of its buffer. -/
theorem mget_fillPad_offRows (d : Byte) (x : Moved) {g : Region} {b a : Nat} (f : Fill) (take : Bool → Bool) (pad : Map Byte)
    (h : g.OffRows b a) : mget d (fillPad x g b f take pad) a = mget d pad a := by
  have hrows : ∀ e ∈ ((List.range f.rows.length).zip f.rows).filter (fun e => take e.2.1 && decide (e.1 < g.rows)),
      e.1 < g.rows := fun e he => by
    have := (List.mem_filter.mp he).2
    simp_all
  unfold fillPad
  revert hrows
  generalize ((List.range f.rows.length).zip f.rows).filter (fun e => take e.2.1 && decide (e.1 < g.rows)) = l
  intro hrows
  induction l generalizing pad with
  | nil => rfl
  | cons e t ih =>
    obtain ⟨hcode, hscale⟩ := h e.1 (hrows e List.mem_cons_self)
    have hlen (bs : Bytes) (n : Nat) : (bs.take n).length ≤ n := List.length_take_le n bs
    rw [List.foldl_cons, ih _ fun y hy => hrows y (List.mem_cons_of_mem _ hy),
      mget_padPut_outside _ _ (by have := hlen (e.2.2.flatMap x.scales) (64 * g.scalePitch); omega),
      mget_padPut_outside _ _ (by have := hlen (e.2.2.flatMap x.codes) (64 * g.pitch); omega)]

/-! ## SLICE_LOAD_DONE (R190, R193) -/

/-- A Mere with load `n` of a region in its scratchpad, the halo rows left out. -/
def loadLanded (s : State) (c : Cmd) (m : Mere) (region n : Nat) (f : Fill) : Mere :=
  let m1 := { m with landedSlices := m.landedSlices ++ [(c.cid, region)] }
  match sourceOf (ownView s c.cid) c f.operand f.segs with
  | none => m1
  | some x =>
    { m1 with pad := fillPad x (operandRegion c region) (n % 2) f (fun h => !h) m.pad, scales := mput m.scales f.operand x.tensor }

section
variable {s : State} {c : Cmd} {m : Mere} {region n : Nat} {f : Fill}

/-- A load changes scratchpad, scales and the list of loads alone. -/
theorem loadLanded_frame : loadLanded s c m region n f = { m with
    landedSlices := m.landedSlices ++ [(c.cid, region)]
    pad := (loadLanded s c m region n f).pad, scales := (loadLanded s c m region n f).scales } := by
  unfold loadLanded
  cases sourceOf (ownView s c.cid) c f.operand f.segs <;> rfl

/-- A load puts its operand's rows and tensor scale in their places. -/
theorem loadLanded_source {x : Moved} (h : sourceOf (ownView s c.cid) c f.operand f.segs = some x) :
    (loadLanded s c m region n f).pad = fillPad x (operandRegion c region) (n % 2) f (fun h => !h) m.pad ∧
      mget (.fin false 1 0) (loadLanded s c m region n f).scales f.operand = x.tensor := by
  simp [loadLanded, h]

/-- A load leaves every byte outside its rows. -/
theorem loadLanded_offRows {a : Nat} (h : (operandRegion c region).OffRows (n % 2) a) :
    mget 0 (loadLanded s c m region n f).pad a = mget 0 m.pad a := by
  unfold loadLanded
  cases sourceOf (ownView s c.cid) c f.operand f.segs with
  | none => rfl
  | some x => exact mget_fillPad_offRows _ _ _ _ _ h

/-- One more load of the region has landed. -/
theorem landed_loadLanded : (loadLanded s c m region n f).landed c.cid region = m.landed c.cid region + 1 := by
  rw [loadLanded_frame]
  simp [Mere.landed]

end

/-- A landing touches the waiting seats and the note of the first one landed. -/
theorem seatsLanded_frame (m : Mere) (c : Cmd) (k : List Step) :
    seatsLanded m c k = { m with first := (seatsLanded m c k).first, waiting := (seatsLanded m c k).waiting } := rfl

/-- A waiting command loads its first slice alone. -/
theorem mayLoad_waiting {m : Mere} {cid region n : Nat} {k : List Step} (hrun : m.running ≠ some cid) (hn : 0 < n) :
    mayLoad m cid k region n = false := by
  unfold mayLoad
  split
  · rfl
  · rw [if_neg hrun]
    simp
    omega

section
variable {s : State} {cid p region n : Nat} {c : Cmd}

/-- The next load of a region lands where the command is seated and its buffer may be taken. -/
theorem sliceLoad_lands {e : Nat × Fill} (he : (loadsOf (courseAt (ownView s c.cid) c p) region)[n]? = some e)
    (hn : n = (getMere s p).landed c.cid region) (hseat : (getMere s p).seats c.cid = true)
    (hmay : mayLoad (getMere s p) c.cid (courseAt (ownView s c.cid) c p) region n = true) : sliceLoad s c p region n =
      setMere s p (seatsLanded (loadLanded s c (getMere s p) region n e.2) c (courseAt (ownView s c.cid) c p)) := by
  simp only [sliceLoad, he, hseat, hmay, beq_iff_eq.mpr hn, Bool.and_self, if_true]
  rfl

/-- Any other load, and one that may not land yet, changes nothing. -/
theorem sliceLoad_waits (h : n ≠ (getMere s p).landed c.cid region ∨ (getMere s p).seats c.cid = false ∨
      mayLoad (getMere s p) c.cid (courseAt (ownView s c.cid) c p) region n = false) : sliceLoad s c p region n = s := by
  unfold sliceLoad
  dsimp only
  split
  · rfl
  · rw [if_neg]
    rw [Bool.and_eq_true, Bool.and_eq_true, beq_iff_eq]
    rintro ⟨⟨hn, hseat⟩, hmay⟩
    rcases h with h | h | h
    · exact h hn
    · simp [hseat] at h
    · simp [hmay] at h

/-- SLICE_LOAD_DONE of a command in flight. -/
theorem exec_sliceLoadDone (region n : Nat) (hp : p < 272) (hfind : findCmd s cid = some c) (hflight : c.inFlight = true) :
    exec (.sliceLoadDone cid p region n) s = .next (sliceLoad s c p region n) := by
  simp [exec, execSliceLoadDone, hp, hfind, hflight]

end

/-! ## The seat that a free Mere starts (R194) -/

section
variable {s : State} {m : Mere} {w : Seat} {pre post : List Seat}

/-- The first seat of which a test holds. -/
theorem find?_seat {test : Seat → Bool} (hw : m.waiting = pre ++ w :: post) (hpre : ∀ x ∈ pre, test x = false) (h : test w = true) :
    m.waiting.find? test = some w :=
  List.find?_eq_some_iff_append.mpr ⟨h, pre, post, hw, fun x hx => by simp [hpre x hx]⟩

/-- No seat is pinned where every skip count is below 4. -/
theorem find?_pinned_none (h : ∀ x ∈ m.waiting, x.skip < 4) : m.waiting.find? (fun w => decide (4 ≤ w.skip)) = none :=
  List.find?_eq_none.mpr fun x hx => by have := h x hx; simp; omega

/-- The oldest pinned command alone may start, once it has landed, and by itself only if it is no gang. -/
theorem nextSeat_pinned (hw : m.waiting = pre ++ w :: post) (hpre : ∀ x ∈ pre, x.skip < 4) (hskip : 4 ≤ w.skip) :
    nextSeat s m = if w.landed && !seatGang s w then some w else none := by
  have hfind : m.waiting.find? (fun w => decide (4 ≤ w.skip)) = some w :=
    find?_seat hw (fun x hx => by simpa using hpre x hx) (by simpa using hskip)
  simp only [nextSeat, hfind]

/-- With none pinned, the command whose first slice completed first while the Mere stood idle starts. -/
theorem nextSeat_first (hw : m.waiting = pre ++ w :: post) (hskip : ∀ x ∈ m.waiting, x.skip < 4)
    (hother : ∀ x ∈ pre, x.cid ≠ w.cid) (hfirst : m.first = some w.cid) : nextSeat s m = some w := by
  have hfind : m.waiting.find? (fun w => m.first == some w.cid) = some w :=
    find?_seat hw (fun x hx => by simpa [hfirst] using (hother x hx).symm) (by simp [hfirst])
  simp only [nextSeat, find?_pinned_none hskip, hfind]

/-- With none pinned and none noted as first, the oldest landed command that is no gang starts, if there is one. -/
theorem nextSeat_landed (hskip : ∀ x ∈ m.waiting, x.skip < 4) (hfirst : m.first = none) :
    nextSeat s m = m.waiting.find? (fun w => w.landed && !seatGang s w) := by
  have hnone : m.waiting.find? (fun w => m.first == some w.cid) = none := by simp [hfirst]
  simp only [nextSeat, find?_pinned_none hskip, hnone]

/-- The order of the waiting seats: the pinned one, the one noted as first, the oldest landed one. -/
theorem nextSeat_of_order (hw : m.waiting = pre ++ w :: post) (hpre : ∀ x ∈ pre, x.skip < 4 ∧ x.cid ≠ w.cid)
    (h : (4 ≤ w.skip ∧ w.landed = true ∧ seatGang s w = false) ∨
      ((∀ x ∈ w :: post, x.skip < 4) ∧ m.first = some w.cid) ∨
      ((∀ x ∈ w :: post, x.skip < 4) ∧ m.first = none ∧ (∀ x ∈ pre, x.landed = false ∨ seatGang s x = true) ∧
        w.landed = true ∧ seatGang s w = false)) : nextSeat s m = some w := by
  have hall (hpost : ∀ x ∈ w :: post, x.skip < 4) : ∀ x ∈ m.waiting, x.skip < 4 := fun x hx =>
    (List.mem_append.mp (hw ▸ hx)).elim (fun hbefore => (hpre x hbefore).1) (hpost x)
  rcases h with ⟨hskip, hland, hgang⟩ | ⟨hskip, hfirst⟩ | ⟨hskip, hfirst, hbefore, hland, hgang⟩
  · simp [nextSeat_pinned hw (fun x hx => (hpre x hx).1) hskip, hland, hgang]
  · exact nextSeat_first hw (hall hskip) (fun x hx => (hpre x hx).2) hfirst
  · rw [nextSeat_landed (hall hskip) hfirst]
    exact find?_seat hw (fun x hx => by rcases hbefore x hx with h | h <;> simp [h]) (by simp [hland, hgang])

/-- Nothing landed and none noted as first: nothing starts. -/
theorem nextSeat_none (hland : ∀ x ∈ m.waiting, x.landed = false) (hfirst : m.first = none) : nextSeat s m = none := by
  unfold nextSeat
  split
  case h_1 w hpin => simp [hland w (List.mem_of_find?_eq_some hpin)]
  case h_2 =>
    have hnone : m.waiting.find? (fun w => m.first == some w.cid) = none := by simp [hfirst]
    rw [hnone]
    exact List.find?_eq_none.mpr fun x hx => by simp [hland x hx]

end

/-- The seats passed over are those ahead. -/
theorem passedOver_append (w : Seat) (pre post : List Seat) (h : ∀ x ∈ pre, x.cid ≠ w.cid) :
    passedOver w.cid (pre ++ w :: post) = pre := by
  induction pre with
  | nil => simp [passedOver]
  | cons x t ih =>
    rw [List.cons_append, passedOver, if_neg (h x List.mem_cons_self), ih fun y hy => h y (List.mem_cons_of_mem _ hy)]

/-- The seats ahead count a skip, the started one is gone, those behind stay. -/
theorem skipAhead_append (w : Seat) (pre post : List Seat) (h : ∀ x ∈ pre, x.cid ≠ w.cid) :
    skipAhead w.cid (pre ++ w :: post) = pre.map (fun x => { x with skip := x.skip + 1 }) ++ post := by
  induction pre with
  | nil => simp [skipAhead]
  | cons x t ih =>
    rw [List.cons_append, skipAhead, if_neg (h x List.mem_cons_self), ih fun y hy => h y (List.mem_cons_of_mem _ hy)]
    rfl

/-! ## Starts (R193-R195) -/

section
variable (s : State) (cid p : Nat)

@[simp] theorem startOn_cmds : (startOn s cid p).cmds = s.cmds := rfl

/-- The Mere of a start. -/
theorem getMere_startOn_same : getMere (startOn s cid p) p = { getMere s p with
    running := some cid, first := none, waiting := skipAhead cid (getMere s p).waiting, filler := false, late := false, stepsA := 0,
    stepsB := 0, drainedA := [], drainedB := [], combined := [] } := getMere_setMere_same _ _ _

theorem getMere_startOn_ne {x : Nat} (h : x ≠ p) : getMere (startOn s cid p) x = getMere s x := getMere_setMere_ne _ _ _ _ h

/-- The stream of the Mere's die counts a late start and the skips. -/
theorem getStream_startOn : getStream (startOn s cid p) (mereDie p) = { getStream s (mereDie p) with
    slate := satAdd 32 (getStream s (mereDie p)).slate (b2n (getMere s p).late)
    sskip := satAdd 32 (getStream s (mereDie p)).sskip (passedOver cid (getMere s p).waiting).length } :=
  getStream_setStream_same _ _ _

end

section
variable (cid : Nat) (l : List Nat) (s : State) {p : Nat}

@[simp] theorem startAll_cmds : (startAll cid l s).cmds = s.cmds := by
  induction l generalizing s with
  | nil => rfl
  | cons q t ih => rw [startAll, ih, startOn_cmds]

/-- Starts leave the Meres that they do not name. -/
theorem getMere_startAll_of_notMem (h : p ∉ l) : getMere (startAll cid l s) p = getMere s p := by
  induction l generalizing s with
  | nil => rfl
  | cons q t ih =>
    rw [startAll, ih _ (List.not_mem_of_not_mem_cons h), getMere_startOn_ne _ _ _ (List.ne_of_not_mem_cons h)]

/-- A start reaches every Mere of the list. -/
theorem running_startAll_of_mem (h : p ∈ l) : (getMere (startAll cid l s) p).running = some cid := by
  induction l generalizing s with
  | nil => cases h
  | cons q t ih =>
    by_cases ht : p ∈ t
    case pos => exact ih _ ht
    case neg =>
      obtain rfl := (List.mem_cons.mp h).resolve_right ht
      rw [startAll, getMere_startAll_of_notMem _ _ _ ht, getMere_startOn_same]

end

section
variable {s : State} {p cid : Nat} {w : Seat} {c : Cmd}

/-- MERE_START of a free Mere. -/
theorem exec_mereStart_starts (hp : p < 272) (hfree : (getMere s p).running = none) (h : nextSeat s (getMere s p) = some w) :
    exec (.mereStart p) s = .next (startOn s w.cid p) := by
  simp [exec, execMereStart, hp, hfree, h]

/-- MERE_START of a Mere that runs a command, or that has none to start. -/
theorem exec_mereStart_waits (hp : p < 272) (h : (getMere s p).running ≠ none ∨ nextSeat s (getMere s p) = none) :
    exec (.mereStart p) s = .next s := by
  by_cases hfree : (getMere s p).running = none
  · simp [exec, execMereStart, hp, hfree, h.resolve_left (not_not_intro hfree)]
  · simp [exec, execMereStart, hp, hfree]

/-- GANG_START of a gang command in flight: all of its Meres or none. -/
theorem exec_gangStart (hfind : findCmd s cid = some c) (hgang : isGang c = true) (hflight : c.inFlight = true) :
    exec (.gangStart cid) s = .next (if ∀ p ∈ mereSet s c, gangReady s cid p = true then startAll cid (mereSet s c) s else s) := by
  simp [exec, execGangStart, hfind, hgang, hflight]

end

end Sys2Proof.Machine
end

section
/-! Combines, halo rows and drains (R106, R183, R191): what each leaves on its Meres, and the statement on the Meres' events. -/

namespace Sys2Proof.Machine

/-! ## Words of a Tarn half (R102, R105) -/

/-- Two elements of a tile at one place share no word: rows and columns within a block, and then the block, tell them apart. -/
theorem tarnIndex_inj {w : ArrayWork} {p e e' : Nat} (hcols : 64 ∣ w.cols) (hpos : 0 < w.cols)
    (h : tarnIndex w p e = tarnIndex w p e') : e = e' := by
  obtain ⟨b, hb⟩ := hcols
  have hb0 : 0 < b := by omega
  have hmax : max w.cols 1 = w.cols := by omega
  have hdiv : w.cols / 64 = b := by omega
  simp only [tarnIndex, ArrayWork.blockOf, hmax, hdiv] at h
  have hq : e % w.cols / 64 < b ∧ e' % w.cols / 64 < b := by
    have := Nat.mod_lt e hpos
    have := Nat.mod_lt e' hpos
    omega
  have hblock : e / w.cols / 64 * b + e % w.cols / 64 = e' / w.cols / 64 * b + e' % w.cols / 64 := by omega
  have hrow (x y : Nat) (hy : y < b) : (x * b + y) / b = x := by
    rw [Nat.add_comm, Nat.add_mul_div_right _ _ hb0, Nat.div_eq_of_lt hy, Nat.zero_add]
  have hrows : e / w.cols / 64 = e' / w.cols / 64 := by
    calc e / w.cols / 64 = (e / w.cols / 64 * b + e % w.cols / 64) / b := (hrow _ _ hq.1).symm
      _ = (e' / w.cols / 64 * b + e' % w.cols / 64) / b := by rw [hblock]
      _ = e' / w.cols / 64 := hrow _ _ hq.2
  rw [hrows] at hblock
  rw [← Nat.div_add_mod e w.cols, ← Nat.div_add_mod e' w.cols, show e / w.cols = e' / w.cols by omega,
    show e % w.cols = e' % w.cols by omega]

/-- Changes at distinct keys each see the record as it was. -/
theorem mget_foldl_mput_mem {α β : Type} (d : α) (key : β → Nat) (f : α → β → α) {l : List β} (m : Map α) {e : β}
    (hnodup : l.Nodup) (he : e ∈ l) (hinj : ∀ x ∈ l, key x = key e → x = e) :
    mget d (l.foldl (fun t x => mput t (key x) (f (mget d t (key x)) x)) m) (key e) = f (mget d m (key e)) e := by
  induction l generalizing m with
  | nil => cases he
  | cons y t ih =>
    obtain ⟨hy, ht⟩ := List.nodup_cons.mp hnodup
    rw [List.foldl_cons]
    by_cases hye : y = e
    case pos =>
      subst hye
      have hkeys : ∀ x ∈ t, key x ≠ key y := fun x hx hk => hy (hinj x (List.mem_cons_of_mem _ hx) hk ▸ hx)
      rw [mget_foldl_mput_ne d key (fun t x => f (mget d t (key x)) x) t _ hkeys, mget_mput_same]
    case neg =>
      have hkey : key e ≠ key y := fun hk => hye (hinj y List.mem_cons_self hk.symm)
      rw [ih _ ht ((List.mem_cons.mp he).resolve_left (Ne.symm hye)) fun x hx => hinj x (List.mem_cons_of_mem _ hx),
        mget_mput_ne _ _ _ _ _ hkey]

/-! ## COMBINE_RECEIVE (R106) -/

/-- A member receives from members after it. -/
theorem lt_of_mem_senders {j p x : Nat} (h : x ∈ senders j p) : j < x := by
  simp only [senders, List.mem_map, List.mem_filter, List.mem_cons, List.not_mem_nil, or_false] at h
  obtain ⟨d, ⟨hd, -⟩, rfl⟩ := h
  omega

/-- The sender of an expected combine is another Mere than the one that receives it. -/
theorem sender_ne_of_member {s : State} {c : Cmd} {p sender i j n parts : Nat} (hi : indexOf s c p = some i)
    (hj : indexOf s c sender = some j) (h : (senders (groupMember c i).2 parts)[n]? = some (groupMember c j).2) : sender ≠ p := by
  rintro rfl
  obtain rfl : i = j := Option.some.inj (hi.symm.trans hj)
  exact (lt_of_mem_senders (List.mem_of_getElem? h)).false

/-- A Tarn half with a tile's received totals added, its own as left operand. -/
def totalsAdded (w : ArrayWork) (place : Nat) (val : Nat → Word) (t : Map Word) : Map Word :=
  ((List.range (w.rows * w.cols)).filter (fun e => (w.at_ e).isSome)).foldl (fun t e =>
    mput t (tarnIndex w place e) (fadd (mget 0 t (tarnIndex w place e)) (val e))) t

/-- Each element within the extents gets its sum. -/
theorem mget_totalsAdded {w : ArrayWork} (place : Nat) (val : Nat → Word) (t : Map Word) {e : Nat} (hcols : 64 ∣ w.cols)
    (he : e < w.rows * w.cols) (hin : (w.at_ e).isSome = true) : mget 0 (totalsAdded w place val t) (tarnIndex w place e) =
      fadd (mget 0 t (tarnIndex w place e)) (val e) := by
  have hpos : 0 < w.cols := Nat.pos_of_ne_zero fun h0 => by simp [h0] at he
  exact mget_foldl_mput_mem 0 (tarnIndex w place) (fun v x => fadd v (val x)) t (List.nodup_range.filter _)
    (List.mem_filter.mpr ⟨List.mem_range.mpr he, hin⟩) fun x _ hx => tarnIndex_inj hcols hpos hx

/-- A Mere with more blocks of an array drained. -/
def Mere.drain (m : Mere) (array : Bool) (l : List (Nat × Nat)) : Mere :=
  if array then { m with drainedB := m.drainedB ++ l } else { m with drainedA := m.drainedA ++ l }

theorem Mere.drained_drain (m : Mere) (array : Bool) (l : List (Nat × Nat)) :
    (m.drain array l).drained array = m.drained array ++ l := by cases array <;> rfl

/-- The word of a Tarn half that holds element `e` of a tile. -/
def Mere.total (m : Mere) (array : Bool) (w : ArrayWork) (place e : Nat) : Word :=
  mget 0 (if array then m.tarnB else m.tarnA) (tarnIndex w place e)

/-- A Mere with the totals of member `j` added to its own. -/
def combinedWith (c : Cmd) (m : Mere) (array : Bool) (tile j : Nat) (w : ArrayWork) (place : Nat) (val : Nat → Word) : Mere :=
  { m with
    pad := combinePad c w val m.pad, combined := m.combined ++ [(array, tile, j)]
    tarnA := if array then m.tarnA else totalsAdded w place val m.tarnA
    tarnB := if array then totalsAdded w place val m.tarnB else m.tarnB }

section
variable {s : State} {c : Cmd} {p sender tile fixed i j : Nat} {array : Bool} {w : ArrayWork} {k q : List Step}

/-- A combine is received where both run the command, the sender is the member expected next, and both have their totals. -/
theorem combineAdd_some (hi : indexOf s c p = some i) (hj : indexOf s c sender = some j)
    (hw : arrayWork (ownView s c.cid) c array tile = some w) (hk : k = courseAt (ownView s c.cid) c p)
    (hq : q = courseAt (ownView s c.cid) c sender) : combineAdd s c p sender array tile fixed =
      if (getMere s p).running = some c.cid ∧ (getMere s sender).running = some c.cid ∧ isSplit c array = true ∧
          (groupMember c i).1 = (groupMember c j).1 ∧
          (senders (groupMember c i).2 (geoOf c).parts)[(getMere s p).received array tile]? = some (groupMember c j).2 ∧
          tileDone (getMere s p) k array tile = true ∧ tileDone (getMere s sender) q array tile = true ∧
          combinedAll c (getMere s sender) array tile (groupMember c j).2 = true then
        corrected (stalled (setMere (setMere s sender ((getMere s sender).drain array (w.held.map (fun b => (tile, b))))) p
          (combinedWith c (getMere s p) array tile (groupMember c j).2 w (placeOf k array w tile)
            ((getMere s sender).total array w (placeOf q array w tile)))) p) fixed
      else s := by
  subst hk hq
  simp only [combineAdd, hi, hj, hw]
  refine if_congr (by simp [and_assoc]) rfl rfl

/-- COMBINE_RECEIVE of a command in flight. -/
theorem exec_combineReceive {cid : Nat} (tile fixed : Nat) (array : Bool) (hp : p < 272) (hsender : sender < 272)
    (hfind : findCmd s cid = some c) (hflight : c.inFlight = true) :
    exec (.combineReceive cid p sender ⟨array, tile⟩ fixed) s = .next (combineAdd s c p sender array tile fixed) := by
  simp [exec, execCombineReceive, hp, hsender, hfind, hflight]

end

/-! ## HALO_RECEIVE (R183) -/

/-- A Mere with the halo rows of load `h` of reg_s. -/
def haloLanded (s : State) (c : Cmd) (m : Mere) (h : Nat × Fill) : Mere :=
  let m1 := { m with halos := m.halos ++ [(c.cid, h.1)] }
  match sourceOf (ownView s c.cid) c h.2.operand h.2.segs with
  | none => m1
  | some x => { m1 with pad := fillPad x (operandRegion c 0) (h.1 % 2) h.2 id m.pad }

section
variable {s : State} {c : Cmd} {m : Mere} {h : Nat × Fill}

/-- Halo rows change the scratchpad and the list of halo loads alone. -/
theorem haloLanded_frame : haloLanded s c m h = { m with
    halos := m.halos ++ [(c.cid, h.1)], pad := (haloLanded s c m h).pad } := by
  unfold haloLanded
  cases sourceOf (ownView s c.cid) c h.2.operand h.2.segs <;> rfl

/-- Halo rows are the operand's own. -/
theorem haloLanded_source {x : Moved} (hx : sourceOf (ownView s c.cid) c h.2.operand h.2.segs = some x) :
    (haloLanded s c m h).pad = fillPad x (operandRegion c 0) (h.1 % 2) h.2 id m.pad := by
  simp [haloLanded, hx]

end

section
variable {s : State} {c : Cmd} {p sender fixed i j : Nat} {k q : List Step} {h : Nat × Fill}

/-- Halo rows come where both have a seat, the buffer may be taken, and the matching member on the same die holds them. -/
theorem haloIn_some (hk : k = courseAt (ownView s c.cid) c p) (hq : q = courseAt (ownView s c.cid) c sender)
    (hnext : nextHalo (getMere s p) c.cid k = some h) (hi : indexOf s c p = some i) (hj : indexOf s c sender = some j) :
    haloIn s c p sender fixed =
      if (getMere s p).seats c.cid = true ∧ (getMere s sender).seats c.cid = true ∧
          mayLoad (getMere s p) c.cid k 0 h.1 = true ∧ mereDie p = mereDie sender ∧ (groupMember c i).2 = (groupMember c j).2 ∧
          holdsRows (getMere s sender) c.cid q h.2 (if p = sender then h.1 else (getMere s sender).landed c.cid 0) = true then
        corrected (stalled (setMere s p (seatsLanded (haloLanded s c (getMere s p) h) c k)) p) fixed
      else s := by
  subst hk hq
  simp only [haloIn, hnext, hi, hj]
  refine if_congr (by simp [and_assoc]) rfl rfl

/-- HALO_RECEIVE of a CONV or POOL in flight. -/
theorem exec_haloReceive {cid : Nat} (fixed : Nat) (hp : p < 272) (hsender : sender < 272) (hfind : findCmd s cid = some c)
    (hflight : c.inFlight = true) (hop : c.opcode = 0x0103 ∨ c.opcode = 0x0104) :
    exec (.haloReceive cid p sender fixed) s = .next (haloIn s c p sender fixed) := by
  simp [exec, execHaloReceive, hp, hsender, hfind, hflight, hop]

end

/-! ## DRAIN_OUTPUT_BLOCK (R191) -/

/-- A Mere with a finished block in the free staging block of its array. -/
def blockStaged (s : State) (c : Cmd) (m : Mere) (array : Bool) (w : ArrayWork) (tile block : Nat) : Mere :=
  let st := stageBlock s c array w tile block
  let pad := stagePad (regionAt c (if array then 0x50 else 0x40)) (64 * ((m.drained array).length % 2)) st.2 m.pad
  if array then { m with pad := pad, stagedB := m.stagedB ++ [st.1], drainedB := m.drainedB ++ [(tile, block)] }
  else { m with pad := pad, stagedA := m.stagedA ++ [st.1], drainedA := m.drainedA ++ [(tile, block)] }

/-- A drain fills its array's staging, notes the block, and leaves the Tarn and the other staging. -/
theorem blockStaged_fields (s : State) (c : Cmd) (m : Mere) (array : Bool) (w : ArrayWork) (tile block : Nat) :
    (blockStaged s c m array w tile block).staged array = m.staged array ++ [(stageBlock s c array w tile block).1] ∧
      (blockStaged s c m array w tile block).drained array = m.drained array ++ [(tile, block)] ∧
      (blockStaged s c m array w tile block).staged (!array) = m.staged (!array) ∧
      (blockStaged s c m array w tile block).tarnA = m.tarnA ∧ (blockStaged s c m array w tile block).tarnB = m.tarnB := by
  cases array <;> exact ⟨rfl, rfl, rfl, rfl, rfl⟩

section
variable {s : State} {c : Cmd} {p tile block fixed i : Nat} {array : Bool} {w : ArrayWork} {k : List Step}

/-- A block is drained once where its tile is done, its totals are combined in member 0, and a staging block is free. -/
theorem drainBlock_some (hk : k = courseAt (ownView s c.cid) c p) (hi : indexOf s c p = some i)
    (hw : arrayWork (ownView s c.cid) c array tile = some w) : drainBlock s c p array tile block fixed =
      if (getMere s p).running = some c.cid ∧ tileDone (getMere s p) k array tile = true ∧
          (isSplit c array = true → (groupMember c i).2 = 0 ∧ combinedAll c (getMere s p) array tile 0 = true) ∧
          block ∈ w.held ∧ (tile, block) ∉ (getMere s p).drained array ∧ ((getMere s p).staged array).length < 2 then
        corrected (tickFree (setMere s p (blockStaged s c (getMere s p) array w tile block))) fixed
      else s := by
  subst hk
  simp only [drainBlock, hi, hw]
  refine if_congr ?_ rfl rfl
  cases isSplit c array <;> simp [and_assoc]

/-- DRAIN_OUTPUT_BLOCK of an array command in flight. -/
theorem exec_drainOutputBlock {cid : Nat} (tile block fixed : Nat) (array : Bool) (hp : p < 272)
    (hfind : findCmd s cid = some c) (hflight : c.inFlight = true) (hmat : c.onVectors = false) :
    exec (.drainOutputBlock cid p ⟨array, tile⟩ block fixed) s = .next (drainBlock s c p array tile block fixed) := by
  simp [exec, execDrainOutputBlock, hp, hfind, hflight, hmat]

end

/-! ## The statement -/

/-- Settles O41: each event acts where its conditions hold and changes nothing elsewhere. -/
theorem meresRunLandedCommandsInOrder : Obligations.MeresRunLandedCommandsInOrder := by
  unfold Obligations.MeresRunLandedCommandsInOrder
  refine ⟨?loads, ?starts, ?waits, ?gangs, ?combines, ?halos, ?drains, ?writebacks⟩
  case loads =>
    rintro s cid p region n c k g e hp hfind hflight rfl hn he rfl
    simp only [exec_sliceLoadDone _ _ hp hfind hflight]
    refine ⟨fun hseat hmay => ?_, fun h => ?_, fun x hx => ?_, fun hrun hpos => ?_⟩
    · have hself := getMere_setMere_same s p
        (seatsLanded (loadLanded s c (getMere s p) region n e.2) c (courseAt (ownView s c.cid) c p))
      rw [sliceLoad_lands he hn hseat hmay]
      refine ⟨_, rfl, by rw [hself], ?_⟩
      rw [hself, seatsLanded_frame]
      refine ⟨by rw [hn]; exact landed_loadLanded, ?_, ?_, ?_, fun x hx => loadLanded_source hx, fun a ha => loadLanded_offRows ha⟩
      all_goals rw [loadLanded_frame]
    · rw [sliceLoad_waits (.inr h)]
    · rw [sliceLoad_waits (.inl (hn ▸ hx))]
    · rw [sliceLoad_waits (.inr (.inr (mayLoad_waiting hrun hpos)))]
  case starts =>
    rintro s p pre post w m hp rfl hfree hw hpre hwhy
    rw [exec_mereStart_starts hp hfree (nextSeat_of_order hw hpre hwhy)]
    have hcids := fun x hx => (hpre x hx).2
    refine ⟨_, rfl, ?_⟩
    rw [getMere_startOn_same, getStream_startOn, hw, skipAhead_append w pre post hcids, passedOver_append w pre post hcids]
    exact ⟨rfl, rfl, rfl, rfl, rfl, fun x hx => getMere_startOn_ne _ _ _ hx, startOn_mem _ _ _, startOn_cmds _ _ _⟩
  case waits =>
    intro s p hp
    refine ⟨fun hrun => exec_mereStart_waits hp (.inl hrun),
      fun hland hfirst => exec_mereStart_waits hp (.inr (nextSeat_none hland hfirst)),
      fun pre w post hw hpre hskip hbad => exec_mereStart_waits hp (.inr ?_)⟩
    rw [nextSeat_pinned hw hpre hskip]
    rcases hbad with h | h <;> simp [h]
  case gangs =>
    intro s cid c hfind hgang hflight
    rw [exec_gangStart hfind hgang hflight]
    refine ⟨fun hready => ?_, fun ⟨p, hp, hnot⟩ => ?_⟩
    · rw [if_pos hready]
      exact ⟨_, rfl, fun p hp => running_startAll_of_mem _ _ _ hp, fun p hp => getMere_startAll_of_notMem _ _ _ hp,
        startAll_cmds _ _ _⟩
    · rw [if_neg fun hready => by simp [hready p hp] at hnot]
  case combines =>
    rintro s cid p sender tile fixed i j array c w m f v hp hsender hfind hflight rfl rfl rfl hi hj hw
    rw [exec_combineReceive tile fixed array hp hsender hfind hflight, combineAdd_some hi hj hw rfl rfl]
    refine ⟨fun hrun hfrun hsplit hgroup hmember hdone hfdone hall => ?_, fun hbad => ?_⟩
    · rw [if_pos ⟨hrun, hfrun, hsplit, hgroup, hmember, hdone, hfdone, hall⟩]
      have hne := sender_ne_of_member hi hj hmember
      obtain ⟨hself, hothers, hfixed, hmem, hcmds, -⟩ := mereEvent_stalled
        (setMere s sender ((getMere s sender).drain array (w.held.map (fun b => (tile, b))))) p fixed
        (combinedWith c (getMere s p) array tile (groupMember c j).2 w (placeOf (courseAt (ownView s c.cid) c p) array w tile)
          ((getMere s sender).total array w (placeOf (courseAt (ownView s c.cid) c sender) array w tile)))
      refine ⟨_, rfl, ?_⟩
      rw [hself, hothers sender hne, getMere_setMere_same, Mere.drained_drain]
      refine ⟨rfl, fun b hb => ?_, fun _ hcols e x he hin hx => ?_, ?_, hfixed, fun y hyp hys => ?_, hmem, hcmds⟩
      · exact List.mem_append_right _ (List.mem_map_of_mem hb)
      · subst hx
        cases array <;> exact mget_totalsAdded _ _ _ hcols he hin
      · cases array <;> rfl
      · rw [hothers y hyp, getMere_setMere_ne _ _ _ _ hys]
    · rw [if_neg]
      rintro ⟨hrun, hfrun, -, -, hmember, hdone, hfdone, -⟩
      simp [hrun, hfrun, hmember, hdone, hfdone] at hbad
  case halos =>
    rintro s cid p sender fixed i j c h m f v hp hsender hfind hflight hop rfl rfl rfl hnext hi hj
    rw [exec_haloReceive fixed hp hsender hfind hflight hop, haloIn_some rfl rfl hnext hi hj]
    refine ⟨fun hseat hfseat hmay hdie hmember hholds => ?_, fun hbad => ?_⟩
    · rw [if_pos ⟨hseat, hfseat, hmay, hdie, hmember, hholds⟩]
      obtain ⟨hself, hothers, hfixed, hmem, hcmds, -⟩ := mereEvent_stalled s p fixed
        (seatsLanded (haloLanded s c (getMere s p) h) c (courseAt (ownView s c.cid) c p))
      refine ⟨_, rfl, ?_⟩
      rw [hself, seatsLanded_frame]
      refine ⟨?_, ?_, ?_, ?_, ?_, fun x hx => haloLanded_source hx, hfixed, hothers, hmem, hcmds⟩
      all_goals rw [haloLanded_frame]
    · rw [if_neg]
      rintro ⟨-, -, -, hdie, hmember, hholds⟩
      simp [hdie, hmember, hholds] at hbad
  case drains =>
    rintro s cid p tile block fixed i array c w m v hp hfind hflight hmat rfl rfl hi hw
    rw [exec_drainOutputBlock tile block fixed array hp hfind hflight hmat, drainBlock_some rfl hi hw]
    refine ⟨fun hrun hdone hsplit hheld hfresh hroom => ?_, fun hbad => ?_⟩
    · rw [if_pos ⟨hrun, hdone, hsplit, hheld, hfresh, hroom⟩]
      obtain ⟨hself, hothers, hfixed, hmem, hcmds, -⟩ := mereEvent_tickFree s p fixed
        (blockStaged s c (getMere s p) array w tile block)
      obtain ⟨hstaged, hdrained, hother, htarnA, htarnB⟩ := blockStaged_fields s c (getMere s p) array w tile block
      refine ⟨_, rfl, ?_⟩
      rw [hself]
      exact ⟨hstaged, hdrained, hother, htarnA, htarnB, hfixed, hothers, hmem, hcmds⟩
    · rw [if_neg]
      rintro ⟨hrun, hdone, -, hheld, hfresh, hroom⟩
      simp [hrun, hdone, hheld, hfresh] at hbad
      omega
  case writebacks =>
    intro s p hp
    simp [exec, execStagedBlockWriteback, hp]

end Sys2Proof.Machine
end

section
/-! The Tarn check of MATMUL (R104, R107, R110): a check in its place among the checks at issue, what a tile that is too large
ends with once its command runs, and the statement on large tiles, which also speaks of commands that still wait for a Mere. -/

namespace Sys2Proof.Machine

/-! ## A list of checks (R110) -/

/-- Checks that pass leave the answer to those after them. -/
theorem firstErr_append {l : List (Option Err)} (h : firstErr l = none) (t : List (Option Err)) :
    firstErr (l ++ t) = firstErr t := by
  induction l with
  | nil => rfl
  | cons x xs ih =>
    cases x with
    | none => exact ih h
    | some e => cases h

/-- Checks pass together where each passes. -/
theorem firstErr_eq_none_iff {l : List (Option Err)} : firstErr l = none ↔ ∀ x ∈ l, x = none := by
  induction l with
  | nil => simp [firstErr]
  | cons x xs ih => cases x <;> simp [firstErr, ih]

/-! ## Check 5 of MATMUL (R104, R107) -/

/-- Checks 2 to 4 of R110 for MATMUL: those that come before the Tarn's. -/
def checksBeforeTarn (s : State) (c : Cmd) : List (Option Err) :=
  let a := readDesc s (c.arg 0x10 2)
  let b := readDesc s (c.arg 0x12 2)
  let o := readDesc s (c.arg 0x14 2)
  [tilingCheck c 192, zeroExtTail c 192,
    extentCheck 0 (c.arg 0x1C 4) o.rows o.id, extentCheck 0 (c.arg 0x1C 4) (outerPlan a (bit (c.arg 0x18 1) 4)) a.id,
    extentCheck 1 (c.arg 0x20 4) o.p0 o.id, extentCheck 1 (c.arg 0x20 4) (outerPlan b (bit (c.arg 0x19 1) 4)) b.id,
    extentCheck 2 (c.arg 0x24 4) (innerPlan a (bit (c.arg 0x18 1) 4)) a.id,
    extentCheck 2 (c.arg 0x24 4) (innerPlan b (bit (c.arg 0x19 1) 4)) b.id, loopCheck (geoOf c)]

/-- The Tarn check comes after checks 2 to 4 and before all others. -/
theorem matmulIssue_split (s : State) (c : Cmd) : ∃ rest, matmulIssue s c =
    firstErr (checksBeforeTarn s c ++ tarnCheck (geoOf c) (readDesc s (c.arg 0x14 2)).p0 :: rest) := ⟨_, rfl⟩

/-- The Tarn check passes where the resident tiles fit. -/
theorem tarnCheck_eq_none_iff {g : Geo} {n : Nat} : tarnCheck g n = none ↔ residents g n * g.q ≤ 32 := by
  simp [tarnCheck, need]

/-- A MATMUL that passes every check has tiles that fit. -/
theorem residents_le_of_matmulIssue {s : State} {c : Cmd} (h : matmulIssue s c = none) :
    residents (geoOf c) (readDesc s (c.arg 0x14 2)).p0 * (geoOf c).q ≤ 32 := by
  obtain ⟨rest, hsplit⟩ := matmulIssue_split s c
  exact tarnCheck_eq_none_iff.mp (firstErr_eq_none_iff.mp (hsplit ▸ h) _ (by simp))

/-- The error of tiles that do not fit: the count that fits never reaches 255, the count required is capped there (log 86). -/
theorem tarnCheck_large {g : Geo} {n : Nat} (h : 32 < residents g n * g.q) :
    tarnCheck g n = some (0x13, min (residents g n) 255 * 2 + 32 / g.q * 0x200) := by
  have hfit : min (32 / g.q) 255 = 32 / g.q := Nat.min_eq_left ((Nat.div_le_self _ _).trans (by decide))
  rw [tarnCheck, need, if_neg (by simpa using h), tileCapacity, hfit, Nat.zero_add]

/-- A MATMUL whose tiles do not fit fails that check where it passes those before it. -/
theorem matmulIssue_large {s : State} {c : Cmd} (hbefore : firstErr (checksBeforeTarn s c) = none)
    (h : 32 < residents (geoOf c) (readDesc s (c.arg 0x14 2)).p0 * (geoOf c).q) :
    matmulIssue s c =
      some (0x13, min (residents (geoOf c) (readDesc s (c.arg 0x14 2)).p0) 255 * 2 + 32 / (geoOf c).q * 0x200) := by
  obtain ⟨rest, hsplit⟩ := matmulIssue_split s c
  rw [hsplit, firstErr_append hbefore, tarnCheck_large h]
  rfl

/-- What R107 says holds of a MATMUL that has its Meres, with its descriptors as it reads them itself (R48). -/
theorem exec_matmul_large {s v : State} {cid u q : Nat} {c : Cmd} (h : Running s cid 0x0101 c) (hv : v = ownView s cid)
    (hu : u = residents (geoOf c) (readDesc v (c.arg 0x14 2)).p0) (hq : q = (geoOf c).q)
    (hbefore : firstErr (checksBeforeTarn v c) = none) (hlarge : 32 < u * q) :
    ∃ t, exec (.matmul cid) s = .next t ∧ Ended s t c (0x13, min u 255 * 2 + 32 / q * 0x200) 0 := by
  subst hv hu hq
  exact ⟨_, rfl, onRun_checked h (matmulIssue_large hbefore hlarge) rfl⟩

/-! ## A MATMUL that waits for a Mere (R97, R193) -/

/-- A MATMUL that waits for a Mere is not ended by its row, whatever its checks would answer. -/
theorem exec_matmul_waiting_not_ended {s t : State} {cid work : Nat} {c : Cmd} {e : Err} (h : Dispatched s cid 0x0101 c)
    (hwait : hasMeres s c = false) (hexec : exec (.matmul cid) s = .next t) : ¬ Ended s t c e work := by
  obtain ⟨-, -, -, hstays⟩ := computeCommandsReachTheirCommit.1 s cid c _ rfl
  obtain rfl : s = t := Host.Outcome.next.inj ((hstays h hwait).symm.trans hexec)
  intro hended
  exact absurd (h.find_self.symm.trans hended.gone) (Option.some_ne_none c)

/-- A dispatched MATMUL with a tile of 3 by 11 blocks: extents 0, loop order 0, one part, and a tiling section of zeros. -/
def largeTile : Cmd :=
  { cid := 7, q := 0, slot := 0, version := 2, opcode := 0x0101, flags := 1, tag := 0, waits := [0, 0, 0, 0], signal := 0,
    sigInc := 0, params := patch (patch (List.replicate 48 0) 0x18 (toLe 2 (2 + 10 * 32))) 0x1B [1],
    ext := List.replicate 192 0, waitUs := 0, stage := .dispatched, rerun := false, started := true, order := 0, since := 0,
    begun := 0, step := 0, phase := 0, evalNo := 0, scale := 0, norm := 0, notes := 0, batches := 0, holds := false,
    refetched := [], result := none }

/-- A module in which Mere 0, the one that `largeTile` names, is at the work of command `cid`. -/
def largeTileOn (cid : Nat) : State :=
  setMere { State.reset with cmds := [largeTile] } 0 { Mere.reset with running := some cid }

/-- Once Mere 0 is its own, `largeTile` ends with TILE_CAPACITY: one tile required, none that fits. -/
theorem largeTile_ended : ∃ t, exec (.matmul 7) (largeTileOn 7) = .next t ∧ Ended (largeTileOn 7) t largeTile (0x13, 2) 0 :=
  exec_matmul_large (u := 1) (q := 33) (by decide +kernel) rfl (by decide +kernel) (by decide +kernel) (by decide +kernel)
    (by decide)

/-- Refutes O16: the clause of the rejection has no premise that the command has its Meres. `largeTile`, dispatched and waiting
for Mere 0 while command 6 works there, has u × q = 33 and passes the checks before the Tarn's, and MATMUL leaves it where it
is (R97, R193). A dispatch makes the same checks and would have ended it before; the statement speaks of every state. What R107
says holds where the command has its Meres (`exec_matmul_large`). -/
theorem not_tarnCheckRejectsLargeTiles : ¬ Obligations.TarnCheckRejectsLargeTiles := by
  unfold Obligations.TarnCheckRejectsLargeTiles
  intro h
  have hdispatched : Dispatched (largeTileOn 6) 7 0x0101 largeTile := by decide +kernel
  have hwait : hasMeres (largeTileOn 6) largeTile = false := by decide +kernel
  have hloop : (geoOf largeTile).loop ≠ 2 := by decide +kernel
  have hm : largeTile.arg 0x1C 4 = 0 := by decide +kernel
  have hn : largeTile.arg 0x20 4 = 0 := by decide +kernel
  have hk : largeTile.arg 0x24 4 = 0 := by decide +kernel
  obtain ⟨-, hrejects, -⟩ := h (largeTileOn 6) 7 1 33 largeTile hdispatched (by decide +kernel) (if_neg hloop).symm
  rw [hm, hn, hk] at hrejects
  obtain ⟨t, hexec, hended⟩ := hrejects (by decide) (by decide +kernel) (by decide +kernel) (Nat.zero_le _) (Nat.zero_le _)
    (Nat.zero_le _) (Nat.zero_le _) (Nat.zero_le _) (Nat.zero_le _) (by decide +kernel)
  exact exec_matmul_waiting_not_ended hdispatched hwait hexec hended

end Sys2Proof.Machine
end

section
/-! Updates under the step verdict (R163-R168, R295, R308): the commands while a mirror is filled and the high plane offered, what
the turn of an update command does by its checks and the verdict, an element's old and new values, and the statement on
updates. -/

namespace Sys2Proof.Machine

/-! ## Filling and offering leave the commands (R163, R308) -/

/-- A message queued on a port leaves the commands. -/
theorem sendTx_cmds {s s1 : State} {d : Nat} {m : TxMsg} (h : sendTx s d m = some s1) : s1.cmds = s.cmds := by
  obtain ⟨p, -, rfl⟩ := Option.map_eq_some_iff.mp h
  exact setPort_cmds _ _ _

theorem sendBlocks_cmds (slot : Nat) (mr : Mirror) (c : Cmd) (gen first n : Nat) (d1 d2 : Desc) (es : List NewElem) (s : State) :
    (sendBlocks slot mr c gen first n d1 d2 es s).1.cmds = s.cmds := by
  refine List.foldlRecOn (motive := fun a : State × Nat => a.1.cmds = s.cmds) _ _ rfl fun a ha b _ => ?_
  dsimp only
  split
  · next hsent => exact (sendTx_cmds hsent).trans ha
  · exact ha

theorem fillMirror_cmds (s : State) (c : Cmd) (gen e : Nat) (d1 d2 : Desc) (es : List NewElem) :
    (fillMirror s c gen e d1 d2 es).cmds = s.cmds := by
  unfold fillMirror
  split
  · rfl
  · exact sendBlocks_cmds _ _ _ _ _ _ _ _ _ _

/-- An update that waits for its commit leaves every command as it stands. -/
theorem updateOffered_cmds (s : State) (c : Cmd) : (updateOffered s c).cmds = s.cmds := fillMirror_cmds _ _ _ _ _ _ _

theorem findCmd_updateOffered (s : State) (c : Cmd) (n : Nat) : findCmd (updateOffered s c) n = findCmd s n := by
  rw [findCmd, updateOffered_cmds, findCmd]

/-! ## The results of an update (R167, R168, R173) -/

/-- The generation written is one more, as a word of 64 bits. -/
theorem ofNat_nextGeneration (d : Desc) : BitVec.ofNat 64 (nextGeneration d) = BitVec.ofNat 64 (d.generation + 1) :=
  BitVec.eq_of_toNat_eq (Nat.mod_mod _ _)

/-- Note bit 10 alone decides the status of an update with a finite verdict. -/
theorem updateResult_status (s : State) (c : Cmd) : (updateResult s c).status = if s.peers.excluded then 1 else 0 := by
  unfold updateResult notedResult
  cases s.peers.excluded <;> rfl

theorem updateResult_detail (s : State) (c : Cmd) : (updateResult s c).detail = if s.peers.excluded then 0x400 else 0 := rfl

/-- A finite verdict gives a status that signals, with or without the note. -/
theorem updateResult_signals (s : State) (c : Cmd) : signals (updateResult s c).status = true := by
  rw [updateResult_status]
  cases s.peers.excluded <;> rfl

/-- The new state is written. -/
theorem updateResult_stateWrites (s : State) (c : Cmd) :
    ∀ x ∈ stateWrites (readDesc s (c.arg 0x10 2)) (descOr s (c.arg 0x14 2)) (descOr s (c.arg 0x16 2)) (updateElems s c),
      x ∈ (updateResult s c).effects :=
  fun _ h => List.mem_append_left _ (List.mem_append_left _ h)

/-- Beside it the generation, the held elements and the clip factor are set. -/
theorem updateResult_settings (s : State) (c : Cmd) :
    ∀ x ∈ [Effect.generation (readDesc s (c.arg 0x10 2)).id (BitVec.ofNat 64 (nextGeneration (readDesc s (c.arg 0x10 2)))),
        .held ((updateElems s c).filter (fun e => e.held)).length, .clip (clipFactor c)],
      x ∈ (updateResult s c).effects :=
  fun _ h => List.mem_append_left _ (List.mem_append_right _ h)

/-- The mirror of the master, where it has one, becomes valid at the new generation (R308). -/
theorem updateResult_mirrorSet {s : State} {c : Cmd} {slot : Nat} {mr : Mirror}
    (h : mirrorOf s (readDesc s (c.arg 0x10 2)).id = some (slot, mr)) :
    .mirrorSet slot 1 (BitVec.ofNat 64 (nextGeneration (readDesc s (c.arg 0x10 2))))
      (BitVec.ofNat 64 (nextGeneration (readDesc s (c.arg 0x10 2)))) 0 ∈ (updateResult s c).effects := by
  simp [updateResult, notedResult, h]

/-! ## The turn of an update command (R168, R295) -/

section
variable {s : State} {cid op : Nat} {ops : List Nat} {c : Cmd}

/-- A dispatched command that runs on no Mere is in work for every row that takes its opcode. -/
theorem Dispatched.working_of_contains (h : Dispatched s cid op c) (hop : ops.contains op = true) (hoff : onMeres op = false) :
    working s cid ops = some c := by
  obtain ⟨hfind, hstage, rfl⟩ := h
  rw [working, hfind]
  exact if_pos ⟨hstage, hop, hasMeres_of_off s hoff⟩

/-- A check that fails ends the command. -/
theorem updateTurn_checked {e : Err} (hw : working s cid ops = some c) (hi : updateIssue s c = some e) :
    updateTurn ops cid s = complete s c e 0 := by
  simp [updateTurn, onWork_some hw, hi]

/-- The command waits until the verdict is final. -/
theorem updateTurn_waits (hw : working s cid ops = some c) (hi : updateIssue s c = none) (hf : s.peers.final = false) :
    updateTurn ops cid s = s := by
  simp [updateTurn, onWork_some hw, hi, hf]

/-- With the final verdict it does its work. -/
theorem updateTurn_final (hw : working s cid ops = some c) (hi : updateIssue s c = none) (hf : s.peers.final = true) :
    updateTurn ops cid s = updateRun s c := by
  simp [updateTurn, onWork_some hw, hi, hf]

/-- A non-finite verdict: STEP_NONFINITE waits for the commit. -/
theorem updateRun_nonfinite (hfind : findCmd s c.cid = some c) (hn : s.peers.nonfinite = true) :
    Executed s (updateRun s c) c (skippedResult s c) := by
  rw [updateRun, if_pos hn]
  exact finishWork_executed s c _ hfind rfl

/-- Any other verdict: the new state waits for the commit, with the mirror filled and the high plane offered. -/
theorem updateRun_finite (hfind : findCmd s c.cid = some c) (hn : s.peers.nonfinite = false) :
    Executed (updateOffered s c) (updateRun s c) c (updateResult s c) := by
  rw [updateRun, if_neg (by simp [hn])]
  exact finishWork_executed _ c _ ((findCmd_updateOffered s c c.cid).trans hfind) (updateResult_signals s c)

end

/-- A row that gives an opcode's commands their turn runs them as updates. -/
theorem updatesBy_of_turn {i : Nat → Instr} {op : Nat} {ops : List Nat}
    (hexec : ∀ cid s, exec (i cid) s = .next (updateTurn ops cid s)) (hop : ops.contains op = true)
    (hoff : onMeres op = false) : UpdatesBy i op := by
  intro s cid c hd
  have hw := hd.working_of_contains hop hoff
  rw [hexec]
  refine ⟨fun e hi => ⟨_, rfl, ?_⟩, fun hi hf => ?_, fun hi hf hn => ⟨_, rfl, ?_⟩, fun hi hf hn => ⟨_, rfl, ?_⟩⟩
  · rw [updateTurn_checked hw hi]
    exact complete_ended s c e 0
  · rw [updateTurn_waits hw hi hf]
  · rw [updateTurn_final hw hi hf]
    exact updateRun_nonfinite hd.find_self hn
  · rw [updateTurn_final hw hi hf]
    exact updateRun_finite hd.find_self hn

/-! ## One element (R166, R167) -/

/-- An element as the update reads it: the master word, the moments that the command names widened. -/
def widenedElem (s : State) (dm d1 d2 : Desc) (i : Nat) : Elem :=
  { w := masterAt s.mem dm i, m := if d1.id = 0 then 0 else widenedAt s.mem d1 i,
    v := if d2.id = 0 then 0 else widenedAt s.mem d2 i }

/-- Whether a new moment is finite once stored; one that the command does not name is never in the way. -/
def momentStored (d : Desc) (w : Word) : Bool := d.id == 0 || (decodeElem d.fmt (rneCode d.fmt (f32 w)).code).isFin

section
variable {s : State} {k : UpdateK} {dm dg d1 d2 : Desc} {i : Nat} {x : Elem}

/-- The new element is taken where its master and both its moments are finite, else the old one is held. -/
theorem newElem_eq (hx : x = updateElem k (widenedElem s dm d1 d2 i) (widenedAt s.mem dg i)) :
    newElem s k dm dg d1 d2 i =
      if isFinite x.w && momentStored d1 x.m && momentStored d2 x.v then
        { w := x.w, m := (rneCode d1.fmt (f32 x.m)).code, v := (rneCode d2.fmt (f32 x.v)).code, held := false }
      else { oldElem s dm d1 d2 i with held := true } := by
  subst hx
  rfl

/-- A new master that is not finite: the element is held. -/
theorem newElem_held (hx : x = updateElem k (widenedElem s dm d1 d2 i) (widenedAt s.mem dg i)) (hw : isFinite x.w = false) :
    newElem s k dm dg d1 d2 i = { oldElem s dm d1 d2 i with held := true } := by
  rw [newElem_eq hx, if_neg (by simp [hw])]

/-- A finite new master without moments is taken. -/
theorem newElem_taken (hx : x = updateElem k (widenedElem s dm d1 d2 i) (widenedAt s.mem dg i)) (hw : isFinite x.w = true)
    (h1 : d1.id = 0) (h2 : d2.id = 0) :
    (newElem s k dm dg d1 d2 i).w = x.w ∧ (newElem s k dm dg d1 d2 i).held = false := by
  rw [newElem_eq hx, if_pos (by simp [hw, momentStored, h1, h2])]
  exact ⟨rfl, rfl⟩

end

/-! ## The statement -/

/-- Settles O21: each of the six rows gives its command the turn of an update; the result and the element by their rules above. -/
theorem updatesWaitForTheVerdict : Obligations.UpdatesWaitForTheVerdict := by
  unfold Obligations.UpdatesWaitForTheVerdict
  refine ⟨updatesBy_of_turn (fun _ _ => rfl) rfl rfl, updatesBy_of_turn (fun _ _ => rfl) rfl rfl,
    updatesBy_of_turn (fun _ _ => rfl) rfl rfl, updatesBy_of_turn (fun _ _ => rfl) rfl rfl,
    updatesBy_of_turn (fun _ _ => rfl) rfl rfl, updatesBy_of_turn (fun _ _ => rfl) rfl rfl, fun _ _ => ⟨rfl, rfl⟩,
    ?result, ?element⟩
  case result =>
    rintro s c r d rfl rfl
    rw [← ofNat_nextGeneration]
    refine ⟨updateResult_status s c, updateResult_detail s c, ?_, ?_, ?_, ?_, ?_, fun slot mr hmr => ?_⟩
    · exact updateResult_stateWrites s c _ (by simp [stateWrites, newBytes])
    · exact updateResult_stateWrites s c _ (by simp [stateWrites, newBytes])
    · exact updateResult_settings s c _ (by simp)
    · exact updateResult_settings s c _ (by simp)
    · exact updateResult_settings s c _ (by simp)
    · exact updateResult_mirrorSet hmr
  case element =>
    rintro s k dm dg d1 d2 i old x hw hm hv hx
    obtain rfl : old = widenedElem s dm d1 d2 i := by
      cases old
      cases hw
      cases hm
      cases hv
      rfl
    exact ⟨newElem_held hx, newElem_taken hx⟩

end Sys2Proof.Machine
end

section
/-! Slots and bursts of a memory stack (R197-R201, R237, R402): what a slot makes of its stack's record, which burst a class
serves, how a request enters the queue, what a grant leaves alone, and the statement on slots. -/

namespace Sys2Proof.Machine

/-! ## The record of a stack -/

@[simp] theorem stack_setStackS_same (s : State) (n : Nat) (v : Stack) : (setStackS s n v).mem.stack n = v :=
  mget_mput_same _ _ n v

theorem stack_setStackS_ne (s : State) (n x : Nat) (v : Stack) (h : x ≠ n) : (setStackS s n v).mem.stack x = s.mem.stack x :=
  mget_mput_ne _ _ n x v h

@[simp] theorem stack_passTime_same (s : State) (n gap : Nat) :
    (passTime s n gap).mem.stack n = { s.mem.stack n with clock := (s.mem.stack n).clock + gap } := stack_setStackS_same _ _ _

theorem stack_passTime_ne (s : State) (n x gap : Nat) (h : x ≠ n) : (passTime s n gap).mem.stack x = s.mem.stack x :=
  stack_setStackS_ne _ _ _ _ h

@[simp] theorem passTime_cmds (s : State) (n gap : Nat) : (passTime s n gap).cmds = s.cmds := rfl

@[simp] theorem passTime_queues (s : State) (n gap : Nat) : (passTime s n gap).queues = s.queues := rfl

/-! ## The window (R198) -/

@[simp] theorem windowStart_cmds (s : State) (n : Nat) : (windowStart s n).cmds = s.cmds := by
  unfold windowStart
  dsimp only
  split <;> rfl

@[simp] theorem windowStart_queues (s : State) (n : Nat) : (windowStart s n).queues = s.queues := by
  unfold windowStart
  dsimp only
  split <;> rfl

/-- Within a window time passes and nothing restarts. -/
theorem windowStart_passTime_of_ne {s : State} {n : Nat} (gap : Nat) (h : (s.mem.stack n).slotNo ≠ 0) :
    windowStart (passTime s n gap) n = passTime s n gap := if_neg (by rw [stack_passTime_same]; exact h)

/-- The first slot of a window restarts the counts and takes the shares last written. -/
theorem stack_windowStart_of_eq {s : State} {n : Nat} (h : (s.mem.stack n).slotNo = 0) : (windowStart s n).mem.stack n =
    { s.mem.stack n with usedBack := 0, usedRead := 0, usedWrite := 0, usedRemote := 0, shares := (getStream s (n / 4)).sshare } := by
  rw [windowStart, if_pos h, stack_setStackS_same]

/-! ## The class that takes a slot (R197) -/

/-- The classes that wait at a stack, each with its used slots and its share. -/
def Stack.waiting (k : Stack) : List (Nat × Nat × Nat) :=
  (if k.queue.any (fun b => b.cls == 0) then [(0, k.usedRead, (sharesOf k.shares).getD 0 0)] else []) ++
  (if k.queue.any (fun b => b.cls == 1) then [(1, k.usedWrite, (sharesOf k.shares).getD 1 0)] else []) ++
  (if k.queue.any (fun b => b.cls == 2) then [(2, k.usedRemote, (sharesOf k.shares).getD 2 0)] else [])

/-- The stack with a sector of the class's next burst served. -/
def Stack.served (k : Stack) (c : Nat) : Stack :=
  match nextBurst c k.queue with
  | some b => { k with queue := serve b k.queue }
  | none => k

/-- The stack with a slot counted for class `c`. -/
def Stack.charged (k : Stack) (c : Nat) : Stack :=
  if c = 0 then { k with usedRead := k.usedRead + 1 }
  else if c = 1 then { k with usedWrite := k.usedWrite + 1 }
  else { k with usedRemote := k.usedRemote + 1 }

/-- The slots of the window that are used. -/
def Stack.used (k : Stack) : Nat := k.usedBack + k.usedRead + k.usedWrite + k.usedRemote

theorem Stack.used_served (k : Stack) (c : Nat) : (k.served c).used = k.used := by
  unfold Stack.served
  split <;> rfl

theorem Stack.shares_served (k : Stack) (c : Nat) : (k.served c).shares = k.shares := by
  unfold Stack.served
  split <;> rfl

theorem Stack.used_charged (k : Stack) (c : Nat) : (k.charged c).used = k.used + 1 := by
  unfold Stack.charged
  split
  · simp only [Stack.used]; omega
  · split <;> simp only [Stack.used] <;> omega

theorem Stack.shares_charged (k : Stack) (c : Nat) : (k.charged c).shares = k.shares := by
  unfold Stack.charged
  split
  · rfl
  · split <;> rfl

/-- The class that used least of its share is served a sector and counts a slot; none where none waits. -/
theorem grantClass_eq (k : Stack) : grantClass k =
    match leastUsed k.waiting with
    | none => k
    | some c => (k.served c).charged c := by
  rfl

/-- A stack without bursts gives its slot to nobody. -/
theorem grantClass_empty {k : Stack} (h : k.queue = []) : grantClass k = k := by
  have hnone : k.waiting = [] := by simp [Stack.waiting, h]
  rw [grantClass_eq, hnone]
  rfl

/-- A slot given to a class counts once, and leaves the shares. -/
theorem grantClass_used_le_shares_eq (k : Stack) : (grantClass k).used ≤ k.used + 1 ∧ (grantClass k).shares = k.shares := by
  rw [grantClass_eq]
  split
  · exact ⟨Nat.le_succ _, rfl⟩
  · rw [Stack.used_charged, Stack.shares_charged, Stack.used_served, Stack.shares_served]
    exact ⟨Nat.le_refl _, rfl⟩

/-- Where all bursts that wait are of one class, only this class waits. -/
theorem Stack.waiting_of_one_class {k : Stack} {c : Nat} (hc : c < 3) (hne : k.queue ≠ []) (hall : ∀ x ∈ k.queue, x.cls = c) :
    ∃ u w, k.waiting = [(c, u, w)] := by
  have hany (d : Nat) : k.queue.any (fun b => b.cls == d) = decide (c = d) := by
    obtain ⟨b, hb⟩ := List.exists_mem_of_ne_nil _ hne
    rw [Bool.eq_iff_iff, List.any_eq_true, decide_eq_true_eq]
    constructor
    · rintro ⟨x, hx, hd⟩
      rw [← hall x hx]
      exact beq_iff_eq.mp hd
    · rintro rfl
      exact ⟨b, hb, beq_iff_eq.mpr (hall b hb)⟩
  obtain rfl | rfl | rfl : c = 0 ∨ c = 1 ∨ c = 2 := by omega
  all_goals exact ⟨_, _, by simp only [Stack.waiting, hany]; rfl⟩

/-- A class that waits alone takes the slot. -/
theorem grantClass_of_one_class {k : Stack} {c : Nat} {b : Burst} (hc : c < 3) (hall : ∀ x ∈ k.queue, x.cls = c)
    (hb : nextBurst c k.queue = some b) : grantClass k = { k with queue := serve b k.queue }.charged c := by
  have hne : k.queue ≠ [] := by
    intro h
    rw [h] at hb
    cases hb
  obtain ⟨u, w, hw⟩ := Stack.waiting_of_one_class hc hne hall
  have hleast : leastUsed k.waiting = some c := by simp [hw, leastUsed]
  simp only [grantClass_eq, hleast, Stack.served, hb]

/-! ## The burst of a class that takes a slot (R199) -/

/-- It is one that waits. -/
theorem mem_of_nextBurst {c : Nat} {l : List Burst} {b : Burst} (h : nextBurst c l = some b) : b ∈ l := by
  induction l generalizing b with
  | nil => cases h
  | cons x t ih =>
    rw [nextBurst] at h
    split at h
    · split at h
      · cases h
        exact List.mem_cons_self
      · next y hy =>
        split at h <;> cases h
        · exact List.mem_cons_self
        · exact List.mem_cons_of_mem _ (ih hy)
    · exact List.mem_cons_of_mem _ (ih h)

/-- A read before every other one by deadline, ties by rank, is next. -/
theorem nextBurst_of_earliest {b : Burst} {l : List Burst} (hb : b ∈ l) (hall : ∀ x ∈ l, x.cls = 0)
    (hmin : ∀ x ∈ l, x ≠ b → b.deadline < x.deadline ∨ (b.deadline = x.deadline ∧ b.engine < x.engine)) :
    nextBurst 0 l = some b := by
  induction l with
  | nil => cases hb
  | cons x t ih =>
    have ht (ht : b ∈ t) : nextBurst 0 t = some b :=
      ih ht (fun y hy => hall y (List.mem_cons_of_mem _ hy)) fun y hy => hmin y (List.mem_cons_of_mem _ hy)
    rw [nextBurst, if_pos (hall x List.mem_cons_self)]
    by_cases hx : x = b
    · subst hx
      cases hnext : nextBurst 0 t with
      | none => rfl
      | some y =>
        have hbefore : x.before y = true ∨ y = x := by
          by_cases hy : y = x
          · exact .inr hy
          · have := hmin y (List.mem_cons_of_mem _ (mem_of_nextBurst hnext)) hy
            simp only [Burst.before, Bool.or_eq_true, decide_eq_true_eq]
            omega
        rcases hbefore with hbefore | rfl
        · exact if_pos hbefore
        · exact ite_self _
    · have hlater : x.before b = false := by
        have := hmin x List.mem_cons_self hx
        have hx0 := hall x List.mem_cons_self
        simp only [Burst.before, hx0, bne_self_eq_false, Bool.false_or, decide_eq_false_iff_not]
        omega
      rw [ht ((List.mem_cons.mp hb).resolve_left (Ne.symm hx))]
      exact if_neg (by rw [hlater]; exact Bool.false_ne_true)

/-! ## Requests that arrive (R200, R201) -/

/-- A read is shared by another engine's read of its die, in time, of sectors within its own. -/
theorem Burst.shares_iff (b r : Burst) : b.shares r = true ↔
    b.isWrite = false ∧ r.isWrite = false ∧ b.die = r.die ∧ b.engine ≠ r.engine ∧ r.queued ≤ b.queued + joinCycles ∧
      b.first ≤ r.first ∧ r.first + r.count ≤ b.first + b.count := by
  simp [Burst.shares, and_assoc]

/-- A burst is continued by its own stream, in time, within its 4 KiB unit and 2 KiB in all. -/
theorem Burst.follows_iff (b r : Burst) : b.follows r = true ↔
    b.die = r.die ∧ b.engine = r.engine ∧ b.stream = r.stream ∧ b.cls = r.cls ∧ b.isWrite = r.isWrite ∧
      r.first = b.first + b.count ∧ (b.first - b.served) / 64 = (r.first + r.count - 1) / 64 ∧
      r.queued ≤ b.queued + joinCycles ∧ b.served + b.count + r.count ≤ 32 := by
  simp [Burst.follows, and_assoc]

/-- A request that a lone burst's read covers is served by it. -/
theorem enter_shared {b r : Burst} (h : b.shares r = true) :
    enter r [b] = ([{ b with deadline := min b.deadline r.deadline }], true) := by
  rw [enter, if_pos h]

/-- A request that runs on from a lone burst joins it. -/
theorem enter_joined {b r : Burst} (h : b.follows r = true) : enter r [b] = ([{ b with count := b.count + r.count }], true) := by
  have hsame : ¬b.shares r = true := fun hs => ((Burst.shares_iff b r).mp hs).2.2.2.1 ((Burst.follows_iff b r).mp h).2.1
  rw [enter, if_neg hsame, if_pos (by simp [h])]

/-- Any other request waits behind a lone burst. -/
theorem enter_apart {b r : Burst} (hs : b.shares r = false) (hf : b.follows r = false) : enter r [b] = ([b, r], false) := by
  simp [enter, hs, hf]

@[simp] theorem arrive_cmds (est : List (Nat × Nat)) (n : Nat) (l : List HbmRequest) (s : State) :
    (arrive est n l s).cmds = s.cmds := by
  induction l generalizing s with
  | nil => rfl
  | cons r t ih =>
    rw [arrive]
    split
    · exact ih s
    · exact ih _

@[simp] theorem arrive_queues (est : List (Nat × Nat)) (n : Nat) (l : List HbmRequest) (s : State) :
    (arrive est n l s).queues = s.queues := by
  induction l generalizing s with
  | nil => rfl
  | cons r t ih =>
    rw [arrive]
    split
    · exact ih s
    · exact ih _

/-- Arrivals change the queue of their stack's record alone. -/
theorem arrive_stack (est : List (Nat × Nat)) (n : Nat) (l : List HbmRequest) (s : State) :
    ∃ q, (arrive est n l s).mem.stack n = { s.mem.stack n with queue := q } := by
  induction l generalizing s with
  | nil => exact ⟨_, rfl⟩
  | cons r t ih =>
    rw [arrive]
    split
    · exact ih s
    · obtain ⟨q, hq⟩ := ih _
      exact ⟨q, by rw [hq, setStream_mem, stack_setStackS_same]⟩

/-- One request enters the queue. -/
theorem arrive_one {est : List (Nat × Nat)} {n : Nat} {r : HbmRequest} {s : State} (hr : 0 < r.count) :
    arrive est n [r] s =
      let u := enter (burstOf s est n (s.mem.stack n).clock r) (s.mem.stack n).queue
      setStream (setStackS (tickFree s) n { s.mem.stack n with queue := u.1 }) (n / 4)
        { getStream s (n / 4) with smerge := satAdd 32 (getStream s (n / 4)).smerge (b2n u.2) } := if_neg (by omega)

/-! ## A slot (R197, R237, R402) -/

/-- What a slot makes of its stack's record once its requests have arrived. -/
def Stack.granted (background : Bool) (k : Stack) : Stack :=
  { (if background && decide (k.usedBack < backSlots) then { k with usedBack := k.usedBack + 1 }
     else if k.level = 3 ∧ windowSlots / 2 ≤ k.used then k else grantClass k) with slotNo := (k.slotNo + 1) % 4096 }

/-- Background takes one of its 16 slots first. -/
theorem Stack.granted_background {k : Stack} (h : k.usedBack < 16) :
    k.granted true = { k with slotNo := (k.slotNo + 1) % 4096, usedBack := k.usedBack + 1 } := by
  simp [Stack.granted, backSlots, h]

/-- At the top temperature the second half of the window's slots is given to nobody. -/
theorem Stack.granted_throttled {k : Stack} (h3 : k.level = 3) (h : 2048 ≤ k.used) :
    k.granted false = { k with slotNo := (k.slotNo + 1) % 4096 } := by
  simp [Stack.granted, windowSlots, h3, h]

/-- Below it a class takes the slot. -/
theorem Stack.granted_class {k : Stack} (h : k.level < 3) :
    k.granted false = { grantClass k with slotNo := (k.slotNo + 1) % 4096 } := by
  simp [Stack.granted, Nat.ne_of_lt h]

/-- Where nothing waits, nobody takes it. -/
theorem Stack.granted_empty {k : Stack} (h : k.level < 3) (hnil : k.queue = []) :
    k.granted false = { k with slotNo := (k.slotNo + 1) % 4096 } := by
  rw [Stack.granted_class h, grantClass_empty hnil]

/-- Where one class waits, its next burst is served a sector. -/
theorem Stack.granted_of_one_class {k : Stack} {c : Nat} {b : Burst} (h : k.level < 3) (hc : c < 3)
    (hall : ∀ x ∈ k.queue, x.cls = c) (hb : nextBurst c k.queue = some b) :
    k.granted false = { { k with queue := serve b k.queue }.charged c with slotNo := (k.slotNo + 1) % 4096 } := by
  rw [Stack.granted_class h, grantClass_of_one_class hc hall hb]

/-- A slot is used once at most, and leaves the shares. -/
theorem Stack.granted_used_le_shares_eq (background : Bool) (k : Stack) :
    (k.granted background).used ≤ k.used + 1 ∧ (k.granted background).shares = k.shares := by
  unfold Stack.granted
  split
  · exact ⟨by simp only [Stack.used]; omega, rfl⟩
  · split
    · exact ⟨Nat.le_succ _, rfl⟩
    · exact grantClass_used_le_shares_eq k

/-- HBM_SLOT_GRANT: time, the window, the requests, then the slot. -/
theorem exec_hbmSlotGrant {s u : State} {n gap : Nat} {background : Bool} {l : List HbmRequest} {est : List (Nat × Nat)}
    (hn : n < 8) (hu : u = arrive est n l (windowStart (passTime s n gap) n)) :
    exec (.hbmSlotGrant n gap background l est) s = .next (setStackS u n ((u.mem.stack n).granted background)) := by
  have hexec : exec (.hbmSlotGrant n gap background l est) s = .next (slotGrant s n gap background l est) := by
    simp [exec, execHbmSlotGrant, hn]
  rw [hexec, slotGrant, ← hu, Stack.granted]
  dsimp only
  split
  · rfl
  · rw [Stack.used]
    split <;> rfl

section
variable {s : State} {n : Nat} {k : Stack} (hn : n < 8) (hk : k = s.mem.stack n) (hslot : k.slotNo ≠ 0)
  (gap : Nat) (est : List (Nat × Nat))
include hn hk hslot

/-- A slot within a window at which nothing arrives. -/
theorem exec_hbmSlotGrant_quiet (background : Bool) {v : Stack}
    (hv : { k with clock := k.clock + gap }.granted background = v) :
    ∃ t, exec (.hbmSlotGrant n gap background [] est) s = .next t ∧ t.mem.stack n = v ∧
      (∀ x, x ≠ n → t.mem.stack x = s.mem.stack x) ∧ t.cmds = s.cmds ∧ t.compute = s.compute := by
  subst hk
  refine ⟨_, exec_hbmSlotGrant hn rfl, ?_⟩
  rw [windowStart_passTime_of_ne gap hslot, arrive, stack_passTime_same, hv]
  exact ⟨stack_setStackS_same _ _ _,
    fun x hx => (stack_setStackS_ne _ _ _ _ hx).trans (stack_passTime_ne _ _ _ _ hx), rfl, rfl⟩

/-- A background slot within a window at which one request arrives. -/
theorem exec_hbmSlotGrant_arrival {r : HbmRequest} {q : List Burst} {absorbed : Bool} (hback : k.usedBack < 16) (hr : 0 < r.count)
    (hq : enter (burstOf s est n (k.clock + gap) r) k.queue = (q, absorbed)) :
    ∃ t, exec (.hbmSlotGrant n gap true [r] est) s = .next t ∧ (t.mem.stack n).queue = q ∧
      (getStream t (n / 4)).smerge = min ((getStream s (n / 4)).smerge + b2n absorbed) 0xFFFFFFFF := by
  subst hk
  have henter : enter (burstOf (passTime s n gap) est n ((passTime s n gap).mem.stack n).clock r)
      ((passTime s n gap).mem.stack n).queue = (q, absorbed) := by
    rw [stack_passTime_same]
    exact hq
  refine ⟨_, exec_hbmSlotGrant hn rfl, ?_, ?_⟩
  all_goals rw [windowStart_passTime_of_ne gap hslot, arrive_one hr, henter]
  · rw [stack_setStackS_same, setStream_mem, stack_setStackS_same, stack_passTime_same, Stack.granted_background (by exact hback)]
  · dsimp only
    exact congrArg Stream.smerge (getStream_setStream_same _ _ _)

end

/-- Settles O43: each case by the lemma on what the slot makes of its stack, or on how the request enters the queue. -/
theorem stackSlotsAreGrantedByClass : Obligations.StackSlotsAreGrantedByClass := by
  unfold Obligations.StackSlotsAreGrantedByClass
  refine ⟨?slots, ?window, ?arrivals, ?plain⟩
  case slots =>
    intro s n gap est k hn hk hslot
    have hclass {v : Stack} (hv : { k with clock := k.clock + gap }.granted false = v) :
        ∃ t, exec (.hbmSlotGrant n gap false [] est) s = .next t ∧ t.mem.stack n = v :=
      have ⟨t, hexec, ht, _⟩ := exec_hbmSlotGrant_quiet hn hk hslot gap est false hv
      ⟨t, hexec, ht⟩
    refine ⟨fun hback => exec_hbmSlotGrant_quiet hn hk hslot gap est true (Stack.granted_background hback),
      fun hlevel hnil => hclass (Stack.granted_empty hlevel hnil), fun b hlevel hb hc => ?_, fun b hlevel hb hall hmin => ?_,
      fun h3 hused => hclass (Stack.granted_throttled h3 hused)⟩
    · have hnext : nextBurst b.cls k.queue = some b := by simp [hb, nextBurst]
      obtain ⟨t, hexec, ht⟩ := hclass (Stack.granted_of_one_class hlevel hc (by simp [hb]) hnext)
      refine ⟨t, hexec, ht.trans ?_⟩
      simp only [hb, serve, if_true]
      obtain h | h | h : b.cls = 0 ∨ b.cls = 1 ∨ b.cls = 2 := by omega
      all_goals rw [h]; rfl
    · obtain ⟨t, hexec, ht⟩ :=
        hclass (Stack.granted_of_one_class hlevel (by decide : 0 < 3) hall (nextBurst_of_earliest hb hall hmin))
      exact ⟨t, hexec, by rw [ht]; rfl, by rw [ht]; rfl⟩
  case window =>
    intro s n gap background l est hn h0
    obtain ⟨q, hq⟩ := arrive_stack est n l (windowStart (passTime s n gap) n)
    rw [stack_windowStart_of_eq (by rw [stack_passTime_same]; exact h0)] at hq
    obtain ⟨hused, hshares⟩ := Stack.granted_used_le_shares_eq background
      ((arrive est n l (windowStart (passTime s n gap) n)).mem.stack n)
    refine ⟨_, exec_hbmSlotGrant hn rfl, ?_, ?_, ?_, by simp, by simp⟩
    all_goals rw [stack_setStackS_same]
    · rw [Stack.granted, hq, stack_passTime_same, h0]
    · rw [hq] at hused ⊢
      exact hused
    · rw [hshares, hq]
      rfl
  case arrivals =>
    intro s n gap est k b r hn hk hslot hback hqueue hr hdie htime
    have harrival {q absorbed} (hq : enter (burstOf s est n (k.clock + gap) r) [b] = (q, absorbed)) :=
      exec_hbmSlotGrant_arrival hn hk hslot gap est hback hr (hqueue ▸ hq)
    refine ⟨fun hengine hstream hclass hdir hfirst hunit hsize => ?_, fun hengine hb hw hlo hhi => ?_, fun hengine hno => ?_⟩
    · exact harrival (enter_joined ((Burst.follows_iff _ _).mpr
        ⟨hdie.symm, hengine.symm, hstream.symm, hclass.symm, hdir.symm, hfirst, hunit, htime, hsize⟩))
    · exact harrival (enter_shared ((Burst.shares_iff _ _).mpr ⟨hb, hw, hdie.symm, hengine.symm, htime, hlo, hhi⟩))
    · have hshares : b.shares (burstOf s est n (k.clock + gap) r) = false := by
        rw [Bool.eq_false_iff]
        intro hs
        obtain ⟨hb, hw, -, -, -, hlo, hhi⟩ := (Burst.shares_iff _ _).mp hs
        rcases hno with h | h | h | h
        · exact Bool.noConfusion (h.symm.trans hb)
        · exact Bool.noConfusion (h.symm.trans hw)
        · exact Nat.not_le.mpr h hlo
        · exact Nat.not_le.mpr h hhi
      have hfollows : b.follows (burstOf s est n (k.clock + gap) r) = false := by
        rw [Bool.eq_false_iff]
        intro hf
        obtain ⟨-, hsame, -⟩ := (Burst.follows_iff _ _).mp hf
        exact hengine hsame.symm
      obtain ⟨t, hexec, hq, hmerge⟩ := harrival (enter_apart hshares hfollows)
      exact ⟨t, _, hexec, hq, rfl, rfl, rfl, rfl, hmerge⟩
  case plain =>
    intro s n gap est k r hn hk hslot hback hnil hr hstream
    obtain ⟨t, hexec, hq, -⟩ := exec_hbmSlotGrant_arrival hn hk hslot gap est hback hr (by rw [hnil, enter])
    exact ⟨t, _, hexec, hq, rfl, rfl, by simp only [burstOf, reqDeadline, hstream], rfl⟩

end Sys2Proof.Machine
end

section
/-! Pipelines and short messages (R223, R285, R304, R305): what becomes of a message that reaches its module, the turns of
PIPE_SEND and PIPE_RECV, an entry's landing or rejection, the bytes of a scratchpad, and the statement on them. -/

namespace Sys2Proof.Machine

/-! ## Messages that reach a module (R280) -/

section
variable {s : State} {h : Header} {b : Bytes} {f : State → State}

/-- A message for this rank is taken off the list and handed on. -/
theorem onMessage_taken (hroute : s.peers.route ≠ none) (hdst : h.dst = ownRank s) : onMessage s h b f = f (unkeep s h b) :=
  if_pos ⟨hroute, hdst⟩

/-- One for another rank is counted. -/
theorem onMessage_misrouted (hdst : h.dst ≠ ownRank s) : onMessage s h b f =
    { s with peers := { (unkeep s h b).peers with bmisroute := satAdd 32 s.peers.bmisroute 1 } } :=
  if_neg fun hfor => hdst hfor.2

/-- Where nothing is done with a message, the peers' records alone differ. -/
theorem onMessage_id : ∃ p, onMessage s h b id = { s with peers := p } := by
  unfold onMessage
  dsimp only
  split <;> exact ⟨_, rfl⟩

end

@[simp] theorem getPipe_unkeep (s : State) (h : Header) (b : Bytes) (n : Nat) : getPipe (unkeep s h b) n = getPipe s n := rfl

@[simp] theorem recvConfig_unkeep (s : State) (h : Header) (b data : Bytes) (n : Nat) :
    recvConfig (unkeep s h b) n data = recvConfig s n data := rfl

/-! ## PIPE_SEND (R304) -/

/-- The message that carries the entry of a PIPE_SEND. -/
def entryMsg (s : State) (c : Cmd) : TxMsg :=
  txOf s c 2 (c.arg 0x18 1) (c.arg 0x14 4) .unknown 3 (BitVec.ofNat 32 c.pq)
    (BitVec.ofNat 32 ((getPipe s c.pq).nextEntry + c.arg 0x19 1 * 65536)) (entryBytes s (readDesc s (c.arg 0x10 2)))

/-- A pipeline queue once command `cid` has sent its entry. -/
def Pipe.sending (v : Pipe) (cid : Nat) : Pipe :=
  { v with nextEntry := (v.nextEntry + 1) % 65536, sent := v.sent ++ [(v.nextEntry, cid)] }

section
variable {s : State} {cid p : Nat} {c : Cmd}

/-- PIPE_SEND with its checks passed. -/
theorem exec_pipeSend (hd : Dispatched s cid 0x0206 c) (hi : pipeIssue s c = none) :
    exec (.pipeSend cid) s = .next (pipeSend s c) := by
  change Host.Outcome.next (onWork s cid [0x0206] _) = _
  rw [onWork_some (working_off hd rfl), hi]

/-- An entry that is under way waits for its acknowledgement. -/
theorem pipeSend_waits (h : ∃ n, (n, c.cid) ∈ (getPipe s c.pq).sent) : pipeSend s c = s := by
  obtain ⟨n, hn⟩ := h
  exact if_pos (List.any_eq_true.mpr ⟨(n, c.cid), hn, beq_self_eq_true c.cid⟩)

/-- A command that has no entry under way is not found among those sent. -/
theorem sent_any_eq_false (h : ∀ e ∈ (getPipe s c.pq).sent, e.2 ≠ c.cid) :
    (getPipe s c.pq).sent.any (fun e => e.2 == c.cid) = false :=
  List.any_eq_false.mpr fun e he => by simpa using h e he

/-- A damaged compressed entry ends its command (R223). -/
theorem pipeSend_damaged {x : Option Nat × Nat} (hnew : ∀ e ∈ (getPipe s c.pq).sent, e.2 ≠ c.cid)
    (hzip : (readDesc s (c.arg 0x10 2)).compressed = true) (hx : crcDamage s (readDesc s (c.arg 0x10 2)) = some x) :
    pipeSend s c = complete (countDamage s (decodeDie s c)) c (streamDamaged x.2 (x.1.getD 0xFFFF)) 0 := by
  simp only [pipeSend, sent_any_eq_false hnew, hzip, hx, if_true, Bool.false_eq_true, if_false]

/-- A message leaves by the port that its groups give. -/
theorem sendTx_of_choosePort {d : Nat} {m : TxMsg} (hport : choosePort s d m.groups = some p) :
    sendTx s d m = some (enqueueMsg s p m) := by
  rw [sendTx, hport]
  rfl

/-- A sound entry leaves under the next number. -/
theorem pipeSend_sends (hnew : ∀ e ∈ (getPipe s c.pq).sent, e.2 ≠ c.cid)
    (hsound : (readDesc s (c.arg 0x10 2)).compressed = true → crcDamage s (readDesc s (c.arg 0x10 2)) = none)
    (hport : choosePort s 0 (entryMsg s c).groups = some p) :
    pipeSend s c = setPipe (enqueueMsg s p (entryMsg s c)) c.pq ((getPipe s c.pq).sending c.cid) := by
  have hsend := sendTx_of_choosePort hport
  simp only [entryMsg] at hsend
  simp only [pipeSend, sent_any_eq_false hnew, ite_eq_right_iff.mpr hsound, hsend, Bool.false_eq_true, if_false]
  rfl

/-- A message queued stands last on its port. -/
theorem txQueue_enqueueMsg (s : State) (p : Nat) (m : TxMsg) : (getPort (enqueueMsg s p m) p).txQueue =
    (getPort s p).txQueue ++ [{ m with sent := 0, num := none }] := by
  rw [enqueueMsg, getPort_setPort_same]

end

/-! ## PIPE_RECV (R304) -/

/-- A pipeline queue once its entry `e` is taken. -/
def Pipe.taking (v : Pipe) (e : PipeEntry) : Pipe :=
  { v with entries := v.entries.erase e, nextTake := v.after (v.rejected.length + 1) ((v.nextTake + 1) % 65536) }

section
variable {s : State} {cid : Nat} {c : Cmd} {e : PipeEntry}

/-- PIPE_RECV with its checks passed. -/
theorem exec_pipeRecv (hd : Dispatched s cid 0x0207 c) (hi : pipeIssue s c = none) :
    exec (.pipeRecv cid) s = .next (pipeRecv s c) := by
  change Host.Outcome.next (onWork s cid [0x0207] _) = _
  rw [onWork_some (working_off hd rfl), hi]

/-- Without the next entry it waits. -/
theorem pipeRecv_waits (hnone : nextEntryOf s c.pq = none) : pipeRecv s c = s := by
  rw [pipeRecv, hnone]

/-- A damaged compressed entry ends it; the entry stays in its slot (R223; log 85). -/
theorem pipeRecv_damaged {x : Option Nat × Nat} (hnext : nextEntryOf s c.pq = some e)
    (hzip : (readDesc s (c.arg 0x10 2)).compressed = true)
    (hx : crcDamage (withEntry s (readDesc s (c.arg 0x10 2)) e.data) (readDesc s (c.arg 0x10 2)) = some x) :
    pipeRecv s c = complete (countDamage s (decodeDie s c)) c (streamDamaged x.2 (x.1.getD 0xFFFF)) 0 := by
  simp only [pipeRecv, hnext, hzip, hx, if_true]

/-- A sound entry is taken; its bytes and the credit wait for the commit. -/
theorem pipeRecv_takes (hnext : nextEntryOf s c.pq = some e) (hdata : e.data ≠ [])
    (hsound : (readDesc s (c.arg 0x10 2)).compressed = true →
      crcDamage (withEntry s (readDesc s (c.arg 0x10 2)) e.data) (readDesc s (c.arg 0x10 2)) = none) :
    pipeRecv s c = finishWork (setPipe s c.pq ((getPipe s c.pq).taking e)) c (succeeded (kib e.data.length)
      ((recvWrites (readDesc s (c.arg 0x10 2)) e.data).map (fun w => Effect.write w.1 w.2) ++
        [.credit c.pq (c.arg 0x14 4) (c.arg 0x18 1) c.phase])) := by
  simp only [pipeRecv, hnext, ite_eq_right_iff.mpr hsound, if_neg hdata]
  rfl

end

/-! ## An entry arrives (R305) -/

/-- A message sent, or not where no port is up, leaves the commands. -/
theorem sendTx_getD_cmds (s : State) (d : Nat) (m : TxMsg) : ((sendTx s d m).getD s).cmds = s.cmds := by
  cases hsent : sendTx s d m with
  | none => rfl
  | some s1 => exact sendTx_cmds hsent

/-- Byte `i` of a run written where no command claims it. -/
theorem Memory.read_write_at {m : Memory} {a i : Nat} {b : Bytes} (hm : m.wf = true) (hi : i < b.length)
    (hc : claimAt m.claims (a + i) = none) : (m.write a b).read (a + i) = b.getD i 0 := by
  rw [Memory.read_write_inside m a _ b hm hc (by omega), Nat.add_sub_cancel_left]

section
variable {s : State} {h : Header} {b : Bytes} {cfg : Nat × Nat × Bool}

/-- An entry whose queue's slots are known lands or is rejected. -/
theorem exec_pipeEntryArrive (hcls : h.cls = 2) (hbit : bit h.spec.toNat 24 = false) (hroute : s.peers.route ≠ none)
    (hdst : h.dst = ownRank s) (hcfg : recvConfig s (h.id.toNat % 64) b = some cfg) :
    exec (.pipeEntryArrive h b) s = .next (landEntry (unkeep s h b) h b cfg) := by
  change Host.Outcome.next (ite _ (onMessage s h b _) s) = _
  rw [if_pos ⟨hcls, by simp [hbit]⟩, onMessage_taken hroute hdst, recvConfig_unkeep, hcfg]

/-- An entry that comes before any PIPE_RECV tells the slots is kept. -/
theorem exec_pipeEntryArrive_kept (hcls : h.cls = 2) (hbit : bit h.spec.toNat 24 = false) (hroute : s.peers.route ≠ none)
    (hdst : h.dst = ownRank s) (hcfg : recvConfig s (h.id.toNat % 64) b = none) :
    exec (.pipeEntryArrive h b) s = .next (keepMsg (unkeep s h b) h b) := by
  change Host.Outcome.next (ite _ (onMessage s h b _) s) = _
  rw [if_pos ⟨hcls, by simp [hbit]⟩, onMessage_taken hroute hdst, recvConfig_unkeep, hcfg]

/-- The state once the answer to an entry has left. -/
def ackSent (s : State) (h : Header) (landed : Bool) : State :=
  (sendTx s 0 (ackMsg s h (((recvOf s (h.id.toNat % 64)).map (fun c => c.arg 0x18 1)).getD 0) landed)).getD s

@[simp] theorem ackSent_mem (landed : Bool) : (ackSent s h landed).mem = s.mem := sendTx_getD_mem _ _ _ _ rfl

@[simp] theorem ackSent_cmds (landed : Bool) : (ackSent s h landed).cmds = s.cmds := sendTx_getD_cmds _ _ _

/-- An entry that does not fit its queue is rejected, and its number passed over. -/
theorem landEntry_rejects (hno : bits h.spec.toNat 23 16 ≠ cfg.1 ∨ cfg.2.2 = false) : landEntry s h b cfg =
    setPipe (ackSent s h false) (h.id.toNat % 64) ((getPipe s (h.id.toNat % 64)).reject (h.spec.toNat % 65536)) := by
  have hok : (bits h.spec.toNat 23 16 == cfg.1 && cfg.2.2) = false := by
    rcases hno with hslots | hfits
    · rw [beq_false_of_ne hslots, Bool.false_and]
    · rw [hfits, Bool.and_false]
  simp only [landEntry, hok, Bool.not_false, if_true]
  rfl

/-- One that fits and is not there already lands in its slot. -/
theorem landEntry_lands (hslots : bits h.spec.toNat 23 16 = cfg.1) (hfits : cfg.2.2 = true)
    (hnew : ∀ e ∈ (getPipe s (h.id.toNat % 64)).entries, e.number ≠ h.spec.toNat % 65536 ∨ e.src ≠ h.src) :
    landEntry s h b cfg = setPipe
      (hbmWrite (ackSent s h true) ((readDesc s cfg.2.1).home + h.spec.toNat % 65536 % max cfg.1 1 * b.length) b)
      (h.id.toNat % 64) { getPipe s (h.id.toNat % 64) with
        slots := cfg.1, size := b.length, buffer := cfg.2.1
        entries := (getPipe s (h.id.toNat % 64)).entries ++
          [{ src := h.src, number := h.spec.toNat % 65536, data := b }] } := by
  have hok : (bits h.spec.toNat 23 16 == cfg.1 && cfg.2.2) = true := by simp [hslots, hfits]
  have hfresh : (getPipe s (h.id.toNat % 64)).entries.any
      (fun e => e.number == h.spec.toNat % 65536 && e.src == h.src) = false :=
    List.any_eq_false.mpr fun e he => by simpa [imp_iff_not_or] using hnew e he
  simp only [landEntry, hok, hfresh, Bool.not_true, Bool.false_eq_true, if_false]
  rfl

end

/-! ## Acknowledgements and credits (R304, R305) -/

/-- A credit message adds a credit. -/
theorem exec_pipeCreditReceive {s : State} {h : Header} (hcls : h.cls = 4) (hkind : shortKind h.spec = 4)
    (hroute : s.peers.route ≠ none) (hdst : h.dst = ownRank s) :
    exec (.pipeCreditReceive h) s = .next (setPipe (unkeep s h []) (h.id.toNat % 64)
      { getPipe s (h.id.toNat % 64) with credits := (getPipe s (h.id.toNat % 64)).credits.map (· + 1) }) := by
  change Host.Outcome.next (ite _ (onMessage s h [] _) s) = _
  rw [if_pos ⟨hcls, hkind⟩, onMessage_taken hroute hdst]
  rfl

/-- The state once the entry of command `cid` is answered: its number falls free, and after a rejection its credit too. -/
def entryAnswered (s : State) (h : Header) (cid : Nat) (accepted : Bool) : State :=
  let v := getPipe s (h.id.toNat % 64)
  setPipe (unkeep s h []) (h.id.toNat % 64) { v with
    sent := v.sent.erase (h.spec.toNat % 65536, cid), credits := if accepted then v.credits else v.credits.map (· + 1) }

/-- The answer to an entry under way: where it landed its command's work is done, a rejection ends the command. -/
theorem exec_pipeEntryAcknowledge {s : State} {h : Header} {cid : Nat} {c : Cmd} (accepted : Bool) (hcls : h.cls = 2)
    (hroute : s.peers.route ≠ none) (hdst : h.dst = ownRank s)
    (hsent : (getPipe s (h.id.toNat % 64)).sent.find? (fun e => e.1 == h.spec.toNat % 65536) = some (h.spec.toNat % 65536, cid))
    (hd : Dispatched s cid 0x0206 c) : exec (.pipeEntryAcknowledge h accepted) s = .next (if accepted
      then finishWork (entryAnswered s h cid accepted) c (succeeded (kib (entrySize s (readDesc s (c.arg 0x10 2)))) [])
      else complete (entryAnswered s h cid accepted) c (badParam 0 2) 0) := by
  have hw : working (entryAnswered s h cid accepted) cid [0x0206] = some c := working_off hd rfl
  rw [entryAnswered] at hw
  change Host.Outcome.next (ite _ (onMessage s h [] _) s) = _
  rw [if_pos hcls, onMessage_taken hroute hdst]
  simp only [getPipe_unkeep, hsent, hw]
  rfl

/-! ## Bytes of a scratchpad (R285) -/

/-- A byte of a scratchpad once a run of bytes is laid into it: those beyond its end are dropped. -/
theorem mget_padWrite (b : Bytes) (m : Map Byte) (a x : Nat) : mget 0 (padWrite m a b) x =
    if a ≤ x ∧ x < a + b.length ∧ x < padBytes then b.getD (x - a) 0 else mget 0 m x := by
  induction b generalizing m a with
  | nil => rw [padWrite, if_neg (by simp only [List.length_nil]; omega)]
  | cons y l ih =>
    rw [padWrite, List.length_cons]
    by_cases ha : a < padBytes
    · rw [if_pos ha, ih]
      by_cases hx : x = a
      · subst hx
        rw [if_neg (by omega), if_pos (by omega), mget_mput_same, Nat.sub_self, List.getD_cons_zero]
      · rw [mget_mput_ne 0 m a x y hx]
        by_cases hin : a ≤ x ∧ x < a + (l.length + 1) ∧ x < padBytes
        · obtain ⟨k, rfl⟩ : ∃ k, x = a + 1 + k := ⟨x - a - 1, by omega⟩
          rw [if_pos hin, if_pos (by omega), Nat.add_sub_cancel_left, Nat.add_assoc, Nat.add_comm 1 k,
            Nat.add_sub_cancel_left, List.getD_cons_succ]
        · rw [if_neg hin, if_neg (by omega)]
    · rw [if_neg ha, if_neg (by omega)]

/-! ## Tokens that no command signals (R285) -/

section
variable (s : State)

@[simp] theorem signalToken_cmds (n : Nat) : (signalToken s n).cmds = s.cmds := by
  unfold signalToken
  split <;> rfl

@[simp] theorem getMere_signalToken (n x : Nat) : getMere (signalToken s n) x = getMere s x := by
  unfold signalToken
  split <;> rfl

/-- A token signalled counts, up to the counter's limit. -/
theorem signalToken_count {n : Nat} (hn : n ≠ 0) :
    (getCounter (signalToken s n) n).count.toNat = min ((getCounter s n).count.toNat + 1) 0xFFFF := by
  rw [signalToken, if_neg hn, getCounter_setCounter_same, BitVec.toNat_ofNat]
  exact Nat.mod_eq_of_lt (by omega)

/-- It leaves the other counters. -/
theorem signalToken_counter_ne {n k : Nat} (hk : k ≠ n) : getCounter (signalToken s n) k = getCounter s k := by
  unfold signalToken
  split
  · rfl
  · exact getCounter_setCounter_ne _ _ _ _ hk

end

/-! ## Short data messages (R285) -/

/-- The state once the bytes `b` are laid into the scratchpad of Mere `p` from address `a`. -/
def padWritten (s : State) (p a : Nat) (b : Bytes) : State :=
  setMere s p { getMere s p with pad := padWrite (getMere s p).pad a b }

/-- A byte of that scratchpad. -/
theorem pad_padWritten (s : State) (p a x : Nat) (b : Bytes) : mget 0 (getMere (padWritten s p a b) p).pad x =
    if a ≤ x ∧ x < a + b.length ∧ x < padBytes then b.getD (x - a) 0 else mget 0 (getMere s p).pad x := by
  rw [padWritten, getMere_setMere_same, mget_padWrite]

section
variable {s : State} {h : Header} {b : Bytes}

/-- A data message for a Mere that is exposed fills its scratchpad and signals. -/
theorem exec_shortMessageReceive (hcls : h.cls = 4) (hkind : shortKind h.spec = 0) (hroute : s.peers.route ≠ none)
    (hdst : h.dst = ownRank s)
    (hmere : bits h.id.toNat 29 22 % 128 < meresExposed s (bits h.id.toNat 29 22 / 128)) :
    exec (.shortMessageReceive h b) s = .next (signalToken
      (padWritten (unkeep s h b) (physOf s (bits h.id.toNat 29 22)) (h.id.toNat % 2 ^ 22) b) (h.spec.toNat % 4096)) := by
  change Host.Outcome.next (ite _ (onMessage s h b _) _) = _
  rw [if_pos ⟨hcls, hkind⟩, onMessage_taken hroute hdst]
  exact congrArg _ (if_pos hmere)

/-- One for a Mere that is not exposed is dropped. -/
theorem exec_shortMessageReceive_hidden (hcls : h.cls = 4) (hkind : shortKind h.spec = 0) (hroute : s.peers.route ≠ none)
    (hdst : h.dst = ownRank s)
    (hmere : meresExposed s (bits h.id.toNat 29 22 / 128) ≤ bits h.id.toNat 29 22 % 128) :
    exec (.shortMessageReceive h b) s = .next (unkeep s h b) := by
  change Host.Outcome.next (ite _ (onMessage s h b _) _) = _
  rw [if_pos ⟨hcls, hkind⟩, onMessage_taken hroute hdst]
  exact congrArg _ (if_neg (Nat.not_lt.mpr hmere))

/-- One for another rank is counted. -/
theorem exec_shortMessageReceive_misrouted (hcls : h.cls = 4) (hkind : shortKind h.spec = 0) (hdst : h.dst ≠ ownRank s) :
    exec (.shortMessageReceive h b) s =
      .next { s with peers := { (unkeep s h b).peers with bmisroute := satAdd 32 s.peers.bmisroute 1 } } := by
  change Host.Outcome.next (ite _ (onMessage s h b _) _) = _
  rw [if_pos ⟨hcls, hkind⟩, onMessage_misrouted hdst]

/-- An Eddy notice does nothing. -/
theorem exec_shortMessageReceive_notice (hcls : h.cls = 4) (hkind : shortKind h.spec = 5) :
    exec (.shortMessageReceive h b) s = .next (onMessage s h b id) := by
  change Host.Outcome.next (ite _ _ (ite _ (onMessage s h b id) s)) = _
  rw [if_neg (by simp [hkind]), if_pos ⟨hcls, hkind⟩]

end

/-- Settles O55: each command's turn and each message's effect by its rule above. -/
theorem pipelinesAndShortMessages : Obligations.PipelinesAndShortMessages := by
  unfold Obligations.PipelinesAndShortMessages
  refine ⟨?send, ?recv, ?arrive, ?kept, ?credit, ?acknowledge, ?short⟩
  case send =>
    rintro s cid p c v d hd hi rfl rfl
    rw [exec_pipeSend hd hi]
    refine ⟨fun hsent => by rw [pipeSend_waits hsent], fun hnew hsound hport => ?_, fun x hnew hzip hx => ?_⟩
    · rw [pipeSend_sends (p := p) hnew hsound hport]
      exact ⟨_, _, rfl, txQueue_enqueueMsg s p (entryMsg s c), rfl, rfl, getPipe_setPipe_same _ _ _, rfl, rfl, rfl⟩
    · rw [pipeSend_damaged hnew hzip hx]
      exact ⟨_, rfl, complete_ended _ c _ 0⟩
  case recv =>
    rintro s cid c d v hd hi rfl rfl
    rw [exec_pipeRecv hd hi]
    refine ⟨fun hnone => by rw [pipeRecv_waits hnone], fun e hnext hdata hsound => ?_, fun e x hnext hzip hx => ?_⟩
    · rw [pipeRecv_takes hnext hdata hsound]
      exact ⟨_, _, rfl, rfl, finishWork_executed _ _ _ hd.find_self rfl⟩
    · rw [pipeRecv_damaged hnext hzip hx]
      exact ⟨_, rfl, complete_ended _ c _ 0⟩
  case arrive =>
    rintro s h data pq slots buf a fits hsafe hcls hbit hroute hdst rfl hcfg rfl
    rw [exec_pipeEntryArrive hcls hbit hroute hdst hcfg]
    refine ⟨fun hslots hfits hnew hfree => ?_, fun hno => ?_⟩
    · rw [landEntry_lands (s := unkeep s h data) (cfg := (slots, buf, fits)) hslots hfits hnew]
      refine ⟨_, rfl, by rw [getPipe_setPipe_same]; rfl, fun i hlt => ?_, fun x hx => ?_, ackSent_cmds true⟩
      · rw [setPipe_mem, hbmWrite_mem, ackSent_mem]
        exact Memory.read_write_at hsafe hlt (hfree i hlt)
      · rw [setPipe_mem, hbmWrite_mem, ackSent_mem]
        exact Memory.read_write_outside _ _ _ _ hsafe hx
    · rw [landEntry_rejects (cfg := (slots, buf, fits)) hno]
      exact ⟨_, rfl, getPipe_setPipe_same _ _ _, ackSent_mem false, ackSent_cmds false⟩
  case kept =>
    intro s h data hcls hbit hroute hdst hcfg
    exact ⟨_, exec_pipeEntryArrive_kept hcls hbit hroute hdst hcfg, rfl, rfl,
      List.mem_append_right _ (List.mem_singleton_self _)⟩
  case credit =>
    intro s h n hcls hkind hroute hdst hn
    refine ⟨_, exec_pipeCreditReceive hcls hkind hroute hdst, ?_, rfl, rfl⟩
    rw [getPipe_setPipe_same, hn]
    rfl
  case acknowledge =>
    rintro s h pq cid c hcls hroute hdst rfl hsent hd
    refine ⟨⟨_, entryAnswered s h cid true, exec_pipeEntryAcknowledge true hcls hroute hdst hsent hd, rfl, rfl, ?_, ?_, ?_⟩,
      ⟨_, entryAnswered s h cid false, exec_pipeEntryAcknowledge false hcls hroute hdst hsent hd, rfl, rfl, ?_,
        complete_ended _ c _ 0⟩⟩
    · rw [entryAnswered, getPipe_setPipe_same]
    · rw [entryAnswered, getPipe_setPipe_same, if_pos rfl]
    · rw [if_pos rfl]
      exact finishWork_executed _ c _ hd.find_self rfl
    · rw [entryAnswered, getPipe_setPipe_same, if_neg Bool.false_ne_true]
  case short =>
    rintro s h data l a n p hcls hkind hroute hdst rfl rfl rfl rfl
    refine ⟨fun hmere => ?_, fun hmere => ⟨_, exec_shortMessageReceive_hidden hcls hkind hroute hdst hmere, rfl⟩,
      fun g hg hnote => ?_, fun g hg hdata hother => ⟨_, exec_shortMessageReceive_misrouted hg hdata hother, rfl, rfl⟩⟩
    · refine ⟨_, exec_shortMessageReceive hcls hkind hroute hdst hmere, fun i hlt hend => ?_, fun x hx => ?_,
        signalToken_count _, fun k hk => signalToken_counter_ne _ hk, fun x hx => ?_, ?_, ?_⟩
      · rw [getMere_signalToken, pad_padWritten, if_pos ⟨Nat.le_add_right _ _, Nat.add_lt_add_left hlt _, hend⟩,
          Nat.add_sub_cancel_left]
      · rw [getMere_signalToken, pad_padWritten, if_neg (by omega)]
        rfl
      · rw [getMere_signalToken, padWritten, getMere_setMere_ne _ _ _ _ hx]
        rfl
      · rw [signalToken_mem]
        rfl
      · rw [signalToken_cmds]
        rfl
    · obtain ⟨q, hq⟩ := onMessage_id (s := s) (h := g) (b := data)
      exact ⟨_, exec_shortMessageReceive_notice hg hnote, by rw [hq]⟩

end Sys2Proof.Machine
end

section
/-! Management commands (R236, R356, R357, R371-R374, R378, R380, R399): a command of the admin queue ends as soon as its work is
done, and the statement on group 0x0F and on images. -/

namespace Sys2Proof.Machine

/-! ## Commands of the admin queue -/

/-- A command that is over as soon as its work is done ends in the state `u` that its work leaves. -/
theorem onWork_adminEnd {s u : State} {cid op : Nat} {c : Cmd} {e : Err} {f : Cmd → State × Err} (h : Dispatched s cid op c)
    (ho : onMeres op = false) (hwork : f c = (u, e)) : Ended u (onWork s cid [op] (fun c => adminEnd c (f c))) c e 0 := by
  rw [onWork_some (working_off h ho), adminEnd, hwork]
  exact complete_ended u c e 0

section
variable {s t : State} {c : Cmd} {e : Err} {w : Nat} (h : Ended s t c e w)
include h

/-- The end of a command leaves the power state, the quotas and the security engine. -/
theorem Ended.power_eq : t.power = s.power := by rw [h.rest]

theorem Ended.quota_eq : t.mem.quota = s.mem.quota := by rw [h.rest]

theorem Ended.banksOf_eq (k : Nat) : banksOf t k = banksOf s k := by rw [banksOf, h.rest]; rfl

end

/-- POWER_CAP sets the cap, and whether the module can stay below it (R399). -/
theorem setCap_power (s : State) (w : Nat) : (setCap s w).power =
    { s.power with capW := if w = 0 then none else some w, capUnreachable := decide (0 < w ∧ w < s.power.pidle) } := by
  unfold setCap
  rw [capSync_counted]

/-! ## Images (R371-R374) -/

/-- An image stored as pending is the one that its type's other bank holds. -/
theorem banksOf_storePending (s : State) (i : Image) :
    banksOf (storePending s i) i.typ = { banksOf s i.typ with other := some i, pending := true } := mget_mput_same _ _ _ _

section
variable {s : State} {b : Bytes} {down : Bool} {floor : Nat → Nat}

/-- An image that fails a check, or is no firmware, counts (R371, R381). -/
theorem storeImage_invalid (h : imageFault s b ≠ none ∨ field b 5 1 = 0x10) :
    storeImage s (.data b) down floor = sigFail s (imageType b) := if_pos h

/-- One below its floor is refused (R373). -/
theorem storeImage_old (hgood : imageFault s b = none) (htyp : field b 5 1 ≠ 0x10) (hold : field b 0x10 4 < floor (field b 5 1)) :
    storeImage s (.data b) down floor = (s, badParam 0x10 6) := by
  simp [storeImage, hgood, htyp, hold]

/-- One no older than its floor is stored (R374). -/
theorem storeImage_stored (hgood : imageFault s b = none) (htyp : field b 5 1 ≠ 0x10)
    (hnew : floor (field b 5 1) ≤ field b 0x10 4) :
    storeImage s (.data b) down floor = (storePending s (imageOf b down), okStatus) := by
  simp [storeImage, hgood, htyp, Nat.not_lt.mpr hnew]

end

/-- A row that ends its command with what `storeImage` answers, where `may` holds, takes images. -/
theorem storesImage_of_end {i : Nat → HostRead → Instr} {op : Nat} {down : Bool} {floor : State → Nat → Nat} {may : State → Prop}
    (hexec : ∀ s cid c host u e, Dispatched s cid op c → may s → storeImage s host down (floor s) = (u, e) →
      ∃ t, exec (i cid host) s = .next t ∧ Ended u t c e 0) :
    StoresImage i op down floor may := by
  intro s cid c hd hmay
  refine ⟨hexec s cid c .failed _ _ hd hmay rfl, fun b hbad => hexec s cid c (.data b) _ _ hd hmay (storeImage_invalid hbad),
    fun b hgood htyp => ⟨fun hold => hexec s cid c (.data b) _ _ hd hmay (storeImage_old hgood htyp hold), fun hnew => ?_⟩⟩
  obtain ⟨t, hnext, hend⟩ := hexec s cid c (.data b) _ _ hd hmay (storeImage_stored hgood htyp hnew)
  exact ⟨t, hnext, hend, (hend.banksOf_eq _).trans (banksOf_storePending s (imageOf b down))⟩

/-- Settles O23: each command's end by the rule of the admin queue; both rows of images by the rule of `storeImage`. -/
theorem managementCommandsTakeEffect : Obligations.ManagementCommandsTakeEffect := by
  unfold Obligations.ManagementCommandsTakeEffect
  refine ⟨?telemetry, ?cap, ?quota, ?errlog, ?attest, ?update, ?downgrade⟩
  case telemetry =>
    intro s cid c hd
    exact ⟨_, rfl, onWork_adminEnd hd rfl rfl⟩
  case cap =>
    rintro s cid c w hd rfl
    have hend : Ended (setCap s (c.arg 0x10 2)) _ c okStatus 0 := onWork_adminEnd (f := runPowerCap s) hd rfl rfl
    exact ⟨_, rfl, hend, hend.power_eq.trans (setCap_power s _)⟩
  case quota =>
    intro s cid c hd
    have hend : Ended (setQuota s (c.arg 0x10 1) (c.word 0x14)) _ c okStatus 0 :=
      onWork_adminEnd (f := runQuotaSet s) hd rfl rfl
    refine ⟨_, rfl, hend, ?_, fun q hq => ?_⟩ <;> rw [hend.quota_eq]
    · exact mget_mput_same _ _ _ _
    · exact mget_mput_ne _ _ _ _ _ hq
  case errlog =>
    rintro s cid c b hd rfl
    exact ⟨_, rfl, onWork_adminEnd hd rfl (by simp [runErrlogRead, okStatus])⟩
  case attest =>
    intro s cid c hd
    exact ⟨_, rfl, onWork_adminEnd hd rfl rfl⟩
  case update =>
    exact storesImage_of_end fun s cid c host u e hd _ hstore => ⟨_, rfl, onWork_adminEnd hd rfl hstore⟩
  case downgrade =>
    refine storesImage_of_end fun s cid c host u e hd hpresent hstore => ⟨_, rfl, onWork_adminEnd hd rfl ?_⟩
    rw [privileged, if_pos hpresent]
    exact hstore

end Sys2Proof.Machine
end

section
/-! ALLOC and FREE (R231-R236): what their work answers, what their commits do to the page tables, and the statement on both. -/

namespace Sys2Proof.Machine

/-! ## The work of ALLOC and FREE (R232-R234) -/

/-- Window, first span and number of spans of the range that an ALLOC or a FREE names. -/
def Cmd.spans (c : Cmd) (s : State) : Nat × Nat × Nat :=
  spansOf (readDesc s (c.arg 0x10 2)).base (allocLen (readDesc s (c.arg 0x10 2)) c)

/-- Whether any of `n` spans of window `w` is mapped. -/
def anyMapped (s : State) (w first n : Nat) : Bool := (List.range n).any (fun i => mhas (s.mem.spans w) (first + i))

/-- Whether all of them are. -/
def allMapped (s : State) (w first n : Nat) : Bool := (List.range n).all (fun i => mhas (s.mem.spans w) (first + i))

/-- The quota of queue `q` in MiB; all ones is none (R236). -/
def quotaOf (s : State) (q : Nat) : Word := mget 0xFFFFFFFF#32 s.mem.quota q

/-- The most that a stack of window `w` lacks of `n` frames. -/
def framesShort (s : State) (w n : Nat) : Nat := ((windowStacks w).map (fun k => n - s.mem.freeCount k)).foldl max 0

/-- The frames that ALLOC picks for `n` spans of window `w`: of every stack one for each span. -/
def spanPicks (s : State) (w n : Nat) : List (List Nat) :=
  (List.range n).map (fun i => (windowStacks w).map (fun k => (takeFrames s k n).getD i 0))

/-- A word of ones by its value. -/
theorem toNat_ne_ones (v : Word) : v.toNat ≠ 0xFFFFFFFF ↔ v ≠ 0xFFFFFFFF#32 := by
  rw [Ne, Ne, ← BitVec.toNat_inj, BitVec.toNat_ofNat]

section
variable {s : State} {w first n : Nat}

theorem anyMapped_true {i : Nat} (hi : i < n) (hmap : mhas (s.mem.spans w) (first + i) = true) : anyMapped s w first n = true :=
  List.any_eq_true.mpr ⟨i, List.mem_range.mpr hi, hmap⟩

theorem anyMapped_false (h : ∀ i, i < n → mhas (s.mem.spans w) (first + i) = false) : anyMapped s w first n = false := by
  simpa [anyMapped] using h

theorem allMapped_true (h : ∀ i, i < n → mhas (s.mem.spans w) (first + i) = true) : allMapped s w first n = true := by
  simpa [allMapped] using h

theorem allMapped_false {i : Nat} (hi : i < n) (hfree : mhas (s.mem.spans w) (first + i) = false) :
    allMapped s w first n = false :=
  List.all_eq_false.mpr ⟨i, List.mem_range.mpr hi, by simp [hfree]⟩

/-- What the stack that lacks the most lacks. -/
theorem framesShort_eq {x : Nat} (hx : x ∈ windowStacks w)
    (hle : ∀ y ∈ windowStacks w, n - s.mem.freeCount y ≤ n - s.mem.freeCount x) : framesShort s w n = n - s.mem.freeCount x := by
  have hmem := List.mem_map_of_mem (f := fun k => n - s.mem.freeCount k) hx
  rw [framesShort, List.foldl_max_eq_max (List.ne_nil_of_mem hmem), (List.max_eq_iff _).mpr ⟨hmem, by simpa using hle⟩,
    Nat.zero_max]

/-- With frames to spare in every stack none lacks any. -/
theorem framesShort_zero (h : ∀ x ∈ windowStacks w, n ≤ s.mem.freeCount x) : framesShort s w n = 0 := by
  have hne : windowStacks w ≠ [] := by unfold windowStacks; split_ifs <;> simp
  obtain ⟨x, hx⟩ := List.exists_mem_of_ne_nil _ hne
  have hzero (y : Nat) (hy : y ∈ windowStacks w) : n - s.mem.freeCount y = 0 := Nat.sub_eq_zero_of_le (h y hy)
  rw [framesShort_eq hx fun y hy => by rw [hzero y hy]; exact Nat.zero_le _, hzero x hx]

end

section
variable {s : State} {c : Cmd} {w first n : Nat} (hr : (w, first, n) = c.spans s)
include hr

/-- The work of ALLOC in the order of R233's checks. -/
theorem allocRun_eq : allocRun s c =
    if n = 0 then Run.plain zeroExtent
    else if anyMapped s w first n then Run.fail (badParam 0x18 2)
    else if quotaOf s c.q ≠ 0xFFFFFFFF#32 ∧ (quotaOf s c.q).toNat < s.mem.used c.q + 2 * (n * (windowStacks w).length) then
      Run.fail (quotaExceeded c.q (n * (windowStacks w).length * 0x200000))
    else if 0 < framesShort s w n then
      Run.fail (capacityShort 2 (gib (framesShort s w n * (windowStacks w).length * 0x200000)))
    else Run.plain (succeeded 0 [.mapSpans w first c.q (spanPicks s w n)]) := by
  have hspans : spansOf _ _ = (w, first, n) := hr.symm
  unfold allocRun
  simp only [hspans, List.map_map, toNat_ne_ones]
  rfl

/-- The work of FREE in the order of R234's and R231's checks. -/
theorem freeRun_eq : freeRun s c =
    if n = 0 then Run.plain zeroExtent
    else if allMapped s w first n = false then Run.fail (badParam 0x18 2)
    else if holdsRing s ((readDesc s (c.arg 0x10 2)).base, n * spanSize w) then Run.fail (badParam 0 6)
    else Run.plain (succeeded 0 [.unmapSpans w first n]) := by
  have hspans : spansOf _ _ = (w, first, n) := hr.symm
  unfold freeRun
  simp only [hspans, Bool.not_eq_true']
  rfl

end

/-! ## What becomes of the commands (R233-R235) -/

/-- A range that R232 refuses is BAD_PARAM. -/
theorem allocIssue_fails {s : State} {c : Cmd} {e : Err} (h : allocIssue s c = some e) : signals e.1 = false := by
  unfold allocIssue need at h
  obtain ⟨-, rfl⟩ : _ ∧ badParam 0x18 2 = e := by simpa using h
  rfl

/-- The frames of a run that maps nothing are none. -/
theorem pickFrames_none {r : Run} (s : State) (cid : Nat) (h : mappedFrames r.result.effects = []) : pickFrames s cid r = s := by
  simp [pickFrames, h]

section
variable {s : State} {cid : Nat} {c : Cmd}

/-- While an earlier ALLOC or FREE is uncommitted, ALLOC waits. -/
theorem exec_alloc_waits (hd : Dispatched s cid 0x0208 c) (hturn : allocTurn s c = false) : exec (.alloc cid) s = .next s := by
  simp [exec, execAlloc, onWork_some (working_off hd rfl), hturn]

/-- So does FREE. -/
theorem exec_free_waits (hd : Dispatched s cid 0x0209 c) (hturn : allocTurn s c = false) : exec (.free cid) s = .next s := by
  simp [exec, execFree, onWork_some (working_off hd rfl), hturn]

section
variable (hd : Dispatched s cid 0x0208 c) (hturn : allocTurn s c = true)
include hd hturn

/-- ALLOC in its turn runs under its checks and picks its frames. -/
theorem exec_alloc {r : Run} (hrun : checked (allocIssue s c) (allocRun s c) = r) :
    exec (.alloc cid) s = .next (pickFrames (applyRun s c r) cid r) := by
  simp [exec, execAlloc, onWork_some (working_off hd rfl), hturn, hrun]

/-- ALLOC whose result signals waits for its commit, its frames picked. -/
theorem alloc_executed {l : Result} (hissue : allocIssue s c = none) (hrun : allocRun s c = Run.plain l)
    (hl : signals l.status = true) :
    ∃ t u, exec (.alloc cid) s = .next t ∧ t = pickFrames u cid (Run.plain l) ∧ Executed s u c l :=
  ⟨_, _, exec_alloc hd hturn (by rw [hissue]; exact hrun), rfl, applyRun_executed s c (Run.plain l) hd.find_self hl⟩

/-- ALLOC that fails ends. -/
theorem alloc_ended {e : Err} (hrun : checked (allocIssue s c) (allocRun s c) = Run.fail e) (he : signals e.1 = false) :
    ∃ t, exec (.alloc cid) s = .next t ∧ Ended s t c e 0 := by
  refine ⟨_, exec_alloc hd hturn hrun, ?_⟩
  rw [pickFrames_none _ _ rfl, applyRun_fail s c e he]
  exact complete_ended s c e 0

end

section
variable (hd : Dispatched s cid 0x0209 c) (hturn : allocTurn s c = true)
include hd hturn

/-- FREE in its turn runs under its checks. -/
theorem exec_free {r : Run} (hrun : checked (allocIssue s c) (freeRun s c) = r) :
    exec (.free cid) s = .next (applyRun s c r) := by
  simp [exec, execFree, onWork_some (working_off hd rfl), hturn, hrun]

/-- FREE whose result signals waits for its commit. -/
theorem free_executed {l : Result} (hissue : allocIssue s c = none) (hrun : freeRun s c = Run.plain l)
    (hl : signals l.status = true) : ∃ t, exec (.free cid) s = .next t ∧ Executed s t c l :=
  ⟨_, exec_free hd hturn (by rw [hissue]; exact hrun), applyRun_executed s c (Run.plain l) hd.find_self hl⟩

/-- FREE that fails ends. -/
theorem free_ended {e : Err} (hrun : checked (allocIssue s c) (freeRun s c) = Run.fail e) (he : signals e.1 = false) :
    ∃ t, exec (.free cid) s = .next t ∧ Ended s t c e 0 := by
  refine ⟨_, exec_free hd hturn hrun, ?_⟩
  rw [applyRun_fail s c e he]
  exact complete_ended s c e 0

end

end

/-! ## The page tables after a commit (R233, R234) -/

theorem Memory.spans_setSpans (m : Memory) (w : Nat) (t : Map Span) : (m.setSpans w t).spans w = t := by
  unfold Memory.setSpans Memory.spans
  split_ifs <;> rfl

theorem Memory.spans_forget (m : Memory) (a n k w : Nat) : (m.forget a n k).spans w = m.spans w := by
  unfold Memory.forget
  split <;> rfl

/-- The page table `m` with the spans of `frames` entered from `first` on. -/
def spansEntered (m : Map Span) (first owner : Nat) (frames : List (List Nat)) : Map Span :=
  ((List.range frames.length).zip frames).foldl (fun m p => mput m (first + p.1) { owner := owner, frames := p.2 }) m

/-- The last span is entered after the others. -/
theorem spansEntered_concat (m : Map Span) (first owner : Nat) (frames : List (List Nat)) (x : List Nat) :
    spansEntered m first owner (frames ++ [x]) =
      mput (spansEntered m first owner frames) (first + frames.length) { owner := owner, frames := x } := by
  simp [spansEntered, List.range_succ, List.zip_append]

/-- A span that was entered. -/
theorem mget_spansEntered_inside (d : Span) (m : Map Span) (first owner : Nat) (frames : List (List Nat)) {i : Nat}
    (hi : i < frames.length) :
    mget d (spansEntered m first owner frames) (first + i) = { owner := owner, frames := frames.getD i [] } := by
  induction frames using List.reverseRecOn with
  | nil => exact absurd hi (Nat.not_lt_zero i)
  | append_singleton frames x ih =>
    rw [spansEntered_concat]
    rcases Nat.lt_succ_iff_lt_or_eq.mp (by simpa using hi) with hlt | rfl
    · rw [mget_mput_ne _ _ _ _ _ (by omega), ih hlt, List.getD_append _ _ _ _ hlt]
    · rw [mget_mput_same, List.getD_append_right _ _ _ _ (Nat.le_refl _)]
      simp

/-- A span beside those that were entered. -/
theorem mget_spansEntered_outside (d : Span) (m : Map Span) (first owner : Nat) (frames : List (List Nat)) {k : Nat}
    (hk : k < first ∨ first + frames.length ≤ k) : mget d (spansEntered m first owner frames) k = mget d m k := by
  induction frames using List.reverseRecOn with
  | nil => rfl
  | append_singleton frames x ih =>
    rw [List.length_append, List.length_singleton] at hk
    rw [spansEntered_concat, mget_mput_ne _ _ _ _ _ (by omega), ih (by omega)]

/-- Mapping enters the spans into its window's page table. -/
theorem mapSpans_spans (s : State) (w first owner : Nat) (frames : List (List Nat)) :
    (mapSpans s w first owner frames).mem.spans w = spansEntered (s.mem.spans w) first owner frames :=
  (Memory.spans_forget _ _ _ _ _).trans (Memory.spans_setSpans _ _ _)

/-- The keys that a filter on keys leaves. -/
theorem mhas_filter {α : Type} (p : Nat → Bool) (m : Map α) (k : Nat) :
    mhas (m.filter (fun e => p e.1)) k = (mhas m k && p k) := by
  induction m with
  | nil => rfl
  | cons e t ih =>
    simp only [mhas] at ih ⊢
    rw [List.filter_cons, List.any_cons]
    by_cases hk : e.1 = k
    · subst hk
      cases hp : p e.1 <;> simp [ih, hp]
    · have hbeq : (e.1 == k) = false := beq_eq_false_iff_ne.mpr hk
      cases p e.1 <;> simp [ih, hbeq]

/-- Unmapping takes the spans out of its window's page table. -/
theorem mhas_unmapSpans (s : State) (w first n k : Nat) :
    mhas ((unmapSpans s w first n).mem.spans w) k = (mhas (s.mem.spans w) k && !decide (first ≤ k ∧ k < first + n)) := by
  have hframe : ∀ {a b : State}, StackFrame a b → b.mem.spans w = a.mem.spans w := fun h => by rw [h]; rfl
  unfold unmapSpans
  rw [hframe (leaveFrames_frame _ _), Memory.spans_setSpans]
  exact mhas_filter (fun k => !decide (first ≤ k ∧ k < first + n)) _ k

/-- A commit leaves the page tables that its effects make. -/
theorem commitCmd_spans (s : State) (c : Cmd) (r : Result) (w : Nat) :
    (commitCmd s c r).mem.spans w = (applyEffects c r.effects s).mem.spans w := by
  have hend : (commitCmd s c r).mem.spans w = (commitEffects s c r).mem.spans w := by rw [(commitCmd_ended s c r).rest]; rfl
  rw [hend, commitEffects_mem]
  rfl

/-- The commit of a finished command, and the page tables after it. -/
theorem exec_commit_spans {s : State} {cid : Nat} {c : Cmd} {r : Result} (hfind : findCmd s cid = some c)
    (hstage : c.stage = .executed) (hclk : s.ctl.noMainClock = false) (hres : c.result = some r) :
    ∃ t, exec (.commandCommit cid) s = .next t ∧ findCmd t cid = none ∧
      ∀ w, t.mem.spans w = (applyEffects c r.effects s).mem.spans w := by
  have ht := capSync_counted s (commitCmd s c r)
  exact ⟨_, exec_commandCommit hfind hstage hres hclk, commitCmd_gone hfind ht, fun w => by rw [ht.mem_eq, commitCmd_spans]⟩

/-! ## The statement -/

/-- Settles O19: the outcome of each check by the order of the work's checks, and the page tables after each commit. -/
theorem allocTakesFramesFreeUnmaps : Obligations.AllocTakesFramesFreeUnmaps := by
  unfold Obligations.AllocTakesFramesFreeUnmaps
  refine ⟨?alloc, ?free, ?checked, ?waits, ?maps, ?unmaps⟩
  case alloc =>
    rintro s cid c ⟨w, first, n⟩ hd hturn hissue hr
    have hrun := allocRun_eq hr
    have hends {e : Err} (h : allocRun s c = Run.fail e) := alloc_ended hd hturn (e := e) (by rw [hissue]; exact h)
    refine ⟨fun hzero => ?_, fun ⟨i, hi, hmap⟩ => ?_, fun hne hfree => ⟨fun hquota hmore => ?_, fun hquota => ⟨?_, fun hfits => ?_⟩⟩⟩
    · rw [if_pos hzero] at hrun
      obtain ⟨t, u, hnext, rfl, hex⟩ := alloc_executed hd hturn hissue hrun rfl
      exact ⟨_, hnext, hex⟩
    · rw [if_neg (Nat.ne_of_gt (Nat.zero_lt_of_lt hi)), if_pos (anyMapped_true hi hmap)] at hrun
      exact hends hrun rfl
    all_goals rw [if_neg hne, anyMapped_false hfree, if_neg Bool.false_ne_true] at hrun
    · rw [if_pos ⟨hquota, hmore⟩] at hrun
      exact hends hrun rfl
    all_goals rw [if_neg (fun h => hquota.elim h.1 (Nat.not_le.mpr h.2))] at hrun
    · rintro x k hx rfl hshort hmost
      rw [framesShort_eq hx hmost, if_pos hshort, gib_eq] at hrun
      exact hends hrun rfl
    · rw [framesShort_zero hfits, if_neg (Nat.lt_irrefl 0)] at hrun
      obtain ⟨t, u, hnext, ht, hex⟩ := alloc_executed hd hturn hissue hrun rfl
      exact ⟨t, u, _, hnext, ht, hex, rfl⟩
  case free =>
    rintro s cid c ⟨w, first, n⟩ hd hturn hissue hr
    have hrun := freeRun_eq hr
    have hends {e : Err} (h : freeRun s c = Run.fail e) := free_ended hd hturn (e := e) (by rw [hissue]; exact h)
    refine ⟨fun hzero => ?_, fun ⟨i, hi, hfree⟩ => ?_, fun hne hmap => ⟨fun hring => ?_, fun hring => ?_⟩⟩
    · rw [if_pos hzero] at hrun
      exact free_executed hd hturn hissue hrun rfl
    · rw [if_neg (Nat.ne_of_gt (Nat.zero_lt_of_lt hi)), if_pos (allMapped_false hi hfree)] at hrun
      exact hends hrun rfl
    all_goals rw [if_neg hne, allMapped_true hmap, if_neg Bool.noConfusion] at hrun
    · rw [if_pos hring] at hrun
      exact hends hrun rfl
    · rw [if_neg (Bool.eq_false_iff.mp hring)] at hrun
      exact free_executed hd hturn hissue hrun rfl
  case checked =>
    intro s cid c e hissue hturn
    have he := allocIssue_fails hissue
    exact ⟨fun hd => alloc_ended hd hturn (by rw [hissue]; rfl) he, fun hd => free_ended hd hturn (by rw [hissue]; rfl) he⟩
  case waits =>
    exact fun s cid c hturn => ⟨fun hd => exec_alloc_waits hd hturn, fun hd => exec_free_waits hd hturn⟩
  case maps =>
    intro s cid c w first q frames hfind hstage hclk _ hres
    obtain ⟨t, hnext, hgone, hspans⟩ := exec_commit_spans hfind hstage hclk hres
    have htable := (hspans w).trans (mapSpans_spans s w first q frames)
    exact ⟨t, hnext, hgone, fun i d hi => htable ▸ mget_spansEntered_inside d _ first q frames hi,
      fun k d hk => htable ▸ mget_spansEntered_outside d _ first q frames hk⟩
  case unmaps =>
    intro s cid c w first n hfind hstage hclk _ hres
    obtain ⟨t, hnext, hgone, hspans⟩ := exec_commit_spans hfind hstage hclk hres
    exact ⟨t, hnext, hgone, fun k => hspans w ▸ mhas_unmapSpans s w first n k⟩

end Sys2Proof.Machine
end

section
/-! What containment and the failure of the job leave alone (R52, R276, R366, R393, R406-R410, R415): the count of lost SRAM
words, which only the loss of one moves, and whether the module has tripped, which only a trip moves. -/

namespace Sys2Proof.Machine

/-- `t` has the count of lost SRAM words and the trip of `s`. -/
@[simp] abbrev MarksKept (s t : State) : Prop := t.rel.rsramunc = s.rel.rsramunc ∧ t.power.tripped = s.power.tripped

/-- A step that keeps both, taken for every element of a list. -/
theorem foldl_marks {α : Type} {f : State → α → State} (hf : ∀ s a, MarksKept s (f s a)) (l : List α) (s : State) :
    MarksKept s (l.foldl f s) := by
  induction l generalizing s with
  | nil => exact ⟨rfl, rfl⟩
  | cons a t ih => exact ⟨(ih _).1.trans (hf s a).1, (ih _).2.trans (hf s a).2⟩

/-! ## The error log and the repair of frames (R240-R242, R411) -/

section
variable (s : State) (n f : Nat)

@[simp] theorem logAdd_marks (kind level die unit fl st dt cause : Nat) (info : Bytes) :
    MarksKept s (logAdd s kind level die unit fl st dt cause info) := by
  unfold logAdd
  dsimp only
  split
  · split <;> exact ⟨rfl, rfl⟩
  · exact ⟨rfl, rfl⟩

@[simp] theorem logNote_marks (kind die unit : Nat) (info : Bytes) : MarksKept s (logNote s kind die unit info) := logAdd_marks ..

@[simp] theorem setStackS_marks (v : Stack) : MarksKept s (setStackS s n v) := ⟨rfl, rfl⟩

@[simp] theorem flagStack_marks : MarksKept s (flagStack s n) := by
  unfold flagStack
  dsimp only
  split <;> simp

@[simp] theorem retireFrame_marks : MarksKept s (retireFrame s n f) := by simp [retireFrame]

@[simp] theorem markFrame_marks : MarksKept s (markFrame s n f) := by
  unfold markFrame
  dsimp only
  split
  · simp
  · split
    · split <;> simp
    · split <;> simp

@[simp] theorem markFrames_marks (l : List Nat) : MarksKept s (markFrames n l s) := by
  induction l generalizing s with
  | nil => simp [markFrames]
  | cons a t ih => simp [markFrames, ih]

@[simp] theorem spentBank_marks (bank : Nat) : MarksKept s (spentBank s n bank) := by
  unfold spentBank
  dsimp only
  split <;> simp

@[simp] theorem repairRow_marks (r : Nat × Nat) : MarksKept s (repairRow s n r) := by
  unfold repairRow
  dsimp only
  split <;> simp

@[simp] theorem repairRows_marks (l : List (Nat × Nat)) : MarksKept s (repairRows n l s) := by
  induction l generalizing s with
  | nil => simp [repairRows]
  | cons a t ih => simp [repairRows, ih]

@[simp] theorem leaveFrame_marks : MarksKept s (leaveFrame s n f) := by
  unfold leaveFrame
  dsimp only
  split <;> simp

@[simp] theorem leaveFrames_marks (l : List (Nat × Nat)) : MarksKept s (leaveFrames l s) := by
  induction l generalizing s with
  | nil => simp [leaveFrames]
  | cons a t ih => simp [leaveFrames, ih]

end

/-! ## The end of commands (R46, R52) -/

section
variable (s : State) (c : Cmd)

@[simp] theorem addTokens_marks (q n k : Nat) : MarksKept s (addTokens s q n k) := by
  unfold addTokens
  dsimp only
  split
  · simp
  · split <;> exact ⟨rfl, rfl⟩

@[simp] theorem returnTokens_marks (q : Nat) (l : List Nat) : MarksKept s (returnTokens s q l) := by
  induction l generalizing s with
  | nil => simp [returnTokens]
  | cons a t ih => simp [returnTokens, ih]

@[simp] theorem tokenAct_marks (e : Err) : MarksKept s (tokenAct s c e) := by
  unfold tokenAct poison
  split
  · simp
  · split <;> exact ⟨rfl, rfl⟩

@[simp] theorem endClaims_marks (k : Bool) : MarksKept s (endClaims s c k) := by
  unfold endClaims
  dsimp only
  split <;> simp

@[simp] theorem replyAct_marks (e : Err) (w : Nat) : MarksKept s (replyAct s c e w) := by
  unfold replyAct
  dsimp only
  split <;> exact endClaims_marks s c _

@[simp] theorem finishOne_marks (e : Err) (w : Nat) : MarksKept s (finishOne s c e w) := by simp [finishOne]

@[simp] theorem sweep_marks (n : Nat) : MarksKept s (sweep n s) := by
  induction n generalizing s with
  | zero => simp [sweep]
  | succ n ih =>
    simp only [sweep]
    split
    · simp [ih]
    · simp

@[simp] theorem settle_marks : MarksKept s (settle s) := sweep_marks s _

@[simp] theorem complete_marks (e : Err) (w : Nat) : MarksKept s (complete s c e w) := by simp [complete]

@[simp] theorem finishAll_marks (l : List (Cmd × Err)) : MarksKept s (finishAll l s) := by
  induction l generalizing s with
  | nil => simp [finishAll]
  | cons a t ih => simp [finishAll, ih]

@[simp] theorem tearAll_marks (l : List Cmd) : MarksKept s (tearAll l s) := by
  induction l generalizing s with
  | nil => simp [tearAll]
  | cons a t ih =>
    simp only [tearAll, tearMaster]
    split <;> simp [ih]

@[simp] theorem failJob_marks (stuck : Cmd → Bool) (observed : Option Nat) : MarksKept s (failJob s stuck observed) := by
  unfold failJob
  dsimp only
  split <;> simp

@[simp] theorem endReruns_marks : MarksKept s (endReruns s) := by simp [endReruns]

@[simp] theorem jobFails_marks (lost : List Nat) (observed : Option Nat) : MarksKept s (jobFails s lost observed) := by
  unfold jobFails
  split <;> simp

@[simp] theorem jobFailsAll_marks : MarksKept s (jobFailsAll s) := by simp [jobFailsAll]

@[simp] theorem stopCmd_marks : MarksKept s (stopCmd s c) := by
  unfold stopCmd
  dsimp only
  split <;> simp

@[simp] theorem stopCmds_marks (l : List Cmd) : MarksKept s (stopCmds l s) := by
  induction l generalizing s with
  | nil => simp [stopCmds]
  | cons a t ih => simp [stopCmds, ih]

@[simp] theorem killOn_marks (l : List Nat) : MarksKept s (killOn s l) := by simp [killOn]

end

/-! ## Units out of service (R255, R276, R366, R384, R408) -/

section
variable (s : State)

@[simp] theorem rerouteMsg_marks (p : Nat) (m : TxMsg) : MarksKept s (rerouteMsg p s m) := by
  unfold rerouteMsg sendTx
  split
  case h_1 t ht =>
    obtain ⟨_, -, rfl⟩ := Option.map_eq_some_iff.mp ht
    exact ⟨rfl, rfl⟩
  case h_2 =>
    split
    · split <;> simp
    · unfold lostBlock
      dsimp only
      split <;> exact ⟨rfl, rfl⟩

@[simp] theorem portLost_marks (p : Nat) : MarksKept s (portLost s p) := by
  simp [portLost, foldl_marks (fun s m => rerouteMsg_marks s p m)]

@[simp] theorem portsGone_marks (l : List Nat) : MarksKept s (portsGone l s) := by
  induction l generalizing s with
  | nil => simp [portsGone]
  | cons a t ih =>
    simp only [portsGone]
    split <;> simp [ih]

@[simp] theorem domainsOff_marks (l : List Nat) : MarksKept s (domainsOff s l) := ⟨rfl, rfl⟩

@[simp] theorem stacksSleep_marks (l : List Nat) : MarksKept s (stacksSleep s l) :=
  foldl_marks (f := fun s n => setStackS s n { s.mem.stack n with selfRefresh := true }) (fun _ _ => ⟨rfl, rfl⟩) l s

@[simp] theorem raiseKirq_marks : MarksKept s (raiseKirq s) := by
  unfold raiseKirq
  split <;> exact ⟨rfl, rfl⟩

@[simp] theorem enterSafe_marks (stage : Nat) : MarksKept s (enterSafe s stage) := by simp [enterSafe]

@[simp] theorem endOnLast_marks (d l p : Nat) : MarksKept s (endOnLast s d l p) := by simp [endOnLast]

@[simp] theorem retireMere_marks (p : Nat) : MarksKept s (retireMere s p) := by
  unfold retireMere
  dsimp only
  split
  · simp
  · split
    · exact ⟨rfl, rfl⟩
    · split
      · exact ⟨rfl, rfl⟩
      · split <;> simp

@[simp] theorem retireMeres_marks (l : List Nat) : MarksKept s (retireMeres l s) := by
  induction l generalizing s with
  | nil => simp [retireMeres]
  | cons a t ih => simp [retireMeres, ih]

@[simp] theorem markLost_marks (l : List Nat) : MarksKept s (markLost s l) :=
  foldl_marks (f := fun s d => setDie s d 2) (fun _ _ => ⟨rfl, rfl⟩) l s

@[simp] theorem takeDie_marks (d : Nat) : MarksKept s (takeDie s d) := by
  unfold takeDie
  dsimp only
  split <;> simp

/-! ## Containment (R406-R410) -/

@[simp] theorem logSite_marks (e : ErrorSite) (fl cause : Nat) : MarksKept s (logSite s e fl cause) := by
  cases e with
  | mere p src => simp [logSite]
  | cluster d c src => simp [logSite]
  | die d u a =>
    simp only [logSite]
    split
    · simp
    · split <;> simp
  | module src => simp [logSite]

@[simp] theorem handleModule_marks : MarksKept s (handleModule s) := by
  simp [handleModule, foldl_marks (fun s (c : Contained) => logSite_marks s c.site 6 0xFFFFFFFF)]

@[simp] theorem handleSite_marks (e : ErrorSite) : MarksKept s (handleSite s e) := by
  cases e with
  | mere p src => simp [handleSite]
  | cluster d c src => simp [handleSite]
  | die d u a =>
    simp only [handleSite]
    split <;> simp
  | module src => simp [handleSite]

@[simp] theorem startHandling_marks (e : ErrorSite) (seq : Nat) : MarksKept s (startHandling s e seq) := by
  simp [startHandling, countLevel]

@[simp] theorem escalateTo_marks (b : Contained) (e : ErrorSite) : MarksKept s (escalateTo s b e) := by simp [escalateTo]

@[simp] theorem bothLost_marks : MarksKept s (bothLost s) := by
  unfold bothLost
  split
  · split <;> simp
  · simp

@[simp] theorem containError_marks (e : ErrorSite) : MarksKept s (containError s e) := by
  unfold containError
  dsimp only
  split
  · simp
  · split
    · simp
    · split
      · simp
      · split
        · simp
        · split <;> simp

end

end Sys2Proof.Machine
end

section
/-! Stacks and background services (R237, R240, R393, R403, R404, R415): what a temperature report, a scrub read and a background
service leave, and the statement on them. -/

namespace Sys2Proof.Machine

/-- The update count decides nothing of the error log and the counts of reliability. -/
theorem Counted.rel_eq {u t : State} (h : Counted u t) : t.rel = u.rel := by rw [h]

/-! ## Temperature reports (R237, R393) -/

/-- A level is entered above its threshold and left 3 °C below it. -/
theorem levelOf_eq (l : Nat) (t : Int) : levelOf l t =
    max ((if 1360 < t then 1 else 0) + (if 1520 < t then 1 else 0) + (if 1680 < t then 1 else 0))
      ((if 0 < l ∧ 1312 < t then 1 else 0) + (if 1 < l ∧ 1472 < t then 1 else 0) + (if 2 < l ∧ 1632 < t then 1 else 0)) := by
  have hrange : List.range 3 = [0, 1, 2] := rfl
  simp only [levelOf, levelEnds, hrange, ← List.countP_eq_length_filter, List.countP_cons, List.countP_nil, Bool.and_eq_true,
    decide_eq_true_eq, List.getD_cons_zero, List.getD_cons_succ, Int.reduceSub, Nat.zero_add]
  ac_rfl

/-- The level in each band of temperatures: four bands fix it, in the 3 °C below a threshold the level before decides. -/
theorem levelOf_bands (l : Nat) (t : Int) :
    (105 * 16 < t → levelOf l t = 3) ∧ (95 * 16 < t → t ≤ 102 * 16 → levelOf l t = 2) ∧
    (85 * 16 < t → t ≤ 92 * 16 → levelOf l t = 1) ∧ (t ≤ 82 * 16 → levelOf l t = 0) ∧
    (102 * 16 < t → t ≤ 105 * 16 → levelOf l t = if l < 3 then 2 else 3) ∧
    (92 * 16 < t → t ≤ 95 * 16 → levelOf l t = if l < 2 then 1 else 2) ∧
    (82 * 16 < t → t ≤ 85 * 16 → levelOf l t = if l < 1 then 0 else 1) := by
  rw [levelOf_eq]
  grind

/-- The record of a stack that reports temperature `t`. -/
def Stack.heated (k : Stack) (t : Int) : Stack :=
  { k with
    temp := t, level := levelOf k.level t, throttleSeen := k.throttleSeen || decide (levelOf k.level t = 3 ∧ k.level < 3)
    tripOnce := decide (1760 ≤ t) }

theorem heated_level (k : Stack) (t : Int) : (k.heated t).level = levelOf k.level t := rfl

/-- The alarms of the temperatures once stack `n` is at level `l`. -/
def stackAlarms (alarms : List Nat) (n l : Nat) : List Nat := if l = 3 then addTo alarms (152 + n) else dropFrom alarms (152 + n)

/-- The state once a report is taken in, before any trip: the record, the entry of a stack that starts to throttle, the alarm. -/
def tempTaken (s : State) (n : Nat) (t : Int) : State :=
  let l := levelOf (s.mem.stack n).level t
  let s1 := setStackS s n ((s.mem.stack n).heated t)
  let s2 := if l = 3 ∧ (s.mem.stack n).level < 3 then logNote s1 0x14 (8 + n) n (toLe 2 (s16 t)) else s1
  { s2 with power := { s2.power with alarms := stackAlarms s2.power.alarms n l } }

/-- The second report in a row at 110 °C trips. -/
theorem stackTemp_eq (s : State) (n : Nat) (t : Int) : stackTemp s n t =
    if 1760 ≤ t ∧ (s.mem.stack n).tripOnce = true then
      tripNow (tempTaken s n t) (8 + n) (152 + n) (toLe 2 (s16 t) ++ toLe 1 0) false
    else tempTaken s n t := by
  simp only [stackTemp, Bool.and_eq_true, decide_eq_true_eq]
  rfl

/-- A note in the error log changes the log alone. -/
theorem logNote_rel (s : State) (kind die unit : Nat) (info : Bytes) :
    logNote s kind die unit info = { s with rel := (logNote s kind die unit info).rel } := by
  unfold logNote logAdd
  dsimp only
  split
  · split <;> rfl
  · rfl

section
variable (s : State) (n : Nat) (t : Int)

/-- A report touches its stack, the error log and the alarms. -/
theorem tempTaken_frame : ∃ alarms log, tempTaken s n t = { s with
    mem := s.mem.setStack n ((s.mem.stack n).heated t), power := { s.power with alarms := alarms }, rel := log } := by
  unfold tempTaken
  dsimp only
  split
  · rw [logNote_rel]
    exact ⟨_, _, rfl⟩
  · exact ⟨_, _, rfl⟩

theorem tempTaken_stack : (tempTaken s n t).mem.stack n = (s.mem.stack n).heated t := by
  obtain ⟨alarms, log, h⟩ := tempTaken_frame s n t
  rw [h]
  exact mget_mput_same _ _ _ _

end

/-- STACK_TEMP_REPORT on a stack that the module has. -/
theorem exec_stackTempReport (s : State) {n : Nat} (t : Int) (hn : n < 8) :
    exec (.stackTempReport n t) s = .next (capSync s (stackTemp s n t)) := by
  simp [exec, execStackTempReport, hn]

/-- A report that does not trip. -/
theorem exec_stackTempReport_taken {s : State} {n : Nat} {t : Int} (hn : n < 8)
    (h : t < 1760 ∨ (s.mem.stack n).tripOnce = false) :
    exec (.stackTempReport n t) s = .next (capSync s (tempTaken s n t)) := by
  have hno : ¬(1760 ≤ t ∧ (s.mem.stack n).tripOnce = true) := fun ⟨hhot, honce⟩ =>
    h.elim (Int.not_lt.mpr hhot) fun hfirst => Bool.noConfusion (hfirst.symm.trans honce)
  rw [exec_stackTempReport s t hn, stackTemp_eq, if_neg hno]

/-- The safe state and its stage code (R366). -/
theorem enterSafe_ctl (s : State) (stage : Nat) :
    (enterSafe s stage).ctl.kstate = 2 ∧ (enterSafe s stage).ctl.stage = stage := by
  unfold enterSafe raiseKirq
  dsimp only
  split <;> exact ⟨rfl, rfl⟩

/-- A trip that no sensor of K detects: the trip is held, the module is in its safe state with stage code 8 (R393). -/
theorem thermalTrip_holds (s : State) (die unit : Nat) (info : Bytes) :
    (thermalTrip s die unit info false).power.tripped = true ∧ (thermalTrip s die unit info false).ctl.kstate = 2 ∧
      (thermalTrip s die unit info false).ctl.stage = 8 := by
  simp [thermalTrip, enterSafe_ctl]

/-- A trip of a module that is up and has not tripped. -/
theorem tripNow_eq {s : State} (die unit : Nat) (info : Bytes) (onK : Bool) (hk : 94 ∈ s.power.domains)
    (htrip : s.power.tripped = false) : tripNow s die unit info onK = thermalTrip s die unit info onK := by
  simp [tripNow, hk, htrip]

/-! ## Scrub of the memory (R404) -/

/-- A frame that is not retired is the next one itself. -/
theorem nextFrame_self {k : Stack} {f : Nat} (hf : f < allFrames) (hret : f ∉ k.retired) (hvol : f ∉ k.volatileRetired) :
    nextFrame k f = f := by
  obtain ⟨m, hm⟩ : ∃ m, allFrames - f = m + 1 := ⟨allFrames - f - 1, by omega⟩
  simp [nextFrame, hm, List.range_succ_eq_map, hret, hvol]

/-- Past the last frame there is none. -/
theorem nextFrame_end (k : Stack) {f : Nat} (hf : allFrames ≤ f) : nextFrame k f = allFrames := by
  simp [nextFrame, Nat.sub_eq_zero_of_le hf]

section
variable {s : State} {n off : Nat} {ov : Bool} {last : Bool} {o : ScrubOutcome}

/-- Scrub pauses. -/
theorem exec_hbmScrubRead_pauses (hn : n < 8) (h : (s.mem.stack n).present = false ∨ (s.mem.stack n).selfRefresh = true ∨
    bit s.rel.rscrub.toNat 8 = false) : exec (.hbmScrubRead n off last o ov) s = .next s := by
  rcases h with h | h | h <;> simp [exec, execHbmScrubRead, hn, h]

section
variable (hn : n < 8) (hon : (s.mem.stack n).present = true) (hawake : (s.mem.stack n).selfRefresh = false)
  (hscrub : bit s.rel.rscrub.toNat 8 = true)
include hn hon hawake hscrub

/-- Scrub reads its sector and moves on. -/
theorem exec_hbmScrubRead : exec (.hbmScrubRead n off last o ov) s =
    .next (capSync s (scrubOn (scrubRead s n (off % 0x200000) o) n last)) := by
  simp [exec, execHbmScrubRead, hn, hon, hawake, hscrub]

end

/-- Before the last sector of a frame scrub stays in it. -/
theorem scrubOn_within (s : State) (n : Nat) : scrubOn s n false = s := rfl

/-- A clean sector leaves everything. -/
theorem scrubRead_clean (s : State) (n off : Nat) : scrubRead s n off .clean = s := rfl

/-- A scrub read counts as any other read (R238). -/
theorem scrubRead_frame (s : State) (n off : Nat) (o : ScrubOutcome) :
    StackFrame { s with mem := s.mem.counting (scrubSector o) } (scrubRead s n off o) := sectorRead_frame ..

end

/-- After the last sector of a frame comes the next frame. -/
theorem scrubOn_next {s : State} {n f : Nat} (hf : nextFrame (s.mem.stack n) ((s.mem.stack n).scrubFrame + 1) = f)
    (hlt : f < allFrames) : scrubOn s n true = setStackS s n { s.mem.stack n with scrubFrame := f } := by
  simp [scrubOn, hf, Nat.not_le.mpr hlt]

/-- After the last frame the pass is complete. -/
theorem scrubOn_pass {s : State} {n : Nat} (hf : nextFrame (s.mem.stack n) ((s.mem.stack n).scrubFrame + 1) = allFrames) :
    ((scrubOn s n true).mem.stack n).passes = (s.mem.stack n).passes + 1 ∧ ((scrubOn s n true).mem.stack n).rowErrors = [] := by
  simp only [scrubOn, hf, Nat.le_refl, if_true, stack_setStackS_same, and_self]

/-! ## Scrub of the SRAMs (R403, R415) -/

/-- A word that the scrub cannot correct counts, whatever its memory. -/
theorem countSramUnc_scrubSite (s : State) (tg : ScrubTarget) (u : State) :
    (countSramUnc u (scrubSite s tg)).rel.rsramunc = min (u.rel.rsramunc + 1) 0xFFFFFFFF := by
  cases tg with
  | longLived d => rfl
  | mere p tarn => cases tarn <;> rfl

/-- Where the scrub does not reach, it does nothing. -/
theorem sramScrub_unreached {s : State} {tg : ScrubTarget} (o : ScrubOutcome) (h : scrubReaches s tg = false) :
    sramScrub s tg o = s := by
  simp [sramScrub, h]

section
variable {s : State} {tg : ScrubTarget} (h : scrubReaches s tg = true)
include h

theorem sramScrub_clean : sramScrub s tg .clean = s := by simp [sramScrub, h]

theorem sramScrub_corrected : sramScrub s tg .corrected = { s with rel := { s.rel with rsramcor := satAdd 32 s.rel.rsramcor 1 } } := by
  simp [sramScrub, h]

/-- The containment of a lost word leaves its count. -/
theorem sramScrub_uncorrectable : (sramScrub s tg .uncorrectable).rel.rsramunc = min (s.rel.rsramunc + 1) 0xFFFFFFFF := by
  simp only [sramScrub, h, if_true]
  rw [(containError_marks _ _).1, countSramUnc_scrubSite]
  rfl

end

/-- SRAM_SCRUB of a target that the module has. -/
theorem exec_sramScrub (s : State) {tg : ScrubTarget} (o : ScrubOutcome) (h : targetOk tg = true) :
    exec (.sramScrub tg o) s = .next (capSync s (sramScrub s tg o)) := by
  simp [exec, execSramScrub, h]

/-- The capability record tells nothing of the counts of reliability. -/
theorem capSync_rel (s : State) (r : Reliab) : capSync s { s with rel := r } = { s with rel := r } := if_pos ⟨rfl, rfl⟩

/-! ## Ageing (R403, R415) -/

/-- The least of a list's values under `f`, found by a fold. -/
theorem foldl_least_le (f : Nat → Nat) (l : List Nat) (b : Nat) :
    (∀ x ∈ l, f (l.foldl (fun b c => if f c < f b then c else b) b) ≤ f x) ∧
      f (l.foldl (fun b c => if f c < f b then c else b) b) ≤ f b := by
  induction l generalizing b with
  | nil => simp
  | cons a t ih =>
    obtain ⟨hmem, hle⟩ := ih (if f a < f b then a else b)
    have hab : f (if f a < f b then a else b) ≤ f a ∧ f (if f a < f b then a else b) ≤ f b := by
      split_ifs <;> omega
    refine ⟨fun x hx => ?_, hle.trans hab.2⟩
    rcases List.mem_cons.mp hx with rfl | hx
    · exact hle.trans hab.1
    · exact hmem x hx

/-- RAGE tells of no more headroom than any cluster has. -/
theorem rageWord_le (s : State) {x : Nat} (hx : x < 68) : (rageWord s).toNat % 2 ^ 16 ≤ headroom (getCluster s x) := by
  have hleast := (foldl_least_le (fun c => headroom (getCluster s c)) (List.range 68) 0).1 x (List.mem_range.mpr hx)
  refine Nat.le_trans ?_ hleast
  simp only [rageWord, BitVec.toNat_ofNat]
  omega

/-- A cluster once its rail offset has risen by `drift` millivolts. -/
def Cluster.aged (v : Cluster) (drift : Nat) : Cluster :=
  { v with railOffset := min 250 (v.railOffset + drift), railMv := min 900 (max v.railMv (650 + min 250 (v.railOffset + drift))) }

/-- The state with RAGE set. -/
def withRage (s : State) (w : Word) : State := { s with rel := { s.rel with rage := w } }

@[simp] theorem withRage_rage (s : State) (w : Word) : (withRage s w).rel.rage = w := rfl

@[simp] theorem getCluster_withRage (s : State) (w : Word) (x : Nat) : getCluster (withRage s w) x = getCluster s x := rfl

/-- AGEING_MEASUREMENT of a cluster that is on: the cluster has aged, and RAGE tells of all of them. -/
theorem exec_ageingMeasurement {s : State} {c : Nat} (drift : Nat) (hc : c < 68) (hon : clusterOn s c = true) :
    exec (.ageingMeasurement c drift) s = .next (withRage (setCluster s c ((getCluster s c).aged drift))
      (rageWord (setCluster s c ((getCluster s c).aged drift)))) := by
  simp only [exec, execAgeingMeasurement, hc, hon, decide_true, onUnit_true, if_true]
  rfl

/-- Of one that is off. -/
theorem exec_ageingMeasurement_off {s : State} {c : Nat} (drift : Nat) (hc : c < 68) (hoff : clusterOn s c = false) :
    exec (.ageingMeasurement c drift) s = .next s := by
  simp [exec, execAgeingMeasurement, hc, hoff]

/-! ## The statement -/

/-- Settles O45: each report, read and service by its rule above. -/
theorem stacksAndServicesReport : Obligations.StacksAndServicesReport := by
  unfold Obligations.StacksAndServicesReport
  refine ⟨?levels, ?trips, ?pauses, ?scrubs, ?sram, ?sensor, ?ageing⟩
  case levels =>
    rintro s n x k hn rfl hcool
    obtain ⟨alarms, log, htaken⟩ := tempTaken_frame s n x
    have ht := capSync_counted s (tempTaken s n x)
    have hstack : (capSync s (tempTaken s n x)).mem.stack n = (s.mem.stack n).heated x := by
      rw [ht.mem_eq, tempTaken_stack]
    refine ⟨_, exec_stackTempReport_taken hn (.inl hcool), ?_⟩
    rw [hstack, heated_level]
    obtain ⟨h3, h2, h1, h0, h32, h21, h10⟩ := levelOf_bands (s.mem.stack n).level x
    exact ⟨rfl, by rw [ht, htaken], h3, h2, h1, h0, h32, h21, h10, by rw [ht, htaken]⟩
  case trips =>
    intro s n x hn hhot
    obtain ⟨alarms, log, htaken⟩ := tempTaken_frame s n x
    refine ⟨fun hfirst => ?_, fun honce hk htrip => ?_⟩
    · have ht := capSync_counted s (tempTaken s n x)
      refine ⟨_, exec_stackTempReport_taken hn (.inr hfirst), by rw [ht, htaken], ?_⟩
      rw [ht.mem_eq, tempTaken_stack]
      exact decide_eq_true hhot
    · have hheld := thermalTrip_holds (tempTaken s n x) (8 + n) (152 + n) (toLe 2 (s16 x) ++ toLe 1 0)
      rw [← tripNow_eq _ _ _ _ (by rw [htaken]; exact hk) (by rw [htaken]; exact htrip)] at hheld
      refine ⟨_, exec_stackTempReport s x hn, ?_⟩
      rw [stackTemp_eq, if_pos ⟨hhot, honce⟩, capSync_counted]
      exact hheld
  case pauses =>
    exact fun s n off last ov o hn h => exec_hbmScrubRead_pauses hn h
  case scrubs =>
    rintro s n off ov k hn rfl hon hawake hscrub
    have hexec (last : Bool) (o : ScrubOutcome) := exec_hbmScrubRead (off := off) (ov := ov) (last := last) (o := o) hn hon hawake hscrub
    have hframe (o : ScrubOutcome) := scrubRead_frame s n (off % 0x200000) o
    have hcounted (o : ScrubOutcome) := capSync_counted s (scrubRead s n (off % 0x200000) o)
    refine ⟨?_, ⟨_, hexec false .corrected, ?_, fun x => ?_⟩, ⟨_, hexec false .uncorrectable, ?_, ?_⟩, fun hlt hret hvol => ?_,
      fun hlast => ?_⟩
    · rw [hexec, scrubOn_within, scrubRead_clean, capSync_self]
    · rw [scrubOn_within, (hcounted _).mem_eq, hframe]
      rfl
    · rw [scrubOn_within, (hcounted _).mem_eq, (hframe _).read_eq, Memory.read_counting]
    · rw [scrubOn_within, (hcounted _).mem_eq, hframe]
      rfl
    · rw [scrubOn_within, (hcounted _).cmds_eq, (hframe _).cmds_eq]
    · refine ⟨_, hexec true .clean, ?_⟩
      have hnext := nextFrame_self (show (s.mem.stack n).scrubFrame + 1 < allFrames by unfold allFrames; omega) hret hvol
      rw [scrubRead_clean, (capSync_counted s _).mem_eq, scrubOn_next hnext (by unfold allFrames; omega), stack_setStackS_same]
      exact ⟨rfl, rfl⟩
    · refine ⟨_, hexec true .clean, ?_⟩
      rw [scrubRead_clean, (capSync_counted s _).mem_eq]
      exact scrubOn_pass (nextFrame_end _ (by unfold allFrames; omega))
  case sram =>
    intro s tg htg
    have hexec (o : ScrubOutcome) := exec_sramScrub s o htg
    refine ⟨fun h => ⟨?_, ?_, _, hexec .uncorrectable, ?_⟩, fun h o => ?_⟩
    · rw [hexec, sramScrub_corrected h, capSync_rel]
      rfl
    · rw [hexec, sramScrub_clean h, capSync_self]
    · rw [(capSync_counted s _).rel_eq, sramScrub_uncorrectable h]
    · rw [hexec, sramScrub_unreached o h, capSync_self]
  case sensor =>
    intro s n x hn
    simp [exec, execSensorCalibration, hn]
  case ageing =>
    rintro s c drift v hc rfl
    refine ⟨by simp [exec, execMonitorRecalibration, hc], rfl, fun hon => ?_, exec_ageingMeasurement_off drift hc⟩
    refine ⟨_, exec_ageingMeasurement drift hc hon, ?_, fun x hx => ?_, fun x hx => ?_⟩ <;> rw [getCluster_withRage]
    · rw [getCluster_setCluster_same]
      rfl
    · rw [getCluster_setCluster_ne _ _ _ _ hx]
    · rw [withRage_rage]
      exact rageWord_le _ hx

end Sys2Proof.Machine
end

section
/-! What containment leaves of the dies (R254, R259, R406-R410): the end of commands, the failure of the job, the retirement of
Meres and the safe state leave the die register block alone; the loss of a die changes its states and adds to DSEEN, and no
bundle. -/

namespace Sys2Proof.Machine

theorem StackFrame.dies_eq {s t : State} (h : StackFrame s t) : t.dies = s.dies := by rw [h]

theorem EndFrame.dies_eq {s t : State} (h : EndFrame s t) : t.dies = s.dies := by rw [h.2]

theorem Counted.dies_eq {u t : State} (h : Counted u t) : t.dies = u.dies := by rw [h]

@[simp] theorem capSync_dies (s u : State) : (capSync s u).dies = u.dies := (capSync_counted s u).dies_eq

/-- Steps that leave the dies, taken for every element of a list. -/
theorem foldl_dies {α : Type} {f : State → α → State} (hf : ∀ s a, (f s a).dies = s.dies) (l : List α) (s : State) :
    (l.foldl f s).dies = s.dies := by
  induction l generalizing s with
  | nil => rfl
  | cons a t ih => exact (ih _).trans (hf s a)

/-! ## The end of commands (R46, R50, R52) -/

section
variable (s : State) (c : Cmd)

@[simp] theorem logAdd_dies (kind level die unit fl st dt cause : Nat) (info : Bytes) :
    (logAdd s kind level die unit fl st dt cause info).dies = s.dies := by
  unfold logAdd
  dsimp only
  split
  · split <;> rfl
  · rfl

@[simp] theorem logNote_dies (kind die unit : Nat) (info : Bytes) : (logNote s kind die unit info).dies = s.dies := logAdd_dies ..

@[simp] theorem finishOne_dies (e : Err) (w : Nat) : (finishOne s c e w).dies = s.dies := (finishOne_frame s c e w).dies_eq

@[simp] theorem settle_dies : (settle s).dies = s.dies := (sweep_frame _ s).dies_eq

@[simp] theorem finishAll_dies (l : List (Cmd × Err)) : (finishAll l s).dies = s.dies := by
  induction l generalizing s with
  | nil => rfl
  | cons a t ih => simp [finishAll, ih]

@[simp] theorem tearAll_dies (l : List Cmd) : (tearAll l s).dies = s.dies := by
  induction l generalizing s with
  | nil => rfl
  | cons a t ih =>
    simp only [tearAll, tearMaster, ih]
    split <;> rfl

@[simp] theorem failJob_dies (stuck : Cmd → Bool) (observed : Option Nat) : (failJob s stuck observed).dies = s.dies := by
  unfold failJob
  dsimp only
  split <;> simp

@[simp] theorem jobFails_dies (lost : List Nat) (observed : Option Nat) : (jobFails s lost observed).dies = s.dies := by
  unfold jobFails
  split <;> simp [endReruns]

@[simp] theorem jobFailsAll_dies : (jobFailsAll s).dies = s.dies := by simp [jobFailsAll]

@[simp] theorem returnTokens_dies (q : Nat) (l : List Nat) : (returnTokens s q l).dies = s.dies := by
  induction l generalizing s with
  | nil => rfl
  | cons n t ih => exact (ih _).trans (addTokens_frame s q n 1).dies_eq

@[simp] theorem endClaims_dies (kept : Bool) : (endClaims s c kept).dies = s.dies := (endClaims_less s c kept).dies_eq

@[simp] theorem stopCmd_dies : (stopCmd s c).dies = s.dies := by
  unfold stopCmd
  dsimp only
  split <;> simp

@[simp] theorem stopCmds_dies (l : List Cmd) : (stopCmds l s).dies = s.dies := by
  induction l generalizing s with
  | nil => rfl
  | cons a t ih => simp [stopCmds, ih]

@[simp] theorem killOn_dies (l : List Nat) : (killOn s l).dies = s.dies := by simp [killOn]

end

/-! ## Units out of service (R255, R276, R366, R384, R408) -/

section
variable (s : State)

@[simp] theorem rerouteMsg_dies (p : Nat) (m : TxMsg) : (rerouteMsg p s m).dies = s.dies := by
  unfold rerouteMsg sendTx
  split
  case h_1 t ht =>
    obtain ⟨_, -, rfl⟩ := Option.map_eq_some_iff.mp ht
    rfl
  case h_2 =>
    split
    · split
      · simp [complete]
      · rfl
    · unfold lostBlock
      dsimp only
      split <;> rfl

@[simp] theorem portLost_dies (p : Nat) : (portLost s p).dies = s.dies :=
  (foldl_dies (fun s m => rerouteMsg_dies s p m) _ _).trans (setPort_dies _ _ _)

@[simp] theorem portsGone_dies (l : List Nat) : (portsGone l s).dies = s.dies := by
  induction l generalizing s with
  | nil => rfl
  | cons a t ih =>
    simp only [portsGone, ih]
    split <;> simp

@[simp] theorem domainsOff_dies (l : List Nat) : (domainsOff s l).dies = s.dies := rfl

@[simp] theorem stacksSleep_dies (l : List Nat) : (stacksSleep s l).dies = s.dies :=
  foldl_dies (f := fun s n => setStackS s n { s.mem.stack n with selfRefresh := true }) (fun _ _ => rfl) l s

@[simp] theorem raiseKirq_dies : (raiseKirq s).dies = s.dies := by
  unfold raiseKirq
  split <;> rfl

@[simp] theorem enterSafe_dies (stage : Nat) : (enterSafe s stage).dies = s.dies := by simp [enterSafe]

@[simp] theorem retireMere_dies (p : Nat) : (retireMere s p).dies = s.dies := by
  unfold retireMere
  dsimp only
  split
  · rfl
  · split
    · rfl
    · split
      · rfl
      · split <;> simp [endOnLast]

@[simp] theorem retireMeres_dies (l : List Nat) : (retireMeres l s).dies = s.dies := by
  induction l generalizing s with
  | nil => rfl
  | cons a t ih => simp [retireMeres, ih]

@[simp] theorem logSite_dies (e : ErrorSite) (fl cause : Nat) : (logSite s e fl cause).dies = s.dies := by
  cases e with
  | mere p src => simp [logSite]
  | cluster d c src => simp [logSite]
  | die d u a =>
    simp only [logSite]
    split
    · simp
    · split <;> simp
  | module src => simp [logSite]

@[simp] theorem handleModule_dies : (handleModule s).dies = s.dies := by
  simp [handleModule, foldl_dies (fun s (c : Contained) => logSite_dies s c.site 6 0xFFFFFFFF)]

end

/-! ## The loss of dies and containment (R254, R259, R406-R410) -/

/-- A flag of DSEEN. -/
def dieSeen (s : State) (n : Nat) : Bool := bit s.dies.dseen.toNat n

/-- Every bundle of `s` is in `t` as it was, and every flag of DSEEN that is set in `s` is set in `t`. -/
structure BundlesKept (s t : State) : Prop where
  bundles : t.dies.bundles = s.dies.bundles
  seen : ∀ n, dieSeen s n = true → dieSeen t n = true

theorem BundlesKept.of_dies {s t : State} (h : t.dies = s.dies) : BundlesKept s t :=
  ⟨by rw [h], fun n hn => by rw [dieSeen, h]; exact hn⟩

theorem BundlesKept.trans {a b c : State} (h : BundlesKept a b) (g : BundlesKept b c) : BundlesKept a c :=
  ⟨g.bundles.trans h.bundles, fun n hn => g.seen n (h.seen n hn)⟩

theorem BundlesKept.getBundle_eq {s t : State} (h : BundlesKept s t) (b : Nat) : getBundle t b = getBundle s b := by
  rw [getBundle, h.bundles]
  rfl

/-- Flags set in DSEEN beside those that stand there. -/
theorem bit_or (x y : Word) (n : Nat) : bit (x ||| y).toNat n = (bit x.toNat n || bit y.toNat n) := by
  have hbit (v : Nat) : bit v n = v.testBit n := by
    rw [Nat.testBit_eq_decide_div_mod_eq]
    rfl
  rw [hbit, hbit, hbit, BitVec.toNat_or, Nat.testBit_or]

theorem bit_or_left {x : Word} {n : Nat} (y : Word) (h : bit x.toNat n = true) : bit (x ||| y).toNat n = true := by
  rw [bit_or, h, Bool.true_or]

section
variable (s : State)

theorem setDie_keeps (d v : Nat) : BundlesKept s (setDie s d v) := ⟨rfl, fun _ h => h⟩

theorem markLost_keeps (l : List Nat) : BundlesKept s (markLost s l) := by
  have hfold (l : List Nat) (s : State) : BundlesKept s (l.foldl (fun s d => setDie s d 2) s) := by
    induction l generalizing s with
    | nil => exact .of_dies rfl
    | cons d t ih => exact (setDie_keeps s d 2).trans (ih _)
  exact (hfold l s).trans ⟨rfl, fun n hn => bit_or_left _ hn⟩

theorem takeDie_keeps (d : Nat) : BundlesKept s (takeDie s d) := by
  refine (markLost_keeps s (d :: linkOf d)).trans (.of_dies ?_)
  unfold takeDie
  dsimp only
  split <;> simp

theorem handleSite_keeps (e : ErrorSite) : BundlesKept s (handleSite s e) := by
  cases e with
  | mere p src => exact .of_dies (by simp [handleSite])
  | cluster d c src => exact .of_dies (by simp [handleSite])
  | die d u a =>
    unfold handleSite
    dsimp only
    split
    · exact .of_dies (handleModule_dies s)
    · exact takeDie_keeps s d
  | module src => exact .of_dies (handleModule_dies s)

theorem startHandling_keeps (e : ErrorSite) (seq : Nat) : BundlesKept s (startHandling s e seq) := by
  refine BundlesKept.trans ?_ (handleSite_keeps _ e)
  exact .of_dies rfl

theorem escalateTo_keeps (b : Contained) (e : ErrorSite) : BundlesKept s (escalateTo s b e) := by
  unfold escalateTo
  exact .trans (.of_dies (by rw [logSite_dies])) (startHandling_keeps _ e _)

theorem bothLost_keeps : BundlesKept s (bothLost s) := by
  unfold bothLost
  split
  · split
    · exact escalateTo_keeps s _ _
    · exact .of_dies rfl
  · exact .of_dies rfl

/-- A contained error changes no bundle and clears no flag of DSEEN. -/
theorem containError_keeps (e : ErrorSite) : BundlesKept s (containError s e) := by
  unfold containError
  dsimp only
  split
  · exact .of_dies rfl
  · split
    · exact .trans (.of_dies (logSite_dies s e 0 _)) (.trans (startHandling_keeps _ e _) (bothLost_keeps _))
    · split
      · exact .of_dies (logSite_dies s e 0 _)
      · split
        · exact .trans (escalateTo_keeps s _ _) (bothLost_keeps _)
        · split
          · exact .of_dies (logSite_dies s e 2 _)
          · exact .trans (.of_dies (by simp)) (startHandling_keeps _ _ _)

end

end Sys2Proof.Machine
end

section
/-! Bundles (R244-R247, R253, R254): a failed flit, the retirement of a position, a bundle that goes down, liveness. -/

namespace Sys2Proof.Machine

/-! ## A bundle goes down (R253, R254) -/

/-- The record of a bundle that is down. -/
def Bundle.down (v : Bundle) : Bundle := { v with state := 0, inUse := [] }

section
variable {s : State} {b : Nat}

/-- The state once bundle `b` is down and DSEEN tells of it, before any die behind it is lost. -/
def bundleLost (s : State) (b : Nat) : State :=
  let s1 := setBundle s b (getBundle s b).down
  { s1 with dies := { s1.dies with dseen := s1.dies.dseen ||| BitVec.ofNat 32 (2 ^ (8 + b)) } }

/-- What the loss of a die does after it touches no bundle. -/
theorem bundleDown_keeps (hc : (getBundle s b).carries = true) : BundlesKept (bundleLost s b) (bundleDown s b) := by
  simp only [bundleDown, hc, Bool.not_true, Bool.false_eq_true, if_false]
  split
  · split
    · exact .trans (containError_keeps _ _) (markLost_keeps _ _)
    · exact containError_keeps _ _
  · exact .of_dies rfl

/-- A bundle that carried flits is down, with no lane in use. -/
theorem getBundle_bundleDown (hc : (getBundle s b).carries = true) :
    getBundle (bundleDown s b) b = (getBundle s b).down :=
  ((bundleDown_keeps hc).getBundle_eq b).trans (getBundle_setBundle_same s b _)

/-- DSEEN tells that it went down. -/
theorem dieSeen_bundleDown (hb : b < 7) (hc : (getBundle s b).carries = true) : dieSeen (bundleDown s b) (8 + b) = true := by
  have hflag : bit (BitVec.ofNat 32 (2 ^ (8 + b))).toNat (8 + b) = true := by
    interval_cases b <;> rfl
  refine (bundleDown_keeps hc).seen _ ?_
  rw [dieSeen, bundleLost, bit_or, hflag, Bool.or_true]

end

/-! ## A position retired in service (R246) -/

@[simp] theorem mem_addTo (l : List Nat) (n : Nat) : n ∈ addTo l n := by
  unfold addTo
  split
  · rename_i h
    simpa using h
  · simp

/-- The record of a bundle whose position `p` is excluded, its blame forgotten. -/
def Bundle.retired (v : Bundle) (p : Nat) : Bundle := ({ v with blame := mdel v.blame p } : Bundle).exclude p

theorem Bundle.mem_cycle_retired (v : Bundle) (p : Nat) : p ∈ (v.retired p).cycle := mem_addTo v.cycle p

/-- As many good positions as the width needs. -/
def Bundle.enough (v : Bundle) : Prop := (v.state = 1 ∧ 64 ≤ v.good.length) ∨ (v.state = 2 ∧ 32 ≤ v.good.length)

theorem Bundle.not_enough_of_wide {v : Bundle} (hwide : v.state = 1) (hfew : v.good.length < 64) : ¬ v.enough := by
  rintro (⟨-, hmany⟩ | ⟨hnarrow, -⟩)
  · omega
  · omega

/-- The record with a free position in the place of `p`. -/
def Bundle.swapped (v : Bundle) (p : Nat) : Bundle :=
  { v with inUse := v.inUse.map (fun x => if x = p then (v.good.filter (fun x => !v.inUse.contains x)).headD x else x) }

/-- The record at half width. -/
def Bundle.narrowed (v : Bundle) : Bundle := { v with inUse := v.good.take 32, state := 2, halved := true }

section
variable {s : State} {b p : Nat} {w : Bundle} (hw : (getBundle s b).retired p = w)
include hw

/-- With enough good positions a free one replaces it. -/
theorem retirePosition_swaps (h : w.enough) : getBundle (retirePosition s b p) b = w.swapped p := by
  subst hw
  exact (congrArg (getBundle · b) (if_pos h)).trans (getBundle_setBundle_same s b _)

/-- With too few for its width, and 32 at least, the bundle goes to half width. -/
theorem retirePosition_narrows (h : ¬ w.enough) (hhalf : 32 ≤ w.good.length) :
    getBundle (retirePosition s b p) b = w.narrowed := by
  subst hw
  refine (congrArg (getBundle · b) ((if_neg h).trans (if_pos hhalf))).trans ?_
  simp only [getBundle, logNote_dies]
  exact getBundle_setBundle_same s b _

/-- With fewer than 32 the bundle goes down. -/
theorem retirePosition_down (hc : (getBundle s b).carries = true) (hfew : w.good.length < 32) :
    getBundle (retirePosition s b p) b = w.down := by
  subst hw
  have hset := getBundle_setBundle_same s b ((getBundle s b).retired p)
  have h : ¬ ((getBundle s b).retired p).enough := by
    unfold Bundle.enough
    omega
  refine (congrArg (getBundle · b) ((if_neg h).trans (if_neg (Nat.not_le_of_lt hfew)))).trans ?_
  exact (getBundle_bundleDown (hset ▸ hc)).trans (congrArg Bundle.down hset)

/-- In each case the position is excluded for the power cycle. -/
theorem mem_cycle_retirePosition (hc : (getBundle s b).carries = true) : p ∈ (getBundle (retirePosition s b p) b).cycle := by
  have hmem : p ∈ w.cycle := hw ▸ (getBundle s b).mem_cycle_retired p
  by_cases henough : w.enough
  · rw [retirePosition_swaps hw henough]
    exact hmem
  · by_cases hhalf : 32 ≤ w.good.length
    · rw [retirePosition_narrows hw henough hhalf]
      exact hmem
    · rw [retirePosition_down hw hc (by omega)]
      exact hmem

end

/-! ## A flit that fails (R245, R246) -/

/-- The record of a bundle once a failed flit is counted and its lane blamed. -/
def Bundle.blamed (w : Bundle) (lane : Nat) : Bundle :=
  { w with
    replays := satAdd 32 w.replays 1
    blame := mput w.blame (w.inUse.getD lane 68) (mget 0 w.blame (w.inUse.getD lane 68) + 1) }

/-- The record of a bundle trained again after its eighth failure in a row. -/
def Bundle.retrained (w : Bundle) : Bundle := { w with inRow := 0, failSeq := none, idleNear := 0, idleFar := 0 }

/-- The state once the flit is sent again. -/
def resent (s : State) (b seq : Nat) (w : Bundle) : State := emit (setBundle s b w) (.resend b (seq % 256))

@[simp] theorem getBundle_resent (s : State) (b seq : Nat) (w : Bundle) : getBundle (resent s b seq w) b = w :=
  getBundle_setBundle_same s b w

/-- The first failure of a flit while no other has failed. -/
theorem Bundle.fails_first {v : Bundle} (far : Bool) (n : Nat) (h : v.failSeq = none) :
    v.fails far n = { v with failSeq := some (far, n), inRow := 1 } := by
  simp [Bundle.fails, h]

/-- One more failure of the same flit. -/
theorem Bundle.fails_again {v : Bundle} {far : Bool} {n : Nat} (h : v.failSeq = some (far, n)) :
    v.fails far n = { v with inRow := v.inRow + 1 } := by
  simp [Bundle.fails, h]

section
variable {s : State} {b lane seq : Nat} {far : Bool} {w : Bundle} (ok : Bool)

/-- On a bundle that is down nothing happens. -/
theorem flitFails_down (hc : (getBundle s b).carries = false) : flitFails s b lane far seq ok = s := by
  have h : ((getBundle s b).fails far (seq % 256)).carries = false := by
    rw [← hc]
    unfold Bundle.fails Bundle.heard
    split
    · rfl
    · split
      · split <;> rfl
      · rfl
  simp [flitFails, h]

section
variable (hw : (getBundle s b).fails far (seq % 256) = w) (hc : w.carries = true)
include hw hc

/-- Below eight failures in a row and eight blames it is sent again. -/
theorem flitFails_replays (hrow : w.inRow < 8) (hblame : mget 0 w.blame (w.inUse.getD lane 68) < 7) :
    flitFails s b lane far seq ok = resent s b seq (w.blamed lane) := by
  have hn : ¬ 8 ≤ mget 0 w.blame (w.inUse.getD lane 68) + 1 := by omega
  simp only [flitFails, hw, hc, Nat.not_le_of_lt hrow, hn, Bool.not_true, Bool.false_eq_true, if_false, false_and]
  rfl

/-- The eighth failure in a row retrains the bundle. -/
theorem flitFails_retrains (hrow : w.inRow = 8) (hblame : mget 0 w.blame (w.inUse.getD lane 68) < 7) :
    flitFails s b lane far seq true = resent s b seq (w.blamed lane).retrained := by
  have hn : ¬ 8 ≤ mget 0 w.blame (w.inUse.getD lane 68) + 1 := by omega
  simp only [flitFails, hw, hc, hrow, hn, Bool.not_true, Bool.false_eq_true, if_false, if_true, false_and, Nat.le_refl, and_false]
  rfl

/-- Where the training fails it takes the bundle down. -/
theorem flitFails_ends (hb : b < 7) (hrow : w.inRow = 8) (hblame : mget 0 w.blame (w.inUse.getD lane 68) < 7) :
    getBundle (flitFails s b lane far seq false) b = (w.blamed lane).retrained.down ∧
      dieSeen (flitFails s b lane far seq false) (8 + b) = true := by
  have hn : ¬ 8 ≤ mget 0 w.blame (w.inUse.getD lane 68) + 1 := by omega
  have hdown : flitFails s b lane far seq false = bundleDown (resent s b seq (w.blamed lane).retrained) b := by
    simp only [flitFails, hw, hc, hrow, hn, Bool.not_true, Bool.not_false, Bool.false_eq_true, if_false, if_true, false_and,
      Nat.le_refl, and_true]
    rfl
  have hset := getBundle_resent s b seq (w.blamed lane).retrained
  have hcarries : (getBundle (resent s b seq (w.blamed lane).retrained) b).carries = true := by
    rw [hset]
    exact hc
  rw [hdown]
  exact ⟨(getBundle_bundleDown hcarries).trans (congrArg Bundle.down hset), dieSeen_bundleDown hb hcarries⟩

/-- The eighth blame of a window retires the position. -/
theorem flitFails_retires (hrow : w.inRow < 8) (hblame : mget 0 w.blame (w.inUse.getD lane 68) = 7)
    (hp : w.inUse.getD lane 68 < 68) :
    ∃ u, flitFails s b lane far seq ok = retirePosition u b (w.inUse.getD lane 68) ∧ getBundle u b = w.blamed lane := by
  have hset := getBundle_resent s b seq (w.blamed lane)
  have hcarries : (getBundle (resent s b seq (w.blamed lane)) b).carries = true := by
    rw [hset]
    exact hc
  have hn : 8 ≤ mget 0 w.blame (w.inUse.getD lane 68) + 1 := by omega
  refine ⟨_, ?_, hset⟩
  simp only [flitFails, hw, hc, hn, hp, Nat.not_le_of_lt hrow, Bool.not_true, Bool.false_eq_true, if_false, false_and, true_and]
  exact if_pos hcarries

end
end

/-! ## The rows -/

section
variable {s : State} {b : Nat} (hb : b < 7)
include hb

/-- BUNDLE_FLIT_CRC_FAIL. -/
theorem exec_bundleFlitCrcFail (flit : BundleFlit) (ok : Bool) : exec (.bundleFlitCrcFail b flit ok) s =
    .next (capSync s (flitFails s b flit.lane flit.farEnd flit.seq ok)) := by
  simp [exec, execBundleFlitCrcFail, hb]

/-- BUNDLE_LIVENESS_SEND on a bundle that carries flits. -/
theorem exec_bundleLivenessSend (far : Bool) (hc : (getBundle s b).carries = true) : exec (.bundleLivenessSend b far) s =
    .next (emit (setBundle s b (if dieState s (senderOf b far) = 2 then getBundle s b else (getBundle s b).heard far))
      (.bundleFlit b)) := by
  simp [exec, execBundleLivenessSend, hb, hc]

/-- On one that is down. -/
theorem exec_bundleLivenessSend_down (far : Bool) (hc : (getBundle s b).carries = false) :
    exec (.bundleLivenessSend b far) s = .next s := by
  simp [exec, execBundleLivenessSend, hb, hc]

/-- BUNDLE_LIVENESS_TIMEOUT where a count has run out. -/
theorem exec_bundleLivenessTimeout (h : (getBundle s b).idleNear = 65536 ∨ (getBundle s b).idleFar = 65536) :
    exec (.bundleLivenessTimeout b) s = .next (capSync s (bundleDown s b)) := by
  simp [exec, execBundleLivenessTimeout, hb, h]

end

/-! ## The statement -/

/-- Settles O46: each row by its rule above, on the record that the failures before it leave. -/
theorem bundlesReplayBlameAndGoDown : Obligations.BundlesReplayBlameAndGoDown := by
  unfold Obligations.BundlesReplayBlameAndGoDown
  rintro s b lane seq p far ok v hb - rfl rfl
  have hexec := exec_bundleFlitCrcFail (s := s) hb ⟨lane, far, seq⟩ ok
  have hsync (u : State) : getBundle (capSync s u) b = getBundle u b := by simp [getBundle]
  have hseen {u : State} (h : dieSeen u (8 + b) = true) : bit (capSync s u).dies.dseen.toNat (8 + b) = true := by
    rw [capSync_dies]
    exact h
  refine ⟨?down, ?first, ?again, ?eighth, ?retired, ?window, ?alive, ?lost, ?silent, ?early⟩
  case down =>
    intro hc
    refine ⟨?_, exec_bundleLivenessSend_down hb far hc⟩
    rw [hexec, flitFails_down ok hc]
    exact congrArg _ (if_pos ⟨rfl, rfl⟩)
  case first =>
    intro hc hnone hblame
    refine ⟨_, hexec, ?_⟩
    rw [flitFails_replays ok (Bundle.fails_first far _ hnone) hc (by decide : 1 < 8) hblame]
    exact capSync_counted s _
  case again =>
    intro hc hsame hrow hblame
    refine ⟨_, hexec, ?_⟩
    rw [flitFails_replays ok (Bundle.fails_again hsame) hc (Nat.succ_lt_succ hrow) hblame]
    exact capSync_counted s _
  case eighth =>
    intro hc hsame hrow hblame
    have hagain := Bundle.fails_again hsame
    have hrows := congrArg (· + 1) hrow
    refine ⟨_, hexec, ?_, ?_⟩
    · rintro rfl
      rw [flitFails_retrains hagain hc hrows hblame, hsync, getBundle_resent]
      exact ⟨rfl, rfl, rfl⟩
    · rintro rfl
      obtain ⟨hbundle, hflag⟩ := flitFails_ends hagain hc hb hrows hblame
      rw [hsync, hbundle]
      exact ⟨rfl, rfl, hseen hflag⟩
  case retired =>
    intro hc hp hnone hblame
    obtain ⟨u, hflit, hu⟩ := flitFails_retires ok (Bundle.fails_first far (seq % 256) hnone) hc (by decide : 1 < 8) hblame hp
    have hretired := congrArg (Bundle.retired · ((getBundle s b).inUse.getD lane 68)) hu
    have hcarries : (getBundle u b).carries = true := by
      rw [hu]
      exact hc
    refine ⟨_, hexec, ?_⟩
    rw [hflit, hsync]
    refine ⟨mem_cycle_retirePosition hretired hcarries, fun hwide hmany => ?_, fun hwide hfew => ?_, fun hfew => ?_⟩
    · rw [retirePosition_swaps hretired (.inl ⟨hwide, hmany⟩)]
      exact ⟨hwide, List.length_map _⟩
    · have hhalf := hfew.ge.trans' (by decide : 32 ≤ 63)
      rw [retirePosition_narrows hretired (Bundle.not_enough_of_wide hwide (hfew.trans_lt (by decide : 63 < 64))) hhalf]
      exact ⟨rfl, List.length_take_of_le hhalf⟩
    · rw [retirePosition_down hretired hcarries hfew]
      rfl
  case window => simp [exec, execBundleWindowEnd, hb]
  case alive =>
    intro hc hup
    rw [exec_bundleLivenessSend hb far hc, if_neg hup]
    rfl
  case lost =>
    intro hc hlost
    rw [exec_bundleLivenessSend hb far hc, if_pos hlost]
    exact ⟨_, rfl, getBundle_setBundle_same s b _, rfl⟩
  case silent =>
    intro hc hidle
    refine ⟨_, exec_bundleLivenessTimeout hb hidle, ?_, ?_, hseen (dieSeen_bundleDown hb hc)⟩
    all_goals rw [hsync, getBundle_bundleDown hc, Bundle.down]
  case early =>
    intro hnear hfar
    simp [exec, execBundleLivenessTimeout, hb, hnear, hfar]

end Sys2Proof.Machine
end

section
/-! Rejoins (R256-R258): the attempts counted for a die that has rejoined, and a report on die X0 that passes, on a state that
lists its count twice. -/

namespace Sys2Proof.Machine

/-! ## Attempts counted (R256) -/

/-- A key that a map does not list reads as the reset record. -/
theorem mget_of_notMem {α : Type} (d : α) {m : Map α} {k : Nat} (h : k ∉ m.map (·.1)) : mget d m k = d := by
  induction m with
  | nil => rfl
  | cons e t ih =>
    obtain ⟨hne, ht⟩ : k ≠ e.1 ∧ k ∉ t.map (·.1) := by simpa only [List.map_cons, List.mem_cons, not_or] using h
    rw [mget, if_neg (Ne.symm hne)]
    exact ih ht

/-- A removed key reads as the reset record, where the map listed it once. -/
theorem mget_mdel_same {α : Type} (d : α) {m : Map α} (k : Nat) (h : (m.map (·.1)).Nodup) : mget d (mdel m k) k = d := by
  induction m with
  | nil => rfl
  | cons e t ih =>
    obtain ⟨hhead, ht⟩ := List.nodup_cons.mp h
    by_cases hk : e.1 = k
    · rw [mdel, if_pos hk]
      exact mget_of_notMem d (hk ▸ hhead)
    · rw [mdel, if_neg hk, mget, if_neg hk]
      exact ih ht

/-- A rejoin that succeeds leaves no attempts counted, where the map of attempts lists each die once. -/
theorem rejoinDone_attempts {s : State} (d : Nat) (h : (s.dies.attempts.map (·.1)).Nodup) :
    mget 0 (rejoinDone s d).dies.attempts d = 0 := by
  have hfold (l : List Nat) (s : State) : (l.foldl (fun s x => setDie s x 1) s).dies.attempts = s.dies.attempts := by
    induction l generalizing s with
    | nil => rfl
    | cons x t ih => exact ih _
  rw [rejoinDone, hfold]
  exact mget_mdel_same 0 d h

/-! ## A map of attempts that lists a die twice -/

/-- The identity record (R249) of the die at index `i` in a module of serial number 0. -/
def plainRecord (i : Nat) : Bytes :=
  let b := toLe 1 (typeAt i) ++ toLe 1 (positionAt i) ++ toLe 1 0x42 ++ toLe 1 1 ++ toLe 24 0
  b ++ toLe 4 (crc32c b)

/-- A module in which X0 rejoins and every other die is up. Its map of attempts holds X0 twice. -/
def attemptsTwice : State :=
  { State.reset with dies := { Dies.reset with
      states := [(0, 1), (1, 1), (2, 3), (3, 1), (4, 1), (5, 1)], attempts := [(2, 1), (2, 1)], found := [(5, plainRecord 5)] } }

/-- The report on X0 that finds nothing wrong. -/
def passingReport : RejoinReport :=
  { failStep := none, badPositions := [], partnerLost := false, identities := [(2, plainRecord 2)], badStacks := [],
    repairedRows := [] }

/-- X0's bundle trains and its identity passes. -/
theorem attemptsTwice_trains : (trainCourse [] passingReport.identities (rejoinCourse 2) attemptsTwice).2 = true := by decide +kernel

/-- The end of the attempt takes one of the two entries away. -/
theorem attemptsTwice_attempts : mget 0 (rejoinAttempt attemptsTwice 2 (some passingReport)).dies.attempts 2 = 1 := by decide +kernel

/-- Refutes O47: the clause that a rejoin leaves no attempts counted has no premise that the map of attempts lists each die once.
`mdel` takes away the first entry of a key, so on `attemptsTwice` the second one, a count of 1, is left when X0 has rejoined. The
statement speaks of every state; no step makes such a map, for `mput` keeps its keys rising. Where each die is listed once the
clause holds (`rejoinDone_attempts`). -/
theorem not_lostDiesRejoin : ¬ Obligations.LostDiesRejoin := by
  unfold Obligations.LostDiesRejoin
  rintro ⟨-, hreport, -⟩
  obtain ⟨-, hpass, -⟩ := hreport attemptsTwice 2 passingReport _ _ (by decide) rfl rfl
  obtain ⟨t, hexec, -, -, -, hattempts, -⟩ := hpass rfl rfl (by decide +kernel) rfl attemptsTwice_trains rfl
  obtain rfl : capSync attemptsTwice (rejoinAttempt attemptsTwice 2 (some passingReport)) = t := Host.Outcome.next.inj hexec
  rw [capSync_dies, attemptsTwice_attempts] at hattempts
  exact absurd hattempts (by decide)

end Sys2Proof.Machine
end

section
/-! Ingest commands (R254, R255, R316, R321, R331-R334): what a row of S does while S is up, and the statement on the five rows
that open, close, seek, load and assemble. -/

namespace Sys2Proof.Machine

/-! ## Rows that work under checks, as the state stands -/

section
variable {s : State} {cid op : Nat} {c : Cmd} {issue : State → Cmd → Option Err} {run : State → Cmd → Run}
  (h : Dispatched s cid op c) (ho : onMeres op = false)
include h ho

/-- With the checks passed and a status that signals, the result waits for the commit. -/
theorem onWork_checked_executed (hi : issue s c = none) (hr : signals (run s c).result.status = true) :
    Executed s (onWork s cid [op] (fun c => applyRun s c (checked (issue s c) (run s c)))) c (run s c).result := by
  rw [onWork_some (working_off h ho), hi]
  exact applyRun_executed s c _ h.find_self hr

/-- A check that fails ends the command with its status. -/
theorem onWork_checked_ended {e : Err} (hi : issue s c = some e) (he : signals e.1 = false) :
    Ended s (onWork s cid [op] (fun c => applyRun s c (checked (issue s c) (run s c)))) c e 0 := by
  rw [onWork_some (working_off h ho), hi]
  exact applyRun_fail s c e he ▸ complete_ended s c e 0

end

/-! ## Rows that wait for S (R254) -/

/-- Work that needs S does nothing while S is not up. -/
theorem onWork_springDown {s : State} {cid : Nat} {ops : List Nat} (f : Cmd → State) (hdown : springUp s = false) :
    onWork s cid ops (fun c => if springUp s then f c else s) = s := by
  unfold onWork
  split
  · simp only [hdown, Bool.false_eq_true, if_false]
  · rfl

section
variable {s : State} (cid : Nat) (hup : springUp s = true)
include hup

/-- INGEST_OPEN while S is up. -/
theorem exec_ingestOpen : exec (.ingestOpen cid) s =
    .next (onWork s cid [0x0401] (fun c => applyRun s c (checked (ingestOpenIssue s c) (ingestOpenRun s c)))) := by
  simp only [exec, execIngestOpen, hup, if_true]

/-- DICT_LOAD while S is up. -/
theorem exec_dictLoad : exec (.dictLoad cid) s =
    .next (onWork s cid [0x0405] (fun c => applyRun s c (checked (dictLoadIssue s c) (dictLoadRun s c)))) := by
  simp only [exec, execDictLoad, hup, if_true]

end

/-- The work of INGEST_RELEASE: the slot it names is freed at the commit. -/
def ingestReleaseRun (_ : State) (c : Cmd) : Run := Run.plain (succeeded 0 [.release (c.arg 0x10 1) (c.arg 0x11 1)])

/-- The work of INGEST_SEEK: the position and the epoch, and the reserve position where the packet gives one. -/
def ingestSeekRun (_ : State) (c : Cmd) : Run :=
  Run.plain (succeeded 0 [.seek (c.arg 0x10 1) (BitVec.ofNat 64 (c.arg 0x18 8)) (c.word 0x20)
    (if bit (c.arg 0x11 1) 0 then some (BitVec.ofNat 64 (c.arg 0x28 8)) else none)])

/-- INGEST_RELEASE, whether S is up or not. -/
theorem exec_ingestRelease (s : State) (cid : Nat) : exec (.ingestRelease cid) s =
    .next (onWork s cid [0x0403] (fun c => applyRun s c (checked (ingestReleaseIssue s c) (ingestReleaseRun s c)))) := rfl

/-- INGEST_SEEK while S is up. -/
theorem exec_ingestSeek {s : State} (cid : Nat) (hup : springUp s = true) : exec (.ingestSeek cid) s =
    .next (onWork s cid [0x0404] (fun c => applyRun s c (checked (ingestSeekIssue s c) (ingestSeekRun s c)))) := by
  simp only [exec, execIngestSeek, hup, if_true]
  rfl

/-! ## INGEST_BATCH (R331) -/

section
variable {s : State} {cid : Nat} {c : Cmd} (h : Dispatched s cid 0x0402 c) (hup : springUp s = true)
include h hup

/-- A check that fails ends it. -/
theorem exec_ingestBatch_checked {e : Err} (hi : ingestBatchIssue s c = some e) :
    exec (.ingestBatch cid) s = .next (complete s c e 0) := by
  simp only [exec, execIngestBatch, onWork_some (working_off h rfl), hup, hi, if_true]

/-- A count of 0 finishes it at once. -/
theorem exec_ingestBatch_empty (hi : ingestBatchIssue s c = none) (hn : c.arg 0x18 4 = 0) :
    exec (.ingestBatch cid) s = .next (finishWork s c zeroExtent) := by
  simp only [exec, execIngestBatch, onWork_some (working_off h rfl), hup, hi, hn, if_true]

/-- With batches to write it holds its stream. -/
theorem exec_ingestBatch_holds (hi : ingestBatchIssue s c = none) (hn : c.arg 0x18 4 ≠ 0) :
    exec (.ingestBatch cid) s = .next (putCmd s { c with holds := true }) := by
  simp only [exec, execIngestBatch, onWork_some (working_off h rfl), hup, hi, hn, if_true, if_false]

end

/-! ## The statement -/

/-- Settles O58: each row by its rule above; the two whose work is not a run under checks are INGEST_BATCH's. -/
theorem ingestCommandsTakeEffect : Obligations.IngestCommandsTakeEffect := by
  unfold Obligations.IngestCommandsTakeEffect
  refine ⟨?opens, ?release, ?seek, ?dict, ?empty, ?holds, ?fails, ?waits⟩
  case opens =>
    intro s cid c hd hup hi hr
    exact ⟨_, exec_ingestOpen cid hup, onWork_checked_executed hd rfl hi hr⟩
  case release =>
    intro s cid c hd hi
    exact ⟨_, exec_ingestRelease s cid, onWork_checked_executed hd rfl hi rfl⟩
  case seek =>
    intro s cid c hd hup hi
    exact ⟨_, exec_ingestSeek cid hup, onWork_checked_executed (run := ingestSeekRun) hd rfl hi rfl⟩
  case dict =>
    intro s cid c hd hup hi hr
    exact ⟨_, exec_dictLoad cid hup, onWork_checked_executed hd rfl hi hr⟩
  case empty =>
    intro s cid c hd hup hi hn
    exact ⟨_, exec_ingestBatch_empty hd hup hi hn, finishWork_executed s c _ hd.find_self rfl⟩
  case holds =>
    intro s cid c hd hup hi hn
    have hput := findCmd_putCmd s { c with holds := true } (by simp [hd.find_self])
    exact ⟨_, exec_ingestBatch_holds hd hup hi hn, findCmd_cid hd.1 ▸ hput, rfl⟩
  case fails =>
    intro s cid op c e hd he
    refine ⟨?_, fun hup => ⟨?_, ?_, ?_, ?_⟩⟩
    · rintro rfl hi
      exact ⟨_, exec_ingestRelease s cid, onWork_checked_ended hd rfl hi he⟩
    · rintro rfl hi
      exact ⟨_, exec_ingestOpen cid hup, onWork_checked_ended hd rfl hi he⟩
    · rintro rfl hi
      exact ⟨_, exec_ingestBatch_checked hd hup hi, complete_ended s c e 0⟩
    · rintro rfl hi
      exact ⟨_, exec_ingestSeek cid hup, onWork_checked_ended hd rfl hi he⟩
    · rintro rfl hi
      exact ⟨_, exec_dictLoad cid hup, onWork_checked_ended hd rfl hi he⟩
  case waits =>
    intro s cid hdown
    exact ⟨congrArg _ (onWork_springDown _ hdown), congrArg _ (onWork_springDown _ hdown), congrArg _ (onWork_springDown _ hdown),
      congrArg _ (onWork_springDown _ hdown)⟩

end Sys2Proof.Machine
end

section
/-! Batches (R330, R331, R335, R339): the bytes that an assembly makes undefined and a commit writes, the slots that a deadline
replaces, and the statement on the course of a batch. -/

namespace Sys2Proof.Machine

/-! ## Ranges of bytes -/

/-- A byte that no range of a list holds is outside all of them. -/
theorem outside_of_not_inside {l : List (Nat × Nat)} {x : Nat} (h : ¬ Inside l x) : Outside l x := by
  intro r hr
  by_contra hx
  exact h ⟨r, hr, by omega⟩

theorem Outside.tail {r : Nat × Nat} {l : List (Nat × Nat)} {x : Nat} (h : Outside (r :: l) x) : Outside l x :=
  fun y hy => h y (List.mem_cons_of_mem r hy)

/-- Bytes outside every forgotten range read as before. -/
theorem read_forgetAll_outside {l : List (Nat × Nat)} {x : Nat} (s : State) (h : Outside l x) :
    (forgetAll l s).mem.read x = s.mem.read x := by
  induction l generalizing s with
  | nil => rfl
  | cons r t ih => exact (ih _ h.tail).trans (Memory.read_forget_outside _ _ _ _ _ (h r List.mem_cons_self))

/-- Bytes inside one of them are free. -/
theorem read_forgetAll_inside {l : List (Nat × Nat)} {x : Nat} (s : State) (h : Inside l x) :
    ∃ k, (forgetAll l s).mem.read x = Config.freeByte k x := by
  induction l generalizing s with
  | nil => simp [Inside] at h
  | cons r t ih =>
    by_cases ht : Inside t x
    · exact ih _ ht
    · obtain ⟨y, hy, hx⟩ := h
      rcases List.mem_cons.mp hy with rfl | hy
      · exact ⟨_, (read_forgetAll_outside _ (outside_of_not_inside ht)).trans (Memory.read_forget_inside _ _ _ _ _ hx)⟩
      · exact absurd ⟨y, hy, hx⟩ ht

theorem forgetAll_cmds (l : List (Nat × Nat)) (s : State) : (forgetAll l s).cmds = s.cmds := by
  induction l generalizing s with
  | nil => rfl
  | cons r t ih => exact ih _

theorem forgetAll_queues (l : List (Nat × Nat)) (s : State) : (forgetAll l s).queues = s.queues := by
  induction l generalizing s with
  | nil => rfl
  | cons r t ih => exact ih _

/-! ## Runs of bytes written -/

theorem putAll_append (l k : List (Nat × Bytes)) (s : State) : putAll (l ++ k) s = putAll k (putAll l s) := by
  induction l generalizing s with
  | nil => rfl
  | cons w t ih => exact ih _

/-- Runs written change nothing but the memory. -/
theorem putAll_frame (l : List (Nat × Bytes)) (s : State) : putAll l s = { s with mem := (putAll l s).mem } := by
  induction l generalizing s with
  | nil => rfl
  | cons w t ih => rw [putAll, ih]; rfl

/-- No write makes or ends a claim. -/
theorem putAll_claims (l : List (Nat × Bytes)) (s : State) : (putAll l s).mem.claims = s.mem.claims := by
  induction l generalizing s with
  | nil => rfl
  | cons w t ih => exact ih _

/-- Bytes outside every run read as before. -/
theorem read_putAll_outside {l : List (Nat × Bytes)} {x : Nat} {s : State} (hs : Safe s)
    (h : Outside (l.map (fun w => (w.1, w.2.length))) x) : (putAll l s).mem.read x = s.mem.read x := by
  induction l generalizing s with
  | nil => rfl
  | cons w t ih =>
    exact (ih (s := hbmWrite s w.1 w.2) (Memory.wf_write _ _ _ hs) h.tail).trans
      (Memory.read_write_outside _ _ _ _ hs (h _ List.mem_cons_self))

/-- The last run of a list reads back where no command in flight claims it. -/
theorem read_putAll_last {l : List (Nat × Bytes)} {m i : Nat} {b : Bytes} {s : State} (hs : Safe s) (hi : i < b.length)
    (hc : claimAt s.mem.claims (m + i) = none) : (putAll (l ++ [(m, b)]) s).mem.read (m + i) = b.getD i 0 := by
  rw [putAll_append]
  refine (Memory.read_write_inside _ m _ b (putAll_wf l s hs) ?_ (by omega)).trans (by rw [Nat.add_sub_cancel_left])
  rw [putAll_claims]
  exact hc

/-! ## Assembly starts (R330) -/

section
variable {s : State} {n : Nat} {c : Cmd} (hn : n < 16) (hcmd : batchCmd s n = some c)
include hn hcmd

/-- Into a free queue slot. -/
theorem exec_batchAssemblyStart (hup : springUp s = true) (hopen : (getIngest s n).opened = true) (hasm : (getIngest s n).asm = none)
    (hfree : mhas (getIngest s n).held (queueSlot (getIngest s n)) = false) : exec (.batchAssemblyStart n) s =
      .next (setIngest (forgetAll (batchRanges s (getIngest s n).cfg (queueSlot (getIngest s n))) s) n { getIngest s n with
        asm := some { cid := c.cid, batch := (getIngest s n).batch, firstPos := (getIngest s n).pos, rsvTaken := [], slots := [] } }) := by
  rw [queueSlot] at hfree
  simp [exec, execBatchAssemblyStart, hn, hcmd, hup, hopen, hasm, hfree, queueSlot]

/-- Into none that is held. -/
theorem exec_batchAssemblyStart_held (hheld : mhas (getIngest s n).held (queueSlot (getIngest s n)) = true) :
    exec (.batchAssemblyStart n) s = .next s := by
  rw [queueSlot] at hheld
  simp [exec, execBatchAssemblyStart, hn, hcmd, hheld]

end

/-! ## Commit (R330, R331, R335) -/

/-- What a batch writes: outputs and masks, its manifest last. -/
def batchRuns (s : State) (n : Nat) (g : Ingest) (a : Assembly) : List (Nat × Bytes) :=
  batchWrites s g a.slots ++ [((readDesc s (field g.cfg 0x14 2 + queueSlot g)).base, manifest n g a)]

/-- The stream once its batch has committed: the queue slot is held, the ring's head is where the next batch begins. -/
def Ingest.pastBatch (g : Ingest) (a : Assembly) : Ingest :=
  { g with asm := none, batch := g.batch + 1, held := mput g.held (queueSlot g) a.batch, srcHead := (g.pos >>> 32).setWidth 32 }

theorem Ingest.held_pastBatch (g : Ingest) (a : Assembly) : mget 0 (g.pastBatch a).held (queueSlot g) = a.batch :=
  mget_mput_same _ _ _ _

/-- The ready counter of the queue slot that a stream fills next. -/
def readyCounter (g : Ingest) : Nat := field g.cfg 0xC 2 + queueSlot g

/-- The state once a full batch is in memory and its queue slot held, before any signal. -/
def batchLanded (s : State) (n : Nat) (g : Ingest) (a : Assembly) : State :=
  countSat (setIngest (putAll (batchRuns s n g a) s) n (g.pastBatch a)) ((a.slots.map (·.sat)).sum)

/-- The state once the ready counter and the command's own are signalled too; without K's main clock they are held (R255). -/
def batchSignalled (s : State) (n : Nat) (g : Ingest) (a : Assembly) (c : Cmd) : State :=
  if s.ctl.noMainClock then batchLanded s n g a
  else addTokens (addTokens (batchLanded s n g a) c.q (readyCounter g) 1) c.q c.signal (c.sigInc + 1)

theorem commitBatch_eq (s : State) (n : Nat) (g : Ingest) (a : Assembly) (c : Cmd) : commitBatch s n g a c =
    batchDone (batchSignalled s n g a c) c (batchNotes a.slots) (filledSlots a.slots) := rfl

/-- A batch in memory changes the memory, its stream and the counts of the guard. -/
theorem batchLanded_frame (s : State) (n : Nat) (g : Ingest) (a : Assembly) : batchLanded s n g a =
    { s with mem := (batchLanded s n g a).mem, spring := (batchLanded s n g a).spring, guard := (batchLanded s n g a).guard } := by
  unfold batchLanded countSat
  dsimp only
  rw [putAll_frame]
  split <;> rfl

theorem batchLanded_spring (s : State) (n : Nat) (g : Ingest) (a : Assembly) : (batchLanded s n g a).spring =
    (setIngest s n (g.pastBatch a)).spring := by
  unfold batchLanded countSat
  dsimp only
  rw [putAll_frame]
  split <;> rfl

theorem batchLanded_mem (s : State) (n : Nat) (g : Ingest) (a : Assembly) : (batchLanded s n g a).mem =
    (putAll (batchRuns s n g a) s).mem := by
  rw [batchLanded, countSat_mem]
  rfl

theorem addTokens_cmds (s : State) (q n k : Nat) : (addTokens s q n k).cmds = s.cmds := by
  unfold addTokens
  dsimp only
  split
  · rfl
  · split <;> rfl

/-- The signals change no more than the end of a command does. -/
theorem batchSignalled_frame (s : State) (n : Nat) (g : Ingest) (a : Assembly) (c : Cmd) :
    EndFrame (batchLanded s n g a) (batchSignalled s n g a c) := by
  unfold batchSignalled
  split
  · exact .refl _
  · exact (addTokens_frame _ _ _ _).trans (addTokens_frame _ _ _ _)

section
variable (s : State) (c : Cmd) (notes work : Nat)

/-- What a batch makes of its command changes no more than the end of a command does. -/
theorem batchDone_frame : EndFrame s (batchDone s c notes work) := by
  unfold batchDone
  dsimp only
  split
  · exact replyAct_frame _ _ _ _
  · exact .light rfl

/-- It signals nothing more. -/
theorem getCounter_batchDone (k : Nat) : getCounter (batchDone s c notes work) k = getCounter s k := by
  unfold batchDone
  dsimp only
  split
  · exact getCounter_replyAct _ _ _ _ _
  · rfl

/-- After its last batch the command is over. -/
theorem findCmd_batchDone_last (hlast : c.batches + 1 = c.arg 0x18 4) (hclk : s.ctl.noMainClock = false) :
    findCmd (batchDone s c notes work) c.cid = none := by
  unfold batchDone
  dsimp only
  rw [if_pos ⟨hlast, by simp [hclk]⟩, findCmd, replyAct_cmds_eq]
  simp

/-- After any other batch, or while the reply is held, it stands with one batch more. -/
theorem batchDone_runs (h : c.batches + 1 ≠ c.arg 0x18 4 ∨ s.ctl.noMainClock = true) : ∃ d : Cmd, batchDone s c notes work = putCmd s d ∧
    d.cid = c.cid ∧ d.batches = c.batches + 1 ∧ d.stage = c.stage := by
  unfold batchDone
  dsimp only
  rw [if_neg]
  · exact ⟨_, rfl, rfl, rfl, rfl⟩
  · rintro ⟨hlast, hclk⟩
    rcases h with h | h
    · exact h hlast
    · simp [h] at hclk

end

section
variable {s : State} {n : Nat} {g : Ingest} {a : Assembly} {c : Cmd}

/-- What a commit changes besides the memory, its stream and the counts of the guard. -/
theorem commitBatch_frame : EndFrame (batchLanded s n g a) (commitBatch s n g a c) :=
  (batchSignalled_frame s n g a c).trans (batchDone_frame _ _ _ _)

/-- The stream stands past its batch, the others stand as before. -/
theorem getIngest_commitBatch (x : Nat) : getIngest (commitBatch s n g a c) x =
    getIngest (setIngest s n (g.pastBatch a)) x := by
  have hspring : (commitBatch s n g a c).spring = (batchLanded s n g a).spring := by rw [commitBatch_frame.2]
  rw [getIngest, hspring, batchLanded_spring]
  rfl

/-- A byte that no command claims reads as the batch leaves it. -/
theorem read_commitBatch {x : Nat} (hc : claimAt s.mem.claims x = none) : (commitBatch s n g a c).mem.read x =
    (putAll (batchRuns s n g a) s).mem.read x := by
  rw [commitBatch_frame.1.read x (by rw [batchLanded_mem, putAll_claims]; exact hc), batchLanded_mem]

theorem batchSignalled_ctl : (batchSignalled s n g a c).ctl = s.ctl := by
  rw [(batchSignalled_frame s n g a c).2, batchLanded_frame]

theorem batchSignalled_cmds : (batchSignalled s n g a c).cmds = s.cmds := by
  unfold batchSignalled
  split
  · rw [batchLanded_frame]
  · rw [addTokens_cmds, addTokens_cmds, batchLanded_frame]

/-- The command that runs stands there with one batch more. -/
theorem findCmd_commitBatch (hfind : findCmd s c.cid = some c) (h : c.batches + 1 ≠ c.arg 0x18 4 ∨ s.ctl.noMainClock = true) :
    ∃ d, findCmd (commitBatch s n g a c) c.cid = some d ∧ d.batches = c.batches + 1 ∧ d.stage = c.stage := by
  obtain ⟨d, hput, hcid, hbatches, hstage⟩ := batchDone_runs (batchSignalled s n g a c) c (batchNotes a.slots) (filledSlots a.slots)
    (by rw [batchSignalled_ctl]; exact h)
  refine ⟨d, ?_, hbatches, hstage⟩
  rw [commitBatch_eq, hput, ← hcid]
  refine findCmd_putCmd _ d ?_
  rw [findCmd, batchSignalled_cmds, hcid, ← findCmd, hfind]
  rfl

/-- After its last batch it is over. -/
theorem findCmd_commitBatch_last (hlast : c.batches + 1 = c.arg 0x18 4) (hclk : s.ctl.noMainClock = false) :
    findCmd (commitBatch s n g a c) c.cid = none := by
  rw [commitBatch_eq]
  exact findCmd_batchDone_last _ c _ _ hlast (by rw [batchSignalled_ctl]; exact hclk)

/-- Without K's main clock no counter and no queue changes (R255). -/
theorem commitBatch_held (hclk : s.ctl.noMainClock = true) :
    (commitBatch s n g a c).counters = s.counters ∧ (commitBatch s n g a c).queues = s.queues := by
  have hsignalled : batchSignalled s n g a c = batchLanded s n g a := if_pos hclk
  obtain ⟨d, hput, -⟩ := batchDone_runs (batchSignalled s n g a c) c (batchNotes a.slots) (filledSlots a.slots)
    (by rw [batchSignalled_ctl]; exact .inr hclk)
  rw [commitBatch_eq, hput, hsignalled, putCmd_counters, putCmd_queues, batchLanded_frame]
  exact ⟨rfl, rfl⟩

end

/-! ## The counters of a commit (R46, R330) -/

theorem getCounter_batchLanded (s : State) (n : Nat) (g : Ingest) (a : Assembly) (k : Nat) :
    getCounter (batchLanded s n g a) k = getCounter s k := by
  rw [batchLanded_frame]
  rfl

/-- A count kept in 16 bits. -/
theorem toNat_count (k : Nat) : (BitVec.ofNat 16 (min k 0xFFFF)).toNat = min k 0xFFFF := by
  rw [BitVec.toNat_ofNat]
  omega

section
variable {s : State} {n : Nat} {g : Ingest} {a : Assembly} {c : Cmd} (hclk : s.ctl.noMainClock = false)
include hclk

/-- With K's main clock, one token for the ready counter, then the command's own. -/
theorem getCounter_commitBatch (k : Nat) : getCounter (commitBatch s n g a c) k =
    getCounter (addTokens (addTokens (batchLanded s n g a) c.q (readyCounter g) 1) c.q c.signal (c.sigInc + 1)) k := by
  rw [commitBatch_eq, getCounter_batchDone, batchSignalled, if_neg (by simp [hclk])]

/-- The ready counter, where it is not the command's own. -/
theorem count_commitBatch_ready (h0 : readyCounter g ≠ 0) (hne : readyCounter g ≠ c.signal) :
    (getCounter (commitBatch s n g a c) (readyCounter g)).count.toNat = min ((getCounter s (readyCounter g)).count.toNat + 1) 0xFFFF := by
  rw [getCounter_commitBatch hclk, addTokens_counter_ne _ _ _ hne, addTokens_count _ _ _ _ h0, toNat_count, getCounter_batchLanded]

/-- The command's own counter, where it is not the ready counter. -/
theorem count_commitBatch_signal (h0 : c.signal ≠ 0) (hne : readyCounter g ≠ c.signal) :
    (getCounter (commitBatch s n g a c) c.signal).count.toNat =
      min ((getCounter s c.signal).count.toNat + (c.sigInc + 1)) 0xFFFF := by
  rw [getCounter_commitBatch hclk, addTokens_count _ _ _ _ h0, toNat_count, addTokens_counter_ne _ _ _ (Ne.symm hne),
    getCounter_batchLanded]

/-- A counter that is both takes both signals. -/
theorem count_commitBatch_both (h0 : readyCounter g ≠ 0) (heq : readyCounter g = c.signal) :
    (getCounter (commitBatch s n g a c) (readyCounter g)).count.toNat =
      min ((getCounter s (readyCounter g)).count.toNat + (c.sigInc + 2)) 0xFFFF := by
  rw [getCounter_commitBatch hclk, ← heq, addTokens_count _ _ _ _ h0, addTokens_count _ _ _ _ h0, toNat_count, toNat_count,
    getCounter_batchLanded]
  omega

/-- Every other counter stands as before. -/
theorem counter_commitBatch_other {k : Nat} (hready : k ≠ readyCounter g) (hsignal : k ≠ c.signal) :
    getCounter (commitBatch s n g a c) k = getCounter s k := by
  rw [getCounter_commitBatch hclk, addTokens_counter_ne _ _ _ hsignal, addTokens_counter_ne _ _ _ hready, getCounter_batchLanded]

end

/-! ## The row BATCH_COMMIT -/

section
variable {s : State} {n : Nat} {a : Assembly} (hn : n < 16) (hasm : (getIngest s n).asm = some a)
include hn hasm

/-- A full batch commits. -/
theorem exec_batchCommit {c : Cmd} (hcmd : batchCmd s n = some c) (hup : springUp s = true)
    (hlen : a.slots.length = cB (getIngest s n).cfg) (hdone : ∀ v ∈ a.slots, v.done = true) :
    exec (.batchCommit n) s = .next (commitBatch s n (getIngest s n) a c) := by
  have hfull : asmFull (getIngest s n) a = true := by simpa [asmFull, hlen] using hdone
  simp [exec, execBatchCommit, hn, hasm, hcmd, hup, hfull]

/-- One with an unfilled slot waits. -/
theorem exec_batchCommit_waits (h : ∃ v ∈ a.slots, v.done = false) : exec (.batchCommit n) s = .next s := by
  have hfull : asmFull (getIngest s n) a = false := by
    have : a.slots.all (·.done) = false := by simpa using h
    simp [asmFull, this]
  cases hcmd : batchCmd s n with
  | none => simp [exec, execBatchCommit, hn, hasm, hcmd]
  | some c => simp [exec, execBatchCommit, hn, hasm, hcmd, hfull]

end

/-! ## Slots replaced (R336) -/

/-- `g'` stands where `g` stands, with `b` in assembly where `g` has `a`: as many slots, from the same position on. -/
structure SameBatch (g g' : Ingest) (a b : Assembly) : Prop where
  cfg : g'.cfg = g.cfg
  asm : g'.asm = some b
  length : b.slots.length = a.slots.length
  firstPos : b.firstPos = a.firstPos

theorem SameBatch.trans {g g' g'' : Ingest} {a b d : Assembly} (h : SameBatch g g' a b) (k : SameBatch g' g'' b d) :
    SameBatch g g'' a d :=
  ⟨k.cfg.trans h.cfg, k.asm, k.length.trans h.length, k.firstPos.trans h.firstPos⟩

theorem Ingest.corrupt_cfg (g : Ingest) (reason : Nat) : (g.corrupt reason).cfg = g.cfg := by
  unfold Ingest.corrupt
  split <;> rfl

/-- A replaced slot takes a sample or padding and waits for no lane; the others stand. -/
theorem replaceSlot_asm (s : State) (g : Ingest) {a : Assembly} {k : Nat} (reason : Nat) (hk : k < a.slots.length) :
    ∃ b w, SameBatch g (replaceSlot s g a k reason) a b ∧ b.slots = a.slots.set k w ∧ w.fields = [] := by
  have hslot : a.slots[k]? = some a.slots[k] := List.getElem?_eq_getElem hk
  unfold replaceSlot
  simp only [hslot]
  split
  · exact ⟨_, _, ⟨g.corrupt_cfg reason, rfl, List.length_set, rfl⟩, rfl, rfl⟩
  · exact ⟨_, _, ⟨g.corrupt_cfg reason, rfl, List.length_set, rfl⟩, rfl, rfl⟩

/-- The late slots of a list are replaced: no slot of the list waits for a lane, the others stand. -/
theorem replaceLate_asm (s : State) {l : List Nat} {g : Ingest} {a : Assembly} (hasm : g.asm = some a)
    (hl : ∀ k ∈ l, k < a.slots.length) :
    ∃ b, SameBatch g (replaceLate s l g) a b ∧
      ∀ i v, b.slots[i]? = some v → v.fields = [] ∨ (i ∉ l ∧ a.slots[i]? = some v) := by
  induction l generalizing g a with
  | nil => exact ⟨a, ⟨rfl, hasm, rfl, rfl⟩, fun i v hv => .inr ⟨List.not_mem_nil, hv⟩⟩
  | cons k t ih =>
    have hk := hl k List.mem_cons_self
    have ht : ∀ i ∈ t, i < a.slots.length := fun i hi => hl i (List.mem_cons_of_mem k hi)
    have hslot : a.slots[k]? = some a.slots[k] := List.getElem?_eq_getElem hk
    simp only [replaceLate, hasm, hslot]
    by_cases hempty : a.slots[k].fields.isEmpty = true
    · rw [if_pos hempty]
      obtain ⟨b, hb, hslots⟩ := ih hasm ht
      refine ⟨b, hb, fun i v hv => ?_⟩
      rcases hslots i v hv with hv | ⟨hi, hv⟩
      · exact .inl hv
      · by_cases hik : i = k
        · subst hik
          rw [hslot] at hv
          cases hv
          exact .inl (List.isEmpty_iff.mp hempty)
        · exact .inr ⟨by simp [hik, hi], hv⟩
    · rw [if_neg hempty]
      obtain ⟨b, w, hb, hset, hw⟩ := replaceSlot_asm s g 6 hk
      obtain ⟨b', hb', hslots⟩ := ih hb.asm (by rw [hb.length]; exact ht)
      refine ⟨b', hb.trans hb', fun i v hv => ?_⟩
      rcases hslots i v hv with hv | ⟨hi, hv⟩
      · exact .inl hv
      · by_cases hik : k = i
        · subst hik
          rw [hset, List.getElem?_set_self hk] at hv
          cases hv
          exact .inl hw
        · rw [hset, List.getElem?_set_ne hik] at hv
          exact .inr ⟨by simp [Ne.symm hik, hi], hv⟩

/-- At the deadline an unfilled slot of a full packed batch is closed; no other slot changes. -/
theorem closeLast_asm {g : Ingest} {a : Assembly} (hasm : g.asm = some a) : ∃ b, SameBatch g (closeLast g) a b ∧
    ((∀ v ∈ a.slots, v.fields = []) → ∀ v ∈ b.slots, v.fields = []) ∧
    (cPacked g.cfg = true → a.slots.length = cB g.cfg → ∀ v ∈ b.slots, v.done = true) := by
  simp only [closeLast, hasm]
  by_cases hclose : (cPacked g.cfg && a.slots.length == cB g.cfg) = true
  · rw [if_pos hclose]
    refine ⟨_, ⟨rfl, rfl, List.length_map _, rfl⟩, fun hfields v hv => ?_, fun _ _ v hv => ?_⟩
    all_goals
      obtain ⟨x, hx, rfl⟩ := List.mem_map.mp hv
    · have hx := hfields x hx
      split
      · exact hx
      · exact hx
    · split
      · assumption
      · rfl
  · rw [if_neg hclose]
    exact ⟨a, ⟨rfl, hasm, rfl, rfl⟩, id, fun hpacked hlen => absurd (by simp [hpacked, hlen]) hclose⟩

/-! ## The row BATCH_DEADLINE (R339) -/

/-- The stream once its deadline has passed: late slots replaced, a full packed batch closed. -/
def pastDeadline (s : State) (g : Ingest) (a : Assembly) : Ingest := closeLast (replaceLate s (List.range a.slots.length) g)

/-- Every slot is filled or waits for no lane. -/
theorem pastDeadline_asm (s : State) {g : Ingest} {a : Assembly} (hasm : g.asm = some a) :
    ∃ b, SameBatch g (pastDeadline s g a) a b ∧ (∀ v ∈ b.slots, v.fields = []) ∧
      (cPacked g.cfg = true → a.slots.length = cB g.cfg → ∀ v ∈ b.slots, v.done = true) := by
  obtain ⟨b, hb, hslots⟩ := replaceLate_asm s hasm (fun k hk => List.mem_range.mp hk)
  obtain ⟨d, hd, hfields, hdone⟩ := closeLast_asm hb.asm
  refine ⟨d, hb.trans hd, hfields fun v hv => ?_, ?_⟩
  · obtain ⟨i, hi⟩ := List.mem_iff_getElem?.mp hv
    refine (hslots i v hi).elim id fun ⟨hout, ha⟩ => absurd (List.mem_range.mpr ?_) hout
    exact (List.getElem?_eq_some_iff.mp ha).1
  · intro hpacked hlen
    rw [← hb.cfg] at hpacked hlen
    exact hdone hpacked (hb.length.trans hlen)

section
variable {s : State} {n : Nat} {a : Assembly} (hn : n < 16) (hup : springUp s = true) (hasm : (getIngest s n).asm = some a)
include hn hup hasm

/-- With a record in every slot, or more of them to be read, the batch goes on. -/
theorem exec_batchDeadline (h : cB (getIngest s n).cfg ≤ a.slots.length ∨
    entryReady (getIngest s n).srcTail (getIngest s n).pos = true) :
    exec (.batchDeadline n) s = .next (tickFree (setIngest s n (pastDeadline s (getIngest s n) a))) := by
  have hshort : (decide (a.slots.length < cB (getIngest s n).cfg) &&
      !entryReady (getIngest s n).srcTail (getIngest s n).pos) = false := by
    rcases h with h | h
    · simp [Nat.not_lt_of_le h]
    · simp [h]
  simp [exec, execBatchDeadline, hn, hup, hasm, hshort, pastDeadline]

/-- With a slot that has no record, and none to be read, the batch fails. -/
theorem exec_batchDeadline_starved (hlen : a.slots.length < cB (getIngest s n).cfg)
    (hempty : entryReady (getIngest s n).srcTail (getIngest s n).pos = false) : ∃ k, exec (.batchDeadline n) s =
      .next (failBatch (tickFree (setIngest s n (pastDeadline s (getIngest s n) a))) n (ingestStarved n k)) := by
  refine ⟨((pastDeadline s (getIngest s n) a).asm.map (fun x => filledSlots x.slots)).getD 0, ?_⟩
  simp [exec, execBatchDeadline, hn, hup, hasm, hlen, hempty, pastDeadline]

end

/-- The end of a command leaves the streams. -/
theorem Ended.getIngest_eq {u t : State} {c : Cmd} {e : Err} {w : Nat} (h : Ended u t c e w) (n : Nat) :
    getIngest t n = getIngest u n := by
  have hspring : t.spring = u.spring := by rw [h.rest]
  rw [getIngest, hspring]
  rfl

/-- A batch that fails is discarded, the position back at its first record, and its command ends. -/
theorem failBatch_ended {s : State} {n : Nat} {c : Cmd} {a : Assembly} (e : Err) (hcmd : batchCmd s n = some c)
    (hasm : (getIngest s n).asm = some a) : ∃ u, Ended u (failBatch s n e) c e ((c.result.map (·.work)).getD 0) ∧
      (getIngest (failBatch s n e) n).asm = none ∧ (getIngest (failBatch s n e) n).pos = a.firstPos ∧
      u.mem = s.mem ∧ u.cmds = s.cmds := by
  have hfails : failBatch s n e =
      complete (setIngest s n (discardAsm (getIngest s n))) c e ((c.result.map (·.work)).getD 0) := by
    simp only [failBatch, hcmd]
  have hended := complete_ended (setIngest s n (discardAsm (getIngest s n))) c e ((c.result.map (·.work)).getD 0)
  have hdiscard : discardAsm (getIngest s n) =
      { getIngest s n with asm := none, pos := a.firstPos, pool := a.rsvTaken ++ (getIngest s n).pool } := by
    simp only [discardAsm, hasm]
  refine ⟨setIngest s n (discardAsm (getIngest s n)), hfails ▸ hended, ?_, ?_, rfl, rfl⟩
  all_goals rw [hfails, hended.getIngest_eq, getIngest_setIngest_same, hdiscard]

/-! ## The statement -/

/-- Settles O59: assembly, commit and deadline by their rules above. -/
theorem batchesAreAssembledAndCommitted : Obligations.BatchesAreAssembledAndCommitted := by
  unfold Obligations.BatchesAreAssembledAndCommitted
  refine ⟨?starts, ?commits, ?deadline⟩
  case starts =>
    intro s n j c g hn hcmd hup hg hopen hasm hj
    subst hg
    obtain rfl : j = queueSlot (getIngest s n) := hj
    refine ⟨fun hfree => ⟨_, exec_batchAssemblyStart hn hcmd hup hopen hasm hfree, getIngest_setIngest_same _ _ _, fun x hx => ?_,
      fun x hx => ?_, ?_, ?_⟩, fun hheld => exec_batchAssemblyStart_held hn hcmd hheld⟩
    · rw [setIngest_mem]
      exact read_forgetAll_outside s hx
    · rw [setIngest_mem]
      exact read_forgetAll_inside s hx
    · rw [setIngest_cmds, forgetAll_cmds]
    · rw [setIngest_queues, forgetAll_queues]
  case commits =>
    intro s n j r m c g a hsafe hn hcmd hup hg hasm hlen hj hr hm hfind
    subst hg
    rw [hm]
    obtain rfl : j = queueSlot (getIngest s n) := hj
    obtain rfl : r = readyCounter (getIngest s n) := hr
    have hsame := getIngest_commitBatch (s := s) (n := n) (g := getIngest s n) (a := a) (c := c) n
    rw [getIngest_setIngest_same] at hsame
    refine ⟨fun hdone => ⟨?_, fun hclk => ?_⟩, fun hdone hclk => ?_, fun hlate => exec_batchCommit_waits hn hasm hlate⟩
    · refine ⟨_, exec_batchCommit hn hasm hcmd hup hlen hdone, fun x hx => read_commitBatch hx, fun x hx hout => ?_,
        fun i hi hx => ?_, fun x hx => ?_⟩
      · rw [read_commitBatch hx]
        exact read_putAll_outside hsafe hout
      · rw [read_commitBatch hx]
        exact read_putAll_last hsafe hi hx
      · rw [getIngest_commitBatch, getIngest_setIngest_ne _ _ _ _ hx]
    · obtain ⟨hcounters, hqueues⟩ := commitBatch_held (n := n) (g := getIngest s n) (a := a) (c := c) hclk
      refine ⟨_, exec_batchCommit hn hasm hcmd hup hlen hdone, ?_, ?_, hcounters, hqueues, findCmd_commitBatch hfind (.inr hclk)⟩
      all_goals rw [hsame]
      · rfl
      · exact Ingest.held_pastBatch _ _
    · refine ⟨_, exec_batchCommit hn hasm hcmd hup hlen hdone, ?_, ?_, ?_, ?_, count_commitBatch_ready hclk,
        count_commitBatch_signal hclk, count_commitBatch_both hclk, fun k => counter_commitBatch_other hclk,
        fun hlast => findCmd_commitBatch_last hlast hclk, fun hmore => findCmd_commitBatch hfind (.inl hmore)⟩
      all_goals rw [hsame]
      · rfl
      · rfl
      · exact Ingest.held_pastBatch _ _
      · rfl
  case deadline =>
    intro s n g a hn hup hg hasm
    subst hg
    obtain ⟨b, hb, hfields, hdone⟩ := pastDeadline_asm s hasm
    refine ⟨fun h => ?_, fun hlen hempty c hcmd => ?_⟩
    · refine ⟨_, b, exec_batchDeadline hn hup hasm h, ?_, hb.length, hfields, hb.firstPos, hdone,
        fun x hx => getIngest_setIngest_ne _ _ _ _ hx, rfl, rfl⟩
      exact (congrArg Ingest.asm (getIngest_setIngest_same s n _)).trans hb.asm
    · obtain ⟨k, hexec⟩ := exec_batchDeadline_starved hn hup hasm hlen hempty
      have hstream := getIngest_setIngest_same s n (pastDeadline s (getIngest s n) a)
      obtain ⟨u, hended, hnone, hpos, hmem, hcmds⟩ :=
        failBatch_ended (s := tickFree (setIngest s n (pastDeadline s (getIngest s n) a))) (ingestStarved n k) hcmd
          ((congrArg Ingest.asm hstream).trans hb.asm)
      exact ⟨_, u, k, hexec, hended, hnone, hpos.trans hb.firstPos, hmem, hcmds⟩

end Sys2Proof.Machine
end

section
/-! Ports (R260-R276, R296): one port's record replaced, what the update count leaves of the ports, and what the loss of a port
leaves of it. -/

namespace Sys2Proof.Machine

/-! ## One port's record -/

/-- The last of two records put at one key stays. -/
@[simp] theorem mput_mput {α : Type} (m : Map α) (k : Nat) (v w : α) : mput (mput m k v) k w = mput m k w := by
  induction m with
  | nil => simp [mput]
  | cons e t ih =>
    rcases lt_trichotomy k e.1 with h | h | h
    · simp [mput, h]
    · simp [mput, h]
    · simp [mput, h.not_gt, h.ne', ih]

/-- The last of two records of one port stays. -/
@[simp] theorem setPort_setPort (s : State) (p : Nat) (v w : Port) : setPort (setPort s p v) p w = setPort s p w := by
  simp [setPort]

theorem Counted.getPort_eq {u t : State} (h : Counted u t) (p : Nat) : getPort t p = getPort u p := by rw [h]; rfl

theorem Ended.getPort_eq {s t : State} {c : Cmd} {e : Err} {w : Nat} (h : Ended s t c e w) (p : Nat) :
    getPort t p = getPort s p := by
  rw [h.rest]; rfl

@[simp] theorem getPort_capSync (s u : State) (p : Nat) : getPort (capSync s u) p = getPort u p :=
  (capSync_counted s u).getPort_eq p

@[simp] theorem capSync_cmds (s u : State) : (capSync s u).cmds = u.cmds := (capSync_counted s u).cmds_eq

@[simp] theorem getPort_logNote (s : State) (kind die unit : Nat) (info : Bytes) (p : Nat) :
    getPort (logNote s kind die unit info) p = getPort s p := by rw [logNote_rel]; rfl

@[simp] theorem logNote_cmds (s : State) (kind die unit : Nat) (info : Bytes) : (logNote s kind die unit info).cmds = s.cmds := by
  rw [logNote_rel]

@[simp] theorem getPort_tickFree (s : State) (p : Nat) : getPort (tickFree s) p = getPort s p := rfl

/-! ## The loss of a port (R276, R296) -/

/-- The best port of a group is up. -/
theorem bestOf_portUp {s : State} {d q : Nat} {g : List Nat} (h : bestOf s d g = some q) : portUp s q = true := by
  induction g generalizing q with
  | nil => cases h
  | cons a t ih =>
    simp only [bestOf] at h
    split at h
    · split at h
      · cases h; assumption
      · cases h
    · next b hb =>
      split at h
      · next hbest =>
        cases h
        exact (Bool.and_eq_true_iff.mp hbest).1
      · cases h; exact ih hb

/-- A message leaves on a port that is up. -/
theorem choosePort_portUp {s : State} {d q : Nat} {groups : List (List Nat)} (h : choosePort s d groups = some q) :
    portUp s q = true := by
  obtain ⟨g, -, hbest⟩ := List.exists_of_findSome?_eq_some h
  exact bestOf_portUp hbest

section
variable {s : State} {p : Nat} (hdown : portUp s p = false)
include hdown

/-- No message is queued on a port that is down. -/
theorem getPort_sendTx_of_down {s1 : State} {d : Nat} {m : TxMsg} (h : sendTx s d m = some s1) : getPort s1 p = getPort s p := by
  obtain ⟨q, hq, rfl⟩ := Option.map_eq_some_iff.mp h
  refine getPort_setPort_ne _ _ _ _ ?_
  rintro rfl
  exact Bool.false_ne_true (hdown.symm.trans (choosePort_portUp hq))

/-- A message that goes another way leaves a port that is down as it is. -/
theorem getPort_rerouteMsg (q : Nat) (m : TxMsg) : getPort (rerouteMsg q s m) p = getPort s p := by
  unfold rerouteMsg
  split
  · next hsent => exact getPort_sendTx_of_down hdown hsent
  · split
    · split
      · exact (complete_ended ..).getPort_eq p
      · rfl
    · unfold lostBlock
      dsimp only
      split <;> rfl

/-- So do all the messages of a list. -/
theorem getPort_foldl_rerouteMsg (q : Nat) (l : List TxMsg) : getPort (l.foldl (rerouteMsg q) s) p = getPort s p := by
  induction l generalizing s with
  | nil => rfl
  | cons m t ih =>
    have hstep := getPort_rerouteMsg hdown q m
    exact (ih (by rw [portUp, hstep]; exact hdown)).trans hstep

end

/-- A port as its loss leaves it (R276). -/
def Port.lost (v : Port) : Port :=
  { v with
    state := 0, gen := 0, width := 0, wentDown := true, planes := [], nextSeq := 0, replay := [], resendFrom := none,
    resends := 0, lastRewind := none, credits := [], expect := 0, accepted := none, sendNak := false, txQueue := [],
    txMsg := [], rx := [], owed := [], oldPhase := false }

/-- A port that goes down keeps nothing, whatever its messages do. -/
@[simp] theorem getPort_portDown (s : State) (p cause : Nat) : getPort (portDown s p cause) p = (getPort s p).lost := by
  unfold portDown portLost
  dsimp only
  rw [getPort_foldl_rerouteMsg (by simp [portUp]), getPort_setPort_same, getPort_logNote]
  rfl

end Sys2Proof.Machine
end

section
/-! Training of ports (R263-R266, R272): the generation that is chosen and its lanes, margins and coefficients of the lanes, the
end of a counting window, and the statement on training. -/

namespace Sys2Proof.Machine

/-! ## Maps of lanes -/

/-- A change of every record, where the reset record stays. -/
theorem mget_map {α : Type} {d : α} {f : α → α} (hd : f d = d) (m : Map α) (k : Nat) :
    mget d (m.map (fun e => (e.1, f e.2))) k = f (mget d m k) := by
  induction m with
  | nil => exact hd.symm
  | cons e t ih =>
    simp only [List.map_cons, mget, ih]
    split <;> rfl

/-- Changes of other records in turn. -/
theorem mget_foldl_mmod_of_notMem {α β : Type} (d : α) (f : β → α → α) {l : List (β × Nat)} {k : Nat} (h : k ∉ l.map (·.2))
    (m : Map α) : mget d (l.foldl (fun m e => mmod d m e.2 (f e.1)) m) k = mget d m k := by
  induction l generalizing m with
  | nil => rfl
  | cons e t ih =>
    obtain ⟨hne, ht⟩ : k ≠ e.2 ∧ k ∉ t.map (·.2) := by simpa only [List.map_cons, List.mem_cons, not_or] using h
    exact (ih ht _).trans (mget_mmod_ne d m e.2 k _ hne)

/-- Changes of records in turn, each record at most once. -/
theorem mget_foldl_mmod_of_mem {α β : Type} (d : α) (f : β → α → α) {l : List (β × Nat)} (hnodup : (l.map (·.2)).Nodup) {b : β}
    {k : Nat} (h : (b, k) ∈ l) (m : Map α) : mget d (l.foldl (fun m e => mmod d m e.2 (f e.1)) m) k = f b (mget d m k) := by
  induction l generalizing m with
  | nil => cases h
  | cons e t ih =>
    obtain ⟨hhead, ht⟩ := List.nodup_cons.mp hnodup
    rw [List.foldl_cons]
    rcases List.mem_cons.mp h with rfl | h
    · rw [mget_foldl_mmod_of_notMem d f hhead, mget_mmod_same]
    · have hkey : k ∈ t.map (·.2) := List.mem_map_of_mem h
      have hne : k ≠ e.2 := by rintro rfl; exact hhead hkey
      rw [ih ht h, mget_mmod_ne d m e.2 k _ hne]

/-- The places of a list's elements, as far as `n` reaches. -/
theorem map_snd_zip_range {α : Type} (l : List α) (n : Nat) : (l.zip (List.range n)).map (·.2) = List.range (min l.length n) :=
  List.ext_getElem (by simp) (fun i _ _ => by simp)

/-! ## An attempt (R263-R265) -/

/-- A lane good at a generation is a lane of the port that the partner's map does not name. -/
theorem lt_and_notMem_of_mem_goodLanes {v : Port} {rep : TrainReport} {gen l : Nat} (h : l ∈ goodLanes v rep gen) :
    l < 10 ∧ l ∉ rep.peerMap := by
  simp only [goodLanes, Port.usable, List.mem_filter, List.mem_range, Bool.and_eq_true, Bool.not_eq_true', List.contains_eq_mem,
    decide_eq_false_iff_not] at h
  exact ⟨h.1.1, h.2.1⟩

/-- Training ends at a generation of its range with the lanes good there, at least four. -/
theorem trainAt_some {v : Port} {rep : TrainReport} {g gen : Nat} {good : List Nat} (h : trainAt v rep g = some (gen, good)) :
    gen ≤ g ∧ good = goodLanes v rep gen ∧ 4 ≤ good.length := by
  induction g with
  | zero => cases h
  | succ g ih =>
    simp only [trainAt] at h
    split at h
    · next hlanes =>
      cases h
      exact ⟨le_rfl, rfl, hlanes⟩
    · obtain ⟨hle, hrest⟩ := ih h
      exact ⟨hle.trans (Nat.le_succ g), hrest⟩

/-- The generation that is chosen is one that both ends have and allow. -/
theorem chosenGen_le (v : Port) (rep : TrainReport) :
    chosenGen v rep ≤ 3 ∧ chosenGen v rep ≤ rep.peerGen ∧ chosenGen v rep ≤ v.genCap ∧ chosenGen v rep ≤ rep.peerCap := by
  unfold chosenGen
  omega

section
variable {s : State} {p : Nat} (hp : p < 24)
include hp

/-- An attempt that reaches a generation. -/
theorem exec_portTrainingAttempt_up {rep : TrainReport} {gen : Nat} {good : List Nat} (hmay : mayTrain s p = true)
    (hpeer : rep.peer = true) (hbound : rep.stepsInBound = true)
    (htrain : trainAt (getPort s p) rep (chosenGen (getPort s p) rep) = some (gen, good)) :
    exec (.portTrainingAttempt p rep) s = .next (capSync s (setPort s p ((getPort s p).trained rep gen good))) := by
  simp [exec, execPortTrainingAttempt, hp, hmay, hpeer, hbound, htrain]

/-- An attempt that meets no partner, runs out of time, or finds no generation with four lanes. -/
theorem exec_portTrainingAttempt_fails {rep : TrainReport} (hmay : mayTrain s p = true)
    (hfail : rep.peer = false ∨ rep.stepsInBound = false ∨ trainAt (getPort s p) rep (chosenGen (getPort s p) rep) = none) :
    exec (.portTrainingAttempt p rep) s = .next (setPort s p { getPort s p with state := 0 }) := by
  have hnone : (if rep.peer && rep.stepsInBound then trainAt (getPort s p) rep (chosenGen (getPort s p) rep) else none) = none := by
    rcases hfail with h | h | h <;> simp [h]
  simp only [exec, execPortTrainingAttempt, hp, decide_true, onUnit_true, hmay, if_true, hnone]

/-! ## Margins, coefficients and blames (R266, R272) -/

theorem exec_eqAdapt (margins : List Nat) (hup : portUp s p = true) :
    exec (.eqAdapt p margins) s = .next (setPort s p { getPort s p with
      lanes := (margins.zip (List.range 10)).foldl (fun m e => mmod Lane.reset m e.2 (fun x => { x with margin := e.1 % 65536 }))
        (getPort s p).lanes }) := by
  simp only [exec, execEqAdapt, hp, hup, decide_true, onUnit_true, if_true]

/-- A lane once one of its coefficients has moved a step. -/
def Lane.moved (x : Lane) (coeff : Nat) (up : Bool) (now : Nat) : Lane :=
  { x with fir := mmod 0 x.fir coeff (fun k => if up then k + 1 else k - 1), lastRequest := some now }

/-- A request to a lane whose last one is a millisecond old, or that had none. -/
theorem exec_eqRequest_moves {lane : Nat} (coeff : Nat) (up : Bool) (hup : portUp s p = true)
    (hidle : ((getPort s p).lane lane).lastRequest = none ∨
      ∃ a, ((getPort s p).lane lane).lastRequest = some a ∧ a + 25000 ≤ portTime s p) :
    exec (.eqRequest p lane coeff up) s = .next (setPort s p { getPort s p with
      lanes := mput (getPort s p).lanes lane (((getPort s p).lane lane).moved coeff up (portTime s p)) }) := by
  rcases hidle with h | ⟨a, ha, hlate⟩
  · simp [exec, execEqRequest, hp, hup, h, Lane.moved]
  · simp [exec, execEqRequest, hp, hup, ha, oneMs, hlate.not_gt, Lane.moved]

/-- A request within a millisecond of the last one. -/
theorem exec_eqRequest_soon {lane a : Nat} (coeff : Nat) (up : Bool) (ha : ((getPort s p).lane lane).lastRequest = some a)
    (hsoon : portTime s p < a + 25000) : exec (.eqRequest p lane coeff up) s = .next s := by
  simp [exec, execEqRequest, hp, ha, oneMs, hsoon]

/-- A port once a counting window has ended: the codewords of the window are free. -/
def windowEnded (s : State) (v : Port) : Port :=
  let v1 := { v with lanes := v.lanes.map (fun e => (e.1, { e.2 with blame := 0 })) }
  if v.gen < 2 then v1 else { v1 with
    pfeccor := satAdd 64 v1.pfeccor (Config.freeWord s.freeCtr).toNat,
    pfecunc := satAdd 32 v1.pfecunc (Config.freeWord (s.freeCtr + 1)).toNat }

theorem exec_fecWindowEnd (hup : portUp s p = true) :
    exec (.fecWindowEnd p) s = .next (tickFree (tickFree (setPort s p (windowEnded s (getPort s p))))) := by
  simp only [exec, execFecWindowEnd, hp, hup, decide_true, onUnit_true, if_true]
  rfl

end

/-- The window's end leaves no lane blamed. -/
theorem blame_windowEnded (s : State) (v : Port) (l : Nat) : ((windowEnded s v).lane l).blame = 0 := by
  have hlane : (windowEnded s v).lane l = { v.lane l with blame := 0 } := by
    unfold windowEnded
    dsimp only
    split <;> exact mget_map (f := fun x : Lane => { x with blame := 0 }) rfl v.lanes l
  rw [hlane]

/-- Settles O49: an attempt by the generation and lanes it reaches; margins, coefficients and blames by the lane each change is
on. -/
theorem portsTrainToTheBestGeneration : Obligations.PortsTrainToTheBestGeneration := by
  unfold Obligations.PortsTrainToTheBestGeneration
  refine ⟨?up, ?notUp, ?margins, ?moves, ?soon, ?down, ?window⟩
  case up =>
    intro s p gen rep good hp hmay hpeer hbound htrain
    obtain ⟨hgen, hgood, hfour⟩ := trainAt_some htrain
    obtain ⟨h3, hpeerGen, hcap, hpeerCap⟩ := chosenGen_le (getPort s p) rep
    refine ⟨_, exec_portTrainingAttempt_up hp hmay hpeer hbound htrain, ?_⟩
    rw [getPort_capSync, getPort_setPort_same, capSync_mem, capSync_cmds]
    refine ⟨rfl, rfl, by omega, by omega, by omega, by omega, hfour, ?_, ?_, fun l hl => ?_, rfl, rfl, rfl,
      fun x hx => (getPort_capSync _ _ _).trans (getPort_setPort_ne _ _ _ _ hx), setPort_mem _ _ _, setPort_cmds _ _ _⟩
    · simp [Port.trained, Port.linkStart]
    · simp [Port.trained, Port.linkStart]
    · exact lt_and_notMem_of_mem_goodLanes (hgood ▸ hl)
  case notUp =>
    intro s p rep hp
    refine ⟨fun hmay => exec_portTrainingAttempt_fails hp hmay, fun hmay => ?_, fun hmay => ⟨?_, ?_⟩⟩
    · simp [exec, execPortTrainingRetry, hp, hmay]
    · simp [exec, execPortTrainingAttempt, hp, hmay]
    · simp [exec, execPortTrainingRetry, hp, hmay]
  case margins =>
    intro s p margins hp hup
    refine ⟨_, exec_eqAdapt hp margins hup, ?_⟩
    rw [getPort_setPort_same]
    have hkeys := map_snd_zip_range margins 10
    refine ⟨fun l m hl hm => ?_, fun l hl => ?_, rfl⟩
    · have hmem : (m, l) ∈ margins.zip (List.range 10) :=
        List.mem_iff_getElem?.mpr ⟨l, by simp [List.getElem?_zip_eq_some, hm, hl]⟩
      exact congrArg Lane.margin (mget_foldl_mmod_of_mem Lane.reset (fun b (x : Lane) => { x with margin := b % 65536 })
        (hkeys ▸ List.nodup_range) hmem (getPort s p).lanes)
    · refine mget_foldl_mmod_of_notMem Lane.reset (fun b (x : Lane) => { x with margin := b % 65536 }) ?_ _
      rw [hkeys, List.mem_range]
      omega
  case moves =>
    intro s p lane coeff up x hp hup hx hidle
    subst hx
    refine ⟨_, exec_eqRequest_moves hp coeff up hup hidle, ?_⟩
    rw [getPort_setPort_same]
    have hlane := mget_mput_same Lane.reset (getPort s p).lanes lane (((getPort s p).lane lane).moved coeff up (portTime s p))
    refine ⟨?_, congrArg Lane.lastRequest hlane, fun l hl => mget_mput_ne _ _ _ _ _ hl, rfl⟩
    rw [Port.lane, hlane, Lane.moved, mget_mmod_same]
    split <;> rfl
  case soon =>
    intro s p lane coeff a up hp ha hsoon
    exact exec_eqRequest_soon hp coeff up ha hsoon
  case down =>
    intro s p lane coeff up margins hp hdown
    refine ⟨?_, ?_, ?_⟩
    · simp [exec, execEqRequest, hp, hdown]
    · simp [exec, execEqAdapt, hp, hdown]
    · simp [exec, execFecWindowEnd, hp, hdown]
  case window =>
    intro s p hp hup
    refine ⟨_, exec_fecWindowEnd hp hup, ?_⟩
    simp only [getPort_tickFree, getPort_setPort_same]
    refine ⟨blame_windowEnded s _, fun hgen => ?_, fun x hx => getPort_setPort_ne _ _ _ _ hx, rfl, rfl⟩
    simp [windowEnded, hgen]

end Sys2Proof.Machine
end

section
/-! Port controls (R271, R276, R278, R296): what a write of 0 to the enable bit leaves of the port and of the memory, and a port
whose one message belongs to a command in flight. -/

namespace Sys2Proof.Machine

/-! ## A port that is disabled (R271) -/

section
variable {s : State}

/-- PORT_DISABLE through a source that reaches the registers. -/
theorem exec_portDisable {src : Source} {p : Nat} (hsrc : sourceUp s src = true) (hp : p < 24) :
    exec (.portDisable src p) s = .next (capSync s (portDisable s p)) := by simp [exec, execPortDisable, hsrc, hp]

/-- An enabled port that is not down goes down. -/
theorem portDisable_down {p : Nat} (hon : (getPort s p).enable = true) (hstate : (getPort s p).state ≠ 0) :
    portDisable s p = portDown (setPort s p { getPort s p with enable := false }) p 4 := by simp [portDisable, hon, hstate]

/-- A message of no command in flight goes another way, or is lost, and leaves the memory and the commands. -/
theorem rerouteMsg_keeps (q : Nat) {m : TxMsg} (h : ∀ c, m.cid.bind (findCmd s) = some c → c.inFlight = false) :
    (rerouteMsg q s m).mem = s.mem ∧ (rerouteMsg q s m).cmds = s.cmds := by
  unfold rerouteMsg
  split
  · next hsent => exact ⟨sendTx_mem _ _ _ _ hsent, sendTx_cmds hsent⟩
  · split
    · next c hc =>
      rw [h c hc]
      exact ⟨rfl, rfl⟩
    · refine ⟨lostBlock_mem s m, ?_⟩
      unfold lostBlock
      dsimp only
      split <;> rfl

/-- So do all the messages of a list. -/
theorem foldl_rerouteMsg_keeps (q : Nat) {l : List TxMsg} (h : ∀ m ∈ l, ∀ c, m.cid.bind (findCmd s) = some c → c.inFlight = false) :
    (l.foldl (rerouteMsg q) s).mem = s.mem ∧ (l.foldl (rerouteMsg q) s).cmds = s.cmds := by
  induction l generalizing s with
  | nil => exact ⟨rfl, rfl⟩
  | cons m t ih =>
    obtain ⟨hmem, hcmds⟩ := rerouteMsg_keeps q (h m List.mem_cons_self)
    have hfind : findCmd (rerouteMsg q s m) = findCmd s := by
      funext n
      rw [findCmd, hcmds]
      rfl
    obtain ⟨htmem, htcmds⟩ := ih (fun x hx c hc => h x (List.mem_cons_of_mem m hx) c (hfind ▸ hc))
    exact ⟨htmem.trans hmem, htcmds.trans hcmds⟩

/-- The loss of a port leaves the memory where none of its messages belongs to a command in flight. -/
theorem portDown_mem {p : Nat} (cause : Nat)
    (h : ∀ m ∈ (getPort s p).txQueue, ∀ c, m.cid.bind (findCmd s) = some c → c.inFlight = false) :
    (portDown s p cause).mem = s.mem := by
  have hfind : findCmd (logNote s 0x1A (linkDie p) p (toLe 1 cause)) = findCmd s := by
    funext n
    rw [findCmd, logNote_cmds]
    rfl
  have hkept := (foldl_rerouteMsg_keeps p (s := setPort (logNote s 0x1A (linkDie p) p (toLe 1 cause)) p (getPort s p).lost)
    (l := (getPort s p).txQueue) (fun m hm c hc => h m hm c (hfind ▸ hc))).1
  rw [setPort_mem, logNote_mem] at hkept
  unfold portDown portLost
  dsimp only
  rw [getPort_logNote]
  exact hkept

/-- What the statement on a port that is disabled says holds where none of the port's messages belongs to a command in flight. -/
theorem exec_portDisable_mem {src : Source} {p : Nat} (hsrc : sourceUp s src = true) (hp : p < 24)
    (hon : (getPort s p).enable = true) (hstate : (getPort s p).state ≠ 0)
    (h : ∀ m ∈ (getPort s p).txQueue, ∀ c, m.cid.bind (findCmd s) = some c → c.inFlight = false) :
    ∃ t, exec (.portDisable src p) s = .next t ∧ getPort t p = { (getPort s p).lost with enable := false } ∧ t.mem = s.mem := by
  refine ⟨_, exec_portDisable hsrc hp, ?_, ?_⟩
  · rw [getPort_capSync, portDisable_down hon hstate, getPort_portDown, getPort_setPort_same]
    rfl
  · rw [capSync_mem, portDisable_down hon hstate]
    exact portDown_mem 4 (by rwa [getPort_setPort_same])

end

/-! ## A command whose message is on the port (R48, R276, R296) -/

/-- A collective in flight that has claimed 64 bytes of its output. -/
def claimant : Cmd := { largeTile with opcode := 0x0303 }

/-- A message of it, not yet sent, whose direction has port 23 alone. -/
def claimantMsg : TxMsg :=
  { cls := 1, phase := 0, laxis := 0, cid := some claimant.cid, level := 0, groups := [[23]], data := List.replicate 16 0,
    sent := 0, num := none }

/-- A module with power on K in which port 23 alone is up, with that message. -/
def onePortUp : State :=
  setPort { State.reset with
    cmds := [claimant], power := { Power.reset with domains := [94, 95] },
    mem := { Memory.reset with claims := [{ cid := claimant.cid, start := 0, len := 64, serial := 1, fresh := [] }] } }
    23 { Port.reset with state := 2, txQueue := [claimantMsg] }

/-- With the port disabled the command is over, with LINK_LOST, and so is its claim. -/
theorem onePortUp_claims : (portDisable onePortUp 23).mem.claims = [] := by decide +kernel

/-- Refutes O50: the clause of a port that is up and is disabled says that the memory stays as it is. On `onePortUp` no port but
23 takes the message of `claimant`, which then ends with LINK_LOST (R276, R296), and its claim on 64 bytes ends with it (R48). Where
no message of the port belongs to a command in flight the clause holds (`exec_portDisable_mem`). -/
theorem not_portControlsTakeEffect : ¬ Obligations.PortControlsTakeEffect := by
  unfold Obligations.PortControlsTakeEffect
  intro h
  have hsrc : sourceUp onePortUp .dataPort = true := by decide +kernel
  have hport : getPort onePortUp 23 = { Port.reset with state := 2, txQueue := [claimantMsg] } := getPort_setPort_same _ _ _
  obtain ⟨-, -, -, -, hdisabled, -⟩ := h onePortUp .dataPort 23 _ hsrc (by decide) hport.symm
  obtain ⟨t, hexec, -, -, -, -, hmem⟩ := hdisabled rfl (by decide)
  obtain rfl : capSync onePortUp (portDisable onePortUp 23) = t :=
    Host.Outcome.next.inj ((exec_portDisable hsrc (by decide)).symm.trans hexec)
  have hclaims : onePortUp.mem.claims = [] := by rw [← hmem, capSync_mem, onePortUp_claims]
  exact absurd hclaims (by decide +kernel)

end Sys2Proof.Machine
end

section
/-! Lanes, silence and phases (R271-R276, R283): a lane that fails for good and what takes its place, a lane that retrains, a port
that falls silent, a port that switches phase, and the statement on them. -/

namespace Sys2Proof.Machine

/-! ## A lane that is lost (R273, R275) -/

/-- A port whose lane `l` has failed for good in this power cycle. -/
def Port.retire (v : Port) (l : Nat) : Port :=
  ({ v with lanes := mmod Lane.reset v.lanes l (fun x => { x with retired := true }) } : Port).loseLane l

theorem Port.lane_retire_same (v : Port) (l : Nat) : (v.retire l).lane l = { v.lane l with retired := true } :=
  mget_mmod_same Lane.reset v.lanes l (fun x => { x with retired := true })

theorem Port.lane_retire_ne (v : Port) {l x : Nat} (h : x ≠ l) : (v.retire l).lane x = v.lane x :=
  mget_mmod_ne Lane.reset v.lanes l x (fun x => { x with retired := true }) h

/-- A lane that may carry flits is in neither map and not retired. -/
theorem Port.mem_usable {v : Port} {x : Nat} :
    x ∈ v.usable ↔ x < 10 ∧ x ∉ v.fused ∧ x ∉ v.nonVolatile ∧ (v.lane x).retired = false := by
  simp [Port.usable, and_assoc]

/-- An element of a set with one more is the one, or was in it. -/
theorem mem_addTo_iff {l : List Nat} {n x : Nat} : x ∈ addTo l n ↔ x = n ∨ x ∈ l := by
  unfold addTo
  split
  · next h =>
    have hn : n ∈ l := by simpa using h
    refine ⟨.inr, ?_⟩
    rintro (rfl | hx)
    · exact hn
    · exact hx
  · rcases lt_trichotomy x n with h | h | h
    · simp [h, h.ne, h.not_gt]
    · simp [h]
    · simp [h, h.ne', h.not_gt]

/-- The map of lost lanes may have gained the lane, and no other. -/
theorem Port.mem_nonVolatile_retire {v : Port} {l x : Nat} (h : x ≠ l) : x ∈ (v.retire l).nonVolatile ↔ x ∈ v.nonVolatile := by
  unfold Port.retire Port.loseLane
  dsimp only
  split
  · simp [mem_addTo_iff, h]
  · rfl

/-- A lost lane is out of use, every other lane as before. -/
theorem Port.mem_usable_retire {v : Port} {l x : Nat} : x ∈ (v.retire l).usable ↔ x ≠ l ∧ x ∈ v.usable := by
  by_cases hx : x = l
  · subst hx
    simp [Port.mem_usable, Port.lane_retire_same]
  · rw [Port.mem_usable, Port.mem_usable, Port.lane_retire_ne v hx, Port.mem_nonVolatile_retire hx]
    exact (and_iff_right hx).symm

/-- The spare lanes of a port whose lane `l` is lost: not excluded at training, not in use. -/
def Port.spares (v : Port) (l : Nat) : List Nat := (v.retire l).usable.filter (fun x => !v.excluded.contains x && !v.planes.contains x)

theorem Port.mem_spares {v : Port} {l x : Nat} : x ∈ v.spares l ↔ (x ≠ l ∧ x ∈ v.usable) ∧ x ∉ v.excluded ∧ x ∉ v.planes := by
  simp [Port.spares, Port.mem_usable_retire]

/-- The lanes of a list of lanes in use stand in rising order. -/
theorem Port.usable_sorted (v : Port) : v.usable.Pairwise (· < ·) := (List.pairwise_lt_range (n := 10)).filter _

/-- The first spare lane is the lowest. -/
theorem Port.spares_eq_cons {v : Port} {l n : Nat} (hn : n ∈ v.spares l) (hleast : ∀ y ∈ v.spares l, n ≤ y) :
    ∃ rest, v.spares l = n :: rest := by
  have hsorted : (v.spares l).Pairwise (· < ·) := ((v.retire l).usable_sorted).filter _
  cases hlist : v.spares l with
  | nil => rw [hlist] at hn; cases hn
  | cons a t =>
    rw [hlist] at hn hleast hsorted
    rcases List.mem_cons.mp hn with rfl | ht
    · exact ⟨t, rfl⟩
    · exact absurd ((List.pairwise_cons.mp hsorted).1 n ht) (hleast a List.mem_cons_self).not_gt

/-- A port once spare lane `n` has taken the place of the lost lane `l` (R274). -/
def Port.spared (v : Port) (l n : Nat) : Port :=
  { v.retire l with planes := v.planes.map (fun x => if x = l then n else x), resendFrom := v.oldestSeq }

/-- A port once it has narrowed to four of the lanes left (R274). -/
def Port.narrow (v : Port) (l : Nat) : Port :=
  { v.retire l with
    planes := ((v.retire l).usable.filter (fun x => !v.excluded.contains x)).take 4, width := 4, narrowed := true
    resendFrom := v.oldestSeq }

section
variable {s : State} {p l : Nat}

/-- The three ends of a lasting failure, with the names above. -/
theorem lastingFailure_eq : lastingFailure s p l =
    if (getPort s p).width = 4 then portDown (setPort s p ((getPort s p).retire l)) p 3
    else
      match (getPort s p).spares l with
      | n :: _ => setPort s p ((getPort s p).spared l n)
      | [] => logNote (setPort s p ((getPort s p).narrow l)) 0x1B (linkDie p) p
          (toLe 2 (maskOf ((List.range 10).filter (fun x => (((getPort s p).retire l).lane x).retired)))) := rfl

/-- On four lanes there is nothing to give. -/
theorem lastingFailure_down (hwidth : (getPort s p).width = 4) :
    lastingFailure s p l = portDown (setPort s p ((getPort s p).retire l)) p 3 := if_pos hwidth

/-- The first spare lane takes the place. -/
theorem lastingFailure_spare {n : Nat} {rest : List Nat} (hwidth : (getPort s p).width ≠ 4)
    (hspare : (getPort s p).spares l = n :: rest) : lastingFailure s p l = setPort s p ((getPort s p).spared l n) := by
  rw [lastingFailure_eq, if_neg hwidth, hspare]

/-- Without a spare lane the port narrows, and the log says so. -/
theorem lastingFailure_narrows (hwidth : (getPort s p).width ≠ 4) (hnone : (getPort s p).spares l = []) :
    ∃ info, lastingFailure s p l = logNote (setPort s p ((getPort s p).narrow l)) 0x1B (linkDie p) p info := by
  rw [lastingFailure_eq, if_neg hwidth, hnone]
  exact ⟨_, rfl⟩

/-- A port once its lane `l` has retrained (R273). -/
def Port.retrained (v : Port) (l now : Nat) : Port :=
  { v with
    lanes := mput v.lanes l { v.lane l with transients := satAdd 8 (v.lane l).transients 1, lastTransient := some now }
    resendFrom := v.oldestSeq }

/-- A lane that is not in use cannot fail. -/
theorem failLane_unused (ok : Bool) (h : portUp s p = false ∨ l ∉ (getPort s p).planes) : failLane s p l ok = s := by
  refine if_pos ?_
  rcases h with h | h <;> simp [h]

section
variable (hup : portUp s p = true) (hl : l ∈ (getPort s p).planes)
include hup hl

/-- A lane that retrains, and did not fail in the last 10 s. -/
theorem failLane_retrains (hlate : ((getPort s p).lane l).lastTransient = none ∨
      ∃ a, ((getPort s p).lane l).lastTransient = some a ∧ a + 250000000 ≤ portTime s p) :
    failLane s p l true = setPort s p ((getPort s p).retrained l (portTime s p)) := by
  rcases hlate with h | ⟨a, ha, hold⟩
  · simp [failLane, hup, hl, h, Port.retrained]
  · simp [failLane, hup, hl, ha, tenSeconds, hold.not_gt, Port.retrained]

/-- A lane that does not retrain, or failed in the last 10 s. -/
theorem failLane_lasts {ok : Bool} (hfails : ok = false ∨
      ∃ a, ((getPort s p).lane l).lastTransient = some a ∧ portTime s p < a + 250000000) :
    failLane s p l ok = lastingFailure s p l := by
  rcases hfails with rfl | ⟨a, ha, hsoon⟩
  · simp [failLane, hup, hl]
  · simp [failLane, hup, hl, ha, tenSeconds, hsoon]

end

/-! ## The rows -/

section
variable (hp : p < 24)
include hp

theorem exec_laneFailure (l : Nat) (ok : Bool) : exec (.laneFailure p l ok) s = .next (capSync s (failLane s p l ok)) := by
  simp [exec, execLaneFailure, hp]

theorem exec_portSilenceTimeout (hup : portUp s p = true) :
    exec (.portSilenceTimeout p) s = .next (capSync s (portDown s p 1)) := by
  simp only [exec, execPortSilenceTimeout, hp, hup, decide_true, onUnit_true, if_true]

/-- A message of an earlier phase, or none, decides on the switch (R283). -/
theorem exec_portPhaseSwitch : exec (.portPhaseSwitch p) s =
    .next (if (getPort s p).oldPhase = true ∧ ∀ m ∈ (getPort s p).txQueue, m.phase = 0 ∨ m.phase = s.peers.epoch then
      setPort s p { getPort s p with oldPhase := false, slotUse := [] } else s) := by
  simp [exec, execPortPhaseSwitch, hp]

end

end

/-- Settles O52: a failed lane by whether it lasts, a lasting failure by what the port has left. -/
theorem lanesFailOverOrThePortGoesDown : Obligations.LanesFailOverOrThePortGoesDown := by
  unfold Obligations.LanesFailOverOrThePortGoesDown
  refine ⟨?retrains, ?spare, ?narrows, ?down, ?unused, ?silent, ?phase⟩
  case retrains =>
    intro s p l v x hp hv hup hl hx hlate
    subst hv hx
    refine ⟨_, exec_laneFailure hp l true, ?_⟩
    rw [failLane_retrains hup hl hlate, getPort_capSync, getPort_setPort_same, capSync_mem, capSync_cmds]
    have hlane := mget_mput_same Lane.reset (getPort s p).lanes l { (getPort s p).lane l with
      transients := satAdd 8 ((getPort s p).lane l).transients 1, lastTransient := some (portTime s p) }
    exact ⟨congrArg Lane.transients hlane, congrArg Lane.lastTransient hlane, rfl, rfl,
      fun y hy => (getPort_capSync _ _ _).trans (getPort_setPort_ne _ _ _ _ hy), setPort_mem _ _ _, setPort_cmds _ _ _⟩
  case spare =>
    intro s p l n ok v hp hv hup hl hwidth hfails hn hne hfused hmap hretired hexcluded hplanes hleast
    subst hv
    have hmem : n ∈ (getPort s p).spares l :=
      Port.mem_spares.mpr ⟨⟨hne, Port.mem_usable.mpr ⟨hn, hfused, hmap, hretired⟩⟩, hexcluded, hplanes⟩
    obtain ⟨rest, hspares⟩ := Port.spares_eq_cons hmem fun y hy => by
      obtain ⟨⟨hyl, hyu⟩, hye, hyp⟩ := Port.mem_spares.mp hy
      obtain ⟨hy10, hyf, hym, hyr⟩ := Port.mem_usable.mp hyu
      exact hleast y hy10 hyl hyf hym hyr hye hyp
    refine ⟨_, exec_laneFailure hp l ok, ?_⟩
    rw [failLane_lasts hup hl hfails, lastingFailure_spare hwidth hspares, getPort_capSync, getPort_setPort_same, capSync_cmds]
    exact ⟨rfl, congrArg Lane.retired ((getPort s p).lane_retire_same l), rfl, rfl,
      fun y hy => (getPort_capSync _ _ _).trans (getPort_setPort_ne _ _ _ _ hy), setPort_cmds _ _ _⟩
  case narrows =>
    intro s p l ok v hp hv hup hl hwidth hfails hnone
    subst hv
    have hspares : (getPort s p).spares l = [] := List.eq_nil_iff_forall_not_mem.mpr fun y hy => by
      obtain ⟨⟨hyl, hyu⟩, hye, hyp⟩ := Port.mem_spares.mp hy
      obtain ⟨hy10, hyf, hym, hyr⟩ := Port.mem_usable.mp hyu
      simpa [hye, hyp, hyf, hym, hyr] using hnone y hy10 hyl
    obtain ⟨info, hfailed⟩ := lastingFailure_narrows hwidth hspares
    refine ⟨_, exec_laneFailure hp l ok, ?_⟩
    rw [failLane_lasts hup hl hfails, hfailed, getPort_capSync, getPort_logNote, getPort_setPort_same, capSync_cmds, logNote_cmds]
    refine ⟨rfl, rfl, List.length_take_le _ _, fun hleft => ?_, rfl, setPort_cmds _ _ _⟩
    exact (Port.mem_usable_retire.mp (List.mem_of_mem_filter (List.mem_of_mem_take hleft))).1 rfl
  case down =>
    intro s p l ok v hp hv hup hl hwidth hfails
    subst hv
    refine ⟨_, exec_laneFailure hp l ok, ?_⟩
    rw [failLane_lasts hup hl hfails, lastingFailure_down hwidth, getPort_capSync, getPort_portDown]
    exact ⟨rfl, rfl⟩
  case unused =>
    intro s p l ok hp h
    rw [exec_laneFailure hp, failLane_unused ok h, capSync_self]
  case silent =>
    intro s p hp
    refine ⟨fun hup => ⟨_, exec_portSilenceTimeout hp hup, ?_⟩, fun hdown => ?_⟩
    · rw [getPort_capSync, getPort_portDown]
      exact ⟨rfl, rfl, rfl, rfl⟩
    · simp [exec, execPortSilenceTimeout, hp, hdown]
  case phase =>
    intro s p hp
    refine ⟨fun hold hnone => ?_, fun ⟨m, hm, hphase, hepoch⟩ => ?_⟩
    · rw [exec_portPhaseSwitch hp, if_pos ⟨hold, hnone⟩]
    · rw [exec_portPhaseSwitch hp, if_neg fun ⟨_, hnone⟩ => (hnone m hm).elim hphase hepoch]

end Sys2Proof.Machine
end

section
/-! Flits (R267-R270): what leaves in a flit slot, what a flit that comes in leaves of the port and of the module, a replay that
times out, and the statement on flits. -/

namespace Sys2Proof.Machine

/-! ## A flit's bytes (R267) -/

/-- A flit has 256 bytes. -/
theorem length_buildFlit (typ cls len msg frag : Nat) (payload : Bytes) (w : Nat) :
    (buildFlit typ cls len msg frag payload w).length = 256 := by simp [buildFlit]

/-- Its first byte is its type. -/
theorem field_buildFlit_type {typ : Nat} (h : typ < 256) (cls len msg frag : Nat) (payload : Bytes) (w : Nat) :
    field (buildFlit typ cls len msg frag payload w) 0 1 = typ := by
  simp [field, buildFlit, slice, toLe, leNat, Nat.mod_eq_of_lt h]

/-! ## A flit slot (R268, R269) -/

/-- What a flit that leaves makes of its port. -/
theorem getPort_outFlit (s : State) (p : Nat) (v : Port) (b : Bytes) : getPort (outFlit s p v b) p = { v with sendNak := false } :=
  getPort_setPort_same s p { v with sendNak := false }

theorem getPort_outFlit_ne (s : State) {p x : Nat} (v : Port) (b : Bytes) (h : x ≠ p) : getPort (outFlit s p v b) x = getPort s x :=
  getPort_setPort_ne s p x { v with sendNak := false } h

theorem outFlit_cmds (s : State) (p : Nat) (v : Port) (b : Bytes) : (outFlit s p v b).cmds = s.cmds := rfl

/-- The NULL flit that a port sends where it has nothing else to send. -/
def sendNull (s : State) (p : Nat) (v : Port) : State :=
  outFlit s p { v with resendFrom := none, sinceShort := v.sinceShort + 1 } (buildFlit 0 0 0 0 0 [] (seqack v 0))

/-- No class of a port is owed a credit where each is owed none. -/
theorem owed_any_eq_false {owed : Map Nat} (h : ∀ e ∈ owed, e.2 = 0) : owed.any (fun e => decide (0 < e.2)) = false := by
  simpa using h

section
variable {s : State} {p : Nat} {v : Port} (hv : v = getPort s p)
include hv

/-- A full replay buffer leaves NULL alone. -/
theorem flitSlot_full (hresend : v.resendFrom = none) (hfull : 512 ≤ v.replay.length) : flitSlot s p = sendNull s p v := by
  subst hv
  simp [flitSlot, hresend, hfull, sendNull]

/-- With no credit owed and nothing queued NULL is left. -/
theorem flitSlot_idle (hresend : v.resendFrom = none) (howed : ∀ e ∈ v.owed, e.2 = 0) (hempty : nextMsg s p v = none) :
    flitSlot s p = sendNull s p v := by
  subst hv
  simp [flitSlot, hresend, owed_any_eq_false howed, hempty, sendNull]

/-- With no credit owed the next message sends a fragment. -/
theorem flitSlot_sends {m : TxMsg} (hresend : v.resendFrom = none) (hroom : v.replay.length < 512) (howed : ∀ e ∈ v.owed, e.2 = 0)
    (hmsg : nextMsg s p v = some m) : flitSlot s p = sendFragment s p v m := by
  subst hv
  simp [flitSlot, hresend, hroom.not_ge, owed_any_eq_false howed, hmsg]

/-- The oldest flit is resent with its acknowledgement as of now; the next one follows. -/
theorem flitSlot_resends {q : Nat} {b : Bytes} {rest : List (Nat × Bytes)} (hreplay : v.replay = (q, b) :: rest)
    (hresend : v.resendFrom = some q) : flitSlot s p = outFlit s p { v with
      resendFrom := rest.head?.map (fun e => e.1), preplay := satAdd 32 v.preplay 1 } (freshen v q b) := by
  subst hv
  simp [flitSlot, hresend, hreplay]

end

/-- With nothing queued no message is next. -/
theorem nextMsg_of_nil {s : State} {p : Nat} {v : Port} (h : v.txQueue = []) : nextMsg s p v = none := by
  simp [nextMsg, h, leastServed]

/-- A fragment that leaves takes the next number, a place in the replay buffer and a credit of its class. -/
theorem sendFragment_spec (s : State) (p : Nat) (v : Port) (m : TxMsg) :
    ∃ b u, sendFragment s p v m = outFlit s p u b ∧ field b 0 1 = 1 ∧ u.planes = v.planes ∧ u.nextSeq = (v.nextSeq + 1) % 4096 ∧
      u.replay = v.replay ++ [(v.nextSeq, b)] ∧ u.credit m.cls = v.credit m.cls - 1 :=
  ⟨_, _, rfl, field_buildFlit_type (by decide) .., rfl, rfl, rfl, mget_mput_same 64 v.credits m.cls _⟩

/-! ## A flit comes in (R269) -/

/-- What the mirrors that are valid with an acknowledgement leave of the ports. -/
@[simp] theorem getPort_landMirrors (s : State) (p : Nat) : getPort (landMirrors s) p = getPort s p := rfl

@[simp] theorem landMirrors_cmds (s : State) : (landMirrors s).cmds = s.cmds := rfl

/-- `t` has what port `p` of `s` tells its partner, and the memory and the commands of `s`. -/
structure ReceiverKept (p : Nat) (s t : State) : Prop where
  expect : (getPort t p).expect = (getPort s p).expect
  accepted : (getPort t p).accepted = (getPort s p).accepted
  nak : (getPort t p).sendNak = (getPort s p).sendNak
  mem : t.mem = s.mem
  cmds : t.cmds = s.cmds

/-- A message that leaves changes what waits on a port alone. -/
theorem sendTx_receiverKept {s s1 : State} {d : Nat} {m : TxMsg} (p : Nat) (h : sendTx s d m = some s1) : ReceiverKept p s s1 := by
  obtain ⟨q, -, rfl⟩ := Option.map_eq_some_iff.mp h
  by_cases hq : p = q
  · subst hq
    constructor <;> simp [enqueueMsg]
  · constructor <;> simp [enqueueMsg, getPort_setPort_ne _ _ _ _ hq]

/-- So does a message that came in and is kept, passed on or discarded. -/
theorem deliverMsg_receiverKept (s : State) (p q cls : Nat) (data : Bytes) : ReceiverKept p s (deliverMsg s q cls data) := by
  unfold deliverMsg
  dsimp only
  split
  · exact ⟨rfl, rfl, rfl, rfl, rfl⟩
  · split
    · cases hsent : sendTx s (if q < 12 then 0 else 1) _ with
      | none => exact ⟨rfl, rfl, rfl, rfl, rfl⟩
      | some s1 => exact sendTx_receiverKept p hsent
    · exact ⟨rfl, rfl, rfl, rfl, rfl⟩

theorem ReceiverKept.trans {p : Nat} {a b c : State} (h : ReceiverKept p a b) (g : ReceiverKept p b c) : ReceiverKept p a c :=
  ⟨g.expect.trans h.expect, g.accepted.trans h.accepted, g.nak.trans h.nak, g.mem.trans h.mem, g.cmds.trans h.cmds⟩

/-- A record of the port that tells the same. -/
theorem setPort_receiverKept (s : State) (p : Nat) {v w : Port} (he : w.expect = v.expect) (ha : w.accepted = v.accepted)
    (hn : w.sendNak = v.sendNak) : ReceiverKept p (setPort s p v) (setPort s p w) := by
  constructor <;> simp [he, ha, hn]

/-- What an accepted flit carries changes neither what the port expects nor what it tells. -/
theorem takeFlit_receiverKept (s : State) (p : Nat) (v : Port) (b : Bytes) : ReceiverKept p (setPort s p v) (takeFlit s p v b) := by
  unfold takeFlit
  dsimp only
  split
  · exact setPort_receiverKept s p rfl rfl rfl
  · split
    · split
      · exact setPort_receiverKept s p rfl rfl rfl
      · exact setPort_receiverKept s p rfl rfl rfl
    · split
      · exact setPort_receiverKept s p rfl rfl rfl
      · split
        · refine .trans ?_ (deliverMsg_receiverKept _ p p _ _)
          exact setPort_receiverKept s p rfl rfl rfl
        · exact setPort_receiverKept s p rfl rfl rfl

/-- A port once it has accepted the flit that it expects. -/
def Port.accepting (v : Port) : Port := { v with expect := (v.expect + 1) % 4096, accepted := some v.expect, sendNak := false }

section
variable {s : State} {p : Nat} {flit : Bytes} (hstate : (getPort s p).state = 2) (hnak : bit (field flit 0xF8 4) 25 = false)
include hstate hnak

/-- A flit out of order without acknowledgement fields asks for a resend. -/
theorem goodFlit_outOfOrder (hack : bit (field flit 0xF8 4) 24 = false) (htyp : field flit 0 1 ≠ 0)
    (hseq : field flit 0xF8 4 % 4096 ≠ (getPort s p).expect) :
    goodFlit s p flit = setPort s p { getPort s p with sendNak := true } := by
  simp [goodFlit, hstate, hnak, hack, htyp, hseq]

/-- A flit in order without acknowledgement fields is accepted. -/
theorem goodFlit_inOrder (hack : bit (field flit 0xF8 4) 24 = false) (htyp : field flit 0 1 ≠ 0)
    (hseq : field flit 0xF8 4 % 4096 = (getPort s p).expect) :
    goodFlit s p flit = takeFlit (setPort s p (getPort s p)) p (getPort s p).accepting flit := by
  simp [goodFlit, hstate, hnak, hack, htyp, hseq, Port.accepting]

omit hstate in
/-- An acknowledgement on a NULL flit clears the replay buffer up to its flit. -/
theorem goodFlit_ack (hack : bit (field flit 0xF8 4) 24 = true) (htyp : field flit 0 1 = 0) :
    goodFlit s p flit = setPort s p ((getPort s p).ackTo (bits (field flit 0xF8 4) 23 12)) := by
  simp [goodFlit, hnak, hack, htyp]

end

/-! ## A flit with a bad CRC (R269, R272) -/

/-- A port once it has discarded a flit. -/
def Port.discarding (v : Port) : Port := { v with pcrc := satAdd 32 v.pcrc 1, sendNak := true }

/-- Without lane parity the flit is counted. -/
theorem badFlit_counted {s : State} {p : Nat} (hgen : (getPort s p).gen ≠ 1) :
    badFlit s p = setPort s p (getPort s p).discarding := by
  simp [badFlit, hgen, Port.discarding]

/-- `w` counts and expects what `v` does, unless it is down. -/
abbrev DownOrCounts (v w : Port) : Prop := (w.pcrc = v.pcrc ∧ w.expect = v.expect) ∨ w.state = 0

/-- A lasting failure of a lane takes the port down, or leaves what it counts and expects. -/
theorem lastingFailure_downOrCounts (s : State) (p l : Nat) : DownOrCounts (getPort s p) (getPort (lastingFailure s p l) p) := by
  by_cases hwidth : (getPort s p).width = 4
  · rw [lastingFailure_down hwidth, getPort_portDown]
    exact .inr rfl
  · cases hspares : (getPort s p).spares l with
    | nil =>
      obtain ⟨info, hfailed⟩ := lastingFailure_narrows hwidth hspares
      rw [hfailed, getPort_logNote, getPort_setPort_same]
      exact .inl ⟨rfl, rfl⟩
    | cons n rest =>
      rw [lastingFailure_spare hwidth hspares, getPort_setPort_same]
      exact .inl ⟨rfl, rfl⟩

/-- So does any failure of a lane. -/
theorem failLane_downOrCounts (s : State) (p l : Nat) (ok : Bool) : DownOrCounts (getPort s p) (getPort (failLane s p l ok) p) := by
  by_cases hused : portUp s p = false ∨ l ∉ (getPort s p).planes
  · rw [failLane_unused ok hused]
    exact .inl ⟨rfl, rfl⟩
  obtain ⟨hup, hl⟩ : portUp s p = true ∧ l ∈ (getPort s p).planes := by simpa using hused
  by_cases hlasts : ok = false ∨ ∃ a, ((getPort s p).lane l).lastTransient = some a ∧ portTime s p < a + 250000000
  · rw [failLane_lasts hup hl hlasts]
    exact lastingFailure_downOrCounts s p l
  · obtain ⟨hok, hlate⟩ := not_or.mp hlasts
    obtain rfl : ok = true := by simpa using hok
    rw [failLane_retrains hup hl, getPort_setPort_same]
    · exact .inl ⟨rfl, rfl⟩
    · cases hlast : ((getPort s p).lane l).lastTransient with
      | none => exact .inl rfl
      | some a => exact .inr ⟨a, rfl, not_lt.mp fun hsoon => hlate ⟨a, hlast, hsoon⟩⟩

/-- Under lane parity the flit is counted and a lane blamed; the eighth blame of a window may take the port down. -/
theorem badFlit_downOrCounts {s : State} {p : Nat} (hgen : (getPort s p).gen = 1) :
    DownOrCounts (getPort s p).discarding (getPort (badFlit s p) p) := by
  unfold badFlit
  dsimp only
  rw [if_pos hgen]
  split
  · rw [getPort_capSync]
    refine (failLane_downOrCounts _ p _ _).imp (fun ⟨hcount, hexpect⟩ => ?_) id
    rw [getPort_tickFree, getPort_tickFree, getPort_setPort_same] at hcount hexpect
    exact ⟨hcount, hexpect⟩
  · rw [getPort_tickFree, getPort_setPort_same]
    exact .inl ⟨rfl, rfl⟩

/-! ## The rows -/

section
variable {s : State} {p : Nat} (hp : p < 24) (hstate : (getPort s p).state = 2)
include hp hstate

theorem exec_linkFlitSend : exec (.linkFlitSend p) s = .next (flitSlot s p) := by
  simp [exec, execLinkFlitSend, hp, hstate]

theorem exec_linkFlitReceive_good {flit : Bytes} (hgood : flitGood flit = true) :
    exec (.linkFlitReceive p flit) s = .next (landMirrors (goodFlit s p flit)) := by
  simp [exec, execLinkFlitReceive, hp, hstate, hgood]

theorem exec_linkFlitReceive_bad {flit : Bytes} (hbad : flitGood flit = false) :
    exec (.linkFlitReceive p flit) s = .next (landMirrors (badFlit s p)) := by
  simp [exec, execLinkFlitReceive, hp, hstate, hbad]

/-- A time-out with a flit unacknowledged rewinds (R269), retrains after 16 resends, or takes the port down (R270). -/
theorem exec_replayTimeout {e : Nat × Bytes} {rest : List (Nat × Bytes)} (ok : Bool) (hreplay : (getPort s p).replay = e :: rest) :
    exec (.replayTimeout p ok) s = .next (
      if (getPort s p).resends < 16 then
        setPort s p { getPort s p with resendFrom := some e.1, resends := (getPort s p).resends + 1 }
      else if ok then setPort s p { getPort s p with resendFrom := some e.1, resends := 0 }
      else capSync s (portDown (setPort s p (getPort s p)) p 2)) := by
  simp [exec, execReplayTimeout, hp, hstate, hreplay, rewind, Port.oldestSeq]

end

/-- Settles O51: a slot by what the port has to send, a flit that comes in by its CRC, its acknowledgement and its number, a time-out
by the resends before it. -/
theorem flitsAreSentAcceptedAndReplayed : Obligations.FlitsAreSentAcceptedAndReplayed := by
  unfold Obligations.FlitsAreSentAcceptedAndReplayed
  refine ⟨?sent, ?resent, ?bad, ?parity, ?good, ?acked, ?down, ?replay⟩
  case sent =>
    intro s p v hp hv hstate hresend
    have hexec := exec_linkFlitSend hp (hv ▸ hstate)
    refine ⟨fun _ howed hempty => ?_, fun hfull => ?_, fun m hroom howed hmsg => ?_⟩
    · rw [hexec, flitSlot_idle hv hresend howed (nextMsg_of_nil hempty)]
      refine ⟨_, _, rfl, rfl, field_buildFlit_type (by decide) .., length_buildFlit .., ?_, outFlit_mem _ _ _ _, outFlit_cmds _ _ _ _⟩
      rw [sendNull, getPort_outFlit, ← hresend]
    · rw [hexec, flitSlot_full hv hresend hfull]
      refine ⟨_, _, rfl, rfl, field_buildFlit_type (by decide) .., ?_, ?_, outFlit_cmds _ _ _ _⟩
      all_goals rw [sendNull, getPort_outFlit]
    · obtain ⟨b, u, hsent, htyp, hplanes, hseq, hreplay, hcredit⟩ := sendFragment_spec s p v m
      rw [hexec, flitSlot_sends hv hresend hroom howed hmsg, hsent]
      refine ⟨_, b, rfl, hplanes ▸ rfl, htyp, ?_, ?_, ?_, fun x hx => getPort_outFlit_ne s u b hx, outFlit_mem _ _ _ _,
        outFlit_cmds _ _ _ _⟩
      all_goals rw [getPort_outFlit]
      · exact hseq
      · exact hreplay
      · exact hcredit
  case resent =>
    intro s p q b v rest hp hv hstate hreplay hresend
    refine ⟨_, (exec_linkFlitSend hp (hv ▸ hstate)).trans (congrArg _ (flitSlot_resends hv hreplay hresend)), ?_⟩
    rw [getPort_outFlit]
    exact ⟨rfl, rfl, rfl, rfl⟩
  case bad =>
    intro s p flit hp hstate hbad hgen
    rw [exec_linkFlitReceive_bad hp hstate hbad, badFlit_counted hgen]
    rfl
  case parity =>
    intro s p flit hp hstate hbad hgen
    refine ⟨_, exec_linkFlitReceive_bad hp hstate hbad, ?_⟩
    rw [getPort_landMirrors]
    exact badFlit_downOrCounts hgen
  case good =>
    intro s p w flit v hp hv hstate hgood hw hack hnak htyp
    subst hv hw
    have hexec := exec_linkFlitReceive_good hp hstate hgood
    refine ⟨fun hseq => ?_, fun hseq => ⟨_, hexec, ?_⟩⟩
    · rw [hexec, goodFlit_outOfOrder hstate hnak hack htyp hseq]
    · obtain ⟨hexpect, haccepted, hsendNak, hmem, hcmds⟩ :=
        takeFlit_receiverKept (setPort s p (getPort s p)) p (getPort s p).accepting flit
      rw [getPort_setPort_same] at hexpect haccepted hsendNak
      rw [setPort_mem, setPort_mem] at hmem
      rw [goodFlit_inOrder hstate hnak hack htyp hseq, getPort_landMirrors, landMirrors_mem, landMirrors_cmds]
      exact ⟨hexpect, haccepted, hsendNak, hmem, hcmds⟩
  case acked =>
    intro s p w flit hp hstate hgood hw hack hnak htyp
    subst hw
    rw [exec_linkFlitReceive_good hp hstate hgood, goodFlit_ack hnak hack htyp]
  case down =>
    intro s p hp hstate
    refine ⟨?_, fun f => ?_⟩
    · simp [exec, execLinkFlitSend, hp, hstate]
    · simp [exec, execLinkFlitReceive, hp, hstate]
  case replay =>
    intro s p ok v e rest hp hv hstate hreplay
    subst hv
    refine ⟨fun hfew => ?_, fun hmany => ?_, fun hmany => ⟨_, exec_replayTimeout hp hstate false hreplay, ?_⟩⟩
    · rw [exec_replayTimeout hp hstate ok hreplay, if_pos hfew]
    · rw [exec_replayTimeout hp hstate true hreplay, if_neg hmany.not_gt, if_pos rfl]
    · rw [if_neg hmany.not_gt, if_neg Bool.false_ne_true, getPort_capSync, getPort_portDown]
      exact ⟨rfl, rfl, rfl⟩

end Sys2Proof.Machine
end

section
/-! What every step keeps (R370, R373, R377, R379; logs 1, 6): one split over the commands says at once that a command that
names units of the module answers a state, and that the state that any command answers keeps the queue, the canonical form of
memory and the burnt fuses. The five statements on steps follow. -/

namespace Sys2Proof.Machine

/-! ## What a step keeps -/

/-- State `t` has the queue of `s`, has memory in canonical form where `s` has, and no fuse of `s` recovered in it. -/
structure Kept (s t : State) : Prop where
  queue : t.pending = s.pending
  memory : Safe s → Safe t
  fuses : FusesKept s.sec t.sec

section
variable {s t u : State}

/-- The laws of the operations give the three parts: their `_pending`, `_wf` (or `_mem`) and `_sec` (or `_fuses`) lemmas. -/
theorem Kept.of_laws (queue : t.pending = s.pending := by simp_all)
    (memory : s.mem.wf = true → t.mem.wf = true := by intro; simp_all (maxDischargeDepth := 12))
    (fuses : t.sec.fuses = s.sec.fuses := by simp_all) : Kept s t := ⟨queue, memory, .of_fuses fuses⟩

theorem Kept.refl (s : State) : Kept s s := ⟨rfl, id, .of_sec rfl⟩

theorem Kept.trans (h : Kept s t) (g : Kept t u) : Kept s u :=
  ⟨g.queue.trans h.queue, g.memory ∘ h.memory, h.fuses.trans g.fuses⟩

theorem Kept.capSync (h : Kept s t) : Kept s (capSync s t) := h.trans .of_laws

theorem Kept.onWork {cid : Nat} {ops : List Nat} {f : Cmd → State} (h : ∀ c, Kept s (f c)) : Kept s (onWork s cid ops f) := by
  unfold Machine.onWork
  split
  · exact h _
  · exact .refl s

theorem Kept.onMessage {h : Header} {b : Bytes} {f : State → State} (hf : ∀ u, Kept u (f u)) : Kept s (onMessage s h b f) := by
  have hu : Kept s (unkeep s h b) := .of_laws
  unfold Machine.onMessage
  split
  · exact hu.trans (hf _)
  · exact hu.trans .of_laws

theorem Kept.datagram {p op : Nat} {b : Bytes} {serve : State → Served} (hf : Kept s (serve s).1) :
    Kept s (datagram s p op b serve) := by
  unfold Machine.datagram
  split
  · exact .refl s
  split
  · exact .of_laws
  split
  · exact .refl s
  · exact .capSync (hf.trans .of_laws)

/-- A command of the admin queue keeps what its work keeps. -/
theorem Kept.adminEnd {c : Cmd} {r : State × Err} (h : Kept s r.1) : Kept s (adminEnd c r) := h.trans .of_laws

/-- Presence lets a command's work through or nothing (R376). -/
theorem Kept.privileged {c : Cmd} {r : State × Err} (h : Kept s r.1) : Kept s (privileged s c r).1 := by
  unfold Machine.privileged
  split
  · exact h
  · exact .refl s

end

/-! ## Operations whose laws are not in one lemma yet -/

theorem meanStep_frame (s : State) (f : LaneField) (m : Media) (cycles : Nat) :
    ∃ x, meanStep s f m cycles = { s with spring := { s.spring with means := x } } := by
  unfold meanStep
  dsimp only
  split
  · exact ⟨_, rfl⟩
  · exact ⟨s.spring.means, rfl⟩

theorem laneMeans_frame (media : List ReserveField) (fs : List LaneField) (s : State) :
    ∃ x, laneMeans media fs s = { s with spring := { s.spring with means := x } } := by
  induction fs generalizing s with
  | nil => exact ⟨s.spring.means, rfl⟩
  | cons f t ih =>
    unfold laneMeans
    dsimp only
    split
    · obtain ⟨y, hy⟩ := meanStep_frame s f (laneResult media f).media (laneResult media f).cycles
      obtain ⟨x, hx⟩ := ih { s with spring := { s.spring with means := y } }
      exact ⟨x, by rw [hy, hx]⟩
    · exact ih s

/-- The decodes of a refill count in the means of Spring's codecs alone (R338). -/
theorem refillMeans_frame (s : State) (g : Ingest) (media : List ReserveField) :
    ∃ x, refillMeans s g media = { s with spring := { s.spring with means := x } } := by
  unfold refillMeans
  split
  · exact laneMeans_frame ..
  · exact ⟨s.spring.means, rfl⟩

theorem sealOpen_keeps (s : State) : Kept s (sealOpen s) := ⟨by simp, fun h => by rwa [Safe, sealOpen_mem], sealOpen_kept s⟩

theorem takenFor_keeps (s : State) (idx : Nat) : Kept s (takenFor s idx) := ⟨by simp, takenFor_wf s idx, takenFor_kept s idx⟩

theorem runKeyRotate_keeps (s : State) (c : Cmd) : Kept s (runKeyRotate s c).1 :=
  ⟨by simp, fun h => by rwa [Safe, runKeyRotate_mem], runKeyRotate_kept s c⟩

theorem runFuseWrite_keeps (s : State) (c : Cmd) : Kept s (runFuseWrite s c).1 :=
  ⟨by simp, fun h => by rwa [Safe, runFuseWrite_mem], runFuseWrite_kept s c⟩

theorem serveCommand_keeps (s : State) (b : Bytes) (host : HostRead) : Kept s (serveCommand s b host).1 :=
  ⟨by simp, serveCommand_wf s b host, serveCommand_kept s b host⟩

theorem msixWrite_keeps (s : State) (off size : Nat) (v : DWord) : Kept s (msixWrite s off size v) := by
  have hput (t : State) (o : Nat) (w : Word) : Kept t (msixPut t o w) := by
    unfold msixPut
    split <;> exact .of_laws
  unfold msixWrite
  split
  · exact .refl s
  split
  · exact hput ..
  split
  · exact (hput ..).trans (hput ..)
  · exact .refl s

theorem dpRead_keeps {s t : State} {hbm : Sector} {x : Option Word} (h : dpRead s hbm = (t, x)) : Kept s t := by
  have hk (u : State) : Kept u (dpRead u hbm).1 := .of_laws
  simpa only [h] using hk s

theorem sendAll_keeps {s t : State} {d : Nat} {l : List TxMsg} {x : Option TxMsg} (h : sendAll d l s = (t, x)) : Kept s t := by
  have hk (u : State) : Kept u (sendAll d l u).1 := .of_laws
  simpa only [h] using hk s

theorem sendFor_keeps {s : State} {c : Cmd} {co : Coll} {l : List TxMsg} {x : CollNext} (h : sendFor s c co l = x) :
    Kept s x.state := by
  have hk (u : State) : Kept u (sendFor u c co l).state := .of_laws
  simpa only [h] using hk s

/-! ## Every command -/

/-- An answer of a state that keeps what a step keeps, owed where the command names units that the module has (`known`). -/
def Answers (s : State) (known : Bool) (o : Ans) : Prop :=
  ∃ t, Kept s t ∧ (known = true → o = .next t) ∧ ∀ u, o = .next u → u = t

theorem Answers.next {s t : State} {known : Bool} (h : Kept s t) : Answers s known (.next t) :=
  ⟨t, h, fun _ => rfl, fun _ hu => by injection hu with hu; exact hu.symm⟩

theorem Answers.onUnit {s t : State} {known ok : Bool} {name : String} {n : Nat} (hok : known = true → ok = true) (h : Kept s t) :
    Answers s known (onUnit ok name n t) := by
  cases ok with
  | true => exact .next h
  | false => exact ⟨t, h, fun hk => absurd (hok hk) (by simp), fun _ hu => by simp at hu⟩

/-- Every command answers, by its shape: work of a packet's opcode, messages, datagrams, the sideband, events at a unit of
the module, and events of the module as a whole. -/
theorem exec_answers (i : Instr) (s : State) : Answers s i.wf (exec i s) := by
  cases i
  case compress cid =>
    refine .next ?_
    split <;> exact .of_laws
  case copy | fill | hostCopy | matmul | attnBlock | decompress | conv | pool | matmulBwd | vector | stats =>
    exact .next .of_laws
  case fwDowngrade | debugUnlock | spareOverride =>
    exact .next (.onWork fun c => .adminEnd (.privileged .of_laws))
  case keyRotate => exact .next (.onWork fun c => .adminEnd (.privileged (runKeyRotate_keeps s c)))
  case fuseWrite => exact .next (.onWork fun c => .adminEnd (.privileged (runFuseWrite_keeps s c)))
  case fwUpdate => exact .next (.onWork fun c => .adminEnd .of_laws)
  case alloc | free | ingestOpen | ingestRelease | ingestSeek | dictLoad | ingestBatch | lossScale | mirrorConfig |
      mirrorConfigTimeout | snapshot | restore | mirrorVerify | telemetryRead | powerCap | quotaSet | errlogRead | attest |
      loadJob | endJob | suspend | resume | tokenSet | nop | phase | stepBegin | pipeSend | pipeRecv =>
    refine .next (.onWork fun c => ?_)
    (repeat' (split <;> try dsimp only)) <;> exact .of_laws
  case shortMessageReceive =>
    refine .next ?_
    (repeat' split) <;> first | exact .refl s | refine .onMessage fun u => ?_
    · dsimp only
      split <;> exact .of_laws
    · exact .refl u
  case pullRequestReceive h b =>
    refine .next ?_
    split
    · refine .onMessage fun u => ?_
      (repeat' split) <;> first | exact sendAll_keeps ‹_› | exact (sendAll_keeps ‹_›).trans .of_laws | exact .of_laws
    · exact .refl s
  case mirrorBlockReceive =>
    refine .next ?_
    split
    · refine .onMessage fun u => ?_
      dsimp only
      split <;> exact .of_laws
    · exact .refl s
  case releaseWordReceive | pipeEntryAcknowledge | pipeEntryArrive | pipeCreditReceive =>
    refine .next ?_
    split
    · refine .onMessage fun u => ?_
      (repeat' (split <;> try dsimp only)) <;> exact .of_laws
    · exact .refl s
  case mgmtCommand p b host => exact .onUnit id (.datagram (serveCommand_keeps s b host))
  case mgmtBurstRead | mgmtBurstWrite | mgmtRegisterRead | mgmtRegisterWrite =>
    exact .onUnit id (.datagram .of_laws)
  case smbusDpData pec write hbm =>
    refine .next ?_
    split
    · refine .capSync ?_
      cases write with
      | some w => exact .of_laws
      | none =>
        dsimp only
        split
        · exact (dpRead_keeps ‹_›).trans .of_laws
        · exact dpRead_keeps ‹_›
    · exact .refl s
  case statusWord | clearFaults | readVin | readIin | readPin | smbusDpAddr | smbusDpCtrl | smbusDiscstat | smbusDiscglitch =>
    refine .next ?_
    (repeat' (split <;> try dsimp only)) <;> exact .of_laws
  case reserveRefill stream media =>
    refine .onUnit id ?_
    dsimp only
    split
    · obtain ⟨x, hx⟩ := refillMeans_frame s (getIngest s stream) media
      rw [hx]
      exact .of_laws
    · exact .refl s
  case inputInvalid idx =>
    have h : Kept s { s with pins := { s.pins with invalid := addTo s.pins.invalid idx } } := .of_laws
    exact .onUnit id (.capSync (h.trans (takenFor_keeps _ idx)))
  case containedError e => exact .onUnit (by cases e <;> exact id) .of_laws
  case sramScrub w _ => exact .onUnit (by cases w <;> exact id) .of_laws
  case batchAssemblyStart | recordRead | fieldDecodeDone | decodeBudgetExpiry | batchDeadline | batchCommit | sdshareWrite |
      sourceTailWrite | laneFailure | fecWindowEnd | eqAdapt | eqRequest | portTrainingAttempt | portTrainingRetry |
      portRetrain | portEnable | portDisable | genCapWrite | linkFlitSend | linkFlitReceive | replayTimeout |
      portSilenceTimeout | portPhaseSwitch | frequencyStep | cpmCheck | droopHoldExpiry | junctionSensorRead | thermalTrip |
      thermalLimitStep | placementRemap | domainRampDone | hbmFlitCrcFail | stackTempReport | hbmScrubRead |
      sensorCalibration | monitorRecalibration | ageingMeasurement | guardConfigWrite | tokenWaitTimeout | queueDoorbell |
      queueEnable | queueDisable | queuePause | qtimeoutWrite | rheadUpdate | packetFetch | commandDispatch | replyWrite |
      replyRetry | sliceLoadDone | mereStart | arraySliceDone | combineReceive | haloReceive | drainOutputBlock |
      stagedBlockWriteback | bundleFlitCrcFail | bundleWindowEnd | bundleLivenessSend | bundleLivenessTimeout | rejoinAttempt
      | rejoinRetryTimer | hbmSlotGrant | sshareWrite | mgtRateSearch | mgtLinkUp | mgtLinkDown | mgmtNetworkFrame |
      inputGlitch | referenceLost =>
    refine .onUnit ?_ ?_
    · simp_all [Instr.wf]
    · (repeat' (split <;> try dsimp only)) <;> exact .of_laws
  case collectiveW1Expiry cid =>
    refine .next ?_
    (repeat' (split <;> try dsimp only)) <;> first | exact .refl s | exact (sendFor_keeps ‹_›).trans .of_laws
  case dpDataAccess write hbm =>
    refine .next (.capSync ?_)
    cases write with
    | some w => exact .of_laws
    | none =>
      dsimp only
      split
      · exact (dpRead_keeps ‹_›).trans .of_laws
      · exact dpRead_keeps ‹_›
  case registerWrite src off size v =>
    refine .next ?_
    split
    · split
      · exact msixWrite_keeps s off size v
      · exact .refl s
    · split <;> exact .of_laws
  case sealBroken invalid =>
    have h : Kept s (if invalid then { s with pins := { s.pins with invalid := addTo s.pins.invalid 6 } } else s) := by
      split <;> exact .of_laws
    refine .next ?_
    dsimp only
    split
    · exact .capSync (h.trans (sealOpen_keeps _))
    · exact .refl s
  case decoderWindow | sResume | reduceScatter | allGather | basinInputReceive | gatheredPieceReceive | closeWordReceive |
      collectiveW2Expiry | standbyTimeout | updateSgd | updateAdam | updateLion | updateVerdictReady | mirrorBreakTimeout |
      mirrorMessageReceive | containmentDone | rscrubWrite | inletHot | flowLow | weirSample | weirMeanUpdate |
      dutyCyclePeriod | wctrlWrite | freqTargetWrite | hbmUncorrectableRead | presencePress | presenceRelease |
      presenceWindowExpiry | presenceStuck | jumperFitted | jumperRemoved | endWindow | jumperIgnoreWrite | telemetryGather |
      compressedBlockDecode | kvRing | kvRingBwd | eddyBlockArrive | eddyAccumulatorArrive | eddySlotRelease | commandCommit
      | gangStart | hostMailboxWrite | coreMailboxWrite | apertureRead | apertureWrite | pcieConfigRequest | mgtFailover |
      powerOn | inputCollapse | pwrgdAssert | inputFault | pwrgdDeassert | inputRestored | perstAssert | perstDeassert |
      mrstAssert | mrstRelease | thermtripInAssert | thermtripInRelease | perstLong | mrstLong | jumperLong | kClockLoss =>
    refine .next ?_
    (repeat' (split <;> try dsimp only)) <;> exact .of_laws

theorem exec_kept {i : Instr} {s t : State} (h : exec i s = .next t) : Kept s t := by
  obtain ⟨u, hk, -, honly⟩ := exec_answers i s
  rwa [honly t h]

/-! ## Every step -/

/-- A step keeps memory and fuses, whether it runs a command or lets a microsecond pass. -/
theorem step_keeps {s t : State} (h : step s = .next t) : (Safe s → Safe t) ∧ FusesKept s.sec t.sec := by
  cases hp : s.pending with
  | nil =>
    rw [step_nil s hp] at h
    injection h with h
    subst h
    exact ⟨tick_wf s, .of_fuses (tick_fuses s)⟩
  | cons c rest =>
    rw [step_cons s c rest hp] at h
    exact ⟨(exec_kept h).memory, (exec_kept h).fuses⟩

/-- Settles O4: the memory part of what a step keeps. -/
theorem everyStepKeepsMemoryCanonical : Obligations.EveryStepKeepsMemoryCanonical := by
  unfold Obligations.EveryStepKeepsMemoryCanonical
  exact fun _ _ hsafe h => (step_keeps h).1 hsafe

/-- Settles O7: the fuses' part of what a step keeps. -/
theorem fusesNeverRecover : Obligations.FusesNeverRecover := by
  unfold Obligations.FusesNeverRecover
  exact fun _ _ h => (step_keeps h).2

/-- Settles O5: the queue's part of what a command keeps. -/
theorem commandsKeepTheQueue : Obligations.CommandsKeepTheQueue := by
  unfold Obligations.CommandsKeepTheQueue
  exact fun _ _ _ h => (exec_kept h).queue

/-- Settles O6: every command that names units of the module answers. -/
theorem everyWellFormedCommandAnswers : Obligations.EveryWellFormedCommandAnswers := by
  unfold Obligations.EveryWellFormedCommandAnswers
  intro i s hwf
  obtain ⟨t, -, hnext, -⟩ := exec_answers i s
  exact ⟨t, hnext hwf⟩

/-- Settles O1: `step` by its case for a queue with a front command. -/
theorem stepRunsTheFrontCommand : Obligations.StepRunsTheFrontCommand := by
  unfold Obligations.StepRunsTheFrontCommand
  exact fun c rest s h => step_cons s c rest h

end Sys2Proof.Machine
end

section
/-! Power and thermal control (R385, R388-R399): what a sensor's reading, a monitor's check, a step of frequency, a sample of
Weir and a move of placement make of the clusters, each said once, and the four statements on them. -/

namespace Sys2Proof.Machine

/-! ## The update count decides nothing of power -/

theorem Counted.power_eq {u t : State} (h : Counted u t) : t.power = u.power := by rw [h]

theorem Counted.getCluster_eq {u t : State} (h : Counted u t) (c : Nat) : getCluster t c = getCluster u c := by rw [h]; rfl

theorem logNote_power (s : State) (kind die unit : Nat) (info : Bytes) : (logNote s kind die unit info).power = s.power := by
  rw [logNote_frame s kind die unit info]

/-! ## Junction sensors (R392) -/

/-- A cluster with the reading `r` of its sensor `n`: it throttles from 100 °C on, and then until it is below 97 °C. -/
def Cluster.reading (v : Cluster) (n : Nat) (r : Int) : Cluster :=
  let w := if n % 2 = 0 then { v with temp0 := r } else { v with temp1 := r }
  { w with throttling := decide (1600 ≤ w.temp) || (v.throttling && decide (1552 ≤ w.temp)) }

/-- From 103 °C on the duty cycle of a cluster at 600 MHz is open. -/
def Cluster.dutyOpen (v : Cluster) (pick : Nat) : Cluster :=
  if 1648 ≤ v.temp ∧ v.freq = 600 then { v with duty := 1 + pick % 32 } else v

theorem Cluster.dutyOpen_of_cool {v : Cluster} (pick : Nat) (h : v.temp < 1648) : v.dutyOpen pick = v :=
  if_neg fun hot => absurd hot.1 (by omega)

theorem Cluster.dutyOpen_frame (v : Cluster) (pick : Nat) : ∃ d, v.dutyOpen pick = { v with duty := d } := by
  unfold Cluster.dutyOpen
  split
  · exact ⟨_, rfl⟩
  · exact ⟨v.duty, rfl⟩

theorem Cluster.temp_reading (v : Cluster) (n : Nat) (r : Int) :
    (v.reading n r).temp = if n % 2 = 0 then max r v.temp1 else max v.temp0 r := by
  unfold Cluster.reading
  dsimp only
  split <;> rfl

section
variable {s : State} {n : Nat} {r : Int} {v : Cluster}

/-- What a reading makes of its cluster; an entry into throttling counts in PTHROT. -/
theorem clusterReads_eq (hv : v = getCluster s (n / 2)) : clusterReads s n r =
    if (decide (1600 ≤ (v.reading n r).temp) && !v.throttling) = true then
      { tickFree (setCluster s (n / 2) ((v.reading n r).dutyOpen (Config.freePick s.freeCtr))) with power :=
        { (setCluster s (n / 2) ((v.reading n r).dutyOpen (Config.freePick s.freeCtr))).power with
          pthrot := satAdd 32 s.power.pthrot 1, throttleSeen := true } }
    else tickFree (setCluster s (n / 2) ((v.reading n r).dutyOpen (Config.freePick s.freeCtr))) := by
  subst hv
  rfl

/-- A reading below 110 °C trips nothing (R393). -/
theorem exec_junctionSensorRead (hn : n < 136) (hr : r < 1760) : ∃ t, exec (.junctionSensorRead n r) s = .next t ∧
    Counted { clusterReads s n r with power :=
      { (clusterReads s n r).power with sensorTrips := dropFrom (clusterReads s n r).power.sensorTrips n } } t := by
  have hunit : n < 152 := by omega
  have htrip : ¬ (1760 ≤ r) := by omega
  refine ⟨_, ?_, capSync_counted s _⟩
  simp [exec, execJunctionSensorRead, sensorTrip, hunit, hn, htrip]

end

/-- The thermal limit goes down by 25 MHz at 100 °C and up below 97 °C. -/
def Cluster.thermalStep (v : Cluster) : Nat :=
  if 1600 ≤ v.temp then max 600 (v.thermal - 25) else if v.temp < 1552 then min 1200 (v.thermal + 25) else v.thermal

theorem exec_thermalLimitStep {s : State} {c : Nat} {v : Cluster} (hc : c < 68) (hv : v = getCluster s c) :
    exec (.thermalLimitStep c) s = .next (setCluster s c { v with thermal := v.thermalStep }) := by
  subst hv
  simp [exec, execThermalLimitStep, Cluster.thermalStep, hc]

/-- Settles O37: a reading by the reading's sensor, the limit by its range. -/
theorem clustersThrottleWithHysteresis : Obligations.ClustersThrottleWithHysteresis := by
  unfold Obligations.ClustersThrottleWithHysteresis
  refine ⟨?cool, ?hot, ?limit⟩
  case cool =>
    intro s n r v hn hr heven hv htemp1
    obtain ⟨t, hexec, ht⟩ := exec_junctionSensorRead (s := s) hn (show r < 1760 by omega)
    have htemp : (v.reading n r).temp = max r v.temp1 := by rw [Cluster.temp_reading, if_pos heven]
    have hlow : ¬ (1600 ≤ (v.reading n r).temp) := by omega
    rw [clusterReads_eq hv, Cluster.dutyOpen_of_cool _ (by omega)] at ht
    simp only [hlow, decide_false, Bool.false_and, Bool.false_eq_true, if_false] at ht
    have hcluster : getCluster t (n / 2) = v.reading n r := (ht.getCluster_eq _).trans (getCluster_setCluster_same s _ _)
    refine ⟨t, hexec, ?_, ?_, by rw [ht.power_eq]; rfl⟩
    · rw [hcluster]
      simp [Cluster.reading, heven]
    · rw [hcluster]
      simp only [Cluster.reading, heven, if_true, Cluster.temp] at hlow ⊢
      simp [hlow]
  case hot =>
    intro s n r v hn hr hr' hodd hv hthr
    obtain ⟨t, hexec, ht⟩ := exec_junctionSensorRead (s := s) hn (show r < 1760 by omega)
    have heven : ¬ (n % 2 = 0) := by omega
    have htemp : (v.reading n r).temp = max v.temp0 r := by rw [Cluster.temp_reading, if_neg heven]
    have hhigh : 1600 ≤ (v.reading n r).temp := by omega
    obtain ⟨d, hd⟩ := (v.reading n r).dutyOpen_frame (Config.freePick s.freeCtr)
    rw [clusterReads_eq hv, hd] at ht
    simp only [hhigh, hthr, decide_true, Bool.not_false, Bool.and_self, if_true] at ht
    have hcluster : getCluster t (n / 2) = { v.reading n r with duty := d } :=
      (ht.getCluster_eq _).trans (getCluster_setCluster_same s _ _)
    refine ⟨t, hexec, ?_, ?_, by rw [ht.power_eq]; rfl, by rw [ht.power_eq]⟩
    · rw [hcluster]
      simp [Cluster.reading, hodd]
    · rw [hcluster]
      simp only [Cluster.reading, heven, if_false, Cluster.temp] at hhigh ⊢
      simp [hhigh]
  case limit =>
    intro s c v hc hv
    have htemp : max v.temp0 v.temp1 = v.temp := rfl
    rw [exec_thermalLimitStep hc hv, Cluster.thermalStep, htemp]
    refine ⟨fun h => by rw [if_pos h], fun h => ?_, fun h1 h2 => ?_⟩
    · rw [if_neg (by omega), if_pos h]
    · rw [if_neg (by omega), if_neg (by omega)]

/-! ## Coolant (R394) -/

/-- PWSTAT shows inlet_hot at bit 2 and flow_low at bit 3. -/
theorem bit_pwstat (s : State) : bit (pwstat s) 2 = s.power.inletHot ∧ bit (pwstat s) 3 = s.power.flowLow := by
  have hflag (b : Bool) : b2n b < 2 := by cases b <;> decide
  have hbit (b : Bool) : (b2n b == 1) = b := by cases b <;> rfl
  have hthr := hflag s.power.throttleSeen
  have hinlet := hflag s.power.inletHot
  have hflow := hflag s.power.flowLow
  constructor
  · rw [← hbit s.power.inletHot, bit]
    congr 1
    simp only [pwstat]
    omega
  · rw [← hbit s.power.flowLow, bit]
    congr 1
    simp only [pwstat]
    omega

/-- Settles O38: both rows set PCOOL and one flag. -/
theorem coolantFlagsAreReported : Obligations.CoolantFlagsAreReported := by
  unfold Obligations.CoolantFlagsAreReported
  exact fun s inlet outlet => ⟨⟨_, _, rfl, rfl, (bit_pwstat _).1⟩, ⟨_, _, rfl, rfl, (bit_pwstat _).2⟩⟩

/-! ## Critical-path monitors (R388, R390, R391) -/

section
variable {s : State} {c : Nat} {v : Cluster}

/-- A check of a cluster that is on. -/
theorem exec_cpmCheck (m : Margin) (hc : c < 68) (hon : clusterOn s c = true) :
    ∃ t, exec (.cpmCheck c m) s = .next t ∧ Counted (cpmStep s c m) t :=
  ⟨_, by simp [exec, execCpmCheck, hc, hon], capSync_counted s _⟩

/-- A rail at its end takes 25 MHz from the cluster. -/
theorem railShort_cluster (hv : v = getCluster s c) (hf : 600 < v.fcap) :
    getCluster (railShort s c) c = { v with fcap := v.fcap - 25, capped := true } := by
  subst hv
  have hcap : ¬ (getCluster s c).fcap ≤ 600 := by omega
  simp only [railShort, hcap, if_false]
  split
  · exact getCluster_setCluster_same ..
  · rw [getCluster, logNote_power]
    exact getCluster_setCluster_same ..

/-- A droop that is not the 1,024th doubles the period and counts. -/
theorem droopEvent_counts (hv : v = getCluster s c) (hd : v.droops ≠ 1023) :
    getCluster (droopEvent s c) c = { v with doubled := true, droops := v.droops + 1 } ∧
      (droopEvent s c).power.pdroop = satAdd 32 s.power.pdroop 1 := by
  subst hv
  have hlast : ¬ (getCluster s c).droops + 1 = 1024 := by omega
  simp only [droopEvent, hlast, if_false]
  exact ⟨getCluster_setCluster_same .., rfl⟩

/-- The 1,024th droop without margin is an error of the cluster (R406). -/
theorem droopEvent_last (hv : v = getCluster s c) (hd : v.droops = 1023) : droopEvent s c =
    containError { setCluster s c { v with doubled := true, droops := 1024 } with power :=
      { (setCluster s c { v with doubled := true, droops := 1024 }).power with pdroop := satAdd 32 s.power.pdroop 1 } }
      (.cluster (c / 34) (c % 34) 3) := by
  subst hv
  have hlast : (getCluster s c).droops + 1 = 1024 := by omega
  simp only [droopEvent, hlast, if_true]
  rfl

end

/-- Settles O39: one equation for each margin. -/
theorem railsAndDroopsFollowTheMonitors : Obligations.RailsAndDroopsFollowTheMonitors := by
  unfold Obligations.RailsAndDroopsFollowTheMonitors
  refine ⟨?check, ?hold, ?off⟩
  case check =>
    intro s c v hc hon hv
    refine ⟨?ample, ?held, ?lacking, ?capped, ?spent, ?droop, ?last⟩
    case ample => subst hv; exact exec_cpmCheck .ample hc hon
    case held => subst hv; exact exec_cpmCheck .held hc hon
    case lacking =>
      intro hrail
      obtain ⟨t, hexec, ht⟩ := exec_cpmCheck .lacking hc hon
      subst hv
      rw [cpmStep, if_neg (by omega)] at ht
      exact ⟨t, hexec, ht⟩
    case capped =>
      intro hrail hf
      obtain ⟨t, hexec, ht⟩ := exec_cpmCheck .lacking hc hon
      rw [cpmStep, ← hv, if_pos hrail] at ht
      exact ⟨t, hexec, by rw [ht.getCluster_eq, railShort_cluster hv hf]⟩
    case spent =>
      intro hrail hf
      obtain ⟨t, hexec, ht⟩ := exec_cpmCheck .lacking hc hon
      rw [cpmStep, ← hv, if_pos hrail, railShort, ← hv, if_pos hf] at ht
      exact ⟨t, hexec, ht⟩
    case droop =>
      intro hd
      obtain ⟨t, hexec, ht⟩ := exec_cpmCheck .belowQuarter hc hon
      obtain ⟨hcluster, hcount⟩ := droopEvent_counts hv hd
      exact ⟨t, hexec, by rw [ht.getCluster_eq]; exact hcluster, by rw [ht.power_eq]; exact hcount⟩
    case last =>
      intro hd
      obtain ⟨t, hexec, ht⟩ := exec_cpmCheck .belowQuarter hc hon
      exact ⟨t, hexec, droopEvent_last hv hd ▸ ht⟩
  case hold =>
    intro s c v hc hv
    refine ⟨fun hdbl => ?_, fun hdbl hd => ?_, fun hdbl b => ?_⟩
    · simp [exec, execDroopHoldExpiry, hc, ← hv, hdbl]
    · obtain ⟨hcluster, hcount⟩ := droopEvent_counts hv hd
      have ht := capSync_counted s (droopEvent s c)
      have hexec : exec (.droopHoldExpiry c true) s = .next (capSync s (droopEvent s c)) := by
        simp [exec, execDroopHoldExpiry, hc, ← hv, hdbl]
      exact ⟨_, hexec, by rw [ht.getCluster_eq]; exact hcluster, by rw [ht.power_eq]; exact hcount⟩
    · simp [exec, execDroopHoldExpiry, hc, ← hv, hdbl]
  case off =>
    intro s c m hc hoff
    simp [exec, execCpmCheck, hc, hoff]

/-! ## Frequencies (R388, R389) -/

/-- A command at a unit that the module has. -/
theorem exec_unit {i : Instr} {s t : State} {ok : Bool} {name : String} {n : Nat} (hok : ok = true)
    (h : exec i s = onUnit ok name n t) : exec i s = .next t := by
  rw [h, hok, onUnit_true]

/-- The lowest of a cluster's limits. -/
theorem clusterLimit_low (s : State) (v : Cluster) : (clusterLimit s v).1 =
    min (freqTarget s) (min v.fcap (min v.thermal (min v.weir (if capDuty s < 32 then 600 else 1200)))) := by
  have hcons (x y : Nat × Nat) (l : List (Nat × Nat)) : (lowestLimit (x :: y :: l)).1 = min x.1 (lowestLimit (y :: l)).1 := by
    rw [lowestLimit]
    · split <;> omega
    · simp
  rw [clusterLimit, hcons, hcons, hcons, hcons]
  rfl

/-- The code of the limit in force names one of the list. -/
theorem lowestLimit_code {n : Nat} : ∀ {l : List (Nat × Nat)}, (∀ x ∈ l, x.2 ≤ n) → (lowestLimit l).2 ≤ n
  | [], _ => Nat.zero_le n
  | [x], h => h x (by simp)
  | x :: y :: l, h => by
    rw [lowestLimit]
    · split
      · exact h x (by simp)
      · exact lowestLimit_code fun z hz => h z (by simp [hz])
    · simp

theorem clusterLimit_code (s : State) (v : Cluster) : (clusterLimit s v).2 ≤ 4 :=
  lowestLimit_code (by simp)

/-- FREQUENCY_STEP on a cluster that is on. -/
theorem exec_frequencyStep {s : State} {c : Nat} {v : Cluster} (hc : c < 68) (hv : v = getCluster s c)
    (hon : clusterOn s c = true) : ∃ n, n ≤ 6 ∧ exec (.frequencyStep c) s = .next (setCluster s c { v with
      freq := stepToward (max v.freq 600) (clusterLimit s v).1
      railMv := railAt c v (stepToward (max v.freq 600) (clusterLimit s v).1), limit := n }) := by
  subst hv
  have hcode := clusterLimit_code s (getCluster s c)
  have hexec := exec_unit (i := .frequencyStep c) (s := s) (decide_eq_true hc) rfl
  rw [if_pos hon] at hexec
  refine ⟨_, ?_, hexec⟩
  split
  · omega
  · split <;> omega

/-! ## Weir (R396, R397) -/

/-- The filler of Meres leaves everything but the Meres. -/
theorem setFiller_frame (s : State) (on : List Nat) : ∃ m, setFiller s on = { s with compute := { s.compute with meres := m } } := by
  unfold setFiller
  generalize List.range 272 = l
  induction l generalizing s with
  | nil => exact ⟨s.compute.meres, rfl⟩
  | cons p t ih =>
    rw [List.foldl_cons]
    dsimp only
    split
    · exact ih s
    · obtain ⟨m, hm⟩ := ih (setMere s p { getMere s p with filler := on.contains p })
      exact ⟨m, hm⟩

/-- What a sample leaves, but for filler. -/
theorem weirSample_power (s : State) (demand power volts amps filler : Nat) (short : Bool) :
    (weirSample s demand power volts amps filler short).mem = s.mem ∧
    (weirSample s demand power volts amps filler short).cmds = s.cmds ∧
    (weirSample s demand power volts amps filler short).power = { s.power with
      wctrl := weirCtrl s, pendWctrl := none, allowance := nextAllowance s (100 * demand)
      pvin := BitVec.ofNat 32 (amps % 65536 * 65536 + volts % 65536), pfiller := satAdd 64 s.power.pfiller filler
      floorShort := s.power.floorShort || short
      clusters := s.power.clusters.map (fun e => (e.1, { e.2 with
        weir := if !decide (nextAllowance s (100 * demand) < 100 * demand) then 1200
          else if clusterBusy s e.1 then
            (if nextAllowance s (100 * demand) < 100 * power then max 600 (e.2.weir - 25) else min 1200 (e.2.weir + 25))
          else e.2.weir })) } := by
  unfold weirSample
  dsimp only
  generalize (if (100 * demand < nextAllowance s (100 * demand)) then _ else _ : List Nat) = on
  obtain ⟨m, hm⟩ := setFiller_frame _ on
  rw [hm]
  exact ⟨rfl, rfl, rfl⟩

/-- The allowance moves by at most the two slew limits, and over the cap only while it comes down from above. -/
theorem nextAllowance_bounds {s : State} (d : Nat) {up dn : Nat} (hup : up = bits (weirCtrl s).toNat 20 10)
    (hdn : dn = bits (weirCtrl s).toNat 31 21) : nextAllowance s d ≤ s.power.allowance + up ∧
      s.power.allowance ≤ nextAllowance s d + dn ∧
      (s.power.allowance ≤ 100 * capEff s → nextAllowance s d ≤ 100 * capEff s) := by
  unfold nextAllowance
  dsimp only
  rw [← hup, ← hdn]
  omega

/-- While fewer than 256 means are held, one more joins them. -/
theorem exec_weirMeanUpdate {s : State} (m : Nat) (hlen : s.power.means.length ≤ 255) : ∃ f, f ≤ 100 * capEff s ∧
    exec (.weirMeanUpdate m) s = .next { s with power := { s.power with
      means := s.power.means ++ [m], pin := m, pmean := (s.power.means.sum + m) / (s.power.means.length + 1), pfloor := f } } := by
  have hnone : s.power.means.length + 1 - 256 = 0 := by omega
  have hone : max (s.power.means.length + 1) 1 = s.power.means.length + 1 := by omega
  refine ⟨min (bits s.power.wctrl.toNat 9 3 * (s.power.means.sum + m) / (s.power.means.length + 1)) (100 * capEff s),
    min_le_right _ _, ?_⟩
  simp only [exec, execWeirMeanUpdate, List.length_append, List.length_singleton, hnone, List.drop_zero, List.sum_append,
    List.sum_singleton, hone]

/-! ## Placement (R395) -/

/-- A move of placement leaves everything but the place of a logical Mere. -/
theorem remapHot_frame (d : Nat) (temp : Nat → Int) (n sum : Int) (l : List Nat) (s : State) :
    ∃ m, remapHot d temp n sum l s = { s with compute := { s.compute with place := m } } := by
  induction l generalizing s with
  | nil => exact ⟨s.compute.place, rfl⟩
  | cons x t ih =>
    unfold remapHot
    dsimp only
    split
    · split
      · obtain ⟨m, hm⟩ := ih { s with compute := { s.compute with place := mput s.compute.place x _ } }
        exact ⟨m, hm⟩
      · exact ih s
    · exact ih s

/-- A logical Mere that placement may not move: it runs, it waits, or a REDUCE_SCATTER adds on it. -/
def Pinned (s : State) (l : Nat) : Prop :=
  (getMere s (physOf s l)).running ≠ none ∨ (getMere s (physOf s l)).waiting ≠ [] ∨ reduceMere s l = true

/-- A pinned Mere is not idle. -/
theorem Pinned.not_idle {s : State} {l : Nat} (h : Pinned s l) :
    ((getMere s (physOf s l)).running == none && (getMere s (physOf s l)).waiting.isEmpty && !reduceMere s l) = false := by
  rcases h with h | h | h <;> simp [h]

/-- Placement leaves a pinned Mere where it is. -/
theorem physOf_remapHot (d : Nat) (temp : Nat → Int) (n sum : Int) (xs : List Nat) (s : State) {l : Nat} (h : Pinned s l) :
    physOf (remapHot d temp n sum xs s) l = physOf s l := by
  induction xs generalizing s with
  | nil => rfl
  | cons x t ih =>
    unfold remapHot
    dsimp only
    split
    · split
      · rename_i q _ hmove
        have hne : l ≠ x := by
          rintro rfl
          rw [h.not_idle] at hmove
          simp at hmove
        have hplace : physOf { s with compute := { s.compute with place := mput s.compute.place x q } } l = physOf s l :=
          mget_mput_ne _ _ _ _ _ hne
        rw [ih _ (by unfold Pinned; rw [hplace]; exact h), hplace]
      · exact ih s h
    · exact ih s h

/-- Settles O40: each loop by its equation. -/
theorem powerLoopsStepTowardTheirLimits : Obligations.PowerLoopsStepTowardTheirLimits := by
  unfold Obligations.PowerLoopsStepTowardTheirLimits
  refine ⟨?frequency, ?weir, ?mean, ?duty, ?ramp, ?placement⟩
  case frequency =>
    intro s c low v hc hv hlow
    refine ⟨fun hoff => by simp [exec, execFrequencyStep, hc, hoff], fun hon => ?_⟩
    obtain ⟨n, hn, hexec⟩ := exec_frequencyStep hc hv hon
    rw [clusterLimit_low, ← hlow] at hexec
    refine ⟨_, n, hexec, ?_⟩
    rw [getCluster_setCluster_same]
    refine ⟨rfl, hn, fun hrail => ⟨fun hrise => ?_, fun hfall => ?_⟩, fun hup => ?_, fun hdown => ?_⟩
    · simp only [railAt, if_pos hrise]
      omega
    · simp only [railAt, if_neg (Nat.not_lt.mpr hfall)]
    · simp only [stepToward, if_pos hup]
    · simp only [stepToward, if_neg (Nat.not_lt.mpr hdown)]
  case weir =>
    intro s demand power volts amps filler up dn short w hw hup hdn
    obtain ⟨hmem, hcmds, hpower⟩ := weirSample_power s demand power volts amps filler short
    have hdn' : dn = bits (weirCtrl s).toNat 31 21 := by
      have := w.isLt
      have hwc : weirCtrl s = w := hw.symm
      rw [hwc, bits]
      omega
    obtain ⟨hrise, hfall, hcap⟩ := nextAllowance_bounds (s := s) (100 * demand) (hup.trans (by rw [hw]; rfl)) hdn'
    refine ⟨_, rfl, ?_⟩
    rw [hmem, hcmds, hpower]
    refine ⟨hw.symm, rfl, hrise, hfall, hcap, fun henough e he => ?_, rfl, rfl, rfl⟩
    have hlow : ¬ (nextAllowance s (100 * demand) < 100 * demand) := Nat.not_lt.mpr henough
    obtain ⟨x, -, rfl⟩ := List.mem_map.mp he
    simp [hlow]
  case mean =>
    intro s m hlen
    obtain ⟨f, hf, hexec⟩ := exec_weirMeanUpdate m hlen
    exact ⟨_, hexec, rfl, rfl, rfl, hf, rfl⟩
  case duty =>
    intro s
    refine ⟨_, rfl, rfl, fun c v hmem htemp => List.mem_map.mpr ⟨(c, v), hmem, ?_⟩, fun hcap => ?_⟩
    · by_cases hf : v.freq = 600 <;> simp [hf, htemp]
    · rw [capDuty, if_neg (Nat.not_lt.mpr hcap)]
  case ramp =>
    intro s d hd
    refine ⟨fun hin => ?_, fun hout => by simp [exec, execDomainRampDone, hd, hout]⟩
    have hexec := exec_unit (i := .domainRampDone d) (s := s) (decide_eq_true hd) rfl
    rw [if_pos (by simpa using hin)] at hexec
    refine ⟨_, hexec, mem_addTo _ _, ?_, fun x hx => ?_, rfl⟩
    · simp [dropFrom]
    · rw [mem_addTo_iff]
      simp [hx]
  case placement =>
    intro s d temps hd
    refine ⟨fun h => by simp [exec, execPlacementRemap, hd, h], fun h => by simp [exec, execPlacementRemap, hd, h], ?_⟩
    have hexec := exec_unit (i := .placementRemap d temps) (s := s) (decide_eq_true hd) rfl
    by_cases hmay : bit s.power.pctrl.toNat 12 = true ∧ dieState s d = 1
    · rw [if_pos hmay] at hexec
      obtain ⟨m, hm⟩ := remapHot_frame d (fun c => temps.getD (c - 34 * d) 0) temps.length temps.sum
        ((List.range (meresExposed s d)).map (fun l => 128 * d + l)) s
      exact ⟨_, hexec, by rw [hm], fun l hl => physOf_remapHot _ _ _ _ _ _ hl⟩
    · rw [if_neg hmay] at hexec
      exact ⟨s, hexec, rfl, fun _ _ => rfl⟩

end Sys2Proof.Machine
end

section
/-! Containment (R406, R408-R410): what the actions of a level leave to the handling of an error, what they do at each level,
and the statement on contained errors. -/

namespace Sys2Proof.Machine

/-! ## What the actions of a level leave (R406) -/

/-- `t` has the handling, the counts of the levels and the module state of `s`; a command that waits for its re-run in `s` and a
Mere that is retired in `s` do so in `t`. -/
structure Undisturbed (s t : State) : Prop where
  handling : t.rel.handling = s.rel.handling
  levels : t.rel.levels = s.rel.levels
  rerun : ∀ n ∈ s.rel.toRerun, n ∈ t.rel.toRerun
  kstate : t.ctl.kstate = s.ctl.kstate
  retired : ∀ p, (getMere s p).retired = true → (getMere t p).retired = true

section
variable {s t u : State}

theorem Undisturbed.of_eq (hrel : t.rel = s.rel) (hctl : t.ctl = s.ctl) (hmere : t.compute = s.compute) : Undisturbed s t :=
  ⟨by rw [hrel], by rw [hrel], fun n h => by rwa [hrel], by rw [hctl], fun p h => by rwa [getMere, hmere]⟩

theorem Undisturbed.refl (s : State) : Undisturbed s s := .of_eq rfl rfl rfl

theorem Undisturbed.trans (h : Undisturbed s t) (g : Undisturbed t u) : Undisturbed s u :=
  ⟨g.handling.trans h.handling, g.levels.trans h.levels, fun n hn => g.rerun n (h.rerun n hn), g.kstate.trans h.kstate,
    fun p hp => g.retired p (h.retired p hp)⟩

end

/-- Steps that leave it, taken for every element of a list. -/
theorem foldl_undisturbed {α : Type} {f : State → α → State} (hf : ∀ s a, Undisturbed s (f s a)) (l : List α) (s : State) :
    Undisturbed s (l.foldl f s) := by
  induction l generalizing s with
  | nil => exact .refl s
  | cons a t ih => exact (hf s a).trans (ih _)

/-! ### The error log and the repair of frames (R240-R242, R411) -/

section
variable (s : State) (n f : Nat)

theorem logAdd_undisturbed (kind level die unit fl st dt cause : Nat) (info : Bytes) :
    Undisturbed s (logAdd s kind level die unit fl st dt cause info) := by
  unfold logAdd
  dsimp only
  split
  · split <;> exact ⟨rfl, rfl, fun _ h => h, rfl, fun _ h => h⟩
  · exact ⟨rfl, rfl, fun _ h => h, rfl, fun _ h => h⟩

theorem logNote_undisturbed (kind die unit : Nat) (info : Bytes) : Undisturbed s (logNote s kind die unit info) :=
  logAdd_undisturbed ..

theorem setStackS_undisturbed (v : Stack) : Undisturbed s (setStackS s n v) := .of_eq rfl rfl rfl

theorem flagStack_undisturbed : Undisturbed s (flagStack s n) := by
  unfold flagStack
  dsimp only
  split
  · exact (setStackS_undisturbed ..).trans (logNote_undisturbed ..)
  · exact .refl s

theorem retireFrame_undisturbed : Undisturbed s (retireFrame s n f) :=
  ((setStackS_undisturbed ..).trans (logNote_undisturbed ..)).trans (flagStack_undisturbed ..)

theorem markFrame_undisturbed : Undisturbed s (markFrame s n f) := by
  have hmark := (setStackS_undisturbed s n { s.mem.stack n with marked := addTo (s.mem.stack n).marked f }).trans
    (logNote_undisturbed _ 0x12 (8 + n) f (toLe 2 0))
  unfold markFrame
  dsimp only
  split
  · exact .refl s
  split
  · split
    · exact (setStackS_undisturbed ..).trans (retireFrame_undisturbed ..)
    · exact retireFrame_undisturbed ..
  split
  · exact hmark
  · exact hmark.trans (retireFrame_undisturbed ..)

theorem markFrames_undisturbed (l : List Nat) : Undisturbed s (markFrames n l s) := by
  induction l generalizing s with
  | nil => exact .refl s
  | cons a t ih => exact (markFrame_undisturbed ..).trans (ih _)

theorem spentBank_undisturbed (bank : Nat) : Undisturbed s (spentBank s n bank) := by
  unfold spentBank
  dsimp only
  split
  · exact .refl s
  · exact markFrames_undisturbed ..

theorem repairRow_undisturbed (r : Nat × Nat) : Undisturbed s (repairRow s n r) := by
  unfold repairRow
  dsimp only
  split
  · refine Undisturbed.trans ?_ (spentBank_undisturbed ..)
    refine Undisturbed.trans ?_ (logNote_undisturbed ..)
    exact .of_eq rfl rfl rfl
  · exact markFrame_undisturbed ..

theorem repairRows_undisturbed (l : List (Nat × Nat)) : Undisturbed s (repairRows n l s) := by
  induction l generalizing s with
  | nil => exact .refl s
  | cons a t ih => exact (repairRow_undisturbed ..).trans (ih _)

theorem leaveFrame_undisturbed : Undisturbed s (leaveFrame s n f) := by
  unfold leaveFrame
  dsimp only
  split
  · exact (repairRows_undisturbed ..).trans (retireFrame_undisturbed ..)
  · exact repairRows_undisturbed ..

theorem leaveFrames_undisturbed (l : List (Nat × Nat)) : Undisturbed s (leaveFrames l s) := by
  induction l generalizing s with
  | nil => exact .refl s
  | cons a t ih => exact (leaveFrame_undisturbed ..).trans (ih _)

end

/-! ### The end of commands (R46, R407) -/

section
variable (s : State) (c : Cmd)

theorem addTokens_undisturbed (q n k : Nat) : Undisturbed s (addTokens s q n k) := by
  unfold addTokens
  dsimp only
  split
  · exact .refl s
  · split <;> exact .of_eq rfl rfl rfl

theorem returnTokens_undisturbed (q : Nat) (l : List Nat) : Undisturbed s (returnTokens s q l) := by
  induction l generalizing s with
  | nil => exact .refl s
  | cons a t ih => exact (addTokens_undisturbed ..).trans (ih _)

theorem tokenAct_undisturbed (e : Err) : Undisturbed s (tokenAct s c e) := by
  unfold tokenAct poison
  split
  · exact addTokens_undisturbed ..
  · split <;> exact .of_eq rfl rfl rfl

theorem endClaims_undisturbed (k : Bool) : Undisturbed s (endClaims s c k) := by
  unfold endClaims
  dsimp only
  split
  · exact .of_eq rfl rfl rfl
  · refine Undisturbed.trans ?_ (leaveFrames_undisturbed ..)
    exact .of_eq rfl rfl rfl

/-- Seats given back leave retirement as it is. -/
theorem releaseSeats_undisturbed (cid : Nat) : Undisturbed s (releaseSeats s cid) := by
  have hsame (p : Nat) : (getMere (releaseSeats s cid) p).retired = (getMere s p).retired := by
    simp only [getMere, releaseSeats]
    induction s.compute.meres with
    | nil => rfl
    | cons e t ih =>
      simp only [List.map_cons, mget]
      split
      · rfl
      · exact ih
  exact ⟨rfl, rfl, fun _ h => h, rfl, fun p h => (hsame p).trans h⟩

theorem replyAct_undisturbed (e : Err) (w : Nat) : Undisturbed s (replyAct s c e w) := by
  have hend := (endClaims_undisturbed s c (c.opcode == 0x0102 && e.1 == 0x41)).trans (releaseSeats_undisturbed _ c.cid)
  unfold replyAct
  dsimp only
  split <;> exact hend.trans (.of_eq rfl rfl rfl)

theorem finishOne_undisturbed (e : Err) (w : Nat) : Undisturbed s (finishOne s c e w) :=
  (tokenAct_undisturbed ..).trans (replyAct_undisturbed ..)

theorem sweep_undisturbed (n : Nat) : Undisturbed s (sweep n s) := by
  induction n generalizing s with
  | zero => exact .refl s
  | succ n ih =>
    simp only [sweep]
    split
    · exact (finishOne_undisturbed ..).trans (ih _)
    · exact .refl s

theorem settle_undisturbed : Undisturbed s (settle s) := sweep_undisturbed s _

theorem complete_undisturbed (e : Err) (w : Nat) : Undisturbed s (complete s c e w) :=
  (finishOne_undisturbed ..).trans (settle_undisturbed _)

theorem finishAll_undisturbed (l : List (Cmd × Err)) : Undisturbed s (finishAll l s) := by
  induction l generalizing s with
  | nil => exact .refl s
  | cons a t ih => exact (finishOne_undisturbed ..).trans (ih _)

theorem tearAll_undisturbed (l : List Cmd) : Undisturbed s (tearAll l s) := by
  induction l generalizing s with
  | nil => exact .refl s
  | cons a t ih =>
    refine Undisturbed.trans ?_ (ih _)
    unfold tearMaster
    split <;> exact .of_eq rfl rfl rfl

theorem stopCmd_undisturbed : Undisturbed s (stopCmd s c) := by
  have hend := ((endClaims_undisturbed s c (c.opcode == 0x0102)).trans (releaseSeats_undisturbed _ c.cid)).trans
    (returnTokens_undisturbed _ c.q c.waits)
  unfold stopCmd
  dsimp only
  split <;> exact hend.trans (.of_eq rfl rfl rfl)

theorem stopCmds_undisturbed (l : List Cmd) : Undisturbed s (stopCmds l s) := by
  induction l generalizing s with
  | nil => exact .refl s
  | cons a t ih => exact (stopCmd_undisturbed ..).trans (ih _)

end

/-! ### Ports, Meres and entries (R276, R408, R412) -/

section
variable (s : State)

theorem rerouteMsg_undisturbed (p : Nat) (m : TxMsg) : Undisturbed s (rerouteMsg p s m) := by
  unfold rerouteMsg sendTx
  split
  case h_1 t ht =>
    obtain ⟨_, -, rfl⟩ := Option.map_eq_some_iff.mp ht
    exact .of_eq rfl rfl rfl
  case h_2 =>
    split
    · split
      · exact complete_undisturbed ..
      · exact .refl s
    · unfold lostBlock
      dsimp only
      split <;> exact .of_eq rfl rfl rfl

theorem portLost_undisturbed (p : Nat) : Undisturbed s (portLost s p) := by
  refine Undisturbed.trans ?_ (foldl_undisturbed (fun s m => rerouteMsg_undisturbed s p m) ..)
  exact .of_eq rfl rfl rfl

theorem portsGone_undisturbed (l : List Nat) : Undisturbed s (portsGone l s) := by
  induction l generalizing s with
  | nil => exact .refl s
  | cons a t ih =>
    refine Undisturbed.trans ?_ (ih _)
    split
    · exact .refl s
    · exact portLost_undisturbed ..

theorem endOnLast_undisturbed (d l p : Nat) : Undisturbed s (endOnLast s d l p) :=
  (finishAll_undisturbed ..).trans (settle_undisturbed _)

theorem logSite_undisturbed (e : ErrorSite) (fl cause : Nat) : Undisturbed s (logSite s e fl cause) := by
  cases e with
  | mere p src => exact logAdd_undisturbed ..
  | cluster d c src => exact logAdd_undisturbed ..
  | die d u a =>
    simp only [logSite]
    split
    · exact logAdd_undisturbed ..
    · split <;> exact logAdd_undisturbed ..
  | module src => exact logAdd_undisturbed ..

end

/-- A Mere whose domain is switched off stays retired (R385). -/
theorem domainsOff_undisturbed (s : State) (l : List Nat) : Undisturbed s (domainsOff s l) := by
  refine ⟨rfl, rfl, fun _ h => h, rfl, fun p h => ?_⟩
  have hsame : (getMere (domainsOff s l) p).retired = (getMere s p).retired := by
    simp only [getMere, domainsOff]
    induction s.compute.meres with
    | nil => rfl
    | cons e t ih =>
      simp only [List.map_cons, mget]
      by_cases he : e.1 = p
      · split <;> simp [Mere.lose]
      · split <;> simp only [ih]
  exact hsame.trans h

/-! ## Meres retired and dies taken out (R254, R255, R407, R408) -/

section
variable (s : State)

theorem killOn_undisturbed (l : List Nat) : Undisturbed s (killOn s l) := by
  refine Undisturbed.trans (stopCmds_undisturbed s
    (s.cmds.filter fun c => isKill c.opcode && l.any fun p => (seatedOn s p).any fun x => x.cid == c.cid)) ?_
  exact ⟨rfl, rfl, fun _ h => List.mem_append_left _ h, rfl, fun _ h => h⟩

/-- A kill-class command on one of the Meres waits for its re-run. -/
theorem mem_toRerun_killOn {l : List Nat} {p : Nat} {c : Cmd} (hp : p ∈ l) (hc : c ∈ seatedOn s p) (hk : isKill c.opcode = true) :
    c.cid ∈ (killOn s l).rel.toRerun := by
  refine List.mem_append_right _ (List.mem_map_of_mem (List.mem_filter.mpr ⟨List.mem_of_mem_filter hc, ?_⟩))
  rw [hk, Bool.true_and, List.any_eq_true]
  exact ⟨p, hp, List.any_eq_true.mpr ⟨c, hc, by simp⟩⟩

/-- A Mere marked as retired. -/
theorem setMere_undisturbed {p : Nat} {v : Mere} (h : v.retired = true) : Undisturbed s (setMere s p v) := by
  refine ⟨rfl, rfl, fun _ h => h, rfl, fun q hq => ?_⟩
  by_cases hqp : q = p
  · rw [hqp, getMere_setMere_same, h]
  · rwa [getMere_setMere_ne _ _ _ _ hqp]

theorem retireMere_undisturbed (p : Nat) : Undisturbed s (retireMere s p) ∧ (getMere (retireMere s p) p).retired = true := by
  have hmark (u t : State) (v : Mere) (hv : v.retired = true) (ht : t = { setMere u p v with
      rel := { u.rel with retired0 := t.rel.retired0, retired1 := t.rel.retired1 }, compute := { u.compute with
        meres := (setMere u p v).compute.meres, place := t.compute.place } }) :
      Undisturbed u t ∧ (getMere t p).retired = true := by
    have hset := setMere_undisturbed u (p := p) hv
    rw [ht]
    exact ⟨⟨rfl, rfl, fun _ h => h, rfl, hset.retired⟩, (congrArg Mere.retired (getMere_setMere_same u p v)).trans hv⟩
  unfold retireMere
  dsimp only
  split
  · exact ⟨.refl s, ‹_›⟩
  split
  · exact hmark s _ _ rfl rfl
  split
  · exact hmark s _ _ rfl rfl
  · have hend := endOnLast_undisturbed s (mereDie p) (128 * mereDie p + meresExposed s (mereDie p) - 1)
      (physOf s (128 * mereDie p + meresExposed s (mereDie p) - 1))
    split
    · exact (hmark _ _ _ rfl rfl).imp_left hend.trans
    · exact (hmark _ _ _ rfl rfl).imp_left hend.trans

theorem retireMeres_undisturbed (l : List Nat) : Undisturbed s (retireMeres l s) ∧
    ∀ p ∈ l, (getMere (retireMeres l s) p).retired = true := by
  induction l generalizing s with
  | nil => exact ⟨.refl s, by simp⟩
  | cons a t ih =>
    obtain ⟨hone, hret⟩ := retireMere_undisturbed s a
    obtain ⟨hrest, hall⟩ := ih (retireMere s a)
    refine ⟨hone.trans hrest, fun p hp => ?_⟩
    rcases List.mem_cons.mp hp with rfl | hp
    · exact hrest.retired p hret
    · exact hall p hp

end

theorem Counted.getMere_eq {s t : State} (h : Counted s t) (p : Nat) : getMere t p = getMere s p := by
  rw [getMere, getMere, h]

/-! ## Handling starts (R406, R410) -/

/-- An entry of the log leaves the errors that wait (R410). -/
theorem logAdd_pend (s : State) (kind level die unit fl st dt cause : Nat) (info : Bytes) :
    (logAdd s kind level die unit fl st dt cause info).rel.pend = s.rel.pend := by
  unfold logAdd
  dsimp only
  split
  · split <;> rfl
  · rfl

/-- A site's entry moves nothing but the log. -/
theorem logSite_frame (s : State) (e : ErrorSite) (fl cause : Nat) : logSite s e fl cause = { s with rel := (logSite s e fl cause).rel } := by
  have hadd (kind level die unit fl st dt cause : Nat) (info : Bytes) : logAdd s kind level die unit fl st dt cause info =
      { s with rel := (logAdd s kind level die unit fl st dt cause info).rel } := by
    unfold logAdd
    dsimp only
    split
    · split <;> rfl
    · rfl
  cases e with
  | mere p src => exact hadd ..
  | cluster d c src => exact hadd ..
  | die d u a =>
    simp only [logSite]
    split
    · exact hadd ..
    · split <;> exact hadd ..
  | module src => exact hadd ..

/-- The state once error `e` is entered, under handling and counted at its level, before the level's actions. -/
def handlingBegun (s : State) (e : ErrorSite) : State :=
  let s1 := logSite (countSramUnc s e) e 0 0xFFFFFFFF
  countLevel { s1 with rel := { s1.rel with
    handling := some { site := e, level := siteLevel e, seq := lastSeq s1 } } } (siteLevel e)

section
variable (s : State) (e : ErrorSite)

theorem countSramUnc_frame : ∃ n, countSramUnc s e = { s with rel := { s.rel with rsramunc := n } } := by
  have hif (b : Bool) : ∃ n, (if b then { s with rel := { s.rel with rsramunc := satAdd 32 s.rel.rsramunc 1 } } else s) =
      { s with rel := { s.rel with rsramunc := n } } := by
    cases b with
    | true => exact ⟨_, rfl⟩
    | false => exact ⟨s.rel.rsramunc, rfl⟩
  exact hif _

theorem handlingBegun_frame : handlingBegun s e = { s with rel := (handlingBegun s e).rel } := by
  obtain ⟨n, hn⟩ := countSramUnc_frame s e
  unfold handlingBegun
  dsimp only
  rw [logSite_frame, hn]
  rfl

theorem handlingBegun_handling : ∃ b, (handlingBegun s e).rel.handling = some b ∧ b.level = siteLevel e ∧ b.site = e :=
  ⟨_, rfl, rfl, rfl⟩

theorem handlingBegun_levels : mget 0 (handlingBegun s e).rel.levels (siteLevel e) =
    min (mget 0 s.rel.levels (siteLevel e) + 1) 0xFFFF := by
  obtain ⟨n, hn⟩ := countSramUnc_frame s e
  have hlog : (logSite (countSramUnc s e) e 0 0xFFFFFFFF).rel.levels = s.rel.levels := by
    rw [(logSite_undisturbed ..).levels, hn]
  simp only [handlingBegun, countLevel, mget_mmod_same, satAdd, hlog]
  rfl

/-- With nothing under handling, an error that is no loss of a die is handled at its level. -/
theorem exec_containedError_first (hok : siteOk e = true) (hloss : isLoss e = false) (hnone : s.rel.handling = none) :
    ∃ t, exec (.containedError e) s = .next t ∧ Counted (bothLost (handleSite (handlingBegun s e) e)) t := by
  obtain ⟨n, hn⟩ := countSramUnc_frame s e
  have hfirst : containError (countSramUnc s e) e = bothLost (handleSite (handlingBegun s e) e) := by
    have hknown : knownLoss (countSramUnc s e) e = false := by rw [knownLoss, hloss, Bool.false_and]
    have hh : (countSramUnc s e).rel.handling = none := by rw [hn]; exact hnone
    rw [containError, if_neg (by simp [hknown]), hh]
    rfl
  refine ⟨_, exec_unit hok rfl, ?_⟩
  rw [hfirst]
  exact capSync_counted s _

end

/-- Below the level of a die no loss of both compute dies is seen; nor is it while C0 is up. -/
theorem bothLost_eq {s : State} (h : (∃ b, s.rel.handling = some b ∧ b.level ≠ 2) ∨ dieState s 0 ≠ 2) : bothLost s = s := by
  unfold bothLost
  split
  · rename_i b hb
    rw [if_neg]
    rcases h with ⟨x, hx, hlevel⟩ | hdie
    · obtain rfl : b = x := Option.some.inj (hb.symm.trans hx)
      simp [hlevel]
    · simp [hdie]
  · rfl

/-! ## The loss of a die other than a compute die (R255) -/

/-- A link die or S taken out. -/
theorem takeDie_off {s : State} {d : Nat} (h2 : 2 ≤ d) (h5 : d < 5) : Undisturbed s (takeDie s d) ∧
    dieState (takeDie s d) d = 2 ∧ dieState (takeDie s d) 0 = dieState s 0 ∧
    bit (takeDie s d).dies.dseen.toNat d = true := by
  have hlink : linkOf d = [] := by
    rw [linkOf, if_neg (by omega), if_neg (by omega)]
  have heq : takeDie s d = portsGone ((d :: linkOf d).flatMap diePorts) (markLost s [d]) := by
    rw [takeDie, hlink, if_neg (by omega)]
  have hmask : bit (BitVec.ofNat 32 (maskOf [d])).toNat d = true := by interval_cases d <;> rfl
  have hdies : (takeDie s d).dies = (markLost s [d]).dies := by rw [heq, portsGone_dies]
  refine ⟨?_, ?_, ?_, ?_⟩
  · rw [heq]
    refine Undisturbed.trans ?_ (portsGone_undisturbed ..)
    exact .of_eq rfl rfl rfl
  · rw [dieState, hdies]
    exact dieState_setDie_same s d 2
  · rw [dieState, hdies]
    exact dieState_setDie_ne s d 0 2 (by omega)
  · rw [hdies]
    simp only [markLost, bit_or, hmask, Bool.or_true]

/-! ## The failure of the whole module (R406 level 3) -/

section
variable (s : State)

/-- What is left after commands end stood before them and is none of them. -/
theorem mem_of_mem_finishAll {l : List (Cmd × Err)} {x : Cmd} (h : x ∈ (finishAll l s).cmds) :
    x ∈ s.cmds ∧ ∀ y ∈ l, x.cid ≠ y.1.cid := by
  induction l generalizing s with
  | nil => exact ⟨h, by simp⟩
  | cons a t ih =>
    obtain ⟨hx, hne⟩ := ih (finishOne s a.1 a.2 0) h
    rw [finishOne_cmds, List.mem_filter] at hx
    refine ⟨hx.1, fun y hy => ?_⟩
    rcases List.mem_cons.mp hy with rfl | hy
    · simpa using hx.2
    · exact hne y hy

theorem tearAll_frame (l : List Cmd) : tearAll l s = { s with mem := (tearAll l s).mem } := by
  induction l generalizing s with
  | nil => rfl
  | cons a t ih =>
    simp only [tearAll]
    rw [ih]
    unfold tearMaster
    split <;> rfl

/-- Every dispatched command of the job's queues has ended. -/
theorem jobFailsAll_ended : ∀ x ∈ (jobFailsAll s).cmds, x.q < 64 → x.inFlight = false := by
  intro x hx hq
  unfold jobFailsAll at hx
  dsimp only at hx
  rw [tearAll_frame] at hx
  obtain ⟨hmem, hne⟩ := mem_of_mem_finishAll _ hx
  by_contra hfl
  rw [Bool.not_eq_false] at hfl
  exact hne (x, killed 2 0) (List.mem_map_of_mem (List.mem_filter.mpr ⟨hmem, by simp [hq, hfl]⟩)) rfl

theorem finishAll_frame (l : List (Cmd × Err)) : EndFrame s (finishAll l s) := by
  induction l generalizing s with
  | nil => exact .refl s
  | cons a t ih => exact (finishOne_frame ..).trans (ih _)

theorem finishAll_job (l : List (Cmd × Err)) : (finishAll l s).job = s.job := by rw [(finishAll_frame s l).2]

theorem jobFails_failed {lost : List Nat} {o : Option Nat} (h : s.job.loaded = true) : (jobFails s lost o).job.failed = true := by
  have hfail : (failJob s (fun c => lost.any fun d => needsDie s d c) o).job.failed = true := by
    unfold failJob
    split
    · rfl
    · simp_all
  rw [jobFails, if_pos h, endReruns]
  exact (congrArg Job.failed (finishAll_job ..)).trans hfail

theorem jobFailsAll_failed (h : s.job.loaded = true) : (jobFailsAll s).job.failed = true := by
  unfold jobFailsAll
  dsimp only
  rw [tearAll_frame, finishAll_job]
  exact jobFails_failed s h

theorem failJob_handling (stuck : Cmd → Bool) (o : Option Nat) : (failJob s stuck o).rel.handling = s.rel.handling := by
  unfold failJob
  split
  · exact ((finishAll_undisturbed (tickFree s) _).trans (tearAll_undisturbed ..)).handling
  · rfl

theorem jobFails_handling (lost : List Nat) (o : Option Nat) : (jobFails s lost o).rel.handling = s.rel.handling := by
  unfold jobFails
  split
  · exact (finishAll_undisturbed ..).handling.trans (failJob_handling ..)
  · rfl

theorem jobFailsAll_handling : (jobFailsAll s).rel.handling = s.rel.handling :=
  ((finishAll_undisturbed ..).trans (tearAll_undisturbed ..)).handling.trans (jobFails_handling ..)

/-- The safe state leaves the job, the commands and the handling. -/
theorem enterSafe_leaves (stage : Nat) : (enterSafe s stage).job = s.job ∧ (enterSafe s stage).cmds = s.cmds ∧
    (enterSafe s stage).rel = s.rel := by
  have hsleep (l : List Nat) (u : State) : stacksSleep u l = { u with mem := (stacksSleep u l).mem } := by
    unfold stacksSleep
    induction l generalizing u with
    | nil => rfl
    | cons n t ih => rw [List.foldl_cons, ih]; rfl
  unfold enterSafe raiseKirq
  dsimp only
  rw [hsleep]
  split <;> exact ⟨rfl, rfl, rfl⟩

end

/-- With no error waiting, the failure of the module fails its job and enters the safe state. -/
theorem handleModule_eq {s : State} (h : s.rel.pend = []) : handleModule s = enterSafe (jobFailsAll s) 10 := by
  have hsame : { s with rel := { s.rel with pend := [] } } = s := by rw [← h]
  rw [handleModule, h, List.foldl_nil, hsame]

theorem handlingBegun_module_pend (s : State) (src : Nat) : (handlingBegun s (.module src)).rel.pend = s.rel.pend :=
  logAdd_pend ..

/-! ## The statement -/

/-- An error outside the domain under handling waits behind those that wait (R409). -/
theorem exec_containedError_waits {s : State} {p src q src2 : Nat} {b : Contained} (hp : p < 272) (hpq : p ≠ q)
    (hsrc : src ≠ 1 ∧ src ≠ 2) (hlen : s.rel.pend.length < 32) (hb : s.rel.handling = some b) (hsite : b.site = .mere q src2)
    (hlevel : b.level = 0) : ∃ t u k, exec (.containedError (.mere p src)) s = .next t ∧ Counted u t ∧
      u = { s with rel := u.rel } ∧ u.rel.handling = s.rel.handling ∧
      u.rel.pend = s.rel.pend ++ [{ site := .mere p src, level := 0, seq := k }] := by
  have hcount : countSramUnc s (.mere p src) = s := by simp [countSramUnc, hsrc]
  have hinside : insideOf b (.mere p src) = false := by simp [insideOf, hlevel, hsite, Ne.symm hpq]
  have hcontain : containError s (.mere p src) = { logSite s (.mere p src) 2 0xFFFFFFFF with
      rel := { (logSite s (.mere p src) 2 0xFFFFFFFF).rel with pend := (logSite s (.mere p src) 2 0xFFFFFFFF).rel.pend ++
        [{ site := .mere p src, level := 0, seq := lastSeq (logSite s (.mere p src) 2 0xFFFFFFFF) }] } } := by
    simp [containError, knownLoss, isLoss, hb, hlevel, hinside, hlen, siteLevel]
  refine ⟨_, _, lastSeq (logSite s (.mere p src) 2 0xFFFFFFFF), exec_unit (decide_eq_true hp) rfl, capSync_counted s _, ?_⟩
  rw [hcount, hcontain]
  refine ⟨?_, (logSite_undisturbed ..).handling, congrArg (· ++ _) (logAdd_pend ..)⟩
  rw [logSite_frame]

/-- A command that waits for its re-run is in its queue again (R407). -/
theorem findCmd_rerunCmds {s : State} {n : Nat} {c : Cmd} (hn : n ∈ s.rel.toRerun) (hc : findCmd s n = some c)
    (hstop : c.stage = .stopped) : findCmd (rerunCmds s) n = some { c with stage := .fetched } := by
  have hcid : c.cid = n := by simpa using List.find?_some hc
  have hkeys : (fun x : Cmd => x.cid == n) ∘ (fun x : Cmd =>
      if s.rel.toRerun.contains x.cid && x.stage == .stopped then { x with stage := .fetched } else x) = fun x => x.cid == n := by
    funext x
    simp only [Function.comp]
    split <;> rfl
  simp only [findCmd, rerunCmds] at hc ⊢
  rw [List.find?_map, hkeys, hc, Option.map_some]
  simp [hcid, hn, hstop]

/-- Settles O48: an error that finds nothing under handling is handled at its level, and the end of handling takes the next one. -/
theorem errorsAreContainedAtTheirLevel : Obligations.ErrorsAreContainedAtTheirLevel := by
  unfold Obligations.ErrorsAreContainedAtTheirLevel
  refine ⟨?mere, ?cluster, ?die, ?waits, ?module, ?done, ?next, ?held, ?idle⟩
  case mere =>
    intro s p src hp _ _ hnone _
    obtain ⟨t, hexec, ht⟩ := exec_containedError_first s (.mere p src) (decide_eq_true hp) rfl hnone
    obtain ⟨b, hb, hlevel, hsite⟩ := handlingBegun_handling s (.mere p src)
    obtain ⟨hretire, hall⟩ := retireMeres_undisturbed (killOn (handlingBegun s (.mere p src)) [p]) [p]
    have hsteady := (killOn_undisturbed (handlingBegun s (.mere p src)) [p]).trans hretire
    rw [handleSite, bothLost_eq (.inl ⟨b, hsteady.handling.trans hb, by rw [hlevel]; exact Nat.ne_of_beq_eq_false rfl⟩)] at ht
    refine ⟨t, hexec, ?_, ⟨b, ?_, hlevel, hsite⟩, ?_, ?_, fun c hc hk => ?_⟩
    · rw [ht.getMere_eq]
      exact hall p (by simp)
    · rw [ht.rel_eq]
      exact hsteady.handling.trans hb
    · rw [ht.rel_eq]
      exact (congrArg (mget 0 · 0) hsteady.levels).trans (handlingBegun_levels s (.mere p src))
    · rw [ht]
      exact hsteady.kstate.trans (by rw [handlingBegun_frame])
    · rw [ht.rel_eq]
      refine hretire.rerun _ (mem_toRerun_killOn _ (List.mem_singleton_self p) ?_ hk)
      rw [handlingBegun_frame]
      exact hc
  case cluster =>
    intro s d c src hd hc hnone
    obtain ⟨t, hexec, ht⟩ := exec_containedError_first s (.cluster d c src) (decide_eq_true ⟨hd, hc⟩) rfl hnone
    obtain ⟨b, hb, hlevel, hsite⟩ := handlingBegun_handling s (.cluster d c src)
    obtain ⟨hretire, hall⟩ := retireMeres_undisturbed (killOn (handlingBegun s (.cluster d c src)) (clusterMeres d c))
      (clusterMeres d c)
    have hsteady := ((killOn_undisturbed _ (clusterMeres d c)).trans hretire).trans (domainsOff_undisturbed _ [38 * d + c])
    rw [handleSite, bothLost_eq (.inl ⟨b, hsteady.handling.trans hb, by rw [hlevel]; exact Nat.ne_of_beq_eq_false rfl⟩)] at ht
    refine ⟨t, hexec, ?_, fun p hp => ?_, ⟨b, ?_, hlevel, hsite⟩, ?_, ?_⟩
    · rw [ht.power_eq]
      simp [domainsOff]
    · rw [ht.getMere_eq]
      exact (domainsOff_undisturbed _ [38 * d + c]).retired p (hall p hp)
    · rw [ht.rel_eq]
      exact hsteady.handling.trans hb
    · rw [ht.rel_eq]
      exact (congrArg (mget 0 · 1) hsteady.levels).trans (handlingBegun_levels s (.cluster d c src))
    · rw [ht]
      exact hsteady.kstate.trans (by rw [handlingBegun_frame])
  case die =>
    intro s d u a h2 h5 hu hnone hdie0
    have hloss : isLoss (.die d u a) = false := decide_eq_false (by omega)
    obtain ⟨t, hexec, ht⟩ := exec_containedError_first s (.die d u a) (decide_eq_true (by omega)) hloss hnone
    obtain ⟨b, hb, hlevel, hsite⟩ := handlingBegun_handling s (.die d u a)
    have hlevel2 : siteLevel (.die d u a) = 2 := if_neg (by omega)
    have hlevels := handlingBegun_levels s (.die d u a)
    obtain ⟨hsteady, hoff, hother, hseen⟩ := takeDie_off (s := handlingBegun s (.die d u a)) h2 h5
    have hsame : dieState (handlingBegun s (.die d u a)) 0 = dieState s 0 := by rw [handlingBegun_frame]; rfl
    have hact : handleSite (handlingBegun s (.die d u a)) (.die d u a) = takeDie (handlingBegun s (.die d u a)) d :=
      if_neg (by omega)
    rw [hact, bothLost_eq (.inr (by rw [hother, hsame, hdie0]; decide))] at ht
    rw [hlevel2] at hlevel hlevels
    refine ⟨t, hexec, ?_, ?_, ⟨b, ?_, hlevel, hsite⟩, ?_, ?_⟩
    · rw [dieState, ht.dies_eq]
      exact hoff
    · rw [ht.dies_eq]
      exact hseen
    · rw [ht.rel_eq]
      exact hsteady.handling.trans hb
    · rw [ht.rel_eq]
      exact (congrArg (mget 0 · 2) hsteady.levels).trans hlevels
    · rw [ht]
      exact hsteady.kstate.trans (by rw [handlingBegun_frame])
  case waits =>
    intro s p src src2 q hp _ hpq h1 h2 hlen ⟨b, hb, hsite, hlevel⟩
    obtain ⟨t, u, k, hexec, ht, hframe, hhandling, hpend⟩ := exec_containedError_waits hp hpq ⟨h1, h2⟩ hlen hb hsite hlevel
    refine ⟨t, hexec, by rw [ht.rel_eq, hhandling], ⟨_, by rw [ht.rel_eq, hpend], rfl, rfl⟩, ?_, ?_⟩
    · rw [ht.cmds_eq, hframe]
    · rw [getMere, ht, hframe]
      rfl
  case module =>
    intro s src hnone hpend
    obtain ⟨t, hexec, ht⟩ := exec_containedError_first s (.module src) rfl rfl hnone
    obtain ⟨b, hb, hlevel, -⟩ := handlingBegun_handling s (.module src)
    rw [handleSite, handleModule_eq ((handlingBegun_module_pend s src).trans hpend)] at ht
    have hjob : (handlingBegun s (.module src)).job = s.job := by rw [handlingBegun_frame]
    obtain ⟨hsafejob, hsafecmds, hsaferel⟩ := enterSafe_leaves (jobFailsAll (handlingBegun s (.module src))) 10
    obtain ⟨hkstate, hstage⟩ := enterSafe_ctl (jobFailsAll (handlingBegun s (.module src))) 10
    have hhandling := (jobFailsAll_handling (handlingBegun s (.module src))).trans hb
    rw [bothLost_eq (.inl ⟨b, by rw [hsaferel, hhandling], by rw [hlevel]; exact Nat.ne_of_beq_eq_false rfl⟩)] at ht
    refine ⟨t, hexec, by rw [ht]; exact hkstate, by rw [ht]; exact hstage, fun hl => ?_, ?_⟩
    · rw [ht]
      exact (congrArg Job.failed hsafejob).trans (jobFailsAll_failed _ (by rw [hjob, hl]))
    · rw [ht.cmds_eq, hsafecmds]
      exact fun c hc hq => jobFailsAll_ended _ c hc hq
  case done =>
    intro s b hb hlevel hpend
    refine ⟨rerunCmds { s with rel := { s.rel with handling := none } }, ?_, rfl, rfl,
      fun c n hn hc hstop => findCmd_rerunCmds hn hc hstop, rfl⟩
    simp [exec, execContainmentDone, hb, show ¬ b.level = 3 by omega, rerunCmds, hpend]
  case next =>
    intro s b x rest hb hlevel hpend
    have hl : ¬ b.level = 3 := by omega
    refine ⟨_, ?_, capSync_counted s _⟩
    simp [exec, execContainmentDone, hb, hl, rerunCmds, hpend]
  case held =>
    intro s b hb hlevel
    simp [exec, execContainmentDone, hb, hlevel]
  case idle =>
    intro s hnone
    simp [exec, execContainmentDone, hnone]

end Sys2Proof.Machine
end

section
/-! Device memory from outside a command (R239, R349): the aperture, the cores' windows, and the statement on them. -/

namespace Sys2Proof.Machine

/-! ## Outside reads and writes (R239) -/

section
variable (s : State) (a n : Nat) (k : Sector)

/-- Memory that answers has a place in HBM. -/
theorem reachable_iff : reachable s a n = true ↔ s.mem.mappedRange a n = true ∧ ∃ d f o, s.mem.translate a = some (d, f, o) ∧
    (s.mem.stack d).present = true ∧ (s.mem.stack d).selfRefresh = false := by
  unfold reachable
  cases h : s.mem.translate a with
  | none => simp
  | some t => obtain ⟨d, f, o⟩ := t; simp

theorem reachable_of_unmapped (h : s.mem.mappedRange a n = false) : reachable s a n = false := by simp [reachable, h]

/-- An access to a sector moves nothing but memory and the error log. -/
theorem sectorOutcome_parts : ∃ m r, sectorOutcome s a k false = { s with mem := m, rel := r } ∧ m.cells = s.mem.cells ∧
    m.claims = s.mem.claims ∧ m.wf = s.mem.wf ∧ ∀ x, m.read x = s.mem.read x := by
  refine ⟨_, (sectorOutcome s a k false).rel, ?_, sectorOutcome_cells s a k false, sectorOutcome_claims s a k false,
    sectorOutcome_memWf s a k false, sectorOutcome_read s a k false⟩
  conv_lhs => rw [sectorOutcome_frame s a k false]
  congr 1
  rw [sectorOutcome_frame s a k false]

theorem outsideRead_good (h : k ≠ .uncorrectable) : outsideRead s a n k = (sectorOutcome s a k false, some (s.mem.readN a n)) := by
  cases k with
  | uncorrectable => exact absurd rfl h
  | _ => rfl

theorem outsideRead_uncorrectable : outsideRead s a n .uncorrectable = (sectorOutcome s a .uncorrectable false, none) := rfl

end

/-- A write that takes place: one of whole sectors, or one whose sector can be read. -/
theorem outsideWrite_good (s : State) (a : Nat) (b : Bytes) (k : Sector) (h : k ≠ .uncorrectable ∨ a % 64 = 0 ∧ b.length % 64 = 0) :
    ∃ m r, outsideWrite s a b k = (hbmWrite { s with mem := m, rel := r } a b, true) ∧ m.claims = s.mem.claims ∧
      m.wf = s.mem.wf ∧ (∀ x, m.read x = s.mem.read x) ∧ (k = .clean → m = s.mem ∧ r = s.rel) := by
  unfold outsideWrite
  by_cases hwhole : wholeSectors a b.length = true
  · rw [if_pos hwhole]
    exact ⟨s.mem, s.rel, rfl, rfl, rfl, fun _ => rfl, fun _ => ⟨rfl, rfl⟩⟩
  · obtain ⟨m, r, hout, -, hclaims, hwf, hread⟩ := sectorOutcome_parts s a k
    have hk : k ≠ .uncorrectable := h.resolve_right (by simpa [wholeSectors] using hwhole)
    rw [if_neg hwhole]
    refine ⟨m, r, ?_, hclaims, hwf, hread, fun hclean => ?_⟩
    · rw [← hout]
      cases k with
      | uncorrectable => exact absurd rfl hk
      | _ => rfl
    · rw [hclean, sectorOutcome_clean] at hout
      exact ⟨(congrArg State.mem hout).symm, (congrArg State.rel hout).symm⟩

/-- A write into a part of a sector that stays uncorrectable takes nothing. -/
theorem outsideWrite_uncorrectable (s : State) (a : Nat) (b : Bytes) (h : a % 64 ≠ 0 ∨ b.length % 64 ≠ 0) :
    outsideWrite s a b .uncorrectable = (sectorOutcome s a .uncorrectable false, false) := by
  have hpart : ¬ wholeSectors a b.length = true := by simp only [wholeSectors, Bool.and_eq_true, beq_iff_eq]; omega
  simp only [outsideWrite, if_neg hpart]

/-- A write that takes place reads back and leaves every other byte. -/
theorem outsideWrite_reads {s u : State} {a : Nat} {b : Bytes} {k : Sector} (hs : Safe s)
    (h : k ≠ .uncorrectable ∨ a % 64 = 0 ∧ b.length % 64 = 0) (hc : ∀ x, a ≤ x → x < a + b.length → claimAt s.mem.claims x = none)
    (hu : u = (outsideWrite s a b k).1) : u.mem.readN a b.length = b ∧
      (∀ x, x < a ∨ a + b.length ≤ x → u.mem.read x = s.mem.read x) ∧ u = { s with mem := u.mem, rel := u.rel } ∧
      (k = .clean → u.rel = s.rel) := by
  obtain ⟨m, r, hout, hclaims, hwf, hread, hclean⟩ := outsideWrite_good s a b k h
  rw [hout] at hu
  subst hu
  have hm : m.wf = true := hwf.trans hs
  refine ⟨Memory.readN_write m a b hm (by rwa [hclaims]), fun x hx => ?_, rfl, fun hk => (hclean hk).2⟩
  exact (Memory.read_write_outside m a x b hm hx).trans (hread x)

/-- The same, once the capability record has followed. -/
theorem counted_outsideWrite {s t : State} {a : Nat} {b : Bytes} {k : Sector} (hs : Safe s)
    (h : k ≠ .uncorrectable ∨ a % 64 = 0 ∧ b.length % 64 = 0) (hc : ∀ x, a ≤ x → x < a + b.length → claimAt s.mem.claims x = none)
    (ht : Counted (outsideWrite s a b k).1 t) : t.mem.readN a b.length = b ∧
      (∀ x, x < a ∨ a + b.length ≤ x → t.mem.read x = s.mem.read x) ∧ Counted { s with mem := t.mem, rel := t.rel } t ∧
      (k = .clean → t.rel = s.rel) := by
  obtain ⟨hback, hrest, hframe, hrel⟩ := outsideWrite_reads hs h hc rfl
  have hsame : { s with mem := t.mem, rel := t.rel } = (outsideWrite s a b k).1 := by
    rw [ht.mem_eq, ht.rel_eq]
    exact hframe.symm
  rw [hsame, ht.mem_eq, ht.rel_eq]
  exact ⟨hback, hrest, ht, hrel⟩

/-! ## The aperture and the cores' accesses (R230, R344, R349) -/

section
variable {s : State} {via : Via} {off n : Nat}

/-- The cores' accesses need the cores, count nowhere, and answer them. -/
theorem via_cores (s : State) (h : via ≠ .aperture) :
    viaUp s via = sourceUp s .cores ∧ viaMiss s via = s ∧ ∀ b, viaData b via = .coreData b := by
  cases via with
  | aperture => exact absurd rfl h
  | coreJob => exact ⟨rfl, rfl, fun _ => rfl⟩
  | coreWindow => exact ⟨rfl, rfl, fun _ => rfl⟩

/-- A read of memory that answers. -/
theorem exec_apertureRead_good {k : Sector} (hup : viaUp s via = true) (hreach : viaReach s (viaAddr s off via) n via = true)
    (hk : k ≠ .uncorrectable) : exec (.apertureRead ⟨via, off⟩ n k) s = .next (capSync s (emit
      (sectorOutcome s (viaAddr s off via) k false) (viaData (s.mem.readN (viaAddr s off via) n) via))) := by
  simp [exec, execApertureRead, apertureRead, hup, hreach, outsideRead_good _ _ _ _ hk]

theorem exec_apertureRead_clean (hup : viaUp s via = true) (hreach : viaReach s (viaAddr s off via) n via = true) :
    ∃ t, exec (.apertureRead ⟨via, off⟩ n .clean) s = .next t ∧
      Counted { s with out := s.out ++ [viaData (s.mem.readN (viaAddr s off via) n) via] } t := by
  refine ⟨_, exec_apertureRead_good hup hreach (by decide), ?_⟩
  rw [sectorOutcome_clean]
  exact capSync_counted ..

theorem exec_apertureRead_uncorrectable (hup : viaUp s via = true) (hreach : viaReach s (viaAddr s off via) n via = true) :
    exec (.apertureRead ⟨via, off⟩ n .uncorrectable) s = .next (capSync s (emit
      (sectorOutcome s (viaAddr s off via) .uncorrectable false) (viaData (List.replicate n 0xFF#8) via))) := by
  simp [exec, execApertureRead, apertureRead, hup, hreach, outsideRead_uncorrectable]

/-- A read where nothing answers. -/
theorem exec_apertureRead_miss (k : Sector) (hup : viaUp s via = true) (hreach : viaReach s (viaAddr s off via) n via = false) :
    exec (.apertureRead ⟨via, off⟩ n k) s =
      .next (capSync s (emit (viaMiss s via) (viaData (List.replicate n 0xFF#8) via))) := by
  simp [exec, execApertureRead, apertureRead, hup, hreach]

theorem exec_apertureWrite_reached {b : Bytes} (k : Sector) (hup : viaUp s via = true)
    (hreach : viaReach s (viaAddr s off via) b.length via = true) :
    exec (.apertureWrite ⟨via, off⟩ b k) s = .next (capSync s (outsideWrite s (viaAddr s off via) b k).1) := by
  simp [exec, execApertureWrite, hup, hreach]

theorem exec_apertureWrite_miss {b : Bytes} (k : Sector) (hup : viaUp s via = true)
    (hreach : viaReach s (viaAddr s off via) b.length via = false) :
    exec (.apertureWrite ⟨via, off⟩ b k) s = .next (viaMiss s via) := by
  simp [exec, execApertureWrite, hup, hreach]

/-- A write of the cores to memory that answers. -/
theorem exec_apertureWrite_clean {b : Bytes} (hup : viaUp s via = true) (hlen : b.length = n)
    (hreach : viaReach s (viaAddr s off via) n via = true) (hs : Safe s)
    (hc : ∀ x, viaAddr s off via ≤ x → x < viaAddr s off via + n → claimAt s.mem.claims x = none) :
    ∃ t, exec (.apertureWrite ⟨via, off⟩ b .clean) s = .next t ∧ t.mem.readN (viaAddr s off via) n = b ∧
      (∀ x, x < viaAddr s off via ∨ viaAddr s off via + n ≤ x → t.mem.read x = s.mem.read x) ∧
      Counted { s with mem := t.mem } t := by
  subst hlen
  obtain ⟨hback, hrest, hframe, hrel⟩ := counted_outsideWrite (k := .clean) hs (.inl (by decide)) hc (capSync_counted s _)
  rw [hrel rfl] at hframe
  exact ⟨_, exec_apertureWrite_reached _ hup hreach, hback, hrest, hframe⟩

end

/-- Settles O27: each access by whether something answers at its address, and where memory does, by its sectors. -/
theorem apertureReadsAndWritesMemory : Obligations.ApertureReadsAndWritesMemory := by
  unfold Obligations.ApertureReadsAndWritesMemory
  refine ⟨?read, ?write, ?job, ?window, ?absent, ?down⟩
  case read =>
    intro s off n a hbars ha
    have hup : viaUp s .aperture = true := hbars
    obtain rfl : a = viaAddr s off .aperture := ha
    refine ⟨exec_apertureRead_clean hup, fun hreach k hk => ⟨_, exec_apertureRead_good hup hreach hk, ?_⟩,
      fun hreach => ⟨_, exec_apertureRead_uncorrectable hup hreach, ?_⟩, fun hmap k =>
      ⟨_, exec_apertureRead_miss k hup (reachable_of_unmapped _ _ _ hmap), capSync_counted _ _⟩⟩
    · rw [(capSync_counted _ _).out_eq]
      simp [emit, viaData]
    · obtain ⟨d, f, o, hplace, -⟩ := ((reachable_iff ..).mp hreach).2
      obtain ⟨m, r, hout, hcells, -⟩ := sectorOutcome_parts s (viaAddr s off .aperture) .uncorrectable
      have hmuncor := sectorOutcome_muncor hplace false
      rw [hout] at hmuncor ⊢
      have hcount := capSync_counted s (emit { s with mem := m, rel := r } (viaData (List.replicate n 0xFF#8) .aperture))
      rw [hcount.out_eq, hcount.mem_eq]
      exact ⟨rfl, hmuncor, by rw [hcount]; rfl, hcells⟩
  case write =>
    intro s off a b hbars ha
    have hup : viaUp s .aperture = true := hbars
    obtain rfl : a = viaAddr s off .aperture := ha
    refine ⟨fun hs hreach hc k hk => ?_, fun hreach hpart => ⟨_, exec_apertureWrite_reached _ hup hreach, ?_⟩, fun hmap k =>
      exec_apertureWrite_miss k hup (reachable_of_unmapped _ _ _ hmap)⟩
    · obtain ⟨hback, hrest, hframe, -⟩ := counted_outsideWrite hs hk hc (capSync_counted s _)
      exact ⟨_, exec_apertureWrite_reached _ hup hreach, hback, hrest, hframe⟩
    · obtain ⟨d, f, o, hplace, -⟩ := ((reachable_iff ..).mp hreach).2
      rw [(capSync_counted _ _).mem_eq, outsideWrite_uncorrectable _ _ _ hpart]
      exact ⟨sectorOutcome_cells .., sectorOutcome_muncor hplace false⟩
  case job =>
    intro s a n hup hloaded hreach
    have hvia : viaReach s (viaAddr s a .coreJob) n .coreJob = true := by simp [viaReach, viaAddr, hloaded, hreach]
    exact ⟨exec_apertureRead_clean hup hvia, fun b hs hlen hc => exec_apertureWrite_clean hup hlen hvia hs hc⟩
  case window =>
    intro s off n hup hsize hstacks
    have hvia : viaReach s (viaAddr s off .coreWindow) n .coreWindow = true := by
      simp only [viaReach, viaAddr, Bool.and_eq_true, List.all_eq_true, List.mem_range, Bool.not_eq_true']
      exact ⟨decide_eq_true (by omega), hstacks⟩
    exact ⟨exec_apertureRead_clean hup hvia, fun b hs hlen hc => exec_apertureWrite_clean hup hlen hvia hs hc⟩
  case absent =>
    intro s via off n k hvia hup hreach
    obtain ⟨hviaUp, hmiss, hdata⟩ := via_cores s hvia
    rw [← hviaUp] at hup
    refine ⟨⟨_, exec_apertureRead_miss k hup hreach, ?_⟩, fun b hlen => ?_⟩
    · rw [hmiss, hdata]
      exact capSync_counted ..
    · rw [exec_apertureWrite_miss k hup (by rw [hlen, hreach]), hmiss]
  case down =>
    intro s via off n b k hup
    simp [exec, execApertureRead, execApertureWrite, hup]

end Sys2Proof.Machine
end

section
/-! Fields of byte strings (R5): of a string put together, of a number laid out, of a part of a string. -/

namespace Sys2Proof.Machine

theorem getD_slice (b : Bytes) (o n i : Nat) (h : i < n) : (slice b o n).getD i 0 = b.getD (o + i) 0 := by
  simp only [slice, List.getD_eq_getElem?_getD]
  by_cases hb : o + i < b.length
  · have hi : i < ((b.drop o).take n).length := by simp only [List.length_take, List.length_drop]; omega
    rw [List.getElem?_append_left hi, List.getElem?_take_of_lt h, List.getElem?_drop]
  · have hi : ((b.drop o).take n).length ≤ i := by simp only [List.length_take, List.length_drop]; omega
    rw [List.getElem?_append_right hi, List.getElem?_replicate, List.getElem?_eq_none (by omega)]
    split <;> rfl

/-- Parts agree where each byte of them does. -/
theorem slice_congr {b c : Bytes} {o p n : Nat} (h : ∀ i, i < n → b.getD (o + i) 0 = c.getD (p + i) 0) :
    slice b o n = slice c p n := by
  refine List.ext_getElem (by simp) fun i hi hj => ?_
  rw [length_slice] at hi
  have hget := h i hi
  rw [← getD_slice b o n i hi, ← getD_slice c p n i hi] at hget
  rwa [List.getD_eq_getElem _ _ (by simpa using hi), List.getD_eq_getElem _ _ (by simpa using hi)] at hget

/-- A field of a part is a field of the whole. -/
theorem field_slice (b : Bytes) {o n i k : Nat} (h : i + k ≤ n) : field (slice b o n) i k = field b (o + i) k := by
  rw [field, field, slice_congr fun j hj => ?_]
  rw [getD_slice _ _ _ _ (by omega), Nat.add_assoc]

/-- A field of a string put together lies in its first part, or in the rest. -/
theorem field_append_left {a : Bytes} (b : Bytes) {o n : Nat} (h : o + n ≤ a.length) : field (a ++ b) o n = field a o n := by
  rw [field, field, slice_congr fun j hj => ?_]
  rw [List.getD_append _ _ _ _ (by omega)]

theorem field_append_right (a b : Bytes) {o n : Nat} (h : a.length ≤ o) : field (a ++ b) o n = field b (o - a.length) n := by
  rw [field, field, slice_congr fun j hj => ?_]
  rw [List.getD_append_right _ _ _ _ (by omega), Nat.sub_add_comm h]

theorem leNat_toLe (n v : Nat) : leNat (toLe n v) = v % 256 ^ n := by
  induction n generalizing v with
  | zero => simp [toLe, leNat, Nat.mod_one]
  | succ n ih =>
    have hbyte : (BitVec.ofNat 8 v).toNat = v % 256 := BitVec.toNat_ofNat ..
    rw [toLe, leNat, ih, hbyte, Nat.pow_succ', Nat.mod_mul]

theorem field_toLe (n v : Nat) : field (toLe n v) 0 n = v % 256 ^ n := by
  rw [field, slice_whole (length_toLe n v), leNat_toLe]

theorem field_lt (b : Bytes) (o n : Nat) : field b o n < 256 ^ n := by
  have h := leNat_lt (slice b o n)
  rwa [length_slice] at h

/-- A number of 32 bits laid out and read as a word. -/
theorem ofNat_leNat_toLe (w : Word) : BitVec.ofNat 32 (leNat (toLe 4 w.toNat)) = w := by
  rw [leNat_toLe, Nat.mod_eq_of_lt (show w.toNat < 256 ^ 4 from w.isLt), BitVec.ofNat_toNat, BitVec.setWidth_eq]

/-- A field of two bytes is its low byte and its high one. -/
theorem field_two (b : Bytes) (o : Nat) : field b o 2 = field b o 1 + 256 * field b (o + 1) 1 := by
  have hbyte (p : Nat) : slice b p 1 = [b.getD p 0] := by
    refine List.ext_getElem (by simp) fun i hi hj => ?_
    obtain rfl : i = 0 := by simpa using hj
    rw [← List.getD_eq_getElem _ 0, getD_slice _ _ _ _ (by omega)]
    rfl
  have htwo : slice b o 2 = [b.getD o 0, b.getD (o + 1) 0] := by
    refine List.ext_getElem (by simp) fun i hi hj => ?_
    rw [← List.getD_eq_getElem _ 0, getD_slice _ _ _ _ (by simpa using hj)]
    match i, hj with
    | 0, _ => rfl
    | 1, _ => rfl
  simp only [field, hbyte, htwo, leNat]
  omega

end Sys2Proof.Machine
end

section
/-! The PCIe endpoint's configuration space and the data port (R346, R354, R361, R362): what each request and access gives, and
the statement on both. -/

namespace Sys2Proof.Machine

/-! ## Configuration space (R346, R354) -/

/-- A configuration write moves the register and bus mastering alone. -/
theorem configWrite_frame (s : State) (off : Nat) (w : Word) :
    ∃ x b, configWrite s off w = { s with ctl := { s.ctl with config := x, busMaster := b } } := by
  unfold configWrite
  split
  · exact ⟨s.ctl.config, s.ctl.busMaster, rfl⟩
  · exact ⟨_, _, rfl⟩

/-- The serial number in the status capability (R354). -/
theorem field_dvsec (s : State) {o : Nat} (ho : o + 4 ≤ 8) : field (dvsec s) (16 + o) 4 = field (toLe 8 s.ctl.serial.toNat) o 4 := by
  have hsplit : dvsec s = (toLe 2 0x0023 ++ toLe 2 1 ++ toLe 2 Config.vendorId ++ toLe 2 0x0200 ++ toLe 2 1 ++
      toLe 1 s.ctl.selftest ++ toLe 1 s.ctl.kstate ++ toLe 2 s.ctl.stage ++ toLe 2 (dvsecFw s)) ++
      (toLe 8 s.ctl.serial.toNat ++ toLe 8 0) := by
    simp only [dvsec, List.append_assoc]
  rw [hsplit, field_append_right _ _ (by simp), field_append_left _ (by simpa using ho)]
  simp

theorem configRead_serial_low (s : State) : (configRead s 0x110).toNat = field (toLe 8 s.ctl.serial.toNat) 0 4 := by
  have hread : configRead s 0x110 = BitVec.ofNat 32 (field (dvsec s) 16 4) := rfl
  rw [hread, field_dvsec s (o := 0) (by omega), BitVec.toNat_ofNat]
  exact Nat.mod_eq_of_lt (field_lt _ 0 4)

theorem configRead_serial_high (s : State) : (configRead s 0x114).toNat = field (toLe 8 s.ctl.serial.toNat) 4 4 := by
  have hread : configRead s 0x114 = BitVec.ofNat 32 (field (dvsec s) 20 4) := rfl
  rw [hread, field_dvsec s (o := 4) (by omega), BitVec.toNat_ofNat]
  exact Nat.mod_eq_of_lt (field_lt _ 4 4)

/-! ## The data port (R361, R362) -/

/-- DP_ADDR names a space and a place in it. -/
theorem dp_split {s : State} {k a : Nat} (h : s.mgmt.dpAddr.toNat = k * 2 ^ 60 + a) (ha : a < 2 ^ 60) :
    dpSpace s = k ∧ dpAt s = a := by
  unfold dpSpace dpAt
  omega

section
variable {s : State} {a : Nat} (w : Word) (hbm : Sector)

/-- The state after a good access: DP_ADDR stays in its space. -/
theorem dpNext_mgmt : (dpNext s).mgmt = { s.mgmt with
    dpAddr := if s.mgmt.inc then BitVec.ofNat 64 (dpSpace s * 2 ^ 60 + (dpAt s + 4) % 2 ^ 60) else s.mgmt.dpAddr } := by
  unfold dpNext
  split <;> rfl

theorem dpNext_frame : dpNext s = { s with mgmt := (dpNext s).mgmt } := by
  unfold dpNext
  split <;> rfl

/-- DP_ADDR after a good access. -/
theorem dpNext_addr {k : Nat} (h : s.mgmt.dpAddr.toNat = k * 2 ^ 60 + a) (ha : a + 4 < 2 ^ 60) :
    (dpNext s).mgmt.dpAddr.toNat = k * 2 ^ 60 + a + (if s.mgmt.inc then 4 else 0) := by
  obtain ⟨hspace, hat⟩ := dp_split h (by omega)
  have hlt := s.mgmt.dpAddr.isLt
  rw [dpNext_mgmt]
  cases hinc : s.mgmt.inc with
  | false => simpa [hinc] using h
  | true =>
    simp only [if_true, hspace, hat, BitVec.toNat_ofNat]
    rw [Nat.mod_eq_of_lt ha]
    omega

/-- A read whose word is `r` of state `u`. -/
theorem exec_dpDataAccess_read {u : State} {r : Word} (h : dpRead s hbm = (u, some r)) :
    exec (.dpDataAccess none hbm) s = .next (capSync s (emit u (.dpData r))) := by
  simp [exec, execDpDataAccess, h]

theorem exec_dpDataAccess_read_failed {e : Nat} (h : dpRead s hbm = (dpFail s e, none)) :
    ∃ t, exec (.dpDataAccess none hbm) s = .next t ∧ Counted { s with mgmt := { s.mgmt with errValid := true, err := e } } t := by
  refine ⟨_, ?_, capSync_counted s (dpFail s e)⟩
  simp [exec, execDpDataAccess, h]

theorem exec_dpDataAccess_write {u : State} {ok : Bool} (h : dpWrite s w hbm = (u, ok)) :
    ∃ t, exec (.dpDataAccess (some w) hbm) s = .next t ∧ Counted u t := by
  refine ⟨_, ?_, capSync_counted s u⟩
  simp [exec, execDpDataAccess, h]

/-- A failed access, read or write. -/
theorem exec_dpDataAccess_failed {e : Nat} (o : Option Word) (hread : dpRead s hbm = (dpFail s e, none))
    (hwrite : ∀ x, dpWrite s x hbm = (dpFail s e, false)) :
    ∃ t, exec (.dpDataAccess o hbm) s = .next t ∧ Counted { s with mgmt := { s.mgmt with errValid := true, err := e } } t := by
  cases o with
  | none => exact exec_dpDataAccess_read_failed hbm hread
  | some x => exact exec_dpDataAccess_write x hbm (hwrite x)

/-- A misaligned address is refused. -/
theorem dp_misaligned (h : dpAt s % 4 ≠ 0) : dpRead s hbm = (dpFail s 3, none) ∧ dpWrite s w hbm = (dpFail s 3, false) := by
  rw [dpRead, dpWrite, if_pos h, if_pos h]
  exact ⟨rfl, rfl⟩

end

section
variable {s : State} {a : Nat} (w : Word) (hbm : Sector) (hat : dpAt s = a) (hal : a % 4 = 0)
include hat hal

/-- Space 0: BAR0. -/
theorem dpRead_bar0 (hspace : dpSpace s = 0) (hup : dpUp s = true) (ha : a < 0x100000) :
    dpRead s hbm = (dpNext s, some (BitVec.ofNat 32 (bar0Word s a))) := by
  simp [dpRead, hspace, hat, hal, hup, ha]

theorem dpWrite_queue (hspace : dpSpace s = 0) (hup : dpUp s = true) (ha : a < 0x100000) (hq : inQueues a = true) :
    dpWrite s w hbm = (dpFail s 3, false) := by
  simp [dpWrite, hspace, hat, hal, hup, ha, hq]

theorem dpWrite_bar0 (hspace : dpSpace s = 0) (hup : dpUp s = true) (ha : a < 0x100000) (hq : inQueues a = false) :
    dpWrite s w hbm = (dpNext (writeWord s a w), true) := by
  simp [dpWrite, hspace, hat, hal, hup, ha, hq]

/-- Space 1: device memory. -/
theorem dp_noMemory (hspace : dpSpace s = 1) (hup : dpUp s = true) (hmem : dpMemory s = false) :
    dpRead s hbm = (dpFail s 1, none) ∧ dpWrite s w hbm = (dpFail s 1, false) := by
  simp [dpRead, dpWrite, hspace, hat, hal, hup, hmem]

theorem dp_uncorrectable (hspace : dpSpace s = 1) (hup : dpUp s = true) (hmem : dpMemory s = true) :
    dpRead s .uncorrectable = (dpFail (sectorOutcome s a .uncorrectable false) 4, none) ∧
    dpWrite s w .uncorrectable = (dpFail (sectorOutcome s a .uncorrectable false) 4, false) := by
  have hout := outsideWrite_uncorrectable s a (toLe 4 w.toNat) (.inr (by simp))
  simp [dpRead, dpWrite, hspace, hat, hal, hup, hmem, outsideRead_uncorrectable, hout]

theorem dpRead_memory (hspace : dpSpace s = 1) (hup : dpUp s = true) (hmem : dpMemory s = true) :
    dpRead s .clean = (dpNext s, some (BitVec.ofNat 32 (leNat (s.mem.readN a 4)))) := by
  simp [dpRead, hspace, hat, hal, hup, hmem, outsideRead_good]

theorem dpWrite_memory (hspace : dpSpace s = 1) (hup : dpUp s = true) (hmem : dpMemory s = true) :
    dpWrite s w .clean = (dpNext (outsideWrite s a (toLe 4 w.toNat) .clean).1, true) := by
  obtain ⟨m, r, hout, -⟩ := outsideWrite_good s a (toLe 4 w.toNat) .clean (.inl (by decide))
  simp [dpWrite, hspace, hat, hal, hup, hmem, hout]

/-- Space 2: the identity records. -/
theorem dpRead_identity (hspace : dpSpace s = 2) (ha : a < 14 * 0x20) :
    dpRead s hbm = (dpNext s, some (BitVec.ofNat 32 (field (identityAt s (a / 0x20)) (a % 0x20) 4))) := by
  simp [dpRead, hspace, hat, hal, ha, identityWord]

theorem dpWrite_identity (hspace : dpSpace s = 2) : dpWrite s w hbm = (dpFail s 3, false) := by
  simp [dpWrite, hspace, hat, hal]

end

/-- K with power and firmware answers the data port. -/
theorem dpUp_eq_true {s : State} (hfw : s.ctl.noFirmware = false) (hk : 94 ∈ s.power.domains) : dpUp s = true := by
  simp [dpUp, hfw, hk]

/-- The record describes none of the management registers or the output. -/
theorem capSync_out_mgmt {s u : State} (h : u = { s with out := u.out, mgmt := u.mgmt }) : capSync s u = u := by
  have hsame : capLive s = capLive u ∧ capVolatile s = capVolatile u := by
    rw [h]
    exact ⟨rfl, rfl⟩
  rw [capSync, if_pos hsame]

/-- Settles O28: configuration by the endpoint's state, the data port by the space that DP_CTRL names. -/
theorem endpointAndDataPortAnswer : Obligations.EndpointAndDataPortAnswer := by
  unfold Obligations.EndpointAndDataPortAnswer
  refine ⟨?config, ?bar0, ?memory, ?identity, ?misaligned⟩
  case config =>
    intro s off hclock
    refine ⟨fun hreset w => ?_, fun hreset hoff w => ?_, fun hreset hon => ⟨?_, fun w => ?_⟩, ?_, ?_⟩
    · simp [exec, execPcieConfigRequest, configRequest, hreset]
    · simp [exec, execPcieConfigRequest, configRequest, hclock, hreset, hoff, emit]
    · simp [exec, execPcieConfigRequest, configRequest, hclock, hreset, hon, emit, tickFree]
    · obtain ⟨x, m, hwrite⟩ := configWrite_frame s (off / 4 * 4) w
      have hexec : exec (.pcieConfigRequest off (some w)) s = .next (emit (configWrite s (off / 4 * 4) w) (.completion [])) := by
        simp [exec, execPcieConfigRequest, configRequest, hclock, hreset, hon]
      rw [hwrite] at hexec
      exact ⟨_, hexec, rfl, rfl⟩
    · exact configRead_serial_low s
    · exact configRead_serial_high s
  case bar0 =>
    intro s a haddr hal ha hfw hk
    obtain ⟨hspace, hat⟩ := dp_split (k := 0) (by simpa using haddr) (show a < 2 ^ 60 by omega)
    have hup := dpUp_eq_true hfw hk
    refine ⟨fun hbm => ⟨_, exec_dpDataAccess_read hbm (dpRead_bar0 hbm hat hal hspace hup ha), ?_⟩, fun w hbm hlo hhi => ?_,
      fun w hbm hout => ?_⟩
    · have hnext := dpNext_mgmt (s := s)
      rw [hspace, hat, Nat.mod_eq_of_lt (show a + 4 < 2 ^ 60 by omega), Nat.zero_mul, Nat.zero_add] at hnext
      rw [capSync_out_mgmt (by rw [dpNext_frame]; rfl), dpNext_frame]
      exact ⟨rfl, hnext, rfl, rfl, rfl⟩
    · exact exec_dpDataAccess_write w hbm (dpWrite_queue w hbm hat hal hspace hup ha (decide_eq_true ⟨hlo, hhi⟩))
    · exact exec_dpDataAccess_write w hbm (dpWrite_bar0 w hbm hat hal hspace hup ha (decide_eq_false (by omega)))
  case memory =>
    intro s a haddr hal ha hfw hk
    have hsplit : s.mgmt.dpAddr.toNat = 1 * 2 ^ 60 + a := by omega
    obtain ⟨hspace, hat⟩ := dp_split hsplit (by omega)
    have hup := dpUp_eq_true hfw hk
    have hanswers (hl : s.job.loaded = true) (hs : s.ctl.kstate ≠ 2) (hr : reachable s a 4 = true) : dpMemory s = true := by
      simp [dpMemory, hl, isSafe, hs, hat, hr]
    refine ⟨fun hnone w hbm => ?_, fun hl hs hr w => ?_, fun hsafe hl hs hr => ?_⟩
    · have hmem : dpMemory s = false := by
        rcases hnone with hl | hmap
        · simp [dpMemory, hl]
        · simp [dpMemory, hat, reachable_of_unmapped _ _ _ hmap]
      exact exec_dpDataAccess_failed hbm w (dp_noMemory 0 hbm hat hal hspace hup hmem).1
        fun x => (dp_noMemory x hbm hat hal hspace hup hmem).2
    · have hmem := hanswers hl hs hr
      obtain ⟨m, r, hout, hcells, -⟩ := sectorOutcome_parts s a .uncorrectable
      have hexec : exec (.dpDataAccess w .uncorrectable) s =
          .next (capSync s (dpFail { s with mem := m, rel := r } 4)) := by
        rw [← hout]
        cases w with
        | none => simp [exec, execDpDataAccess, (dp_uncorrectable 0 hat hal hspace hup hmem).1]
        | some x => simp [exec, execDpDataAccess, (dp_uncorrectable x hat hal hspace hup hmem).2]
      have hcount := capSync_counted s (dpFail { s with mem := m, rel := r } 4)
      refine ⟨_, hexec, ?_, ?_, hcount.out_eq⟩
      · rw [hcount]
        rfl
      · rw [hcount.mem_eq]
        exact hcells
    · have hmem := hanswers hl hs hr
      refine ⟨⟨_, exec_dpDataAccess_read .clean (dpRead_memory hat hal hspace hup hmem), ?_⟩, fun w hc => ?_⟩
      · have hnext := dpNext_addr hsplit (by omega)
        rw [capSync_out_mgmt (by rw [dpNext_frame]; rfl), dpNext_frame]
        refine ⟨rfl, rfl, ?_⟩
        rw [← Nat.one_mul (2 ^ 60)]
        exact hnext
      · obtain ⟨t, hexec, ht⟩ := exec_dpDataAccess_write w .clean (dpWrite_memory w hat hal hspace hup hmem)
        obtain ⟨hback, hrest, hframe, -⟩ := outsideWrite_reads (b := toLe 4 w.toNat) (k := .clean) hsafe (.inl (by decide))
          (by simpa using hc) rfl
        have hnext := dpNext_addr (s := (outsideWrite s a (toLe 4 w.toNat) .clean).1) (a := a) (k := 1)
          (by rw [hframe]; exact hsplit) (by omega)
        have hinc : (outsideWrite s a (toLe 4 w.toNat) .clean).1.mgmt.inc = s.mgmt.inc := by rw [hframe]
        have htmem : t.mem = (outsideWrite s a (toLe 4 w.toNat) .clean).1.mem := by rw [ht.mem_eq, dpNext_frame]
        rw [length_toLe] at hback hrest
        rw [hinc] at hnext
        refine ⟨t, hexec, by rw [htmem, hback], fun x hx => by rw [htmem, hrest x hx], ?_⟩
        rw [ht]
        exact hnext
  case identity =>
    intro s a haddr hal ha
    obtain ⟨hspace, hat⟩ := dp_split (k := 2) (s := s) (a := a) (by omega) (by omega)
    refine ⟨fun hbm => ⟨_, exec_dpDataAccess_read hbm (dpRead_identity hbm hat hal hspace ha), ?_⟩, fun w hbm =>
      exec_dpDataAccess_write w hbm (dpWrite_identity w hbm hat hal hspace)⟩
    rw [capSync_out_mgmt (by rw [dpNext_frame]; rfl), dpNext_frame]
    exact ⟨rfl, rfl⟩
  case misaligned =>
    intro s w hbm hal
    have hat : dpAt s % 4 ≠ 0 := by unfold dpAt; omega
    exact exec_dpDataAccess_failed hbm w (dp_misaligned 0 hbm hat).1 fun x => (dp_misaligned x hbm hat).2

end Sys2Proof.Machine
end

section
/-! The management ports (R358-R360): the links and the rate search, network frames, datagrams, and the statement on them. -/

namespace Sys2Proof.Machine

/-! ## Datagrams (R360) -/

section
variable {s : State} {p op : Nat} {b : Bytes} {serve : State → Served}

/-- A port answers that is the active one, with link, on a controller with power. -/
theorem mgtAnswers_iff : mgtAnswers s p = true ↔ 95 ∈ s.power.domains ∧ p = s.mgmt.active ∧ mgtLink s p = true := by
  simp [mgtAnswers, and_assoc]

theorem datagram_silent (h : mgtAnswers s p = false) : datagram s p op b serve = s := by simp [datagram, h]

theorem datagram_malformed (h : mgtAnswers s p = true) (hb : dgOk b = false) : datagram s p op b serve =
    { s with mgmt := { s.mgmt with malformed := min (s.mgmt.malformed + 1) 0xFFFFFFFF } } := by
  simp [datagram, h, hb, satAdd]

theorem datagram_served (h : mgtAnswers s p = true) (hb : dgOk b = true) (hop : field b 4 1 = op) :
    Answered (datagram s p op b serve) p b (serve s) := by
  have heq : datagram s p op b serve =
      capSync s (emit (serve s).1 (.datagram p (dgReply b (serve s).2.1 (serve s).2.2))) := by
    simp [datagram, h, hb, hop]
  rw [heq]
  exact capSync_counted ..

end

/-- The rows that take a datagram in. -/
theorem exec_ofDatagram {s : State} {p : Nat} {b : Bytes} {hbm : Sector} {host : HostRead} {i : Instr} (hp : p < 2)
    (hi : i = .mgmtBurstRead p b hbm ∨ i = .mgmtBurstWrite p b hbm ∨ i = .mgmtRegisterRead p b hbm ∨
      i = .mgmtRegisterWrite p b hbm ∨ i = .mgmtCommand p b host) : ∃ op serve, exec i s = .next (datagram s p op b serve) := by
  have hok : decide (p < 2) = true := decide_eq_true hp
  rcases hi with rfl | rfl | rfl | rfl | rfl
  · exact ⟨1, _, exec_unit hok rfl⟩
  · exact ⟨2, _, exec_unit hok rfl⟩
  · exact ⟨3, _, exec_unit hok rfl⟩
  · exact ⟨4, _, exec_unit hok rfl⟩
  · exact ⟨5, _, exec_unit hok rfl⟩

/-! ## What a datagram's service gives (R360, R362) -/

section
variable {s s1 : State} {b : Bytes} (hbm : Sector)

/-- A burst of one word. -/
theorem burstRead_one {w : Word} (h : dpRead s hbm = (s1, some w)) : burstRead 1 s hbm = (s1, toLe 4 w.toNat, 0) := by
  simp [burstRead, h]

theorem serveBurstRead_crossing (h : 4096 < field b 0x10 8 % 4096 + field b 6 2) : serveBurstRead s b hbm =
    ({ s with mgmt := { s.mgmt with dpAddr := BitVec.ofNat 64 (field b 0x10 8), count := field b 6 2, errValid := true, err := 2 } },
      2, []) := by
  simp [serveBurstRead, burstCrosses, dgLength, h, dpFail, burstLoad]

theorem serveBurstWrite_crossing (h : 4096 < field b 0x10 8 % 4096 + field b 6 2) : serveBurstWrite s b hbm =
    ({ s with mgmt := { s.mgmt with dpAddr := BitVec.ofNat 64 (field b 0x10 8), count := field b 6 2, errValid := true, err := 2 } },
      2, []) := by
  simp [serveBurstWrite, burstCrosses, dgLength, h, dpFail, burstLoad]

theorem serveBurstRead_one {w : Word} (hpage : field b 0x10 8 % 4096 + 4 ≤ 4096) (hlen : field b 6 2 = 4)
    (h : dpRead { s with mgmt := { s.mgmt with dpAddr := BitVec.ofNat 64 (field b 0x10 8), count := 4 } } hbm = (s1, some w)) :
    serveBurstRead s b hbm = (s1, 0, toLe 4 w.toNat) := by
  have hcross : burstCrosses (field b 0x10 8) 4 = false := decide_eq_false (by omega)
  have hread := burstRead_one hbm h
  simp only [serveBurstRead, dgLength, hlen, hcross, Bool.false_eq_true, if_false, burstLoad, Nat.div_self (show 0 < 4 by decide), hread]

theorem serveRegisterRead_ok {d : Bytes} (hfw : s.ctl.noFirmware = false)
    (h : dpRegRead s (field b 0x10 8) (field b 6 2) hbm = (s, .ok d)) : serveRegisterRead s b hbm = (s, 0, d) := by
  simp [serveRegisterRead, regAllowed, hfw, dgLength, h]

theorem serveRegisterWrite_addr (hfw : s.ctl.noFirmware = false) (hoff : field b 0x10 8 = 0) (hlen : b.length = 0x20) :
    serveRegisterWrite s b hbm = ({ s with mgmt := { s.mgmt with dpAddr := BitVec.ofNat 64 (leNat (b.drop 0x18)) } }, 0, []) := by
  simp [serveRegisterWrite, regAllowed, hfw, hoff, dpRegWrite, hlen, dpLoad]

end

/-- Status and detail in a reply (R44). -/
theorem field_replyBytes (v : Queue) (q : Nat) (r : Reply) (hs : r.status < 256) (hd : r.detail < 256 ^ 3) :
    field (replyBytes v q r) 4 1 = r.status ∧ field (replyBytes v q r) 5 3 = r.detail := by
  have hsplit : ∃ rest, replyBytes v q r = toLe 4 r.tag.toNat ++ (toLe 1 r.status ++ (toLe 3 r.detail ++ rest)) := by
    simp only [replyBytes, List.append_assoc]
    exact ⟨_, rfl⟩
  obtain ⟨rest, hrest⟩ := hsplit
  rw [hrest]
  constructor
  · rw [field_append_right _ _ (by simp), length_toLe, field_append_left _ (by simp), field_toLe]
    exact Nat.mod_eq_of_lt hs
  · rw [field_append_right _ _ (by simp), length_toLe, field_append_right _ _ (by simp), length_toLe,
      field_append_left _ (by simp), field_toLe]
    exact Nat.mod_eq_of_lt hd

/-- A packet keeps its version and its opcode. -/
theorem parsePacket_header (s : State) (q : Nat) (slot : Word) (b : Bytes) :
    (parsePacket s q slot b).version = field b 3 1 ∧ (parsePacket s q slot b).opcode = field b 0 2 := by
  unfold parsePacket
  dsimp only
  split
  · split
    · exact ⟨rfl, rfl⟩
    · split <;> exact ⟨rfl, rfl⟩
  · split
    · exact ⟨rfl, rfl⟩
    · split <;> exact ⟨rfl, rfl⟩

/-- Op 5 refuses a command of any group but 0x0E and 0x0F (R360). -/
theorem serveCommand_otherGroup {s : State} {b : Bytes} (host : HostRead) (hk : kRuns s = true) (hver : field b 0x1B 1 = 2)
    (h14 : field b 0x19 1 ≠ 0x0E) (h15 : field b 0x19 1 ≠ 0x0F) : (serveCommand s b host).1 = s ∧ (serveCommand s b host).2.1 = 0 ∧
    field (serveCommand s b host).2.2 4 1 = 0x10 ∧ field (serveCommand s b host).2.2 5 3 = field b 0x18 2 + 0x20000 := by
  obtain ⟨hversion, hopcode⟩ := parsePacket_header s 64 0 (slice b 0x18 64)
  have hserve : serveCommand s b host =
      ((runPacket s (slice b 0x18 64) host).1, 0, (runPacket s (slice b 0x18 64) host).2) := by simp [serveCommand, hk]
  rw [field_slice _ (by omega), hver] at hversion
  rw [field_slice _ (by omega)] at hopcode
  have hlow : field b 0x18 1 < 256 := field_lt b 0x18 1
  have hhigh : field b 0x19 1 < 256 := field_lt b 0x19 1
  have htwo : field b 0x18 2 = field b 0x18 1 + 256 * field b 0x19 1 := field_two b 0x18
  have hdiv : field b 0x18 2 / 256 = field b 0x19 1 := by omega
  rw [hserve, runPacket]
  generalize parsePacket s 64 0 (slice b 0x18 64) = c at hversion hopcode
  have hgroup : managementGroup c.opcode = false := by simp [managementGroup, hopcode, hdiv, h14, h15]
  obtain ⟨hstatus, hdetail⟩ := field_replyBytes Queue.reset 64
    { tag := c.tag, status := 0x10, detail := field b 0x18 2 + 2 * 0x10000, opcode := field b 0x18 2, rerun := false, seq := 0,
      step := s.job.step, work := 0, elapsed := 0, irq := false } (show 0x10 < 256 by decide)
    (show field b 0x18 2 + 2 * 0x10000 < 256 ^ 3 by omega)
  simp only [hversion, hgroup, commandReply, badOpcode, ne_eq, OfNat.ofNat_ne_one, not_false_eq_true, not_true_eq_false,
    and_false, if_false, Bool.not_false, if_true, true_and]
  rw [hopcode]
  have hsum : field b 0x18 2 + 2 * 0x10000 = field b 0x18 2 + 0x20000 := by omega
  exact ⟨hstatus, hdetail.trans hsum⟩

/-! ## Links (R358) -/

section
variable (s : State) {p : Nat} (up : Bool) (rate : Nat) (hp : p < 2)
include hp

/-- A port's link and rate set leave the other port and which one is active. -/
theorem setMgtLink_reads : mgtLink (setMgtLink s p up rate) p = up ∧ mgtRate (setMgtLink s p up rate) p = rate ∧
    mgtLink (setMgtLink s p up rate) (1 - p) = mgtLink s (1 - p) ∧ mgtRate (setMgtLink s p up rate) (1 - p) = mgtRate s (1 - p) ∧
    (setMgtLink s p up rate).mgmt.active = s.mgmt.active := by
  obtain rfl | rfl : p = 0 ∨ p = 1 := by omega
  · exact ⟨rfl, rfl, rfl, rfl, rfl⟩
  · exact ⟨rfl, rfl, rfl, rfl, rfl⟩

end

/-- Settles O29: a datagram by its port and form, a frame by its kind. -/
theorem managementPortsServeDatagrams : Obligations.ManagementPortsServeDatagrams := by
  unfold Obligations.ManagementPortsServeDatagrams
  refine ⟨?served, ?dropped, ?crossing, ?burst, ?register, ?group, ?links, ?failover, ?frames, ?silent⟩
  case served =>
    intro s p b hbm host hp hans hb
    have hok : decide (p < 2) = true := decide_eq_true hp
    exact ⟨fun h => ⟨_, exec_unit hok rfl, datagram_served hans hb h⟩, fun h => ⟨_, exec_unit hok rfl, datagram_served hans hb h⟩,
      fun h => ⟨_, exec_unit hok rfl, datagram_served hans hb h⟩, fun h => ⟨_, exec_unit hok rfl, datagram_served hans hb h⟩,
      fun h => ⟨_, exec_unit hok rfl, datagram_served hans hb h⟩⟩
  case dropped =>
    intro s p b hbm host i hp hi
    obtain ⟨op, serve, hexec⟩ := exec_ofDatagram (s := s) hp hi
    refine ⟨fun hsilent => ?_, fun hans hb => by rw [hexec, datagram_malformed hans hb]⟩
    have hnot : mgtAnswers s p = false := by
      rw [← Bool.not_eq_true, mgtAnswers_iff]
      rintro ⟨hk, hactive, hlink⟩
      rcases hsilent with h | h | h
      · exact h hk
      · exact h hactive
      · simp [hlink] at h
    rw [hexec, datagram_silent hnot]
  case crossing =>
    intro s b hbm h
    exact ⟨serveBurstRead_crossing hbm h, serveBurstWrite_crossing hbm h⟩
  case burst =>
    intro s s1 b hbm w hpage hlen hread
    exact serveBurstRead_one hbm hpage hlen hread
  case register =>
    intro s b hbm hfw
    refine ⟨fun hoff hlen => serveRegisterRead_ok hbm hfw ?_, fun hoff hlen => serveRegisterRead_ok hbm hfw ?_,
      serveRegisterWrite_addr hbm hfw⟩
    · simp [dpRegRead, hoff, hlen]
    · simp [dpRegRead, hoff, hlen]
  case group =>
    rintro s b host r rfl hk hver h14 h15 -
    exact serveCommand_otherGroup host hk hver h14 h15
  case links =>
    intro s p hp
    have hok : decide (p < 2) = true := decide_eq_true hp
    have hsearch := exec_unit (i := .mgtRateSearch p) (s := s) hok rfl
    have hdown := exec_unit (i := .mgtLinkDown p) (s := s) hok rfl
    refine ⟨fun h => ⟨_, hsearch, ?_⟩, fun h => by rw [hsearch, if_pos h], ⟨_, exec_unit hok rfl, ?_⟩,
      fun h => by rw [hdown, if_neg (by simp [h])], fun h => ⟨_, hdown, ?_⟩⟩
    · rw [if_neg (by simp [h])]
      obtain ⟨hlink, hrate, hlink', hrate', -⟩ := setMgtLink_reads s false ((mgtRate s p + 1) % 3) hp
      exact ⟨hlink, hrate, hlink', hrate'⟩
    · obtain ⟨hlink, hrate, hlink', -, hactive⟩ := setMgtLink_reads s true (mgtRate s p) hp
      exact ⟨hlink, hrate, hlink', hactive⟩
    · rw [if_pos h]
      obtain ⟨hlink, hrate, hlink', -, hactive⟩ := setMgtLink_reads s false 0 hp
      exact ⟨hlink, hrate, hlink', hactive⟩
  case failover =>
    intro s hactive
    refine ⟨fun hown hother => by simp [exec, execMgtFailover, hown, hother], fun h => ?_⟩
    rcases h with h | h <;> simp [exec, execMgtFailover, h]
  case frames =>
    intro s p b a hp hans
    have hexec (f : NetFrame) : exec (.mgmtNetworkFrame p f) s = .next (networkFrame s p f) := by
      rw [exec_unit (i := .mgmtNetworkFrame p f) (s := s) (decide_eq_true hp) rfl, if_pos hans]
    exact ⟨hexec _, hexec _, hexec _, hexec _, hexec _⟩
  case silent =>
    intro s p f hp hans
    rw [exec_unit (i := .mgmtNetworkFrame p f) (s := s) (decide_eq_true hp) rfl, if_neg (by simp [hans])]

end Sys2Proof.Machine
end

section
/-! The SMBus sideband (R425): what a transfer does, and the statement on its commands. -/

namespace Sys2Proof.Machine

section
variable {s : State}

/-- A transfer with a good PEC while the always-on domain is on. -/
theorem onPec_good (f : State → State) (h : 95 ∈ s.power.domains) : onPec true s f = .next (f s) := by simp [onPec, h]

theorem onPec_discarded {pec : Bool} (h : pec = false ∨ 95 ∉ s.power.domains) (f : State → State) : onPec pec s f = .next s := by
  rcases h with h | h <;> simp [onPec, h]

end

theorem exec_clearFaults {s : State} (h : 95 ∈ s.power.domains) : exec (.clearFaults true) s =
    .next { s with pins := { s.pins with swFault := false, swTrip := false, alertReleased := true } } := by
  simp only [exec, execClearFaults, onPec_good _ h]

theorem exec_smbusDpAddr {s : State} (high : Bool) (w : Word) (h : 95 ∈ s.power.domains) :
    exec (.smbusDpAddr true high (some w)) s = .next (dpHalfWrite s high w) := by
  simp only [exec, execSmbusDpAddr, onPec_good _ h]

theorem b2n_false : b2n false = 0 := rfl

theorem b2n_true : b2n true = 1 := rfl

/-- STATUS_WORD's bits. -/
theorem statusWord_eq (s : State) : statusWord s =
    (if s.pins.swFault then 0x8000 else 0) + (if 94 ∈ s.power.domains then 0 else 0x40) + (if s.pins.swTrip then 4 else 0) := by
  have hb2n (b : Bool) (n : Nat) : b2n b * n = if b then n else 0 := by cases b <;> simp [b2n]
  simp [statusWord, hb2n]

/-- A burst length that count takes. -/
theorem countOk_mod (n : Nat) : countOk (n % 8192) = true ↔ n % 4 = 0 ∧ 4 ≤ n % 8192 ∧ n % 8192 ≤ 4096 := by
  simp only [countOk, Bool.and_eq_true, beq_iff_eq, decide_eq_true_eq]
  omega

/-- Settles O30: a transfer by its PEC and the always-on domain, then by its command. -/
theorem sidebandAnswersItsCommands : Obligations.SidebandAnswersItsCommands := by
  unfold Obligations.SidebandAnswersItsCommands
  refine ⟨?discarded, ?reads, ?writes, ?data⟩
  case discarded =>
    intro s pec high w hbm i hdrop hi
    have hnone (f : State → State) : onPec pec s f = .next s := onPec_discarded hdrop f
    rcases hi with rfl | rfl | rfl | rfl | rfl | rfl | rfl | rfl | rfl | rfl
    · simp only [exec, execStatusWord, hnone]
    · simp only [exec, execClearFaults, hnone]
    · simp only [exec, execReadVin, hnone]
    · simp only [exec, execReadIin, hnone]
    · simp only [exec, execReadPin, hnone]
    · simp only [exec, execSmbusDpAddr, hnone]
    · simp only [exec, execSmbusDpData, hnone]
    · simp only [exec, execSmbusDpCtrl, hnone]
    · simp only [exec, execSmbusDiscstat, hnone]
    · simp only [exec, execSmbusDiscglitch, hnone]
  case reads =>
    intro s hon
    refine ⟨?_, ⟨_, exec_clearFaults hon, rfl, fun hk => ?_, fun hlong => ?_⟩, ?_, ?_, ?_, ?_, ?_, ?_, ?_, ?_, ?_⟩
    · simp only [exec, execStatusWord, onPec_good _ hon, smbWord, statusWord_eq, emit]
    · simp [statusWord, hk, b2n]
    · simp [smbAlert, hlong]
    · simp only [exec, execReadVin, onPec_good _ hon, smbWord, emit]
    · simp only [exec, execReadIin, onPec_good _ hon, smbWord, emit]
    · simp only [exec, execReadPin, onPec_good _ hon, smbWord, emit]
    · simp [exec, execSmbusDpAddr, onPec_good _ hon, smbBlock, emit]
    · simp [exec, execSmbusDpAddr, onPec_good _ hon, smbBlock, emit]
    · simp only [exec, execSmbusDpCtrl, onPec_good _ hon, smbBlock, emit]
    · simp only [exec, execSmbusDiscstat, onPec_good _ hon, smbBlock, emit]
    · simp only [exec, execSmbusDiscglitch, onPec_good _ hon, smbBlock, emit, b2n_false]
    · simp only [exec, execSmbusDiscglitch, onPec_good _ hon, smbBlock, emit, b2n_true]
  case writes =>
    intro s lo hi w hon
    refine ⟨⟨dpHalfWrite s false lo, _, exec_smbusDpAddr false lo hon, rfl, exec_smbusDpAddr true hi hon, ?_⟩, ?_,
      ⟨discstatWrite s w, ?_, rfl, fun n => ?_⟩⟩
    · simp [dpHalfWrite, dpLoad]
    · simp only [exec, execSmbusDpCtrl, onPec_good _ hon, dpCtrlWrite, countOk_mod]
    · simp only [exec, execSmbusDiscstat, onPec_good _ hon]
    · simp [discstatWrite]
  case data =>
    intro s s1 v w hbm hon
    refine ⟨fun h => ⟨capSync s (smbBlock v.toNat s1), ?_, capSync_counted ..⟩,
      fun h => ⟨capSync s s1, ?_, capSync_counted ..⟩, fun h => ⟨capSync s (dpWrite s v hbm).1, ?_, capSync_counted ..⟩⟩
    · simp [exec, execSmbusDpData, onPec, hon, h]
    · simp [exec, execSmbusDpData, onPec, hon, h]
    · simp [exec, execSmbusDpData, onPec, hon, h]

end Sys2Proof.Machine
end

section
/-! Presence and group 0x0E (R375, R376, R378, R379): what presence is, what each command of the group does under it, and the
statement on them. -/

namespace Sys2Proof.Machine

/-! ## Presence (R375, R376) -/

theorem presence_iff (s : State) : presence s = true ↔
    0 < s.sec.windowUs ∨ s.sec.jumper = true ∧ s.sec.jumperIgnore = false ∧ s.sec.jumperFused = false := by
  simp [presence, and_assoc]

theorem privileged_present {s : State} {c : Cmd} {r : State × Err} (h : presence s = true) : privileged s c r = r := by
  rw [privileged, if_pos h]

theorem privileged_refused {s : State} {c : Cmd} {r : State × Err} (h : presence s = false) :
    privileged s c r = (s, presenceRequired c.opcode) := by
  rw [privileged, if_neg (by simp [h])]

section
variable {s u : State} {cid op : Nat} {c : Cmd} {e : Err} {f : Cmd → State × Err}

/-- Without presence a command of the group ends and changes nothing (R376). -/
theorem privileged_ends_refused (hd : Dispatched s cid op c) (ho : onMeres op = false) (h : presence s = false) :
    Ended s (onWork s cid [op] (fun c => adminEnd c (privileged s c (f c)))) c (0x50, op) 0 := by
  refine onWork_adminEnd hd ho (f := fun c => privileged s c (f c)) ?_
  rw [privileged_refused h, hd.2.2]
  rfl

/-- With it, the command ends with what its work gives. -/
theorem privileged_ends (hd : Dispatched s cid op c) (ho : onMeres op = false) (h : presence s = true) (hwork : f c = (u, e)) :
    Ended u (onWork s cid [op] (fun c => adminEnd c (privileged s c (f c)))) c e 0 :=
  onWork_adminEnd hd ho (f := fun c => privileged s c (f c)) ((privileged_present h).trans hwork)

/-- The end of a command leaves the security engine. -/
theorem Ended.security_eq {t : State} {w : Nat} (h : Ended s t c e w) : t.sec = s.sec := by rw [h.rest]

end

/-! ## The group's work (R378, R379) -/

section
variable {s : State} {c : Cmd}

/-- KEY_ROTATE: a slot below the lowest good one, or one that revokes a slot in use, is rejected. -/
theorem runKeyRotate_low (h : c.arg 0x10 1 ≤ lowestSlot s) : runKeyRotate s c = (s, (0x11, 0x210)) := by
  simp [runKeyRotate, h, badParam]

theorem runKeyRotate_inUse {e : Nat × Banks} {x : Image} (h : lowestSlot s < c.arg 0x10 1) (he : e ∈ s.sec.banks)
    (hx : e.2.active = some x ∨ e.2.pending = true ∧ e.2.other = some x) (hslot : x.keySlot < c.arg 0x10 1) :
    runKeyRotate s c = (s, (0x11, 0x600)) := by
  rw [runKeyRotate, if_neg (by omega), if_pos]
  · rfl
  · refine List.any_eq_true.mpr ⟨e, he, ?_⟩
    rcases hx with hx | ⟨hpend, hx⟩
    · simp [hx, hslot]
    · simp [hx, hpend, hslot]

/-- The slots revoked once those below `k` are. -/
def revokedBelow (s : State) (k : Nat) : List Nat := (List.range 4).filter fun n => decide (n < k) || s.sec.revoked.contains n

theorem mem_revokedBelow {k n : Nat} (hn : n < 4) : n ∈ revokedBelow s k ↔ n < k ∨ n ∈ s.sec.revoked := by
  simp [revokedBelow, hn]

theorem runKeyRotate_revokes (h : lowestSlot s < c.arg 0x10 1) (hfree : ∀ e ∈ s.sec.banks,
      (∀ x, e.2.active = some x → c.arg 0x10 1 ≤ x.keySlot) ∧
      (e.2.pending = true → ∀ x, e.2.other = some x → c.arg 0x10 1 ≤ x.keySlot)) :
    runKeyRotate s c = ({ s with sec := { s.sec with revoked := revokedBelow s (c.arg 0x10 1) } }, okStatus) := by
  rw [runKeyRotate, if_neg (by omega), if_neg]
  · rfl
  · rw [List.any_eq_true]
    rintro ⟨e, he, huse⟩
    obtain ⟨hactive, hother⟩ := hfree e he
    rw [Bool.or_eq_true, Bool.and_eq_true] at huse
    rcases huse with huse | ⟨hpend, huse⟩
    · cases ha : e.2.active with
      | none => simp [ha] at huse
      | some x => simp only [ha, decide_eq_true_eq] at huse; exact absurd (hactive x ha) (by omega)
    · cases ho : e.2.other with
      | none => simp [ho] at huse
      | some x => simp only [ho, decide_eq_true_eq] at huse; exact absurd (hother hpend x ho) (by omega)

/-- DEBUG_UNLOCK's cases. -/
theorem runDebugUnlock_loaded (host : HostRead) (h : s.job.loaded = true) : runDebugUnlock s c host = (s, (0x11, 0x600)) := by
  simp [runDebugUnlock, h, badParam]

section
variable (h : s.job.loaded = false)
include h

theorem runDebugUnlock_failed : runDebugUnlock s c .failed = (s, (0x11, 0x210)) := by simp [runDebugUnlock, h, badParam]

theorem runDebugUnlock_invalid {b : Bytes} (hb : imageFault s b ≠ none ∨ field b 5 1 ≠ 0x10) :
    runDebugUnlock s c (.data b) = sigFail s (imageType b) := by
  simp [runDebugUnlock, h, hb]

theorem runDebugUnlock_unbound {b : Bytes} (hgood : imageFault s b = none) (htyp : field b 5 1 = 0x10) (hser : field b 0x40 8 = 0) :
    runDebugUnlock s c (.data b) = sigFail s 0x10 := by
  simp [runDebugUnlock, h, hgood, htyp, hser]

theorem runDebugUnlock_opens {b : Bytes} (hgood : imageFault s b = none) (htyp : field b 5 1 = 0x10) (hser : field b 0x40 8 ≠ 0) :
    runDebugUnlock s c (.data b) = ({ s with sec := { s.sec with debug := true } }, okStatus) := by
  simp [runDebugUnlock, h, hgood, htyp, hser]

end

/-- A lane map with the position of SPARE_OVERRIDE added or removed (R247, R275). -/
def editMap (c : Cmd) (l : List Nat) : List Nat :=
  if c.arg 0x13 1 == 1 then addTo l (c.arg 0x12 1) else dropFrom l (c.arg 0x12 1)

theorem mem_editMap (c : Cmd) (l : List Nat) (x : Nat) : x ∈ editMap c l ↔
    (x = c.arg 0x12 1 ∧ c.arg 0x13 1 = 1) ∨ (x ≠ c.arg 0x12 1 ∧ x ∈ l) := by
  by_cases hadd : c.arg 0x13 1 = 1
  · rw [editMap, if_pos (by simpa using hadd), mem_addTo_iff]
    by_cases hx : x = c.arg 0x12 1 <;> simp [hx, hadd]
  · rw [editMap, if_neg (by simpa using hadd), dropFrom, List.mem_filter]
    simp [hadd, and_comm]

/-- The lane map that SPARE_OVERRIDE edits. -/
def overrideMap (s : State) (c : Cmd) : List Nat :=
  if c.arg 0x10 1 = 1 then (getBundle s (c.arg 0x11 1)).nonVolatile else (getPort s (c.arg 0x11 1)).nonVolatile

theorem runSpareOverride_noChange (h : c.arg 0x13 1 = 1 ↔ c.arg 0x12 1 ∈ overrideMap s c) :
    runSpareOverride s c = (s, (0x11, 0x213)) := by
  have hsame : (overrideMap s c).contains (c.arg 0x12 1) = (c.arg 0x13 1 == 1) := by
    rw [Bool.eq_iff_iff, List.contains_iff_mem, beq_iff_eq]
    exact h.symm
  exact if_pos hsame

theorem runSpareOverride_edits (h : c.arg 0x13 1 = 1 ↔ c.arg 0x12 1 ∉ overrideMap s c) : runSpareOverride s c =
    (if c.arg 0x10 1 = 1
      then setBundle s (c.arg 0x11 1) { getBundle s (c.arg 0x11 1) with nonVolatile := editMap c (overrideMap s c) }
      else setPort s (c.arg 0x11 1) { getPort s (c.arg 0x11 1) with nonVolatile := editMap c (overrideMap s c) }, okStatus) := by
  have hdiff : ¬ (overrideMap s c).contains (c.arg 0x12 1) = (c.arg 0x13 1 == 1) := by
    rw [Bool.eq_iff_iff, List.contains_iff_mem, beq_iff_eq, h]
    tauto
  refine (if_neg hdiff).trans ?_
  by_cases hkind : c.arg 0x10 1 = 1
  · have hmap : overrideMap s c = (getBundle s (c.arg 0x11 1)).nonVolatile := if_pos hkind
    simp only [if_pos hkind, hmap]
    rfl
  · have hmap : overrideMap s c = (getPort s (c.arg 0x11 1)).nonVolatile := if_neg hkind
    simp only [if_neg hkind, hmap]
    rfl

/-- FUSE_WRITE's cases. -/
theorem runFuseWrite_jumper (h : c.arg 0x10 1 = 2) :
    runFuseWrite s c = ({ s with sec := { s.sec with jumperFused := true } }, okStatus) := by
  simp [runFuseWrite, h]

theorem runFuseWrite_rejected (h : c.arg 0x10 1 = 1) (hpos : 0 < c.arg 0x12 1)
    (hbad : c.arg 0x12 1 ≤ fusedFloor s (c.arg 0x11 1) ∨ 63 < c.arg 0x12 1 ∨ (banksOf s (c.arg 0x11 1)).active = none ∨
      ∃ y, (banksOf s (c.arg 0x11 1)).active = some y ∧ y.svn < c.arg 0x12 1) : runFuseWrite s c = (s, (0x11, 0x212)) := by
  have hcond : c.arg 0x12 1 ≤ fusedFloor s (c.arg 0x11 1) ∨ 63 < c.arg 0x12 1 ∨
      ((banksOf s (c.arg 0x11 1)).active.map (·.svn)).getD 0 < c.arg 0x12 1 := by
    rcases hbad with hlow | hhigh | hnone | ⟨y, hy, hsvn⟩
    · exact .inl hlow
    · exact .inr (.inl hhigh)
    · exact .inr (.inr (by simpa [hnone] using hpos))
    · exact .inr (.inr (by simpa [hy] using hsvn))
  simp only [runFuseWrite, h, OfNat.one_ne_ofNat, if_false, if_pos hcond, badParam]

theorem runFuseWrite_raises {y : Image} (h : c.arg 0x10 1 = 1) (hfloor : fusedFloor s (c.arg 0x11 1) < c.arg 0x12 1)
    (hmax : c.arg 0x12 1 ≤ 63) (hy : (banksOf s (c.arg 0x11 1)).active = some y) (hsvn : c.arg 0x12 1 ≤ y.svn) :
    runFuseWrite s c =
      ({ s with sec := { s.sec with floors := mput s.sec.floors (c.arg 0x11 1) (c.arg 0x12 1) } }, okStatus) := by
  have hcond : ¬ (c.arg 0x12 1 ≤ fusedFloor s (c.arg 0x11 1) ∨ 63 < c.arg 0x12 1 ∨
      ((banksOf s (c.arg 0x11 1)).active.map (·.svn)).getD 0 < c.arg 0x12 1) := by
    simp only [hy, Option.map_some, Option.getD_some]
    omega
  simp only [runFuseWrite, h, OfNat.one_ne_ofNat, if_false, if_neg hcond]

end

/-- Settles O24: presence is checked before any row of group 0x0E does its work. -/
theorem privilegeNeedsPresence : Obligations.PrivilegeNeedsPresence := by
  unfold Obligations.PrivilegeNeedsPresence
  refine ⟨presence_iff, ?refused, ?rotate, ?unlock, ?spare, ?fuse⟩
  case refused =>
    intro s cid c host hwindow hjumper
    have hnone : presence s = false := by
      rw [← Bool.not_eq_true, presence_iff]
      rintro (h | ⟨hfit, hign, hfuse⟩)
      · omega
      · rcases hjumper with h | h | h <;> simp_all
    exact ⟨fun hd => ⟨_, rfl, privileged_ends_refused hd rfl hnone⟩, fun hd => ⟨_, rfl, privileged_ends_refused hd rfl hnone⟩,
      fun hd => ⟨_, rfl, privileged_ends_refused hd rfl hnone⟩, fun hd => ⟨_, rfl, privileged_ends_refused hd rfl hnone⟩,
      fun hd => ⟨_, rfl, privileged_ends_refused hd rfl hnone⟩⟩
  case rotate =>
    rintro s cid c k hd hp rfl
    refine ⟨fun hlow => ⟨_, rfl, privileged_ends hd rfl hp (runKeyRotate_low hlow)⟩, fun e x hlow he hx hslot =>
      ⟨_, rfl, privileged_ends hd rfl hp (runKeyRotate_inUse hlow he hx hslot)⟩, fun hlow hfree => ?_⟩
    have hend := privileged_ends (f := runKeyRotate s) hd rfl hp (runKeyRotate_revokes hlow hfree)
    refine ⟨_, rfl, fun n hn => ?_, ?_⟩
    · rw [hend.security_eq]
      exact mem_revokedBelow hn
    · rw [hend.security_eq]
      exact hend
  case unlock =>
    intro s cid c host hd hp
    refine ⟨fun hl => ⟨_, rfl, privileged_ends hd rfl hp (runDebugUnlock_loaded host hl)⟩, ?_, ?_, ?_, ?_⟩
    · rintro hl rfl
      exact ⟨_, rfl, privileged_ends hd rfl hp (runDebugUnlock_failed hl)⟩
    · rintro b hl rfl hb
      exact ⟨_, rfl, privileged_ends hd rfl hp (runDebugUnlock_invalid hl hb)⟩
    · rintro b hl rfl hgood htyp hser
      exact ⟨_, rfl, privileged_ends hd rfl hp (runDebugUnlock_unbound hl hgood htyp hser)⟩
    · rintro b hl rfl hgood htyp hser
      exact ⟨_, rfl, privileged_ends hd rfl hp (runDebugUnlock_opens hl hgood htyp hser)⟩
  case spare =>
    rintro s cid c p hd hp rfl
    refine ⟨fun hkind => ?_, fun hkind => ?_⟩
    · have hmap : overrideMap s c = (getBundle s (c.arg 0x11 1)).nonVolatile := if_pos hkind
      rw [← hmap]
      refine ⟨fun h => ⟨_, editMap c (overrideMap s c), rfl, mem_editMap c _, ?_⟩, fun h =>
        ⟨_, rfl, privileged_ends hd rfl hp (runSpareOverride_noChange h)⟩⟩
      have hwork := runSpareOverride_edits h
      rw [if_pos hkind] at hwork
      exact privileged_ends hd rfl hp hwork
    · have hnot : ¬ c.arg 0x10 1 = 1 := by omega
      have hmap : overrideMap s c = (getPort s (c.arg 0x11 1)).nonVolatile := if_neg hnot
      rw [← hmap]
      refine ⟨fun h => ⟨_, editMap c (overrideMap s c), rfl, mem_editMap c _, ?_⟩, fun h =>
        ⟨_, rfl, privileged_ends hd rfl hp (runSpareOverride_noChange h)⟩⟩
      have hwork := runSpareOverride_edits h
      rw [if_neg hnot] at hwork
      exact privileged_ends hd rfl hp hwork
  case fuse =>
    rintro s cid c x v hd hp rfl rfl
    refine ⟨fun hkind => ⟨_, rfl, privileged_ends hd rfl hp (runFuseWrite_jumper hkind)⟩, fun hkind hbad hpos =>
      ⟨_, rfl, privileged_ends hd rfl hp (runFuseWrite_rejected hkind hpos hbad)⟩, ?_⟩
    rintro hkind hfloor hmax ⟨y, hy, hsvn⟩
    have hend := privileged_ends (f := runFuseWrite s) hd rfl hp (runFuseWrite_raises hkind hfloor hmax hy hsvn)
    refine ⟨_, rfl, ?_, fun n hn => ?_, ?_⟩
    · rw [fusedFloor, hend.security_eq]
      exact mget_mput_same ..
    · rw [fusedFloor, hend.security_eq]
      exact mget_mput_ne _ _ _ _ _ hn
    · rw [hend.security_eq]
      exact hend

end Sys2Proof.Machine
end

section
/-! Messages on their way out (R282, R296): the port of a message depends on the ports alone, and a message sent moves its port's
queue alone. -/

namespace Sys2Proof.Machine

section
variable {s t : State}

theorem bestOf_of_ports (h : t.ports = s.ports) (d : Nat) (l : List Nat) : bestOf t d l = bestOf s d l := by
  have hport : getPort t = getPort s := by funext p; rw [getPort, getPort, h]
  have hup : portUp t = portUp s := by funext p; rw [portUp, portUp, hport]
  have hbetter : betterPort t = betterPort s := by funext d p q; rw [betterPort, betterPort, hport]
  induction l with
  | nil => rfl
  | cons p l ih => rw [bestOf, bestOf, ih, hup, hbetter]

/-- The port that a message takes is told by the ports alone. -/
theorem choosePort_of_ports (h : t.ports = s.ports) (d : Nat) (groups : List (List Nat)) :
    choosePort t d groups = choosePort s d groups := by
  rw [choosePort, choosePort, funext (bestOf_of_ports h d)]

/-- A message sent moves its port alone. -/
theorem enqueueMsg_frame (s : State) (p : Nat) (m : TxMsg) : enqueueMsg s p m = { s with ports := (enqueueMsg s p m).ports } := rfl

theorem getPort_enqueueMsg_ne (s : State) {p x : Nat} (m : TxMsg) (h : x ≠ p) : getPort (enqueueMsg s p m) x = getPort s x :=
  getPort_setPort_ne _ _ _ _ h

/-- The port's queue after a message is sent from a state with the same ports. -/
theorem txQueue_enqueueMsg_of_ports (h : t.ports = s.ports) (p : Nat) (m : TxMsg) :
    (getPort (enqueueMsg t p m) p).txQueue = (getPort s p).txQueue ++ [{ m with sent := 0, num := none }] := by
  rw [txQueue_enqueueMsg, getPort, h, getPort]

theorem sendOrLose_sent {c : Cmd} {m : TxMsg} {p : Nat} (h : t.ports = s.ports) (hport : choosePort s 0 m.groups = some p) :
    sendOrLose t c m = enqueueMsg t p m := by
  rw [sendOrLose, sendTx_of_choosePort ((choosePort_of_ports h 0 _).trans hport)]

end

end Sys2Proof.Machine
end

section
/-! Commands on a checkpoint mirror (R306, R308, R309): what each asks the partner, what it waits for, and the statement on them. -/

namespace Sys2Proof.Machine

/-! ## Records of mirrors -/

theorem getMirror_setMirror_same (s : State) (k : Nat) (v : Mirror) : getMirror (setMirror s k v) k = v := mget_mput_same _ _ _ _

theorem getMirror_setMirror_ne (s : State) {k n : Nat} (v : Mirror) (h : n ≠ k) : getMirror (setMirror s k v) n = getMirror s n :=
  mget_mput_ne _ _ _ _ _ h

/-- A record dropped leaves the others. -/
theorem getMirror_dropMirror_ne (s : State) {k n : Nat} (h : n ≠ k) : getMirror (dropMirror s k) n = getMirror s n :=
  mget_mdel_ne _ _ _ _ h

/-- It is gone where the map lists its key once. -/
theorem getMirror_dropMirror_same {s : State} (k : Nat) (h : (s.peers.mirrors.map (·.1)).Nodup) :
    getMirror (dropMirror s k) k = Mirror.reset := mget_mdel_same _ _ h

/-- A command that has asked its partner is marked so. -/
theorem findCmd_held {s : State} {c : Cmd} (h : findCmd s c.cid = some c) :
    findCmd (putCmd s { c with holds := true }) c.cid = some { c with holds := true } :=
  findCmd_putCmd s { c with holds := true } (by rw [h]; rfl)

/-! ## MIRROR_CONFIG (R306) -/

section
variable {s : State} {cid : Nat} {c : Cmd}

theorem exec_mirrorConfig (hd : Dispatched s cid 0x0601 c) (hi : mirrorConfigIssue s c = none) :
    exec (.mirrorConfig cid) s = .next (mirrorConfigRun s c) := by
  change Host.Outcome.next (onWork s cid [0x0601] _) = _
  rw [onWork_some (working_off hd rfl), hi]

theorem mirrorConfigRun_host (h : c.arg 0x16 1 = 1) : mirrorConfigRun s c =
    finishWork s c (succeeded 0 [.mirrorHost (c.arg 0x17 1) (c.arg 0x18 4) (c.arg 0x1C 1) (c.arg 0x10 2)]) := if_pos h

theorem mirrorConfigRun_remove (h : c.arg 0x16 1 = 2) :
    mirrorConfigRun s c = finishWork s c (succeeded 0 [.mirrorRemove (c.arg 0x17 1) (c.arg 0x18 4)]) := by
  simp [mirrorConfigRun, h]

/-- The record of a source that has told its size. -/
def askedMirror (s : State) (c : Cmd) : Mirror :=
  { Mirror.reset with
    source := true, partner := c.arg 0x18 4, laxis := c.arg 0x1C 1, desc := c.arg 0x10 2, m1 := c.arg 0x12 2, m2 := c.arg 0x14 2,
    nblocks := blocksOf (cmdImages s c), images := cmdImages s c, asked := true }

theorem mirrorConfigRun_tells (h : c.arg 0x16 1 = 0) (hnew : c.holds = false) : mirrorConfigRun s c =
    sendOrLose (putCmd (setMirror s (c.arg 0x17 1) (askedMirror s c)) { c with holds := true }) c
      (mirrorMsg s c.phase (c.arg 0x1C 1) (c.arg 0x18 4) (c.arg 0x17 1) 1 (some c.cid) ((cmdImages s c).flatMap (toLe 8))) := by
  simp only [mirrorConfigRun, h, hnew, Nat.zero_ne_one, OfNat.zero_ne_ofNat, Bool.false_eq_true, if_false]
  rfl

theorem sizeTold_sent {p : Nat} (hport : choosePort s 0 (groupsFor (routeOf s c.phase) (c.arg 0x1C 1) .unknown) = some p) :
    sendOrLose (putCmd (setMirror s (c.arg 0x17 1) (askedMirror s c)) { c with holds := true }) c
      (mirrorMsg s c.phase (c.arg 0x1C 1) (c.arg 0x18 4) (c.arg 0x17 1) 1 (some c.cid) ((cmdImages s c).flatMap (toLe 8))) =
    enqueueMsg (putCmd (setMirror s (c.arg 0x17 1) (askedMirror s c)) { c with holds := true }) p
      (mirrorMsg s c.phase (c.arg 0x1C 1) (c.arg 0x18 4) (c.arg 0x17 1) 1 (some c.cid) ((cmdImages s c).flatMap (toLe 8))) :=
  sendOrLose_sent (s := s) rfl hport

theorem mirrorConfigRun_waits (h : c.arg 0x16 1 = 0) (hasked : c.holds = true) :
    mirrorConfigRun s c = mirrorConfigEnd s c (c.arg 0x17 1) := by
  simp [mirrorConfigRun, h, hasked]

theorem exec_mirrorConfigTimeout (hd : Dispatched s cid 0x0601 c) : exec (.mirrorConfigTimeout cid) s = .next
    (if c.arg 0x16 1 = 0 ∧ (getMirror s (c.arg 0x17 1)).asked then
      complete (dropMirror s (c.arg 0x17 1)) c (partnerTimeout s c (c.arg 0x1C 1) (c.arg 0x18 4)) 0
    else s) := by
  change Host.Outcome.next (onWork s cid [0x0601] _) = _
  rw [onWork_some (working_off hd rfl)]

end

/-- A question that a command sends its mirror's partner, once. -/
theorem asks_partner {s : State} {cid op p slot kind : Nat} {c : Cmd} {mr : Mirror} {i : Instr} (hd : Dispatched s cid op c)
    (hexec : exec i s = .next (sendOrLose (putCmd s { c with holds := true }) c
      (mirrorMsg s c.phase mr.laxis mr.partner slot kind (some c.cid) [])))
    (hport : choosePort s 0 (groupsFor (routeOf s c.phase) mr.laxis .unknown) = some p) :
    ∃ t m, exec i s = .next t ∧ (getPort t p).txQueue = (getPort s p).txQueue ++ [m] ∧ m.cls = 3 ∧
      m.data = classHeader mr.partner (ownRank s) (BitVec.ofNat 32 (slot + 256 * kind)) 0 ∧
      findCmd t cid = some { c with holds := true } ∧ t = { s with ports := t.ports, cmds := t.cmds } := by
  have hsent : sendOrLose (putCmd s { c with holds := true }) c (mirrorMsg s c.phase mr.laxis mr.partner slot kind (some c.cid) []) =
      enqueueMsg (putCmd s { c with holds := true }) p (mirrorMsg s c.phase mr.laxis mr.partner slot kind (some c.cid) []) :=
    sendOrLose_sent (s := s) rfl hport
  rw [hsent] at hexec
  refine ⟨_, _, hexec, txQueue_enqueueMsg_of_ports rfl p _, rfl, List.append_nil _, ?_, rfl⟩
  rw [← findCmd_cid hd.1]
  exact findCmd_held hd.find_self

/-! ## MIRROR_VERIFY and RESTORE (R309) -/

section
variable {s : State} {cid : Nat} {c : Cmd}

theorem exec_mirrorVerify {slot : Nat} {mr : Mirror} (hd : Dispatched s cid 0x0604 c) (hi : mirrorVerifyIssue s c = none)
    (hmr : mirrorOf s (c.arg 0x10 2) = some (slot, mr)) : exec (.mirrorVerify cid) s = .next (if c.holds then s
      else sendOrLose (putCmd s { c with holds := true }) c (mirrorMsg s c.phase mr.laxis mr.partner slot 4 (some c.cid) [])) := by
  change Host.Outcome.next (onWork s cid [0x0604] _) = _
  rw [onWork_some (working_off hd rfl), hi, hmr]

section
variable (host : HostRead) (hd : Dispatched s cid 0x0603 c) (hi : checkpointIssue s c = none) (hsrc : c.arg 0x16 1 ≠ 1)
include hd hi hsrc

/-- RESTORE of a master that no mirror serves, or that its partner is asked for. -/
theorem exec_restore_mirror : exec (.restore cid host) s = .next
    (if (!(getMirror s (c.arg 0x17 1)).source) = true ∨ (getMirror s (c.arg 0x17 1)).desc ≠ c.arg 0x10 2 ∨
        (getMirror s (c.arg 0x17 1)).state = 3 ∨ (getMirror s (c.arg 0x17 1)).state = 0 then
      complete s c (noMirror s (readDesc s (c.arg 0x10 2))) 0
    else if c.holds then s
    else sendOrLose (putCmd s { c with holds := true }) c (mirrorMsg s c.phase (getMirror s (c.arg 0x17 1)).laxis
      (getMirror s (c.arg 0x17 1)).partner (c.arg 0x17 1) 6 (some c.cid) [])) := by
  change Host.Outcome.next (onWork s cid [0x0603] _) = _
  rw [onWork_some (working_off hd rfl), hi]
  exact congrArg Host.Outcome.next (if_neg hsrc)

end

end

/-- Settles O53: each row of the mirror by the state of its record. -/
theorem mirrorCommandsAskThePartner : Obligations.MirrorCommandsAskThePartner := by
  unfold Obligations.MirrorCommandsAskThePartner
  refine ⟨?config, ?timeout, ?verify, ?restore⟩
  case config =>
    rintro s cid slot c mr hd hi rfl rfl
    have hexec := exec_mirrorConfig hd hi
    refine ⟨fun hrole => ?_, fun hrole => ?_, fun p hrole hnew hport => ?_, fun hrole hold hasked hstate => ?_,
      fun hrole hold hasked hstate => ?_, fun hrole hold hwait => ?_⟩
    · rw [hexec, mirrorConfigRun_host hrole]
      exact ⟨_, rfl, finishWork_executed s c _ hd.find_self rfl⟩
    · rw [hexec, mirrorConfigRun_remove hrole]
      exact ⟨_, rfl, finishWork_executed s c _ hd.find_self rfl⟩
    · rw [mirrorConfigRun_tells hrole hnew, sizeTold_sent hport] at hexec
      have hrecord := getMirror_setMirror_same s (c.arg 0x17 1) (askedMirror s c)
      refine ⟨_, _, hexec, txQueue_enqueueMsg_of_ports rfl p _, rfl, rfl, ?_, ?_, ?_, fun x hx => ?_, ?_, rfl, rfl⟩
      · exact congrArg Mirror.asked hrecord
      · exact congrArg Mirror.desc hrecord
      · exact congrArg Mirror.partner hrecord
      · exact getPort_enqueueMsg_ne _ _ hx
      · rw [← findCmd_cid hd.1]
        exact findCmd_held (s := setMirror s (c.arg 0x17 1) (askedMirror s c)) hd.find_self
    · rw [hexec, mirrorConfigRun_waits hrole hold]
      simp only [mirrorConfigEnd, hasked, hstate, Bool.false_eq_true, if_false, if_true]
      exact ⟨_, rfl, finishWork_executed s c _ hd.find_self rfl⟩
    · rw [hexec, mirrorConfigRun_waits hrole hold]
      simp only [mirrorConfigEnd, hasked, hstate, Bool.false_eq_true, if_false, if_true, OfNat.ofNat_ne_one]
      exact ⟨_, rfl, complete_ended s c _ 0⟩
    · rw [hexec, mirrorConfigRun_waits hrole hold]
      rcases hwait with hasked | hstate <;> simp [mirrorConfigEnd, *]
  case timeout =>
    intro s cid c hd hrole
    refine ⟨fun hasked => ?_, fun hasked => ?_⟩
    · rw [exec_mirrorConfigTimeout hd, if_pos ⟨hrole, hasked⟩]
      exact ⟨_, _, rfl, complete_ended _ c _ 0⟩
    · rw [exec_mirrorConfigTimeout hd, if_neg (by simp [hasked])]
  case verify =>
    intro s cid p slot c mr hd hi hmr
    have hexec := exec_mirrorVerify hd hi hmr
    refine ⟨fun hnew hport => ?_, fun hold => by rw [hexec, if_pos hold]⟩
    rw [if_neg (by simp [hnew])] at hexec
    exact asks_partner (kind := 4) hd hexec hport
  case restore =>
    rintro s cid p c mr host hd hi hsrc rfl
    have hexec := exec_restore_mirror host hd hi hsrc
    refine ⟨fun hown hdesc hstate hnew hport => ?_, fun hno => ?_⟩
    · rw [if_neg (by simp [hown, hdesc]; omega), if_neg (by simp [hnew])] at hexec
      exact asks_partner (kind := 6) hd hexec hport
    · rw [if_pos (by simpa using hno)] at hexec
      exact ⟨_, hexec, complete_ended s c _ 0⟩

end Sys2Proof.Machine
end

section
/-! Messages of a mirror (R306): a map of mirrors that lists a slot twice, and the refutation of the statement on what a mirror's
partner sends. -/

namespace Sys2Proof.Machine

/-- The route table of rank 0, all other fields 0. -/
def plainRoute : Bytes := List.replicate 256 0

/-- A record that a module hosts in a slot for rank 0. -/
def hostedRecord : Mirror := { Mirror.reset with desc := 1 }

/-- A module of rank 0 whose map of mirrors holds the host record of slot 0 twice. -/
def mirrorTwice : State :=
  { State.reset with peers := { Peers.reset with route := some plainRoute, mirrors := [(256, hostedRecord), (256, hostedRecord)] } }

/-- What its partner sends to have slot 0 removed. -/
def removal : Header := { cls := 3, dst := 0, src := 0, id := 0, spec := 0 }

theorem mirrorTwice_route : mirrorTwice.peers.route ≠ none := by simp [mirrorTwice]

theorem mirrorTwice_rank : removal.dst = ownRank mirrorTwice := by decide +kernel

theorem mirrorTwice_record : hostedRecord = getMirror mirrorTwice 256 := by decide +kernel

/-- A removal takes one of the two away. -/
theorem mirrorTwice_removed : getMirror (mirrorHear mirrorTwice removal .remove) 256 = hostedRecord := by decide +kernel

theorem exec_mirrorTwice : exec (.mirrorMessageReceive removal .remove) mirrorTwice =
    .next (mirrorHear mirrorTwice removal .remove) := by
  simp only [exec, execMirrorMessageReceive]
  rw [if_pos (show removal.cls = 3 from rfl), if_pos ⟨mirrorTwice_route, mirrorTwice_rank⟩]

/-- Refutes O54: the clause on a removal has no premise that the map of mirrors lists each slot once. `mdel` takes away the first
entry of a key, so on `mirrorTwice` the second record of slot 0 is left, and the slot does not read as empty. The statement speaks
of every state; no step makes such a map, for `mput` keeps its keys rising. Where each slot is listed once the record is gone
(`getMirror_dropMirror_same`). -/
theorem not_mirrorMessagesTakeEffect : ¬ Obligations.MirrorMessagesTakeEffect := by
  unfold Obligations.MirrorMessagesTakeEffect
  rintro ⟨-, -, -, -, -, -, -, -, hremove, -⟩
  obtain ⟨⟨t, hexec, hgone, -⟩, -⟩ := hremove mirrorTwice removal 0 0 hostedRecord rfl mirrorTwice_route mirrorTwice_rank rfl
    mirrorTwice_record (by decide) rfl
  have hnext : mirrorHear mirrorTwice removal .remove = t := Host.Outcome.next.inj (exec_mirrorTwice.symm.trans hexec)
  rw [← hnext] at hgone
  have hleft : getMirror (mirrorHear mirrorTwice removal .remove) 256 = hostedRecord := mirrorTwice_removed
  exact absurd (hleft.symm.trans hgone) (by decide)

end Sys2Proof.Machine
end

section
/-! Eddy (R300-R302): a ring command's start, a block's arrival and its slot's release, the end of a command, and the statement
on ring blocks. -/

namespace Sys2Proof.Machine

/-! ## Records of ring commands -/

section
variable {s : State} {cid : Nat} {c : Cmd} {e : Eddy}

theorem mem_storeEddy (s : State) (e : Eddy) : e ∈ (storeEddy s e).peers.eddies :=
  List.mem_append_right _ (List.mem_singleton.mpr rfl)

/-- The record of a running ring command carries its serial number, and the command is the one found under it. -/
theorem eddyOf_spec (h : eddyOf s cid = some (c, e)) :
    working s cid [0x0303, 0x0304] = some c ∧ s.peers.eddies.find? (fun x => x.cid == cid) = some e ∧ e.cid = cid := by
  unfold eddyOf at h
  split at h
  case h_1 c' hwork =>
    obtain ⟨e', hfind, heq⟩ := Option.map_eq_some_iff.mp h
    cases heq
    exact ⟨hwork, hfind, by simpa using List.find?_some hfind⟩
  case h_2 => cases h

/-- A record put in place of the old one is the one found. -/
theorem eddyOf_storeEddy (h : working s e.cid [0x0303, 0x0304] = some c) : eddyOf (storeEddy s e) e.cid = some (c, e) := by
  have hwork : working (storeEddy s e) e.cid [0x0303, 0x0304] = some c := h
  have hfind : (storeEddy s e).peers.eddies.find? (fun x => x.cid == e.cid) = some e := by
    rw [storeEddy, List.find?_append, List.find?_eq_none.mpr (by simp)]
    simp
  rw [eddyOf, hwork, hfind]
  rfl

/-- The taker of a message is a running command with its record. -/
theorem ringTaker_eddyOf {h : Header} (ht : ringTaker s h = some (c, e)) : eddyOf s e.cid = some (c, e) := by
  obtain ⟨e', -, hof⟩ := List.exists_of_findSome?_eq_some ht
  rwa [(eddyOf_spec hof).2.2]

end

/-! ## The end of a ring command (R301, R302) -/

section
variable {s : State} {c : Cmd} {e : Eddy}

/-- A command with a block still to come stays as it is. -/
theorem eddyEnd_waits (h : e.finished = false) : eddyEnd s c e = storeEddy s e := by simp [eddyEnd, h]

theorem not_finished {p : Nat} (hpass : p ∈ e.passing) (hopen : p ∉ e.handled) : e.finished = false := by
  have hall : e.passing.all (fun p => e.handled.contains p) = false := by
    rw [List.all_eq_false]
    exact ⟨p, hpass, by simpa using hopen⟩
  rw [Eddy.finished, hall, Bool.false_and]

/-- A forward command whose blocks are handled and sent commits. -/
theorem eddyEnd_forward (hfin : e.finished = true) (hsent : stillSending s e.cid = false) (hdir : e.backward = false) :
    eddyEnd s c e = finishWork (dropEddy s e.cid) c (succeeded (eddyWork s c e) []) := by
  simp [eddyEnd, hfin, hsent, hdir]

theorem ne_nil_of_wordBytes {l : List Word} (h : wordBytes l ≠ []) : l ≠ [] := by
  rintro rfl
  exact h rfl

/-- A backward command that no accumulator came back to writes its own share. -/
theorem eddyEnd_alone (hfin : e.finished = true) (hsent : stillSending s e.cid = false) (hdir : e.backward = true)
    (hnone : ∀ a ∈ e.accs, a.1 ≠ e.position) (hnil : wordBytes (partialNow s c) ≠ []) :
    eddyEnd s c e = finishWork (dropEddy s e.cid) c (succeeded (eddyWork s c e)
      [.write (readDesc s (c.arg 0x12 2)).home (wordBytes (partialNow s c))]) := by
  have hfind : e.accs.find? (fun a => a.1 == e.position) = none := List.find?_eq_none.mpr (by simpa using hnone)
  simp [eddyEnd, hfin, hsent, hdir, hfind, ne_nil_of_wordBytes hnil]

/-- One that has its accumulator back adds its own share last. -/
theorem eddyEnd_returned {acc : List Word} (hfin : e.finished = true) (hsent : stillSending s e.cid = false)
    (hdir : e.backward = true) (haccs : e.accs = [(e.position, acc)]) (hnil : wordBytes (addPartial acc (partialNow s c)) ≠ []) :
    eddyEnd s c e = finishWork (dropEddy s e.cid) c (succeeded (eddyWork s c e)
      [.write (readDesc s (c.arg 0x12 2)).home (wordBytes (addPartial acc (partialNow s c)))]) := by
  have hfind : e.accs.find? (fun a => a.1 == e.position) = some (e.position, acc) := by simp [haccs]
  simp [eddyEnd, hfin, hsent, hdir, hfind, ne_nil_of_wordBytes hnil]

end

/-! ## Messages of a ring command -/

/-- A message of a ring command leaves on the port that its ports choose, whatever else the state holds. -/
theorem eddySend_sent {s s0 : State} {c : Cmd} {m : TxMsg} {k : State → State} {p : Nat} (hports : s.ports = s0.ports)
    (hport : choosePort s0 0 m.groups = some p) : eddySend s c m k = k (enqueueMsg s p m) := by
  rw [eddySend, sendTx_of_choosePort ((choosePort_of_ports hports 0 _).trans hport)]

/-! ## A command starts (R301) -/

section
variable {s : State} {cid op : Nat} {c : Cmd}

theorem ringStart_begun {e : Eddy} (hd : Dispatched s cid op c) (hop : onMeres op = false)
    (hfind : s.peers.eddies.find? (fun x => x.cid == cid) = some e) : ringStart op cid s = eddyEnd s c e := by
  rw [ringStart, onWork_some (working_off hd hop), hfind]

theorem ringStart_new (hd : Dispatched s cid op c) (hop : onMeres op = false) (hnew : ∀ e ∈ s.peers.eddies, e.cid ≠ cid)
    (hissue : kvRingIssue s c = none) : ringStart op cid s = startRing s c := by
  rw [ringStart, onWork_some (working_off hd hop), List.find?_eq_none.mpr (by simpa using hnew), hissue]

end

/-- The record of a ring command that starts. -/
def ringRecord (s : State) (c : Cmd) : Eddy :=
  { cid := c.cid, backward := c.opcode == 0x0304, ring := c.arg 0x18 1, axis := (rtAxes (route s) 1).headD 0,
    size := rtDim (route s) ((rtAxes (route s) 1).headD 0), position := rtCoord (route s) ((rtAxes (route s) 1).headD 0),
    causal := c.arg 0x19 1 == 1, slots := [], handled := [], waiting := [], parts := [], accs := [] }

/-- The state as a ring command's own block leaves: a forward command has named its blocks for the ring. -/
def ringNamed (s : State) (c : Cmd) : State :=
  tickFree (if c.opcode == 0x0304 then s else
    { s with peers := { s.peers with ringDescs := mput s.peers.ringDescs (c.arg 0x18 1) (c.arg 0x10 2, c.arg 0x12 2) } })

/-- The message that carries a command's own block one position on. -/
def ownBlockMsg (s : State) (c : Cmd) : TxMsg :=
  eddyMsg (ringNamed s c) c (ringRecord s c) (((ringRecord s c).position + 1) % max (ringRecord s c).size 1) false
    (ringRecord s c).position 1 false (ownBlock s c)

section
variable {s : State} {c : Cmd}

theorem ringNamed_frame (s : State) (c : Cmd) : ringNamed s c =
    { s with freeCtr := s.freeCtr + 1, peers := { s.peers with ringDescs := (ringNamed s c).peers.ringDescs } } := by
  unfold ringNamed
  split <;> rfl

/-- With no message kept, a start sends the own block and waits. -/
theorem startRing_sends {p : Nat} (hbox : s.peers.inbox = []) (hhops : 0 < totalHops (ringRecord s c).size (ringRecord s c).causal
      (ringRecord s c).position) (hwaits : (ringRecord s c).finished = false)
    (hport : choosePort s 0 (ownBlockMsg s c).groups = some p) :
    startRing s c = storeEddy (enqueueMsg (ringNamed s c) p (ownBlockMsg s c)) (ringRecord s c) := by
  have hports : (ringNamed s c).ports = s.ports := by rw [ringNamed_frame]
  have hinbox : (enqueueMsg (ringNamed s c) p (ownBlockMsg s c)).peers.inbox = [] := by
    rw [enqueueMsg_frame, ringNamed_frame]
    exact hbox
  have hsend : startRing s c = eddySend (ringNamed s c) c (ownBlockMsg s c)
      (fun t => offerRing c.cid t.peers.inbox (eddyEnd t c (ringRecord s c))) := if_pos hhops
  rw [hsend, eddySend_sent hports hport, hinbox, offerRing, eddyEnd_waits hwaits]

/-- On a ring of two or more, a block that is not cut by causality passes every other module. -/
theorem ringRecord_waits (hsize : 2 ≤ (ringRecord s c).size) (hcausal : (ringRecord s c).causal = false) :
    (ringRecord s c).finished = false := by
  obtain ⟨p, hlt, hne⟩ : ∃ p, p < (ringRecord s c).size ∧ p ≠ (ringRecord s c).position := by
    rcases Nat.eq_zero_or_pos (ringRecord s c).position with hpos | hpos
    · exact ⟨1, by omega, by omega⟩
    · exact ⟨0, by omega, by omega⟩
  refine not_finished (p := p) ?_ List.not_mem_nil
  simp [Eddy.passing, hlt, hne, hcausal]

/-- The blocks that a ring command names. -/
theorem ownBlock_named {k v : Nat} (hk : k ≠ 0)
    (hnamed : (if c.opcode = 0x0303 then (c.arg 0x10 2, c.arg 0x12 2) else mget (0, 0) s.peers.ringDescs (c.arg 0x18 1)) = (k, v)) :
    ownBlock s c = s.mem.readN (readDesc s k).home (blockSizes s c).1 ++ s.mem.readN (readDesc s v).home (blockSizes s c).2 := by
  simp only [ownBlock, hnamed, hk, if_false]

/-- A ring command that names its blocks sends them one position on and waits (R301). -/
theorem startRing_goes {k v axis size pos p : Nat} (hk : k ≠ 0)
    (hnamed : (if c.opcode = 0x0303 then (c.arg 0x10 2, c.arg 0x12 2) else mget (0, 0) s.peers.ringDescs (c.arg 0x18 1)) = (k, v))
    (hbox : s.peers.inbox = []) (hcausal : c.arg 0x19 1 = 0) (haxis : axis = (rtAxes (route s) 1).headD 0)
    (hsize : size = rtDim (route s) axis) (hpos : pos = rtCoord (route s) axis) (htwo : 2 ≤ size)
    (hport : choosePort s 0 [axisPorts axis true, axisPorts axis false] = some p) :
    ∃ t m e, startRing s c = t ∧ (getPort t p).txQueue = (getPort s p).txQueue ++ [m] ∧ m.cls = 1 ∧
      m.data = classHeader (Config.ringRank axis ((pos + 1) % size)) (ownRank s) (BitVec.ofNat 32 (pos * 65536 + c.arg 0x18 1)) 1 ++
        s.mem.readN (readDesc s k).home (blockSizes s c).1 ++ s.mem.readN (readDesc s v).home (blockSizes s c).2 ∧
      e ∈ t.peers.eddies ∧ e.cid = c.cid ∧ e.position = pos ∧ e.size = size ∧ e.slots = [] ∧ e.handled = [] ∧
      t.cmds = s.cmds ∧ t.mem = s.mem ∧ t.queues = s.queues := by
  subst haxis hsize hpos
  have hcut : (ringRecord s c).causal = false := by simp [ringRecord, hcausal]
  have hhops : 0 < totalHops (ringRecord s c).size (ringRecord s c).causal (ringRecord s c).position := by
    rw [hcut]
    exact Nat.sub_pos_of_lt htwo
  have hports : (ringNamed s c).ports = s.ports := by rw [ringNamed_frame]
  have hrank : ownRank (ringNamed s c) = ownRank s := by rw [ringNamed_frame]; rfl
  have hmax : max (rtDim (route s) ((rtAxes (route s) 1).headD 0)) 1 = rtDim (route s) ((rtAxes (route s) 1).headD 0) := by omega
  refine ⟨_, _, ringRecord s c, startRing_sends hbox hhops (ringRecord_waits htwo hcut) hport,
    txQueue_enqueueMsg_of_ports hports p _, rfl, ?_, mem_storeEddy _ _, rfl, rfl, rfl, rfl, rfl, ?_, ?_, ?_⟩
  · rw [List.append_assoc, ← ownBlock_named hk hnamed, ← hrank, ← hmax]
    rfl
  all_goals
    rw [storeEddy, enqueueMsg_frame, ringNamed_frame]

end

/-! ## A block arrives (R301) -/

section
variable {s : State} {h : Header} {data : Bytes} {c : Cmd} {e : Eddy}

theorem exec_eddyBlockArrive (hcls : h.cls = 1) (hblock : bit h.spec.toNat 16 = false) (hroute : s.peers.route ≠ none)
    (hdst : h.dst = ownRank s) (htaker : ringTaker s h = some (c, e)) : exec (.eddyBlockArrive h data) s =
      .next (takeBlock (unkeep s h data) c e (h.id.toNat / 65536) (h.spec.toNat % 65536) data) := by
  have htaker' : ringTaker (unkeep s h data) h = some (c, e) := htaker
  change Host.Outcome.next (if h.cls = 1 ∧ (!bit h.spec.toNat 16) = true then ringMessage h data s else s) = _
  rw [if_pos ⟨hcls, by rw [hblock]; rfl⟩, ringMessage, onMessage_taken hroute hdst, htaker']
  simp [eddyTake, hblock]

theorem exec_eddyAccumulatorArrive (hcls : h.cls = 1) (hacc : bit h.spec.toNat 16 = true) (hroute : s.peers.route ≠ none)
    (hdst : h.dst = ownRank s) (htaker : ringTaker s h = some (c, e)) (hdir : e.backward = true)
    (hopen : h.id.toNat / 65536 ∉ e.handled) (haccs : e.accs = []) (hparts : e.parts = []) :
    exec (.eddyAccumulatorArrive h data) s =
      .next (eddyEnd (unkeep s h data) c { e with accs := [(h.id.toNat / 65536, wordsIn 4 (data.drop 4))] }) := by
  have htaker' : ringTaker (unkeep s h data) h = some (c, e) := htaker
  change Host.Outcome.next (if h.cls = 1 ∧ bit h.spec.toNat 16 = true then ringMessage h data s else s) = _
  rw [if_pos ⟨hcls, hacc⟩, ringMessage, onMessage_taken hroute hdst, htaker']
  simp [eddyTake, hacc, hdir, haccs, hopen, hparts, combineParts]

end

/-- Where a block's bytes lie in its slot. -/
def storeBlock (s : State) (c : Cmd) (j : Nat) (data : Bytes) : State :=
  hbmWrite (hbmWrite s ((readDesc s (c.arg 0x14 2)).home + j * (blockSizes s c).1) (slice data 0 (blockSizes s c).1))
    ((readDesc s (c.arg 0x16 2)).home + j * (blockSizes s c).2) (slice data (blockSizes s c).1 (blockSizes s c).2)

/-- A block stored, and signalled where it is needed. -/
def signalBlock (s : State) (c : Cmd) (e : Eddy) (origin j : Nat) (data : Bytes) : State :=
  if blockNeeded e.causal origin e.position then addTokens (storeBlock s c j data) c.q (c.arg 0x1C 2 + j) 1
  else storeBlock s c j data

/-- A command's record once the block is in its slot; a forward command is then done with it. -/
def Eddy.holding (e : Eddy) (origin hops j : Nat) : Eddy :=
  { e with
    slots := if blockNeeded e.causal origin e.position then mput e.slots j { origin := origin, hops := hops, needed := true } else e.slots
    handled := if e.backward then e.handled else addTo e.handled origin }

section
variable {s : State} {c : Cmd} {e : Eddy} {origin hops : Nat} {data : Bytes}

theorem storeBlock_frame (s : State) (c : Cmd) (j : Nat) (data : Bytes) :
    storeBlock s c j data = { s with mem := (storeBlock s c j data).mem } := rfl

theorem addTokens_ports (s : State) (q n k : Nat) : (addTokens s q n k).ports = s.ports := by
  rw [(addTokens_frame s q n k).2]

theorem addTokens_peers (s : State) (q n k : Nat) : (addTokens s q n k).peers = s.peers := by
  rw [(addTokens_frame s q n k).2]

theorem signalBlock_cmds (s : State) (c : Cmd) (e : Eddy) (origin j : Nat) (data : Bytes) :
    (signalBlock s c e origin j data).cmds = s.cmds := by
  unfold signalBlock
  split
  · rw [addTokens_cmds, storeBlock_frame]
  · rfl

theorem signalBlock_ports (s : State) (c : Cmd) (e : Eddy) (origin j : Nat) (data : Bytes) :
    (signalBlock s c e origin j data).ports = s.ports := by
  unfold signalBlock
  split
  · rw [addTokens_ports, storeBlock_frame]
  · rfl

theorem signalBlock_peers (s : State) (c : Cmd) (e : Eddy) (origin j : Nat) (data : Bytes) :
    (signalBlock s c e origin j data).peers = s.peers := by
  unfold signalBlock
  split
  · rw [addTokens_peers, storeBlock_frame]
  · rfl

/-- A needed block gives its slot's counter one token. -/
theorem signalBlock_count {j : Nat} (hneed : blockNeeded e.causal origin e.position = true) (hn : c.arg 0x1C 2 + j ≠ 0) :
    (getCounter (signalBlock s c e origin j data) (c.arg 0x1C 2 + j)).count.toNat =
      min ((getCounter s (c.arg 0x1C 2 + j)).count.toNat + 1) 0xFFFF := by
  have hcount := addTokens_count (storeBlock s c j data) c.q _ 1 hn
  rw [show getCounter (storeBlock s c j data) (c.arg 0x1C 2 + j) = getCounter s (c.arg 0x1C 2 + j) from rfl] at hcount
  rw [signalBlock, if_pos hneed, hcount, BitVec.toNat_ofNat]
  omega

section
variable (hhandled : origin ∉ e.handled) (hwaiting : ∀ w ∈ e.waiting, w.1 ≠ origin)
  (hslots : ∀ x ∈ e.slots, x.2.origin ≠ origin) (hparts : ∀ x ∈ e.parts, x.1 ≠ origin)
include hhandled hwaiting hslots hparts

/-- A block that nothing of the record is from has not come before. -/
theorem takeBlock_new : takeBlock s c e origin hops data =
    if mhas e.slots (slotOf c hops) then storeEddy s { e with waiting := e.waiting ++ [(origin, hops, data)] }
    else placeBlock s c e origin hops data := by
  have hnew : (e.handled.contains origin || e.waiting.any (fun w => w.1 == origin) || e.slots.any (fun x => x.2.origin == origin) ||
      e.parts.any (fun p => p.1 == origin)) = false := by
    simp only [Bool.or_eq_false_iff, List.any_eq_false, beq_iff_eq]
    exact ⟨⟨⟨by simpa using hhandled, hwaiting⟩, by simpa using hslots⟩, hparts⟩
  rw [takeBlock, hnew]
  rfl

/-- It is placed where its slot is free. -/
theorem takeBlock_free (hfree : mhas e.slots (slotOf c hops) = false) :
    takeBlock s c e origin hops data = placeBlock s c e origin hops data := by
  rw [takeBlock_new hhandled hwaiting hslots hparts, if_neg (by simp [hfree])]

/-- It waits where its slot is in use. -/
theorem takeBlock_held (hheld : mhas e.slots (slotOf c hops) = true) :
    takeBlock s c e origin hops data = storeEddy s { e with waiting := e.waiting ++ [(origin, hops, data)] } := by
  rw [takeBlock_new hhandled hwaiting hslots hparts, if_pos hheld]

end

theorem holding_handled {j : Nat} (hdir : e.backward = false) : (e.holding origin hops j).handled = addTo e.handled origin := by
  rw [Eddy.holding, hdir]
  rfl

/-- A block at its last position. -/
theorem placeBlock_last (hlast : hops = totalHops e.size e.causal origin) :
    placeBlock s c e origin hops data =
      eddyEnd (signalBlock s c e origin (slotOf c hops) data) c (e.holding origin hops (slotOf c hops)) := by
  unfold placeBlock
  dsimp only
  rw [if_neg (by omega)]
  rfl

/-- One with hops left goes on. -/
theorem placeBlock_forwards (hleft : hops < totalHops e.size e.causal origin) :
    placeBlock s c e origin hops data = eddySend (signalBlock s c e origin (slotOf c hops) data) c
      (eddyMsg (signalBlock s c e origin (slotOf c hops) data) c (e.holding origin hops (slotOf c hops))
        ((e.position + 1) % max e.size 1) false origin (hops + 1) false data)
      (fun t => eddyEnd t c (e.holding origin hops (slotOf c hops))) := by
  unfold placeBlock
  dsimp only
  rw [if_pos hleft]
  rfl

/-- While another block is to come a forward command waits on. -/
theorem holding_waits {j other : Nat} (hdir : e.backward = false) (hpass : other ∈ e.passing) (hne : other ≠ origin) (hopen : other ∉ e.handled) :
    (e.holding origin hops j).finished = false :=
  not_finished (e := e.holding origin hops j) hpass fun hmem =>
    (mem_addTo_iff.mp (holding_handled (hops := hops) (j := j) hdir ▸ hmem)).elim hne hopen

end

/-! ## A slot is released (R301 step 4) -/

section
variable {s : State} {cid slot : Nat} {c : Cmd} {e : Eddy}

/-- The release of a slot of a forward command that no block waits for. -/
theorem exec_eddySlotRelease (hof : eddyOf s cid = some (c, e)) (hdir : e.backward = false) (hwaiting : e.waiting = []) :
    exec (.eddySlotRelease cid slot) s = .next
      (if (mhas e.slots slot && released s (c.arg 0x1E 2 + slot) &&
          !forwarding s cid (mget { origin := 0, hops := 0, needed := false } e.slots slot).origin) = true then
        storeEddy (takeTokens s [c.arg 0x1E 2 + slot]) { e with slots := mdel e.slots slot }
      else s) := by
  obtain ⟨hwork, -, rfl⟩ := eddyOf_spec hof
  have htokens := takeTokens_frame s [c.arg 0x1E 2 + slot]
  have hwork' : working (takeTokens s [c.arg 0x1E 2 + slot]) e.cid [0x0303, 0x0304] = some c := by
    rw [htokens]
    exact hwork
  have hserve : serveWaiting (storeEddy (takeTokens s [c.arg 0x1E 2 + slot]) { e with slots := mdel e.slots slot }) c e.cid slot =
      storeEddy (takeTokens s [c.arg 0x1E 2 + slot]) { e with slots := mdel e.slots slot } := by
    rw [serveWaiting, eddyOf_storeEddy (e := { e with slots := mdel e.slots slot }) hwork']
    simp [hwaiting]
  change Host.Outcome.next (match eddyOf s e.cid with | some (c, e) => _ | none => _) = _
  have hforward : ¬e.backward = true := by simp [hdir]
  rw [hof]
  dsimp only
  rw [if_neg hforward, if_neg hforward, hserve]

end

/-- Settles O56: the record of a ring command is followed from its start over its blocks, slots and accumulators to its end. -/
theorem ringBlocksGoRound : Obligations.RingBlocksGoRound := by
  unfold Obligations.RingBlocksGoRound
  refine ⟨?start, ?block, ?release, ?accumulator, ?finish⟩
  case start =>
    intro s cid op p c i k v axis size pos hd hissue hrow hk hnew hbox hcausal haxis hsize hpos htwo hport
    have hcid : c.cid = cid := findCmd_cid hd.1
    obtain ⟨hexec, hnamed⟩ : exec i s = .next (startRing s c) ∧
        (if c.opcode = 0x0303 then (c.arg 0x10 2, c.arg 0x12 2) else mget (0, 0) s.peers.ringDescs (c.arg 0x18 1)) = (k, v) := by
      rcases hrow with ⟨rfl, rfl, rfl, rfl⟩ | ⟨rfl, rfl, hnamed⟩
      · exact ⟨congrArg Host.Outcome.next (ringStart_new hd rfl hnew hissue), if_pos hd.2.2⟩
      · refine ⟨congrArg Host.Outcome.next (ringStart_new hd rfl hnew hissue), ?_⟩
        rw [if_neg (by rw [hd.2.2]; decide), hnamed]
    obtain ⟨t, m, e, ht, h⟩ := startRing_goes hk hnamed hbox hcausal haxis hsize hpos htwo hport
    rw [hcid] at h
    exact ⟨t, m, e, hexec.trans (congrArg _ ht), h⟩
  case block =>
    rintro s h data c e origin hops j other hcls hblock hroute hdst htaker hdir rfl rfl rfl hhandled hwaiting hslots hparts hpass hne hopen
    have hexec := exec_eddyBlockArrive (data := data) hcls hblock hroute hdst htaker
    have hwaits := holding_waits (hops := h.spec.toNat % 65536) (j := slotOf c (h.spec.toNat % 65536))
      hdir hpass hne hopen
    refine ⟨fun hfree hlast => ?_, fun p hfree hleft hport => ?_, fun hheld => ?_⟩
    · rw [takeBlock_free hhandled hwaiting hslots hparts hfree, placeBlock_last hlast, eddyEnd_waits hwaits] at hexec
      refine ⟨_, _, hexec, mem_storeEddy _ _, rfl, holding_handled hdir, signalBlock_cmds _ _ _ _ _ _, fun hneed => ?_, fun hneed hn => ?_⟩
      · simp only [Eddy.holding, if_pos hneed]
        exact mget_mput_same _ _ _ _
      · exact signalBlock_count (s := unkeep s h data) (data := data) hneed hn
    · have hports := signalBlock_ports (unkeep s h data) c e (h.id.toNat / 65536) (slotOf c (h.spec.toNat % 65536)) data
      have hpeers := signalBlock_peers (unkeep s h data) c e (h.id.toNat / 65536) (slotOf c (h.spec.toNat % 65536)) data
      have hrank : ownRank (signalBlock (unkeep s h data) c e (h.id.toNat / 65536) (slotOf c (h.spec.toNat % 65536)) data) = ownRank s := by
        rw [ownRank, route, hpeers]
        rfl
      rw [takeBlock_free hhandled hwaiting hslots hparts hfree, placeBlock_forwards hleft,
        eddySend_sent (s0 := s) hports hport, eddyEnd_waits hwaits] at hexec
      refine ⟨_, _, hexec, txQueue_enqueueMsg_of_ports hports p _, rfl, ?_⟩
      rw [← hrank]
      rfl
    · rw [takeBlock_held hhandled hwaiting hslots hparts hheld] at hexec
      exact ⟨_, _, hexec, mem_storeEddy _ _, rfl, rfl, rfl, rfl⟩
  case release =>
    rintro s cid slot n c e hof hdir hwaiting rfl hn
    have hexec := exec_eddySlotRelease (slot := slot) hof hdir hwaiting
    refine ⟨fun hforward => ?_, fun hheld hcount hdone => ?_, fun hcount => ?_⟩
    · rw [hexec, if_neg (by simp [hforward])]
    · have hpos : 0 < (getCounter s (c.arg 0x1E 2 + slot)).count.toNat := by bv_omega
      rw [if_pos (by simp [hheld, hdone, released, hpos])] at hexec
      have htokens := takeTokens_frame s [c.arg 0x1E 2 + slot]
      refine ⟨_, _, hexec, mem_storeEddy _ _, rfl, ?_, ?_, ?_⟩
      · change (getCounter (takeTokens s [c.arg 0x1E 2 + slot]) _).count = _
        rw [takeTokens, if_neg hn, takeTokens, getCounter_setCounter]
        simp
      · rw [storeEddy, htokens]
      · rw [storeEddy, htokens]
    · have hshut : released s (c.arg 0x1E 2 + slot) = false := by
        rw [released, hcount, beq_false_of_ne hn]
        rfl
      rw [hexec, if_neg (by simp [hshut])]
  case accumulator =>
    intro s h data c e hcls hacc hroute hdst htaker hdir hown hopen haccs hparts hsent hpass hnil
    have hexec := exec_eddyAccumulatorArrive (data := data) hcls hacc hroute hdst htaker hdir (hown ▸ hopen) haccs hparts
    rw [hown] at hexec
    have hwork := (eddyOf_spec (ringTaker_eddyOf htaker)).1
    have hfin : Eddy.finished { e with accs := [(e.position, wordsIn 4 (data.drop 4))] } = true := by
      have hall : Eddy.passing { e with accs := [(e.position, wordsIn 4 (data.drop 4))] } = e.passing := rfl
      simpa [Eddy.finished, hall] using hpass
    rw [eddyEnd_returned (s := unkeep s h data) hfin hsent hdir rfl hnil] at hexec
    exact ⟨_, dropEddy (unkeep s h data) e.cid, hexec, rfl, rfl,
      finishWork_executed (dropEddy (unkeep s h data) e.cid) c _ (working_self hwork) rfl⟩
  case finish =>
    intro s cid c e hfind
    refine ⟨fun hd hdir hfin hsent => ?_, fun hd hdir hfin hsent hnone hnil => ?_, fun hopen hd => ?_, fun hopen hd => ?_⟩
    · have hexec : exec (.kvRing cid) s = .next (eddyEnd s c e) := congrArg Host.Outcome.next (ringStart_begun hd rfl hfind)
      rw [eddyEnd_forward hfin hsent hdir] at hexec
      exact ⟨_, hexec, finishWork_executed (dropEddy s e.cid) c _ hd.find_self rfl⟩
    · have hexec : exec (.kvRingBwd cid) s = .next (eddyEnd s c e) := congrArg Host.Outcome.next (ringStart_begun hd rfl hfind)
      rw [eddyEnd_alone hfin hsent hdir hnone hnil] at hexec
      exact ⟨_, hexec, finishWork_executed (dropEddy s e.cid) c _ hd.find_self rfl⟩
    · have hexec : exec (.kvRing cid) s = .next (eddyEnd s c e) := congrArg Host.Outcome.next (ringStart_begun hd rfl hfind)
      rw [eddyEnd_waits hopen] at hexec
      exact ⟨_, hexec, mem_storeEddy _ _, rfl, rfl⟩
    · have hexec : exec (.kvRingBwd cid) s = .next (eddyEnd s c e) := congrArg Host.Outcome.next (ringStart_begun hd rfl hfind)
      rw [eddyEnd_waits hopen] at hexec
      exact ⟨_, hexec, mem_storeEddy _ _, rfl, rfl⟩

end Sys2Proof.Machine
end

section
/-! Collectives (R290-R298): what their messages and records depend on, one turn of a collective, and its end. -/

namespace Sys2Proof.Machine

/-! ## Messages sent in turn -/

theorem enqueueMsg_of_ports {s t : State} (h : t.ports = s.ports) (p : Nat) (m : TxMsg) :
    enqueueMsg t p m = { t with ports := (enqueueMsg s p m).ports } := by
  simp only [enqueueMsg, setPort, getPort, h]

/-- What a list of messages does to the ports is told by the ports alone. -/
theorem sendAll_of_ports {s t : State} (h : t.ports = s.ports) (d : Nat) (ms : List TxMsg) :
    sendAll d ms t = ({ t with ports := (sendAll d ms s).1.ports }, (sendAll d ms s).2) := by
  induction ms generalizing s t with
  | nil =>
    rw [sendAll, sendAll, ← h]
  | cons m ms ih =>
    rw [sendAll, sendAll, sendTx, sendTx, choosePort_of_ports h]
    cases choosePort s d m.groups with
    | none =>
      simp only [Option.map_none]
      rw [← h]
    | some p =>
      simp only [Option.map_some]
      rw [enqueueMsg_of_ports h]
      exact ih rfl

theorem sendAll_sent_of_ports {s t : State} {d : Nat} {ms : List TxMsg} (h : t.ports = s.ports) (hs : (sendAll d ms s).2 = none) :
    (sendAll d ms t).2 = none := by
  rw [sendAll_of_ports h, hs]

/-- The state after messages are sent. -/
theorem sendAll_state (s : State) (d : Nat) (ms : List TxMsg) : (sendAll d ms s).1 = { s with ports := (sendAll d ms s).1.ports } := by
  conv_lhs => rw [sendAll_of_ports (s := s) rfl]

theorem sendFor_sent {s : State} {c : Cmd} {co : Coll} {ms : List TxMsg} (h : (sendAll 0 ms s).2 = none) :
    sendFor s c co ms = .go { s with ports := (sendAll 0 ms s).1.ports } co := by
  rw [sendFor, sendAll_of_ports (s := s) rfl, h]

/-! ## Records of collectives -/

section
variable {s : State} {cid : Nat} {c : Cmd} {co : Coll}

/-- The record of a running collective carries its serial number, and the command is the one found under it. -/
theorem collOf_spec (h : collOf s cid = some (c, co)) : findCmd s c.cid = some c ∧ co.cid = cid := by
  unfold collOf at h
  split at h
  case h_1 c' hwork =>
    obtain ⟨co', hfind, heq⟩ := Option.map_eq_some_iff.mp h
    cases heq
    exact ⟨working_self hwork, by simpa using List.find?_some hfind⟩
  case h_2 => cases h

/-- The collective found by its id is a running one. -/
theorem collById_collOf {id : Word} (h : collById s id = some (c, co)) : collOf s co.cid = some (c, co) := by
  obtain ⟨co', -, hof⟩ := List.exists_of_findSome?_eq_some h
  rwa [(collOf_spec hof).2]

theorem collById_self {id : Word} (h : collById s id = some (c, co)) : findCmd s c.cid = some c :=
  (collOf_spec (collById_collOf h)).1

theorem mem_storeColl (s : State) (co : Coll) : co ∈ (storeColl s co).peers.colls :=
  List.mem_append_right _ (List.mem_singleton.mpr rfl)

theorem not_begun (h : ∀ x ∈ s.peers.colls, x.cid ≠ cid) : s.peers.colls.any (fun x => x.cid == cid) = false := by
  simpa [List.any_eq_false] using h

/-- With no message kept there is none to offer. -/
theorem offerKept_empty (h : s.peers.inbox = []) : offerKept s c co = (s, co) := by
  rw [offerKept, h, takeKept]
  dsimp only
  rw [← h]

end

/-! ## The failure of a collective (R292, R293, R298) -/

section
variable {s : State} {c : Cmd} {co : Coll} {e : Err}

/-- A rank that has not answered: counted, and the command is over. -/
theorem failColl_timeout (h : e.1 = 0x31) : ∃ u, Ended u (failColl s c co e) c e 0 ∧
    u.peers.btimeout = min (s.peers.btimeout + 1) 0xFFFFFFFF ∧ u.cmds = s.cmds ∧ u.mem = s.mem ∧ u.ports = s.ports := by
  rw [failColl, if_pos h]
  exact ⟨_, complete_ended _ c e 0, rfl, rfl, rfl, rfl⟩

/-- Any other failure counts nothing. -/
theorem failColl_uncounted (h : e.1 ≠ 0x31) :
    ∃ u, Ended u (failColl s c co e) c e 0 ∧ u.cmds = s.cmds ∧ u.mem = s.mem := by
  rw [failColl, if_neg h]
  exact ⟨_, complete_ended _ c e 0, rfl, rfl⟩

end

/-! ## Turns -/

section
variable {s : State} {c : Cmd} {co co1 : Coll} {n : Nat}

theorem collRun_wait (h : collTurn s c co = .wait s co) : collRun (n + 1) s c co = storeColl s co := by
  rw [collRun, h]

theorem collRun_done {t : State} (h : collTurn s c co = .done t) : collRun (n + 1) s c co = t := by
  rw [collRun, h]

theorem collRun_go {t : State} (h : collTurn s c co = .go t co1) (hbox : t.peers.inbox = []) :
    collRun (n + 1) s c co = collRun n t c co1 := by
  rw [collRun, h]
  dsimp only
  rw [offerKept_empty hbox]

/-- A reduction has no generations to agree. -/
theorem badGeneration_reduction (h : co.gather = false) : badGeneration co = none := by simp [badGeneration, h]

/-- A collective that misses an input waits for it. -/
theorem collTurn_missing (hgen : badGeneration co = none) (hopen : co.gather = false → co.settled = false)
    (hmiss : missingRanks s c co co.stage ≠ []) : collTurn s c co = .wait s co := by
  rw [collTurn, hgen]
  cases hkind : co.gather
  case false =>
    simp only [hopen hkind, reduceStage, if_pos hmiss, Bool.false_eq_true, if_false]
  case true =>
    simp only [gatherStage, if_pos hmiss, if_true]

theorem runColl_missing (hgen : badGeneration co = none) (hopen : co.gather = false → co.settled = false)
    (hmiss : missingRanks s c co co.stage ≠ []) : runColl s c co = storeColl s co :=
  collRun_wait (collTurn_missing hgen hopen hmiss)

/-- A settled reduction is in its close round. -/
theorem collTurn_settled (hkind : co.gather = false) (hset : co.settled = true) : collTurn s c co = closeRound s c co := by
  rw [collTurn, badGeneration_reduction hkind]
  simp [hkind, hset]

/-- While a close word is missing it waits. -/
theorem closeRound_waits (h : co.closesInOrder.length < co.entries.length) : closeRound s c co = .wait s co := by
  simp [closeRound, h]

end

/-! ## The last stage of a reduction (R291, R293) -/

/-- The record of a reduction whose last stage has its inputs, with its own close word. -/
def settledColl (s : State) (c : Cmd) (co : Coll) (now : Nat) : Coll :=
  let copies := if co.stage = 0 then ((co.adding 0).filter (fun r =>
    r != co.own && useCopy s c co 0 r && (co.excluded == none || co.excluded == some r))).length else 0
  let co2 := { co with
    backupTaken := co.backupTaken || decide (0 < copies)
    offenders := if co.stage = 0 then offendersOf s c co else co.offenders
    settled := true, since := now, totals := stageTotals s c co co.stage }
  { co2 with closes := co2.closes ++ [co2.ownClose] }

section
variable {s : State} {c : Cmd} {co : Coll} {now : Nat}

theorem settledColl_closes (h : co.closes = []) : (settledColl s c co now).closes = [(settledColl s c co now).ownClose] := by
  simp only [settledColl, h, List.nil_append]
  rfl

theorem settledColl_others : (settledColl s c co now).others = co.others := rfl

/-- A last stage that has its inputs, without an excluded rank: the record is settled and its close word goes to the others. -/
theorem reduceStage_last (hmiss : missingRanks s c co co.stage = []) (hlast : co.stage + 1 = co.dims.length)
    (hexcl : co.excluded = none) : ∃ b, reduceStage s c co =
      sendFor { s with peers := { s.peers with bbackup := b } } c (settledColl s c co (microsOn s 5))
        (co.others.map (fun r => shortMsg s c co 1 r (closeBytes (settledColl s c co (microsOn s 5)).ownClose))) := by
  cases co
  dsimp only at hmiss hlast hexcl
  subst hexcl
  unfold reduceStage
  simp only [hmiss, Bool.and_false, Bool.false_eq_true, ne_eq, not_true, if_false]
  rw [if_neg (by omega)]
  exact ⟨_, rfl⟩

/-- Where every close word can leave, the collective goes on. -/
theorem reduceStage_settles (hmiss : missingRanks s c co co.stage = []) (hlast : co.stage + 1 = co.dims.length)
    (hexcl : co.excluded = none) (hsend : ∀ w, (sendAll 0 (co.others.map (fun r => shortMsg s c co 1 r w)) s).2 = none) :
    ∃ b p, reduceStage s c co =
      .go { s with peers := { s.peers with bbackup := b }, ports := p } (settledColl s c co (microsOn s 5)) := by
  obtain ⟨b, hb⟩ := reduceStage_last hmiss hlast hexcl
  exact ⟨b, _, hb.trans (sendFor_sent (sendAll_sent_of_ports (s := s) rfl (hsend _)))⟩

/-- With another participant the own close word is not enough. -/
theorem closesInOrder_own_lt (hcloses : ∃ w, co.closes = [w] ∧ w.src = co.own) (hother : ∃ e ∈ co.entries, e.rank ≠ co.own) :
    co.closesInOrder.length < co.entries.length := by
  obtain ⟨w, hw, hsrc⟩ := hcloses
  obtain ⟨e, hmem, hne⟩ := hother
  exact List.length_filterMap_lt_length_iff_exists.mpr ⟨e, hmem, by simp [hw, hsrc, Ne.symm hne]⟩

end

end Sys2Proof.Machine
end

section
/-! Collectives (R288-R298): their starts, messages, windows and standbys, and the statement on them. -/

namespace Sys2Proof.Machine

/-! ## Starts (R290, R298) -/

section
variable {s : State} {cid op : Nat} {c : Cmd}

theorem notedResult_signals (notes work : Nat) (effects : List Effect) : signals (notedResult notes work effects).status = true := by
  unfold notedResult
  dsimp only
  split <;> rfl

theorem collStart_failing {e : Err} (hd : Dispatched s cid op c) (hop : onMeres op = false)
    (hnew : ∀ x ∈ s.peers.colls, x.cid ≠ cid) (hissue : collIssue s c = some e) : collStart op cid s = complete s c e 0 := by
  rw [collStart, onWork_some (working_off hd hop), hissue]
  dsimp only
  rw [not_begun hnew]
  rfl

theorem newColl_gather (hop : c.opcode = op) : (newColl s c).gather = (op == 0x0302) := by rw [← hop]; rfl

theorem newColl_standby (hflag : bit (c.arg 0x19 1) 0 = false) : (newColl s c).standby = false := by
  simp [newColl, hflag]

/-- A new collective has no piece of another generation. -/
theorem badGeneration_newColl (s : State) (c : Cmd) : badGeneration (newColl s c) = none := by
  rw [badGeneration]
  split <;> rfl

/-- A collective starts: its first messages leave, and it waits for the others'. -/
theorem collStart_waits (hd : Dispatched s cid op c) (hop : onMeres op = false) (hnew : ∀ x ∈ s.peers.colls, x.cid ≠ cid)
    (hissue : collIssue s c = none) (hbox : s.peers.inbox = []) (hflag : bit (c.arg 0x19 1) 0 = false)
    (hgen : op = 0x0302 → (readDesc s (c.arg 0x10 2)).generation ≠ 2 ^ 64 - 1)
    (hsend : (sendAll 0 (firstMsgs s c (newColl s c)) s).2 = none)
    (hmiss : missingRanks s c (newColl s c) (newColl s c).stage ≠ []) : collStart op cid s =
      storeColl { s with ports := (sendAll 0 (firstMsgs s c (newColl s c)) s).1.ports } (newColl s c) := by
  have hfresh : s.peers.colls.any (fun x => x.cid == c.cid) = false := not_begun (by rwa [findCmd_cid hd.1])
  have hchecked : ¬((newColl s c).gather = true ∧ ((readDesc s (c.arg 0x10 2)).generation = 2 ^ 64 - 1 ∨
      bit (c.arg 0x19 1) 0 = true ∧ (readDesc s (c.arg 0x12 2)).generation ≠ (readDesc s (c.arg 0x10 2)).generation)) := by
    rintro ⟨hkind, hbad | ⟨hbad, -⟩⟩
    · rw [newColl_gather hd.2.2, beq_iff_eq] at hkind
      exact hgen hkind hbad
    · simp [hflag] at hbad
  have hwait : runColl { s with ports := (sendAll 0 (firstMsgs s c (newColl s c)) s).1.ports } c (newColl s c) =
      storeColl { s with ports := (sendAll 0 (firstMsgs s c (newColl s c)) s).1.ports } (newColl s c) :=
    runColl_missing (badGeneration_newColl s c) (fun _ => rfl) hmiss
  have hempty : ({ s with ports := (sendAll 0 (firstMsgs s c (newColl s c)) s).1.ports } : State).peers.inbox = [] := hbox
  rw [collStart, onWork_some (working_off hd hop), hissue]
  dsimp only
  rw [startColl]
  dsimp only
  rw [hfresh, if_neg Bool.false_ne_true, if_neg hchecked, newColl_standby hflag, if_neg Bool.false_ne_true, sendFor_sent hsend]
  dsimp only
  rw [offerKept_empty hempty]
  dsimp only
  rw [hwait, hbox, offerShort]

end

/-! ## Messages taken in (R290, R293, R298) -/

section
variable {s : State} {h : Header} {data : Bytes} {c : Cmd} {co co1 : Coll}

theorem collMessage_unknown (hroute : s.peers.route ≠ none) (hdst : h.dst = ownRank s) (hnone : collById s h.id = none) :
    collMessage h data s = keepMsg (unkeep s h data) h data := by
  have hnone' : collById (unkeep s h data) h.id = none := hnone
  rw [collMessage, onMessage_taken hroute hdst, hnone']

theorem collMessage_taken (hroute : s.peers.route ≠ none) (hdst : h.dst = ownRank s) (hid : collById s h.id = some (c, co))
    (htakes : co.takes h = true) (htake : co.takeMsg (collWidth s c) h data = (co1, false)) :
    collMessage h data s = runColl (unkeep s h data) c co1 := by
  have hid' : collById (unkeep s h data) h.id = some (c, co) := hid
  have htake' : co.takeMsg (collWidth (unkeep s h data) c) h data = (co1, false) := htake
  rw [collMessage, onMessage_taken hroute hdst, hid']
  dsimp only
  rw [if_pos htakes, htake']
  rfl

/-- An input or piece that a member sends, that has not come and is still wanted, joins the inputs. -/
theorem takeInput_new {w k seg : Nat} (hk : k = co.stageOf (bits h.spec.toNat 17 16)) (hseg : seg = h.spec.toNat % 65536)
    (hkind : specKind h.spec ≠ 2) (hring : co.inRing k h.src = true)
    (hfresh : ∀ y ∈ co.inputs, y.stage = k → y.src = h.src → y.backup = false → y.segment ≠ seg)
    (hwanted : ¬(k = 0 ∧ co.gather = false ∧ (0 < co.stage ∨ co.settled = true ∨ co.excluded = some h.src)))
    (hcopy : co.copyIn w k h.src = false) : co.takeInput w h data = ({ co with inputs := co.inputs ++
      [{ stage := k, src := h.src, segment := seg, backup := false, nonfinite := bits h.spec.toNat 29 18,
         values := wordsIn w (if co.gather then data.drop 8 else data), generation := if co.gather then field data 0 8 else 0 }] },
      false) := by
  subst hk hseg
  have hgot : (co.got (co.stageOf (bits h.spec.toNat 17 16)) h.src false).any (fun x => x.segment == h.spec.toNat % 65536) = false := by
    simp only [Coll.got, List.any_eq_false, List.mem_filter, Bool.and_eq_true, beq_iff_eq]
    rintro y ⟨hmem, ⟨hstage, hsrc⟩, hbackup⟩
    exact hfresh y hmem hstage hsrc hbackup
  unfold Coll.takeInput
  dsimp only
  rw [if_pos (by simp [hkind, hring]), if_neg (by simp [hgot]), if_neg (by simpa [or_assoc] using hwanted), if_neg (by simp [hcopy])]

/-- A close word that has not come joins the others. -/
theorem takeMsg_close {w : Nat} (hcls : h.cls = 4) (hknown : ∃ e ∈ co.entries, e.rank = h.src) (hnew : ∀ x ∈ co.closes, x.src ≠ h.src) :
    co.takeMsg w h data = ({ co with closes := co.closes ++ [closeOf h.src data] }, false) := by
  have hentry : co.entries.any (fun e => e.rank == h.src) = true := by simpa using hknown
  have hfresh : co.closes.any (fun x => x.src == h.src) = false := by simpa [List.any_eq_false] using hnew
  rw [Coll.takeMsg, if_neg (by omega), hentry, if_neg (by simp), hfresh]
  rfl

theorem exec_basinInputReceive (hcls : h.cls = 0) (hkind : specKind h.spec ≠ 1) :
    exec (.basinInputReceive h data) s = .next (collMessage h data s) :=
  congrArg Host.Outcome.next (if_pos ⟨hcls, hkind⟩)

theorem exec_gatheredPieceReceive (hcls : h.cls = 0) (hkind : specKind h.spec = 1) :
    exec (.gatheredPieceReceive h data) s = .next (collMessage h data s) :=
  congrArg Host.Outcome.next (if_pos ⟨hcls, hkind⟩)

theorem exec_closeWordReceive (hcls : h.cls = 4) (hkind : shortKind h.spec = 1) :
    exec (.closeWordReceive h data) s = .next (collMessage h data s) :=
  congrArg Host.Outcome.next (if_pos ⟨hcls, hkind⟩)

end

/-! ## Gathers (R298) -/

section
variable {s : State} {c : Cmd} {co : Coll}

/-- The piece of another generation that came last is the one told. -/
theorem badGeneration_last {x : CollInput} (hkind : co.gather = true) (hgood : ∀ y ∈ co.inputs, y.generation = co.generation)
    (hset : co.generation ≠ 2 ^ 64 - 1) : badGeneration { co with inputs := co.inputs ++ [x] } =
      if x.generation = co.generation then none else some x.generation := by
  have hnone : co.inputs.find? (fun y => y.generation != co.generation || y.generation == 2 ^ 64 - 1) = none := by
    rw [List.find?_eq_none]
    intro y hy
    simpa [hgood y hy] using hset
  simp only [badGeneration, hkind, if_true, List.find?_append, hnone, Option.none_or, List.find?_singleton]
  split <;> rename_i hx <;> split <;> rename_i hy <;> simp_all

/-- The last piece of the last stage ends the gather. -/
theorem gatherStage_ends (hmiss : missingRanks s c co co.stage = []) (hlast : co.stage = 0) (hself : findCmd s c.cid = some c) :
    ∃ t u r, gatherStage s c co = .done t ∧ u.cmds = s.cmds ∧ u.mem = s.mem ∧ Executed u t c r ∧ signals r.status = true ∧
      .generation (readDesc s (c.arg 0x12 2)).id (BitVec.ofNat 64 co.generation) ∈ r.effects := by
  unfold gatherStage
  dsimp only
  rw [if_neg (by simp [hmiss]), if_pos hlast]
  refine ⟨_, _, _, rfl, ?_, ?_, finishWork_executed _ c _ hself ?_, ?_, List.mem_append_right _ (List.mem_singleton.mpr rfl)⟩
  · rfl
  · rfl
  · exact notedResult_signals _ _ _
  · exact notedResult_signals _ _ _

end

/-! ## The close round (R293, R294) -/

/-- The lowest rank that a verdict tells: of those that offend and the excluded one. -/
def Coll.lowestTold (co : Coll) (low : Nat) : Nat :=
  match co.excluded with
  | some r => min r low
  | none => low

section
variable {s : State} {c : Cmd} {co : Coll}

/-- A reduction's end: its verdict, its norm where asked for, and its shard wait for the commit. -/
theorem endReduction_executed (off low : Nat) (hself : findCmd s c.cid = some c) : ∃ u r told,
    Executed u (endReduction s c co off low) c r ∧ u.cmds = s.cmds ∧ u.mem = s.mem ∧
    r.effects = shardWrite s c co ++
      (if bit (c.arg 0x19 1) 2 then [.norm (c.arg 0x1A 1) (stageSum (co.closesInOrder.map (fun w => w.q)))] else []) ++
      [.verdict (decide (0 < off)) (co.excluded != none && !decide (0 < off)) (co.closesInOrder.any (fun w => w.backup))
        (bit (c.arg 0x19 1) 1) told off co.ownBad] := by
  have hself' : findCmd (dropColl (sendAll 0 (releaseMsgs s c co) s).1 co) c.cid = some c := by
    rw [dropColl, sendAll_state]
    exact hself
  unfold endReduction
  dsimp only
  refine ⟨_, _, co.lowestTold low, finishWork_executed _ c _ hself' ?signals, ?_, ?_, ?effects⟩
  case signals =>
    split
    · rfl
    · exact notedResult_signals _ _ _
  case effects => split <;> rfl
  · rw [dropColl, sendAll_state]
  · rw [dropColl, sendAll_state]

/-- With every close word in and none failed, a verdict that asks for no second run ends the reduction. -/
theorem closeRound_ends (hall : co.entries.length ≤ co.closesInOrder.length) (hok : ∀ w ∈ co.closesInOrder, w.failed = false)
    (honce : distinctOff co.closesInOrder ≠ 1 ∨ co.excluded ≠ none ∨ s.job.policy ≠ 1 ∨ co.size 0 ≤ 1) :
    closeRound s c co = .done (endReduction s c co (distinctOff co.closesInOrder) (lowestOff co.closesInOrder)) := by
  have hnone : co.closesInOrder.any (fun w => w.failed) = false := by simpa [List.any_eq_false] using hok
  unfold closeRound
  dsimp only
  rw [if_neg (by omega), hnone, if_neg Bool.false_ne_true, if_neg]
  rintro ⟨hone, hexcl, hpolicy, hsize⟩
  rcases honce with h | h | h | h
  · exact h hone
  · exact h hexcl
  · exact h hpolicy
  · omega

/-- A failed close word fails the collective. -/
theorem closeRound_fails (hall : co.entries.length ≤ co.closesInOrder.length) (hfail : ∃ w ∈ co.closesInOrder, w.failed = true) :
    closeRound s c co = .done (failColl (tickFree s) c co (0x31, (Config.freeWord s.freeCtr).toNat % 2 ^ 24)) := by
  have hany : co.closesInOrder.any (fun w => w.failed) = true := by simpa using hfail
  unfold closeRound
  dsimp only
  rw [if_neg (by omega), if_pos hany]

theorem Ended.peers_eq {t : State} {e : Err} {w : Nat} (h : Ended s t c e w) : t.peers = s.peers := by rw [h.rest]

end

/-! ## Windows and standbys (R292, R294, R297) -/

section
variable {s : State} {cid : Nat} {c : Cmd} {co : Coll}

/-- The close word of an owner that fails. -/
def failedClose (own : Nat) : CloseWord :=
  { src := own, offCount := 0, offRank := 0xFFFFFFFF, q := 0, failed := true, backup := false }

theorem exec_collectiveW1Expiry (hof : collOf s cid = some (c, co)) (hrole : co.standby = false) :
    exec (.collectiveW1Expiry cid) s = .next (if windowOver s co (w1Of c) then
      (match sendFor s c { co with pulled := co.pulled ++ (w1Pulls s c co).map (fun p => p.1) } ((w1Pulls s c co).map (fun p =>
          shortMsg s c { co with pulled := co.pulled ++ (w1Pulls s c co).map (fun p => p.1) } 2 p.2
            (pullPayload { co with pulled := co.pulled ++ (w1Pulls s c co).map (fun p => p.1) } p.1))) with
        | .go s1 co2 => runColl s1 c co2
        | .wait s1 co2 => storeColl s1 co2
        | .done s1 => s1)
      else s) := by
  change Host.Outcome.next (match collOf s cid with | some (c, co) => _ | none => _) = _
  rw [hof]
  dsimp only
  rw [hrole]
  cases windowOver s co (w1Of c) <;> rfl

theorem exec_collectiveW2Expiry_open (hof : collOf s cid = some (c, co)) (hopen : windowOver s co (w2Of c) = false) :
    exec (.collectiveW2Expiry cid) s = .next s := by
  change Host.Outcome.next (match collOf s cid with | some (c, co) => _ | none => _) = _
  rw [hof]
  dsimp only
  rw [hopen, if_pos (by simp)]

section
variable (hof : collOf s cid = some (c, co)) (hrole : co.standby = false) (hover : windowOver s co (w2Of c) = true)
include hof hrole hover

/-- A settled reduction whose second window is over misses a close word. -/
theorem exec_collectiveW2Expiry_settled {r : Nat} (hset : co.settled = true)
    (hfirst : co.others.find? (fun r => !co.closes.any (fun w => w.src == r)) = some r) :
    exec (.collectiveW2Expiry cid) s = .next (failColl s c co (rankTimeout s c co (co.dims.length - 1) r)) := by
  change Host.Outcome.next (match collOf s cid with | some (c, co) => _ | none => _) = _
  rw [hof]
  dsimp only
  rw [if_neg (by simp [hrole, hover]), if_pos hset, hfirst]

/-- The copy of an excluded rank is dropped. -/
theorem exec_collectiveW2Expiry_excluded (hset : co.settled = false) (hexcl : co.excluded ≠ none) (hstage : co.stage = 0) :
    exec (.collectiveW2Expiry cid) s = .next (runColl s c { co with rescale := true }) := by
  change Host.Outcome.next (match collOf s cid with | some (c, co) => _ | none => _) = _
  rw [hof]
  dsimp only
  rw [if_neg (by simp [hrole, hover]), if_neg (by simp [hset]), if_pos ⟨hexcl, hstage⟩]

/-- A missing input fails the collective; a reduction tells the others first. -/
theorem exec_collectiveW2Expiry_missing {r : Nat} {l : List Nat} (hset : co.settled = false)
    (hkeep : co.excluded = none ∨ co.stage ≠ 0) (hmiss : missingRanks s c co co.stage = r :: l) :
    ∃ p, exec (.collectiveW2Expiry cid) s = .next (failColl { s with ports := p } c co (rankTimeout s c co co.stage r)) ∧
      (co.gather = true → p = s.ports) := by
  have hexec : exec (.collectiveW2Expiry cid) s = .next (failColl (if co.gather then s else (sendAll 0 (co.others.map (fun x =>
      shortMsg s c co 1 x (closeBytes (failedClose co.own)))) s).1) c co (rankTimeout s c co co.stage r)) := by
    change Host.Outcome.next (match collOf s cid with | some (c, co) => _ | none => _) = _
    rw [hof]
    dsimp only
    rw [if_neg (by simp [hrole, hover]), if_neg (by simp [hset]), if_neg (fun h => hkeep.elim h.1 (fun hne => hne h.2)), hmiss]
    rfl
  rw [hexec]
  cases hkind : co.gather with
  | true => exact ⟨s.ports, rfl, fun _ => rfl⟩
  | false =>
    rw [if_neg Bool.false_ne_true, sendAll_state]
    exact ⟨_, rfl, fun h => absurd h Bool.false_ne_true⟩

end

theorem exec_standbyTimeout (hof : collOf s cid = some (c, co)) (hrole : co.standby = true) : exec (.standbyTimeout cid) s =
    .next (if co.since + 2 * w2Of c ≤ microsOn s 5 then
      (match co.entries.find? (fun e => !co.heard.contains e.rank) with
        | some e => failColl s c co (peerTimeout ((choosePort s 0 (groupsFor (routeOf s c.phase) (c.arg 0x18 1) (co.whereIs e.rank))).getD
            (((groupsFor (routeOf s c.phase) (c.arg 0x18 1) (co.whereIs e.rank)).headD []).headD 0)) 3 e.rank)
        | none => s)
      else s) := by
  change Host.Outcome.next (match collOf s cid with | some (c, co) => _ | none => _) = _
  rw [hof]
  dsimp only
  rw [hrole]
  by_cases hover : co.since + 2 * w2Of c ≤ microsOn s 5
  · rw [if_pos (by simpa using hover), if_pos hover] <;> rfl
  · rw [if_neg (by simpa using hover), if_neg hover]

/-- A standby that has heard from all owners is done. -/
theorem standbyCheck_done (hall : ∀ e ∈ co.entries, e.rank ∈ co.heard) :
    standbyCheck s c co = finishWork (dropColl s co) c (succeeded 0 []) := if_pos (by simpa using hall)

theorem standbyCheck_waits (hmiss : ∃ e ∈ co.entries, e.rank ∉ co.heard) : standbyCheck s c co = storeColl s co :=
  if_neg (by simpa using hmiss)

end

/-! ## Pulls and releases (R292, R297, R298) -/

section
variable {s : State} {h : Header} {data : Bytes} {c : Cmd} {co : Coll}

theorem exec_pullRequestReceive_unknown (hroute : s.peers.route ≠ none) (hdst : h.dst = ownRank s) (hcls : h.cls = 4)
    (hkind : shortKind h.spec = 2) (hnone : collById s h.id = none) :
    exec (.pullRequestReceive h data) s = .next (keepMsg (unkeep s h data) h data) := by
  have hnone' : collById (unkeep s h data) h.id = none := hnone
  refine congrArg Host.Outcome.next ((if_pos ⟨hcls, hkind⟩).trans ?_)
  rw [onMessage_taken hroute hdst, hnone']

theorem exec_releaseWordReceive_unknown (hroute : s.peers.route ≠ none) (hdst : h.dst = ownRank s) (hcls : h.cls = 4)
    (hkind : shortKind h.spec = 3) (hnone : collById s h.id = none) :
    exec (.releaseWordReceive h data) s = .next (keepMsg (unkeep s h data) h data) := by
  have hnone' : collById (unkeep s h data) h.id = none := hnone
  refine congrArg Host.Outcome.next ((if_pos ⟨hcls, hkind⟩).trans ?_)
  rw [onMessage_taken hroute hdst, hnone']

section
variable (hroute : s.peers.route ≠ none) (hdst : h.dst = ownRank s) (hcls : h.cls = 4) (hid : collById s h.id = some (c, co))
include hroute hdst hcls hid

theorem exec_pullRequestReceive (hkind : shortKind h.spec = 2) : exec (.pullRequestReceive h data) s = .next
    (if co.gather then
      (match sendAll 0 (mirrorPiece s co c h.src data) (unkeep s h data) with
        | (s1, none) => s1
        | (s1, some m) => failColl s1 c co (linkLost (lastPort m) m.level))
      else heardFrom (unkeep s h data) c co h.src true) := by
  have hid' : collById (unkeep s h data) h.id = some (c, co) := hid
  refine congrArg Host.Outcome.next ((if_pos ⟨hcls, hkind⟩).trans ?_)
  rw [onMessage_taken hroute hdst, hid']
  rfl

theorem exec_releaseWordReceive (hkind : shortKind h.spec = 3) : exec (.releaseWordReceive h data) s = .next
    (if co.standby then standbyCheck (unkeep s h data) c { co with heard := addTo co.heard h.src } else unkeep s h data) := by
  have hid' : collById (unkeep s h data) h.id = some (c, co) := hid
  refine congrArg Host.Outcome.next ((if_pos ⟨hcls, hkind⟩).trans ?_)
  rw [onMessage_taken hroute hdst, hid']
  cases hrole : co.standby <;> simp [heardFrom, hrole]

end

/-- A participant answers a pull with the copies, and remembers who asked. -/
theorem heardFrom_answers {src : Nat} (hrole : co.standby = false)
    (hsend : (sendAll 0 (copyMsgs s c { co with heard := addTo co.heard src } src) s).2 = none) :
    heardFrom (unkeep s h data) c co src true =
      storeColl { unkeep s h data with ports := (sendAll 0 (copyMsgs s c { co with heard := addTo co.heard src } src) s).1.ports }
        { co with heard := addTo co.heard src } := by
  have hsent : sendAll 0 (copyMsgs (unkeep s h data) c { co with heard := addTo co.heard src } src) (unkeep s h data) =
      ({ unkeep s h data with ports := (sendAll 0 (copyMsgs s c { co with heard := addTo co.heard src } src) s).1.ports }, none) := by
    rw [← hsend]
    exact sendAll_of_ports (s := s) (t := unkeep s h data) rfl 0 _
  unfold heardFrom
  dsimp only
  rw [if_pos rfl, hsent]
  dsimp only
  rw [hrole, if_neg Bool.false_ne_true]

end

end Sys2Proof.Machine
end

section
/-! Collectives (R288-R298): what each clause of the statement asks, and the statement. -/

namespace Sys2Proof.Machine

section
variable {s : State} {h : Header} {data : Bytes} {c : Cmd} {co co1 : Coll} {x : CollInput} {k seg : Nat}

/-- An input that a reduction still wants joins its inputs, and the reduction runs on. -/
theorem collMessage_input (hcls : h.cls = 0) (hroute : s.peers.route ≠ none) (hdst : h.dst = ownRank s)
    (hid : collById s h.id = some (c, co)) (hcoll : co.collId = h.id) (hrole : co.standby = false) (hred : co.gather = false)
    (hkind : specKind h.spec = 0) (hk : k = co.stageOf (bits h.spec.toNat 17 16)) (hseg : seg = h.spec.toNat % 65536)
    (hring : co.inRing k h.src = true)
    (hfresh : ∀ y ∈ co.inputs, y.stage = k → y.src = h.src → y.backup = false → y.segment ≠ seg) (hopen : co.settled = false)
    (hfirst : k = 0 → co.stage = 0 ∧ co.excluded ≠ some h.src) (hcopy : co.copyIn (collWidth s c) k h.src = false)
    (hx : x = { stage := k, src := h.src, segment := seg, backup := false, nonfinite := bits h.spec.toNat 29 18,
                values := wordsIn (collWidth s c) data, generation := 0 }) :
    collMessage h data s = runColl (unkeep s h data) c { co with inputs := co.inputs ++ [x] } := by
  have htakes : co.takes h = true := by simp [Coll.takes, hcoll, hrole, hcls, hred, hkind]
  refine collMessage_taken hroute hdst hid htakes ?_
  rw [Coll.takeMsg, if_pos hcls, takeInput_new hk hseg (by rw [hkind]; decide) hring hfresh ?_ hcopy, hred, hx]
  · rfl
  · rintro ⟨hzero, -, hlate | hlate | hlate⟩
    · have := (hfirst hzero).1
      omega
    · rw [hopen] at hlate
      exact absurd hlate Bool.false_ne_true
    · exact (hfirst hzero).2 hlate

/-- A piece that a gather still wants joins its inputs, and the gather runs on. -/
theorem collMessage_piece (hcls : h.cls = 0) (hroute : s.peers.route ≠ none) (hdst : h.dst = ownRank s)
    (hid : collById s h.id = some (c, co)) (hcoll : co.collId = h.id) (hrole : co.standby = false) (hgather : co.gather = true)
    (hkind : specKind h.spec = 1) (hk : k = co.stageOf (bits h.spec.toNat 17 16)) (hseg : seg = h.spec.toNat % 65536)
    (hring : co.inRing k h.src = true)
    (hfresh : ∀ y ∈ co.inputs, y.stage = k → y.src = h.src → y.backup = false → y.segment ≠ seg)
    (hcopy : co.copyIn (collWidth s c) k h.src = false)
    (hx : x = { stage := k, src := h.src, segment := seg, backup := false, nonfinite := bits h.spec.toNat 29 18,
                values := wordsIn (collWidth s c) (data.drop 8), generation := field data 0 8 }) :
    collMessage h data s = runColl (unkeep s h data) c { co with inputs := co.inputs ++ [x] } := by
  have htakes : co.takes h = true := by simp [Coll.takes, hcoll, hrole, hcls, hgather, hkind]
  refine collMessage_taken hroute hdst hid htakes ?_
  rw [Coll.takeMsg, if_pos hcls, takeInput_new hk hseg (by rw [hkind]; decide) hring hfresh (by simp [hgather]) hcopy, hgather, hx]
  rfl

/-- A close word joins a settled reduction's, and its close round goes on. -/
theorem collMessage_close (hcls : h.cls = 4) (hkind : shortKind h.spec = 1) (hroute : s.peers.route ≠ none)
    (hdst : h.dst = ownRank s) (hid : collById s h.id = some (c, co)) (hcoll : co.collId = h.id) (hrole : co.standby = false)
    (hred : co.gather = false) (hknown : ∃ e ∈ co.entries, e.rank = h.src) (hnew : ∀ w ∈ co.closes, w.src ≠ h.src) :
    collMessage h data s = runColl (unkeep s h data) c { co with closes := co.closes ++ [closeOf h.src data] } := by
  have htakes : co.takes h = true := by simp [Coll.takes, hcoll, hrole, hcls, hred, hkind]
  exact collMessage_taken hroute hdst hid htakes (takeMsg_close hcls hknown hnew)

/-- The last input of the last stage: the reduction settles, sends its close word and waits for the others'. -/
theorem runColl_settles (hred : co.gather = false) (hopen : co.settled = false) (hmiss : missingRanks s c co co.stage = [])
    (hlast : co.stage + 1 = co.dims.length) (hexcl : co.excluded = none) (hcloses : co.closes = [])
    (hother : ∃ e ∈ co.entries, e.rank ≠ co.own) (hbox : s.peers.inbox = [])
    (hsend : ∀ w, (sendAll 0 (co.others.map (fun r => shortMsg s c co 1 r w)) s).2 = none) :
    ∃ b p, runColl s c co =
      storeColl { s with peers := { s.peers with bbackup := b }, ports := p } (settledColl s c co (microsOn s 5)) := by
  obtain ⟨b, p, hstage⟩ := reduceStage_settles hmiss hlast hexcl hsend
  have hturn : collTurn s c co = .go { s with peers := { s.peers with bbackup := b }, ports := p } (settledColl s c co (microsOn s 5)) := by
    rw [collTurn, badGeneration_reduction hred]
    simp only [hred, hopen, Bool.false_eq_true, if_false]
    exact hstage
  have hown : (settledColl s c co (microsOn s 5)).closesInOrder.length < (settledColl s c co (microsOn s 5)).entries.length :=
    closesInOrder_own_lt ⟨_, settledColl_closes hcloses, rfl⟩ hother
  have hwaits := (collTurn_settled (s := { s with peers := { s.peers with bbackup := b }, ports := p }) (c := c)
    (co := settledColl s c co (microsOn s 5)) hred rfl).trans (closeRound_waits hown)
  exact ⟨b, p, (collRun_go hturn hbox).trans (collRun_wait hwaits)⟩

end

/-- The row of a collective that starts: its record is the last, its messages have left, and nothing else differs. -/
theorem exec_start_waits {s : State} {cid op : Nat} {c : Cmd} {i : Instr} (hd : Dispatched s cid op c)
    (hrow : exec i s = .next (collStart op cid s)) (hop : onMeres op = false) (hnew : ∀ x ∈ s.peers.colls, x.cid ≠ cid)
    (hissue : collIssue s c = none) (hbox : s.peers.inbox = []) (hflag : bit (c.arg 0x19 1) 0 = false)
    (hgen : op = 0x0302 → (readDesc s (c.arg 0x10 2)).generation ≠ 2 ^ 64 - 1)
    (hsend : (sendAll 0 (firstMsgs s c (newColl s c)) s).2 = none)
    (hmiss : missingRanks s c (newColl s c) (newColl s c).stage ≠ []) : ∃ t, exec i s = .next t ∧
      t.peers.colls = s.peers.colls ++ [newColl s c] ∧ t.ports = (sendAll 0 (firstMsgs s c (newColl s c)) s).1.ports ∧
      t.cmds = s.cmds ∧ t.mem = s.mem ∧ t.queues = s.queues := by
  have hcid : (newColl s c).cid = cid := findCmd_cid hd.1
  have hlast : s.peers.colls.filter (fun x => x.cid != (newColl s c).cid) = s.peers.colls :=
    List.filter_eq_self.mpr (by simpa [hcid] using hnew)
  rw [collStart_waits hd hop hnew hissue hbox hflag hgen hsend hmiss] at hrow
  generalize (sendAll 0 (firstMsgs s c (newColl s c)) s).1.ports = sent at hrow ⊢
  exact ⟨_, hrow, congrArg (· ++ [newColl s c]) hlast, rfl, rfl, rfl, rfl⟩

/-- Settles O57: each clause follows one turn of the collective, from the message or window that starts it. -/
theorem collectivesTakeTheirInputs : Obligations.CollectivesTakeTheirInputs := by
  unfold Obligations.CollectivesTakeTheirInputs
  refine ⟨?start, ?failing, ?input, ?piece, ?close, ?kept, ?firstWindow, ?secondWindow, ?short, ?standby⟩
  case start =>
    rintro s cid c co hissue hnew hbox rfl hsend hmiss
    exact ⟨fun hd hflag => exec_start_waits hd rfl rfl hnew hissue hbox hflag (fun h => absurd h (by decide)) hsend hmiss,
      fun hd hflag hgen => exec_start_waits hd rfl rfl hnew hissue hbox hflag (fun _ => hgen) hsend hmiss⟩
  case failing =>
    intro s cid c e hnew hissue
    refine ⟨fun hd => ?_, fun hd => ?_⟩
    · have hexec : exec (.reduceScatter cid) s = .next (collStart 0x0301 cid s) := rfl
      rw [collStart_failing hd rfl hnew hissue] at hexec
      exact ⟨_, hexec, complete_ended s c e 0⟩
    · have hexec : exec (.allGather cid) s = .next (collStart 0x0302 cid s) := rfl
      rw [collStart_failing hd rfl hnew hissue] at hexec
      exact ⟨_, hexec, complete_ended s c e 0⟩
  case input =>
    rintro s h data c co co1 x k seg hcls hroute hdst hid hcoll hrole hred hkind hk hseg hring hfresh hopen hfirst hcopy hx rfl
    have hexec : exec (.basinInputReceive h data) s = _ := (exec_basinInputReceive hcls (by rw [hkind]; decide)).trans
      (congrArg Host.Outcome.next (collMessage_input hcls hroute hdst hid hcoll hrole hred hkind hk hseg hring hfresh hopen hfirst
        hcopy hx))
    refine ⟨fun hmiss => ?_, fun hmiss hlast hexcl hcloses hother hbox hsend => ?_⟩
    · have hwait : runColl (unkeep s h data) c { co with inputs := co.inputs ++ [x] } =
          storeColl (unkeep s h data) { co with inputs := co.inputs ++ [x] } :=
        runColl_missing (badGeneration_reduction hred) (fun _ => hopen) hmiss
      exact ⟨_, hexec.trans (congrArg _ hwait), rfl, rfl, rfl, rfl, rfl⟩
    · have hempty : (unkeep s h data).peers.inbox = [] := by rw [unkeep, hbox]; rfl
      have hsent : ∀ w, (sendAll 0 (co.others.map (fun r => shortMsg s c co 1 r w)) (unkeep s h data)).2 = none :=
        fun w => sendAll_sent_of_ports (s := s) rfl (hsend w)
      obtain ⟨b, p, hrun⟩ := runColl_settles (s := unkeep s h data) (c := c) (co := { co with inputs := co.inputs ++ [x] })
        hred hopen hmiss hlast hexcl hcloses hother hempty hsent
      exact ⟨_, settledColl (unkeep s h data) c { co with inputs := co.inputs ++ [x] } (microsOn s 5),
        hexec.trans (congrArg _ hrun), mem_storeColl _ _, rfl, rfl, rfl, settledColl_closes hcloses, rfl, rfl⟩
  case piece =>
    rintro s h data c co co1 x k seg hcls hroute hdst hid hcoll hrole hgather hkind hk hseg hring hfresh hcopy hx rfl hgood hset
    have hexec : exec (.gatheredPieceReceive h data) s = _ := (exec_gatheredPieceReceive hcls hkind).trans
      (congrArg Host.Outcome.next (collMessage_piece hcls hroute hdst hid hcoll hrole hgather hkind hk hseg hring hfresh hcopy hx))
    have hbad := badGeneration_last (x := x) hgather hgood hset
    refine ⟨fun hgen hmiss => ?_, fun hgen hmiss hlast => ?_, fun hgen => ?_⟩
    · rw [if_pos hgen] at hbad
      have hwait : runColl (unkeep s h data) c { co with inputs := co.inputs ++ [x] } =
          storeColl (unkeep s h data) { co with inputs := co.inputs ++ [x] } :=
        runColl_missing hbad (fun hred => absurd (hgather.symm.trans hred) (by decide)) hmiss
      exact ⟨_, hexec.trans (congrArg _ hwait), rfl, rfl, rfl⟩
    · rw [if_pos hgen] at hbad
      obtain ⟨t, u, r, hstage, h⟩ := gatherStage_ends (s := unkeep s h data) (c := c)
        (co := { co with inputs := co.inputs ++ [x] }) hmiss hlast (collById_self hid)
      refine ⟨t, u, r, hexec.trans (congrArg _ (collRun_done ?_)), h⟩
      rw [collTurn, hbad]
      dsimp only
      rw [if_pos hgather, hstage]
    · rw [if_neg hgen] at hbad
      obtain ⟨u, hend, hcmds, hmem⟩ := failColl_uncounted (s := unkeep s h data) (c := c)
        (co := { co with inputs := co.inputs ++ [x] }) (e := shardVersion (c.arg 0x10 2) x.generation) (show 0x22 ≠ 0x31 by decide)
      refine ⟨_, u, hexec.trans (congrArg _ (collRun_done ?_)), hcmds, hmem, hend⟩
      rw [collTurn, hbad]
  case close =>
    rintro s h data c co co1 l hcls hkind hroute hdst hid hcoll hrole hred hknown hnew hset rfl rfl
    have hexec : exec (.closeWordReceive h data) s = _ := (exec_closeWordReceive hcls hkind).trans
      (congrArg Host.Outcome.next (collMessage_close hcls hkind hroute hdst hid hcoll hrole hred hknown hnew))
    have hturn : collTurn (unkeep s h data) c { co with closes := co.closes ++ [closeOf h.src data] } =
      closeRound (unkeep s h data) c { co with closes := co.closes ++ [closeOf h.src data] } := collTurn_settled hred hset
    refine ⟨fun hmiss => ?_, fun hall hok honce => ?_, fun hall hfail => ?_⟩
    · exact ⟨_, hexec.trans (congrArg _ (collRun_wait (hturn.trans (closeRound_waits hmiss)))), rfl, rfl, rfl, rfl⟩
    · obtain ⟨u, r, told, hr, hcmds, hmem, heffects⟩ := endReduction_executed (s := unkeep s h data)
        (co := { co with closes := co.closes ++ [closeOf h.src data] }) _ _ (collById_self hid)
      refine ⟨_, u, r, told, hexec.trans (congrArg _ (collRun_done (hturn.trans (closeRound_ends hall hok honce)))), hcmds, hmem, hr,
        ?_, fun hnorm => ?_, fun e he => ?_⟩
      · rw [heffects]
        exact List.mem_append_right _ (List.mem_singleton.mpr rfl)
      · rw [heffects, if_pos hnorm]
        exact List.mem_append_left _ (List.mem_append_right _ (List.mem_singleton.mpr rfl))
      · rw [heffects]
        exact List.mem_append_left _ (List.mem_append_left _ he)
    · obtain ⟨u, hend, hcount, -⟩ := failColl_timeout (s := tickFree (unkeep s h data)) (c := c)
        (co := { co with closes := co.closes ++ [closeOf h.src data] })
        (e := (0x31, (Config.freeWord (unkeep s h data).freeCtr).toNat % 2 ^ 24)) rfl
      refine ⟨_, hexec.trans (congrArg _ (collRun_done (hturn.trans (closeRound_fails hall hfail)))), hend.gone, ?_⟩
      rw [hend.peers_eq, hcount]
      rfl
  case kept =>
    rintro s h data t hroute hdst hnone rfl
    have hkeep := collMessage_unknown (data := data) hroute hdst hnone
    exact ⟨fun hcls hkind => (exec_basinInputReceive hcls hkind).trans (congrArg _ hkeep),
      fun hcls hkind => (exec_gatheredPieceReceive hcls hkind).trans (congrArg _ hkeep),
      fun hcls hkind => (exec_closeWordReceive hcls hkind).trans (congrArg _ hkeep),
      fun hcls hkind => exec_pullRequestReceive_unknown hroute hdst hcls hkind hnone,
      fun hcls hkind => exec_releaseWordReceive_unknown hroute hdst hcls hkind hnone⟩
  case firstWindow =>
    rintro s cid c co co1 ps hof hrole
    have hexec := exec_collectiveW1Expiry hof hrole
    refine ⟨fun hopen => by rw [hexec, if_neg (by simp [hopen])], ?_⟩
    rintro hover hset hgen rfl rfl hsend hmiss
    rw [if_pos hover, sendFor_sent hsend] at hexec
    have hwait := runColl_missing (s := { s with ports := (sendAll 0 ((w1Pulls s c co).map (fun p =>
      shortMsg s c { co with pulled := co.pulled ++ (w1Pulls s c co).map (fun p => p.1) } 2 p.2
        (pullPayload { co with pulled := co.pulled ++ (w1Pulls s c co).map (fun p => p.1) } p.1))) s).1.ports })
      (c := c) (co := { co with pulled := co.pulled ++ (w1Pulls s c co).map (fun p => p.1) }) hgen (fun _ => hset) hmiss
    exact ⟨_, hexec.trans (congrArg _ hwait), rfl, rfl, rfl, rfl⟩
  case secondWindow =>
    intro s cid c co hof hrole
    refine ⟨exec_collectiveW2Expiry_open hof, fun r hover hset hfirst => ?_, fun hover hset hexcl hstage => ?_,
      fun r l hover hset hkeep hmiss => ?_⟩
    · obtain ⟨u, hend, hcount, hcmds, hmem, -⟩ := failColl_timeout (s := s) (c := c) (co := co)
        (e := rankTimeout s c co (co.dims.length - 1) r) rfl
      exact ⟨_, u, exec_collectiveW2Expiry_settled hof hrole hover hset hfirst, hend, hcount, hcmds, hmem⟩
    · exact exec_collectiveW2Expiry_excluded hof hrole hover hset hexcl hstage
    · obtain ⟨p, hexec, hports⟩ := exec_collectiveW2Expiry_missing hof hrole hover hset hkeep hmiss
      obtain ⟨u, hend, hcount, hcmds, hmem, hsame⟩ := failColl_timeout (s := { s with ports := p }) (c := c) (co := co)
        (e := rankTimeout s c co co.stage r) rfl
      exact ⟨_, u, hexec, hend, hcount, hcmds, hmem, fun hgather => hsame.trans (hports hgather)⟩
  case short =>
    intro s h data c co hroute hdst hcls hid
    refine ⟨fun hkind hred hrole hsend => ?_, fun hkind hgather hsend => ?_, fun hkind hrole => ?_, fun hkind hrole hall => ?_,
      fun hkind hrole hmiss => ?_⟩
    · have hexec := exec_pullRequestReceive (data := data) hroute hdst hcls hid hkind
      rw [if_neg (by simp [hred]), heardFrom_answers hrole hsend] at hexec
      exact ⟨_, hexec, rfl, rfl, rfl, rfl⟩
    · have hexec := exec_pullRequestReceive (data := data) hroute hdst hcls hid hkind
      have hsent := sendAll_of_ports (s := s) (t := unkeep s h data) rfl 0 (mirrorPiece s co c h.src data)
      rw [hsend] at hsent
      rw [if_pos hgather, hsent] at hexec
      exact ⟨_, hexec, rfl, rfl, rfl, rfl⟩
    · have hexec := exec_releaseWordReceive (data := data) hroute hdst hcls hid hkind
      rw [if_neg (by simp [hrole])] at hexec
      exact ⟨_, hexec, rfl, rfl⟩
    · have hexec := exec_releaseWordReceive (data := data) hroute hdst hcls hid hkind
      have hheard : ∀ e ∈ co.entries, e.rank ∈ addTo co.heard h.src := fun e he => mem_addTo_iff.mpr (hall e he)
      rw [if_pos hrole, standbyCheck_done (co := { co with heard := addTo co.heard h.src }) hheard] at hexec
      have hself : findCmd s c.cid = some c := collById_self hid
      exact ⟨_, dropColl (unkeep s h data) co, hexec, finishWork_executed _ c _ hself rfl, rfl, rfl⟩
    · have hexec := exec_releaseWordReceive (data := data) hroute hdst hcls hid hkind
      obtain ⟨e, he, hsrc, hnew⟩ := hmiss
      have hunheard : ∃ e ∈ co.entries, e.rank ∉ addTo co.heard h.src := ⟨e, he, fun hmem => (mem_addTo_iff.mp hmem).elim hsrc hnew⟩
      rw [if_pos hrole, standbyCheck_waits (co := { co with heard := addTo co.heard h.src }) hunheard] at hexec
      exact ⟨_, hexec, rfl, rfl, rfl, rfl⟩
  case standby =>
    intro s cid c co hof hrole
    have hexec := exec_standbyTimeout hof hrole
    refine ⟨fun hopen => by rw [hexec, if_neg (by omega)], fun e hover hfirst => ?_⟩
    rw [if_pos hover, hfirst] at hexec
    obtain ⟨u, hend, hcount, hcmds, hmem, -⟩ := failColl_timeout (s := s) (c := c) (co := co)
      (e := peerTimeout ((choosePort s 0 (groupsFor (routeOf s c.phase) (c.arg 0x18 1) (co.whereIs e.rank))).getD
        (((groupsFor (routeOf s c.phase) (c.arg 0x18 1) (co.whereIs e.rank)).headD []).headD 0)) 3 e.rank) rfl
    exact ⟨_, u, _, hexec, hend, hcount, hcmds, hmem⟩

end Sys2Proof.Machine
end

section
/-! The reserve pool (R337): a pool whose descriptor is PINGPONG with its upper half committed, and the refutation of the statement
on records. -/

namespace Sys2Proof.Machine

/-- A descriptor of `half` bytes at `base` with its flags, all other fields 0. -/
def plainDesc (base half flags : Nat) : Bytes := toLe 8 base ++ toLe 8 half ++ List.replicate 17 0 ++ [BitVec.ofNat 8 flags] ++ List.replicate 30 0

/-- A whole record of one empty field up to its CRC. -/
def emptyRecord : Bytes :=
  [0x46#8, 0x4C#8, 0x44#8, 0x53#8] ++ toLe 2 1 ++ toLe 2 1 ++ toLe 8 56 ++ List.replicate 32 0

/-- A byte that is not the one that the refill leaves free in the pool's upper half. -/
def poolByte : Byte := if Config.freeByte 0 0x5040 = 1#8 then 2#8 else 1#8

/-- The reserve ring at 0x2000 with one entry, its record at 0x4000, and the descriptors of both and of the pool: PINGPONG with
its upper half committed, at 0x5000. -/
def ringMemory : Memory :=
  ((Memory.reset.write 0x1000 (plainDesc 0x2000 32 0 ++ plainDesc 0x5000 0x40 3 ++ plainDesc 0x4000 56 0)).write 0x2000
    (toLe 8 3 ++ toLe 8 0 ++ toLe 8 56)).write 0x4000 (emptyRecord ++ toLe 4 (crc32c emptyRecord))

/-- The same with a byte in that half. -/
def poolMemory : Memory :=
  { ringMemory with cells := ringMemory.cells ++ [(0x5040, poolByte)] }

/-- An open stream without outputs whose pool has room for one sample. -/
def poolStream : Ingest :=
  { Ingest.reset with opened := true, cfg := List.replicate 22 0 ++ toLe 2 1 ++ toLe 2 2 ++ toLe 2 0, rsv := 1, rsvTail := 1 }

/-- The module with S up and that stream. -/
def poolState : State :=
  { State.reset with
    job := { Job.reset with descTable := 0x1000, descCount := 3 }
    dies := { Dies.reset with states := [(4, 1)] }
    mem := poolMemory
    spring := { Spring.reset with streams := [(0, poolStream)] } }

/-- The record that its ring holds. -/
def poolRecord : Record := { id := 0, fields := [{ kind := 0, codec := 0, off := 0, len := 0, data := [] }] }

/-- The sample that it gives. -/
def poolSample : Sample := { id := 0, outputs := [], profile := 0, truncated := false, sat := 0 }

theorem poolState_stream : getIngest poolState 0 = poolStream := rfl

theorem poolState_next : nextRecord poolState poolStream.rsv (field poolStream.cfg 0x1B 1) poolStream.rsvTail poolStream.rsvPos =
    .good poolRecord (mkPos 1 0) := by decide +kernel

/-- The last entry of a map is found where no other has its key. -/
theorem mget_append_last {α : Type} {d v : α} {m : Map α} {k : Nat} (h : ∀ e ∈ m, e.1 ≠ k) : mget d (m ++ [(k, v)]) k = v := by
  induction m with
  | nil => exact if_pos rfl
  | cons e m ih =>
    rw [List.cons_append, mget, if_neg (h e List.mem_cons_self)]
    exact ih fun x hx => h x (List.mem_cons_of_mem _ hx)

theorem poolState_sample : reserveSample poolState poolStream poolRecord [] = .ok poolSample := rfl

theorem poolState_pool : (readDesc poolState (field poolStream.cfg 0x18 2)).base = 0x5000 ∧
    (readDesc poolState (field poolStream.cfg 0x18 2)).half = 0x40 ∧
    (readDesc poolState (field poolStream.cfg 0x18 2)).home = 0x5040 := by decide +kernel

theorem poolState_byte : poolState.mem.read 0x5040 = poolByte := by
  have hcells : ∀ e ∈ ringMemory.cells, e.1 ≠ 0x5040 := by decide +kernel
  have hundef : undefAt poolState.mem.undef 0x5040 = none := by decide +kernel
  rw [Memory.read, hundef]
  exact mget_append_last hcells

theorem poolByte_ne : Config.freeByte 0 0x5040 ≠ poolByte := by
  unfold poolByte
  split
  case isTrue h => rw [h]; decide
  case isFalse h => exact h

/-- The means stay as they are, for the record has no field in a lane. -/
theorem poolState_means : refillMeans poolState poolStream [] = poolState := by
  rw [refillMeans, poolState_next]
  rfl

/-- A refill that has room writes the pool's committed half. -/
theorem exec_reserveRefill {s : State} {n : Nat} {media : List ReserveField} (hn : n < 16) (hup : springUp s = true)
    (hopen : (getIngest s n).opened = true) (hrsv : (getIngest s n).rsv ≠ 0)
    (hroom : (getIngest s n).pool.length < field (getIngest s n).cfg 0x16 2) : exec (.reserveRefill n media) s =
      .next (setIngest (hbmForget (refillMeans s (getIngest s n) media) (readDesc s (field (getIngest s n).cfg 0x18 2)).home
        (readDesc s (field (getIngest s n).cfg 0x18 2)).half) n (refillStep s (getIngest s n) media)) := by
  refine (if_pos (decide_eq_true hn)).trans (congrArg Host.Outcome.next (if_pos ?_))
  rw [hup, hopen, bne_iff_ne.mpr hrsv, decide_eq_true hroom]
  rfl

/-- A refill leaves the pool's committed half undefined. -/
theorem exec_poolState : exec (.reserveRefill 0 []) poolState =
    .next (setIngest (hbmForget poolState 0x5040 0x40) 0 (refillStep poolState poolStream [])) := by
  obtain ⟨-, hhalf, hhome⟩ := poolState_pool
  have hexec := exec_reserveRefill (s := poolState) (n := 0) (media := []) (by decide) rfl rfl (by decide) (by decide)
  rwa [poolState_stream, poolState_means, hhalf, hhome] at hexec

/-- Refutes O60: the clause on a refill says that memory outside the pool's first half reads as before, but the refill writes the
committed half of the pool's descriptor (`Desc.home`), and nothing keeps that descriptor from being PINGPONG with the upper half
committed, INGEST_OPEN's check of the pool included. On `poolState` a byte of the upper half is lost. -/
theorem not_recordsFillTheSlots : ¬ Obligations.RecordsFillTheSlots := by
  unfold Obligations.RecordsFillTheSlots
  rintro ⟨-, -, -, hrefill, -⟩
  obtain ⟨hgood, -⟩ := hrefill poolState 0 poolStream [] (by decide) rfl rfl rfl (by decide) (by decide)
  obtain ⟨t, hexec, -, hkept, -⟩ := hgood poolRecord (mkPos 1 0) poolSample poolState_next poolState_sample
  obtain ⟨hbase, hhalf, -⟩ := poolState_pool
  have hsame : t.mem.read 0x5040 = poolState.mem.read 0x5040 := hkept 0x5040 fun r hr => by
    obtain rfl := List.mem_singleton.mp hr
    rw [hbase, hhalf]
    exact .inr (by decide)
  have hnext := Host.Outcome.next.inj (exec_poolState.symm.trans hexec)
  have hlost : t.mem.read 0x5040 = Config.freeByte 0 0x5040 := by
    rw [← hnext, setIngest_mem]
    exact Memory.read_forget_inside poolState.mem 0x5040 0x40 0 0x5040 ⟨le_rfl, by omega⟩
  rw [poolState_byte, hlost] at hsame
  exact poolByte_ne hsame

end Sys2Proof.Machine
end

section
/-! Start-up (R363, R366, R367, R372): the boot of each image type, and how start-up ends early. -/

namespace Sys2Proof.Machine

/-! ## The boot of an image type (R372) -/

section
variable {s : State} {rep : StartReport} {t : Nat}

theorem logImage_ctl (s : State) (t check bank : Nat) : (logImage s t check bank).ctl = s.ctl := by rw [logImage, logNote_rel]

/-- Whatever the banks hold, the boot of a type leaves K's registers. -/
theorem bootType_ctl (s : State) (rep : StartReport) (t : Nat) : (bootType s rep t).1.ctl = s.ctl := by
  unfold bootType
  dsimp only
  split
  case isTrue =>
    split
    · rfl
    · split
      · exact logImage_ctl ..
      · exact (logImage_ctl ..).trans (logImage_ctl ..)
  case isFalse =>
    split
    · rfl
    · split
      · exact logImage_ctl ..
      · exact (logImage_ctl ..).trans (logImage_ctl ..)
      · exact logImage_ctl ..

/-- The active image of a type is good: nothing is pending and it stands above the fused floor. -/
def ImageGood (s : State) (t : Nat) : Prop :=
  (banksOf s t).pending = false ∧ ∃ x, (banksOf s t).active = some x ∧ fusedFloor s t ≤ x.svn

theorem activeFault_good (hfails : rep.activeFails = []) (h : ImageGood s t) : activeFault s rep t = none := by
  obtain ⟨-, x, hx, hfloor⟩ := h
  simp [activeFault, hfails, hx, hfloor]

/-- A good image runs. -/
theorem bootType_good (hfails : rep.activeFails = []) (h : ImageGood s t) :
    bootType s rep t = (runImage s t (banksOf s t).active false, true) := by
  simp [bootType, h.1, activeFault_good hfails h]

/-- With nothing pending the images at ready are those that run. -/
theorem activateImages_good (h : ∀ k, 1 ≤ k → k ≤ 4 → ImageGood s k) : activateImages s = s := by
  have hone (k : Nat) (hlow : 1 ≤ k) (hhigh : k ≤ 4) : activateType s k = s := by simp [activateType, (h k hlow hhigh).1]
  simp [activateImages, hone]

end

/-! ## Steps 1 to 4 (R363, R367) -/

/-- The state as start-up passes step 1. -/
def startBegun (s : State) : State :=
  { s with
    ctl := { s.ctl with waitCool := false, kstate := 0, noMainClock := false, noFirmware := false }
    power := { s.power with thermOut := false }, sec := { s.sec with spareBoot := false, running := [] } }

/-- The state after step 4, with the images of types 3, 1 and 2 running. -/
def startPowered (s : State) : State :=
  endpointUp (runImage (runImage (runImage (startBegun s) 3 (banksOf s 3).active false) 1 (banksOf s 1).active false) 2
    (banksOf s 2).active false)

section
variable {s : State} {rep : StartReport}

theorem failsAt_of {k j : Nat} (h : rep.failStage = some k) : failsAt rep j = (k == j) := by
  rw [failsAt, h]
  rfl

theorem startUp_fails_one (h : rep.failStage = some 1) : startUp s rep = endNoFirmware (startBegun s) 1 :=
  if_pos (by simp [failsAt, h])

/-- Start-up that fails at step 2, whatever the banks hold. -/
theorem startUp_fails_two (h : rep.failStage = some 2) : ∃ u, startUp s rep = endNoFirmware u 2 ∧ u.ctl.kstate = 0 := by
  have hone : ¬failsAt rep 1 = true := by simp [failsAt, h]
  have htwo : failsAt rep 2 = true := by simp [failsAt, h]
  refine ⟨_, (if_neg hone).trans (if_pos (by rw [htwo]; rfl)), ?_⟩
  rw [bootType_ctl, bootType_ctl, bootType_ctl]

/-- With good images start-up passes step 4. -/
theorem startUp_powered (hone : failsAt rep 1 = false) (htwo : failsAt rep 2 = false) (hfails : rep.activeFails = [])
    (hgood : ∀ k, 1 ≤ k → k ≤ 4 → ImageGood s k) : startUp s rep = startDies (startPowered s) rep := by
  have hthird : ImageGood (startBegun s) 3 := hgood 3 (by decide) (by decide)
  have hfirst : ImageGood (runImage (startBegun s) 3 (banksOf s 3).active false) 1 := hgood 1 (by decide) (by decide)
  have hsecond : ImageGood (runImage (runImage (startBegun s) 3 (banksOf s 3).active false) 1 (banksOf s 1).active false) 2 :=
    hgood 2 (by decide) (by decide)
  have hboot3 : bootType (startBegun s) rep 3 = (runImage (startBegun s) 3 (banksOf s 3).active false, true) := bootType_good hfails hthird
  have hboot1 : bootType (runImage (startBegun s) 3 (banksOf s 3).active false) rep 1 =
    (runImage (runImage (startBegun s) 3 (banksOf s 3).active false) 1 (banksOf s 1).active false, true) := bootType_good hfails hfirst
  have hboot2 : bootType (runImage (runImage (startBegun s) 3 (banksOf s 3).active false) 1 (banksOf s 1).active false) rep 2 =
    (runImage (runImage (runImage (startBegun s) 3 (banksOf s 3).active false) 1 (banksOf s 1).active false) 2
      (banksOf s 2).active false, true) := bootType_good hfails hsecond
  have hbegun : startUp s rep = if failsAt rep 1 then endNoFirmware (startBegun s) 1
      else if failsAt rep 2 || !(bootType (bootType (startBegun s) rep 3).1 rep 1).2 ||
          !(bootType (bootType (bootType (startBegun s) rep 3).1 rep 1).1 rep 2).2 then
        endNoFirmware (bootType (bootType (bootType (startBegun s) rep 3).1 rep 1).1 rep 2).1 2
      else startDies (endpointUp (bootType (bootType (bootType (startBegun s) rep 3).1 rep 1).1 rep 2).1) rep := rfl
  rw [hbegun, hone, hboot3]
  dsimp only
  rw [hboot1]
  dsimp only
  rw [hboot2, htwo]
  rfl

/-- The safe state with the code of a failed stage. -/
theorem endSafe_ctl (s : State) (code : Nat) :
    (endSafe s code).ctl.kstate = 2 ∧ (endSafe s code).ctl.stage = code ∧ (endSafe s code).ctl.selftest = code := by
  obtain ⟨hkstate, hstage⟩ := enterSafe_ctl { s with ctl := { s.ctl with selftest := code } } code
  refine ⟨hkstate, hstage, ?_⟩
  unfold endSafe enterSafe raiseKirq
  dsimp only
  have hsleep (l : List Nat) (u : State) : (stacksSleep u l).ctl = u.ctl := by
    unfold stacksSleep
    induction l generalizing u with
    | nil => rfl
    | cons n l ih => exact ih _
  split <;> exact congrArg Control.selftest (hsleep _ _)

/-- Discovery that the report fails. -/
theorem startDies_fails (h : failsAt rep 3 = true) : ∃ u, startDies s rep = endSafe u 3 := by
  refine ⟨(discover s rep).1, if_pos ?_⟩
  simp [discover, h]

end

end Sys2Proof.Machine
end

section
/-! Start-up on a module on which nothing is wrong (R249-R252, R364): discovery, qualification, self-tests, and the end. -/

namespace Sys2Proof.Machine

/-! ## Identity records (R249, R250) -/

theorem crcBit_lt {p c : Nat} (hp : p < 2 ^ 32) (hc : c < 2 ^ 32) : crcBit p c < 2 ^ 32 := by
  unfold crcBit
  split
  · exact Nat.xor_lt_two_pow (by omega) hp
  · omega

theorem crcByte_lt {p c : Nat} (b : Byte) (hp : p < 2 ^ 32) (hc : c < 2 ^ 32) : crcByte p c b < 2 ^ 32 := by
  have hbyte : b.toNat < 2 ^ 32 := lt_of_lt_of_le b.isLt (by decide)
  unfold crcByte
  iterate 8 apply crcBit_lt hp
  exact Nat.xor_lt_two_pow hc hbyte

/-- A CRC has 32 bits. -/
theorem crc32c_lt (b : Bytes) : crc32c b < 2 ^ 32 := by
  have hfold (l : Bytes) : ∀ c < 2 ^ 32, l.foldl (crcByte 0x82F63B78) c < 2 ^ 32 := by
    induction l with
    | nil => exact fun _ h => h
    | cons x l ih => exact fun c h => ih _ (crcByte_lt x (by decide) h)
  exact Nat.xor_lt_two_pow (hfold b _ (by decide)) (by decide)

/-- The bytes of an identity record before its CRC. -/
def identityBody (s : State) (i : Nat) : Bytes :=
  toLe 1 (typeAt i) ++ toLe 1 (positionAt i) ++ toLe 1 0x42 ++ toLe 1 1 ++ toLe 4 0 ++ toLe 8 s.ctl.serial.toNat ++
    toLe 8 (Config.dieSerial i) ++ toLe 4 0

/-- A part of a string put together that lies in its first part. -/
theorem slice_append_left {a : Bytes} (b : Bytes) {o n : Nat} (h : o + n ≤ a.length) : slice (a ++ b) o n = slice a o n :=
  slice_congr fun j hj => by rw [List.getD_append _ _ _ _ (by omega)]

/-- One byte of a string that begins with a number's. -/
theorem field_byte (v : Nat) (b : Bytes) : field (toLe 1 v ++ b) 0 1 = v % 256 := by
  rw [field_append_left _ (by rw [length_toLe]), field_toLe, Nat.pow_one]

section
variable {s : State} {i : Nat}

theorem identity_eq (s : State) (i : Nat) : identity s i = identityBody s i ++ toLe 4 (crc32c (identityBody s i)) := rfl

theorem identityBody_length (s : State) (i : Nat) : (identityBody s i).length = 28 := rfl

/-- The record fused in a die passes the check of its own index. -/
theorem identityOk_fused (hfound : s.dies.found = []) (hi : i < 14) : identityOk s i (identityAt s i) = true := by
  have hat (j : Nat) : identityAt s j = identity s j := by rw [identityAt, hfound]; rfl
  have hcrc : field (identity s i) 0x1C 4 = crc32c ((identity s i).take 0x1C) := by
    have htake : (identity s i).take 0x1C = identityBody s i := List.take_left' (identityBody_length s i)
    have hfield := field_append_right (identityBody s i) (toLe 4 (crc32c (identityBody s i))) (o := 0x1C) (n := 4)
      (by rw [identityBody_length])
    rw [htake, identity_eq, hfield, identityBody_length, field_toLe]
    exact Nat.mod_eq_of_lt (crc32c_lt _)
  have htype : field (identity s i) 0 1 = typeAt i := by
    rw [identity_eq, field_append_left _ (by rw [identityBody_length]; decide)]
    exact (field_byte (typeAt i) _).trans (Nat.mod_eq_of_lt (by unfold typeAt; split_ifs <;> decide))
  have hposition : field (identity s i) 1 1 = positionAt i := by
    rw [identity_eq, field_append_left _ (by rw [identityBody_length]; decide)]
    exact (field_byte (positionAt i) _).trans (Nat.mod_eq_of_lt (by unfold positionAt; split_ifs <;> omega))
  have hstepping (j : Nat) : slice (identity s j) 2 2 = [0x42#8, 1#8] := by
    rw [identity_eq, slice_append_left _ (by rw [identityBody_length]; decide)]
    rfl
  have hserial (j : Nat) : slice (identity s j) 8 8 = toLe 8 s.ctl.serial.toNat := by
    rw [identity_eq, slice_append_left _ (by rw [identityBody_length]; decide)]
    rfl
  have hlength : (identity s i).length = 32 := by rw [identity_eq, List.length_append, identityBody_length, length_toLe]
  rw [identityOk, hat, hat, hlength, hcrc, htype, hposition, hstepping, hserial, hstepping, hserial]
  simp

/-- Where no other record was found, every die passes. -/
theorem checkIdentities_fused {l : List Nat} (hfound : s.dies.found = []) (hl : ∀ i ∈ l, i < 14) : checkIdentities [] l s = (s, true) := by
  have hsame : ({ s with dies := { s.dies with found := [] } } : State) = s := by rw [← hfound]
  have hall : l.all (fun i => identityOk s i (identityAt s i)) = true :=
    List.all_eq_true.mpr fun i hi => identityOk_fused hfound (hl i hi)
  unfold checkIdentities
  rw [hfound, List.foldl_fixed' (fun _ => rfl)]
  dsimp only
  rw [hsame, hall]

end

end Sys2Proof.Machine
end

section
/-! Start-up on a module on which nothing is wrong (R249-R252, R363, R364): discovery, qualification, self-tests, ready. -/

namespace Sys2Proof.Machine

/-! ## Training (R247) -/

/-- The bundles of a list that train without a fault. -/
def trained (l : List Nat) (m : Map Bundle) : Map Bundle := l.foldl (fun m b => mput m b Bundle.reset.train) m

theorem train_reset : Bundle.reset.train.state = 1 ∧ Bundle.reset.train.halved = false := by decide

/-- Bundles that have not trained come up at full width. -/
theorem trainBundles_new {s : State} {l : List Nat} (hone : l.Nodup) (hnew : ∀ b ∈ l, getBundle s b = Bundle.reset) :
    trainBundles [] l s = { s with dies := { s.dies with bundles := trained l s.dies.bundles } } := by
  induction l generalizing s with
  | nil => rfl
  | cons b l ih =>
    obtain ⟨hb, hl⟩ := List.nodup_cons.mp hone
    have hbundle := hnew b List.mem_cons_self
    have hmaps : logMaps s b = s := by
      unfold logMaps
      rw [hbundle]
      exact if_pos rfl
    have hfull : ¬((excludeAll b [] (getBundle s b)).train.state = 2 ∧ !(getBundle s b).halved) := by
      rw [hbundle]
      exact fun ⟨hstate, _⟩ => absurd (train_reset.1.symm.trans hstate) (by decide)
    rw [trainBundles]
    dsimp only
    rw [if_neg hfull, hmaps, hbundle, ih hl]
    · rfl
    · intro x hx
      rw [getBundle, setBundle, mget_mput_ne _ _ _ _ _ (show x ≠ b from fun heq => hb (heq ▸ hx))]
      exact hnew x (List.mem_cons_of_mem _ hx)

/-! ## Discovery (R251) -/

/-- A module in discovery: domains on, and the bundles that have trained. -/
def mapped (s : State) (doms : List Nat) (m : Map Bundle) : State :=
  { s with power := { s.power with domains := doms }, dies := { Dies.reset with bundles := m } }

section
variable {s : State} {doms : List Nat} {rep : StartReport}

theorem mapped_start (h : s.dies = Dies.reset) : mapped s s.power.domains [] = s := by
  rw [mapped, show ({ Dies.reset with bundles := [] } : Dies) = s.dies from h.symm]

theorem trainBundles_mapped {l : List Nat} {m : Map Bundle} (hone : l.Nodup) (hnew : ∀ b ∈ l, mget Bundle.reset m b = Bundle.reset) :
    trainBundles [] l (mapped s doms m) = mapped s doms (trained l m) :=
  trainBundles_new hone hnew

theorem checkIdentities_mapped {l : List Nat} {m : Map Bundle} (hl : ∀ i ∈ l, i < 14) :
    checkIdentities [] l (mapped s doms m) = (mapped s doms m, true) :=
  checkIdentities_fused rfl hl

/-- A step that passes hands over to the next. -/
theorem discoverySteps_cons {k : Nat} {l : List Nat} {t : State} (hnone : rep.discoveryStep = none)
    (hstep : discoveryStep rep k s = (t, true)) : discoverySteps rep (k :: l) s = discoverySteps rep l t := by
  simp [discoverySteps, hnone, hstep]

/-- Discovery on a module on which nothing is wrong trains every bundle. -/
theorem discoverySteps_pass (hnone : rep.discoveryStep = none) (hids : rep.identities = []) (hlanes : rep.badPositions = [])
    (hdies : s.dies = Dies.reset) : ∃ doms, discoverySteps rep [1, 2, 3, 4, 5, 6, 7, 8] s =
      (mapped s doms (trained [1, 2, 3, 4] (trained [0] (trained [5, 6] []))), true) := by
  obtain ⟨first, hfirst⟩ : ∃ doms, discoveryStep rep 1 (mapped s s.power.domains []) = (mapped s doms [], true) := ⟨_, rfl⟩
  have hthird : discoveryStep rep 3 (mapped s first []) = (mapped s first (trained [5, 6] []), true) := by
    have htrain := trainBundles_mapped (s := s) (doms := first) (l := [5, 6]) (m := []) (by decide) (by decide)
    rw [← htrain, ← hlanes]
    rfl
  have hfourth : discoveryStep rep 4 (mapped s first (trained [5, 6] [])) = (mapped s first (trained [5, 6] []), true) := by
    rw [← checkIdentities_mapped (l := [5, 0, 1]) (by decide), ← hids]
    rfl
  have hfifth : discoveryStep rep 5 (mapped s first (trained [5, 6] [])) = (mapped s first (trained [0] (trained [5, 6] [])), true) := by
    have htrain := trainBundles_mapped (s := s) (doms := first) (l := [0]) (m := trained [5, 6] []) (by decide) (by decide)
    rw [← checkIdentities_mapped (l := [0, 1]) (by decide), ← htrain, ← hids, ← hlanes]
    rfl
  obtain ⟨second, hsixth⟩ : ∃ doms, discoveryStep rep 6 (mapped s first (trained [0] (trained [5, 6] []))) =
    (mapped s doms (trained [0] (trained [5, 6] [])), true) := ⟨_, rfl⟩
  have hseventh : discoveryStep rep 7 (mapped s second (trained [0] (trained [5, 6] []))) =
      (mapped s second (trained [1, 2, 3, 4] (trained [0] (trained [5, 6] []))), true) := by
    have htrain := trainBundles_mapped (s := s) (doms := second) (l := [1, 2, 3, 4]) (m := trained [0] (trained [5, 6] []))
      (by decide) (by decide)
    rw [← checkIdentities_mapped (l := [2, 3, 4]) (by decide), ← htrain, ← hids, ← hlanes]
    rfl
  have hup : ∀ b ∈ List.range 7, (mget Bundle.reset (trained [1, 2, 3, 4] (trained [0] (trained [5, 6] []))) b).state = 1 := by
    decide
  have heighth : discoveryStep rep 8 (mapped s second (trained [1, 2, 3, 4] (trained [0] (trained [5, 6] [])))) =
      (mapped s second (trained [1, 2, 3, 4] (trained [0] (trained [5, 6] []))), true) := by
    have hdown : (List.range 7).any (isDown (mapped s second (trained [1, 2, 3, 4] (trained [0] (trained [5, 6] []))))) = false := by
      rw [List.any_eq_false]
      intro b hb hdown
      exact absurd ((hup b hb).symm.trans (by simpa [isDown, getBundle, mapped] using hdown)) (by decide)
    exact congrArg (Prod.mk _) (by rw [hdown]; rfl)
  refine ⟨second, ?_⟩
  conv_lhs => rw [← mapped_start hdies]
  rw [discoverySteps_cons hnone hfirst, discoverySteps_cons (t := mapped s first []) hnone rfl, discoverySteps_cons hnone hthird,
    discoverySteps_cons hnone hfourth, discoverySteps_cons hnone hfifth, discoverySteps_cons hnone hsixth,
    discoverySteps_cons hnone hseventh, discoverySteps_cons hnone heighth, discoverySteps]

/-- Every die is up after it. -/
theorem discover_passes (hstage : failsAt rep 3 = false) (hnone : rep.discoveryStep = none) (hids : rep.identities = [])
    (hlanes : rep.badPositions = []) (hdies : s.dies = Dies.reset) : ∃ p d, discover s rep = ({ s with power := p, dies := d }, true) ∧
      d.found = [] ∧ ∀ k, k < 6 → mget 0 d.states k = 1 := by
  obtain ⟨doms, hsteps⟩ := discoverySteps_pass hnone hids hlanes hdies
  unfold discover
  have hup : ∀ k, k < 6 → mget 0 ((List.range 6).foldl (fun m d => mput m d 1) []) k = 1 := by decide
  rw [hsteps, hstage]
  exact ⟨_, _, rfl, rfl, hup⟩

end

/-! ## Qualification of stacks (R252) -/

/-- A stack with nothing to repair. -/
def Stack.quiet (k : Stack) : Prop := k.failing = [] ∧ k.marked = []

section
variable {s : State} {rep : StartReport}

theorem repairStack_quiet {n : Nat} (h : (s.mem.stack n).quiet) : repairStack s n = s := by
  obtain ⟨hfailing, hmarked⟩ := h
  have hrows : repairRows n ((s.mem.stack n).failing.filter (fun r => !frameMapped s n (rowFrame r.1))) s = s := by
    rw [hfailing]
    rfl
  unfold repairStack
  rw [hrows]
  dsimp only
  rw [hmarked]
  rfl

/-- A stack on which nothing is wrong is present. -/
theorem qualifyStack_quiet {n : Nat} (hn : n < 8) (hfound : s.dies.found = []) (h : (s.mem.stack n).quiet) :
    qualifyStack [] [] [] n s = (setStackS s n { s.mem.stack n with present := true, selfRefresh := false }, true) := by
  have hchecked : checkIdentities [] [6 + n] s = (s, true) := checkIdentities_fused hfound fun i hi => by
    obtain rfl := List.mem_singleton.mp hi
    omega
  unfold qualifyStack
  rw [hchecked]
  dsimp only
  rw [repairStack_quiet h]
  rfl

/-- Stacks qualified in turn change their records alone. -/
theorem qualifyStacks_quiet {l : List Nat} (hl : ∀ n ∈ l, n < 8) (hfound : s.dies.found = []) (hquiet : ∀ n, (s.mem.stack n).quiet) :
    ∃ k, qualifyStacks [] [] [] l s = ({ s with mem := { s.mem with hstacks := k } }, true) := by
  induction l generalizing s with
  | nil => exact ⟨s.mem.hstacks, rfl⟩
  | cons n l ih =>
    have hstep := qualifyStack_quiet (hl n List.mem_cons_self) hfound (hquiet n)
    have hkept (x : Nat) : ((setStackS s n { s.mem.stack n with present := true, selfRefresh := false }).mem.stack x).quiet := by
      rw [setStackS, Memory.stack, Memory.setStack]
      rcases eq_or_ne x n with rfl | hne
      · rw [mget_mput_same]
        exact hquiet x
      · rw [mget_mput_ne _ _ _ _ _ hne]
        exact hquiet x
    obtain ⟨k, hrest⟩ := ih (s := setStackS s n { s.mem.stack n with present := true, selfRefresh := false })
      (fun x hx => hl x (List.mem_cons_of_mem _ hx)) hfound hkept
    refine ⟨k, ?_⟩
    rw [qualifyStacks, hstep]
    dsimp only
    rw [hrest]
    rfl

theorem qualify_quiet (hids : rep.identities = []) (hstacks : rep.badStacks = []) (hrows : rep.repairedRows = [])
    (hfound : s.dies.found = []) (hempty : s.mem.hstacks = []) :
    ∃ k, qualify s rep = ({ s with mem := { s.mem with hstacks := k } }, !failsAt rep 4) := by
  obtain ⟨k, hall⟩ := qualifyStacks_quiet (s := s) (l := List.range 8) (fun n hn => List.mem_range.mp hn) hfound fun n => by
    rw [Memory.stack, hempty]
    exact ⟨rfl, rfl⟩
  refine ⟨k, ?_⟩
  rw [qualify, hids, hstacks, hrows, hall]
  dsimp only
  rw [Bool.and_true]

end

/-! ## Self-tests (R364) -/

section
variable {s : State} {rep : StartReport}

theorem clustersStart_power (l : List Nat) (s : State) : ∃ p, l.foldl clusterStart s = { s with power := p } := by
  induction l generalizing s with
  | nil => exact ⟨s.power, rfl⟩
  | cons c l ih =>
    obtain ⟨p, hp⟩ := ih (clusterStart s c)
    exact ⟨p, hp⟩

/-- With no Mere retired every logical Mere stays where it is. -/
theorem placeSpares_unretired (h : ∀ p, (getMere s p).retired = false) (l : List Nat) : placeSpares l s = s := by
  induction l with
  | nil => rfl
  | cons x l ih => rw [placeSpares, h, if_neg Bool.false_ne_true, ih]

/-- Every Mere of a die that is up and has none retired is exposed. -/
theorem meresExposed_full {d : Nat} (hup : dieState s d = 1) (hmeres : s.compute.meres = []) : meresExposed s d = 128 := by
  rw [meresExposed, hup, if_neg (by decide), retiredOn, hmeres]
  rfl

theorem testMeres_passes (hmeres : s.compute.meres = []) (hbad : rep.badMeres = []) (hc0 : dieState s 0 = 1) (hc1 : dieState s 1 = 1) :
    ∃ p, testMeres s rep = ({ s with power := p }, !failsAt rep 5) := by
  have hnone (p : Power) (x : Nat) : (getMere { s with power := p } x).retired = false := by
    rw [getMere, hmeres]
    rfl
  obtain ⟨p, hp⟩ := clustersStart_power (liveClusters s) { s with power := { s.power with
    domains := ((liveClusters s).map domainOf).foldl addTo s.power.domains } }
  refine ⟨p, ?_⟩
  unfold testMeres
  rw [hbad, List.filter_nil, List.foldl_nil]
  dsimp only
  rw [hp]
  have hplaced : placeSpares (exposedMeres { s with power := p }) { s with power := p } = { s with power := p } :=
    placeSpares_unretired (hnone p) _
  have hfirst : meresExposed { s with power := p } 0 = 128 := meresExposed_full hc0 hmeres
  have hsecond : meresExposed { s with power := p } 1 = 128 := meresExposed_full hc1 hmeres
  rw [hplaced, hfirst, hsecond]
  simp

theorem testPorts_passes (hbad : rep.badPorts = []) (hports : ∀ p, (getPort s p).loopFail = false) :
    testPorts s rep = (s, !failsAt rep 6) := by
  have halive (l : List Nat) (hl : 0 < l.length) : l.all (fun p => (getPort s p).loopFail) = false := by
    simpa [hports] using List.exists_mem_of_length_pos hl
  unfold testPorts
  rw [hbad, List.filter_nil, List.foldl_nil]
  dsimp only
  rw [halive _ (by decide), halive _ (by decide)]
  simp

/-! ## Ready (R363 step 10) -/

/-- What the firmware loads as it becomes ready. -/
def loaded (s : State) (rep : StartReport) : State :=
  { s with
    ctl := { s.ctl with kstate := 1, stage := 7, selftest := 0 }
    power := { s.power with pidle := rep.pidle, pmin := rep.pmin }
    rel := { s.rel with rage := rageWord s }
    spring := { s.spring with means := (List.range 8).map (fun c => (c, Config.classMean c)) } }

/-- What becoming ready leaves, and K's state. -/
theorem becomeReady_state (hgood : ∀ k, 1 ≤ k → k ≤ 4 → ImageGood s k) :
    (becomeReady s rep).ctl = { s.ctl with kstate := 1, stage := 7, selftest := 0 } ∧ (becomeReady s rep).dies = s.dies ∧
      (becomeReady s rep).job = s.job := by
  have hports (l : List Nat) (u : State) : ∃ p, l.foldl (fun s p => setPort s p { getPort s p with
      state := if (getPort s p).enable && !(getPort s p).loopFail then 1 else 0 }) u = { u with ports := p } := by
    induction l generalizing u with
    | nil => exact ⟨u.ports, rfl⟩
    | cons n l ih =>
      obtain ⟨p, hp⟩ := ih (setPort u n { getPort u n with
        state := if (getPort u n).enable && !(getPort u n).loopFail then 1 else 0 })
      exact ⟨p, hp⟩
  have himages : activateImages (loaded s rep) = loaded s rep := activateImages_good hgood
  obtain ⟨p, hp⟩ := hports (List.range 24) (loaded s rep)
  have hready : becomeReady s rep = raiseKirq ((List.range 24).foldl (fun s p => setPort s p { getPort s p with
      state := if (getPort s p).enable && !(getPort s p).loopFail then 1 else 0 }) (activateImages (loaded s rep))) := rfl
  rw [hready, himages, hp, raiseKirq_eq]
  exact ⟨rfl, rfl, rfl⟩

end

end Sys2Proof.Machine
end

section
/-! Start-up (R363-R367): its course over the steps, and the statement. -/

namespace Sys2Proof.Machine

/-! ## The course of the steps -/

/-- A report that tells of no fault but the stage that fails. -/
structure CleanReport (rep : StartReport) : Prop where
  step : rep.discoveryStep = none
  identities : rep.identities = []
  hbm : rep.badStacks = []
  meres : rep.badMeres = []
  ports : rep.badPorts = []
  positions : rep.badPositions = []
  rows : rep.repairedRows = []

/-- A module on which nothing is wrong, as start-up finds it. -/
structure CleanModule (s : State) : Prop where
  dies : s.dies = Dies.reset
  hbm : s.mem.hstacks = []
  meres : s.compute.meres = []
  ports : ∀ p, (getPort s p).loopFail = false
  images : ∀ k, 1 ≤ k → k ≤ 4 → ImageGood s k

section
variable {s a b : State} {rep : StartReport}

theorem startDies_passed {q : Bool} (hd : discover s rep = (a, true)) (hq : qualify a rep = (b, q)) :
    startDies s rep = if q then startUnits b rep else endSafe b 4 := by
  unfold startDies
  rw [hd]
  dsimp only
  rw [hq]
  cases q <;> rfl

theorem startUnits_tested {m p : Bool} (hm : testMeres s rep = (a, m)) (hp : testPorts a rep = (a, p)) :
    startUnits s rep = if m then (if p then startCores a rep else endSafe a 6) else endSafe a 5 := by
  unfold startUnits
  rw [hm]
  dsimp only
  rw [hp]
  cases m <;> cases p <;> rfl

theorem startCores_good (hfails : rep.activeFails = []) (h : ImageGood s 4) : startCores s rep =
    if failsAt rep 7 then endSafe (runImage s 4 (banksOf s 4).active false) 7
    else becomeReady (hbmForget (runImage s 4 (banksOf s 4).active false) coreBase coreSize) rep := by
  unfold startCores
  rw [bootType_good hfails h]
  dsimp only
  rw [Bool.not_true, Bool.or_false]

/-- From step 5 on, on a module on which nothing is wrong, the report's stage alone ends start-up early. -/
theorem startDies_course (hrep : CleanReport rep) (hfails : rep.activeFails = []) (hmod : CleanModule s) (hstage : failsAt rep 3 = false) :
    ∃ q t c, startDies s rep =
      (if failsAt rep 4 then endSafe q 4 else if failsAt rep 5 then endSafe t 5 else if failsAt rep 6 then endSafe t 6
        else if failsAt rep 7 then endSafe c 7 else becomeReady (hbmForget c coreBase coreSize) rep) ∧
      c.ctl = s.ctl ∧ c.job = s.job ∧ (∀ d, d < 6 → dieState c d = 1) ∧ ∀ k, 1 ≤ k → k ≤ 4 → ImageGood c k := by
  obtain ⟨p, d, hdiscover, hfound, hup⟩ := discover_passes hstage hrep.step hrep.identities hrep.positions hmod.dies
  obtain ⟨k, hqualify⟩ := qualify_quiet (s := { s with power := p, dies := d }) hrep.identities hrep.hbm hrep.rows hfound hmod.hbm
  obtain ⟨w, hmeres⟩ := testMeres_passes (s := { s with power := p, dies := d, mem := { s.mem with hstacks := k } }) hmod.meres
    hrep.meres (hup 0 (by decide)) (hup 1 (by decide))
  have hports := testPorts_passes (s := { s with power := w, dies := d, mem := { s.mem with hstacks := k } }) hrep.ports hmod.ports
  have hcores := startCores_good (s := { s with power := w, dies := d, mem := { s.mem with hstacks := k } }) hfails
    (hmod.images 4 (by decide) (by decide))
  refine ⟨{ s with power := p, dies := d, mem := { s.mem with hstacks := k } },
    { s with power := w, dies := d, mem := { s.mem with hstacks := k } },
    runImage { s with power := w, dies := d, mem := { s.mem with hstacks := k } } 4 (banksOf s 4).active false,
    (startDies_passed hdiscover hqualify).trans ?_, rfl, rfl, hup, hmod.images⟩
  rw [startUnits_tested hmeres hports, hcores]
  cases failsAt rep 4 <;> cases failsAt rep 5 <;> cases failsAt rep 6 <;> rfl

end

/-! ## Start-up as a row runs it -/

/-- Steps 1 to 4 touch K's registers, the domains and the security state, and there neither a bank nor a floor. -/
structure EarlyStep (s t : State) : Prop where
  rest : t = { s with ctl := t.ctl, power := t.power, sec := t.sec }
  banks : t.sec.banks = s.sec.banks
  floors : t.sec.floors = s.sec.floors

section
variable {s u t : State} {rep : StartReport}

theorem Counted.safe_ctl {code : Nat} (h : Counted u t) (hu : ∃ v, u = endSafe v code) :
    t.ctl.kstate = 2 ∧ t.ctl.stage = code ∧ t.ctl.selftest = code := by
  obtain ⟨v, rfl⟩ := hu
  rw [h]
  exact endSafe_ctl v code

theorem Counted.kept (h : Counted u t) : (t.ctl.kstate = u.ctl.kstate ∧ t.ctl.stage = u.ctl.stage ∧ t.ctl.selftest = u.ctl.selftest ∧
    t.ctl.endpointOn = u.ctl.endpointOn) ∧ (∀ d, dieState t d = dieState u d) ∧ t.job = u.job := by
  rw [h]
  exact ⟨⟨rfl, rfl, rfl, rfl⟩, fun _ => rfl, rfl⟩

theorem endNoFirmware_ctl (u : State) (code : Nat) : (endNoFirmware u code).ctl.noFirmware = true ∧
    (endNoFirmware u code).ctl.stage = code ∧ (endNoFirmware u code).ctl.selftest = code ∧
    (endNoFirmware u code).ctl.kstate = u.ctl.kstate ∧ (endNoFirmware u code).power.domains = [94, 95] := ⟨rfl, rfl, rfl, rfl, rfl⟩

theorem Counted.noFirmware_ctl {code : Nat} (h : Counted u t) (hu : ∃ v, u = endNoFirmware v code ∧ v.ctl.kstate = 0) :
    t.ctl.noFirmware = true ∧ t.ctl.stage = code ∧ t.ctl.selftest = code ∧ t.ctl.kstate = 0 ∧ t.power.domains = [94, 95] := by
  obtain ⟨v, rfl, hkstate⟩ := hu
  rw [h, ← hkstate]
  exact endNoFirmware_ctl v code

/-- Two states whose image banks and fused floors agree have the same good images. -/
theorem ImageGood.of_sec {k : Nat} (hbanks : u.sec.banks = s.sec.banks) (hfloors : u.sec.floors = s.sec.floors) (h : ImageGood s k) :
    ImageGood u k := by
  rw [ImageGood, banksOf, fusedFloor, hbanks, hfloors]
  exact h

theorem EarlyStep.trans (h : EarlyStep s u) (g : EarlyStep u t) : EarlyStep s t := by
  refine ⟨?_, g.banks.trans h.banks, g.floors.trans h.floors⟩
  rw [g.rest, h.rest]

theorem runImage_early (s : State) (k : Nat) (i : Option Image) (b : Bool) : EarlyStep s (runImage s k i b) := ⟨rfl, rfl, rfl⟩

theorem startBegun_early (s : State) : EarlyStep s (startBegun s) := ⟨rfl, rfl, rfl⟩

theorem endpointUp_early (s : State) : EarlyStep s (endpointUp s) := ⟨rfl, rfl, rfl⟩

theorem startPowered_early (s : State) : EarlyStep s (startPowered s) :=
  ((((startBegun_early s).trans (runImage_early ..)).trans (runImage_early ..)).trans (runImage_early ..)).trans (endpointUp_early _)

theorem startPowered_endpointOn (s : State) : (startPowered s).ctl.endpointOn = true := rfl

/-- A clean module stays clean. -/
theorem CleanModule.early (h : CleanModule s) (hstep : EarlyStep s u) : CleanModule u := by
  obtain ⟨hrest, hbanks, hfloors⟩ := hstep
  rw [hrest]
  exact ⟨h.dies, h.hbm, h.meres, h.ports, fun k hlow hhigh => (h.images k hlow hhigh).of_sec hbanks hfloors⟩

theorem startPowered_job (s : State) : (startPowered s).job = s.job := by
  rw [(startPowered_early s).rest]

theorem startBegun_kstate (s : State) : (startBegun s).ctl.kstate = 0 := rfl

/-- Stage 1 or 2 that fails. -/
theorem startUp_fails_early {k : Nat} (hk : k = 1 ∨ k = 2) (hstage : rep.failStage = some k) :
    ∃ v, startUp s rep = endNoFirmware v k ∧ v.ctl.kstate = 0 := by
  rcases hk with rfl | rfl
  · exact ⟨_, startUp_fails_one hstage, startBegun_kstate s⟩
  · exact startUp_fails_two hstage

/-- A stage from 4 to 7 that fails. -/
theorem startUp_fails_late {k : Nat} (hlow : 4 ≤ k) (hhigh : k ≤ 7) (hstage : rep.failStage = some k) (hrep : CleanReport rep)
    (hfails : rep.activeFails = []) (hmod : CleanModule s) : ∃ v, startUp s rep = endSafe v k := by
  have hfail (j : Nat) : failsAt rep j = (k == j) := failsAt_of hstage
  have hnot (j : Nat) (hj : j < 4) : failsAt rep j = false := by rw [hfail, beq_eq_false_iff_ne]; omega
  obtain ⟨q, t, c, hcourse, -⟩ := startDies_course hrep hfails (hmod.early (startPowered_early s)) (hnot 3 (by decide))
  rw [startUp_powered (hnot 1 (by decide)) (hnot 2 (by decide)) hfails hmod.images, hcourse]
  simp only [hfail]
  obtain rfl | rfl | rfl | rfl : k = 4 ∨ k = 5 ∨ k = 6 ∨ k = 7 := by omega
  · exact ⟨q, rfl⟩
  · exact ⟨t, rfl⟩
  · exact ⟨t, rfl⟩
  · exact ⟨c, rfl⟩

/-- With no stage failing the module becomes ready. -/
theorem startUp_ready (hstage : rep.failStage = none) (hrep : CleanReport rep) (hfails : rep.activeFails = []) (hmod : CleanModule s) :
    (startUp s rep).ctl.kstate = 1 ∧ (startUp s rep).ctl.stage = 7 ∧ (startUp s rep).ctl.selftest = 0 ∧
      (startUp s rep).ctl.endpointOn = true ∧ (∀ d, d < 6 → dieState (startUp s rep) d = 1) ∧ (startUp s rep).job = s.job := by
  have hnot (j : Nat) : failsAt rep j = false := by rw [failsAt, hstage]; rfl
  obtain ⟨q, t, c, hcourse, hctl, hjob, hup, himages⟩ := startDies_course hrep hfails (hmod.early (startPowered_early s)) (hnot 3)
  obtain ⟨hready, hdies, hkept⟩ := becomeReady_state (s := hbmForget c coreBase coreSize) (rep := rep) himages
  have hend : startUp s rep = becomeReady (hbmForget c coreBase coreSize) rep := by
    rw [startUp_powered (hnot 1) (hnot 2) hfails hmod.images, hcourse]
    simp only [hnot, Bool.false_eq_true, if_false]
  have hstates (d : Nat) : dieState (becomeReady (hbmForget c coreBase coreSize) rep) d = dieState c d :=
    congrArg (fun x => mget 0 (Dies.states x) d) hdies
  rw [hend, hready]
  exact ⟨rfl, rfl, rfl, (congrArg Control.endpointOn hctl).trans (startPowered_endpointOn s), fun d hd => (hstates d).trans (hup d hd),
    (hkept.trans hjob).trans (startPowered_job s)⟩

/-- A row that starts the module up from `put s`, which differs from `s` in K's registers and the pins alone. -/
theorem startsUp_of {i : StartReport → Instr} {put : State → State} (hput : ∀ s, put s = { s with ctl := (put s).ctl, pins := (put s).pins })
    (hexec : ∀ s rep, 95 ∈ s.power.domains → notStarted s = true → exec (i rep) s = .next (capSync s (tryStart (put s) rep))) :
    StartsUp i put := by
  intro s rep hon hnew
  have hrow := hexec s rep hon hnew
  have hrun (hmay : mayStart (put s) rep = true) : exec (i rep) s = .next (capSync s (startUp (put s) rep)) := by
    rw [hrow, tryStart, if_pos hmay]
  have hcount := capSync_counted s (startUp (put s) rep)
  refine ⟨?_, ?_, ?_⟩
  · intro hwait
    rw [tryStart, if_neg (by simp [hwait])] at hrow
    exact ⟨_, hrow, capSync_counted s (put s)⟩
  · intro k hk hmay hstage
    exact ⟨_, hrun hmay, hcount.noFirmware_ctl (startUp_fails_early hk hstage)⟩
  intro hmay _ hfails himages
  refine ⟨?_, ?_⟩
  · intro hstage
    have hgood : ∀ k, 1 ≤ k → k ≤ 4 → ImageGood (put s) k := fun k hlow hhigh => by
      rw [hput s]
      exact himages k hlow hhigh
    have hfail (j : Nat) : failsAt rep j = (3 == j) := failsAt_of hstage
    have hdies : startUp (put s) rep = startDies (startPowered (put s)) rep := startUp_powered (hfail 1) (hfail 2) hfails hgood
    exact ⟨_, hrun hmay, hcount.safe_ctl (hdies ▸ startDies_fails (hfail 3))⟩
  intro hstep hids hstacks hmeres hports hlanes hrows hdies hempty hidle hloop
  have hrep : CleanReport rep := ⟨hstep, hids, hstacks, hmeres, hports, hlanes, hrows⟩
  have hmod : CleanModule (put s) := by
    rw [hput s]
    exact ⟨hdies, hempty, hidle, hloop, himages⟩
  refine ⟨?_, ?_⟩
  · intro k hlow hhigh hstage
    exact ⟨_, hrun hmay, hcount.safe_ctl (startUp_fails_late hlow hhigh hstage hrep hfails hmod)⟩
  · intro hstage
    obtain ⟨hkstate, hcode, htest, hendpoint, hup, hjob⟩ := startUp_ready hstage hrep hfails hmod
    obtain ⟨hready, hdie, hsame⟩ := hcount.kept
    have hloaded : (put s).job = s.job := by rw [hput s]
    exact ⟨_, hrun hmay, hready.1.trans hkstate, hready.2.1.trans hcode, hready.2.2.1.trans htest, hready.2.2.2.trans hendpoint,
      fun d hd => (hdie d).trans (hup d hd), congrArg Job.loaded ((hsame.trans hjob).trans hloaded)⟩

end

/-- Settles O34: the three rows run one start-up, whose course is followed step by step. -/
theorem startUpBecomesReadyOrStops : Obligations.StartUpBecomesReadyOrStops := by
  unfold Obligations.StartUpBecomesReadyOrStops
  refine ⟨startsUp_of (fun _ => rfl) fun s rep hon hnew => ?good, startsUp_of (fun _ => rfl) fun s rep hon hnew => ?released,
    startsUp_of (fun _ => rfl) fun s rep _ hnew => ?restored⟩
  case good =>
    refine congrArg Host.Outcome.next ((if_pos ?_).trans (if_pos hnew))
    simpa using hon
  case released =>
    refine congrArg Host.Outcome.next ((if_pos ?_).trans (if_pos hnew))
    simpa using hon
  case restored => exact congrArg Host.Outcome.next (if_pos hnew)

end Sys2Proof.Machine
end
